-- ==== Sys2Proof/Word.lean ====
section
/-! DEFINITION. The words of the device: 64-bit register values (R3), 72-bit native words (R30, R51) and 36-bit instructions (R38). -/

namespace Sys2Proof

/-- A register value or the value part of a native word (R3, R30). -/
abbrev Word := BitVec 64

/-- A native word: value in bits [63:0], tag in bits [71:64] (R30). -/
abbrev TWord := BitVec 72

/-- An instruction (R38). -/
abbrev IWord := BitVec 36

end Sys2Proof
end

