-- ==== Sys2Proof/Syntax.lean ====
section
/-! DEFINITION. The commands of the device as data: operand types, and one constructor for each row of the opcode table. -/

namespace Sys2Proof

/-- A thread identity (R30, c0): 0 to 1,023 an engine thread, cluster * 64 + t; 1,024 + core a Basecamp core. -/
abbrev Tid := Fin 1028
/-- An engine thread: cluster * 64 + t. -/
abbrev Eid := Fin 1024
/-- A function number (R432). -/
abbrev Fid := Fin 1024
/-- A queue number (R94). -/
abbrev Qid := Fin 65536
/-- A fabric port. -/
abbrev Pid := Fin 64
/-- A host port. -/
abbrev Hid := Fin 4
/-- An engine or DMA cluster. -/
abbrev Clu := Fin 16
/-- A message slot (R168). -/
abbrev Sid := Fin 65536
/-- A device identity: group and member. -/
abbrev DevId := BitVec 18
/-- An endpoint: device in [27:10], function in [9:0]. -/
abbrev Endp := BitVec 28
/-- A collective context (R250). -/
abbrev Cid := Fin 4096
/-- An interrupt target (R440). -/
abbrev Tgt := Fin 1025
/-- The 28-bit extension of an instruction slot (R40, R82). -/
abbrev Ext := BitVec 28

/-- Format A of R38. -/
structure FmtA where
  wd : BitVec 5
  wa : BitVec 5
  wb : BitVec 5
  guard : BitVec 4
  fn : BitVec 9
deriving DecidableEq, Repr

/-- Format I of R38. -/
structure FmtI where
  wd : BitVec 5
  wa : BitVec 5
  guard : BitVec 4
  imm : BitVec 14
deriving DecidableEq, Repr

/-- Format W of R38. -/
structure FmtW where
  wd : BitVec 5
  imm : BitVec 23
deriving DecidableEq, Repr

/-- Format B of R38. -/
structure FmtB where
  guard : BitVec 4
  off : BitVec 24
deriving DecidableEq, Repr

/-- What a read of an ECC memory meets (R481): no error, a correctable one, an uncorrectable one. -/
inductive Ecc where | none | ce | ue
deriving DecidableEq, Repr

/-- How a read that the device issued ends (R429): data, little-endian, with the poison mark; or an error completion. -/
inductive Cpl where
  | ok (data : Nat) (poison : Bool)
  | err
deriving DecidableEq, Repr

/-- A cell (R294): its 128-bit header and its 64-byte payload, byte k in bits [8k+7:8k]. -/
structure Cell where
  hdr : BitVec 128
  pay : BitVec 512
deriving DecidableEq, Repr

/-- The requester of a register access (R516, R595): the physical function of mailbox number m (R507), a virtual function,
a Basecamp core, or the debug port. -/
inductive Req where
  | pf (m : Fin 8)
  | vf (fn : Fid)
  | bcp
  | dbg
deriving DecidableEq, Repr

/-- Where a register access of the host or the debug port goes: the register space, a function's BAR4 or its configuration
space (R426, R436), or, from the debug port, the scratch of a cluster or Basecamp's SRAM, as 16 (R492). -/
inductive RegAcc where
  | bar0 (r : Req)
  | bar4 (fn : Fid)
  | cfg (fn : Fid)
  | mem (c : Fin 17)
deriving DecidableEq, Repr

/-- A memory that caches a copy held elsewhere (R481): the instruction memory and the L1 TLBs of a cluster, its untagged
partition, the L2 TLB, the walk cache, the window cache, the descriptor cache. -/
inductive CacheMem where
  | imem (c : Clu)
  | l1i (c : Clu)
  | l1d (c : Clu)
  | part (c : Clu)
  | l2
  | walk
  | window
  | descriptor
deriving DecidableEq, Repr

/-- What a scrub step reads (R484): the next word of the Depot's pass; or on-die, a word of a cluster's scratch or of
Basecamp's SRAM (16), entry `k` of a caching memory, a word of another memory, or the last word of the pass. -/
inductive ScrubAt where
  | depot
  | scratch (c : Fin 17) (word : BitVec 20)
  | cache (m : CacheMem) (k : Nat)
  | other
  | passEnd
deriving DecidableEq, Repr

/-- A write of DMA_CTR_ADD (R456): who writes, and the value. -/
structure CtrAddW where
  rq : Req
  value : BitVec 48
deriving DecidableEq, Repr

/-- A place in a function's BAR2 (R436). -/
structure Bar2 where
  fn : Fid
  off : BitVec 24
deriving DecidableEq, Repr

/-- What the CRC-64 of a received frame shows (R359, R360). -/
inductive Crc where | good | stomped | corrupt
deriving DecidableEq, Repr

/-- A received frame but for its body: the header of R358, the HOLD words before the CRC-64, the CRC-64, the physical lanes
with an uncorrectable codeword that no earlier frame has met, and whether it holds flagged words of one that an earlier frame
met (R385, R394). -/
structure FrameHdr where
  hdr : BitVec 128
  holds : Nat
  crc : BitVec 64
  uncorr : BitVec 4
  flagged : Bool := false
deriving DecidableEq, Repr

/-- A DATA frame as received, with its cells. Bit i of `early` says that cell i stood at its output before the frame's verdict
(R370). -/
structure DataFrame where
  hdr : FrameHdr
  cells : List Cell
  early : BitVec 8
deriving DecidableEq, Repr

/-- A CONTROL frame as received: word Ck of R380 is bits [64k + 63 : 64k] of the body. -/
structure CtlFrame where
  hdr : FrameHdr
  body : BitVec 512
deriving DecidableEq, Repr

/-- A Rope packet as received (R413, R415): TTL, source and destination words, the body's length and bytes, the CRC-32, and
whether it ended with ABORT. -/
structure RopeFrame where
  ttl : BitVec 8
  src : BitVec 32
  dst : BitVec 32
  len : Nat
  body : Nat
  crc : BitVec 32
  abort : Bool
deriving DecidableEq, Repr

/-- Why a Rope port goes DOWN (R414): the symbols with a code or disparity error among 32 of one lane, or 4,096 columns without
an ALIGN set (none). -/
structure RopeLoss where
  r : Fin 2
  errs : Option (BitVec 32)
deriving DecidableEq, Repr

/-- What the receivers report with a training frame: that its own meets the error target, and which have seen energy and locked
their clock so far (R398, R400). -/
structure TrainRx where
  met : Bool
  energy : BitVec 4
  clock : BitVec 4
deriving DecidableEq, Repr

/-- What a calibration finds: the inputs quiet, and the lanes whose receiver fails (R402). -/
structure CalIn where
  quiet : Bool
  failed : BitVec 4
deriving DecidableEq, Repr


/-- The commands: one constructor per row of the opcode table, in its order. -/
inductive Instr where
  /-- Instruction nop issues and does nothing but use its issue slot. (R72) -/
  | nop (th : Tid) (f : FmtA) (ext : Ext)
  /-- Instruction trap raises cause SOFTWARE with imm14 in TVAL and enters the trap handler. (R72) -/
  | trap (th : Tid) (f : FmtI) (ext : Ext)
  /-- Instruction yield makes the thread ready again after its turn so other threads issue first. (R72) -/
  | yield (th : Tid) (f : FmtA) (ext : Ext)
  /-- Instruction halt ends the activation, updating slot activity counts and, for a trap activation, the entry's status. (R72) -/
  | halt (th : Tid) (f : FmtA) (ext : Ext)
  /-- Instruction eret restores the trapped state from the save area and resumes, or ends a trap event so the waiting access proceeds. (R77) -/
  | eret (th : Tid) (f : FmtA) (ext : Ext)
  /-- Instruction rdc reads a context register into wd under the access table. (R30) -/
  | rdc (th : Tid) (f : FmtA) (ext : Ext)
  /-- Instruction wrc writes a context register, arming the timer for c20 or switching ASID for c2. (R30) -/
  | wrc (th : Tid) (f : FmtA) (ext : Ext)
  /-- Instruction prog.swap installs a new version of a program slot or returns SWAP_BUSY while the slot drains. (R86) -/
  | progSwap (th : Tid) (f : FmtA) (ext : Ext)
  /-- Instruction exc.fwd copies an exception record into the function's exception queue or returns EXC_BUSY. (R511) -/
  | excFwd (th : Tid) (f : FmtA) (ext : Ext)
  /-- Instruction alu computes wd = wa op wb with the operation chosen by fn. (R42) -/
  | alu (th : Tid) (f : FmtA) (ext : Ext)
  /-- Instruction addi adds the effective immediate to wa. (R43) -/
  | addi (th : Tid) (f : FmtI) (ext : Ext)
  /-- Instruction andi ands wa with the effective immediate. (R43) -/
  | andi (th : Tid) (f : FmtI) (ext : Ext)
  /-- Instruction ori ors wa with the effective immediate. (R43) -/
  | ori (th : Tid) (f : FmtI) (ext : Ext)
  /-- Instruction xori exclusive-ors wa with the effective immediate. (R43) -/
  | xori (th : Tid) (f : FmtI) (ext : Ext)
  /-- Instruction shli shifts wa left by an immediate count. (R43) -/
  | shli (th : Tid) (f : FmtI) (ext : Ext)
  /-- Instruction shri shifts wa right logically by an immediate count. (R43) -/
  | shri (th : Tid) (f : FmtI) (ext : Ext)
  /-- Instruction srai shifts wa right arithmetically by an immediate count. (R43) -/
  | srai (th : Tid) (f : FmtI) (ext : Ext)
  /-- Instruction movi sets wd to the effective immediate with tag 0. (R44) -/
  | movi (th : Tid) (f : FmtW) (ext : Ext)
  /-- Instruction movk replaces one 16-bit field of wd. (R44) -/
  | movk (th : Tid) (f : FmtW) (ext : Ext)
  /-- Instruction bit applies popc, clz, ctz, bswap or brev to wa. (R45) -/
  | bit (th : Tid) (f : FmtA) (ext : Ext)
  /-- Instruction sel chooses wa or wb by a predicate. (R46) -/
  | sel (th : Tid) (f : FmtA) (ext : Ext)
  /-- Instruction cmp writes a predicate from comparing wa and wb. (R47) -/
  | cmp (th : Tid) (f : FmtA) (ext : Ext)
  /-- Instruction cmpi.eq writes a predicate from an equality test against the immediate. (R47) -/
  | cmpiEq (th : Tid) (f : FmtI) (ext : Ext)
  /-- Instruction cmpi.lt writes a predicate from a signed less-than test against the immediate. (R47) -/
  | cmpiLt (th : Tid) (f : FmtI) (ext : Ext)
  /-- Instruction cmpi.ltu writes a predicate from an unsigned less-than test against the immediate. (R47) -/
  | cmpiLtu (th : Tid) (f : FmtI) (ext : Ext)
  /-- Instruction pop combines two predicates into a third. (R48) -/
  | pop (th : Tid) (f : FmtA) (ext : Ext)
  /-- Instruction tag.get sets wd to the tag of wa. (R49) -/
  | tagGet (th : Tid) (f : FmtA) (ext : Ext)
  /-- Instruction tag.set sets wd to wa's value with a new tag from wb, trapping PRIVILEGE for a user clearing poison. (R49) -/
  | tagSet (th : Tid) (f : FmtA) (ext : Ext)
  /-- Instruction tag.seti sets wd to wa's value with an immediate tag. (R49) -/
  | tagSeti (th : Tid) (f : FmtI) (ext : Ext)
  /-- Instruction tag.tst sets a predicate from wa's DTYPE and POISON. (R49) -/
  | tagTst (th : Tid) (f : FmtI) (ext : Ext)
  /-- Instruction ld.s loads a tagged word from cluster scratch. (R51) -/
  | ldS (th : Tid) (f : FmtI) (ext : Ext) (ecc : Ecc)
  /-- Instruction st.s stores a tagged word to cluster scratch. (R51) -/
  | stS (th : Tid) (f : FmtI) (ext : Ext)
  /-- Instruction ld.d loads a tagged word from the Depot. (R51) -/
  | ldD (th : Tid) (f : FmtI) (ext : Ext) (ecc : Ecc)
  /-- Instruction st.d stores a tagged word to the Depot. (R51) -/
  | stD (th : Tid) (f : FmtI) (ext : Ext)
  /-- Instruction ld.h issues a translated host-memory read and stalls until it returns. (R51) -/
  | ldH (th : Tid) (f : FmtI) (ext : Ext)
  /-- Instruction st.h issues a translated posted host-memory write. (R51) -/
  | stH (th : Tid) (f : FmtI) (ext : Ext)
  /-- Instruction ld.w reads host memory through a window after its window check. (R51) -/
  | ldW (th : Tid) (f : FmtA) (ext : Ext)
  /-- Instruction st.w writes host memory through a window after its window check. (R51) -/
  | stW (th : Tid) (f : FmtA) (ext : Ext)
  /-- Instruction ld.p reads host memory by bus address, or the register space from Basecamp. (R51) -/
  | ldP (th : Tid) (f : FmtI) (ext : Ext)
  /-- Instruction st.p writes host memory by bus address, or the register space from Basecamp. (R51) -/
  | stP (th : Tid) (f : FmtI) (ext : Ext)
  /-- Instruction amo.s performs an atomic read-modify-write of a scratch word. (R56) -/
  | amoS (th : Tid) (f : FmtA) (ext : Ext) (ecc : Ecc)
  /-- Instruction put hands a put operation to RMA, stalling until a message slot is held. (R57) -/
  | put (th : Tid) (f : FmtA) (ext : Ext)
  /-- Instruction get hands a get operation to RMA. (R58) -/
  | get (th : Tid) (f : FmtA) (ext : Ext)
  /-- Instruction send hands an eager or rendezvous send to RMA. (R233) -/
  | send (th : Tid) (f : FmtA) (ext : Ext)
  /-- Instruction ud.send hands an unreliable datagram to RMA. (R195) -/
  | udSend (th : Tid) (f : FmtA) (ext : Ext)
  /-- Instruction amo hands a remote atomic to RMA. (R60) -/
  | amo (th : Tid) (f : FmtA) (ext : Ext)
  /-- Instruction amo.f hands a fetching remote atomic to RMA and stalls until its reply. (R60) -/
  | amoF (th : Tid) (f : FmtA) (ext : Ext)
  /-- Instruction mt.post posts a receive, matching an unexpected message or joining the posted lists. (R213) -/
  | mtPost (th : Tid) (f : FmtA) (ext : Ext)
  /-- Instruction mt.probe searches for a matching unexpected message without changing anything. (R216) -/
  | mtProbe (th : Tid) (f : FmtA) (ext : Ext)
  /-- Instruction mt.cancel removes a posted unmatched receive or returns MT_NOT_FOUND. (R217) -/
  | mtCancel (th : Tid) (f : FmtA) (ext : Ext)
  /-- Instruction ctr.add advances a trigger counter by the immediate. (R63) -/
  | ctrAdd (th : Tid) (f : FmtI) (ext : Ext)
  /-- Instruction ctr.wait stalls until a counter reaches a threshold. (R63) -/
  | ctrWait (th : Tid) (f : FmtA) (ext : Ext)
  /-- Instruction ctr.read sets wd to a counter's value. (R63) -/
  | ctrRead (th : Tid) (f : FmtA) (ext : Ext)
  /-- Instruction defer defers the following operation until a counter threshold, issuing it at once if already reached. (R64) -/
  | defer (th : Tid) (f : FmtA) (ext : Ext) (nxt : IWord) (nxtExt : Ext)
  /-- Instruction col.step contributes to the open or next epoch of a collective context. (R260) -/
  | colStep (th : Tid) (f : FmtA) (ext : Ext)
  /-- Instruction col.wait stalls until the thread's last contributed epoch closes and returns its status. (R268) -/
  | colWait (th : Tid) (f : FmtA) (ext : Ext)
  /-- Instruction col.red combines wa and wb element by element in ordinary arithmetic. (R271) -/
  | colRed (th : Tid) (f : FmtA) (ext : Ext)
  /-- Instruction col.ctx create checks a descriptor, reserves staging and enters LINKING. (R254) -/
  | colCtxCreate (th : Tid) (f : FmtA) (ext : Ext)
  /-- Instruction col.ctx destroy moves a context to DRAINING. (R259) -/
  | colCtxDestroy (th : Tid) (f : FmtA) (ext : Ext)
  /-- Instruction fence.local stalls until the scope's earlier local accesses are visible. (R66) -/
  | fenceLocal (th : Tid) (f : FmtA) (ext : Ext)
  /-- Instruction fence.remote stalls until earlier message operations of the scope reach their completion level. (R66) -/
  | fenceRemote (th : Tid) (f : FmtA) (ext : Ext)
  /-- Instruction fence.durable waits as fence.remote, then sends FLUSH cells and a flush read and stalls until all complete. (R204) -/
  | fenceDurable (th : Tid) (f : FmtA) (ext : Ext)
  /-- Instruction pit.acq acquires a Piton or waits in its queue. (R464) -/
  | pitAcq (th : Tid) (f : FmtA) (ext : Ext)
  /-- Instruction pit.try acquires a Piton or returns a status at once. (R464) -/
  | pitTry (th : Tid) (f : FmtA) (ext : Ext)
  /-- Instruction pit.rel releases a Piton, handing it to the first waiter. (R464) -/
  | pitRel (th : Tid) (f : FmtA) (ext : Ext)
  /-- Instruction br transfers control when its guard is satisfied. (R69) -/
  | br (th : Tid) (f : FmtB) (ext : Ext)
  /-- Instruction call transfers control and writes the link to w31. (R69) -/
  | call (th : Tid) (f : FmtB) (ext : Ext)
  /-- Instruction jr transfers to a code address within the running slot and version. (R69) -/
  | jr (th : Tid) (f : FmtA) (ext : Ext)
  /-- Instruction invoke transfers the activation to an entry of another program slot. (R71) -/
  | invoke (th : Tid) (f : FmtW) (ext : Ext)
  /-- Fabric time reaches a thread's armed c20 value and a timer event is raised. (R31) -/
  | timerExpire (th : Tid)
  /-- A pending event begins an activation on a waiting thread of an allowed cluster. (R80) -/
  | eventStart (th : Tid)
  /-- An instruction-memory line fill returns and the waiting thread continues or traps XLT_FAULT. (R84) -/
  | imemFillDone (th : Tid) (cpl : Cpl)
  /-- A write of ENG_THR_CTL.RESTART returns a STOPPED thread to WAIT with registers cleared. (R78) -/
  | thrRestart (th : Eid)
  /-- A doorbell write proposes a new PROD and is applied, discarded as stale, or stops the queue with DB_OVERRUN. (R95) The
  access has a place in a function's BAR2 (R94, R100); one without a value is a read. A write that spans several areas is
  a command for each, in ascending order (R439). -/
  | doorbell (a : Bar2) (size : Nat) (value : Option Word)
  /-- A write to a push area adds bytes to a push, which is used once all 64 bytes have arrived. (R97) -/
  | pushWrite (a : Bar2) (mask : BitVec 64) (data : BitVec 512)
  /-- A push incomplete 1 µs after its first byte is treated as a doorbell or discarded. (R97) -/
  | pushTimeout (q : Qid)
  /-- Command ENABLE starts a queue's preparation, latches, or fails with CFG_INVALID. (R102) -/
  | wqEnable (q : Qid)
  /-- Command DISABLE stops dispatch and moves the queue to DRAINING. (R102) -/
  | wqDisable (q : Qid)
  /-- Command RESUME leaves ERROR and redispatches the stopped entry. (R121) -/
  | wqResume (q : Qid)
  /-- Command SKIP completes the stopped entry with CMD_SKIPPED and leaves ERROR. (R121) -/
  | wqSkip (q : Qid)
  /-- Command INVAL discards cached lines and unused pushes of the queue from INVAL_SEQ onward. (R110) -/
  | wqInval (q : Qid)
  /-- A write of WQ_CTX_CTL.HOLD stops or resumes dispatch of the queue. (R104) -/
  | wqHold (q : Qid) (v : Bool)
  /-- A write of WQ_CTX_PROD_SEQ in OFF sets PROD, DISP and COMP. (R122) -/
  | wqProdWrite (q : Qid) (v : BitVec 32)
  /-- A queue's preparation ends and it enters RUN, HOLD or ERROR with its status record written. (R102) -/
  | wqEnableDone (q : Qid)
  /-- The last activation and operation of a draining queue end and it enters OFF. (R102) -/
  | wqDrainDone (q : Qid)
  /-- The device dispatches entry DISP of a ready queue to a waiting thread, fetching it from the ring if not cached. (R105) -/
  | wqDispatch (fn : Fid) (th : Eid)
  /-- The ring read of a dispatch fetch returns and the entry is checked and started, or the queue stops with FETCH_FAULT. (R105) -/
  | wqFetchDone (q : Qid) (cpl : Cpl)
  /-- The device reads up to four entries beyond DISP into the descriptor cache. (R108) -/
  | wqPrefetch (q : Qid) (seq : BitVec 32) (n : Nat)
  /-- A descriptor prefetch returns and fills the cache, or is dropped on failure. (R108) -/
  | wqPrefetchDone (q : Qid) (seq : BitVec 32) (cpl : Cpl)
  /-- At the end of the coalescing window the device writes STATUS write-backs, the status record and the interrupt. (R114) -/
  | statusRecordWrite (q : Qid)
  /-- A table-walk host read returns and the walk continues, installs a translation, or fails with XLT_FAULT. (R128) -/
  | xltWalkReadDone (walk : Nat) (cpl : Cpl)
  /-- An L2 TLB or walk-cache entry unhit for the age limit is released. (R136) -/
  | tlbAgeRelease (asid : BitVec 16) (va : BitVec 57) (walkCache : Bool)
  /-- Command KIND VA invalidates an ASID's entries over an aligned region and takes a ticket. (R141) -/
  | xltInvVa (p : Hid) (asid : BitVec 16) (size : BitVec 6) (walk : Bool)
  /-- Command KIND ASID invalidates every entry of an ASID and takes a ticket. (R141) -/
  | xltInvAsid (p : Hid) (asid : BitVec 16)
  /-- Command KIND ALL invalidates every cached entry and takes a ticket. (R141) -/
  | xltInvAll (p : Hid)
  /-- Once partial walks end, the invalidation issues a flush read on each link of its port. (R143) -/
  | xltInvFlushIssue (p : Hid)
  /-- The invalidation's flush read completes and DONE takes its ticket. (R143) -/
  | xltInvDone (p : Hid) (link : Fin 2) (cpl : Cpl)
  /-- Command OPEN checks arguments and limits and opens a window with a new handle. (R151) -/
  | winOpen (fn : Fid)
  /-- Command REVOKE makes a window REVOKING and returns a ticket. (R154) -/
  | winRevoke (fn : Fid) (handle : BitVec 32)
  /-- An open finishes and BUSY clears with the handle or failure status in WIN_FN_RESULT. (R152) -/
  | winOpenDone (fn : Fid)
  /-- The drain limit passes and every admitted use of the revoked window still open is cancelled. (R155) -/
  | winDrainLimit (fn : Fid) (ticket : BitVec 32)
  /-- When admitted uses are done the revoke issues a flush read on the owner's link. (R155) -/
  | winRevokeFlush (fn : Fid) (ticket : BitVec 32)
  /-- The revoke's flush read completes, the window becomes FREE and DONE advances in ticket order. (R156) -/
  | winRevokeFree (fn : Fid) (ticket : BitVec 32) (cpl : Cpl)
  /-- A PUT head cell arrives and is checked, placed and acknowledged or NACKed. (R175) -/
  | rxPut (c : Cell)
  /-- A GET head cell arrives, is checked, and starts the source read for the reply. (R190) -/
  | rxGet (c : Cell)
  /-- A SEND head cell arrives and passes the Cairn, head-cell checks and send ordering toward matching, or is a rendezvous finish. (R234) -/
  | rxSend (c : Cell)
  /-- A SEND_RDV head cell arrives and is ordered, matched or stored unexpected, and acknowledged. (R239) -/
  | rxSendRdv (c : Cell)
  /-- A datagram's cells complete and it is written to the function's datagram ring or discarded. (R196) -/
  | rxUd (c : Cell)
  /-- An AMO head cell arrives, passes the Cairn and window check, and reads the target word. (R192) -/
  | rxAmo (c : Cell)
  /-- An AMO_F head cell arrives, passes the Cairn and window check, and reads the target word. (R192) -/
  | rxAmoF (c : Cell)
  /-- A FLUSH head cell arrives and the target issues a flush read for the destination function. (R204) -/
  | rxFlush (c : Cell)
  /-- A RELEASE head cell arrives and releases the matching Cairn entry. (R188) -/
  | rxRelease (c : Cell)
  /-- A data cell arrives and is placed, staged, or discarded as a duplicate or out of range. (R173) -/
  | rxDataCell (c : Cell)
  /-- Every expected cell is counted and every write issued, so the receiver sends its response. (R177) -/
  | rmaResponseSend (src : DevId) (slot : Sid) (gen : BitVec 4)
  /-- A flush read for a DUR or FLUSH request completes and the durable ACK or HOST_ERROR NACK is sent. (R177) -/
  | durFlushDone (src : DevId) (slot : Sid) (gen : BitVec 4) (cpl : Cpl)
  /-- The target's read of get source data returns and reply cells are sent, or NACK_ERR. (R190) -/
  | getSourceReadDone (job : Nat) (off : Nat) (cpl : Cpl)
  /-- The read of an atomic's target word returns; the result is written back and the entry completed. (R192) -/
  | amoReadDone (job : Nat) (cpl : Cpl)
  /-- A get reply cell arrives at the requester and is placed and counted, completing the get on the last. (R191) -/
  | rxGetReply (c : Cell)
  /-- A response cell arrives at the sender and completes the segment, or is stale and discarded. (R179) -/
  | rmaResponse (c : Cell)
  /-- An attempt's interval ends without ACK and the segment is retransmitted or fails. (R180) -/
  | rmaRetryTimeout (slot : Sid)
  /-- A quiet slot's QUIET_US ends; the slot is freed, its generation advances and a RELEASE may be sent. (R171) -/
  | slotQuietExpire (slot : Sid)
  /-- A receive context with no cell for RX_IDLE_US closes without response. (R176) -/
  | rxIdleClose (src : DevId) (slot : Sid) (gen : BitVec 4)
  /-- A Cairn entry reaches its lifetime and is released. (R187) -/
  | cairnExpire (src : DevId) (slot : Sid) (gen : BitVec 4)
  /-- Depot space frees and a held get reserves its reply space and is sent. (R12) -/
  | getReserve (slot : Sid)
  /-- A message reader read of source data returns and data cells are built, or the segment fails. (R444) -/
  | msgReadDone (slot : Sid) (off : Nat) (cpl : Cpl)
  /-- A waiting segment is admitted to its destination window and charged. (R342) -/
  | ccAdmit (dev : DevId)
  /-- An idle destination entry with no charge is released. (R331) -/
  | ccEntryIdleRelease (dev : DevId)
  /-- One srtt after a re-probe started, the admission limit returns to W. (R336) -/
  | ccReprobeEnd (dev : DevId)
  /-- A message held for HOLD_US is released unanswered with NACK_BUSY RX_BUSY. (R226) -/
  | mtHoldTimeout (fn : Fid) (src : DevId) (slot : Sid) (gen : BitVec 4)
  /-- An order entry idle for ORDER_IDLE_US is released. (R223) -/
  | orderIdleRelease (fn : Fid) (src : Endp)
  /-- A send stream with no incomplete send idle for SEND_IDLE_US is released. (R221) -/
  | sendStreamRelease (fn : Fid) (dst : Endp)
  /-- Copy writes of unexpected data to a matched receive are issued and the receive completes. (R237) -/
  | mtUxCopyDone (fn : Fid) (id : Nat)
  /-- A write of MTC_FN_RCQ_IDX.CONS makes ring room and waiting completion records are written. (R246) -/
  | rcqConsWrite (fn : Fid) (v : BitVec 32)
  /-- A write of MTC_FN_CFG.EN = 0 cancels posted receives and discards unexpected and held messages. (R248) -/
  | mtDomainDisable (fn : Fid)
  /-- A LINK cell arrives and is answered LINK_ACK, fails the context, or is discarded. (R257) -/
  | rxColLink (c : Cell)
  /-- A LINK_ACK arrives and may make the context ACTIVE. (R257) -/
  | rxColLinkAck (c : Cell)
  /-- An UP cell arrives at a parent and is combined into the up phase. (R264) -/
  | rxColUp (c : Cell)
  /-- A DOWN cell arrives at a child, is placed, forwarded and may close the epoch. (R266) -/
  | rxColDown (c : Cell)
  /-- An UP_EXP cell of pass-1 records arrives and is combined. (R276) -/
  | rxColUpExp (c : Cell)
  /-- A DOWN_EXP cell delivers the combined records and is forwarded. (R276) -/
  | rxColDownExp (c : Cell)
  /-- An UP_ACK arrives and releases the acknowledged phase vector. (R284) -/
  | rxColUpAck (c : Cell)
  /-- A DOWN_ACK arrives and releases the acknowledged phase vector. (R284) -/
  | rxColDownAck (c : Cell)
  /-- An ABORT arrives, is echoed, and fails the context. (R288) -/
  | rxColAbort (c : Cell)
  /-- Every 20 µs a LINKING context resends LINK to unanswered peers. (R257) -/
  | colLinkRepeat (n : Cid)
  /-- LINK_MS passes without linking and the context fails COL_MEMBER_LOST. (R258) -/
  | colLinkTimeout (n : Cid)
  /-- An unacknowledged phase vector is resent, or the context fails when attempts run out. (R285) -/
  | colPhaseRetry (n : Cid) (peer : Nat)
  /-- A local contribution read returns and the up phase may start. (R262) -/
  | colContribReadDone (n : Cid) (off : Nat) (cpl : Cpl)
  /-- A draining context, answered and quiet, becomes FREE and returns its staging. (R258) -/
  | colCtxFree (n : Cid)
  /-- A write of COL_CTX_CTL.ABORT fails the context. (R287) -/
  | colCtxAbort (n : Cid)
  /-- At an injection opportunity the schedulers choose one cell and hand it to the router. (R343) -/
  | schInject (room : BitVec 4)
  /-- A cell with credit on its output VC moves to an eligible port, updating routing fields. (R304) -/
  | cellForward (p : Pid) (vc : Fin 16)
  /-- A cell's residence reaches RESIDENCE_US and it is discarded. (R318) -/
  | cellResidenceExpire (p : Pid) (vc : Fin 16)
  /-- A write of RTE_PORT_CTL.REDISCOVER reruns discovery on the port. (R325) -/
  | portRediscover (p : Pid)
  /-- A write of RTE_SEED restarts the random generator. (R314) -/
  | rteSeedWrite (v : Word)
  /-- At each 64 ns boundary every shaper, meter and policer bucket refills. (R348) -/
  | schRefill
  /-- Writing SHAPE_EN 1 fills the function's bucket. (R348) -/
  | shaperEnable (fn : Fid)
  /-- Writing METER_EN 1 fills the meter buckets. (R349) -/
  | meterEnable (fn : Fid)
  /-- Writing SCH_UDP.EN 1 fills the queue's policer. (R350) -/
  | udpEnable (q : Qid)
  /-- A write of ARM arms the pending gate bank, or is refused. (R354) -/
  | gateArm (p : Pid)
  /-- A write of DISARM cancels an armed bank not yet active. (R354) -/
  | gateDisarm (p : Pid)
  /-- Writing EN 0 opens every gate, deactivates both banks and disarms. (R354) -/
  | gateDisable (p : Pid)
  /-- Fabric time reaches PEND_BASE and the armed bank becomes active. (R354) -/
  | gateBankActivate (p : Pid)
  /-- The active gate entry's duration ends and the next entry comes into force. (R352) -/
  | gateEntryAdvance (p : Pid)
  /-- At a frame boundary the port sends a control, replay, DATA or IDLE frame. (R362) -/
  | belayFrameSend (p : Pid)
  /-- A DATA frame is received and accepted, discarded as duplicate, gap, corrupt or stomped. (R364) -/
  | belayDataRx (p : Pid) (fr : DataFrame)
  /-- An IDLE frame is received and its ACK_SEQ and XOFF take effect. (R360) -/
  | belayIdleRx (p : Pid) (hdr : FrameHdr)
  /-- An INIT frame arrives and may complete initialisation to UP, or fail it. (R384) -/
  | belayInitRx (p : Pid) (fr : CtlFrame)
  /-- A CREDIT frame arrives and updates LIMIT for each VC. (R374) -/
  | belayCreditRx (p : Pid) (fr : CtlFrame)
  /-- A DISCOVER frame delivers an identity word that is checked and sets the routing state. (R322) -/
  | belayDiscoverRx (p : Pid) (fr : CtlFrame)
  /-- A TIME REQ arrives and is answered with a RESP. (R381) -/
  | belayTimeReqRx (p : Pid) (fr : CtlFrame)
  /-- A TIME RESP arrives and gives an offset and round trip to the servo. (R421) -/
  | belayTimeRespRx (p : Pid) (fr : CtlFrame)
  /-- A PARK REQUEST arrives and is answered AGREE or REFUSE. (R405) -/
  | parkRequestRx (p : Pid) (fr : CtlFrame)
  /-- A PARK AGREE arrives and the requester idles its transmitters and parks. (R406) -/
  | parkAgreeRx (p : Pid) (fr : CtlFrame)
  /-- A PARK REFUSE arrives and the request ends. (R406) -/
  | parkRefuseRx (p : Pid) (fr : CtlFrame)
  /-- A PARK WAKE withdraws a request and the agreeing end resumes. (R406) -/
  | parkWakeRx (p : Pid) (fr : CtlFrame)
  /-- A DOWN frame arrives and the link goes down with PEER_DOWN. (R387) -/
  | belayDownRx (p : Pid) (fr : CtlFrame)
  /-- ACK_TIMER passes since an uncovered accepted frame and an acknowledgement event occurs. (R365) -/
  | belayAckTimer (p : Pid)
  /-- The replay timer expires and a replay starts with an error event. (R368) -/
  | belayReplayTimeout (p : Pid)
  /-- A frame stays unacknowledged for FRAME_LIFE_US and the link fails. (R369) -/
  | belayFrameLife (p : Pid)
  /-- CREDIT_NS after freed cells, or every 1 µs, a CREDIT frame is sent. (R375) -/
  | belayCreditTimer (p : Pid)
  /-- Every 1 µs in INIT the port sends INIT again. (R379) -/
  | belayInitRepeat (p : Pid)
  /-- Every 100 µs a port not DOWN sends DISCOVER again. (R379) -/
  | belayDiscoverRepeat (p : Pid)
  /-- No lock within 20 µs in LOCK and the port goes DOWN with LOCK_LOSS. (R383) -/
  | belayLockTimeout (p : Pid)
  /-- 1 ms in INIT without reaching UP and the port goes DOWN. (R383) -/
  | belayInitTimeout (p : Pid)
  /-- No lock within 2 µs in RELOCK and the port goes DOWN. (R383) -/
  | belayRelockTimeout (p : Pid)
  /-- No frame passes its CRC-64 for 1 µs and the link fails. (R361) -/
  | belayFramingLoss (p : Pid)
  /-- Every ERR_DECAY_US the error level falls by 1, possibly leaving DEGRADED. (R385) -/
  | belayErrDecay (p : Pid)
  /-- In DEGRADED with RETRAIN_EN, once CTL cells leave or 10 µs pass, the link goes down to retrain. (R383) -/
  | belayDegradedRetrain (p : Pid)
  /-- Every 1 µs the port audits its credit counts and reports BELAY_AUDIT on mismatch. (R378) -/
  | belayCreditAudit (p : Pid)
  /-- A write of PRT_LNK_CTL.DOWN sends DOWN frames and takes the link down. (R387) -/
  | linkDownCmd (p : Pid)
  /-- Writing PRT_LANE_CFG.EN 1 starts training, or fails for the module. (R396) -/
  | laneEnSet (p : Pid)
  /-- Writing PRT_LANE_CFG.EN 0 takes the port to OFF with reason COMMAND. (R396) -/
  | laneEnClear (p : Pid)
  /-- A write of PRT_LANE_CTL.RETRAIN sends DOWN frames and restarts at DETECT. (R396) -/
  | laneRetrain (p : Pid)
  /-- A write of PRT_LANE_CTL.RECAL recalibrates receivers or aborts with CAL_INPUT_BUSY. (R402) -/
  | laneRecal (p : Pid) (cal : CalIn)
  /-- Wire tests complete and training enters CAL. (R398) -/
  | trainDetectDone (p : Pid) (rxOpen : BitVec 4) (rxShort : BitVec 4) (txOpen : BitVec 4) (txShort : BitVec 4)
  /-- Receiver calibration completes or aborts and training enters TRAIN. (R402) -/
  | trainCalDone (p : Pid) (busy : BitVec 4) (failed : BitVec 4)
  /-- A training frame is received, adapting taps and possibly moving to ALIGN. (R400) Its control field is `ctl`, with the
  CRC-16 `crc` above it (R397). -/
  | trainFrameRx (p : Pid) (lane : Fin 4) (inverted : Bool) (crc : BitVec 16) (rx : TrainRx) (ctl : BitVec 112)
  /-- TRAIN_MS passes in TRAIN and the port enters FAILED. (R396) -/
  | trainTimeout (p : Pid) (energy : BitVec 4) (clock : BitVec 4)
  /-- Deskew done and clean for 100 µs; the port is TRAINED and Belay is told. (R396) -/
  | trainAlignDone (p : Pid)
  /-- 1 ms in ALIGN and the port enters FAILED with ALIGN. (R396) -/
  | trainAlignTimeout (p : Pid)
  /-- RETRY_MS after FAILED with AUTO_RETRY, training restarts. (R396) -/
  | trainRetry (p : Pid)
  /-- An active lane loses signal, lock or alignment and the port returns to DETECT. (R396) -/
  | laneLoss (p : Pid) (lanes : BitVec 4) (fault : Fin 3)
  /-- At each 1 ms window end the lane's SER is checked and SER_HIGH may be marked. (R404) -/
  | serWindow (p : Pid) (lane : Fin 4) (ser : BitVec 24) (symbols : Nat)
  /-- A module is inserted and firmware brings it toward READY. (R410) -/
  | modInsert (p : Pid) (cmis : BitVec 8)
  /-- A module's data path activates and the port may train. (R410) -/
  | modReady (p : Pid) (cmis : BitVec 8)
  /-- A module fails to reach READY within 2 s and the port fails with MODULE. (R396) -/
  | modReadyTimeout (p : Pid) (reported : Bool)
  /-- Module removal takes the port to OFF and reports PRT_MOD. (R411) -/
  | modRemove (p : Pid)
  /-- A module alarm sets ALARM, reports PRT_MOD and may take the port down. (R411) -/
  | modAlarm (p : Pid)
  /-- An idle port meeting the conditions sends PARK REQUEST. (R405) -/
  | portParkRequest (p : Pid)
  /-- 2 µs without answer or idle and a park request is withdrawn or the agreeing end resumes. (R406) -/
  | parkTimeout (p : Pid)
  /-- An agreeing end's receivers lose signal and it parks. (R406) -/
  | parkSignalLost (p : Pid)
  /-- A parked port's transmitters leave idle on router request. (R408) -/
  | portWake (p : Pid)
  /-- A parked port sees its peer leave idle and wakes. (R408) -/
  | parkSignalDetect (p : Pid)
  /-- Receivers lock after a wake and Belay enters RELOCK. (R408) -/
  | parkRelockDone (p : Pid) (ok : Bool)
  /-- Every 100 ms a parked port recalibrates receivers. (R407) -/
  | parkedRecal (p : Pid) (cal : CalIn)
  /-- A HELLO packet arrives, updating the neighbour and SWAPPED. (R416) -/
  | ropeHelloRx (r : Fin 2) (k : RopeFrame)
  /-- A Rope TIME packet arrives for time transport. (R417) -/
  | ropeTimeRx (r : Fin 2) (k : RopeFrame)
  /-- A FAULT packet arrives and ROPE_PEER_FAULT is reported. (R417) -/
  | ropeFaultRx (r : Fin 2) (k : RopeFrame)
  /-- A MGMT packet arrives for Basecamp firmware. (R417) -/
  | ropeMgmtRx (r : Fin 2) (k : RopeFrame)
  /-- Every 100 µs each Rope port sends HELLO. (R416) -/
  | ropeHelloTimer
  /-- Every 10 µs in safe state or Whiteout a FAULT packet is sent again. (R417) -/
  | ropeFaultRepeat
  /-- A Rope ALIGN set is received, deskewing and bringing the port UP. (R414) -/
  | ropeAlignRx (r : Fin 2) (lane0 : BitVec 24) (lane1 : BitVec 24) (skew : Nat)
  /-- 4,096 columns without ALIGN, or code errors, take the Rope port DOWN. (R414) -/
  | ropeAlignTimeout (l : RopeLoss)
  /-- Every PERIOD_US the device sends TIME REQ to its parent and re-evaluates its parent. (R421) -/
  | timeExchangeTimer
  /-- A write of TIME_SET jumps fabric time while the servo is off. (R419) -/
  | timeSet (v : Word)
  /-- Writing SERVO_EN 1 resets the servo to UNLOCKED. (R423) -/
  | servoEnable
  /-- A TIME_PPS edge aligns or frequency-corrects grandmaster time. (R424) -/
  | ppsEdge (t16 : BitVec 80) (tenOk : Bool)
  /-- A read of TIME_NOW latches TIME_FRAC. (R418) -/
  | timeNowRead
  /-- HOST_PERST_N low resets the host port and cut-drains its functions. (R434) -/
  | hostPerstAssert (p : Hid)
  /-- HOST_PERST_N rises and the port enters link training. (R501) -/
  | hostPerstDeassert (p : Hid)
  /-- A host link goes down or is hot reset, cut-draining its functions. (R434) -/
  | hostLinkDown (p : Hid) (link : Fin 2)
  /-- A Function Level Reset cut-drains the function and its VFs. (R434) -/
  | flr (fn : Fid)
  /-- Clearing Bus Master Enable cut-drains the function and its VFs. (R434) -/
  | busMasterClear (fn : Fid)
  /-- Clearing VF Enable or lowering NumVFs cut-drains the VFs no longer present. (R434) -/
  | vfEnableClear (fn : Fid) (vfEnable : Bool) (numVfs : Fin 256)
  /-- Writing HST_FN_CTL.EN 1 enables a permitted function or latches the enable. (R433) -/
  | fnEnSet (fn : Fid)
  /-- Writing HST_FN_CTL.EN 0 gracefully drains the function. (R434) -/
  | fnEnClear (fn : Fid)
  /-- A function's preparation finishes and it enters ON with host access open. (R433) -/
  | fnEnableDone (fn : Fid)
  /-- Every queue, window and context of a draining function is OFF or FREE and it enters OFF. (R433) -/
  | fnDrainDone (fn : Fid)
  /-- 10 ms after a cut, running activations enter STOPPED and HST_FN_FORCE is reported. (R435) -/
  | fnForceStop (fn : Fid)
  /-- A completion for a device read arrives and is delivered, poisoned or an error to its requester. (R429) -/
  | hostReadCompletion (tag : Nat) (cpl : Cpl)
  /-- A device read's completion timeout expires and the requester sees HOST_ERROR or BUS_ERROR. (R429) -/
  | hostCplTimeout (tag : Nat)
  /-- A read of INT_TGT_CLAIM takes the highest eligible number active and rearms. (R440) -/
  | intClaim (t : Tgt)
  /-- A write of INT_TGT_COMPLETE clears ACTIVE of a number. (R440) -/
  | intComplete (t : Tgt) (n : BitVec 12)
  /-- A write of INT_TGT_SETPEND raises a number. (R440) -/
  | intSetpend (t : Tgt) (n : BitVec 12)
  /-- A write of INT_TGT_CLRPEND clears PENDING of a number. (R440) -/
  | intClrpend (t : Tgt) (n : BitVec 12)
  /-- Unmasking a vector sends a message held in the Pending Bit. (R441) -/
  | msixUnmask (fn : Fid)
  /-- Command START starts a channel or fails with ARG. (R451) -/
  | dmaChStart (c : Clu) (h : Fin 64)
  /-- Command PAUSE stops new reads of a channel. (R451) -/
  | dmaChPause (c : Clu) (h : Fin 64)
  /-- Command RESUME continues a paused or stopped channel. (R451) -/
  | dmaChResume (c : Clu) (h : Fin 64)
  /-- Command RESET returns a paused or stopped channel to IDLE. (R451) -/
  | dmaChReset (c : Clu) (h : Fin 64)
  /-- Every byte already read is written and the channel enters PAUSED. (R451) -/
  | dmaPaused (c : Clu) (h : Fin 64)
  /-- A channel data read returns and its bytes are written, or the cluster stops on error. (R453) -/
  | dmaDataReadDone (c : Clu) (h : Fin 64) (cpl : Cpl)
  /-- A list element fetch returns and the element starts, or the channel stops. (R448) -/
  | dmaListFetchDone (c : Clu) (h : Fin 64) (cpl : Cpl)
  /-- A write of DMA_CH_RLIM lets a ring channel at its limit continue. (R450) -/
  | dmaRlimWrite (c : Clu) (h : Fin 64) (v : Word)
  /-- Outstanding reads end and the cluster's channels become STOPPED. (R453) -/
  | dmaClusterStopDone (c : Clu)
  /-- A write of DMA_CL_CTL.CLEAR leaves the cluster stop. (R453) -/
  | dmaClClear (c : Clu)
  /-- A write of DMA_CTR_ADD advances the selected counter. (R456) -/
  | dmaCtrAddWrite (v : CtrAddW)
  /-- A write of DMA_CTR_VAL sets the counter and may fire entries. (R460) -/
  | dmaCtrValWrite (v : BitVec 48)
  /-- A write of DMA_CTR_ARM1 arms a threshold event for the counter's owner. (R461) -/
  | dmaCtrArm (v : BitVec 48)
  /-- A deferred entry whose threshold is reached fires its operation, channel or event. (R460) -/
  | deferFire
  /-- A read of PIT_LOCK acquires a Piton or waits up to HOST_WAIT_NS. (R466) -/
  | pitLockRead (fn : Fid) (n : BitVec 12)
  /-- A write of PIT_LOCK.RELEASE releases a Piton. (R464) -/
  | pitLockWrite (fn : Fid) (n : BitVec 12)
  /-- A waiting PIT_LOCK read passes HOST_WAIT_NS and returns BUSY. (R466) -/
  | pitHostWaitExpire (fn : Fid) (n : BitVec 12)
  /-- A waiting pit.acq passes ENG_WAIT_US and returns BUSY. (R465) -/
  | pitEngWaitExpire (th : Tid)
  /-- A read of DEP_BUF_ALLOC allocates one SW buffer. (R479) -/
  | depBufAlloc (r : Req)
  /-- A write of DEP_BUF_FREE frees a SW buffer or is refused as misuse. (R477) -/
  | depBufFree (r : Req) (addr : BitVec 36)
  /-- A read of DEP_ACC_DATA reads a Depot word through gate 0. (R489) -/
  | depAccRead (r : Req) (ecc : Ecc)
  /-- A write of DEP_ACC_DATA stores a Depot word through gate 0. (R489) -/
  | depAccWrite (r : Req) (v : Word)
  /-- Every 1 µs the pool checks its counts and reports DEP_POOL_AUDIT on mismatch. (R478) -/
  | poolAudit
  /-- The background walk of buffer states checks them against the counts. (R478) -/
  | poolWalk
  /-- A patrol scrub step reads and repairs or poisons one word. (R484) -/
  | scrubStep (found : Ecc) (at_ : ScrubAt)
  /-- An arbiter grants one waiting requester by round robin or age. (R494) -/
  | arbGrant (a : Fin 6) (inst : Fin 64) (arrivals : List (Fin 64))
  /-- A grant reaches HOLD_LIMIT and the requester is cut off. (R495) -/
  | arbHoldCut (a : Fin 6) (inst : Fin 64)
  /-- Refresh or the debug port preempts a Depot grant. (R496) -/
  | depotPreempt (inst : Fin 64) (by_ : Fin 2)
  /-- No Depot request for SR_IDLE_US and the Depot enters self-refresh. (R527) -/
  | depotSelfRefresh
  /-- An idle cluster for CLK_IDLE_NS is clock-gated. (R524) -/
  | clusterClockGate (u : Fin 32)
  /-- An idle cluster for PWR_IDLE_US is power-gated. (R524) -/
  | clusterPowerGate (u : Fin 32)
  /-- A gated unit finishes waking and its waiting work proceeds. (R526) -/
  | unitWakeDone (u : Fin 32)
  /-- VAON valid for 2 ms starts the always-on domain in BIVOUAC. (R523) -/
  | powerOn
  /-- Loss of VAON takes the device to OFF. (R523) -/
  | vaonLoss
  /-- SYS_RESET_N held low for 10 µs resets everything outside the always-on domain. (R500) -/
  | sysReset
  /-- SYS_RESET_N rises and start-up begins. (R506) -/
  | sysResetRelease
  /-- WAKE_N low for 10 µs in BIVOUAC starts the rails. (R523) -/
  | wakeN
  /-- A rail's RAIL_PG rises and the next enable follows 100 µs later. (R498) -/
  | railPgRise (k : Fin 5)
  /-- A rail's RAIL_PG falls or 1 ms passes and the next lower enable is deasserted. (R498) -/
  | railDownStep (k : Fin 5)
  /-- A RAIL_PG stays low 10 ms after its enable and the device returns to BIVOUAC. (R499) -/
  | railPgTimeout (k : Fin 5)
  /-- A RAIL_PG falls while its rail should be up and the device returns to BIVOUAC. (R499) -/
  | railPgLost (k : Fin 5)
  /-- A firmware image is loaded and authenticated, or the other slot is tried. (R505) -/
  | fwLoadDone
  /-- Firmware sets READY, opening register space or ending a blackout. (R520) -/
  | fwReady
  /-- READY not set 20 ms after a blackout began and the cores restart the old image. (R522) -/
  | fwSwapTimeout
  /-- Mailbox opcode GET_INFO returns firmware state and identity. (R509) -/
  | mbxGetInfo (m : Fin 8)
  /-- Mailbox opcode GATE_WRITE applies gate and arbiter writes as one transaction. (R509) -/
  | mbxGateWrite (m : Fin 8)
  /-- Mailbox opcode FW_STAGE writes and checks an image in the idle slot. (R509) -/
  | mbxFwStage (m : Fin 8)
  /-- Mailbox opcode FW_ACTIVATE loads the staged image and performs the hitless swap. (R520) -/
  | mbxFwActivate (m : Fin 8)
  /-- Mailbox opcode FUSE_ROLLBACK blows rollback fuses. (R509) -/
  | mbxFuseRollback (m : Fin 8)
  /-- Mailbox opcode KEY_REVOKE revokes a key slot. (R509) -/
  | mbxKeyRevoke (m : Fin 8)
  /-- Mailbox opcode MODULE_PAGE performs a CMIS access. (R509) -/
  | mbxModulePage (m : Fin 8)
  /-- Mailbox opcode PARAM reads or writes a parameter store entry. (R509) -/
  | mbxParam (m : Fin 8)
  /-- Mailbox opcode BIVOUAC requests entry to Bivouac. (R529) -/
  | mbxBivouac (m : Fin 8)
  /-- An MCTP or PLDM message from the BMC is served by firmware. (R510) -/
  | pldmMessage
  /-- A sideband I2C read returns identity from fuses. (R510) -/
  | sidebandRead
  /-- Firmware serves an exception record and may reply with a control-message event. (R512) -/
  | excServe (fn : Fid) (status : Word) (value : Word)
  /-- A CTL ring entry of a function type raises a control-message event or is dropped. (R514) -/
  | ctlDispatch
  /-- Basecamp sends a CTL cell, producing one send-completion entry. (R515) -/
  | ctlSend (c : Cell)
  /-- Command BEGIN opens a configuration transaction. (R519) -/
  | txnBegin (r : Req)
  /-- Command COMMIT applies held values at one instant or refuses on conflict. (R518) -/
  | txnCommit (r : Req)
  /-- Command ROLLBACK discards held values. (R519) -/
  | txnRollback (r : Req)
  /-- A committing transaction's values take effect and it returns to NONE. (R518) -/
  | txnApplied (r : Req)
  /-- TIMEOUT_MS after BEGIN the open transaction is discarded. (R519) -/
  | txnTimeout (r : Req)
  /-- A write of ENTER_BIVOUAC, if allowed, powers the rails down into Bivouac. (R529) -/
  | pwrEnterBivouac
  /-- A fault source reports, setting its sticky bit and applying its severity's reaction. (R531) -/
  | faultReport (srcs : BitVec 64)
  /-- A pair invalid for 4 cycles counts as a report and raises FLT_PAIR. (R530) -/
  | fltPairInvalid (src : Fin 64)
  /-- A write of FLT_TEST injects a report of a source. (R532) -/
  | fltTest (src : Fin 64)
  /-- Writing FLT_CFG.LOCK freezes severities until system reset. (R536) -/
  | fltLock
  /-- Writing TGT_CFG.DBG_LOCK removes every DBG right until power-on reset. (R492) -/
  | dbgLock
  /-- Every 10 µs junction sensors are sampled, setting throttle level and reporting thresholds. (R543) -/
  | thermSample (temps : List (BitVec 11))
  /-- Every 2 µs the current estimate adjusts the current throttle level. (R545) -/
  | curGovSample (amps : BitVec 11)
  /-- At each period multiple the reader latches selected counters and writes a record or skips. (R566) -/
  | pmcSnapshot
  /-- A write of PMC_RDR_TRIG.SNAP latches a snapshot now. (R566) -/
  | pmcSnap
  /-- A write of PMC_CTR_VAL sets a counter. (R562) -/
  | pmcCtrValWrite (k : Fin 1024) (v : Word)
  /-- Every 10 ms firmware reads the regulators into PWR_RAIL_MON. (R587) -/
  | pmbRefresh
  /-- PMB_ALERT_N asserts and the regulator readings refresh. (R587) -/
  | pmbAlert
  /-- A write of PWR_MARGIN drives rails to their margin values. (R588) -/
  | marginWrite (v : Word)
  /-- TRST_N low holds the TAP in reset. (R591) -/
  | trstN
  /-- JTAG instruction EXTEST drives boundary-scan outputs. (R591) -/
  | extest
  /-- JTAG instruction IDCODE returns the identification code. (R591) -/
  | idcode
  /-- JTAG instruction SAMPLE/PRELOAD samples and loads the boundary register. (R591) -/
  | samplePreload
  /-- JTAG instruction HIGHZ floats the outputs. (R591) -/
  | highz
  /-- JTAG instruction CLAMP holds outputs at the boundary values. (R591) -/
  | clamp
  /-- JTAG instruction EXTEST_PULSE tests AC-coupled lanes. (R591) -/
  | extestPulse
  /-- JTAG instruction EXTEST_TRAIN tests AC-coupled lanes with a train. (R591) -/
  | extestTrain
  /-- JTAG instruction DBG_ACCESS makes a debug-port access to the register space or memory. (R591) -/
  | dbgAccess
  /-- JTAG instruction BYPASS passes data through one bit. (R591) -/
  | bypass
  /-- A read of a register holding an RC field returns and clears it. (R597) -/
  | readClear (r : RegAcc) (bar0 : BitVec 28) (size : Nat)
  /-- A write to a register with no row of its own stores its fields under their change classes. (R5) -/
  | regWrite (r : RegAcc) (bar0 : BitVec 28) (size : Nat) (v : Word)
  /-- A frame header fails FHCHK, carries a reserved KIND, or a frame runs past 96 HOLD words; the receiver counts a framing error, raises an error event and discards words until the next marked word whose header passes. (R361) -/
  | belayFramingError (p : Pid)
  /-- A CONTROL frame of a reserved type arrives and is discarded and counted in CTRL_UNKNOWN. (R379) -/
  | belayControlReserved (p : Pid) (fr : CtlFrame)
  /-- A Rope packet with a bad CRC-32 or a reserved TYPE arrives and is discarded and counted in CRC_ERR. (R415) -/
  | ropePacketDiscard (r : Fin 2)
  /-- A head cell with a reserved OP arrives and is discarded and counted with no response. (R158) -/
  | rxOpReserved (c : Cell)
  /-- A COL-class cell of reserved kind 9 to 15 arrives and is discarded and counted. (R282) -/
  | rxColKindReserved (c : Cell)
  /-- An ABORT with ECHO 0 unanswered by a peer is resent under the R285 timing, and its attempts may run out, letting DRAINING end. (R288) -/
  | colAbortRetry (n : Cid) (peer : Nat)
  /-- Bus Master Enable is set in a function's Command register and an OFF function that is now permitted enters ENABLING. (R433) -/
  | busMasterEnableSet (fn : Fid)
  /-- VF Enable is set or NumVFs is raised and the VFs now present that are permitted enter ENABLING. (R433) -/
  | vfEnableSet (fn : Fid) (numVfs : Fin 256)
  /-- A host link finishes training and comes up, setting HST_PORT_STAT.UP and restarting the flush-read tracking of posted writes on that link. (R599) -/
  | hostLinkUp (p : Hid) (link : Fin 2)
  /-- While FAB_REFCLK[0] is out of range at start-up step 3, the device checks it again every 1 ms and proceeds once it is in range. (R582) -/
  | refclkRecheck (inRange : Bool)
  /-- A mailbox GO with an opcode not listed is judged by SEQ and answered with status ARG. (R509) -/
  | mbxOtherOpcode (m : Fin 8)
  /-- A write of XLT_INV_CMD with KIND 3 is discarded, counted in telemetry, and takes no ticket. (R141) -/
  | xltInvKindDiscard (p : Hid)
deriving DecidableEq, Repr

end Sys2Proof
end

