-- ==== Sys2Proof/Config.lean ====
section
/-! DEFINITION. What the spec leaves to the device or does not state: opaque constants, none of which has a body, so that
nothing can be proved of a value of one. Each is applied to the model's counter `fresh` or to the operands it depends on. -/

namespace Sys2Proof.Config

/-- A choice the spec leaves to the device (a free slot, a thread, an order among equals), log entry 1. -/
opaque pick : Nat → Nat

/-- A value the spec leaves open, log entry 1. -/
opaque freeValue : Nat → Word

/-- The set of the L2 TLB, and of the walk cache, that an address space, an address and a size or level select (R135),
log entry 11. -/
opaque l2Set : Nat → Nat → Nat → Nat
opaque walkSet : Nat → Nat → Nat → Nat

/-- The bins of the match unit that a function, source and match bits select, and a function and match bits (R229), log
entry 24. -/
opaque fullBin : Nat → Nat → Nat → Nat
opaque tagBin : Nat → Nat → Nat

/-- The successor of the generator's state (R314): the spec calls it a 64-bit linear-feedback generator and gives no
polynomial, log entry 1. -/
opaque lfsr : Word → Word

/-- The bytes of an image that the board management controller sends (R510), byte 0 lowest, log entry 1. -/
opaque bmcImage : Nat → Nat

/-- Lomlon's PCI-SIG vendor ID (R427), which the spec does not state, log entry 1. -/
opaque vendorId : BitVec 16

/-- Lomlon's JEDEC manufacturer identity code (R591), which the spec does not state, log entry 1. -/
opaque jedecId : BitVec 11

end Sys2Proof.Config
end

