-- ==== Sys2Proof/Machine/RegMap.lean ====
section
/-! DEFINITION. The register map of chapter 20 (R593, R594) with the field tables of the owning chapters: names,
offsets, instances, fields, access codes (R3), change codes (R5) and reset values, as the tables of spec/ give them. -/

namespace Sys2Proof.Machine

/-- Access codes of R3. -/
inductive Acc where | ro | rw | rw1c | w1s | wo | rc | rws
deriving DecidableEq, Repr

/-- Change codes of R5; `none` where the table gives a dash. -/
inductive Chg where | none | live | staged | boundary | quiesced
deriving DecidableEq, Repr

/-- A field of a register: the register, the lowest bit and the width. -/
structure Fld where
  reg : Nat
  lo : Nat
  w : Nat
deriving DecidableEq, Repr

/-- One row of a field table, reserved rows left out. -/
structure FldInfo where
  lo : Nat
  w : Nat
  acc : Acc
  chg : Chg
deriving DecidableEq, Repr

/-- A register: its name, its base offset, the stride and count of each index (R594), its reset value in instances the
tables do not single out, and its field rows. -/
structure RegInfo where
  name : String
  base : Nat
  dims : List (Nat × Nat)
  reset : Nat
  flds : List FldInfo
deriving DecidableEq, Repr

def regTable0 : List RegInfo := [
  ⟨"ENG_SLOT_IMG", 0x608000, [(0x10, 1024)], 0x0,
    [⟨0, 57, .rw, .quiesced⟩, ⟨57, 1, .rw, .quiesced⟩]⟩,
  ⟨"ENG_SLOT_CTL", 0x608008, [(0x10, 1024)], 0xFFFF00000000,
    [⟨0, 16, .rw, .quiesced⟩, ⟨16, 10, .rw, .quiesced⟩, ⟨26, 1, .rw, .quiesced⟩, ⟨27, 1, .rw, .live⟩, ⟨28, 1, .rw, .live⟩, ⟨32, 16, .rw, .live⟩, ⟨48, 16, .rw, .quiesced⟩]⟩,
  ⟨"ENG_SLOT_STAT", 0x60C000, [(0x8, 1024)], 0x0,
    [⟨0, 8, .ro, .none⟩, ⟨8, 16, .ro, .none⟩, ⟨24, 16, .ro, .none⟩, ⟨40, 1, .ro, .none⟩]⟩,
  ⟨"ENG_FN_TRAP", 0x60E000, [(0x8, 1024)], 0x0,
    [⟨0, 10, .rw, .staged⟩, ⟨10, 1, .rw, .staged⟩]⟩,
  ⟨"ENG_THR_CTL", 0x600000, [(0x10000, 16), (0x8, 64)], 0x0,
    [⟨0, 3, .ro, .none⟩, ⟨8, 1, .wo, .live⟩]⟩,
  ⟨"WQ_CTX_RING", 0x800000, [(0x40, 65536)], 0x0,
    [⟨12, 45, .rw, .quiesced⟩, ⟨57, 1, .rw, .quiesced⟩, ⟨58, 5, .rw, .quiesced⟩]⟩,
  ⟨"WQ_CTX_CFG", 0x800008, [(0x40, 65536)], 0x10000000000,
    [⟨0, 10, .rw, .quiesced⟩, ⟨10, 4, .rw, .quiesced⟩, ⟨14, 4, .rw, .quiesced⟩, ⟨18, 4, .rw, .live⟩, ⟨22, 8, .rw, .boundary⟩, ⟨30, 8, .rw, .boundary⟩, ⟨38, 5, .rw, .live⟩, ⟨43, 16, .rw, .quiesced⟩]⟩,
  ⟨"WQ_CTX_STAT", 0x800010, [(0x40, 65536)], 0xC00000000000000,
    [⟨6, 51, .rw, .quiesced⟩, ⟨57, 1, .rw, .quiesced⟩, ⟨58, 3, .rw, .live⟩, ⟨61, 1, .rw, .live⟩]⟩,
  ⟨"WQ_CTX_PROD_SEQ", 0x800018, [(0x40, 65536)], 0x0,
    [⟨0, 32, .rw, .quiesced⟩]⟩,
  ⟨"WQ_CTX_DISP_SEQ", 0x800020, [(0x40, 65536)], 0x0,
    [⟨0, 32, .ro, .none⟩]⟩,
  ⟨"WQ_CTX_COMP_SEQ", 0x800028, [(0x40, 65536)], 0x0,
    [⟨0, 32, .ro, .none⟩, ⟨32, 32, .ro, .none⟩]⟩,
  ⟨"WQ_CTX_CTL", 0x800030, [(0x40, 65536)], 0x0,
    [⟨0, 3, .ro, .none⟩, ⟨3, 1, .rw, .live⟩, ⟨4, 1, .ro, .none⟩, ⟨5, 1, .rw1c, .live⟩, ⟨8, 3, .wo, .live⟩, ⟨16, 6, .ro, .none⟩, ⟨32, 32, .ro, .none⟩]⟩]
def regTable1 : List RegInfo := [
  ⟨"WQ_CTX_AUX", 0x800038, [(0x40, 65536)], 0x0,
    [⟨0, 32, .rw, .live⟩, ⟨32, 12, .rw, .live⟩, ⟨48, 16, .ro, .none⟩]⟩,
  ⟨"XLT_ASID_ROOT", 0x180000, [(0x8, 65536)], 0x0,
    [⟨0, 1, .rw, .live⟩, ⟨2, 10, .rw, .live⟩, ⟨12, 52, .rw, .live⟩]⟩,
  ⟨"XLT_CFG", 0x100000, [], 0x0,
    [⟨0, 1, .rw, .quiesced⟩, ⟨1, 3, .rw, .live⟩]⟩,
  ⟨"XLT_INV_ADDR", 0x101000, [(0x40, 4)], 0x0,
    [⟨12, 45, .rw, .live⟩]⟩,
  ⟨"XLT_INV_CMD", 0x101008, [(0x40, 4)], 0x0,
    [⟨0, 16, .wo, .live⟩, ⟨16, 6, .wo, .live⟩, ⟨22, 2, .wo, .live⟩, ⟨24, 1, .wo, .live⟩]⟩,
  ⟨"XLT_INV_STAT", 0x101010, [(0x40, 4)], 0x0,
    [⟨0, 32, .ro, .none⟩, ⟨32, 32, .ro, .none⟩]⟩,
  ⟨"WIN_CFG", 0x200000, [], 0x32,
    [⟨0, 13, .rw, .live⟩]⟩,
  ⟨"WIN_STAT", 0x200008, [], 0x0,
    [⟨0, 21, .ro, .none⟩]⟩,
  ⟨"WIN_TOTAL", 0x200010, [], 0x0,
    [⟨0, 51, .ro, .none⟩]⟩,
  ⟨"WIN_FN_QUOTA", 0x202000, [(0x8, 1024)], 0x0,
    [⟨0, 21, .rw, .live⟩, ⟨21, 21, .ro, .none⟩]⟩,
  ⟨"WIN_FN_ARG0", 0x210000, [(0x40, 1024)], 0x0,
    [⟨0, 64, .rw, .live⟩]⟩,
  ⟨"WIN_FN_ARG1", 0x210008, [(0x40, 1024)], 0x0,
    [⟨0, 48, .rw, .live⟩]⟩]
def regTable2 : List RegInfo := [
  ⟨"WIN_FN_ARG2", 0x210010, [(0x40, 1024)], 0x0,
    [⟨0, 16, .rw, .live⟩, ⟨16, 1, .rw, .live⟩, ⟨17, 1, .rw, .live⟩, ⟨18, 1, .rw, .live⟩, ⟨19, 1, .rw, .live⟩, ⟨20, 1, .rw, .live⟩, ⟨21, 2, .rw, .live⟩, ⟨23, 1, .rw, .live⟩, ⟨24, 28, .rw, .live⟩]⟩,
  ⟨"WIN_FN_CMD", 0x210018, [(0x40, 1024)], 0x0,
    [⟨0, 2, .wo, .live⟩, ⟨32, 32, .wo, .live⟩]⟩,
  ⟨"WIN_FN_RESULT", 0x210020, [(0x40, 1024)], 0x0,
    [⟨0, 1, .ro, .none⟩, ⟨8, 16, .ro, .none⟩, ⟨32, 32, .ro, .none⟩]⟩,
  ⟨"WIN_FN_REVOKE", 0x210028, [(0x40, 1024)], 0x0,
    [⟨0, 32, .ro, .none⟩, ⟨32, 32, .ro, .none⟩]⟩,
  ⟨"RMA_CFG", 0x300000, [], 0x200003E80507,
    [⟨0, 4, .rw, .live⟩, ⟨4, 12, .rw, .live⟩, ⟨16, 12, .rw, .live⟩, ⟨32, 17, .rw, .live⟩]⟩,
  ⟨"RMA_CAIRN_CFG", 0x300008, [], 0x4000004E20,
    [⟨0, 16, .rw, .live⟩, ⟨16, 23, .rw, .quiesced⟩]⟩,
  ⟨"RMA_STAT", 0x300010, [], 0x0,
    [⟨0, 17, .ro, .none⟩, ⟨17, 19, .ro, .none⟩]⟩,
  ⟨"RMA_CAIRN_STAT", 0x300018, [], 0x0,
    [⟨0, 19, .ro, .none⟩, ⟨19, 23, .ro, .none⟩]⟩,
  ⟨"RMA_FN_CFG", 0x310000, [(0x40, 1024)], 0x800010000,
    [⟨0, 17, .rw, .live⟩, ⟨17, 19, .rw, .live⟩, ⟨36, 1, .rw, .live⟩]⟩,
  ⟨"RMA_FN_ARR", 0x310008, [(0x40, 1024)], 0x300000000,
    [⟨0, 16, .rw, .live⟩, ⟨16, 1, .rw, .live⟩, ⟨17, 10, .rw, .live⟩, ⟨27, 4, .rw, .live⟩, ⟨31, 1, .rw, .live⟩, ⟨32, 1, .rw, .live⟩, ⟨33, 1, .rw, .live⟩, ⟨34, 1, .rw, .live⟩]⟩,
  ⟨"RMA_FN_UD_RING", 0x310010, [(0x40, 1024)], 0x6700000000,
    [⟨0, 32, .rw, .quiesced⟩, ⟨32, 4, .rw, .quiesced⟩, ⟨36, 5, .rw, .quiesced⟩]⟩,
  ⟨"RMA_FN_UD_IDX", 0x310018, [(0x40, 1024)], 0x0,
    [⟨0, 32, .ro, .none⟩, ⟨32, 32, .rw, .live⟩]⟩]
def regTable3 : List RegInfo := [
  ⟨"RMA_FN_LASTERR", 0x310020, [(0x40, 1024)], 0x0,
    [⟨0, 16, .rw1c, .live⟩, ⟨16, 16, .rc, .none⟩, ⟨32, 32, .ro, .none⟩]⟩,
  ⟨"MTC_CFG", 0x400000, [], 0x1F427101388,
    [⟨0, 16, .rw, .live⟩, ⟨16, 16, .rw, .live⟩, ⟨32, 12, .rw, .live⟩]⟩,
  ⟨"MTC_CAP", 0x400008, [], 0x100001000,
    [⟨0, 16, .rw, .quiesced⟩, ⟨16, 18, .rw, .live⟩]⟩,
  ⟨"MTC_STAT", 0x400010, [], 0x0,
    [⟨0, 21, .ro, .none⟩, ⟨21, 21, .ro, .none⟩, ⟨42, 18, .ro, .none⟩]⟩,
  ⟨"MTC_RDV_STAT", 0x400018, [], 0x0,
    [⟨0, 17, .ro, .none⟩, ⟨17, 23, .ro, .none⟩, ⟨40, 23, .ro, .none⟩]⟩,
  ⟨"MTC_FN_CFG", 0x410000, [(0x40, 1024)], 0x400002000008000,
    [⟨0, 1, .rw, .live⟩, ⟨2, 15, .rw, .live⟩, ⟨17, 21, .rw, .live⟩, ⟨38, 21, .rw, .live⟩]⟩,
  ⟨"MTC_FN_RCQ", 0x410008, [(0x40, 1024)], 0x600000000,
    [⟨0, 32, .rw, .quiesced⟩, ⟨32, 5, .rw, .quiesced⟩]⟩,
  ⟨"MTC_FN_RCQ_IDX", 0x410010, [(0x40, 1024)], 0x0,
    [⟨0, 32, .ro, .none⟩, ⟨32, 32, .rw, .live⟩]⟩,
  ⟨"MTC_FN_ARR", 0x410018, [(0x40, 1024)], 0x0,
    [⟨0, 10, .rw, .live⟩, ⟨10, 4, .rw, .live⟩, ⟨14, 1, .rw, .live⟩]⟩,
  ⟨"MTC_FN_STAT", 0x410020, [(0x40, 1024)], 0x0,
    [⟨0, 21, .ro, .none⟩, ⟨21, 21, .ro, .none⟩, ⟨42, 18, .ro, .none⟩]⟩,
  ⟨"COL_CFG", 0x500000, [], 0x20000064,
    [⟨0, 16, .rw, .live⟩, ⟨16, 16, .rw, .quiesced⟩]⟩,
  ⟨"COL_STAT", 0x500008, [], 0x0,
    [⟨0, 13, .ro, .none⟩, ⟨13, 28, .ro, .none⟩]⟩]
def regTable4 : List RegInfo := [
  ⟨"COL_FN_CFG", 0x510000, [(0x40, 1024)], 0x4001000,
    [⟨0, 13, .rw, .live⟩, ⟨13, 16, .rw, .live⟩]⟩,
  ⟨"COL_CTX_STAT", 0x520000, [(0x20, 4096)], 0x0,
    [⟨0, 3, .ro, .none⟩, ⟨3, 10, .ro, .none⟩, ⟨13, 16, .ro, .none⟩, ⟨32, 32, .ro, .none⟩]⟩,
  ⟨"COL_CTX_CTL", 0x520008, [(0x20, 4096)], 0x0,
    [⟨0, 1, .wo, .live⟩]⟩,
  ⟨"COL_CTX_TREE", 0x520010, [(0x20, 4096)], 0x0,
    [⟨0, 32, .ro, .none⟩, ⟨32, 32, .ro, .none⟩]⟩,
  ⟨"RTE_CFG", 0xE00000, [], 0x746,
    [⟨0, 4, .rw, .live⟩, ⟨4, 4, .rw, .live⟩, ⟨8, 4, .rw, .live⟩, ⟨12, 1, .rw, .live⟩]⟩,
  ⟨"RTE_ID", 0xE00008, [], 0x0,
    [⟨0, 18, .rw, .staged⟩, ⟨18, 16, .rw, .staged⟩, ⟨34, 1, .rw, .staged⟩]⟩,
  ⟨"RTE_TRAV", 0xE00010, [], 0x100802010,
    [⟨0, 10, .rw, .live⟩, ⟨10, 12, .rw, .live⟩, ⟨22, 4, .rw, .live⟩, ⟨26, 12, .rw, .live⟩]⟩,
  ⟨"RTE_SEED", 0xE00018, [], 0x1,
    [⟨0, 64, .rw, .live⟩]⟩,
  ⟨"RTE_CMARK", 0xE00020, [], 0x400100040,
    [⟨0, 12, .rw, .live⟩, ⟨12, 12, .rw, .live⟩, ⟨24, 12, .rw, .live⟩]⟩,
  ⟨"RTE_DROP", 0xE00028, [], 0x0,
    [⟨0, 16, .rc, .none⟩, ⟨16, 16, .rc, .none⟩, ⟨32, 16, .rc, .none⟩, ⟨48, 16, .rc, .none⟩]⟩,
  ⟨"RTE_DROP2", 0xE00030, [], 0x0,
    [⟨0, 16, .rc, .none⟩, ⟨16, 16, .rc, .none⟩]⟩,
  ⟨"RTE_VIA_MASK", 0xE00200, [(0x8, 64)], 0x0,
    [⟨0, 64, .rw, .live⟩]⟩]
def regTable5 : List RegInfo := [
  ⟨"RTE_PSET", 0xE00800, [(0x8, 256)], 0x0,
    [⟨0, 64, .rw, .staged⟩]⟩,
  ⟨"RTE_MBR", 0xE01000, [(0x8, 64)], 0x0,
    [⟨0, 8, .rw, .staged⟩, ⟨8, 8, .rw, .staged⟩, ⟨16, 4, .rw, .staged⟩, ⟨20, 1, .rw, .staged⟩, ⟨21, 1, .rw, .staged⟩]⟩,
  ⟨"RTE_GRP", 0xE10000, [(0x8, 4096)], 0x0,
    [⟨0, 8, .rw, .staged⟩, ⟨8, 8, .rw, .staged⟩, ⟨16, 4, .rw, .staged⟩, ⟨20, 1, .rw, .staged⟩, ⟨21, 1, .rw, .staged⟩]⟩,
  ⟨"RTE_PORT_CFG", 0xE02000, [(0x20, 64)], 0x0,
    [⟨0, 2, .rw, .quiesced⟩, ⟨2, 6, .rw, .quiesced⟩, ⟨8, 1, .rw, .quiesced⟩, ⟨9, 18, .rw, .quiesced⟩, ⟨27, 6, .rw, .quiesced⟩]⟩,
  ⟨"RTE_PORT_CTL", 0xE02008, [(0x20, 64)], 0x0,
    [⟨0, 1, .rw, .live⟩, ⟨1, 1, .wo, .live⟩]⟩,
  ⟨"RTE_PORT_NBR", 0xE02010, [(0x20, 64)], 0x0,
    [⟨0, 64, .ro, .none⟩]⟩,
  ⟨"RTE_PORT_STATE", 0xE02018, [(0x20, 64)], 0x0,
    [⟨0, 3, .ro, .none⟩, ⟨3, 4, .ro, .none⟩, ⟨8, 12, .ro, .none⟩]⟩,
  ⟨"RMA_CC_CFG", 0x300020, [], 0x612080CC2EE,
    [⟨0, 12, .rw, .live⟩, ⟨12, 8, .rw, .live⟩, ⟨20, 8, .rw, .live⟩, ⟨28, 8, .rw, .live⟩, ⟨36, 4, .rw, .live⟩, ⟨40, 2, .rw, .live⟩, ⟨42, 1, .rw, .live⟩]⟩,
  ⟨"RMA_CC_WIN", 0x300028, [], 0x400000010040,
    [⟨0, 16, .rw, .live⟩, ⟨16, 16, .rw, .live⟩, ⟨32, 16, .rw, .live⟩]⟩,
  ⟨"RMA_CC_BASE", 0x300030, [], 0x3206407D0,
    [⟨0, 16, .rw, .live⟩, ⟨16, 10, .rw, .live⟩, ⟨26, 10, .rw, .live⟩]⟩,
  ⟨"RMA_CC_STAT", 0x300038, [], 0x0,
    [⟨0, 18, .ro, .none⟩, ⟨18, 17, .ro, .none⟩, ⟨35, 16, .rc, .none⟩]⟩,
  ⟨"RMA_CC_LOOKUP", 0x300040, [], 0x0,
    [⟨0, 18, .rw, .live⟩]⟩]
def regTable6 : List RegInfo := [
  ⟨"RMA_CC_ENTRY", 0x300048, [], 0x0,
    [⟨0, 1, .ro, .none⟩, ⟨1, 24, .ro, .none⟩, ⟨25, 16, .ro, .none⟩, ⟨41, 16, .ro, .none⟩, ⟨57, 4, .ro, .none⟩]⟩,
  ⟨"RMA_CC_ENTRY2", 0x300050, [], 0x0,
    [⟨0, 20, .ro, .none⟩, ⟨20, 17, .ro, .none⟩]⟩,
  ⟨"SCH_INJ_CFG", 0xD00000, [], 0x303,
    [⟨0, 8, .rw, .boundary⟩, ⟨8, 8, .rw, .boundary⟩]⟩,
  ⟨"SCH_FN_CFG", 0xD10000, [(0x40, 1024)], 0x4000F,
    [⟨0, 8, .rw, .live⟩, ⟨8, 16, .rw, .live⟩, ⟨24, 1, .rw, .live⟩, ⟨25, 1, .rw, .live⟩, ⟨26, 1, .rw, .live⟩]⟩,
  ⟨"SCH_FN_SHAPER", 0xD10008, [(0x40, 1024)], 0x400000,
    [⟨0, 16, .rw, .boundary⟩, ⟨16, 16, .rw, .boundary⟩]⟩,
  ⟨"SCH_FN_METER", 0xD10010, [(0x40, 1024)], 0x40000000400000,
    [⟨0, 16, .rw, .boundary⟩, ⟨16, 16, .rw, .boundary⟩, ⟨32, 16, .rw, .boundary⟩, ⟨48, 16, .rw, .boundary⟩]⟩,
  ⟨"SCH_FN_STAT", 0xD10018, [(0x40, 1024)], 0x0,
    [⟨0, 25, .ro, .none⟩, ⟨25, 20, .ro, .none⟩]⟩,
  ⟨"SCH_PORT_CFG", 0xD20000, [(0x1000, 64)], 0x30303,
    [⟨0, 8, .rw, .boundary⟩, ⟨8, 8, .rw, .boundary⟩, ⟨16, 8, .rw, .boundary⟩]⟩,
  ⟨"SCH_GATE_CTL", 0xD20008, [(0x1000, 64)], 0x100,
    [⟨0, 1, .rw, .live⟩, ⟨1, 1, .w1s, .live⟩, ⟨2, 1, .w1s, .live⟩, ⟨3, 1, .ro, .none⟩, ⟨4, 1, .ro, .none⟩, ⟨5, 1, .ro, .none⟩, ⟨6, 1, .rw1c, .live⟩, ⟨7, 1, .rw1c, .live⟩, ⟨8, 7, .rw, .quiesced⟩, ⟨15, 7, .ro, .none⟩, ⟨22, 6, .ro, .none⟩]⟩,
  ⟨"SCH_GATE_PBASE", 0xD20010, [(0x1000, 64)], 0x0,
    [⟨0, 64, .rw, .quiesced⟩]⟩,
  ⟨"SCH_GATE_ABASE", 0xD20018, [(0x1000, 64)], 0x0,
    [⟨0, 64, .ro, .none⟩]⟩,
  ⟨"SCH_GATE_ENT", 0xD20400, [(0x1000, 64), (0x200, 2), (0x8, 64)], 0x0,
    [⟨0, 24, .rw, .quiesced⟩, ⟨24, 1, .rw, .quiesced⟩, ⟨25, 1, .rw, .quiesced⟩, ⟨26, 1, .rw, .quiesced⟩]⟩]
def regTable7 : List RegInfo := [
  ⟨"SCH_UDP", 0xD80000, [(0x8, 65536)], 0x410000,
    [⟨0, 16, .rw, .boundary⟩, ⟨16, 16, .rw, .boundary⟩, ⟨32, 1, .rw, .live⟩]⟩,
  ⟨"PRT_LNK_STATE", 0x1000000, [(0x10000, 64)], 0x5800000000,
    [⟨0, 3, .ro, .none⟩, ⟨4, 4, .ro, .none⟩, ⟨8, 8, .ro, .none⟩, ⟨16, 10, .ro, .none⟩, ⟨26, 13, .ro, .none⟩]⟩,
  ⟨"PRT_LNK_CFG", 0x1000008, [(0x10000, 64)], 0x64004807D000C8,
    [⟨0, 13, .rw, .live⟩, ⟨16, 13, .rw, .live⟩, ⟨32, 6, .rw, .quiesced⟩, ⟨38, 1, .rw, .live⟩, ⟨48, 10, .rw, .live⟩]⟩,
  ⟨"PRT_LNK_CREDIT", 0x1000010, [(0x10000, 64)], 0x80010000EC0,
    [⟨0, 13, .rw, .live⟩, ⟨16, 13, .rw, .live⟩, ⟨32, 13, .rw, .live⟩]⟩,
  ⟨"PRT_LNK_ERR", 0x1000018, [(0x10000, 64)], 0xA40,
    [⟨0, 8, .rw, .live⟩, ⟨8, 12, .rw, .live⟩, ⟨20, 1, .rw, .live⟩]⟩,
  ⟨"PRT_LNK_CTL", 0x1000020, [(0x10000, 64)], 0x0,
    [⟨0, 1, .wo, .live⟩]⟩,
  ⟨"PRT_LNK_ERRCNT", 0x1000028, [(0x10000, 64)], 0x0,
    [⟨0, 16, .rc, .none⟩, ⟨16, 16, .rc, .none⟩, ⟨32, 16, .rc, .none⟩, ⟨48, 16, .rc, .none⟩]⟩,
  ⟨"PRT_LNK_ERRCNT2", 0x1000030, [(0x10000, 64)], 0x0,
    [⟨0, 16, .rc, .none⟩, ⟨16, 16, .rc, .none⟩, ⟨32, 16, .rc, .none⟩, ⟨48, 16, .rc, .none⟩]⟩,
  ⟨"PRT_LNK_DROP", 0x1000038, [(0x10000, 64)], 0x0,
    [⟨0, 32, .rc, .none⟩, ⟨32, 16, .rc, .none⟩]⟩,
  ⟨"PRT_LNK_RTT", 0x1000040, [(0x10000, 64)], 0x0,
    [⟨0, 16, .ro, .none⟩, ⟨16, 16, .ro, .none⟩, ⟨32, 13, .ro, .none⟩]⟩,
  ⟨"PRT_LNK_SEQ", 0x1000048, [(0x10000, 64)], 0x0,
    [⟨0, 24, .ro, .none⟩, ⟨24, 24, .ro, .none⟩]⟩,
  ⟨"PRT_LANE_CFG", 0x1000100, [(0x10000, 64)], 0x3E88C94,
    [⟨0, 1, .rw, .live⟩, ⟨1, 2, .rw, .quiesced⟩, ⟨3, 1, .rw, .quiesced⟩, ⟨4, 1, .rw, .live⟩, ⟨5, 10, .rw, .live⟩, ⟨15, 1, .rw, .live⟩, ⟨16, 1, .rw, .quiesced⟩, ⟨17, 11, .rw, .live⟩]⟩]
def regTable8 : List RegInfo := [
  ⟨"PRT_LANE_CTL", 0x1000108, [(0x10000, 64)], 0x0,
    [⟨0, 1, .wo, .live⟩, ⟨1, 1, .wo, .live⟩]⟩,
  ⟨"PRT_TRN_STAT", 0x1000110, [(0x10000, 64)], 0x0,
    [⟨0, 3, .ro, .none⟩, ⟨3, 1, .ro, .none⟩, ⟨4, 4, .ro, .none⟩, ⟨8, 4, .ro, .none⟩, ⟨12, 4, .ro, .none⟩, ⟨16, 16, .ro, .none⟩]⟩,
  ⟨"PRT_PARK_CFG", 0x1000118, [(0x10000, 64)], 0x200C8,
    [⟨0, 1, .rw, .live⟩, ⟨1, 16, .rw, .live⟩, ⟨17, 1, .rw, .live⟩]⟩,
  ⟨"PRT_TIME_ASYM", 0x1000120, [(0x10000, 64)], 0x0,
    [⟨0, 32, .rw, .live⟩]⟩,
  ⟨"PRT_MOD_CFG", 0x1000128, [(0x10000, 64)], 0x0,
    [⟨0, 1, .rw, .live⟩]⟩,
  ⟨"PRT_MOD_STAT", 0x1000130, [(0x10000, 64)], 0x0,
    [⟨0, 1, .ro, .none⟩, ⟨1, 1, .ro, .none⟩, ⟨2, 1, .ro, .none⟩, ⟨8, 8, .ro, .none⟩]⟩,
  ⟨"PRT_LANE_STAT", 0x1000200, [(0x10000, 64), (0x8, 4)], 0x0,
    [⟨0, 4, .ro, .none⟩, ⟨4, 2, .ro, .none⟩, ⟨6, 1, .ro, .none⟩, ⟨7, 1, .ro, .none⟩, ⟨8, 16, .ro, .none⟩, ⟨24, 24, .ro, .none⟩, ⟨48, 16, .rc, .none⟩]⟩,
  ⟨"ROPE_CFG", 0x1400000, [], 0x200003,
    [⟨0, 2, .rw, .live⟩, ⟨2, 16, .rws, .live⟩, ⟨18, 4, .rw, .live⟩]⟩,
  ⟨"ROPE_PORT_STAT", 0x1400100, [(0x100, 2)], 0x0,
    [⟨0, 2, .ro, .none⟩, ⟨2, 1, .ro, .none⟩, ⟨3, 1, .ro, .none⟩, ⟨4, 2, .ro, .none⟩, ⟨16, 16, .rc, .none⟩, ⟨32, 16, .rc, .none⟩]⟩,
  ⟨"ROPE_PORT_NBR", 0x1400108, [(0x100, 2)], 0x0,
    [⟨0, 18, .ro, .none⟩, ⟨18, 1, .ro, .none⟩, ⟨19, 16, .ro, .none⟩, ⟨35, 1, .ro, .none⟩, ⟨36, 16, .ro, .none⟩]⟩,
  ⟨"TIME_NOW", 0x1800000, [], 0x0,
    [⟨0, 64, .ro, .none⟩]⟩,
  ⟨"TIME_FRAC", 0x1800008, [], 0x0,
    [⟨0, 16, .ro, .none⟩]⟩]
def regTable9 : List RegInfo := [
  ⟨"TIME_SET", 0x1800010, [], 0x0,
    [⟨0, 64, .wo, .live⟩]⟩,
  ⟨"TIME_CFG", 0x1800018, [], 0x3E8143E80FB2,
    [⟨0, 1, .rw, .live⟩, ⟨1, 1, .rw, .live⟩, ⟨2, 1, .rw, .live⟩, ⟨3, 1, .rw, .live⟩, ⟨4, 1, .rw, .live⟩, ⟨5, 11, .rw, .live⟩, ⟨16, 12, .rw, .live⟩, ⟨28, 8, .rw, .live⟩, ⟨36, 12, .rw, .live⟩]⟩,
  ⟨"TIME_STAT", 0x1800020, [], 0xFFFE,
    [⟨0, 1, .ro, .none⟩, ⟨1, 7, .ro, .none⟩, ⟨8, 8, .ro, .none⟩, ⟨16, 32, .ro, .none⟩, ⟨48, 16, .ro, .none⟩]⟩,
  ⟨"TIME_FREQ", 0x1800028, [], 0x0,
    [⟨0, 32, .ro, .none⟩]⟩,
  ⟨"HST_PORT_CFG", 0x1500000, [(0x4000, 4)], 0xFFC,
    [⟨0, 1, .rws, .boundary⟩, ⟨1, 3, .rws, .boundary⟩, ⟨4, 8, .rws, .boundary⟩]⟩,
  ⟨"HST_PORT_STAT", 0x1500008, [(0x4000, 4)], 0x0,
    [⟨0, 2, .ro, .none⟩, ⟨2, 3, .ro, .none⟩, ⟨5, 5, .ro, .none⟩, ⟨10, 1, .ro, .none⟩, ⟨11, 3, .ro, .none⟩, ⟨14, 5, .ro, .none⟩, ⟨19, 1, .ro, .none⟩]⟩,
  ⟨"HST_PORT_ERR", 0x1500010, [(0x4000, 4)], 0x0,
    [⟨0, 16, .rc, .none⟩, ⟨16, 16, .rc, .none⟩, ⟨32, 16, .rc, .none⟩, ⟨48, 16, .rc, .none⟩]⟩,
  ⟨"HST_FN_CTL", 0x1500800, [(0x4000, 4), (0x8, 256)], 0x0,
    [⟨0, 1, .rw, .live⟩, ⟨1, 3, .ro, .none⟩, ⟨4, 1, .ro, .none⟩, ⟨5, 1, .ro, .none⟩, ⟨6, 3, .ro, .none⟩]⟩,
  ⟨"INT_TGT_CLAIM", 0xC00000, [(0x40, 1025)], 0x0,
    [⟨0, 12, .ro, .none⟩, ⟨12, 1, .ro, .none⟩]⟩,
  ⟨"INT_TGT_COMPLETE", 0xC00008, [(0x40, 1025)], 0x0,
    [⟨0, 12, .wo, .live⟩]⟩,
  ⟨"INT_TGT_SETPEND", 0xC00010, [(0x40, 1025)], 0x0,
    [⟨0, 12, .wo, .live⟩]⟩,
  ⟨"INT_TGT_CLRPEND", 0xC00018, [(0x40, 1025)], 0x0,
    [⟨0, 12, .wo, .live⟩]⟩]
def regTable10 : List RegInfo := [
  ⟨"INT_TGT_CFG", 0xC00020, [(0x40, 1025)], 0x0,
    [⟨0, 12, .rw, .live⟩]⟩,
  ⟨"INT_TGT_STAT", 0xC00028, [(0x40, 1025)], 0x2000,
    [⟨0, 12, .ro, .none⟩, ⟨12, 1, .ro, .none⟩, ⟨13, 1, .ro, .none⟩, ⟨14, 13, .ro, .none⟩, ⟨27, 16, .rc, .none⟩]⟩,
  ⟨"INT_TGT_PSEL", 0xC00030, [(0x40, 1025)], 0x0,
    [⟨0, 6, .rw, .live⟩, ⟨6, 1, .rw, .live⟩]⟩,
  ⟨"INT_TGT_PWORD", 0xC00038, [(0x40, 1025)], 0x0,
    [⟨0, 64, .ro, .none⟩]⟩,
  ⟨"INT_TGT_EN", 0xC40000, [(0x200, 1025), (0x8, 64)], 0x0,
    [⟨0, 64, .rw, .live⟩]⟩,
  ⟨"DMA_CH_CFG", 0x700000, [(0x10000, 16), (0x100, 64)], 0x3000000000,
    [⟨0, 10, .rw, .quiesced⟩, ⟨10, 2, .rw, .quiesced⟩, ⟨12, 1, .rw, .quiesced⟩, ⟨16, 16, .rw, .quiesced⟩, ⟨32, 1, .rw, .quiesced⟩, ⟨33, 1, .rw, .quiesced⟩, ⟨34, 6, .rw, .quiesced⟩]⟩,
  ⟨"DMA_CH_LIST", 0x700008, [(0x10000, 16), (0x100, 64)], 0x0,
    [⟨0, 32, .rw, .quiesced⟩]⟩,
  ⟨"DMA_CH_LPOS", 0x700010, [(0x10000, 16), (0x100, 64)], 0x0,
    [⟨0, 48, .rw, .quiesced⟩]⟩,
  ⟨"DMA_CH_TRIG", 0x700018, [(0x10000, 16), (0x100, 64)], 0x0,
    [⟨0, 48, .rw, .quiesced⟩, ⟨48, 16, .rw, .quiesced⟩]⟩,
  ⟨"DMA_CH_CTL", 0x700020, [(0x10000, 16), (0x100, 64)], 0x0,
    [⟨0, 3, .wo, .live⟩, ⟨3, 1, .ro, .none⟩, ⟨4, 3, .ro, .none⟩, ⟨7, 1, .rw1c, .live⟩, ⟨16, 16, .ro, .none⟩]⟩,
  ⟨"DMA_CH_POS", 0x700028, [(0x10000, 16), (0x100, 64)], 0x0,
    [⟨0, 32, .rw, .quiesced⟩]⟩,
  ⟨"DMA_CH_RPOS", 0x700030, [(0x10000, 16), (0x100, 64)], 0x0,
    [⟨0, 64, .rw, .quiesced⟩]⟩]
def regTable11 : List RegInfo := [
  ⟨"DMA_CH_RLIM", 0x700038, [(0x10000, 16), (0x100, 64)], 0x0,
    [⟨0, 64, .rw, .live⟩]⟩,
  ⟨"DMA_CL_CTL", 0x704000, [(0x10000, 16)], 0x0,
    [⟨0, 1, .wo, .live⟩]⟩,
  ⟨"DMA_CL_STAT", 0x704008, [(0x10000, 16)], 0x0,
    [⟨0, 1, .ro, .none⟩, ⟨16, 16, .rc, .none⟩]⟩,
  ⟨"DMA_CL_ERR", 0x704010, [(0x10000, 16)], 0x0,
    [⟨0, 64, .ro, .none⟩]⟩,
  ⟨"DMA_CTR_OWNER", 0x708000, [(0x8, 1024)], 0x0,
    [⟨0, 10, .rw, .live⟩, ⟨10, 1, .rw, .live⟩]⟩,
  ⟨"DMA_CTR_SEL", 0x70A000, [], 0x0,
    [⟨0, 16, .rw, .live⟩]⟩,
  ⟨"DMA_CTR_VAL", 0x70A008, [], 0x0,
    [⟨0, 48, .rw, .live⟩]⟩,
  ⟨"DMA_CTR_ADD", 0x70A010, [], 0x0,
    [⟨0, 48, .wo, .live⟩]⟩,
  ⟨"DMA_CTR_ARM0", 0x70A018, [], 0x0,
    [⟨0, 16, .rw, .live⟩, ⟨16, 10, .rw, .live⟩, ⟨26, 4, .rw, .live⟩]⟩,
  ⟨"DMA_CTR_ARM1", 0x70A020, [], 0x0,
    [⟨0, 48, .wo, .live⟩]⟩,
  ⟨"DMA_CTR_STAT", 0x70A028, [], 0x0,
    [⟨0, 15, .ro, .none⟩, ⟨15, 1, .rw1c, .live⟩, ⟨16, 16, .rc, .none⟩, ⟨32, 16, .rc, .none⟩]⟩,
  ⟨"PIT_LOCK", 0x30000, [(0x8, 4096)], 0x0,
    [⟨0, 16, .ro, .none⟩, ⟨16, 1, .wo, .live⟩]⟩]
def regTable12 : List RegInfo := [
  ⟨"PIT_FN_ACQ", 0x38000, [(0x8, 1024)], 0x0,
    [⟨0, 64, .rw, .live⟩]⟩,
  ⟨"PIT_FN_REL", 0x3A000, [(0x8, 1024)], 0x0,
    [⟨0, 64, .rw, .live⟩]⟩,
  ⟨"PIT_GRP_CFG", 0x3C000, [(0x8, 64)], 0x8,
    [⟨0, 3, .rw, .live⟩, ⟨3, 1, .rw, .live⟩]⟩,
  ⟨"PIT_CFG", 0x3E000, [], 0x1F4,
    [⟨0, 11, .rw, .live⟩, ⟨11, 21, .rw, .live⟩]⟩,
  ⟨"PIT_SEL", 0x3E008, [], 0x0,
    [⟨0, 12, .rw, .live⟩]⟩,
  ⟨"PIT_INFO", 0x3E010, [], 0x0,
    [⟨0, 1, .ro, .none⟩, ⟨1, 2, .ro, .none⟩, ⟨3, 10, .ro, .none⟩, ⟨13, 10, .ro, .none⟩, ⟨23, 3, .ro, .none⟩, ⟨26, 3, .ro, .none⟩, ⟨29, 11, .ro, .none⟩]⟩,
  ⟨"PIT_STAT", 0x3E018, [], 0x0,
    [⟨0, 16, .rc, .none⟩, ⟨16, 16, .rc, .none⟩, ⟨32, 16, .rc, .none⟩]⟩,
  ⟨"DEP_STAT", 0x1600000, [], 0x40,
    [⟨0, 7, .ro, .none⟩, ⟨7, 25, .ro, .none⟩, ⟨32, 25, .ro, .none⟩]⟩,
  ⟨"DEP_POOL_CFG", 0x1600008, [], 0x8,
    [⟨0, 6, .rw, .quiesced⟩]⟩,
  ⟨"DEP_POOL_CLASS", 0x1600040, [(0x8, 5)], 0x0,
    [⟨0, 25, .rw, .live⟩, ⟨25, 25, .ro, .none⟩]⟩,
  ⟨"DEP_BUF_ALLOC", 0x1600020, [], 0x0,
    [⟨0, 36, .ro, .none⟩, ⟨63, 1, .ro, .none⟩]⟩,
  ⟨"DEP_BUF_FREE", 0x1600028, [], 0x0,
    [⟨0, 36, .wo, .live⟩]⟩]
def regTable13 : List RegInfo := [
  ⟨"DEP_ACC_ADDR", 0x1600030, [], 0x0,
    [⟨3, 33, .rw, .live⟩, ⟨62, 1, .ro, .none⟩, ⟨63, 1, .rw1c, .live⟩]⟩,
  ⟨"DEP_ACC_DATA", 0x1600038, [], 0x0,
    [⟨0, 64, .rw, .live⟩]⟩,
  ⟨"DEP_MISUSE", 0x1600018, [], 0x0,
    [⟨0, 16, .rc, .none⟩, ⟨16, 16, .rc, .none⟩, ⟨32, 25, .ro, .none⟩, ⟨57, 4, .ro, .none⟩]⟩,
  ⟨"DEP_ECC_STAT", 0x1600100, [], 0x0,
    [⟨0, 16, .rc, .none⟩, ⟨16, 16, .rc, .none⟩, ⟨32, 16, .rc, .none⟩, ⟨48, 16, .rc, .none⟩]⟩,
  ⟨"DEP_ECC_ADDR", 0x1600108, [], 0x0,
    [⟨0, 36, .ro, .none⟩, ⟨36, 1, .ro, .none⟩]⟩,
  ⟨"DEP_SCRUB_CFG", 0x1600110, [], 0x7831,
    [⟨0, 1, .rw, .live⟩, ⟨1, 8, .rw, .boundary⟩, ⟨9, 11, .rw, .boundary⟩, ⟨20, 16, .ro, .none⟩]⟩,
  ⟨"TGT_DEFAULT", 0x1700000, [(0x8, 22)], 0x0,
    [⟨0, 12, .rw, .staged⟩]⟩,
  ⟨"TGT_CFG", 0x1700100, [], 0x0,
    [⟨0, 1, .w1s, .live⟩]⟩,
  ⟨"TGT_DENY", 0x1700108, [], 0x0,
    [⟨0, 16, .rc, .none⟩, ⟨16, 5, .ro, .none⟩, ⟨21, 3, .ro, .none⟩, ⟨24, 10, .ro, .none⟩]⟩,
  ⟨"TGT_DENY_ADDR", 0x1700110, [], 0x0,
    [⟨0, 64, .ro, .none⟩]⟩,
  ⟨"TGT_RGN_BASE", 0x1701000, [(0x1000, 22), (0x20, 64)], 0x0,
    [⟨6, 58, .rw, .staged⟩]⟩,
  ⟨"TGT_RGN_LIMIT", 0x1701008, [(0x1000, 22), (0x20, 64)], 0x0,
    [⟨6, 58, .rw, .staged⟩]⟩]
def regTable14 : List RegInfo := [
  ⟨"TGT_RGN_RIGHTS", 0x1701010, [(0x1000, 22), (0x20, 64)], 0x0,
    [⟨0, 12, .rw, .staged⟩, ⟨12, 1, .rw, .staged⟩, ⟨13, 10, .rw, .staged⟩, ⟨23, 1, .rw, .staged⟩]⟩,
  ⟨"ARB_CFG", 0x17F0000, [(0x20, 6)], 0x8010,
    [⟨0, 9, .rw, .boundary⟩, ⟨9, 10, .rw, .live⟩]⟩,
  ⟨"ARB_FLAGS", 0x17F0008, [(0x20, 6)], 0x0,
    [⟨0, 64, .rw1c, .live⟩]⟩,
  ⟨"ARB_CNT", 0x17F0010, [(0x20, 6)], 0x0,
    [⟨0, 32, .rc, .none⟩, ⟨32, 32, .rc, .none⟩]⟩,
  ⟨"GLB_ID", 0x0, [], 0x3114C40,
    [⟨0, 16, .ro, .none⟩, ⟨16, 4, .ro, .none⟩, ⟨20, 4, .ro, .none⟩, ⟨24, 1, .ro, .none⟩, ⟨25, 1, .ro, .none⟩, ⟨26, 1, .ro, .none⟩]⟩,
  ⟨"GLB_TXN_CTL", 0x100, [], 0x0,
    [⟨0, 2, .wo, .live⟩]⟩,
  ⟨"GLB_TXN_STAT", 0x108, [], 0x0,
    [⟨0, 2, .ro, .none⟩, ⟨2, 1, .ro, .none⟩, ⟨3, 1, .ro, .none⟩, ⟨16, 16, .ro, .none⟩, ⟨32, 13, .ro, .none⟩]⟩,
  ⟨"GLB_TXN_CONF", 0x110, [], 0x0,
    [⟨0, 28, .ro, .none⟩]⟩,
  ⟨"GLB_TXN_CFG", 0x118, [], 0x3E8,
    [⟨0, 16, .rw, .live⟩]⟩,
  ⟨"PWR_STATE", 0x10000, [], 0x1,
    [⟨0, 3, .ro, .none⟩, ⟨3, 1, .w1s, .live⟩, ⟨4, 2, .rws, .live⟩]⟩,
  ⟨"PWR_POLICY", 0x10008, [], 0x10001,
    [⟨0, 16, .rw, .live⟩, ⟨16, 16, .rw, .live⟩, ⟨32, 7, .rw, .live⟩, ⟨39, 1, .rw, .live⟩]⟩,
  ⟨"PWR_GATE_CFG", 0x10010, [], 0xFA00FA064,
    [⟨0, 10, .rw, .live⟩, ⟨10, 16, .rw, .live⟩, ⟨26, 16, .rw, .live⟩]⟩]
def regTable15 : List RegInfo := [
  ⟨"PWR_DOM_STAT", 0x10018, [], 0x0,
    [⟨0, 16, .ro, .none⟩, ⟨16, 16, .ro, .none⟩, ⟨32, 16, .ro, .none⟩, ⟨48, 16, .ro, .none⟩]⟩,
  ⟨"PWR_RAIL_FAULT", 0x10020, [], 0x0,
    [⟨0, 5, .rws, .live⟩, ⟨5, 2, .rws, .live⟩]⟩,
  ⟨"BCP_FW_STAT", 0x40000, [], 0x0,
    [⟨0, 3, .ro, .none⟩, ⟨3, 1, .ro, .none⟩, ⟨4, 1, .ro, .none⟩, ⟨5, 1, .ro, .none⟩, ⟨6, 1, .ro, .none⟩, ⟨8, 32, .ro, .none⟩, ⟨40, 6, .ro, .none⟩]⟩,
  ⟨"BCP_EXC_CFG", 0x40008, [], 0x8,
    [⟨0, 6, .rw, .live⟩]⟩,
  ⟨"BCP_EXC_STAT", 0x40010, [], 0x0,
    [⟨0, 14, .ro, .none⟩, ⟨14, 16, .rc, .none⟩]⟩,
  ⟨"BCP_CTL_STAT", 0x40018, [], 0x0,
    [⟨0, 14, .ro, .none⟩, ⟨14, 16, .rc, .none⟩, ⟨30, 16, .rc, .none⟩]⟩,
  ⟨"BCP_FN_CTLEV", 0x42000, [(0x8, 1024)], 0x0,
    [⟨0, 10, .rw, .live⟩, ⟨10, 4, .rw, .live⟩, ⟨14, 1, .rw, .live⟩]⟩,
  ⟨"BCP_MBX_REQ", 0x48000, [(0x200, 8), (0x8, 16)], 0x0,
    [⟨0, 64, .rw, .live⟩]⟩,
  ⟨"BCP_MBX_RSP", 0x48080, [(0x200, 8), (0x8, 16)], 0x0,
    [⟨0, 64, .ro, .none⟩]⟩,
  ⟨"BCP_MBX_CTL", 0x48100, [(0x200, 8)], 0x0,
    [⟨0, 16, .rw, .live⟩, ⟨16, 16, .rw, .live⟩, ⟨32, 12, .rw, .live⟩, ⟨44, 1, .rw, .live⟩, ⟨45, 1, .w1s, .live⟩]⟩,
  ⟨"BCP_MBX_STAT", 0x48108, [(0x200, 8)], 0x0,
    [⟨0, 16, .ro, .none⟩, ⟨16, 16, .ro, .none⟩, ⟨32, 1, .ro, .none⟩, ⟨33, 5, .ro, .none⟩, ⟨38, 1, .rw1c, .live⟩]⟩,
  ⟨"FLT_CFG", 0x20000, [], 0x0,
    [⟨0, 1, .w1s, .live⟩, ⟨1, 12, .rw, .live⟩, ⟨13, 10, .rw, .live⟩, ⟨23, 1, .rw, .live⟩, ⟨24, 12, .rw, .live⟩]⟩]
def regTable16 : List RegInfo := [
  ⟨"FLT_STAT", 0x20008, [], 0x0,
    [⟨0, 6, .ro, .none⟩, ⟨6, 16, .rc, .none⟩, ⟨22, 16, .rc, .none⟩, ⟨38, 1, .ro, .none⟩]⟩,
  ⟨"FLT_CAUSE", 0x20010, [], 0x0,
    [⟨0, 6, .rws, .live⟩, ⟨6, 2, .rws, .live⟩]⟩,
  ⟨"FLT_CAUSE_TIME", 0x20018, [], 0x0,
    [⟨0, 64, .rws, .live⟩]⟩,
  ⟨"FLT_SEV", 0x20100, [(0x8, 2)], 0x0,
    [⟨0, 64, .rw, .live⟩]⟩,
  ⟨"FLT_STICKY", 0x20200, [], 0x0,
    [⟨0, 64, .rw1c, .live⟩]⟩,
  ⟨"FLT_SNAP", 0x20208, [], 0x0,
    [⟨0, 64, .rws, .live⟩]⟩,
  ⟨"FLT_TEST", 0x20300, [], 0x0,
    [⟨0, 6, .wo, .live⟩]⟩,
  ⟨"FLT_THERM", 0x20400, [], 0x0,
    [⟨0, 11, .ro, .none⟩, ⟨11, 5, .ro, .none⟩, ⟨16, 3, .ro, .none⟩, ⟨19, 3, .ro, .none⟩]⟩,
  ⟨"FLT_CUR_CFG", 0x20408, [], 0x44C,
    [⟨0, 11, .rw, .live⟩]⟩,
  ⟨"FLT_CUR_STAT", 0x20410, [], 0x0,
    [⟨0, 11, .ro, .none⟩, ⟨11, 3, .ro, .none⟩, ⟨14, 16, .rc, .none⟩]⟩,
  ⟨"FLT_WO_LOG", 0x20500, [], 0x0,
    [⟨0, 6, .ro, .none⟩, ⟨6, 1, .ro, .none⟩]⟩,
  ⟨"FLT_WO_TIME", 0x20508, [], 0x0,
    [⟨0, 64, .ro, .none⟩]⟩]
def regTable17 : List RegInfo := [
  ⟨"PMC_CTR_CFG", 0x80000, [(0x10, 1024)], 0x0,
    [⟨0, 16, .rw, .live⟩, ⟨16, 6, .rw, .live⟩, ⟨22, 1, .rw, .live⟩, ⟨23, 10, .rw, .live⟩, ⟨33, 1, .rw, .live⟩, ⟨34, 1, .rw, .live⟩, ⟨35, 1, .rw1c, .live⟩]⟩,
  ⟨"PMC_CTR_VAL", 0x80008, [(0x10, 1024)], 0x0,
    [⟨0, 48, .rw, .live⟩]⟩,
  ⟨"PMC_RDR_CFG", 0x84000, [], 0xFA06A00000000,
    [⟨0, 32, .rw, .quiesced⟩, ⟨32, 4, .rw, .quiesced⟩, ⟨36, 5, .rw, .quiesced⟩, ⟨41, 1, .rw, .live⟩, ⟨42, 16, .rw, .quiesced⟩]⟩,
  ⟨"PMC_RDR_FN", 0x84008, [], 0x0,
    [⟨0, 10, .rw, .quiesced⟩]⟩,
  ⟨"PMC_RDR_IDX", 0x84010, [], 0x0,
    [⟨0, 32, .ro, .none⟩, ⟨32, 32, .rw, .live⟩]⟩,
  ⟨"PMC_RDR_STAT", 0x84018, [], 0x0,
    [⟨0, 2, .ro, .none⟩, ⟨2, 16, .ro, .none⟩, ⟨18, 16, .rc, .none⟩]⟩,
  ⟨"PMC_RDR_TRIG", 0x84020, [], 0x0,
    [⟨0, 1, .wo, .live⟩]⟩,
  ⟨"PMC_RDR_MASK", 0x84100, [(0x8, 16)], 0x0,
    [⟨0, 64, .rw, .live⟩]⟩,
  ⟨"PMC_FN_VAL", 0x88000, [(0x80, 1024), (0x8, 16)], 0x0,
    [⟨0, 48, .ro, .none⟩, ⟨63, 1, .ro, .none⟩]⟩,
  ⟨"PWR_MARGIN", 0x10100, [], 0x0,
    [⟨0, 10, .rw, .live⟩, ⟨10, 10, .ro, .none⟩]⟩,
  ⟨"PWR_RAIL_MON", 0x10108, [(0x8, 5)], 0x0,
    [⟨0, 16, .ro, .none⟩, ⟨16, 16, .ro, .none⟩, ⟨32, 8, .ro, .none⟩, ⟨40, 1, .ro, .none⟩, ⟨41, 1, .ro, .none⟩]⟩,
  ⟨"PWR_PMB_ADDR", 0x10140, [(0x8, 5)], 0x0,
    [⟨0, 7, .rw, .live⟩, ⟨7, 8, .rw, .live⟩, ⟨15, 1, .rw, .live⟩]⟩]

/-- Every register of the map, in the order of the chapters that hold the field tables (R593). -/
def regTable : List RegInfo :=
  regTable0 ++ regTable1 ++ regTable2 ++ regTable3 ++ regTable4 ++ regTable5 ++ regTable6 ++ regTable7 ++ regTable8 ++ regTable9 ++ regTable10 ++ regTable11 ++ regTable12 ++ regTable13 ++ regTable14 ++ regTable15 ++ regTable16 ++ regTable17

/-! Register numbers: the places in `regTable`. -/
namespace R
abbrev ENG_SLOT_IMG : Nat := 0
abbrev ENG_SLOT_CTL : Nat := 1
abbrev ENG_SLOT_STAT : Nat := 2
abbrev ENG_FN_TRAP : Nat := 3
abbrev ENG_THR_CTL : Nat := 4
abbrev WQ_CTX_RING : Nat := 5
abbrev WQ_CTX_CFG : Nat := 6
abbrev WQ_CTX_STAT : Nat := 7
abbrev WQ_CTX_PROD_SEQ : Nat := 8
abbrev WQ_CTX_DISP_SEQ : Nat := 9
abbrev WQ_CTX_COMP_SEQ : Nat := 10
abbrev WQ_CTX_CTL : Nat := 11
abbrev WQ_CTX_AUX : Nat := 12
abbrev XLT_ASID_ROOT : Nat := 13
abbrev XLT_CFG : Nat := 14
abbrev XLT_INV_ADDR : Nat := 15
abbrev XLT_INV_CMD : Nat := 16
abbrev XLT_INV_STAT : Nat := 17
abbrev WIN_CFG : Nat := 18
abbrev WIN_STAT : Nat := 19
abbrev WIN_TOTAL : Nat := 20
abbrev WIN_FN_QUOTA : Nat := 21
abbrev WIN_FN_ARG0 : Nat := 22
abbrev WIN_FN_ARG1 : Nat := 23
abbrev WIN_FN_ARG2 : Nat := 24
abbrev WIN_FN_CMD : Nat := 25
abbrev WIN_FN_RESULT : Nat := 26
abbrev WIN_FN_REVOKE : Nat := 27
abbrev RMA_CFG : Nat := 28
abbrev RMA_CAIRN_CFG : Nat := 29
abbrev RMA_STAT : Nat := 30
abbrev RMA_CAIRN_STAT : Nat := 31
abbrev RMA_FN_CFG : Nat := 32
abbrev RMA_FN_ARR : Nat := 33
abbrev RMA_FN_UD_RING : Nat := 34
abbrev RMA_FN_UD_IDX : Nat := 35
abbrev RMA_FN_LASTERR : Nat := 36
abbrev MTC_CFG : Nat := 37
abbrev MTC_CAP : Nat := 38
abbrev MTC_STAT : Nat := 39
abbrev MTC_RDV_STAT : Nat := 40
abbrev MTC_FN_CFG : Nat := 41
abbrev MTC_FN_RCQ : Nat := 42
abbrev MTC_FN_RCQ_IDX : Nat := 43
abbrev MTC_FN_ARR : Nat := 44
abbrev MTC_FN_STAT : Nat := 45
abbrev COL_CFG : Nat := 46
abbrev COL_STAT : Nat := 47
abbrev COL_FN_CFG : Nat := 48
abbrev COL_CTX_STAT : Nat := 49
abbrev COL_CTX_CTL : Nat := 50
abbrev COL_CTX_TREE : Nat := 51
abbrev RTE_CFG : Nat := 52
abbrev RTE_ID : Nat := 53
abbrev RTE_TRAV : Nat := 54
abbrev RTE_SEED : Nat := 55
abbrev RTE_CMARK : Nat := 56
abbrev RTE_DROP : Nat := 57
abbrev RTE_DROP2 : Nat := 58
abbrev RTE_VIA_MASK : Nat := 59
abbrev RTE_PSET : Nat := 60
abbrev RTE_MBR : Nat := 61
abbrev RTE_GRP : Nat := 62
abbrev RTE_PORT_CFG : Nat := 63
abbrev RTE_PORT_CTL : Nat := 64
abbrev RTE_PORT_NBR : Nat := 65
abbrev RTE_PORT_STATE : Nat := 66
abbrev RMA_CC_CFG : Nat := 67
abbrev RMA_CC_WIN : Nat := 68
abbrev RMA_CC_BASE : Nat := 69
abbrev RMA_CC_STAT : Nat := 70
abbrev RMA_CC_LOOKUP : Nat := 71
abbrev RMA_CC_ENTRY : Nat := 72
abbrev RMA_CC_ENTRY2 : Nat := 73
abbrev SCH_INJ_CFG : Nat := 74
abbrev SCH_FN_CFG : Nat := 75
abbrev SCH_FN_SHAPER : Nat := 76
abbrev SCH_FN_METER : Nat := 77
abbrev SCH_FN_STAT : Nat := 78
abbrev SCH_PORT_CFG : Nat := 79
abbrev SCH_GATE_CTL : Nat := 80
abbrev SCH_GATE_PBASE : Nat := 81
abbrev SCH_GATE_ABASE : Nat := 82
abbrev SCH_GATE_ENT : Nat := 83
abbrev SCH_UDP : Nat := 84
abbrev PRT_LNK_STATE : Nat := 85
abbrev PRT_LNK_CFG : Nat := 86
abbrev PRT_LNK_CREDIT : Nat := 87
abbrev PRT_LNK_ERR : Nat := 88
abbrev PRT_LNK_CTL : Nat := 89
abbrev PRT_LNK_ERRCNT : Nat := 90
abbrev PRT_LNK_ERRCNT2 : Nat := 91
abbrev PRT_LNK_DROP : Nat := 92
abbrev PRT_LNK_RTT : Nat := 93
abbrev PRT_LNK_SEQ : Nat := 94
abbrev PRT_LANE_CFG : Nat := 95
abbrev PRT_LANE_CTL : Nat := 96
abbrev PRT_TRN_STAT : Nat := 97
abbrev PRT_PARK_CFG : Nat := 98
abbrev PRT_TIME_ASYM : Nat := 99
abbrev PRT_MOD_CFG : Nat := 100
abbrev PRT_MOD_STAT : Nat := 101
abbrev PRT_LANE_STAT : Nat := 102
abbrev ROPE_CFG : Nat := 103
abbrev ROPE_PORT_STAT : Nat := 104
abbrev ROPE_PORT_NBR : Nat := 105
abbrev TIME_NOW : Nat := 106
abbrev TIME_FRAC : Nat := 107
abbrev TIME_SET : Nat := 108
abbrev TIME_CFG : Nat := 109
abbrev TIME_STAT : Nat := 110
abbrev TIME_FREQ : Nat := 111
abbrev HST_PORT_CFG : Nat := 112
abbrev HST_PORT_STAT : Nat := 113
abbrev HST_PORT_ERR : Nat := 114
abbrev HST_FN_CTL : Nat := 115
abbrev INT_TGT_CLAIM : Nat := 116
abbrev INT_TGT_COMPLETE : Nat := 117
abbrev INT_TGT_SETPEND : Nat := 118
abbrev INT_TGT_CLRPEND : Nat := 119
abbrev INT_TGT_CFG : Nat := 120
abbrev INT_TGT_STAT : Nat := 121
abbrev INT_TGT_PSEL : Nat := 122
abbrev INT_TGT_PWORD : Nat := 123
abbrev INT_TGT_EN : Nat := 124
abbrev DMA_CH_CFG : Nat := 125
abbrev DMA_CH_LIST : Nat := 126
abbrev DMA_CH_LPOS : Nat := 127
abbrev DMA_CH_TRIG : Nat := 128
abbrev DMA_CH_CTL : Nat := 129
abbrev DMA_CH_POS : Nat := 130
abbrev DMA_CH_RPOS : Nat := 131
abbrev DMA_CH_RLIM : Nat := 132
abbrev DMA_CL_CTL : Nat := 133
abbrev DMA_CL_STAT : Nat := 134
abbrev DMA_CL_ERR : Nat := 135
abbrev DMA_CTR_OWNER : Nat := 136
abbrev DMA_CTR_SEL : Nat := 137
abbrev DMA_CTR_VAL : Nat := 138
abbrev DMA_CTR_ADD : Nat := 139
abbrev DMA_CTR_ARM0 : Nat := 140
abbrev DMA_CTR_ARM1 : Nat := 141
abbrev DMA_CTR_STAT : Nat := 142
abbrev PIT_LOCK : Nat := 143
abbrev PIT_FN_ACQ : Nat := 144
abbrev PIT_FN_REL : Nat := 145
abbrev PIT_GRP_CFG : Nat := 146
abbrev PIT_CFG : Nat := 147
abbrev PIT_SEL : Nat := 148
abbrev PIT_INFO : Nat := 149
abbrev PIT_STAT : Nat := 150
abbrev DEP_STAT : Nat := 151
abbrev DEP_POOL_CFG : Nat := 152
abbrev DEP_POOL_CLASS : Nat := 153
abbrev DEP_BUF_ALLOC : Nat := 154
abbrev DEP_BUF_FREE : Nat := 155
abbrev DEP_ACC_ADDR : Nat := 156
abbrev DEP_ACC_DATA : Nat := 157
abbrev DEP_MISUSE : Nat := 158
abbrev DEP_ECC_STAT : Nat := 159
abbrev DEP_ECC_ADDR : Nat := 160
abbrev DEP_SCRUB_CFG : Nat := 161
abbrev TGT_DEFAULT : Nat := 162
abbrev TGT_CFG : Nat := 163
abbrev TGT_DENY : Nat := 164
abbrev TGT_DENY_ADDR : Nat := 165
abbrev TGT_RGN_BASE : Nat := 166
abbrev TGT_RGN_LIMIT : Nat := 167
abbrev TGT_RGN_RIGHTS : Nat := 168
abbrev ARB_CFG : Nat := 169
abbrev ARB_FLAGS : Nat := 170
abbrev ARB_CNT : Nat := 171
abbrev GLB_ID : Nat := 172
abbrev GLB_TXN_CTL : Nat := 173
abbrev GLB_TXN_STAT : Nat := 174
abbrev GLB_TXN_CONF : Nat := 175
abbrev GLB_TXN_CFG : Nat := 176
abbrev PWR_STATE : Nat := 177
abbrev PWR_POLICY : Nat := 178
abbrev PWR_GATE_CFG : Nat := 179
abbrev PWR_DOM_STAT : Nat := 180
abbrev PWR_RAIL_FAULT : Nat := 181
abbrev BCP_FW_STAT : Nat := 182
abbrev BCP_EXC_CFG : Nat := 183
abbrev BCP_EXC_STAT : Nat := 184
abbrev BCP_CTL_STAT : Nat := 185
abbrev BCP_FN_CTLEV : Nat := 186
abbrev BCP_MBX_REQ : Nat := 187
abbrev BCP_MBX_RSP : Nat := 188
abbrev BCP_MBX_CTL : Nat := 189
abbrev BCP_MBX_STAT : Nat := 190
abbrev FLT_CFG : Nat := 191
abbrev FLT_STAT : Nat := 192
abbrev FLT_CAUSE : Nat := 193
abbrev FLT_CAUSE_TIME : Nat := 194
abbrev FLT_SEV : Nat := 195
abbrev FLT_STICKY : Nat := 196
abbrev FLT_SNAP : Nat := 197
abbrev FLT_TEST : Nat := 198
abbrev FLT_THERM : Nat := 199
abbrev FLT_CUR_CFG : Nat := 200
abbrev FLT_CUR_STAT : Nat := 201
abbrev FLT_WO_LOG : Nat := 202
abbrev FLT_WO_TIME : Nat := 203
abbrev PMC_CTR_CFG : Nat := 204
abbrev PMC_CTR_VAL : Nat := 205
abbrev PMC_RDR_CFG : Nat := 206
abbrev PMC_RDR_FN : Nat := 207
abbrev PMC_RDR_IDX : Nat := 208
abbrev PMC_RDR_STAT : Nat := 209
abbrev PMC_RDR_TRIG : Nat := 210
abbrev PMC_RDR_MASK : Nat := 211
abbrev PMC_FN_VAL : Nat := 212
abbrev PWR_MARGIN : Nat := 213
abbrev PWR_RAIL_MON : Nat := 214
abbrev PWR_PMB_ADDR : Nat := 215
end R

namespace F
abbrev ENG_SLOT_IMG_BASE : Fld := ⟨0, 0, 57⟩
abbrev ENG_SLOT_IMG_SRC : Fld := ⟨0, 57, 1⟩
abbrev ENG_SLOT_CTL_LEN_M1 : Fld := ⟨1, 0, 16⟩
abbrev ENG_SLOT_CTL_OWNER_FN : Fld := ⟨1, 16, 10⟩
abbrev ENG_SLOT_CTL_PRIV : Fld := ⟨1, 26, 1⟩
abbrev ENG_SLOT_CTL_SHARED : Fld := ⟨1, 27, 1⟩
abbrev ENG_SLOT_CTL_EN : Fld := ⟨1, 28, 1⟩
abbrev ENG_SLOT_CTL_CLUSTERS : Fld := ⟨1, 32, 16⟩
abbrev ENG_SLOT_CTL_ASID : Fld := ⟨1, 48, 16⟩
abbrev ENG_SLOT_STAT_VERSION : Fld := ⟨2, 0, 8⟩
abbrev ENG_SLOT_STAT_ACTIVE_NEW : Fld := ⟨2, 8, 16⟩
abbrev ENG_SLOT_STAT_ACTIVE_OLD : Fld := ⟨2, 24, 16⟩
abbrev ENG_SLOT_STAT_DRAINING : Fld := ⟨2, 40, 1⟩
abbrev ENG_FN_TRAP_SLOT : Fld := ⟨3, 0, 10⟩
abbrev ENG_FN_TRAP_EN : Fld := ⟨3, 10, 1⟩
abbrev ENG_THR_CTL_STATE : Fld := ⟨4, 0, 3⟩
abbrev ENG_THR_CTL_RESTART : Fld := ⟨4, 8, 1⟩
abbrev WQ_CTX_RING_BASE : Fld := ⟨5, 12, 45⟩
abbrev WQ_CTX_RING_PHYS : Fld := ⟨5, 57, 1⟩
abbrev WQ_CTX_RING_LOG2_SIZE : Fld := ⟨5, 58, 5⟩
abbrev WQ_CTX_CFG_FN : Fld := ⟨6, 0, 10⟩
abbrev WQ_CTX_CFG_CLUSTER : Fld := ⟨6, 10, 4⟩
abbrev WQ_CTX_CFG_DMA_CLUSTER : Fld := ⟨6, 14, 4⟩
abbrev WQ_CTX_CFG_THREADS_M1 : Fld := ⟨6, 18, 4⟩
abbrev WQ_CTX_CFG_WEIGHT_M1 : Fld := ⟨6, 22, 8⟩
abbrev WQ_CTX_CFG_BURST_M1 : Fld := ⟨6, 30, 8⟩
abbrev WQ_CTX_CFG_PREFETCH : Fld := ⟨6, 38, 5⟩
abbrev WQ_CTX_CFG_ASID : Fld := ⟨6, 43, 16⟩
abbrev WQ_CTX_STAT_ADDR : Fld := ⟨7, 6, 51⟩
abbrev WQ_CTX_STAT_PHYS : Fld := ⟨7, 57, 1⟩
abbrev WQ_CTX_STAT_COAL : Fld := ⟨7, 58, 3⟩
abbrev WQ_CTX_STAT_INT_EN : Fld := ⟨7, 61, 1⟩
abbrev WQ_CTX_PROD_SEQ_PROD : Fld := ⟨8, 0, 32⟩
abbrev WQ_CTX_DISP_SEQ_DISP : Fld := ⟨9, 0, 32⟩
abbrev WQ_CTX_COMP_SEQ_COMP : Fld := ⟨10, 0, 32⟩
abbrev WQ_CTX_COMP_SEQ_ERR_CNT : Fld := ⟨10, 32, 32⟩
abbrev WQ_CTX_CTL_STATE : Fld := ⟨11, 0, 3⟩
abbrev WQ_CTX_CTL_HOLD : Fld := ⟨11, 3, 1⟩
abbrev WQ_CTX_CTL_ENABLE_LATCHED : Fld := ⟨11, 4, 1⟩
abbrev WQ_CTX_CTL_CMD_REJ : Fld := ⟨11, 5, 1⟩
abbrev WQ_CTX_CTL_CMD : Fld := ⟨11, 8, 3⟩
abbrev WQ_CTX_CTL_ERR_CAUSE : Fld := ⟨11, 16, 6⟩
abbrev WQ_CTX_CTL_ERR_SEQ : Fld := ⟨11, 32, 32⟩
abbrev WQ_CTX_AUX_INVAL_SEQ : Fld := ⟨12, 0, 32⟩
abbrev WQ_CTX_AUX_INT_NUM : Fld := ⟨12, 32, 12⟩
abbrev WQ_CTX_AUX_INCARNATION : Fld := ⟨12, 48, 16⟩
abbrev XLT_ASID_ROOT_EN : Fld := ⟨13, 0, 1⟩
abbrev XLT_ASID_ROOT_OWNER_FN : Fld := ⟨13, 2, 10⟩
abbrev XLT_ASID_ROOT_ROOT : Fld := ⟨13, 12, 52⟩
abbrev XLT_CFG_MODE : Fld := ⟨14, 0, 1⟩
abbrev XLT_CFG_AGE_LIMIT : Fld := ⟨14, 1, 3⟩
abbrev XLT_INV_ADDR_ADDR : Fld := ⟨15, 12, 45⟩
abbrev XLT_INV_CMD_ASID : Fld := ⟨16, 0, 16⟩
abbrev XLT_INV_CMD_SIZE_LOG2 : Fld := ⟨16, 16, 6⟩
abbrev XLT_INV_CMD_KIND : Fld := ⟨16, 22, 2⟩
abbrev XLT_INV_CMD_WALK : Fld := ⟨16, 24, 1⟩
abbrev XLT_INV_STAT_ISSUED : Fld := ⟨17, 0, 32⟩
abbrev XLT_INV_STAT_DONE : Fld := ⟨17, 32, 32⟩
abbrev WIN_CFG_DRAIN_LIMIT : Fld := ⟨18, 0, 13⟩
abbrev WIN_STAT_OPEN : Fld := ⟨19, 0, 21⟩
abbrev WIN_TOTAL_BYTES : Fld := ⟨20, 0, 51⟩
abbrev WIN_FN_QUOTA_MAX_OPEN : Fld := ⟨21, 0, 21⟩
abbrev WIN_FN_QUOTA_OPEN : Fld := ⟨21, 21, 21⟩
abbrev WIN_FN_ARG0_BASE : Fld := ⟨22, 0, 64⟩
abbrev WIN_FN_ARG1_LEN_M1 : Fld := ⟨23, 0, 48⟩
abbrev WIN_FN_ARG2_ASID : Fld := ⟨24, 0, 16⟩
abbrev WIN_FN_ARG2_LR : Fld := ⟨24, 16, 1⟩
abbrev WIN_FN_ARG2_LW : Fld := ⟨24, 17, 1⟩
abbrev WIN_FN_ARG2_RR : Fld := ⟨24, 18, 1⟩
abbrev WIN_FN_ARG2_RW : Fld := ⟨24, 19, 1⟩
abbrev WIN_FN_ARG2_RA : Fld := ⟨24, 20, 1⟩
abbrev WIN_FN_ARG2_PEER_MODE : Fld := ⟨24, 21, 2⟩
abbrev WIN_FN_ARG2_PHYS : Fld := ⟨24, 23, 1⟩
abbrev WIN_FN_ARG2_PEER : Fld := ⟨24, 24, 28⟩
abbrev WIN_FN_CMD_OP : Fld := ⟨25, 0, 2⟩
abbrev WIN_FN_CMD_HANDLE : Fld := ⟨25, 32, 32⟩
abbrev WIN_FN_RESULT_BUSY : Fld := ⟨26, 0, 1⟩
abbrev WIN_FN_RESULT_STATUS : Fld := ⟨26, 8, 16⟩
abbrev WIN_FN_RESULT_VALUE : Fld := ⟨26, 32, 32⟩
abbrev WIN_FN_REVOKE_ISSUED : Fld := ⟨27, 0, 32⟩
abbrev WIN_FN_REVOKE_DONE : Fld := ⟨27, 32, 32⟩
abbrev RMA_CFG_RETRY_LIMIT : Fld := ⟨28, 0, 4⟩
abbrev RMA_CFG_QUIET_US : Fld := ⟨28, 4, 12⟩
abbrev RMA_CFG_RX_IDLE_US : Fld := ⟨28, 16, 12⟩
abbrev RMA_CFG_DG_SLOT_MAX : Fld := ⟨28, 32, 17⟩
abbrev RMA_CAIRN_CFG_LIFE_US : Fld := ⟨29, 0, 16⟩
abbrev RMA_CAIRN_CFG_SPILL_MAX : Fld := ⟨29, 16, 23⟩
abbrev RMA_STAT_SLOTS : Fld := ⟨30, 0, 17⟩
abbrev RMA_STAT_RX_CTX : Fld := ⟨30, 17, 19⟩
abbrev RMA_CAIRN_STAT_ONDIE : Fld := ⟨31, 0, 19⟩
abbrev RMA_CAIRN_STAT_SPILL : Fld := ⟨31, 19, 23⟩
abbrev RMA_FN_CFG_SLOT_MAX : Fld := ⟨32, 0, 17⟩
abbrev RMA_FN_CFG_RX_MAX : Fld := ⟨32, 17, 19⟩
abbrev RMA_FN_CFG_RELAXED : Fld := ⟨32, 36, 1⟩
abbrev RMA_FN_ARR_CTR : Fld := ⟨33, 0, 16⟩
abbrev RMA_FN_ARR_CTR_EN : Fld := ⟨33, 16, 1⟩
abbrev RMA_FN_ARR_SLOT : Fld := ⟨33, 17, 10⟩
abbrev RMA_FN_ARR_ENTRY : Fld := ⟨33, 27, 4⟩
abbrev RMA_FN_ARR_EV_EN : Fld := ⟨33, 31, 1⟩
abbrev RMA_FN_ARR_PUT : Fld := ⟨33, 32, 1⟩
abbrev RMA_FN_ARR_AMO : Fld := ⟨33, 33, 1⟩
abbrev RMA_FN_ARR_GET : Fld := ⟨33, 34, 1⟩
abbrev RMA_FN_UD_RING_WIN : Fld := ⟨34, 0, 32⟩
abbrev RMA_FN_UD_RING_LOG2_SIZE : Fld := ⟨34, 32, 4⟩
abbrev RMA_FN_UD_RING_LOG2_ENTRIES : Fld := ⟨34, 36, 5⟩
abbrev RMA_FN_UD_IDX_PROD : Fld := ⟨35, 0, 32⟩
abbrev RMA_FN_UD_IDX_CONS : Fld := ⟨35, 32, 32⟩
abbrev RMA_FN_LASTERR_STATUS : Fld := ⟨36, 0, 16⟩
abbrev RMA_FN_LASTERR_COUNT : Fld := ⟨36, 16, 16⟩
abbrev RMA_FN_LASTERR_MSG_ID : Fld := ⟨36, 32, 32⟩
abbrev MTC_CFG_ORDER_IDLE_US : Fld := ⟨37, 0, 16⟩
abbrev MTC_CFG_SEND_IDLE_US : Fld := ⟨37, 16, 16⟩
abbrev MTC_CFG_HOLD_US : Fld := ⟨37, 32, 12⟩
abbrev MTC_CAP_UX_DATA_MIB : Fld := ⟨38, 0, 16⟩
abbrev MTC_CAP_HOLD_MAX : Fld := ⟨38, 16, 18⟩
abbrev MTC_STAT_POSTED : Fld := ⟨39, 0, 21⟩
abbrev MTC_STAT_UX : Fld := ⟨39, 21, 21⟩
abbrev MTC_STAT_HELD : Fld := ⟨39, 42, 18⟩
abbrev MTC_RDV_STAT_RDV : Fld := ⟨40, 0, 17⟩
abbrev MTC_RDV_STAT_STREAMS : Fld := ⟨40, 17, 23⟩
abbrev MTC_RDV_STAT_ORDER : Fld := ⟨40, 40, 23⟩
abbrev MTC_FN_CFG_EN : Fld := ⟨41, 0, 1⟩
abbrev MTC_FN_CFG_EAGER_MAX : Fld := ⟨41, 2, 15⟩
abbrev MTC_FN_CFG_POST_MAX : Fld := ⟨41, 17, 21⟩
abbrev MTC_FN_CFG_UX_MAX : Fld := ⟨41, 38, 21⟩
abbrev MTC_FN_RCQ_WIN : Fld := ⟨42, 0, 32⟩
abbrev MTC_FN_RCQ_LOG2_ENTRIES : Fld := ⟨42, 32, 5⟩
abbrev MTC_FN_RCQ_IDX_PROD : Fld := ⟨43, 0, 32⟩
abbrev MTC_FN_RCQ_IDX_CONS : Fld := ⟨43, 32, 32⟩
abbrev MTC_FN_ARR_SLOT : Fld := ⟨44, 0, 10⟩
abbrev MTC_FN_ARR_ENTRY : Fld := ⟨44, 10, 4⟩
abbrev MTC_FN_ARR_EV_EN : Fld := ⟨44, 14, 1⟩
abbrev MTC_FN_STAT_POSTED : Fld := ⟨45, 0, 21⟩
abbrev MTC_FN_STAT_UX : Fld := ⟨45, 21, 21⟩
abbrev MTC_FN_STAT_HELD : Fld := ⟨45, 42, 18⟩
abbrev COL_CFG_LINK_MS : Fld := ⟨46, 0, 16⟩
abbrev COL_CFG_STAGE_MIB : Fld := ⟨46, 16, 16⟩
abbrev COL_STAT_CTX : Fld := ⟨47, 0, 13⟩
abbrev COL_STAT_STAGE_KIB : Fld := ⟨47, 13, 28⟩
abbrev COL_FN_CFG_CTX_MAX : Fld := ⟨48, 0, 13⟩
abbrev COL_FN_CFG_STAGE_MAX_MIB : Fld := ⟨48, 13, 16⟩
abbrev COL_CTX_STAT_STATE : Fld := ⟨49, 0, 3⟩
abbrev COL_CTX_STAT_FN : Fld := ⟨49, 3, 10⟩
abbrev COL_CTX_STAT_STATUS : Fld := ⟨49, 13, 16⟩
abbrev COL_CTX_STAT_EPOCH : Fld := ⟨49, 32, 32⟩
abbrev COL_CTX_CTL_ABORT : Fld := ⟨50, 0, 1⟩
abbrev COL_CTX_TREE_TREE : Fld := ⟨51, 0, 32⟩
abbrev COL_CTX_TREE_UP_EPOCH : Fld := ⟨51, 32, 32⟩
abbrev RTE_CFG_HOP_LIMIT : Fld := ⟨52, 0, 4⟩
abbrev RTE_CFG_RESIDENCE_US : Fld := ⟨52, 4, 4⟩
abbrev RTE_CFG_NONMIN_EN : Fld := ⟨52, 8, 4⟩
abbrev RTE_CFG_TRANSIT_DECIDE : Fld := ⟨52, 12, 1⟩
abbrev RTE_ID_DEV_ID : Fld := ⟨53, 0, 18⟩
abbrev RTE_ID_SYSTEM_ID : Fld := ⟨53, 18, 16⟩
abbrev RTE_ID_ASSIGNED : Fld := ⟨53, 34, 1⟩
abbrev RTE_TRAV_BIAS : Fld := ⟨54, 0, 10⟩
abbrev RTE_TRAV_MIN_THRESH : Fld := ⟨54, 10, 12⟩
abbrev RTE_TRAV_NM_EXTRA : Fld := ⟨54, 22, 4⟩
abbrev RTE_TRAV_DEG_PENALTY : Fld := ⟨54, 26, 12⟩
abbrev RTE_SEED_SEED : Fld := ⟨55, 0, 64⟩
abbrev RTE_CMARK_THR1 : Fld := ⟨56, 0, 12⟩
abbrev RTE_CMARK_THR2 : Fld := ⟨56, 12, 12⟩
abbrev RTE_CMARK_THR3 : Fld := ⟨56, 24, 12⟩
abbrev RTE_DROP_HCHK : Fld := ⟨57, 0, 16⟩
abbrev RTE_DROP_HOP : Fld := ⟨57, 16, 16⟩
abbrev RTE_DROP_RESIDENCE : Fld := ⟨57, 32, 16⟩
abbrev RTE_DROP_NOROUTE : Fld := ⟨57, 48, 16⟩
abbrev RTE_DROP2_MISROUTE : Fld := ⟨58, 0, 16⟩
abbrev RTE_DROP2_PHASE : Fld := ⟨58, 16, 16⟩
abbrev RTE_VIA_MASK_GROUPS : Fld := ⟨59, 0, 64⟩
abbrev RTE_PSET_PORTS : Fld := ⟨60, 0, 64⟩
abbrev RTE_MBR_PSET : Fld := ⟨61, 0, 8⟩
abbrev RTE_MBR_ALT_PSET : Fld := ⟨61, 8, 8⟩
abbrev RTE_MBR_COST : Fld := ⟨61, 16, 4⟩
abbrev RTE_MBR_VALID : Fld := ⟨61, 20, 1⟩
abbrev RTE_MBR_ALT_EN : Fld := ⟨61, 21, 1⟩
abbrev RTE_GRP_PSET : Fld := ⟨62, 0, 8⟩
abbrev RTE_GRP_ALT_PSET : Fld := ⟨62, 8, 8⟩
abbrev RTE_GRP_COST : Fld := ⟨62, 16, 4⟩
abbrev RTE_GRP_VALID : Fld := ⟨62, 20, 1⟩
abbrev RTE_GRP_ALT_EN : Fld := ⟨62, 21, 1⟩
abbrev RTE_PORT_CFG_KIND : Fld := ⟨63, 0, 2⟩
abbrev RTE_PORT_CFG_PGROUP : Fld := ⟨63, 2, 6⟩
abbrev RTE_PORT_CFG_EXPECT_EN : Fld := ⟨63, 8, 1⟩
abbrev RTE_PORT_CFG_EXPECT_DEV : Fld := ⟨63, 9, 18⟩
abbrev RTE_PORT_CFG_EXPECT_PORT : Fld := ⟨63, 27, 6⟩
abbrev RTE_PORT_CTL_DRAIN : Fld := ⟨64, 0, 1⟩
abbrev RTE_PORT_CTL_REDISCOVER : Fld := ⟨64, 1, 1⟩
abbrev RTE_PORT_NBR_IDENTITY : Fld := ⟨65, 0, 64⟩
abbrev RTE_PORT_STATE_STATE : Fld := ⟨66, 0, 3⟩
abbrev RTE_PORT_STATE_MIS_REASON : Fld := ⟨66, 3, 4⟩
abbrev RTE_PORT_STATE_QUEUED : Fld := ⟨66, 8, 12⟩
abbrev RMA_CC_CFG_TARGET_NS : Fld := ⟨67, 0, 12⟩
abbrev RMA_CC_CFG_BETA : Fld := ⟨67, 12, 8⟩
abbrev RMA_CC_CFG_MD_MAX : Fld := ⟨67, 20, 8⟩
abbrev RMA_CC_CFG_MI : Fld := ⟨67, 28, 8⟩
abbrev RMA_CC_CFG_AI : Fld := ⟨67, 36, 4⟩
abbrev RMA_CC_CFG_CMARK_DEC : Fld := ⟨67, 40, 2⟩
abbrev RMA_CC_CFG_REPROBE_EN : Fld := ⟨67, 42, 1⟩
abbrev RMA_CC_WIN_W_INIT : Fld := ⟨68, 0, 16⟩
abbrev RMA_CC_WIN_W_MIN : Fld := ⟨68, 16, 16⟩
abbrev RMA_CC_WIN_W_MAX : Fld := ⟨68, 32, 16⟩
abbrev RMA_CC_BASE_DEFAULT_BASE_NS : Fld := ⟨69, 0, 16⟩
abbrev RMA_CC_BASE_BASE_DECAY_MS : Fld := ⟨69, 16, 10⟩
abbrev RMA_CC_BASE_DST_IDLE_MS : Fld := ⟨69, 26, 10⟩
abbrev RMA_CC_STAT_ENTRIES : Fld := ⟨70, 0, 18⟩
abbrev RMA_CC_STAT_WAITING : Fld := ⟨70, 18, 17⟩
abbrev RMA_CC_STAT_EVICT : Fld := ⟨70, 35, 16⟩
abbrev RMA_CC_LOOKUP_DEV : Fld := ⟨71, 0, 18⟩
abbrev RMA_CC_ENTRY_VALID : Fld := ⟨72, 0, 1⟩
abbrev RMA_CC_ENTRY_W : Fld := ⟨72, 1, 24⟩
abbrev RMA_CC_ENTRY_SRTT : Fld := ⟨72, 25, 16⟩
abbrev RMA_CC_ENTRY_BASE : Fld := ⟨72, 41, 16⟩
abbrev RMA_CC_ENTRY_SAMPLES : Fld := ⟨72, 57, 4⟩
abbrev RMA_CC_ENTRY2_CHARGE : Fld := ⟨73, 0, 20⟩
abbrev RMA_CC_ENTRY2_WAITING : Fld := ⟨73, 20, 17⟩
abbrev SCH_INJ_CFG_REQ_W_M1 : Fld := ⟨74, 0, 8⟩
abbrev SCH_INJ_CFG_COL_W_M1 : Fld := ⟨74, 8, 8⟩
abbrev SCH_FN_CFG_WEIGHT_M1 : Fld := ⟨75, 0, 8⟩
abbrev SCH_FN_CFG_BACKLOG_MAX : Fld := ⟨75, 8, 16⟩
abbrev SCH_FN_CFG_SHAPE_EN : Fld := ⟨75, 24, 1⟩
abbrev SCH_FN_CFG_METER_EN : Fld := ⟨75, 25, 1⟩
abbrev SCH_FN_CFG_METER_DEFER : Fld := ⟨75, 26, 1⟩
abbrev SCH_FN_SHAPER_RATE : Fld := ⟨76, 0, 16⟩
abbrev SCH_FN_SHAPER_BURST : Fld := ⟨76, 16, 16⟩
abbrev SCH_FN_METER_CIR : Fld := ⟨77, 0, 16⟩
abbrev SCH_FN_METER_CBS : Fld := ⟨77, 16, 16⟩
abbrev SCH_FN_METER_PIR : Fld := ⟨77, 32, 16⟩
abbrev SCH_FN_METER_PBS : Fld := ⟨77, 48, 16⟩
abbrev SCH_FN_STAT_TOKENS : Fld := ⟨78, 0, 25⟩
abbrev SCH_FN_STAT_BACKLOG : Fld := ⟨78, 25, 20⟩
abbrev SCH_PORT_CFG_REQ_W_M1 : Fld := ⟨79, 0, 8⟩
abbrev SCH_PORT_CFG_RSP_W_M1 : Fld := ⟨79, 8, 8⟩
abbrev SCH_PORT_CFG_COL_W_M1 : Fld := ⟨79, 16, 8⟩
abbrev SCH_GATE_CTL_EN : Fld := ⟨80, 0, 1⟩
abbrev SCH_GATE_CTL_ARM : Fld := ⟨80, 1, 1⟩
abbrev SCH_GATE_CTL_DISARM : Fld := ⟨80, 2, 1⟩
abbrev SCH_GATE_CTL_ARMED : Fld := ⟨80, 3, 1⟩
abbrev SCH_GATE_CTL_ACTIVE : Fld := ⟨80, 4, 1⟩
abbrev SCH_GATE_CTL_ACTIVE_BANK : Fld := ⟨80, 5, 1⟩
abbrev SCH_GATE_CTL_LATE : Fld := ⟨80, 6, 1⟩
abbrev SCH_GATE_CTL_INVALID : Fld := ⟨80, 7, 1⟩
abbrev SCH_GATE_CTL_PEND_LEN : Fld := ⟨80, 8, 7⟩
abbrev SCH_GATE_CTL_ACT_LEN : Fld := ⟨80, 15, 7⟩
abbrev SCH_GATE_CTL_POSITION : Fld := ⟨80, 22, 6⟩
abbrev SCH_GATE_PBASE_BASE : Fld := ⟨81, 0, 64⟩
abbrev SCH_GATE_ABASE_BASE : Fld := ⟨82, 0, 64⟩
abbrev SCH_GATE_ENT_DURATION : Fld := ⟨83, 0, 24⟩
abbrev SCH_GATE_ENT_REQ : Fld := ⟨83, 24, 1⟩
abbrev SCH_GATE_ENT_RSP : Fld := ⟨83, 25, 1⟩
abbrev SCH_GATE_ENT_COL : Fld := ⟨83, 26, 1⟩
abbrev SCH_UDP_RATE : Fld := ⟨84, 0, 16⟩
abbrev SCH_UDP_BURST : Fld := ⟨84, 16, 16⟩
abbrev SCH_UDP_EN : Fld := ⟨84, 32, 1⟩
abbrev PRT_LNK_STATE_STATE : Fld := ⟨85, 0, 3⟩
abbrev PRT_LNK_STATE_REASON : Fld := ⟨85, 4, 4⟩
abbrev PRT_LNK_STATE_LEVEL : Fld := ⟨85, 8, 8⟩
abbrev PRT_LNK_STATE_UNACKED : Fld := ⟨85, 16, 10⟩
abbrev PRT_LNK_STATE_POOL_FREE : Fld := ⟨85, 26, 13⟩
abbrev PRT_LNK_CFG_ACK_TIMER : Fld := ⟨86, 0, 13⟩
abbrev PRT_LNK_CFG_REPLAY_NS : Fld := ⟨86, 16, 13⟩
abbrev PRT_LNK_CFG_FRAME_LIFE_US : Fld := ⟨86, 32, 6⟩
abbrev PRT_LNK_CFG_CUT_THROUGH_EN : Fld := ⟨86, 38, 1⟩
abbrev PRT_LNK_CFG_CREDIT_NS : Fld := ⟨86, 48, 10⟩
abbrev PRT_LNK_CREDIT_XOFF_FREE : Fld := ⟨87, 0, 13⟩
abbrev PRT_LNK_CREDIT_XON_FREE : Fld := ⟨87, 16, 13⟩
abbrev PRT_LNK_CREDIT_SHARED_CAP : Fld := ⟨87, 32, 13⟩
abbrev PRT_LNK_ERR_ERR_LIMIT : Fld := ⟨88, 0, 8⟩
abbrev PRT_LNK_ERR_ERR_DECAY_US : Fld := ⟨88, 8, 12⟩
abbrev PRT_LNK_ERR_RETRAIN_EN : Fld := ⟨88, 20, 1⟩
abbrev PRT_LNK_CTL_DOWN : Fld := ⟨89, 0, 1⟩
abbrev PRT_LNK_ERRCNT_CRC : Fld := ⟨90, 0, 16⟩
abbrev PRT_LNK_ERRCNT_FRAMING : Fld := ⟨90, 16, 16⟩
abbrev PRT_LNK_ERRCNT_REPLAY : Fld := ⟨90, 32, 16⟩
abbrev PRT_LNK_ERRCNT_CREDIT : Fld := ⟨90, 48, 16⟩
abbrev PRT_LNK_ERRCNT2_GAP : Fld := ⟨91, 0, 16⟩
abbrev PRT_LNK_ERRCNT2_DUP : Fld := ⟨91, 16, 16⟩
abbrev PRT_LNK_ERRCNT2_STOMP : Fld := ⟨91, 32, 16⟩
abbrev PRT_LNK_ERRCNT2_ACK_RANGE : Fld := ⟨91, 48, 16⟩
abbrev PRT_LNK_DROP_LINKDOWN : Fld := ⟨92, 0, 32⟩
abbrev PRT_LNK_DROP_CTRL_UNKNOWN : Fld := ⟨92, 32, 16⟩
abbrev PRT_LNK_RTT_RTT_NS : Fld := ⟨93, 0, 16⟩
abbrev PRT_LNK_RTT_REPLAY_EFF_NS : Fld := ⟨93, 16, 16⟩
abbrev PRT_LNK_RTT_XOFF_EFF : Fld := ⟨93, 32, 13⟩
abbrev PRT_LNK_SEQ_TX_NEXT : Fld := ⟨94, 0, 24⟩
abbrev PRT_LNK_SEQ_NEXT_RX : Fld := ⟨94, 24, 24⟩
abbrev PRT_LANE_CFG_EN : Fld := ⟨95, 0, 1⟩
abbrev PRT_LANE_CFG_MODE : Fld := ⟨95, 1, 2⟩
abbrev PRT_LANE_CFG_SPARE_EN : Fld := ⟨95, 3, 1⟩
abbrev PRT_LANE_CFG_AUTO_RETRY : Fld := ⟨95, 4, 1⟩
abbrev PRT_LANE_CFG_RETRY_MS : Fld := ⟨95, 5, 10⟩
abbrev PRT_LANE_CFG_BG_ADAPT_EN : Fld := ⟨95, 15, 1⟩
abbrev PRT_LANE_CFG_NO_MODULE : Fld := ⟨95, 16, 1⟩
abbrev PRT_LANE_CFG_TRAIN_MS : Fld := ⟨95, 17, 11⟩
abbrev PRT_LANE_CTL_RETRAIN : Fld := ⟨96, 0, 1⟩
abbrev PRT_LANE_CTL_RECAL : Fld := ⟨96, 1, 1⟩
abbrev PRT_TRN_STAT_STATE : Fld := ⟨97, 0, 3⟩
abbrev PRT_TRN_STAT_MODE_425 : Fld := ⟨97, 3, 1⟩
abbrev PRT_TRN_STAT_TX_MAP : Fld := ⟨97, 4, 4⟩
abbrev PRT_TRN_STAT_RX_MAP : Fld := ⟨97, 8, 4⟩
abbrev PRT_TRN_STAT_FAIL_REASON : Fld := ⟨97, 12, 4⟩
abbrev PRT_TRN_STAT_TRAIN_COUNT : Fld := ⟨97, 16, 16⟩
abbrev PRT_PARK_CFG_EN : Fld := ⟨98, 0, 1⟩
abbrev PRT_PARK_CFG_IDLE_US : Fld := ⟨98, 1, 16⟩
abbrev PRT_PARK_CFG_RECAL_PARKED : Fld := ⟨98, 17, 1⟩
abbrev PRT_TIME_ASYM_ASYM_PS : Fld := ⟨99, 0, 32⟩
abbrev PRT_MOD_CFG_ALARM_ACT : Fld := ⟨100, 0, 1⟩
abbrev PRT_MOD_STAT_PRESENT : Fld := ⟨101, 0, 1⟩
abbrev PRT_MOD_STAT_READY : Fld := ⟨101, 1, 1⟩
abbrev PRT_MOD_STAT_ALARM : Fld := ⟨101, 2, 1⟩
abbrev PRT_MOD_STAT_CMIS_STATE : Fld := ⟨101, 8, 8⟩
abbrev PRT_LANE_STAT_FAULT : Fld := ⟨102, 0, 4⟩
abbrev PRT_LANE_STAT_LOGICAL : Fld := ⟨102, 4, 2⟩
abbrev PRT_LANE_STAT_POL_INV : Fld := ⟨102, 6, 1⟩
abbrev PRT_LANE_STAT_ACTIVE : Fld := ⟨102, 7, 1⟩
abbrev PRT_LANE_STAT_CAL_STATUS : Fld := ⟨102, 8, 16⟩
abbrev PRT_LANE_STAT_SER : Fld := ⟨102, 24, 24⟩
abbrev PRT_LANE_STAT_UNCORR : Fld := ⟨102, 48, 16⟩
abbrev ROPE_CFG_EN : Fld := ⟨103, 0, 2⟩
abbrev ROPE_CFG_POSITION : Fld := ⟨103, 2, 16⟩
abbrev ROPE_CFG_FAULT_TTL : Fld := ⟨103, 18, 4⟩
abbrev ROPE_PORT_STAT_STATE : Fld := ⟨104, 0, 2⟩
abbrev ROPE_PORT_STAT_SWAPPED : Fld := ⟨104, 2, 1⟩
abbrev ROPE_PORT_STAT_LANES_SWAPPED : Fld := ⟨104, 3, 1⟩
abbrev ROPE_PORT_STAT_POL_INV : Fld := ⟨104, 4, 2⟩
abbrev ROPE_PORT_STAT_DROPS : Fld := ⟨104, 16, 16⟩
abbrev ROPE_PORT_STAT_CRC_ERR : Fld := ⟨104, 32, 16⟩
abbrev ROPE_PORT_NBR_DEV_ID : Fld := ⟨105, 0, 18⟩
abbrev ROPE_PORT_NBR_ASSIGNED : Fld := ⟨105, 18, 1⟩
abbrev ROPE_PORT_NBR_SYSTEM_ID : Fld := ⟨105, 19, 16⟩
abbrev ROPE_PORT_NBR_PORT : Fld := ⟨105, 35, 1⟩
abbrev ROPE_PORT_NBR_POSITION : Fld := ⟨105, 36, 16⟩
abbrev TIME_NOW_NS : Fld := ⟨106, 0, 64⟩
abbrev TIME_FRAC_FRAC : Fld := ⟨107, 0, 16⟩
abbrev TIME_SET_NS : Fld := ⟨108, 0, 64⟩
abbrev TIME_CFG_GM : Fld := ⟨109, 0, 1⟩
abbrev TIME_CFG_SERVO_EN : Fld := ⟨109, 1, 1⟩
abbrev TIME_CFG_PPS_EN : Fld := ⟨109, 2, 1⟩
abbrev TIME_CFG_REF10M_EN : Fld := ⟨109, 3, 1⟩
abbrev TIME_CFG_ROPE_EN : Fld := ⟨109, 4, 1⟩
abbrev TIME_CFG_PERIOD_US : Fld := ⟨109, 5, 11⟩
abbrev TIME_CFG_STEP_NS : Fld := ⟨109, 16, 12⟩
abbrev TIME_CFG_CONSIST_NS : Fld := ⟨109, 28, 8⟩
abbrev TIME_CFG_LOSS_NS : Fld := ⟨109, 36, 12⟩
abbrev TIME_STAT_LOCKED : Fld := ⟨110, 0, 1⟩
abbrev TIME_STAT_PARENT : Fld := ⟨110, 1, 7⟩
abbrev TIME_STAT_GM_DIST : Fld := ⟨110, 8, 8⟩
abbrev TIME_STAT_OFFSET_NS : Fld := ⟨110, 16, 32⟩
abbrev TIME_STAT_JUMPS : Fld := ⟨110, 48, 16⟩
abbrev TIME_FREQ_FREQ_PPB : Fld := ⟨111, 0, 32⟩
abbrev HST_PORT_CFG_BIFURCATE : Fld := ⟨112, 0, 1⟩
abbrev HST_PORT_CFG_MAX_RATE : Fld := ⟨112, 1, 3⟩
abbrev HST_PORT_CFG_TOTAL_VFS : Fld := ⟨112, 4, 8⟩
abbrev HST_PORT_STAT_UP : Fld := ⟨113, 0, 2⟩
abbrev HST_PORT_STAT_RATE0 : Fld := ⟨113, 2, 3⟩
abbrev HST_PORT_STAT_WIDTH0 : Fld := ⟨113, 5, 5⟩
abbrev HST_PORT_STAT_FLIT0 : Fld := ⟨113, 10, 1⟩
abbrev HST_PORT_STAT_RATE1 : Fld := ⟨113, 11, 3⟩
abbrev HST_PORT_STAT_WIDTH1 : Fld := ⟨113, 14, 5⟩
abbrev HST_PORT_STAT_FLIT1 : Fld := ⟨113, 19, 1⟩
abbrev HST_PORT_ERR_UR : Fld := ⟨114, 0, 16⟩
abbrev HST_PORT_ERR_CTO : Fld := ⟨114, 16, 16⟩
abbrev HST_PORT_ERR_CUT : Fld := ⟨114, 32, 16⟩
abbrev HST_PORT_ERR_POISON : Fld := ⟨114, 48, 16⟩
abbrev HST_FN_CTL_EN : Fld := ⟨115, 0, 1⟩
abbrev HST_FN_CTL_STATE : Fld := ⟨115, 1, 3⟩
abbrev HST_FN_CTL_ENABLE_LATCHED : Fld := ⟨115, 4, 1⟩
abbrev HST_FN_CTL_CUT : Fld := ⟨115, 5, 1⟩
abbrev HST_FN_CTL_CAUSE : Fld := ⟨115, 6, 3⟩
abbrev INT_TGT_CLAIM_NUMBER : Fld := ⟨116, 0, 12⟩
abbrev INT_TGT_CLAIM_VALID : Fld := ⟨116, 12, 1⟩
abbrev INT_TGT_COMPLETE_NUMBER : Fld := ⟨117, 0, 12⟩
abbrev INT_TGT_SETPEND_NUMBER : Fld := ⟨118, 0, 12⟩
abbrev INT_TGT_CLRPEND_NUMBER : Fld := ⟨119, 0, 12⟩
abbrev INT_TGT_CFG_THRESHOLD : Fld := ⟨120, 0, 12⟩
abbrev INT_TGT_STAT_HIGHEST : Fld := ⟨121, 0, 12⟩
abbrev INT_TGT_STAT_ANY : Fld := ⟨121, 12, 1⟩
abbrev INT_TGT_STAT_ARMED : Fld := ⟨121, 13, 1⟩
abbrev INT_TGT_STAT_ACTIVE_CNT : Fld := ⟨121, 14, 13⟩
abbrev INT_TGT_STAT_BAD_COMPLETE : Fld := ⟨121, 27, 16⟩
abbrev INT_TGT_PSEL_WORD : Fld := ⟨122, 0, 6⟩
abbrev INT_TGT_PSEL_ACTIVE : Fld := ⟨122, 6, 1⟩
abbrev INT_TGT_PWORD_BITS : Fld := ⟨123, 0, 64⟩
abbrev INT_TGT_EN_EN : Fld := ⟨124, 0, 64⟩
abbrev DMA_CH_CFG_FN : Fld := ⟨125, 0, 10⟩
abbrev DMA_CH_CFG_PATTERN : Fld := ⟨125, 10, 2⟩
abbrev DMA_CH_CFG_LIST_IN_DEPOT : Fld := ⟨125, 12, 1⟩
abbrev DMA_CH_CFG_CTR : Fld := ⟨125, 16, 16⟩
abbrev DMA_CH_CFG_CTR_EN : Fld := ⟨125, 32, 1⟩
abbrev DMA_CH_CFG_TRIG_EN : Fld := ⟨125, 33, 1⟩
abbrev DMA_CH_CFG_LOG2_RING : Fld := ⟨125, 34, 6⟩
abbrev DMA_CH_LIST_WIN : Fld := ⟨126, 0, 32⟩
abbrev DMA_CH_LPOS_LPOS : Fld := ⟨127, 0, 48⟩
abbrev DMA_CH_TRIG_THRESH : Fld := ⟨128, 0, 48⟩
abbrev DMA_CH_TRIG_TCTR : Fld := ⟨128, 48, 16⟩
abbrev DMA_CH_CTL_CMD : Fld := ⟨129, 0, 3⟩
abbrev DMA_CH_CTL_TRIG_PEND : Fld := ⟨129, 3, 1⟩
abbrev DMA_CH_CTL_STATE : Fld := ⟨129, 4, 3⟩
abbrev DMA_CH_CTL_CMD_REJ : Fld := ⟨129, 7, 1⟩
abbrev DMA_CH_CTL_STATUS : Fld := ⟨129, 16, 16⟩
abbrev DMA_CH_POS_DONE : Fld := ⟨130, 0, 32⟩
abbrev DMA_CH_RPOS_RPOS : Fld := ⟨131, 0, 64⟩
abbrev DMA_CH_RLIM_RLIM : Fld := ⟨132, 0, 64⟩
abbrev DMA_CL_CTL_CLEAR : Fld := ⟨133, 0, 1⟩
abbrev DMA_CL_STAT_STOPPED : Fld := ⟨134, 0, 1⟩
abbrev DMA_CL_STAT_STOPS : Fld := ⟨134, 16, 16⟩
abbrev DMA_CL_ERR_ADDR : Fld := ⟨135, 0, 64⟩
abbrev DMA_CTR_OWNER_FN : Fld := ⟨136, 0, 10⟩
abbrev DMA_CTR_OWNER_EN : Fld := ⟨136, 10, 1⟩
abbrev DMA_CTR_SEL_CTR : Fld := ⟨137, 0, 16⟩
abbrev DMA_CTR_VAL_VALUE : Fld := ⟨138, 0, 48⟩
abbrev DMA_CTR_ADD_INC : Fld := ⟨139, 0, 48⟩
abbrev DMA_CTR_ARM0_CTR : Fld := ⟨140, 0, 16⟩
abbrev DMA_CTR_ARM0_SLOT : Fld := ⟨140, 16, 10⟩
abbrev DMA_CTR_ARM0_ENTRY : Fld := ⟨140, 26, 4⟩
abbrev DMA_CTR_ARM1_THRESH : Fld := ⟨141, 0, 48⟩
abbrev DMA_CTR_STAT_DEFERRED : Fld := ⟨142, 0, 15⟩
abbrev DMA_CTR_STAT_ARM_FULL : Fld := ⟨142, 15, 1⟩
abbrev DMA_CTR_STAT_FOREIGN : Fld := ⟨142, 16, 16⟩
abbrev DMA_CTR_STAT_DISCARDED : Fld := ⟨142, 32, 16⟩
abbrev PIT_LOCK_STATUS : Fld := ⟨143, 0, 16⟩
abbrev PIT_LOCK_RELEASE : Fld := ⟨143, 16, 1⟩
abbrev PIT_FN_ACQ_GROUPS : Fld := ⟨144, 0, 64⟩
abbrev PIT_FN_REL_GROUPS : Fld := ⟨145, 0, 64⟩
abbrev PIT_GRP_CFG_HOST_PRIO : Fld := ⟨146, 0, 3⟩
abbrev PIT_GRP_CFG_INHERIT_EN : Fld := ⟨146, 3, 1⟩
abbrev PIT_CFG_HOST_WAIT_NS : Fld := ⟨147, 0, 11⟩
abbrev PIT_CFG_ENG_WAIT_US : Fld := ⟨147, 11, 21⟩
abbrev PIT_SEL_PITON : Fld := ⟨148, 0, 12⟩
abbrev PIT_INFO_HELD : Fld := ⟨149, 0, 1⟩
abbrev PIT_INFO_KIND : Fld := ⟨149, 1, 2⟩
abbrev PIT_INFO_FN : Fld := ⟨149, 3, 10⟩
abbrev PIT_INFO_THREAD : Fld := ⟨149, 13, 10⟩
abbrev PIT_INFO_BASE_PRIO : Fld := ⟨149, 23, 3⟩
abbrev PIT_INFO_EFF_PRIO : Fld := ⟨149, 26, 3⟩
abbrev PIT_INFO_WAITERS : Fld := ⟨149, 29, 11⟩
abbrev PIT_STAT_BAD_REL : Fld := ⟨150, 0, 16⟩
abbrev PIT_STAT_FORCED : Fld := ⟨150, 16, 16⟩
abbrev PIT_STAT_HOST_BUSY : Fld := ⟨150, 32, 16⟩
abbrev DEP_STAT_SIZE_GIB : Fld := ⟨151, 0, 7⟩
abbrev DEP_STAT_POOL_BUFS : Fld := ⟨151, 7, 25⟩
abbrev DEP_STAT_FREE : Fld := ⟨151, 32, 25⟩
abbrev DEP_POOL_CFG_SW_GIB : Fld := ⟨152, 0, 6⟩
abbrev DEP_POOL_CLASS_MAX : Fld := ⟨153, 0, 25⟩
abbrev DEP_POOL_CLASS_INUSE : Fld := ⟨153, 25, 25⟩
abbrev DEP_BUF_ALLOC_ADDR : Fld := ⟨154, 0, 36⟩
abbrev DEP_BUF_ALLOC_VALID : Fld := ⟨154, 63, 1⟩
abbrev DEP_BUF_FREE_ADDR : Fld := ⟨155, 0, 36⟩
abbrev DEP_ACC_ADDR_ADDR : Fld := ⟨156, 3, 33⟩
abbrev DEP_ACC_ADDR_POISON : Fld := ⟨156, 62, 1⟩
abbrev DEP_ACC_ADDR_DENIED : Fld := ⟨156, 63, 1⟩
abbrev DEP_ACC_DATA_VALUE : Fld := ⟨157, 0, 64⟩
abbrev DEP_MISUSE_COUNT : Fld := ⟨158, 0, 16⟩
abbrev DEP_MISUSE_FORCED : Fld := ⟨158, 16, 16⟩
abbrev DEP_MISUSE_LAST_BUF : Fld := ⟨158, 32, 25⟩
abbrev DEP_MISUSE_LAST_CLASS : Fld := ⟨158, 57, 4⟩
abbrev DEP_ECC_STAT_DEPOT_CE : Fld := ⟨159, 0, 16⟩
abbrev DEP_ECC_STAT_DEPOT_UE : Fld := ⟨159, 16, 16⟩
abbrev DEP_ECC_STAT_SRAM_CE : Fld := ⟨159, 32, 16⟩
abbrev DEP_ECC_STAT_SRAM_UE : Fld := ⟨159, 48, 16⟩
abbrev DEP_ECC_ADDR_ADDR : Fld := ⟨160, 0, 36⟩
abbrev DEP_ECC_ADDR_SCRUB : Fld := ⟨160, 36, 1⟩
abbrev DEP_SCRUB_CFG_EN : Fld := ⟨161, 0, 1⟩
abbrev DEP_SCRUB_CFG_DEPOT_H : Fld := ⟨161, 1, 8⟩
abbrev DEP_SCRUB_CFG_SRAM_MIN : Fld := ⟨161, 9, 11⟩
abbrev DEP_SCRUB_CFG_PASSES : Fld := ⟨161, 20, 16⟩
abbrev TGT_DEFAULT_RIGHTS : Fld := ⟨162, 0, 12⟩
abbrev TGT_CFG_DBG_LOCK : Fld := ⟨163, 0, 1⟩
abbrev TGT_DENY_COUNT : Fld := ⟨164, 0, 16⟩
abbrev TGT_DENY_TARGET : Fld := ⟨164, 16, 5⟩
abbrev TGT_DENY_CLASS : Fld := ⟨164, 21, 3⟩
abbrev TGT_DENY_FN : Fld := ⟨164, 24, 10⟩
abbrev TGT_DENY_ADDR_ADDR : Fld := ⟨165, 0, 64⟩
abbrev TGT_RGN_BASE_BASE : Fld := ⟨166, 6, 58⟩
abbrev TGT_RGN_LIMIT_LIMIT : Fld := ⟨167, 6, 58⟩
abbrev TGT_RGN_RIGHTS_RIGHTS : Fld := ⟨168, 0, 12⟩
abbrev TGT_RGN_RIGHTS_FN_MATCH : Fld := ⟨168, 12, 1⟩
abbrev TGT_RGN_RIGHTS_FN : Fld := ⟨168, 13, 10⟩
abbrev TGT_RGN_RIGHTS_EN : Fld := ⟨168, 23, 1⟩
abbrev ARB_CFG_AGE_N : Fld := ⟨169, 0, 9⟩
abbrev ARB_CFG_HOLD_LIMIT : Fld := ⟨169, 9, 10⟩
abbrev ARB_FLAGS_FLAGS : Fld := ⟨170, 0, 64⟩
abbrev ARB_CNT_CUTS : Fld := ⟨171, 0, 32⟩
abbrev ARB_CNT_PREEMPT : Fld := ⟨171, 32, 32⟩
abbrev GLB_ID_DEVICE : Fld := ⟨172, 0, 16⟩
abbrev GLB_ID_REV_LETTER : Fld := ⟨172, 16, 4⟩
abbrev GLB_ID_REV_DIGIT : Fld := ⟨172, 20, 4⟩
abbrev GLB_ID_LANE_425 : Fld := ⟨172, 24, 1⟩
abbrev GLB_ID_DEPOT_64 : Fld := ⟨172, 25, 1⟩
abbrev GLB_ID_TEMP_E : Fld := ⟨172, 26, 1⟩
abbrev GLB_TXN_CTL_CMD : Fld := ⟨173, 0, 2⟩
abbrev GLB_TXN_STAT_STATE : Fld := ⟨174, 0, 2⟩
abbrev GLB_TXN_STAT_CONFLICT : Fld := ⟨174, 2, 1⟩
abbrev GLB_TXN_STAT_FULL : Fld := ⟨174, 3, 1⟩
abbrev GLB_TXN_STAT_STATUS : Fld := ⟨174, 16, 16⟩
abbrev GLB_TXN_STAT_STAGED : Fld := ⟨174, 32, 13⟩
abbrev GLB_TXN_CONF_OFFSET : Fld := ⟨175, 0, 28⟩
abbrev GLB_TXN_CFG_TIMEOUT_MS : Fld := ⟨176, 0, 16⟩
abbrev PWR_STATE_STATE : Fld := ⟨177, 0, 3⟩
abbrev PWR_STATE_ENTER_BIVOUAC : Fld := ⟨177, 3, 1⟩
abbrev PWR_STATE_EXIT_CAUSE : Fld := ⟨177, 4, 2⟩
abbrev PWR_POLICY_ENG_WARM : Fld := ⟨178, 0, 16⟩
abbrev PWR_POLICY_DMA_WARM : Fld := ⟨178, 16, 16⟩
abbrev PWR_POLICY_MIN_PORTS : Fld := ⟨178, 32, 7⟩
abbrev PWR_POLICY_DEPOT_SR_EN : Fld := ⟨178, 39, 1⟩
abbrev PWR_GATE_CFG_CLK_IDLE_NS : Fld := ⟨179, 0, 10⟩
abbrev PWR_GATE_CFG_PWR_IDLE_US : Fld := ⟨179, 10, 16⟩
abbrev PWR_GATE_CFG_SR_IDLE_US : Fld := ⟨179, 26, 16⟩
abbrev PWR_DOM_STAT_ENG_CLK : Fld := ⟨180, 0, 16⟩
abbrev PWR_DOM_STAT_ENG_PWR : Fld := ⟨180, 16, 16⟩
abbrev PWR_DOM_STAT_DMA_CLK : Fld := ⟨180, 32, 16⟩
abbrev PWR_DOM_STAT_DMA_PWR : Fld := ⟨180, 48, 16⟩
abbrev PWR_RAIL_FAULT_RAIL : Fld := ⟨181, 0, 5⟩
abbrev PWR_RAIL_FAULT_KIND : Fld := ⟨181, 5, 2⟩
abbrev BCP_FW_STAT_STATE : Fld := ⟨182, 0, 3⟩
abbrev BCP_FW_STAT_READY : Fld := ⟨182, 3, 1⟩
abbrev BCP_FW_STAT_SLOT : Fld := ⟨182, 4, 1⟩
abbrev BCP_FW_STAT_REVERTED : Fld := ⟨182, 5, 1⟩
abbrev BCP_FW_STAT_FALLBACK : Fld := ⟨182, 6, 1⟩
abbrev BCP_FW_STAT_VERSION : Fld := ⟨182, 8, 32⟩
abbrev BCP_FW_STAT_ROLLBACK_FUSED : Fld := ⟨182, 40, 6⟩
abbrev BCP_EXC_CFG_DEPTH : Fld := ⟨183, 0, 6⟩
abbrev BCP_EXC_STAT_QUEUED : Fld := ⟨184, 0, 14⟩
abbrev BCP_EXC_STAT_REFUSED : Fld := ⟨184, 14, 16⟩
abbrev BCP_CTL_STAT_USED : Fld := ⟨185, 0, 14⟩
abbrev BCP_CTL_STAT_DROP : Fld := ⟨185, 14, 16⟩
abbrev BCP_CTL_STAT_FN_DROP : Fld := ⟨185, 30, 16⟩
abbrev BCP_FN_CTLEV_SLOT : Fld := ⟨186, 0, 10⟩
abbrev BCP_FN_CTLEV_ENTRY : Fld := ⟨186, 10, 4⟩
abbrev BCP_FN_CTLEV_EN : Fld := ⟨186, 14, 1⟩
abbrev BCP_MBX_REQ_DATA : Fld := ⟨187, 0, 64⟩
abbrev BCP_MBX_RSP_DATA : Fld := ⟨188, 0, 64⟩
abbrev BCP_MBX_CTL_SEQ : Fld := ⟨189, 0, 16⟩
abbrev BCP_MBX_CTL_OPCODE : Fld := ⟨189, 16, 16⟩
abbrev BCP_MBX_CTL_INT_NUM : Fld := ⟨189, 32, 12⟩
abbrev BCP_MBX_CTL_INT_EN : Fld := ⟨189, 44, 1⟩
abbrev BCP_MBX_CTL_GO : Fld := ⟨189, 45, 1⟩
abbrev BCP_MBX_STAT_DONE_SEQ : Fld := ⟨190, 0, 16⟩
abbrev BCP_MBX_STAT_STATUS : Fld := ⟨190, 16, 16⟩
abbrev BCP_MBX_STAT_BUSY : Fld := ⟨190, 32, 1⟩
abbrev BCP_MBX_STAT_RSP_WORDS : Fld := ⟨190, 33, 5⟩
abbrev BCP_MBX_STAT_OVERRUN : Fld := ⟨190, 38, 1⟩
abbrev FLT_CFG_LOCK : Fld := ⟨191, 0, 1⟩
abbrev FLT_CFG_BCP_INT : Fld := ⟨191, 1, 12⟩
abbrev FLT_CFG_FN : Fld := ⟨191, 13, 10⟩
abbrev FLT_CFG_FN_EN : Fld := ⟨191, 23, 1⟩
abbrev FLT_CFG_FN_INT : Fld := ⟨191, 24, 12⟩
abbrev FLT_STAT_LAST_SRC : Fld := ⟨192, 0, 6⟩
abbrev FLT_STAT_REPORTS : Fld := ⟨192, 6, 16⟩
abbrev FLT_STAT_PAIR_ERRS : Fld := ⟨192, 22, 16⟩
abbrev FLT_STAT_FAULT_OUT : Fld := ⟨192, 38, 1⟩
abbrev FLT_CAUSE_SRC : Fld := ⟨193, 0, 6⟩
abbrev FLT_CAUSE_KIND : Fld := ⟨193, 6, 2⟩
abbrev FLT_CAUSE_TIME_NS : Fld := ⟨194, 0, 64⟩
abbrev FLT_SEV_SEV : Fld := ⟨195, 0, 64⟩
abbrev FLT_STICKY_BITS : Fld := ⟨196, 0, 64⟩
abbrev FLT_SNAP_BITS : Fld := ⟨197, 0, 64⟩
abbrev FLT_TEST_SRC : Fld := ⟨198, 0, 6⟩
abbrev FLT_THERM_TJ_MAX : Fld := ⟨199, 0, 11⟩
abbrev FLT_THERM_SENSOR : Fld := ⟨199, 11, 5⟩
abbrev FLT_THERM_LEVEL : Fld := ⟨199, 16, 3⟩
abbrev FLT_THERM_THERM_LEVEL : Fld := ⟨199, 19, 3⟩
abbrev FLT_CUR_CFG_LIMIT_A : Fld := ⟨200, 0, 11⟩
abbrev FLT_CUR_STAT_CORE_A : Fld := ⟨201, 0, 11⟩
abbrev FLT_CUR_STAT_LEVEL : Fld := ⟨201, 11, 3⟩
abbrev FLT_CUR_STAT_RISES : Fld := ⟨201, 14, 16⟩
abbrev FLT_WO_LOG_SRC : Fld := ⟨202, 0, 6⟩
abbrev FLT_WO_LOG_VALID : Fld := ⟨202, 6, 1⟩
abbrev FLT_WO_TIME_NS : Fld := ⟨203, 0, 64⟩
abbrev PMC_CTR_CFG_EVENT : Fld := ⟨204, 0, 16⟩
abbrev PMC_CTR_CFG_INST : Fld := ⟨204, 16, 6⟩
abbrev PMC_CTR_CFG_INST_EN : Fld := ⟨204, 22, 1⟩
abbrev PMC_CTR_CFG_FN : Fld := ⟨204, 23, 10⟩
abbrev PMC_CTR_CFG_FN_EN : Fld := ⟨204, 33, 1⟩
abbrev PMC_CTR_CFG_EN : Fld := ⟨204, 34, 1⟩
abbrev PMC_CTR_CFG_OVF : Fld := ⟨204, 35, 1⟩
abbrev PMC_CTR_VAL_VALUE : Fld := ⟨205, 0, 48⟩
abbrev PMC_RDR_CFG_WIN : Fld := ⟨206, 0, 32⟩
abbrev PMC_RDR_CFG_LOG2_SIZE : Fld := ⟨206, 32, 4⟩
abbrev PMC_RDR_CFG_LOG2_ENTRIES : Fld := ⟨206, 36, 5⟩
abbrev PMC_RDR_CFG_EN : Fld := ⟨206, 41, 1⟩
abbrev PMC_RDR_CFG_PERIOD_US : Fld := ⟨206, 42, 16⟩
abbrev PMC_RDR_FN_FN : Fld := ⟨207, 0, 10⟩
abbrev PMC_RDR_IDX_PROD : Fld := ⟨208, 0, 32⟩
abbrev PMC_RDR_IDX_CONS : Fld := ⟨208, 32, 32⟩
abbrev PMC_RDR_STAT_STATE : Fld := ⟨209, 0, 2⟩
abbrev PMC_RDR_STAT_STATUS : Fld := ⟨209, 2, 16⟩
abbrev PMC_RDR_STAT_SKIPPED : Fld := ⟨209, 18, 16⟩
abbrev PMC_RDR_TRIG_SNAP : Fld := ⟨210, 0, 1⟩
abbrev PMC_RDR_MASK_SEL : Fld := ⟨211, 0, 64⟩
abbrev PMC_FN_VAL_VALUE : Fld := ⟨212, 0, 48⟩
abbrev PMC_FN_VAL_WRAP : Fld := ⟨212, 63, 1⟩
abbrev PWR_MARGIN_SEL : Fld := ⟨213, 0, 10⟩
abbrev PWR_MARGIN_ACTIVE : Fld := ⟨213, 10, 10⟩
abbrev PWR_RAIL_MON_VOUT_MV : Fld := ⟨214, 0, 16⟩
abbrev PWR_RAIL_MON_IOUT_DA : Fld := ⟨214, 16, 16⟩
abbrev PWR_RAIL_MON_TEMP_C : Fld := ⟨214, 32, 8⟩
abbrev PWR_RAIL_MON_VALID : Fld := ⟨214, 40, 1⟩
abbrev PWR_RAIL_MON_FAULT : Fld := ⟨214, 41, 1⟩
abbrev PWR_PMB_ADDR_ADDR : Fld := ⟨215, 0, 7⟩
abbrev PWR_PMB_ADDR_PAGE : Fld := ⟨215, 7, 8⟩
abbrev PWR_PMB_ADDR_EN : Fld := ⟨215, 15, 1⟩
end F

/-- Reset value of instance `i` of register `r`: the field tables, and the values by instance of R488 (TGT_DEFAULT),
R533 (FLT_SEV), R476 (DEP_POOL_CLASS) and RTE_PORT_CFG. The fused fields of GLB_ID are those of the part LU4-4-64-C-A1
(DESIGN CHOICE, log entry 7). -/
def regReset (r i : Nat) : Word :=
  if r = R.TGT_DEFAULT then (if i = 0 then 0xFFC#64 else if i = 1 then 0xF30#64 else if i < 18 then 0xC0C#64 else 0x30C#64)
  else if r = R.FLT_SEV then (if i = 0 then 0x6385551550454510#64 else 0#64)
  else if r = R.DEP_POOL_CLASS then (if i = 0 then 1048576#64 else if i = 1 then 2097152#64 else if i = 4 then 524288#64 else 0#64)
  else if r = R.RTE_PORT_CFG then BitVec.ofNat 64 (i * 4)
  else match regTable[r]? with
    | some x => BitVec.ofNat 64 x.reset
    | none => 0#64

end Sys2Proof.Machine
end

