-- ==== Sys2Proof/Machine/Tbl.lean ====
section
/-! DEFINITION. Sparse tables: lists of (key, value) pairs with strictly rising keys, in which no entry equals the
value an unlisted key reads as. Registers, scratch, the Depot and every indexed set of the device are held so, and equal
contents are equal lists. -/

namespace Sys2Proof.Machine

/-- A sparse table. -/
abbrev Tbl (α : Type) := List (Nat × α)

variable {α : Type}

/-- The entry of key `k`, if it is listed. -/
def Tbl.find : Tbl α → Nat → Option α
  | [], _ => none
  | (j, v) :: t, k => if j = k then some v else Tbl.find t k

/-- The value of key `k`; `d` where it is not listed. -/
def Tbl.get (t : Tbl α) (d : α) (k : Nat) : α := (Tbl.find t k).getD d

/-- The table with `k` listed as `v`. -/
def Tbl.put (k : Nat) (v : α) : Tbl α → Tbl α
  | [] => [(k, v)]
  | (j, u) :: t => if k < j then (k, v) :: (j, u) :: t else if j = k then (k, v) :: t else (j, u) :: Tbl.put k v t

/-- The table with `k` not listed. -/
def Tbl.del (k : Nat) (t : Tbl α) : Tbl α := t.filter (fun e => e.1 != k)

/-- The table in which `k` has value `v`, where an unlisted key reads as `d`. -/
def Tbl.set [DecidableEq α] (d : α) (k : Nat) (v : α) (t : Tbl α) : Tbl α :=
  if v = d then Tbl.del k t else Tbl.put k v t

/-- Whether key `k` is listed. -/
def Tbl.has (t : Tbl α) (k : Nat) : Bool := (Tbl.find t k).isSome

/-- The table with the entry of `k`, if it is listed, changed by `g`. -/
def Tbl.upd (k : Nat) (g : α → α) : Tbl α → Tbl α
  | [] => []
  | (j, u) :: t => if j = k then (j, g u) :: t else (j, u) :: Tbl.upd k g t

/-- The canonical form: keys strictly rising, no entry equal to the default. -/
abbrev Tbl.wf (d : α) (t : Tbl α) : Prop := t.Pairwise (fun a b => a.1 < b.1) ∧ ∀ e ∈ t, e.2 ≠ d

/-- Sum of `g` over a table. -/
def tblSum (t : Tbl α) (g : α → Nat) : Nat := t.foldl (fun (n : Nat) (e : Nat × α) => n + g e.2) 0

/-- The first of `start, start + 1, …, start + n - 1`, taken modulo `n`, that `used` does not hold. -/
def firstFreeFrom (used : Nat → Bool) (n start : Nat) : Nat → Option Nat
  | 0 => none
  | fuel + 1 => if used (start % n) then firstFreeFrom used n (start + 1) fuel else some (start % n)

end Sys2Proof.Machine
end

