-- ==== Sys2Proof/Machine/State.lean ====
section
/-! DEFINITION. The state of the device as plain data: registers in one sparse table, and every other piece of state the
chapters give, one structure per block. Reset values that the spec does not give are named in the assumption log. -/

namespace Sys2Proof.Machine

/-! ### What leaves the device -/

/-- A frame of Belay (R357 to R359): its header, its body in serial order, most significant byte first, with its length in
bytes, the HOLD words after it, and its CRC-64. -/
structure Frame where
  hdr : BitVec 128
  body : Nat
  len : Nat
  holds : Nat
  crc : BitVec 64
deriving DecidableEq, Repr

/-- The PMBus commands that firmware uses (R587); when it uses CLEAR_FAULTS is not stated. -/
inductive PmbCmd where | page | operation | readVout | readIout | readTemperature | statusWord
deriving DecidableEq, Repr

/-- What the device does at its interfaces, newest first in `Dev.log`. -/
inductive Out where
  /-- A posted memory write of function `fn` (R430, R482). -/
  | hostWrite (fn addr len data : Nat) (ro ep : Bool)
  /-- A memory read request of function `fn` (R429); `len` 0 is a flush read (R599). -/
  | hostRead (tag fn addr len : Nat) (ido : Bool := false)
  /-- The MSI-X message of function `fn`: a write of its table entry's data to its address (R441). -/
  | msix (fn addr data : Nat)
  /-- Target 1,024 signals the Basecamp cores (R441). -/
  | coreSignal
  /-- A configuration request of function `fn` answered with Configuration Request Retry Status (R501). -/
  | configRetry (fn : Nat)
  /-- A frame that Belay hands the lane layer of `port` (R356). -/
  | frame (port : Nat) (f : Frame)
  /-- A codeword on logical lane `lane` of `port`: its message of 5,140 bits and its parity (R392). -/
  | codeword (port lane msg parity : Nat)
  /-- A training frame on one lane of `port`: its control field, and its 4,256 symbols (R397). -/
  | train (port lane ctl : Nat) (symbols : List Nat)
  /-- The transmitters of `port` enter or leave electrical idle (R406, R408). -/
  | txIdle (port : Nat) (idle : Bool)
  /-- A transaction on MOD_SCL and MOD_SDA of `bus` with MOD_SEL_N[port] low, at address 0x50: a write or a read of `len` bytes
  of a page of a bank from offset `off` (R409). -/
  | modBus (bus port : Nat) (write : Bool) (bank page off len data : Nat)
  /-- Columns of Rope port `r` (R413): IDLE columns with so many ALIGN sets among them, then a packet's bytes, and the code of
  its columns on the two lanes (R412). -/
  | rope (r fill aligns : Nat) (bytes : List Nat) (code : List (BitVec 10 × BitVec 10))
  /-- A register read's value returned to its requester (R596). -/
  | readValue (value : Nat)
  /-- A read or write answered with Unsupported Request (R438). -/
  | unsupported
  /-- A pin driven: its name in the spec and its level. -/
  | pin (name : String) (level : Nat)
  /-- What the sideband answers the board management controller (R510). -/
  | board (kind value : Nat)
  /-- A PMBus command to the regulator at `addr` of rail `rail`, with what it writes or reads (R587). -/
  | pmbus (rail addr : Nat) (cmd : PmbCmd) (data : Nat)
  /-- An answer to the board management controller, over MCTP on PCIe or on I3C (R510). -/
  | mctp (pcie : Bool) (value : Nat)
deriving DecidableEq, Repr

/-! ### Power (chapter 15) -/

/-- Device states of R523. -/
inductive Power where | off | bivouac | start | run | safe | whiteout
deriving DecidableEq, Repr

/-- Rails, resets, firmware and straps outside the register space (R498 to R506, R520 to R522). -/
structure PwrSt where
  state : Power := .start
  /-- RAIL_EN[4:0]. -/
  en : BitVec 5 := 0x1F
  /-- RAIL_PG[4:0] as last seen. -/
  pg : BitVec 5 := 0x1F
  /-- Whether the rails are going down. -/
  down : Bool := false
  /-- SYS_RESET_N is held low. -/
  inReset : Bool := false
  /-- VAON left OFF and SYS_RESET_N has not risen since (R523). -/
  fromOff : Bool := false
  /-- FAB_REFCLK[0] is out of range at step 3 of the start-up (R582). -/
  refBad : Bool := false
  /-- Whiteout record of R541: source and time. -/
  woLog : Option (Nat × Nat) := none
deriving DecidableEq, Repr

/-! ### Host ports and interrupts (chapter 12) -/

/-- A function's MSI-X table entry: address, data, and the mask bit of Vector Control, which PCIe resets to 1 (R436, R441). -/
structure MsixEnt where
  addr : BitVec 64 := 0
  data : BitVec 32 := 0
  masked : Bool := true
deriving DecidableEq, Repr

/-- Function, link and configuration state that PCIe gives the host ports (R432 to R435, R441, R599). -/
structure HostSt where
  /-- Bus Master Enable of each physical function (PCIe reset value 0). -/
  bme : Tbl Bool := []
  /-- VF Enable of each physical function. -/
  vfe : Tbl Bool := []
  /-- NumVFs of each physical function. -/
  numVfs : Tbl Nat := []
  /-- Enable Relaxed Ordering is 0 (PCIe reset value 1), and IDO Request Enable is 1 (PCIe reset value 0), in each function's
  Device Control (R430). -/
  roOff : Tbl Bool := []
  ido : Tbl Bool := []
  /-- Completion Timeout Value of each function's Device Control 2, and whether Completion Timeout Disable is 1 (R429; PCIe
  reset value 0 of both). -/
  cto : Tbl Nat := []
  ctoOff : Tbl Bool := []
  /-- Max_Payload_Size and Max_Read_Request_Size of each function's Device Control as PCIe codes them (PCIe reset values 0 and
  2), and whether the function is in D3hot (R426). -/
  mps : Tbl Nat := []
  mrrs : Tbl Nat := []
  d3 : Tbl Bool := []
  /-- The MSI-X table entry of each function, and its Function Mask (R441). -/
  msix : Tbl MsixEnt := []
  fnMask : Tbl Bool := []
  /-- Pending Bit of each function (R441). -/
  msixPend : Tbl Bool := []
  /-- HOST_PERST_N of each port is deasserted (R501). -/
  perstHigh : Tbl Bool := []
  /-- Functions, as link * 1,024 + function, with a posted write since the link came up or the function entered ENABLING,
  with the address of the most recent one (R599). -/
  posted : Tbl Nat := []
  /-- The time of the cut event of each function that is being cut (R435). -/
  cutAt : Tbl Nat := []
  /-- Functions whose drain began in ENABLING, before host access was opened (R433). -/
  shut : Tbl Bool := []
deriving DecidableEq, Repr

/-- Interrupt targets: numbers PENDING and ACTIVE (R440); ENABLE, THRESHOLD and ARMED are register fields. -/
structure IntSt where
  pend : Tbl (List Nat) := []
  act : Tbl (List Nat) := []
deriving DecidableEq, Repr

/-! ### Depot, pool, arbiters (chapter 14) -/

/-- One arbiter instance (R493 to R496): its waiting requesters with the time each wait began, the requester that holds
the grant with the time it began, a preempted requester, and the grants since the last age grant. -/
structure Arb where
  waiting : List (Nat × Nat) := []
  grant : Option (Nat × Nat) := none
  preempted : Option (Nat × Nat) := none
  last : Nat := 0
  count : Nat := 0
deriving DecidableEq, Repr

structure DepSt where
  /-- Depot words (R471), by word index. -/
  mem : Tbl TWord := []
  /-- Owner tag plus 1 of every buffer that is ALLOC (R474). -/
  bufs : Tbl Nat := []
  arbs : Tbl Arb := []
  /-- The Depot is in self-refresh (R527). -/
  selfRefresh : Bool := false
  /-- Scrub position: next Depot word, next pass (R484). -/
  scrubAt : Nat := 0
deriving DecidableEq, Repr

/-! ### Engines (chapter 02) -/

/-- Thread states of ENG_THR_CTL.STATE; TRAP is READY in a trap activation. -/
inductive ThSt where | wait | ready | stall | stopped
deriving DecidableEq, Repr

/-- A message, match or collective operation's place in its queue entry: queue, sequence number, issue order (R112). -/
structure OpRef where
  q : Nat
  seq : Nat
  idx : Nat
deriving DecidableEq, Repr

/-- The scope of a fence (R66): a queue or a thread. -/
inductive Scope where
  | queue (q : Nat)
  | thread (th : Nat)
  | none
deriving DecidableEq, Repr

/-- A message operation as RMA takes it from an engine thread or from the deferred list (R57, R164). -/
structure MsgOp where
  /-- Major opcode of R41: 0x40 put, 0x41 get, 0x42 send, 0x43 ud.send, 0x44 amo, 0x45 amo.f. -/
  op : Nat
  fn : Nat
  priv : Bool
  /-- Minor function (amo operation and datatype). -/
  minor : Nat
  g0 : Word
  g1 : Word
  g2 : Word
  g3 : Word
  size : Word
  scope : Scope
  /-- The queue of the command that issued or deferred it. -/
  queue : Option Nat
  /-- The thread and result register that take the status or, for amo.f, the reply. -/
  ret : Option (Nat × Nat)
  entry : Option OpRef
deriving DecidableEq, Repr

/-- What a stalled thread waits for (R29). -/
inductive Stall where
  | none
  /-- The ring read of the entry that the thread is to run (R105). -/
  | wqFetch (q : Nat)
  /-- A host load: the read's tag, result register, address, size, window (0 for none), bytes read so far and their value. -/
  | load (tag wd va size win got data : Nat)
  /-- A translation walk for a load, as above, and for a store. -/
  | walk (wd va size win got data : Nat)
  | store
  /-- A line of instruction memory (R84): slot, version, line, and the bytes before its page boundary once they are in. -/
  | imem (slot ver line : Nat) (got : Option Nat)
  /-- A message slot (R59). -/
  | msgSlot (m : MsgOp)
  /-- The reply of amo.f (R60). -/
  | amoReply (wd : Nat)
  /-- ctr.wait (R63). -/
  | ctr (n thresh : Nat)
  /-- col.wait (R268): context, epoch, result register. -/
  | col (n epoch wd : Nat)
  /-- A fence: 0 local, 1 remote, 2 durable. -/
  | fence (kind : Nat)
  /-- mt.post, mt.probe or mt.cancel that waits for the completion ring (R246): 0, 1, 2, its result register, its operands. -/
  | mtc (kind wd : Nat) (g0 g1 g2 g3 size : Word)
  /-- pit.acq (R465): Piton, result register, time the wait began. -/
  | piton (n wd since : Nat)
deriving DecidableEq, Repr

/-- A thread of an engine cluster or a Basecamp core (R25 to R31, R76). -/
structure Thread where
  st : ThSt := .wait
  stall : Stall := .none
  w : Tbl TWord := []
  p : BitVec 8 := 0
  fn : Nat := 0
  asid : Nat := 0
  priv : Bool := false
  /-- Code address (R68). `past`: it lies one past the last index of a full image, and its index reads 0 (R69). -/
  pc : Word := 0
  past : Bool := false
  cause : Word := 0
  tval : Word := 0
  tpc : Word := 0
  /-- c10: QUEUE and CMD. -/
  queue : Nat := 0
  cmd : Bool := false
  seq : Nat := 0
  event : Nat := 0
  timer : Nat := 0
  /-- Slot that was running when c20 was written (none: a command entry), and its function (R31). -/
  timerSlot : Option Nat := none
  timerFn : Nat := 0
  ftfrac : Nat := 0
  lastFn : Option Nat := none
  /-- The instruction slots of the command entry (R82). -/
  slots : List Word := []
  /-- An activation is running. -/
  active : Bool := false
  /-- The time of the cut event of its function that the activation still runs after, once the function has left that drain
  (R435). -/
  cutAt : Option Nat := none
  /-- The program slot and version that the activation is counted in (R86). -/
  inSlot : Option (Nat × Nat) := none
  /-- In a trap activation: what the trapped activation was counted in, and its c12. -/
  trapped : Option (Option (Nat × Nat) × Nat) := none
  /-- A trap event that no instruction caused: the number of the waiting access (R77). -/
  trapEv : Option Nat := none
  /-- The trap activation follows a dispatch failure of R118: neither halt nor eret completes the entry. -/
  noEntry : Bool := false
  /-- Context and epoch of the activation's last accepted col.step (R268), and the epoch's status once it has closed. -/
  lastCol : Option (Nat × Nat × Option Nat) := none
  /-- The same of the activation that a trap activation has interrupted. -/
  trapCol : Option (Nat × Nat × Option Nat) := none
deriving DecidableEq, Repr

/-- An event that waits for a thread (R79, R80). -/
structure Event where
  slot : Nat
  entry : Nat
  fn : Nat
  kind : Nat
  w1 : Word
  w2 : Word
  w3 : Word
  w4 : Word
  /-- The waiting access of a trap event. -/
  acc : Option Nat := none
deriving DecidableEq, Repr

/-- A line of instruction memory: slot, version, line number, its 72 bytes (R84). -/
structure ILine where
  slot : Nat
  ver : Nat
  line : Nat
  data : Nat
deriving DecidableEq, Repr

/-- A line that has been filled ahead, and the address that it was read from (R144). -/
structure AheadLine where
  line : ILine
  addr : Nat
deriving DecidableEq, Repr

structure EngSt where
  th : Tbl Thread := []
  /-- Scratch words, cluster * 131,072 + word; Basecamp SRAM from 16 * 131,072 on. -/
  scratch : Tbl TWord := []
  /-- Pending events of each cluster, oldest first, at most 256 (R80). -/
  pend : Tbl (List Event) := []
  /-- Events that wait in the unit that raised them. -/
  late : List Event := []
  imem : Tbl (List ILine) := []
  /-- The line that each cluster has filled ahead and no thread has needed yet (R144). -/
  ahead : Tbl AheadLine := []
  /-- ENG_SLOT_IMG and LEN_M1 of the old version of a slot that drains (R87). -/
  oldImg : Tbl (Nat × Nat) := []
  /-- Current ASID of each cluster in U3-compatible mode (R137). -/
  u3asid : Tbl Nat := []
  /-- Units that are waking (R19): 0 to 15 engine clusters, 16 to 31 DMA clusters, 32 and up fixed-function units. -/
  waking : List Nat := []
  /-- The time since which each cluster has been idle (R524). -/
  idleSince : Tbl Nat := []
deriving DecidableEq, Repr

/-! ### Work queues (chapter 03) -/

/-- An entry between COMP and DISP (R111, R112). -/
structure Entry where
  notify : Bool := false
  /-- The command activation has ended. -/
  ended : Bool := false
  /-- Completed by SKIP, or stopped by DOUBLE_TRAP or HANDLER_STOP. -/
  skipped : Bool := false
  stopped : Bool := false
  trapStatus : Nat := 0
  nextOp : Nat := 0
  outst : Nat := 0
  fail : Option (Nat × Nat) := none
deriving DecidableEq, Repr

/-- A queue that is not OFF, or a queue in OFF whose registers alone hold it (default). -/
structure Queue where
  ents : Tbl Entry := []
  /-- Activations of the queue that are running (threads in STOPPED excepted). -/
  running : Nat := 0
  /-- Operations issued and not completed. -/
  ops : Nat := 0
  /-- The unused push, and the push being assembled: byte mask, data, time of the first byte (R97). -/
  push : Option (Nat × Nat) := none
  asm : Option (Nat × Nat × Nat) := none
  /-- STATUS write-backs that are due, oldest first (R113). -/
  wb : List (Nat × Nat) := []
  /-- The status record is due at this time (R114). -/
  recDue : Option Nat := none
  intReq : Bool := false
  /-- A dispatch fetch is under way: the thread that is to run the entry; whether what it reads is discarded (R110). -/
  fetch : Option Nat := none
  fetchOld : Bool := false
  /-- The entry that a dispatch fetch read and that waits for its FENCE (R105). -/
  fenced : Option Nat := none
  /-- ENABLING is done but for the status record, which is written before the queue leaves it (R115). -/
  prepared : Bool := false
  /-- A write-back or record write waits for a walk or a PAGE_STATE event. -/
  wbWait : Bool := false
  /-- An error has latched since the last ENABLE, RESUME or SKIP (R117); a disable that arrived in ENABLING (R103). -/
  latched : Bool := false
  disEnabling : Bool := false
  /-- RESUME has to dispatch this entry again (R121). -/
  redo : Option Nat := none
deriving DecidableEq, Repr

/-- Weighted round robin of one function (R107). -/
structure Wrr where
  /-- A round has begun; a queue not listed had weight and burst 1 when it did. -/
  begun : Bool := false
  credit : Tbl Nat := []
  burst : Tbl Nat := []
  last : Nat := 65535
  cur : Option (Nat × Nat) := none
deriving DecidableEq, Repr

structure WqSt where
  qs : Tbl Queue := []
  /-- Descriptor cache lines, queue * 2^32 + sequence number (R108); at most 16,384. -/
  cache : Tbl Nat := []
  wrr : Tbl Wrr := []
deriving DecidableEq, Repr

/-! ### Translation and windows (chapter 04) -/

/-- What an access needs (R123, R131). -/
inductive Kind where | read | write | exec | atomic
deriving DecidableEq, Repr

/-- A translation request: the cluster for an engine access, with `fetch` for an instruction fetch. -/
structure XReq where
  asid : Nat
  va : Nat
  kind : Kind
  priv : Bool
  cluster : Option Nat := none
deriving DecidableEq, Repr

/-- A leaf as a TLB holds it (R135). -/
structure Leaf where
  asid : Nat
  va : Nat
  bits : Nat
  out : Nat
  flags : Nat
  hit : Nat
deriving DecidableEq, Repr

/-- A non-leaf entry in the walk cache: the table that serves `level` for addresses with this prefix. -/
structure WalkEnt where
  asid : Nat
  level : Nat
  pre : Nat
  table : Nat
  hit : Nat
deriving DecidableEq, Repr

/-- The unit operation that a window or queue access belongs to; its progress is reported to that unit. -/
inductive Own where
  /-- Placement of a data cell of a receive context (R173), by key; a matched eager send is placed through it too. -/
  | rx (key : Nat)
  /-- Placement of a get reply (R191) or of a rendezvous fetch (R240), by slot. -/
  | reply (slot : Nat)
  /-- A message reader's read of a segment's source (R444), by slot. -/
  | src (slot : Nat)
  /-- The target's read of a get's source (R190). -/
  | getSrc (id : Nat)
  /-- The read of an atomic's target word (R192). -/
  | amo (id : Nat)
  /-- A datagram's data and record (R196). -/
  | ud (key : Nat)
  /-- A receive completion record (R244), by function and place in the ring. -/
  | rcq (fn : Nat)
  /-- The copy of unexpected data to a matched receive (R237). -/
  | uxCopy (fn id : Nat)
  /-- A local contribution's read, and the placement of a result (R262, R266). -/
  | colIn (n : Nat)
  | colOut (n : Nat)
  /-- A DMA channel's list, data read and data write, by cluster * 64 + channel (R446 to R449). -/
  | dmaList (ch : Nat)
  | dmaRd (ch : Nat)
  | dmaWr (ch : Nat)
  /-- The telemetry reader's record (R566). -/
  | pmc (seq : Nat)
  /-- The image that firmware stages (R509). -/
  | stage
  /-- An access whose owner no longer waits for it. -/
  | gone
deriving DecidableEq, Repr

/-- What goes on once a translation is known. -/
inductive Work where
  /-- A load or a store to host memory, through window `win` where that is not 0. -/
  | ldH (th : Nat)
  | stH (th va data size win : Nat)
  /-- A fill of a line of instruction memory. -/
  | imem (th slot ver line : Nat)
  /-- A fill ahead of a line, for cluster c, and a walk that looks for the next table (R144). -/
  | imemPre (c slot ver line : Nat)
  | table
  | wqFetch (q : Nat)
  | wqPre (q seq n : Nat)
  | wqStat (q : Nat)
  /-- Bytes `off` to `off + len - 1` of the owner's access. -/
  | accR (own : Own) (off len : Nat)
  | accW (own : Own) (data len : Nat) (ro : Bool)
deriving DecidableEq, Repr

/-- A table walk (R128): its request, the level and table reached, the function whose link it uses, the read issued (none
while it waits for one of the 64 walks in progress to end, R135), the invalidations accepted since it began (R142), and
whether an address-space switch has passed it (R138). -/
structure Walk where
  req : XReq
  work : Work
  level : Nat
  table : Nat
  fn : Nat
  spec : Bool
  owner : Nat
  tag : Option Nat
  partialOf : List (Nat × Nat)
  stale : Bool := false
deriving DecidableEq, Repr

/-- An invalidation accepted and not complete: its kind, range, ticket, the reads that were outstanding when it was accepted,
whether its flush reads are out, and those (R141 to R143). -/
structure Inval where
  ticket : Nat
  asid : Nat
  addr : Nat
  size : Nat
  kind : Nat
  walk : Bool
  older : List Nat
  issued : Bool
  reads : List Nat
deriving DecidableEq, Repr

/-- What a read that the device issued is for (R429). -/
inductive Purpose where
  /-- An engine load of a thread, through window `win` where that is not 0. -/
  | load (th win : Nat)
  | imem (th : Nat)
  | imemPre (c slot ver line : Nat)
  | walk (id : Nat)
  | wqFetch (q : Nat)
  | wqPre (q seq n : Nat)
  /-- Bytes `off` on, `len` of them, of an owner's access. -/
  | own (o : Own) (off len : Nat)
  /-- Flush reads (R599): of an invalidation, a revoke, a FLUSH or DUR request, a fence.durable. -/
  | flushInv (port ticket link : Nat)
  | flushRevoke (fn ticket : Nat)
  | flushReq (key : Nat)
  | flushFence (th : Nat)
deriving DecidableEq, Repr

/-- A read that the device issued: the requester's function, the address, its purpose, when it was issued, and whether its
requester abandoned it (R435); `failed` while the abandonment is being reported. -/
structure HostRd where
  fn : Nat
  addr : Nat
  why : Purpose
  at_ : Nat
  gone : Bool := false
  failed : Bool := false
deriving DecidableEq, Repr

structure XltSt where
  l1i : Tbl (List Leaf) := []
  l1d : Tbl (List Leaf) := []
  l2 : List Leaf := []
  /-- The untagged partition of each cluster in U3-compatible mode. -/
  part : Tbl (List Leaf) := []
  wc : List WalkEnt := []
  walks : Tbl Walk := []
  inv : Tbl (List Inval) := []
  /-- Accesses that wait for a PAGE_STATE trap event (R134, R600). -/
  waits : Tbl (XReq × Work × Nat × Bool) := []
deriving DecidableEq, Repr

/-- Window states of R146. -/
inductive WinState where | free | opened | revoking
deriving DecidableEq, Repr

/-- A window (R146). GEN is that of the last open. -/
structure Win where
  state : WinState := .free
  gen : Nat := 0
  base : Nat := 0
  len : Nat := 0
  phys : Bool := false
  asid : Nat := 0
  owner : Nat := 0
  /-- LR, LW, RR, RW, RA in bits 0 to 4. -/
  rights : Nat := 0
  peerMode : Nat := 0
  peer : Nat := 0
deriving DecidableEq, Repr

/-- A revoke in progress (R154 to R156). -/
structure Revoke where
  idx : Nat
  ticket : Nat
  start : Nat
  limit : Nat
  /-- The drain limit has passed; the flush read, once issued; the window is FREE. -/
  cancelled : Bool := false
  flush : Option Nat := none
  flushed : Bool := false
  done : Bool := false
deriving DecidableEq, Repr

structure WinSt where
  wins : Tbl Win := []
  /-- Indices that the 16,384-entry window cache holds (R146). -/
  cache : List Nat := []
  /-- Indices opened so far from the initial list, and the freed indices that joined its tail (R145). -/
  head : Nat := 0
  freed : List Nat := []
  /-- The command in progress of each function: an open that has passed or failed, with its result (R152). -/
  busy : Tbl (Nat × Nat × Nat) := []
  revokes : Tbl (List Revoke) := []
  /-- The function entered DRAINING while its open was in progress (R157). -/
  revokeOnOpen : Tbl Bool := []
deriving DecidableEq, Repr

/-! ### DMA, trigger counters, Pitons (chapter 13) -/

/-- A list element (R446). -/
structure Elem where
  srcWin : Nat
  dstWin : Nat
  srcOff : Nat
  dstOff : Nat
  len : Nat
  event : Bool
  last : Bool
deriving DecidableEq, Repr

/-- What a channel holds beside its registers (R445 to R454): the element in progress; a fetch of it with the parts to come
and the bytes so far; the data read in flight, with its length; bytes read and not written, with a bit for each poisoned
byte, and whether their write waits for a translation. -/
structure Chan where
  elem : Option Elem := none
  fetching : Bool := false
  parts : Nat := 0
  buf : Nat := 0
  rd : Option Nat := none
  wr : Option (Nat × Nat × Nat) := none
  pauseReq : Bool := false
  /-- The list read that is out is read-ahead (R448); the bytes it brought, by list position. -/
  ahead : Bool := false
  next : Option (Nat × Nat) := none
deriving DecidableEq, Repr

/-- What a deferred-list entry does when it fires (R459). -/
inductive DefWhat where
  /-- A message operation deferred by defer. -/
  | msg (m : MsgOp)
  /-- A deferred ctr.add: counter, increment. -/
  | ctrAdd (n inc : Nat)
  /-- A deferred col.step: its operands, function and privilege. -/
  | colStep (a b : Word) (fn : Nat) (priv : Bool)
  /-- A channel in WAIT_TRIG or PAUSED with TRIG_PEND. -/
  | chan (ch : Nat)
  /-- A threshold event: slot, entry. -/
  | event (slot entry : Nat)
deriving DecidableEq, Repr

/-- A deferred-list entry, in the order made. -/
structure DefEnt where
  id : Nat
  ctr : Nat
  thresh : Nat
  fn : Nat
  what : DefWhat
  /-- The threshold is reached, with the order in which it fires (R460). -/
  ripe : Option Nat := none
deriving DecidableEq, Repr

/-- Who holds a Piton or waits for one (R463). -/
inductive Holder where
  | thread (th fn : Nat)
  | host (fn : Nat)
deriving DecidableEq, Repr

/-- A waiter: base priority, order of arrival, the time its wait began; for a host read, the read's number. -/
structure Waiter where
  who : Holder
  prio : Nat
  order : Nat
  since : Nat
  wd : Nat
deriving DecidableEq, Repr

structure Piton where
  holder : Option (Holder × Nat) := none
  queue : List Waiter := []
deriving DecidableEq, Repr

structure DmaSt where
  ch : Tbl Chan := []
  /-- Trigger counters (R456). -/
  ctr : Tbl Nat := []
  /-- The deferred list, in the order made. -/
  defs : List DefEnt := []
  /-- Clusters whose stop waits for their outstanding reads (R453). -/
  stopping : Tbl Bool := []
  pit : Tbl Piton := []
deriving DecidableEq, Repr

/-! ### Remote access and congestion (chapters 05 and 09) -/

/-- Who a message is for. -/
inductive Role where
  /-- A message instruction, or a deferred one. -/
  | user
  /-- The header of a rendezvous send, which completes with its finish (R242). -/
  | rdv
  /-- The fetch of a matched rendezvous, for receive number `rid` (R240), and the finish (R241). -/
  | fetch (rid : Nat)
  | finish
  /-- A FLUSH of a fence.durable (R204). -/
  | flush
deriving DecidableEq, Repr

/-- A message under way: its operands as its descriptors carry them, and what follows its completion (R160, R161, R164, R202). -/
structure Msg where
  /-- Operation code of R158. -/
  kind : Nat
  role : Role
  fn : Nat
  dev : Nat
  dfn : Nat
  rwin : Nat := 0
  roff : Nat := 0
  lwin : Nat := 0
  loff : Nat := 0
  len : Nat := 0
  mbits : Nat := 0
  mseq : Nat := 0
  rdvWin : Nat := 0
  rdvOff : Nat := 0
  inl : Bool := false
  /-- D6 and D7. -/
  a : Nat := 0
  b : Nat := 0
  amoFn : Nat := 0
  ord : Bool := false
  dur : Bool := false
  ctr : Option Nat := none
  entry : Option OpRef := none
  scope : Scope := .none
  /-- The thread and result register that amo.f answers. -/
  ret : Option (Nat × Nat) := none
  /-- The queue whose policer applies (R350). -/
  queue : Option Nat := none
  segs : Nat := 1
  taken : Nat := 0
  done : Nat := 0
  /-- The lowest-numbered failed segment, with its status; MSG_ID of the first. -/
  fail : Option (Nat × Nat) := none
  msgId : Nat := 0
  /-- An ORD operation that met eight other targets: it waits for every earlier one of its scope (R199). -/
  ordAll : Bool := false
  /-- A rendezvous send that is complete while its header cell still waits for its answer (R219, R242). -/
  ended : Bool := false
deriving DecidableEq, Repr

/-- Where a slot's segment stands (R168). -/
inductive SlotSt where
  /-- Held behind earlier ORD operations (R199), or for reply space (R12). -/
  | ord | hold
  /-- Waiting for the destination window (R342). -/
  | wait
  /-- Source data being read (R163, R444). -/
  | reading
  /-- Cells handed to the schedulers or in the fabric. -/
  | out
  /-- Complete; the slot is kept for its quiet time (R171). -/
  | quiet
deriving DecidableEq, Repr

/-- A message slot in use (R168). Times are in the model's clock, but for `firstTx` in fabric ns. -/
structure Slot where
  msg : Nat
  seg : Nat
  st : SlotSt
  msgId : Nat
  fn : Nat
  dev : Nat
  dfn : Nat
  op : Nat
  len : Nat
  loff : Nat
  lwin : Nat := 0
  /-- The head cell's payload, kept from the first transmission (R165). -/
  desc : Option Nat := none
  charge : Nat := 0
  charged : Bool := false
  /-- Its place in the order of admission (R346). -/
  adm : Nat := 0
  attempt : Nat := 0
  /-- The base estimate of the first transmission, in ns (R180). -/
  base : Nat := 0
  txAt : Option Nat := none
  /-- Fabric ns of the first transmission of the segment, and of the current attempt. -/
  firstTx : Nat := 0
  sentNs : Nat := 0
  lastTx : Option Nat := none
  doneAt : Nat := 0
  /-- Cells of the current attempt not yet injected; cells not yet injected in any attempt (R347). -/
  toSend : Nat := 0
  fresh : Nat := 0
  /-- The read of its source waits for the message reader's cluster to wake (R20). -/
  asleep : Bool := false
  /-- Status of a NACK_BUSY that answered the current attempt. -/
  busy : Option Nat := none
  /-- Source bytes read, and reads to come; a failure to be acted on. -/
  data : Nat := 0
  reads : Nat := 0
  fail : Option Nat := none
  /-- Reply cells counted, writes not issued, highest mark (R191); the reply reservation (R12). -/
  bitmap : Nat := 0
  got : Nat := 0
  writes : Nat := 0
  cmark : Nat := 0
  bufs : List Nat := []
deriving DecidableEq, Repr

/-- Where a receive context's data goes. -/
inductive Place where
  | none
  /-- A window and the offset of the segment's first byte. -/
  | win (handle off len : Nat)
  /-- Unexpected message `id` of the function (R236). -/
  | ux (id : Nat)
  /-- A repeat answered from the Cairn, or a failed head: cells are discarded. -/
  | drop
deriving DecidableEq, Repr

/-- A receive context (R172), keyed by source device, slot and generation. -/
structure Rx where
  fn : Nat
  head : Option Cell := none
  /-- Data cells expected, once known. -/
  count : Option Nat := none
  bitmap : Nat := 0
  got : Nat := 0
  staged : Tbl Nat := []
  bufs : List Nat := []
  place : Place := .none
  /-- Writes admitted and not yet issued. -/
  writes : Nat := 0
  cmark : Nat := 0
  tstamp : Nat := 0
  last : Nat := 0
  /-- The response that is ready: KIND, STATUS, RESULT_A (R177), and whether it states the durable level. -/
  resp : Option (Nat × Nat × Nat) := none
  durable : Bool := false
  /-- The flush read of DUR or FLUSH is out (R203, R204). -/
  flushing : Bool := false
  /-- The receive that the message is matched to (R235), and whether the message is held for order (R225). -/
  recv : Option Nat := none
  held : Bool := false
  /-- The cluster in which a place is reserved for its arrival event (R175). -/
  evRoom : Option Nat := none
  /-- A datagram whose data or record is being written (R196): 1, 2; the fabric time at which its last cell came. -/
  udStage : Nat := 0
  doneNs : Nat := 0
deriving DecidableEq, Repr

/-- A Cairn entry (R185): state DONE when `resp` is present; whether that response stated the durable level; whether the
entry has spilled to the Depot. -/
structure Cairn where
  msgId : Nat
  born : Nat
  life : Nat
  resp : Option (Nat × Nat × Nat) := none
  durable : Bool := false
  spilled : Bool := false
deriving DecidableEq, Repr

/-- A get being served at the target (R190): the request cell, the reads to come and the bytes read. -/
structure GetJob where
  cell : Cell
  win : Nat
  reads : Nat := 0
  data : Nat := 0
deriving DecidableEq, Repr

/-- An atomic being executed (R192): the request cell, the function and address of its word once translated, whether its
read is out. -/
structure AmoJob where
  cell : Cell
  win : Nat
  addr : Option (Nat × Nat) := none
  reading : Bool := false
deriving DecidableEq, Repr

/-- What a fence scope keeps (R203, R204, R202): the durable set, as device * 1,024 + function; gets since the last
fence.durable; collective operations outstanding. -/
structure ScopeSt where
  scope : Scope
  durable : List Nat := []
  gets : Bool := false
  others : Nat := 0
deriving DecidableEq, Repr

/-- A response or reply waiting for injection; a cell of class RSP, RELEASE or first transmission. -/
structure TxCell where
  cell : Cell
  fn : Nat
  cls : Nat
  retx : Bool
  /-- The slot and its generation that the cell belongs to, for a cell of a segment. -/
  slot : Option (Nat × Nat)
  /-- Created on this device (false in transit). -/
  own : Bool
  /-- The collective context that the cell belongs to. -/
  col : Option Nat
  last : Bool
  /-- Place of a retransmission in the order of their triggers (R344). -/
  trig : Nat := 0
deriving DecidableEq, Repr

structure RmaSt where
  slots : Tbl Slot := []
  gens : Tbl Nat := []
  msgId : Nat := 0
  msgs : Tbl Msg := []
  nextMsg : Nat := 0
  rx : Tbl Rx := []
  cairn : Tbl Cairn := []
  gets : Tbl GetJob := []
  amos : Tbl AmoJob := []
  /-- Operations that wait to issue, oldest first, with the thread that is stalled on each; a deferred one has none. -/
  later : List (Option Nat × MsgOp) := []
  scopes : List ScopeSt := []
  /-- Cells delivered to this device and not yet taken by a command. -/
  inbox : List Cell := []
  /-- Cells that the router or a link has just given back, with the status; empty between commands (R306, R388). -/
  lost : List (TxCell × Nat) := []
deriving DecidableEq, Repr

/-- A destination's congestion entry (R328). -/
structure CcEnt where
  w : Nat
  charge : Nat := 0
  waiting : List Nat := []
  s8 : Nat := 0
  samples : Nat := 0
  bCur : Option Nat := none
  bPrev : Option Nat := none
  /-- Base interval of the last touch. -/
  touch : Nat := 0
  lastDec : Option Nat := none
  reprobe : Option Nat := none
  lastHit : Nat := 0
  /-- Place of the last hit among all hits (R330). -/
  recency : Nat := 0
  /-- Function of the last admission (R342). -/
  lastFn : Nat := 1023
deriving DecidableEq, Repr

structure CcSt where
  ents : Tbl CcEnt := []
  /-- Base intervals: number and start (fabric ns) of the interval in progress, and its length (R335). -/
  hits : Nat := 0
  ivNum : Nat := 0
  ivStart : Nat := 0
  ivLen : Nat := 0
deriving DecidableEq, Repr

/-! ### Router, schedulers, Belay, lanes, Rope, fabric time (chapters 08 to 11) -/

/-- A cell in a port's output queue (R304): what it belongs to, the time its residence began (R318), whether it is a CTL cell
queued at the entry to DEGRADED (R383), and whether it is conditional (R370). -/
structure OutCell where
  t : TxCell
  since : Nat
  deg : Bool := false
  cond : Bool := false
deriving DecidableEq, Repr

/-- A decision already made for a cell that is held until a parked port is UP: the port, the set, VIA_GROUP (R305, R315). -/
structure Hold where
  port : Nat
  set : Nat
  via : Nat
deriving DecidableEq, Repr

/-- A cell in a port's input buffer: whether it occupies the shared pool (R377), when its residence began, and the port whose
wake it waits for. -/
structure InCell where
  cell : Cell
  shared : Bool
  since : Nat
  hold : Option Hold := none
deriving DecidableEq, Repr

/-- A cell of this device that stands in its class's injection buffer until a parked port is UP (R305, R343). -/
structure HeldCell where
  t : TxCell
  hold : Hold
  since : Nat
deriving DecidableEq, Repr

/-- A frame in the replay buffer (R363): its number, its cells with their SHARED bits, its first transmission. -/
structure RepFrame where
  seq : Nat
  cells : List (Cell × Bool)
  firstTx : Nat
deriving DecidableEq, Repr

/-- Training and taps of one physical lane of a port (R397 to R404); `cap` to `spareOk` are the peer's last control field. -/
structure LaneSt where
  heard : Bool := false
  cap : Nat := 0
  stage : Nat := 0
  usable : Nat := 0
  spareOk : Bool := false
  peerReady : Bool := false
  /-- Our receiver on this lane is trained; the transmitter's wire fault; the transmit taps. -/
  ready : Bool := false
  txFault : Nat := 0
  /-- FAULT is a mark of the receiver, which R401 looks at, and not only of the transmitter (R398). -/
  rxMark : Bool := false
  pre : Int := 0
  post : Int := 0
  /-- Consecutive windows above the limit of R404; the coefficients of a calibration are held. -/
  hits : Nat := 0
  hasCal : Bool := false
deriving DecidableEq, Repr

/-- A fabric port: Belay, lanes, parking (R356 to R411). Times are in the model's clock. -/
structure Port where
  out : List OutCell := []
  inb : List InCell := []
  replay : List RepFrame := []
  /-- Frames of the replay in progress still to send again; the start of the last replay: first frame and time. -/
  replaying : Nat := 0
  replayFrom : Option (Nat × Nat) := none
  /-- The replay timer while it runs: when it started, and REPLAY_NS as it stood then (R368). -/
  replayEnd : Option (Nat × Nat) := none
  /-- The cells of a stomped frame that go in the next DATA frame (R371). -/
  again : List OutCell := []
  /-- ACK_SEQ in outgoing headers, frames accepted since it changed, time of the earliest it does not cover. -/
  ackSeq : Nat := 0xFFFFFF
  accepted : Nat := 0
  ackAt : Option Nat := none
  nakNext : Bool := false
  nakRaised : Bool := false
  limitOut : Tbl Nat := []
  gotDed : Tbl Nat := []
  limitIn : Tbl Nat := []
  used : Tbl Nat := []
  peerDed : Nat := 0
  /-- POOL of the peer's INIT, which no rule reads (R373). -/
  peerPool : Nat := 0
  xoffOut : Nat := 0
  xoffIn : Nat := 0
  /-- Dedicated cells freed since the last CREDIT frame, with the time of the first; the last CREDIT frame. -/
  freed : Nat := 0
  freedAt : Option Nat := none
  creditAt : Nat := 0
  /-- Control frames to send, oldest first: type and body; whether the last frame was one while others waited. -/
  ctl : List (Nat × Nat) := []
  lastCtl : Bool := false
  seen : Bool := false
  peerSeen : Bool := false
  good : Nat := 0
  since : Nat := 0
  /-- The lane layer has reported the port trained and Belay has not yet entered LOCK. -/
  trained : Bool := false
  lastGood : Nat := 0
  decayAt : Nat := 0
  discAt : Nat := 0
  /-- The identity word of the peer's last INIT (R321, R380). -/
  initId : Nat := 0
  /-- The FEC data path (R392, R393): units that fill no codeword group yet, the codeword counter. -/
  units : List (BitVec 65) := []
  cwCtr : Nat := 0
  /-- TIME exchanges in flight: ID and t1 in 2^-16 ns; the round trips of initialisation. -/
  exch : List (Nat × Nat) := []
  exId : Nat := 0
  initRtts : List Nat := []
  /-- Round robin of R351: cells left in the round for REQ, RSP and COL. -/
  rrLeft : List Nat := [0, 0, 0]
  /-- The last cell sent or received (R405). -/
  cellAt : Nat := 0
  parkId : Nat := 0
  parkReq : Option (Nat × Nat) := none
  parkAgree : Option (Nat × Nat) := none
  wakeWant : Bool := false
  waking : Bool := false
  rediscover : Bool := false
  trnAt : Nat := 0
  trainMs : Nat := 500
  stage : Nat := 0
  doneSeen : Bool := false
  lanes : Tbl LaneSt := []
  recalAt : Nat := 0
  /-- When EN was written 1 or the module inserted (R396). -/
  modAt : Nat := 0
  /-- The mode of R400 is settled; DONE frames sent on each lane. -/
  modeSet : Bool := false
  doneSent : Nat := 0
  /-- The transmitters are in electrical idle for parking (R406, R408). -/
  txIdle : Bool := false
  /-- LINK_DOWN where the link took the last TIME exchange, or the last parking, with it (R388); else 0. -/
  exEnd : Nat := 0
  parkEnd : Nat := 0
deriving DecidableEq, Repr

/-- Time-gate state (R352): the active and armed banks and lengths; their bases are registers or stand here when armed. -/
structure Gate where
  active : Option (Nat × Nat × Nat) := none
  armed : Option (Nat × Nat × Nat) := none
deriving DecidableEq, Repr

/-- The schedulers (R343 to R350): queues of each class, fair queuing, buckets. -/
structure SchSt where
  ctl : List TxCell := []
  rsp : List TxCell := []
  retx : List TxCell := []
  /-- First transmissions of each function, in admission order: REQ and COL. -/
  req : Tbl (List TxCell) := []
  col : Tbl (List TxCell) := []
  vReq : Nat := 0
  vCol : Nat := 0
  tagReq : Tbl Nat := []
  tagCol : Tbl Nat := []
  /-- Functions eligible at the last opportunity (R345). -/
  elReq : List Nat := []
  elCol : List Nat := []
  reqLeft : Nat := 0
  colLeft : Nat := 0
  /-- Shaper levels (may be negative), meter buckets Tc and Tp, policers, all in 1/256 cell. -/
  tokens : Tbl Int := []
  tc : Tbl Nat := []
  tp : Tbl Nat := []
  udp : Tbl Nat := []
  /-- The function that had the last grant for each cluster (R347). -/
  lastGrant : Tbl Nat := []
  gates : Tbl Gate := []
deriving DecidableEq, Repr

/-- The router: the generator of R314 and the port last chosen for each set (R304). -/
structure RteSt where
  lfsr : Word := 1
  last : Tbl Nat := []
  /-- The injection buffers (R343), oldest first. -/
  held : List HeldCell := []
deriving DecidableEq, Repr

/-- A Rope packet (R415): type, TTL, source and destination words, body length and body. -/
structure RopePkt where
  kind : Nat
  ttl : Nat
  src : Nat
  dst : Nat
  len : Nat
  body : Nat
deriving DecidableEq, Repr

/-- A fabric port's module as firmware manages it (R410). -/
structure ModSt where
  /-- MOD_LPMODE is asserted. -/
  low : Bool := true
  /-- The mode, 1 for 425G, whose Application is selected. -/
  app : Option Nat := none
  /-- Data path: 0 deactivated, 1 initialising, 2 activated, 3 deinitialised by firmware. -/
  path : Nat := 0
deriving DecidableEq, Repr

/-- A Rope port: packets that wait to leave, good ALIGN sets in a row, exchanges; the end of its last packet and its last
ALIGN set, in columns of the device's clock (R413). -/
structure Rope where
  sentTo : Nat := 0
  /-- Running disparity of the two lanes, as sent: positive (R412). -/
  disp : Bool × Bool := (false, false)
  alignAt : Nat := 0
  /-- When an ALIGN set last arrived (R414). -/
  heardAt : Nat := 0
  q : List RopePkt := []
  good : Nat := 0
  exch : List (Nat × Nat) := []
  exId : Nat := 0
deriving DecidableEq, Repr

/-- The time servo (R421 to R424). Offsets are in 2^-16 ns. -/
structure TimeSt where
  /-- Neighbours that report LOCKED, with their GM_DIST: ports 0 to 63, Rope ports 64 and 65. -/
  nbr : Tbl (Bool × Nat) := []
  integ : Int := 0
  /-- The phase that R423 takes on entry to LOCKED without a jump, in 2^-16 ns. -/
  phase : Int := 0
  /-- The last exchange period and the last HELLO began. -/
  exAt : Nat := 0
  helloAt : Nat := 0
  losses : Nat := 0
  /-- Valid offsets since UNLOCKED, newest first, with the clock at each. -/
  thetas : List Int := []
  rtts : List Nat := []
  ticks : Nat := 0
  /-- The next PPS edge aligns the count (R424); a PPS edge has been seen since PPS_EN. -/
  ppsJump : Bool := true
  ppsLocked : Bool := false
  tenLocked : Bool := false
deriving DecidableEq, Repr

/-! ### Matching (chapter 06) -/

/-- A posted receive (R213, R214). -/
structure Recv where
  index : Nat
  gen : Nat
  fn : Nat
  src : Nat
  any : Bool
  bits : Nat
  ignore : Nat
  win : Nat
  off : Nat
  len : Nat
  ctr : Option Nat
  psn : Nat
  /-- Its place among the posted receives of the device, in the order posted (R231). -/
  ord : Nat := 0
deriving DecidableEq, Repr

/-- A list of the match unit (R229): a full bin, a tag bin, a function's masked list, a function's arrival list. -/
inductive MList where
  | full (bin : Nat)
  | tag (bin : Nat)
  | masked (fn : Nat)
  | arrival (fn : Nat)
deriving DecidableEq, Repr

/-- What a message brings to matching: source endpoint, match bits, length as sent, D6, and for a rendezvous its source. -/
structure Mail where
  src : Nat
  bits : Nat
  len : Nat
  d6 : Nat
  rdv : Bool
  rwin : Nat
  roff : Nat
deriving DecidableEq, Repr

/-- An unexpected message (R236, R239): its Depot buffers, the receive context that still stores its data, and the receive
that a post matched to it meanwhile. -/
structure UxMsg where
  id : Nat
  mail : Mail
  arr : Nat
  bufs : List Nat := []
  data : Nat := 0
  rx : Option Nat := none
  matched : Option Nat := none
  /-- A word of the data is poisoned (R482). -/
  bad : Bool := false
deriving DecidableEq, Repr

/-- A receive that has matched and has not completed (R235, R237, R240). -/
structure Active where
  recv : Recv
  mail : Mail
  ux : Option Nat := none
  status : Nat := 0
  /-- The cluster in which a place is reserved for its arrival event (R247). -/
  evRoom : Option Nat := none
  /-- Copy writes not yet issued. -/
  writes : Nat := 0
deriving DecidableEq, Repr

/-- A completion (R244): the record's fields, and what follows it. -/
structure Done where
  fn : Nat
  handle : Nat
  status : Nat
  rdv : Bool
  len : Nat
  src : Nat
  bits : Nat
  d6 : Nat
  ctr : Option Nat
  evRoom : Option Nat
deriving DecidableEq, Repr

/-- A part of a write that has its address. -/
structure Part where
  fn : Nat
  addr : Nat
  len : Nat
  data : Nat
  /-- Its offset in the ring's window. -/
  off : Nat := 0
deriving DecidableEq, Repr

/-- A record being written: how many of its parts await their translation, and those that have it (R245). -/
structure RcqJob where
  rcd : Done
  todo : Nat := 0
  parts : List Part := []
deriving DecidableEq, Repr

/-- A match domain (R212). `waiting` are completions that wait for ring room, `writing` the one whose record is being
written. -/
structure Dom where
  psn : Nat := 0
  arr : Nat := 0
  posted : List Recv := []
  ux : List UxMsg := []
  waiting : List Done := []
  writing : Option RcqJob := none
deriving DecidableEq, Repr

/-- An order entry (R222): E, held messages as (SEQ, receive context, time), and its idle reference. -/
structure Order where
  e : Nat
  held : List (Nat × Nat × Nat) := []
  last : Nat
deriving DecidableEq, Repr

/-- A send stream (R219). -/
structure Stream where
  next : Nat := 0
  open_ : List Nat := []
  last : Nat := 0
deriving DecidableEq, Repr

/-- A rendezvous record (R238), oldest first in the list, with the message it completes. -/
structure Rdv where
  fn : Nat
  dst : Nat
  win : Nat
  off : Nat
  len : Nat
  msg : Nat
deriving DecidableEq, Repr

/-- Domains and order entries by function, and by function * 2^28 + endpoint. -/
structure MtcSt where
  doms : Tbl Dom := []
  gens : Tbl Nat := []
  orders : Tbl Order := []
  streams : Tbl Stream := []
  rdvs : List Rdv := []
  active : Tbl Active := []
  nextRid : Nat := 0
  nextUx : Nat := 0
  nextPost : Nat := 0
deriving DecidableEq, Repr

/-! ### Collectives (chapter 07) -/

/-- A local contribution (R260, R262): its number among all reads, its source, the reads to come and the bytes so far, and the
operation that the epoch's close completes. -/
structure Contrib where
  id : Nat
  win : Nat := 0
  off : Nat := 0
  reads : Nat := 0
  data : Nat := 0
  scope : Scope := .none
  entry : Option OpRef := none
deriving DecidableEq, Repr

/-- A phase vector sent and not acknowledged (R285), to peer `peer`: 0 the parent, 1 + i child i. Its cells by index, its
attempt, when the first cell of that left (none: it waits) and when that of the first attempt did (fabric ns), the base
estimate. -/
structure SentVec where
  peer : Nat
  kind : Nat
  epoch : Nat
  total : Nat
  cells : Tbl Nat := []
  attempt : Nat := 0
  sentAt : Option Nat := none
  first : Nat := 0
  base : Nat := 0
deriving DecidableEq, Repr

/-- What a vertex knows of a peer: endpoint, context, LINK_ACK received, and its ABORT: echoed, under way, retransmissions
made, when the attempt in progress left, given up, base estimate. -/
structure ColPeer where
  endp : Nat
  ctx : Nat
  linked : Bool := false
  echo : Bool := false
  aborting : Bool := false
  tries : Nat := 0
  abortAt : Option Nat := none
  given : Bool := false
  base : Nat := 0
deriving DecidableEq, Repr

/-- A collective context (R250 to R268). STATE, FN, STATUS and TREE are register fields; EPOCH and UP_EPOCH are read from
`epochs` and `ups`, which do not wrap. -/
structure ColCtx where
  kind : Nat := 0
  repro : Bool := false
  wide : Bool := false
  sat : Bool := false
  root : Bool := false
  op : Nat := 0
  dtype : Nat := 0
  locals : Nat := 0
  count : Nat := 0
  resOff : Nat := 0
  slots : Nat := 1
  resWin : Nat := 0
  ctr : Option Nat := none
  parent : Option ColPeer := none
  kids : List ColPeer := []
  fp : Nat := 0
  born : Nat := 0
  linkMs : Nat := 100
  linkAt : Nat := 0
  bufs : List Nat := []
  epochs : Nat := 0
  ups : Nat := 0
  /-- Bytes of staging reserved (R255). -/
  stage : Nat := 0
  /-- Contributions by LIDX, of the open epoch and of the next. -/
  contribs : Tbl Contrib := []
  next : Tbl Contrib := []
  /-- Cells received in the up phases being collected: child * 4,096 + index. -/
  upIn : Tbl Nat := []
  expIn : Tbl Nat := []
  /-- Cells of its own combinations. -/
  upOut : Tbl Nat := []
  expOut : Tbl Nat := []
  /-- The combined records (XB) and the result, by cell. -/
  expAll : Tbl Nat := []
  down : Tbl Nat := []
  sent : List SentVec := []
  /-- Cells of the down phase not yet handed to the router; whether placement has begun, its writes not yet issued, and the
  epoch's status. -/
  toHand : Nat := 0
  started : Bool := false
  placing : Nat := 0
  status : Nat := 0
  lastSent : Nat := 0
deriving DecidableEq, Repr

structure ColSt where
  ctxs : Tbl ColCtx := []
deriving DecidableEq, Repr

/-! ### Basecamp, faults, telemetry, test access (chapters 15, 16, 18, 19) -/

/-- A CTL ring entry (R513): the cell, KIND, input port, status, time of arrival, and its place in the ring. -/
structure CtlEnt where
  cell : Cell
  kind : Nat
  port : Nat
  status : Nat
  time : Nat
  pos : Nat := 0
deriving DecidableEq, Repr

/-- An image that is being staged for mailbox `mbx` (R509): the window, its offset and length, and the bytes read so far. -/
structure Stage where
  mbx : Nat
  win : Nat
  off : Nat
  len : Nat
  got : Nat := 0
  data : Nat := 0
deriving DecidableEq, Repr

/-- An exception record (R511): its function and eight words, lowest first. -/
structure ExcRec where
  fn : Nat
  words : List Word
deriving DecidableEq, Repr

/-- Basecamp firmware, flash, fuses and MRAM (R502 to R522). -/
structure BcpSt where
  /-- The boot flash by sectors of 4,096 bytes, byte 0 of each lowest (R502). -/
  flash : Tbl Nat := []
  /-- The Subsystem IDs, from the board record that passed R504; 0 until then (R427, R505). -/
  subsys : Nat := 0
  /-- KEY_HASH[0] to KEY_HASH[3] in the fuses, as big-endian numbers (R504). -/
  keyHash : Tbl Nat := []
  revoked : List Nat := []
  rollback : Nat := 0
  preferred : Nat := 0
  params : Tbl Word := []
  /-- The slots that failed to boot in this start, and the slot being loaded. -/
  tried : List Nat := []
  loading : Nat := 0
  /-- The slot staged and the slot an activation starts; the mailbox that asked, and when the blackout began (R520). -/
  staged : Option Nat := none
  swap : Option (Nat × Nat × Option Nat) := none
  stage : Option Stage := none
  /-- The code region of Basecamp's SRAM that runs (R520). -/
  region : Nat := 0
  /-- Rollback version of the running image. -/
  runRollback : Nat := 0
  exc : List ExcRec := []
  ring : List CtlEnt := []
  /-- The place of the ring that the next entry takes, if it is free. -/
  ringPos : Nat := 0
  /-- CTL cells that Basecamp sent and whose completion has not been written. -/
  ctlOut : Nat := 0
  mctp : Nat := 0
  /-- Rope MGMT packets delivered to firmware: source word and body (R417). -/
  ropeIn : List (Nat × Nat) := []
  alarms : List Nat := []
  /-- A margin write made during a blackout (R588). -/
  margin : Bool := false
  /-- CMIS page bytes of the modules: port * 2^24 + bank * 2^16 + page * 2^8 + offset (R410). -/
  cmis : Tbl Nat := []
  mods : Tbl ModSt := []
deriving DecidableEq, Repr

/-- Thermal and current governor (R543 to R545), and the last Rope FAULT packet (R417). -/
structure FltSt where
  /-- The temperature that raised each thermal level, in 0.25 °C, highest level first. -/
  raised : List Int := []
  safeArmed : Bool := true
  /-- Sources whose report in START had severity SAFE (R537). -/
  safeStart : List Nat := []
  excessAt : Option Nat := none
  belowAt : Option Nat := none
  /-- The last FAULT packet of R417. -/
  faultAt : Nat := 0
deriving DecidableEq, Repr

/-- The telemetry reader (R566 to R568): the record being written, and whether a snapshot was skipped since the last. -/
structure PmcSt where
  job : Option (List (Nat × Nat) × Nat × Bool) := none
  gap : Bool := false
deriving DecidableEq, Repr

/-- The TAP (R591): held in reset, instruction register, bypass bit, boundary register. -/
structure Tap where
  inReset : Bool := true
  ir : BitVec 8 := 0x01
  bypass : Bool := false
  boundary : Nat := 0
deriving DecidableEq, Repr

/-- States of R519. -/
inductive TxnPhase where | none | opened | committing
deriving DecidableEq, Repr

/-- The configuration transaction of one requester (R516 to R519): held writes by register key, as mask and value. -/
structure Txn where
  phase : TxnPhase := .none
  conflict : Bool := false
  full : Bool := false
  status : Nat := 0
  conf : Nat := 0
  begun : Nat := 0
  timeoutMs : Nat := 1000
  held : Tbl (Word × Word) := []
deriving DecidableEq, Repr

/-- The device. -/
structure Dev where
  regs : Tbl Word := []
  /-- Boundary fields in force (R5): the register's value at the last boundary of its block. -/
  force : Tbl Word := []
  /-- The model's clock in picoseconds, and fabric time in units of 2^-48 ns (R418). -/
  ps : Nat := 0
  ft : Nat := 0
  /-- Counter that the opaque choices of Config are applied to. -/
  fresh : Nat := 0
  log : List Out := []
  pwr : PwrSt := {}
  host : HostSt := {}
  /-- Outstanding reads that the device issued, by tag. -/
  reads : Tbl HostRd := []
  nextTag : Nat := 0
  int : IntSt := {}
  dep : DepSt := {}
  eng : EngSt := {}
  wq : WqSt := {}
  xlt : XltSt := {}
  win : WinSt := {}
  dma : DmaSt := {}
  rma : RmaSt := {}
  cc : CcSt := {}
  mtc : MtcSt := {}
  col : ColSt := {}
  ports : Tbl Port := []
  sch : SchSt := {}
  rte : RteSt := {}
  ropes : Tbl Rope := []
  time : TimeSt := {}
  bcp : BcpSt := {}
  flt : FltSt := {}
  pmc : PmcSt := {}
deriving DecidableEq, Repr

/-- The state of the model: the commands that wait, first in first out; the device; the configuration transactions by
requester (0 to 7 the physical function of that mailbox, 8 Basecamp, 9 the debug port); the TAP. -/
structure State where
  pending : List Instr := []
  dev : Dev := {}
  txns : Tbl Txn := []
  tap : Tap := {}
deriving DecidableEq, Repr

/-- 48-byte parts of a header, the lowest first. -/
def partsOf (l : List Nat) : Nat := l.foldr (fun x v => x + v * 2 ^ 384) 0

/-- The header of the provisioned image: no code, key slot 0, ROLLBACK, VERSION and ENTRY 0, signed (log entry 7). -/
def provisionedImage : Nat :=
  partsOf
   [0x15746344c,
    0xdae1f663bfc70c4c4307be1411b7fd216ae3b1b17e32d94c3896ac51a760b03800000000000000000000000000000000,
    0x586112a57af5adf73b084daf055bd82379d7f8170fdcdb408e8aaa4a6131ea045bb99848f1d21ad5fb656fe7bfde4e27,
    0x2962184425f6d8ac4e4ced4132e9d6c260bf7f7dd2d3dbaa0e5e9fa7d7294efd3ea5e18be07125be5e821efe4255c954,
    0x5c3faa86dfef85dfa664d8abf0822a2f46,
    0x6f4f7aa69669b1ad57c49f3f3a56ce5855d78499571516800e1234b1ebe7a58300000000000000000000000000000000,
    0xb7ca4960c163b119487e43b6eb5521545cd955df59a1db8f62754df160e595347c3b978dc9a82851155a984cd53bba1e,
    0xca79f316b0e31dd39abb98e28d154024]

/-- The header of the provisioned board record, whose body is 8 zero bytes, signed by the same key (log entry 7). -/
def provisionedBoard : Nat :=
  partsOf
   [0x800000000000000015242344c,
    0xc3fb6c1ad90e0d2b2603fcd68c94841664e6c3e4860cd5360bce0e319db02d7c00000000000000000000000000000000,
    0x586112a57af5adf73b084daf055bd82379d7f8170fdcdb408e8aaa4a6131ea04194b3603b109a1d05ff8c196d3ff5acd,
    0x2962184425f6d8ac4e4ced4132e9d6c260bf7f7dd2d3dbaa0e5e9fa7d7294efd3ea5e18be07125be5e821efe4255c954,
    0x5c3faa86dfef85dfa664d8abf0822a2f46,
    0x93368c16a79759a3f21a0ba9e68e8c8bec00f04668f20fc323bd6ef083e01ebe00000000000000000000000000000000,
    0x4902d17e4be20752cc0805b438b12c41355efa4e54dfa79409494de09e0a606320f5087738804a6189eac744925da350,
    0xf8428c8f0bd021db5ceddc4f53026c72]

/-- What the fuses and the boot flash of a provisioned part hold (DESIGN CHOICE, log entry 7): one key, and an image in
either slot and a board record that pass R504. -/
def BcpSt.provisioned : BcpSt :=
  { flash := [(0, provisionedBoard), (256, provisionedImage), (2304, provisionedImage)]
    keyHash := [(0, 0x17a4196ace578e202f67620fc301da121177f0bcd35db76b9e9822f17f335f36a601d88e0c02afa01918c2abfcb75f09)] }

/-- The machine right after a system reset (R500, R523): START, rails up, nothing placed. -/
def State.reset : State := { dev := { bcp := .provisioned } }

/-- No command of this block ends in a fault; the type is closed and holds the one reason kept for an unmodelled stop. -/
inductive Fault where
  /-- Raised by no meaning. -/
  | stuck
deriving DecidableEq, Repr

/-- Reasons to refuse a command. -/
inductive Refusal where
  /-- A command without a meaning yet, named by its mnemonic; safe: the model stops where the device goes on. -/
  | notModelled (mnemonic : String)
deriving DecidableEq, Repr

end Sys2Proof.Machine
end

