-- ==== Sys2Proof/Machine/Cells.lean ====
section
/-! DEFINITION. The cell's header fields (R294), its check (R296), and the control fields of frames. -/

namespace Sys2Proof

/-- Header bits [lo + w - 1 : lo] (R294). -/
def Cell.bits (c : Cell) (lo w : Nat) : Nat := c.hdr.toNat / 2 ^ lo % 2 ^ w

/-- Header bits replaced. -/
def Cell.setBits (c : Cell) (lo w v : Nat) : Cell :=
  { c with hdr := BitVec.ofNat 128 (c.hdr.toNat - c.bits lo w * 2 ^ lo + v % 2 ^ w * 2 ^ lo) }

def Cell.dstDev (c : Cell) : Nat := c.bits 110 18
def Cell.dstGroup (c : Cell) : Nat := c.bits 116 12
def Cell.dstMember (c : Cell) : Nat := c.bits 110 6
def Cell.dstFn (c : Cell) : Nat := c.bits 100 10
def Cell.srcDev (c : Cell) : Nat := c.bits 82 18
def Cell.slot (c : Cell) : Nat := c.bits 66 16
def Cell.gen (c : Cell) : Nat := c.bits 62 4
def Cell.idx (c : Cell) : Nat := c.bits 50 12
def Cell.head (c : Cell) : Bool := c.bits 49 1 != 0
def Cell.last (c : Cell) : Bool := c.bits 48 1 != 0
/-- The virtual channel, and the class and phase it stands for (R309). -/
def Cell.vc (c : Cell) : Nat := c.bits 44 4
def Cell.cls (c : Cell) : Nat := c.vc / 4
def Cell.phase (c : Cell) : Nat := c.vc % 4
def Cell.via (c : Cell) : Nat := c.bits 32 12
def Cell.hops (c : Cell) : Nat := c.bits 28 4
def Cell.cmark (c : Cell) : Nat := c.bits 26 2
def Cell.color (c : Cell) : Nat := c.bits 24 2
def Cell.tstamp (c : Cell) : Nat := c.bits 8 16

/-- Payload bits [lo + w - 1 : lo]; word k of R164 is bits [64k + 63 : 64k]. -/
def Cell.p (c : Cell) (lo w : Nat) : Nat := c.pay.toNat / 2 ^ lo % 2 ^ w

/-- One step of a bitwise CRC of width `w`, most significant bit first. -/
def crcBit (w poly : Nat) (c : Nat) (bit : Bool) : Nat :=
  let top := (c / 2 ^ (w - 1)) % 2 == 1
  let s := c * 2 % 2 ^ w
  if top != bit then s ^^^ poly else s

/-- The CRC of the `n` low bits of `x`, most significant first. -/
def crcOf (w poly init : Nat) (x : Nat) : Nat → Nat
  | 0 => init
  | n + 1 => crcBit w poly (crcOf w poly init (x / 2) n) (x % 2 == 1)

/-- HCHK over header bytes 0 to 14 (R296). -/
def hchk (hdr : BitVec 128) : Nat := crcOf 8 0x07 0 (hdr.toNat / 256) 120

def Cell.hchkOk (c : Cell) : Bool := c.bits 0 8 == hchk c.hdr

/-- The cell with its header check computed afresh (R296). -/
def Cell.sealed (c : Cell) : Cell := c.setBits 0 8 (hchk c.hdr)

/-- A cell built from its header fields (R294), not yet stamped; `vc` is class * 4. -/
def mkCell (dstDev dstFn srcDev slot gen idx : Nat) (head last : Bool) (cls : Nat) (pay : Nat) : Cell :=
  { hdr := BitVec.ofNat 128 (dstDev % 2 ^ 18 * 2 ^ 110 + dstFn % 2 ^ 10 * 2 ^ 100 + srcDev % 2 ^ 18 * 2 ^ 82 +
      slot % 2 ^ 16 * 2 ^ 66 + gen % 16 * 2 ^ 62 + idx % 4096 * 2 ^ 50 + (if head then 2 ^ 49 else 0) +
      (if last then 2 ^ 48 else 0) + cls * 4 * 2 ^ 44 + 0xFFF * 2 ^ 32)
    pay := BitVec.ofNat 512 pay }

end Sys2Proof
end

