-- ==== Sys2Proof/Machine/Status.lean ====
section
/-! DEFINITION. The status codes of chapter 05 (Status codes). -/

namespace Sys2Proof.Machine.Status

/-- Success. -/
abbrev OK : Nat := 0x0000
/-- Window status of R147. -/
abbrev WIN_INVALID : Nat := 0x0001
/-- As above. -/
abbrev WIN_STALE : Nat := 0x0002
/-- As above. -/
abbrev WIN_REVOKED : Nat := 0x0003
/-- As above. -/
abbrev WIN_PEER : Nat := 0x0004
/-- As above. -/
abbrev WIN_RIGHTS : Nat := 0x0005
/-- As above. -/
abbrev WIN_BOUNDS : Nat := 0x0006
/-- As above. -/
abbrev WIN_XLT : Nat := 0x0007
/-- As above. -/
abbrev WIN_NOSPACE : Nat := 0x0008
/-- As above. -/
abbrev WIN_ASID : Nat := 0x0009
/-- As above. -/
abbrev WIN_ARG : Nat := 0x000A
/-- Attempts ran out without a response. -/
abbrev RETRY_EXHAUSTED : Nat := 0x0010
/-- No receive context or event room. -/
abbrev RX_BUSY : Nat := 0x0011
/-- Cairn full. -/
abbrev CAIRN_BUSY : Nat := 0x0012
/-- Exception queue full. -/
abbrev EXC_BUSY : Nat := 0x0013
/-- Work dropped by a link going down. -/
abbrev LINK_DOWN : Nat := 0x0014
/-- No port toward the destination. -/
abbrev UNREACHABLE : Nat := 0x0015
/-- Destination function not enabled. -/
abbrev FN_OFF : Nat := 0x0016
/-- Invalid operand. -/
abbrev ARG : Nat := 0x0017
/-- Datagram refused by its policer. -/
abbrev UD_POLICED : Nat := 0x0018
/-- Atomic target not naturally aligned. -/
abbrev ATOMIC_ALIGN : Nat := 0x0019
/-- Error completion or completion timeout at a host port. -/
abbrev HOST_ERROR : Nat := 0x001A
/-- Deferred list full. -/
abbrev DEFER_FULL : Nat := 0x001B
/-- Slot still draining. -/
abbrev SWAP_BUSY : Nat := 0x001C
/-- Entry abandoned by SKIP. -/
abbrev CMD_SKIPPED : Nat := 0x001D
/-- Match capacity reached. -/
abbrev MT_FULL : Nat := 0x0020
/-- Cancel found no posted receive. -/
abbrev MT_NOT_FOUND : Nat := 0x0021
/-- Message longer than its receive. -/
abbrev MT_TRUNCATED : Nat := 0x0022
/-- Receive completed by cancel. -/
abbrev MT_CANCELLED : Nat := 0x0023
/-- No free collective context. -/
abbrev COL_NO_CONTEXT : Nat := 0x0030
/-- Collective buffers unavailable at creation. -/
abbrev COL_NO_BUFFER : Nat := 0x0031
/-- A tree member failed. -/
abbrev COL_MEMBER_LOST : Nat := 0x0032
/-- Invalid context descriptor. -/
abbrev COL_BAD_DESC : Nat := 0x0033
/-- Contribution outside the open epoch. -/
abbrev COL_EPOCH : Nat := 0x0034
/-- Piton stalled read reached its bound. -/
abbrev BUSY : Nat := 0x0040
/-- Lock held by another. -/
abbrev PIT_HELD : Nat := 0x0041
/-- Release of a lock not held. -/
abbrev PIT_NOT_HELD : Nat := 0x0042
/-- No right to the lock's group. -/
abbrev PIT_RIGHTS : Nat := 0x0043
/-- Calibration input not idle. -/
abbrev CAL_INPUT_BUSY : Nat := 0x0050
/-- Configuration transaction conflict. -/
abbrev TXN_CONFLICT : Nat := 0x0060
/-- No transaction open. -/
abbrev TXN_NONE : Nat := 0x0061
/-- Mailbox sequence number out of order. -/
abbrev MBX_SEQ : Nat := 0x0062
/-- Firmware image failed authentication. -/
abbrev AUTH_FAIL : Nat := 0x0063
/-- Channel stopped by its cluster's stop. -/
abbrev DMA_STOPPED : Nat := 0x0070
/-- Channel's own read failed. -/
abbrev DMA_BUS_ERROR : Nat := 0x0071

end Sys2Proof.Machine.Status
end

