-- ==== Sys2Proof/Machine/Ops.lean ====
section
/-! DEFINITION. The named operations that every family shares: registers and their fields, the clock, telemetry, interrupts,
the host ports' requests, the Depot's words and buffer pool, target gates, and the fault collector. -/

namespace Sys2Proof.Machine

/-! ### Bits -/

/-- The `w` low bits set. -/
def maskW (w : Nat) : Word := BitVec.ofNat 64 (2 ^ w - 1)

/-- Bits [lo + w - 1 : lo] of a register. -/
def getBits (x : Word) (lo w : Nat) : Nat := x.toNat / 2 ^ lo % 2 ^ w

/-- The register with bits [lo + w - 1 : lo] replaced. -/
def setBits (x : Word) (lo w v : Nat) : Word :=
  (x &&& ~~~(maskW w <<< lo)) ||| (BitVec.ofNat 64 (v % 2 ^ w) <<< lo)

/-- Bits [lo + w - 1 : lo] of a number. -/
def bitsOf (x lo w : Nat) : Nat := x / 2 ^ lo % 2 ^ w

/-- A number's two's-complement value at `w` bits. -/
def signed (x w : Nat) : Int := if 2 ^ (w - 1) ≤ x % 2 ^ w then (x % 2 ^ w : Nat) - (2 ^ w : Nat) else (x % 2 ^ w : Nat)

/-- The `w`-bit two's-complement code of an integer. -/
def unsigned (x : Int) (w : Nat) : Nat := (x % (2 ^ w : Nat)).toNat

/-- The value held within [lo, hi]. -/
def clampTo (lo hi x : Nat) : Nat := if x < lo then lo else if hi < x then hi else x

/-- Smallest multiple of `m` at or above `x`. -/
def roundUp (x m : Nat) : Nat := (x + m - 1) / m * m

/-- A precedes b as serial numbers of `w` bits (R89, R218, R363). -/
def serialLt (w a b : Nat) : Bool :=
  let d := (b + 2 ^ w - a % 2 ^ w) % 2 ^ w
  1 ≤ d && d < 2 ^ (w - 1)

/-! ### Registers -/

/-- Instance `i` of register `r`. -/
def Dev.reg (d : Dev) (r : Nat) (i : Nat := 0) : Word := Tbl.get d.regs (regReset r i) (i * 256 + r)

/-- Register `r`, instance `i`, set to `v`. -/
def Dev.setReg (d : Dev) (r i : Nat) (v : Word) : Dev :=
  { d with regs := Tbl.set (regReset r i) (i * 256 + r) v d.regs }

/-- A field's value. -/
def Dev.rd (d : Dev) (f : Fld) (i : Nat := 0) : Nat := getBits (d.reg f.reg i) f.lo f.w

/-- A field written. -/
def Dev.wr (d : Dev) (f : Fld) (i v : Nat) : Dev := d.setReg f.reg i (setBits (d.reg f.reg i) f.lo f.w v)

/-- A one-bit field. -/
def Dev.flag (d : Dev) (f : Fld) (i : Nat := 0) : Bool := d.rd f i != 0

/-- A saturating count advanced by `n`. -/
def Dev.bumpBy (d : Dev) (f : Fld) (i n : Nat) : Dev := d.wr f i (min (d.rd f i + n) (2 ^ f.w - 1))

/-- A saturating count advanced by one. -/
def Dev.bump (d : Dev) (f : Fld) (i : Nat := 0) : Dev := d.bumpBy f i 1

/-- A Boundary field in force (R5). -/
def Dev.rdF (d : Dev) (f : Fld) (i : Nat := 0) : Nat :=
  getBits (Tbl.get d.force (regReset f.reg i) (i * 256 + f.reg)) f.lo f.w

/-- A register's Boundary fields taken into force. -/
def Dev.latch (d : Dev) (r : Nat) (i : Nat := 0) : Dev :=
  { d with force := Tbl.set (regReset r i) (i * 256 + r) (d.reg r i) d.force }

/-- One Boundary field taken into force. -/
def Dev.latchField (d : Dev) (f : Fld) (i : Nat := 0) : Dev :=
  let k := i * 256 + f.reg
  { d with force := Tbl.set (regReset f.reg i) k (setBits (Tbl.get d.force (regReset f.reg i) k) f.lo f.w (d.rd f i)) d.force }

/-- The listed instances of register `r`, with their values. -/
def Dev.listed (d : Dev) (r : Nat) : List (Nat × Word) :=
  d.regs.filterMap (fun e => if e.1 % 256 = r then some (e.1 / 256, e.2) else none)

/-- The Boundary fields of every instance of a register taken into force. -/
def Dev.latchAll (d : Dev) (r : Nat) : Dev :=
  ((d.listed r).map Prod.fst ++ d.force.filterMap (fun (e : Nat × Word) => if e.1 % 256 = r then some (e.1 / 256) else none)).foldl
    (fun d i => d.latch r i) d

/-! ### Choices and output -/

/-- The device's choice among `n` alternatives (log entry 1). -/
def Dev.pick (d : Dev) (n : Nat) : Nat × Dev :=
  if n ≤ 1 then (0, d) else (Config.pick d.fresh % n, { d with fresh := d.fresh + 1 })

/-- A value that the spec leaves open (log entry 1). -/
def Dev.freeWord (d : Dev) : Word × Dev := (Config.freeValue d.fresh, { d with fresh := d.fresh + 1 })

/-- An output of the device. -/
def Dev.emit (d : Dev) (o : Out) : Dev := { d with log := o :: d.log }

/-! ### Time (R418) -/

/-- Fabric time in integer nanoseconds. -/
def Dev.ns (d : Dev) : Nat := d.ft / 2 ^ 48 % 2 ^ 64

/-- Fabric time in 2^-16 ns. -/
def Dev.ns16 (d : Dev) : Nat := d.ft / 2 ^ 32 % 2 ^ 80

/-- The rate of fabric time against the model's clock, in parts of 10^9 (R418, R423). -/
def Dev.rate (d : Dev) : Nat := (1000000000 + signed (d.rd F.TIME_FREQ_FREQ_PPB) 32).toNat

/-- The start-up has passed its rails and its reference clock (R506, R582), and SYS_RESET_N is high. -/
def Dev.powered (d : Dev) : Bool := !d.pwr.inReset && d.pwr.pg == 0x1F && !d.pwr.refBad

/-- Units do not act: safe state, Whiteout, or no power (R537, R540, R523). -/
def Dev.halted (d : Dev) : Bool :=
  match d.pwr.state with
  | .start => !d.powered
  | .run => false
  | .off => true
  | .bivouac => true
  | .safe => true
  | .whiteout => true

/-- Units that stop only with their clocks: Belay, lanes, fabric time, Basecamp (R537, R540). -/
def Dev.dark (d : Dev) : Bool :=
  match d.pwr.state with
  | .start => !d.powered
  | .run => false
  | .safe => false
  | .off => true
  | .bivouac => true
  | .whiteout => true

/-- The clock advanced by `n` ps; fabric time stands still without its reference clock (R418). -/
def Dev.advance (d : Dev) (n : Nat) : Dev :=
  { d with ps := d.ps + n, ft := if d.dark then d.ft else d.ft + n * 2 ^ 48 * d.rate / (1000 * 1000000000) }

/-- The clock advanced to `t`, or left where it has passed it (log entry 3). -/
def Dev.advanceTo (d : Dev) (t : Nat) : Dev := d.advance (t - d.ps)

/-- The clock advanced to fabric time `n` ns. -/
def Dev.advanceToNs (d : Dev) (n : Nat) : Dev :=
  if n * 2 ^ 48 ≤ d.ft then d
  else d.advance (((n * 2 ^ 48 - d.ft) * (1000 * 1000000000) + 2 ^ 48 * d.rate - 1) / (2 ^ 48 * max d.rate 1))

def usPs (n : Nat) : Nat := n * 1000000
def nsPs (n : Nat) : Nat := n * 1000
def msPs (n : Nat) : Nat := n * 1000000000

/-! ### Functions and ports (R432 to R435) -/

/-- HST_FN_CTL.STATE: 0 OFF, 1 ENABLING, 2 ON, 3 DRAINING. -/
def Dev.fnState (d : Dev) (f : Nat) : Nat := d.rd F.HST_FN_CTL_STATE f

def Dev.fnOn (d : Dev) (f : Nat) : Bool := d.fnState f == 2

/-- Host port p is bifurcated (taken at the deassertion of HOST_PERST_N[p]). -/
def Dev.bifurcated (d : Dev) (p : Nat) : Bool := d.rdF F.HST_PORT_CFG_BIFURCATE p != 0

/-- The link that presents function f (R432): port * 2 + link. -/
def Dev.linkOf (d : Dev) (f : Nat) : Nat := f / 256 * 2 + (if d.bifurcated (f / 256) && 128 ≤ f % 256 then 1 else 0)

/-- The physical function that f belongs to. -/
def Dev.pfOf (d : Dev) (f : Nat) : Nat := f / 256 * 256 + (if d.bifurcated (f / 256) && 128 ≤ f % 256 then 128 else 0)

/-- f is a physical function. -/
def Dev.isPf (d : Dev) (f : Nat) : Bool := f % 256 == 0 || (d.bifurcated (f / 256) && f % 256 == 128)

/-- A cut event has stopped function f's host access (R435). -/
def Dev.isCut (d : Dev) (f : Nat) : Bool := d.flag F.HST_FN_CTL_CUT f && (d.fnState f == 3 || d.fnState f == 0)

/-- Function f's host access is not open (R433): it opens with ON, and stays through a graceful drain from there. -/
def Dev.closed (d : Dev) (f : Nat) : Bool :=
  !(d.fnState f == 2 || (d.fnState f == 3 && !d.flag F.HST_FN_CTL_CUT f && !Tbl.get d.host.shut false f))

/-! ### Telemetry (R560 to R563, R569) -/

/-- Counter k advanced by n, wrapping with OVF (R563). -/
def Dev.pmcAdd (d : Dev) (k n : Nat) : Dev :=
  let v := d.rd F.PMC_CTR_VAL_VALUE k + n
  let d := d.wr F.PMC_CTR_VAL_VALUE k (v % 2 ^ 48)
  if 2 ^ 48 ≤ v then d.wr F.PMC_CTR_CFG_OVF k 1 else d

/-- Whether a counter's configuration selects this occurrence (R562). -/
def pmcSelects (cfg : Word) (block ev : Nat) (inst fn : Option Nat) : Bool :=
  getBits cfg 34 1 == 1 && getBits cfg 0 16 == block * 1024 + ev &&
  (getBits cfg 22 1 == 0 || inst == none || inst == some (getBits cfg 16 6)) &&
  (getBits cfg 33 1 == 0 || fn == some (getBits cfg 23 10))

/-- Occurrences of event `ev` of block `block` (R561). -/
def Dev.ev (d : Dev) (block ev : Nat) (inst fn : Option Nat := none) (n : Nat := 1) : Dev :=
  (d.listed R.PMC_CTR_CFG).foldl (fun d e => if pmcSelects e.2 block ev inst fn then d.pmcAdd e.1 n else d) d

/-- Per-function counter i of function f advanced by n (R569). -/
def Dev.fnCount (d : Dev) (f i : Nat) (n : Nat := 1) : Dev :=
  let k := f * 16 + i
  let v := d.rd F.PMC_FN_VAL_VALUE k + n
  let d := d.wr F.PMC_FN_VAL_VALUE k (v % 2 ^ 48)
  if 2 ^ 48 ≤ v then d.wr F.PMC_FN_VAL_WRAP k 1 else d

/-! ### Interrupts (R440 to R442) -/

def Dev.pendOf (d : Dev) (t : Nat) : List Nat := Tbl.get d.int.pend [] t
def Dev.actOf (d : Dev) (t : Nat) : List Nat := Tbl.get d.int.act [] t
def Dev.setPend (d : Dev) (t : Nat) (l : List Nat) : Dev := { d with int.pend := Tbl.set [] t l d.int.pend }
def Dev.setAct (d : Dev) (t : Nat) (l : List Nat) : Dev := { d with int.act := Tbl.set [] t l d.int.act }

/-- The list with `n` in it once, in ascending order. -/
def insertAsc (n : Nat) : List Nat → List Nat
  | [] => [n]
  | m :: l => if n < m then n :: m :: l else if n = m then m :: l else m :: insertAsc n l

/-- Number n of target t is eligible (R440). -/
def Dev.eligible (d : Dev) (t n : Nat) : Bool :=
  (d.pendOf t).contains n && !(d.actOf t).contains n &&
  getBits (d.reg R.INT_TGT_EN (t * 64 + n / 64)) (n % 64) 1 == 1 && d.rd F.INT_TGT_CFG_THRESHOLD t ≤ n

/-- The highest eligible number of target t. -/
def Dev.highest (d : Dev) (t : Nat) : Option Nat := ((d.pendOf t).filter (d.eligible t)).getLast?

/-- Messages of function f may fall due (R442). -/
def Dev.msixMay (d : Dev) (f : Nat) : Bool := !d.halted && !d.closed f

/-- Neither function f's vector nor the function is masked (R441). -/
def Dev.vecOpen (d : Dev) (f : Nat) : Bool := !(Tbl.get d.host.msix {} f).masked && !Tbl.get d.host.fnMask false f

/-- Function f's MSI-X message leaves: ARMED and the Pending Bit clear (R441). -/
def Dev.msixSend (d : Dev) (f : Nat) : Dev :=
  let e := Tbl.get d.host.msix {} f
  ({ d with host.msixPend := Tbl.set false f false d.host.msixPend }.wr F.INT_TGT_STAT_ARMED f 0).emit (.msix f e.addr.toNat
    e.data.toNat)

/-- R441: the target signals when it is armed and some number is eligible. A masked vector takes the Pending Bit
(DEDUCED: ARMED stays until the message is sent, log entry 10). -/
def Dev.settle (d : Dev) (t : Nat) : Dev :=
  if !d.flag F.INT_TGT_STAT_ARMED t || (d.highest t).isNone then d
  else if t = 1024 then (d.wr F.INT_TGT_STAT_ARMED t 0).emit .coreSignal
  else if !d.msixMay t then d
  else if d.vecOpen t then d.msixSend t
  else { d with host.msixPend := Tbl.set false t true d.host.msixPend }

/-- A unit raises number n at target t (R440). -/
def Dev.raise (d : Dev) (t n : Nat) : Dev := (d.setPend t (insertAsc n (d.pendOf t))).settle t

/-! ### Requests on host ports (R429, R435, R482, R599) -/

/-- A posted write of function f. -/
def Dev.hostWrite (d : Dev) (f addr len data : Nat) (ro : Bool := false) (ep : Bool := false) : Dev :=
  if d.halted then d
  else if d.closed f then (if d.isCut f then d.bump F.HST_PORT_ERR_CUT (f / 256) else d)
  else
    let d := { d with host.posted := Tbl.put (d.linkOf f * 1024 + f) addr d.host.posted }
    (d.ev 10 0 (some (f / 256)) (some f)).emit (.hostWrite f addr len data (ro && !Tbl.get d.host.roOff false f) ep)

/-- ID-Based Ordering of a read: only on DMA reads, and only where the function allows it (R430). -/
def Dev.idoOf (d : Dev) (f : Nat) : Purpose → Bool
  | .own (.dmaRd _) _ _ => Tbl.get d.host.ido false f
  | .own (.dmaList _) _ _ => Tbl.get d.host.ido false f
  | _ => false

/-- No read of function f for `why` goes out. An invalidation's flush read only carries the function's requester ID (R599): a
cut alone stops it. -/
def Dev.noRead (d : Dev) (f : Nat) : Purpose → Bool
  | .flushInv _ _ _ => d.isCut f
  | _ => d.closed f

/-- A read of function f; none where its host access is not open or the device issues nothing (R433, R435, R537). -/
def Dev.hostRead (d : Dev) (f addr len : Nat) (why : Purpose) : Dev × Option Nat :=
  if d.halted || d.noRead f why then (d, none)
  else
    let t := d.nextTag
    let d := { d with reads := Tbl.put t { fn := f, addr := addr, why := why, at_ := d.ps } d.reads, nextTag := t + 1 }
    ((d.ev 10 1 (some (f / 256)) (some f)).emit (.hostRead t f addr len (d.idoOf f why)), some t)

/-- The address of the flush read that R599 gives function f, if a posted write of it may lie ahead. -/
def Dev.flushAddr (d : Dev) (f : Nat) : Option Nat := Tbl.find d.host.posted (d.linkOf f * 1024 + f)

/-- The most recent posted write on a link, of any function, with that function. Which of several is the most recent is
read from the output log. -/
def Dev.flushAny (d : Dev) (link : Nat) : Option (Nat × Nat) :=
  d.log.findSome? (fun o => match o with
    | .hostWrite f a _ _ _ _ => if d.linkOf f = link && Tbl.has d.host.posted (link * 1024 + f) then some (f, a) else none
    | _ => none)

/-! ### Faults (R530 to R542) -/

/-- Severity of source s (R533). -/
def Dev.severity (d : Dev) (s : Nat) : Nat :=
  if s = 28 then 3 else getBits (d.reg R.FLT_SEV (s / 32)) (2 * (s % 32)) 2

/-- Sources that exist (R532). -/
def faultSource (s : Nat) : Bool := 1 ≤ s && s ≤ 31

def Dev.portSt (d : Dev) (p : Nat) : Port := Tbl.get d.ports {} p
def Dev.setPort (d : Dev) (p : Nat) (v : Port) : Dev := { d with ports := Tbl.set {} p v d.ports }
def Dev.updPort (d : Dev) (p : Nat) (g : Port → Port) : Dev := d.setPort p (g (d.portSt p))

/-- Ports 0 to 63. -/
def allPorts : List Nat := List.range 64

/-- The identity word of R321 that port p sends; `assigned` is 0 in safe state (R537). -/
def Dev.identity (d : Dev) (p : Nat) : Nat :=
  d.rd F.RTE_ID_SYSTEM_ID + d.rd F.RTE_ID_DEV_ID * 2 ^ 16 +
  (if d.pwr.state = .safe then 0 else d.rd F.RTE_ID_ASSIGNED) * 2 ^ 34 + p * 2 ^ 35 +
  d.rd F.RTE_PORT_CFG_KIND p * 2 ^ 43 + d.rd F.RTE_PORT_CFG_PGROUP p * 2 ^ 45

/-- A control frame queued on port p (R379). -/
def Dev.ctlFrame (d : Dev) (p kind body : Nat) : Dev := d.updPort p (fun x => { x with ctl := x.ctl ++ [(kind, body)] })

/-- Rope ports have power: VDD_CORE and VDD_SRD are present, outside Bivouac standby (R412). -/
def Dev.ropePower (d : Dev) : Bool :=
  d.pwr.state != .off && d.pwr.state != .bivouac && [0, 3].all (fun k => d.pwr.en.getLsbD k && d.pwr.pg.getLsbD k)

/-- A Rope packet handed to Rope port r; one that finds no room is dropped and counted (R415). -/
def Dev.ropeSend (d : Dev) (r : Nat) (k : RopePkt) : Dev :=
  let x := Tbl.get d.ropes {} r
  if !d.ropePower || getBits (d.reg R.ROPE_CFG) r 1 = 0 || d.rd F.ROPE_PORT_STAT_STATE r != 2 then d
  else if 8 ≤ x.q.length then d.bump F.ROPE_PORT_STAT_DROPS r
  else { d with ropes := Tbl.set {} r { x with q := x.q ++ [k] } d.ropes }

/-- Source word of a Rope packet of this device (R415). -/
def Dev.ropeSrc (d : Dev) : Nat := d.rd F.RTE_ID_DEV_ID + d.rd F.RTE_ID_ASSIGNED * 2 ^ 18

/-- The FAULT packet of R417 on both Rope ports. -/
def Dev.ropeFault (d : Dev) (cls : Nat) : Dev :=
  let k : RopePkt := { kind := 3, ttl := max 1 (d.rd F.ROPE_CFG_FAULT_TTL), src := d.ropeSrc, dst := 2 ^ 31, len := 2, body := cls }
  { (d.ropeSend 0 k).ropeSend 1 k with flt.faultAt := d.ps }

/-- Entry to safe state or Whiteout writes the cause (R538, R540). -/
def Dev.writeCause (d : Dev) (src kind : Nat) : Dev :=
  let d := (d.wr F.FLT_CAUSE_SRC 0 src).wr F.FLT_CAUSE_KIND 0 kind
  ((d.setReg R.FLT_CAUSE_TIME 0 (BitVec.ofNat 64 d.ns)).wr F.FLT_STAT_FAULT_OUT 0 1).emit (.pin "FAULT_N" 0)

/-- The routing state of every port that is not DOWN becomes CTL_ONLY, with DISCOVER sent, and what is queued for other
classes is discarded (R537). A port that Belay has parked is woken for it. -/
def Dev.safePort (d : Dev) (p : Nat) : Dev :=
  if d.rd F.RTE_PORT_STATE_STATE p = 0 then d
  else
    let x := d.portSt p
    let gone := (x.out.filter (fun c => c.t.cell.cls != 3)).length
    let d := ((d.wr F.RTE_PORT_STATE_STATE p 2).wr F.RTE_PORT_STATE_MIS_REASON p 0).bumpBy F.RTE_DROP2_MISROUTE 0 gone
    let d := d.setPort p { x with out := x.out.filter (fun c => c.t.cell.cls == 3),
                                  again := x.again.filter (fun c => c.t.cell.cls == 3),
                                  wakeWant := x.wakeWant || d.rd F.PRT_LNK_STATE_STATE p == 5 }
    d.ctlFrame p 3 (d.identity p)

/-- Cells of other classes than CTL in the injection buffers are discarded with them (R537). -/
def Dev.safeHeld (d : Dev) : Dev :=
  { d.bumpBy F.RTE_DROP2_MISROUTE 0 (d.rte.held.filter (fun h => h.t.cls != 3)).length with
    rte.held := d.rte.held.filter (fun h => h.t.cls == 3) }

/-- The owner of an access, replaced where it is `o`. -/
def Own.without (o x : Own) : Own := if x = o then .gone else x

/-- The work of an access without the owner `o`. -/
def Work.without (o : Own) : Work → Work
  | .accR x off n => .accR (o.without x) off n
  | .accW x v n ro => .accW (o.without x) v n ro
  | .ldH th => .ldH th
  | .stH th va v n w => .stH th va v n w
  | .imem th s v l => .imem th s v l
  | .imemPre c s v l => .imemPre c s v l
  | .table => .table
  | .wqFetch q => .wqFetch q
  | .wqPre q s n => .wqPre q s n
  | .wqStat q => .wqStat q

/-- Owner `o` no longer waits for its accesses: reads and walks under way find no owner. -/
def Dev.disown (d : Dev) (o : Own) : Dev :=
  { d with
    reads := d.reads.map (fun (e : Nat × HostRd) => match e.2.why with
      | .own x off n => (e.1, { e.2 with why := .own (o.without x) off n })
      | _ => e)
    xlt.walks := d.xlt.walks.map (fun (e : Nat × Walk) => (e.1, { e.2 with work := e.2.work.without o }))
    xlt.waits := d.xlt.waits.map (fun (e : Nat × XReq × Work × Nat × Bool) => (e.1, e.2.1, e.2.2.1.without o, e.2.2.2)) }

/-- The physical function of mailbox m (R507), and of transaction requester m (R516). -/
def pfOfMbx (m : Nat) : Nat := 256 * (m / 2) + 128 * (m % 2)

/-- The function that a requester of the register space acts for. -/
def reqFn : Req → Option Nat
  | .pf m => some (pfOfMbx m)
  | .vf fn => some fn
  | .bcp => none
  | .dbg => none

/-- No access that channel ch began matters to it any more. -/
def Dev.disownChan (d : Dev) (ch : Nat) : Dev := ((d.disown (.dmaList ch)).disown (.dmaRd ch)).disown (.dmaWr ch)

/-- Channel ch (cluster * 64 + channel) becomes STOPPED with `st` (R451, R452): its accesses are given up and its
deferred-list entry is released. -/
def Dev.chStop (d : Dev) (ch st : Nat) : Dev :=
  let d := d.disownChan ch
  let d := { d with dma.ch := Tbl.del ch d.dma.ch, dma.defs := d.dma.defs.filter (fun e => e.what != DefWhat.chan ch) }
  ((d.wr F.DMA_CH_CTL_STATE ch 6).wr F.DMA_CH_CTL_STATUS ch st).wr F.DMA_CH_CTL_TRIG_PEND ch 0

/-- Steps 2 to 4 of R453 for cluster c. -/
def Dev.stopCluster (d : Dev) (c : Nat) : Dev :=
  (d.listed R.DMA_CH_CTL).foldl (fun d (e : Nat × Word) =>
    if e.1 / 64 != c || d.rd F.DMA_CH_CTL_STATE e.1 = 0 || d.rd F.DMA_CH_CTL_STATE e.1 = 6 then d
    else d.chStop e.1 Status.DMA_STOPPED) d

/-- Each cluster stops in safe state (R537). -/
def Dev.stopAllChannels (d : Dev) : Dev :=
  (List.range 16).foldl (fun d c =>
    let d := if d.flag F.DMA_CL_STAT_STOPPED c then d else (d.wr F.DMA_CL_STAT_STOPPED c 1).bump F.DMA_CL_STAT_STOPS c
    { d.stopCluster c with dma.stopping := Tbl.del c d.dma.stopping }) d

/-! ### Rails (R498) -/

/-- The highest rail of `v`. -/
def topRail (v : BitVec 5) : Option Nat := (List.range 5).foldl (fun b k => if v.getLsbD k then some k else b) none

def setRail (v : BitVec 5) (k : Nat) (b : Bool) : BitVec 5 :=
  if b then v ||| (1#5 <<< k) else v &&& ~~~(1#5 <<< k)

/-- RAIL_EN[k] driven. -/
def Dev.driveRail (d : Dev) (k : Nat) (b : Bool) : Dev :=
  { d with pwr.en := setRail d.pwr.en k b }.emit (.pin "RAIL_EN" (2 * k + if b then 1 else 0))

/-- The power-down begins with the highest rail that is enabled. -/
def Dev.railsDown (d : Dev) : Dev :=
  match topRail d.pwr.en with
  | none => { d with pwr.down := false, pwr.pg := 0 }
  | some k => { d.driveRail k false with pwr.down := true }

/-- Safe state (R537, R538). -/
def Dev.enterSafe (d : Dev) (src : Nat) : Dev :=
  let d := d.writeCause src 1
  let d := d.setReg R.FLT_SNAP 0 (d.reg R.FLT_STICKY)
  let d := { d with pwr.state := .safe, reads := d.reads.map (fun (e : Nat × HostRd) => (e.1, { e.2 with gone := true })) }
  let d := allPorts.foldl Dev.safePort d.stopAllChannels.safeHeld
  d.ropeFault 1

/-- Every fabric transmitter goes idle, and every host link down (R540). -/
def Dev.linksOff (d : Dev) : Dev :=
  (List.range 4).foldl (fun d p => d.setReg R.HST_PORT_STAT p 0)
    ((d.ports.map Prod.fst).foldl (fun d p => d.emit (.txIdle p true)) d)

/-- Whiteout (R540, R541): transmitters go idle, the host links down, and after 100 µs the rails begin to fall. -/
def Dev.enterWhiteout (d : Dev) (src : Nat) : Dev :=
  let d := d.writeCause src 2
  let d := { d with pwr.woLog := some (src, (d.reg R.FLT_CAUSE_TIME).toNat),
                    bcp.params := Tbl.put 240 (BitVec.ofNat 64 (src + 64)) d.bcp.params }
  let d := d.ropeFault 2
  ({ d.linksOff with pwr.state := .whiteout, ports := [], rte.held := [], reads := [] }.advance (usPs 100)).railsDown

/-- Reports of the sources `srcs` reach the collector in one cycle (R531 to R540). -/
def Dev.faults (d : Dev) (srcs : List Nat) : Dev :=
  let srcs := srcs.filter faultSource
  match srcs.getLast? with
  | none => d
  | some last =>
    if d.pwr.state = .off || d.pwr.state = .bivouac || d.pwr.state = .whiteout then d
    else
      let d := srcs.foldl (fun d s => d.setReg R.FLT_STICKY 0 (setBits (d.reg R.FLT_STICKY) s 1 1)) d
      let d := (d.wr F.FLT_STAT_LAST_SRC 0 last).bumpBy F.FLT_STAT_REPORTS 0 srcs.length
      let sev := (srcs.map d.severity).foldl max 0
      let cause := (srcs.filter (fun s => d.severity s == sev)).foldl min 63
      let d :=
        if sev = 0 then d
        else
          let d := d.raise 1024 (d.rd F.FLT_CFG_BCP_INT)
          let f := d.rd F.FLT_CFG_FN
          if d.flag F.FLT_CFG_FN_EN && d.isPf f then d.raise f (d.rd F.FLT_CFG_FN_INT) else d
      if sev = 3 then d.enterWhiteout cause
      else if d.pwr.state = .run then (if sev = 2 then d.enterSafe cause else d)
      else if d.pwr.state = .start then
        { d with flt.safeStart := (srcs.filter (fun s => d.severity s == 2)).foldl (fun l s => insertAsc s l) d.flt.safeStart }
      else d

/-- One report. -/
def Dev.fault (d : Dev) (s : Nat) : Dev := d.faults [s]

/-- A command that acts on the device alone. -/
def onDev (s : State) (f : Dev → Dev) : Host.Outcome State Fault Refusal := .next { s with dev := f s.dev }

end Sys2Proof.Machine
end

