-- ==== Sys2Proof/Machine/Mem.lean ====
section
/-! DEFINITION. The Depot and scratch as memories of tagged words, the buffer pool, ECC, and the target gates (chapter 14). -/

namespace Sys2Proof.Machine

/-! ### Areas of the Depot (R473, R474) -/

/-- Depot size in bytes. -/
def Dev.depSize (d : Dev) : Nat := d.rd F.DEP_STAT_SIZE_GIB * 2 ^ 30

/-- First byte of the pool. -/
def Dev.poolBase (d : Dev) : Nat := min (d.rd F.DEP_POOL_CFG_SW_GIB) (d.rd F.DEP_STAT_SIZE_GIB - 4) * 2 ^ 30

/-- Buffers in the pool (DEP_STAT.POOL_BUFS). -/
def Dev.poolBufs (d : Dev) : Nat := (d.depSize - 2 * 2 ^ 30 - d.poolBase) / 2048

/-- Start of buffer k. -/
def Dev.bufAddr (d : Dev) (k : Nat) : Nat := d.poolBase + 2048 * k

/-- Owner tag of R474. -/
def poolTag (cls obj : Nat) : Nat := cls + obj % 2 ^ 28 * 16

/-- The class's limit in buffers (R475); COL counts its own in bytes (R254), MTC_UX in MiB. -/
def Dev.poolMax (d : Dev) (cls : Nat) : Nat :=
  if cls = 2 then min (d.rd F.MTC_CAP_UX_DATA_MIB) 16384 * 512
  else if cls = 3 then d.poolBufs
  else d.rd F.DEP_POOL_CLASS_MAX cls

/-- An allocation of `n` buffers (R476): none is taken where they are not all to be had. -/
def Dev.alloc (d : Dev) (cls obj n : Nat) : Dev × Option (List Nat) :=
  let inuse := d.rd F.DEP_POOL_CLASS_INUSE cls
  if d.poolMax cls < inuse + n || d.poolBufs < d.dep.bufs.length + n then (d.ev 11 2, none)
  else
    let step := fun (acc : Dev × List Nat) (_ : Nat) =>
      let d := acc.1
      let (start, d) := d.pick d.poolBufs
      match firstFreeFrom (Tbl.has d.dep.bufs) d.poolBufs start (d.dep.bufs.length + 1) with
      | none => (d, acc.2)
      | some k => ({ d with dep.bufs := Tbl.put k (poolTag cls obj + 1) d.dep.bufs }, acc.2 ++ [k])
    let (d, l) := (List.range n).foldl step (d, [])
    (d.wr F.DEP_POOL_CLASS_INUSE cls (inuse + l.length), some l)

/-- A refused free (R477). -/
def Dev.freeMisuse (d : Dev) (k cls : Nat) : Dev :=
  (((d.bump F.DEP_MISUSE_COUNT).wr F.DEP_MISUSE_LAST_BUF 0 k).wr F.DEP_MISUSE_LAST_CLASS 0 cls).fault 7

/-- A free of the buffer at `addr` under owner tag (cls, obj) (R477). -/
def Dev.free (d : Dev) (addr cls obj : Nat) : Dev :=
  let k := (addr - d.poolBase) / 2048
  if addr < d.poolBase || (addr - d.poolBase) % 2048 != 0 || d.poolBufs ≤ k then d.freeMisuse (k % 2 ^ 25) cls
  else if Tbl.find d.dep.bufs k != some (poolTag cls obj + 1) then d.freeMisuse k cls
  else
    let d := { d with dep.bufs := Tbl.del k d.dep.bufs }
    d.wr F.DEP_POOL_CLASS_INUSE cls (d.rd F.DEP_POOL_CLASS_INUSE cls - 1)

/-- A unit returns its own buffers. -/
def Dev.freeAll (d : Dev) (bufs : List Nat) (cls obj : Nat) : Dev :=
  bufs.foldl (fun d k => d.free (d.bufAddr k) cls obj) d

/-- The SW buffers of a function that reaches OFF return to the pool (R479). -/
def Dev.freeForced (d : Dev) (fn : Nat) : Dev :=
  let mine := d.dep.bufs.filter (fun e => e.2 == poolTag 4 fn + 1)
  (mine.foldl (fun d e => d.free (d.bufAddr e.1) 4 fn) d).bumpBy F.DEP_MISUSE_FORCED 0 mine.length

/-! ### Words and ECC (R33, R471, R480 to R484) -/

/-- Value and tag of a native word (R30). -/
def TWord.val (w : TWord) : Word := w.setWidth 64
def tagOf (w : TWord) : Nat := w.toNat / 2 ^ 64
def mkWord (v : Word) (tag : Nat) : TWord := BitVec.ofNat 72 (v.toNat + tag % 256 * 2 ^ 64)
/-- POISON of a tag (R33). -/
def tagPoison (t : Nat) : Bool := t / 16 % 2 == 1
def isPoison (w : TWord) : Bool := tagPoison (tagOf w)
def poisoned (w : TWord) : TWord := if isPoison w then w else BitVec.ofNat 72 (w.toNat + 16 * 2 ^ 64)

/-- The Depot word at byte address `a` (R471). -/
def Dev.depWord (d : Dev) (a : Nat) : TWord := Tbl.get d.dep.mem 0 (a / 8)
def Dev.setDepWord (d : Dev) (a : Nat) (w : TWord) : Dev := { d with dep.mem := Tbl.set 0 (a / 8) w d.dep.mem }

/-- The first request wakes a Depot in self-refresh (R527). -/
def Dev.depWake (d : Dev) : Dev := { d with dep.selfRefresh := false }

/-- Words of a scratch: cluster c below 16, or Basecamp's SRAM as 16. -/
def Dev.scrWord (d : Dev) (c a : Nat) : TWord := Tbl.get d.eng.scratch 0 (c * 131072 + a / 8)
def Dev.setScrWord (d : Dev) (c a : Nat) (w : TWord) : Dev :=
  { d with eng.scratch := Tbl.set 0 (c * 131072 + a / 8) w d.eng.scratch }

/-- Where code region r of Basecamp's SRAM begins: the two lie at its start (R520; log entry 36). -/
abbrev codeRegion (r : Nat) : Nat := r * (3 * 2 ^ 20)

/-- Instruction i of the code that the Basecamp cores run, in the form of R83 and R84 (R504; log entry 36). -/
def Dev.coreInstr (d : Dev) (i : Nat) : Nat :=
  let a := codeRegion d.bcp.region + 9 * (i / 2)
  bitsOf ((TWord.val (d.scrWord 16 a)).toNat + (TWord.val (d.scrWord 16 (a + 8))).toNat * 2 ^ 64) (8 * (a % 8) + 36 * (i % 2)) 36

/-- The canonical form of the Depot and of scratch: addresses strictly rising, no listed word that reads as an unlisted one
does (0, tag 0; log entry 9). -/
abbrev Memory.wf (d : Dev) : Prop := Tbl.wf 0 d.dep.mem ∧ Tbl.wf 0 d.eng.scratch

/-- What a read of the Depot word at `a` finds (R481). -/
def Dev.depEcc (d : Dev) (a : Nat) (e : Ecc) : Dev :=
  match e with
  | .none => d
  | .ce => (d.bump F.DEP_ECC_STAT_DEPOT_CE).fault 10
  | .ue =>
    let d := ((d.bump F.DEP_ECC_STAT_DEPOT_UE).wr F.DEP_ECC_ADDR_ADDR 0 (a / 8 * 8)).wr F.DEP_ECC_ADDR_SCRUB 0 0
    (d.setDepWord a (poisoned (d.depWord a))).fault 11

/-- What a read of a Depot word meets (R481): the word delivered. -/
def Dev.depRead (d : Dev) (a : Nat) (e : Ecc) : Dev × TWord :=
  ((d.ev 11 0).depEcc a e, if e = .ue then poisoned (d.depWord a) else d.depWord a)

/-- Outcome `k` of a read of ECC memory. -/
def eccOf (k : Nat) : Ecc := if k = 1 then .ce else if k = 2 then .ue else .none

/-- A unit reads the Depot words from `a` over `n` bytes: one of them may meet an error, whichever it is (R481; log entry
1). -/
def Dev.depMeet (d : Dev) (a n : Nat) : Dev :=
  let (k, d) := d.pick 3
  let (j, d) := d.pick ((a + n + 7) / 8 - a / 8)
  d.depEcc (a + 8 * j) (eccOf k)

/-- The same for a scratch word. -/
def Dev.scrRead (d : Dev) (c a : Nat) (e : Ecc) : Dev × TWord :=
  match e with
  | .none => (d, d.scrWord c a)
  | .ce => ((d.bump F.DEP_ECC_STAT_SRAM_CE).fault 10, d.scrWord c a)
  | .ue =>
    let w := poisoned (d.scrWord c a)
    (((d.bump F.DEP_ECC_STAT_SRAM_UE).setScrWord c a w).fault 11, w)

/-- The word with `size` bytes from byte address `a` on replaced (R483): a whole word takes the new tag, a part keeps POISON. -/
def mergeWord (old new : TWord) (a size : Nat) : TWord :=
  if size = 8 then new
  else
    let v := setBits (TWord.val old) (8 * (a % 8)) (8 * size) (TWord.val new).toNat
    mkWord v (tagOf new % 16 + (if isPoison old || isPoison new then 16 else 0))

/-! ### Target gates (R485 to R492) -/

/-- Rights of a region or default for a class: bit 0 read, bit 1 write. -/
def rightsFor (rights cls : Nat) : Nat := rights / 4 ^ cls % 4

/-- Regions of gate g. -/
def gateRegions (g : Nat) : Nat := if 2 ≤ g && g ≤ 17 then 32 else 64

/-- Region (gate, r) applies to byte `a` of a requester with function `fn` (R487). -/
def Dev.regionApplies (d : Dev) (k : Nat) (rw : Word) (fn : Option Nat) (a : Nat) : Bool :=
  getBits rw 23 1 == 1 && d.rd F.TGT_RGN_BASE_BASE k * 64 ≤ a && a ≤ d.rd F.TGT_RGN_LIMIT_LIMIT k * 64 + 63 &&
  d.rd F.TGT_RGN_BASE_BASE k ≤ d.rd F.TGT_RGN_LIMIT_LIMIT k &&
  (getBits rw 12 1 == 0 || (fn != none && fn == some (getBits rw 13 10)))

/-- Rights that the fixed regions of R488 leave. -/
def Dev.fixedRights (d : Dev) (g cls a : Nat) : Nat :=
  if g = 0 then
    if d.depSize ≤ a then 0
    else if d.depSize - 2 * 2 ^ 30 ≤ a then (if cls = 4 then 1 else if cls = 5 then 3 else 0)
    else 3
  else if g = 1 then
    if (0x1700000 ≤ a && a ≤ 0x17FFFFF) || (0x1600008 ≤ a && a ≤ 0x160000F) || (0x1600040 ≤ a && a ≤ 0x1600067) then
      (if cls = 4 || cls = 5 then 3 else if cls = 2 then 1 else 0)
    else 3
  else if g ≤ 17 then
    if 0x100000 ≤ a then 0 else if 0xF8000 ≤ a && cls = 0 then 0 else 3
  else 3

/-- Rights at byte `a` of gate g for a class (R487, R488, R492). -/
def Dev.rightsAt (d : Dev) (g cls : Nat) (fn : Option Nat) (a : Nat) : Nat :=
  let applying := (d.listed R.TGT_RGN_RIGHTS).filter (fun e =>
    e.1 / 64 == g && e.1 % 64 < gateRegions g && d.regionApplies e.1 e.2 fn a)
  let prog :=
    if applying.isEmpty then rightsFor (d.rd F.TGT_DEFAULT_RIGHTS g) cls
    else applying.foldl (fun x e => x &&& rightsFor (getBits e.2 0 12) cls) 3
  if cls = 5 && d.flag F.TGT_CFG_DBG_LOCK then 0 else prog &&& d.fixedRights g cls a

/-- R479: a software access to the pool area lies inside an SW buffer of its own; the debug port is not restricted. -/
def Dev.poolAllows (d : Dev) (cls : Nat) (fn : Option Nat) (a : Nat) : Bool :=
  if a < d.poolBase || d.poolBase + 2048 * d.poolBufs ≤ a || cls = 5 then true
  else Tbl.find d.dep.bufs ((a - d.poolBase) / 2048) == some (poolTag 4 (if cls = 4 then 1024 else fn.getD 1025) + 1)

/-- First bytes of the parts that regions can divide an access into (R489): regions are 64-byte aligned. -/
def gateParts (a len : Nat) : List Nat :=
  a :: (List.range ((a + len - 1) / 64 - a / 64)).map (fun k => (a / 64 + 1 + k) * 64)

/-- The first failing byte of an access at gate g, if it is denied (R489). `need` is 1 to read, 2 to write, 3 for both. -/
def Dev.gateFail (d : Dev) (g cls : Nat) (fn : Option Nat) (a len need : Nat) : Option Nat :=
  (gateParts a len).find? (fun b =>
    (d.rightsAt g cls fn b) &&& need != need || (g == 0 && !d.poolAllows cls fn b))

/-- A denial is counted, latched and reported (R489). -/
def Dev.deny (d : Dev) (g cls : Nat) (fn : Option Nat) (a : Nat) : Dev :=
  let d := ((d.bump F.TGT_DENY_COUNT).wr F.TGT_DENY_TARGET 0 g).wr F.TGT_DENY_CLASS 0 cls
  let d := d.wr F.TGT_DENY_FN 0 (if cls = 4 || cls = 5 then 0 else fn.getD 0)
  (d.setReg R.TGT_DENY_ADDR 0 (BitVec.ofNat 64 a)).fault 12

/-- c17 (R491): the base of the lowest-numbered enabled region of cluster c's gate that matches function fn. -/
def Dev.scratchBase (d : Dev) (c fn : Nat) : Nat :=
  match (d.listed R.TGT_RGN_RIGHTS).find? (fun e =>
    e.1 / 64 == c + 2 && e.1 % 64 < 32 && getBits e.2 23 1 == 1 && getBits e.2 12 1 == 1 && getBits e.2 13 10 == fn) with
  | some e => d.rd F.TGT_RGN_BASE_BASE e.1 * 64
  | none => 0

end Sys2Proof.Machine
end

