-- ==== Sys2Proof/Machine/Events.lean ====
section
/-! DEFINITION. Engine threads and program slots as every unit sees them: a thread's registers, waking a cluster (R19),
raising events (R79, R80, R134, R600). -/

namespace Sys2Proof.Machine

/-! ### Threads (R25 to R31) -/

def Dev.thr (d : Dev) (th : Nat) : Thread := Tbl.get d.eng.th {} th
def Dev.setThr (d : Dev) (th : Nat) (t : Thread) : Dev := { d with eng.th := Tbl.set {} th t d.eng.th }
def Dev.updThr (d : Dev) (th : Nat) (g : Thread → Thread) : Dev := d.setThr th (g (d.thr th))

/-- General register n; w0 reads as zero with tag 0 (R30). -/
def Thread.reg (t : Thread) (n : Nat) : TWord := if n = 0 then 0 else Tbl.get t.w 0 n
def Thread.setReg (t : Thread) (n : Nat) (v : TWord) : Thread := if n = 0 then t else { t with w := Tbl.set 0 n v t.w }
/-- Predicate n; p0 reads as 1 (R30). -/
def Thread.pred (t : Thread) (n : Nat) : Bool := n == 0 || t.p.getLsbD n
def Thread.setPred (t : Thread) (n : Nat) (b : Bool) : Thread :=
  if n = 0 then t else { t with p := if b then t.p ||| BitVec.ofNat 8 (2 ^ n) else t.p &&& ~~~BitVec.ofNat 8 (2 ^ n) }

def Dev.setW (d : Dev) (th n : Nat) (v : TWord) : Dev := d.updThr th (fun t => t.setReg n v)
/-- A result with tag 0. -/
def Dev.setVal (d : Dev) (th n : Nat) (v : Nat) : Dev := d.setW th n (BitVec.ofNat 72 (v % 2 ^ 64))

/-- The cluster of a thread identity; Basecamp cores count as cluster 16. -/
def clusterOf (th : Nat) : Nat := if th < 1024 then th / 64 else 16
/-- A Basecamp core. -/
def isCore (th : Nat) : Bool := 1024 ≤ th

/-- The parts of a code address (R68). -/
def pcIndex (pc : Word) : Nat := getBits pc 0 17
def pcSlot (pc : Word) : Nat := getBits pc 17 10
def pcVer (pc : Word) : Nat := getBits pc 27 8
def pcCmd (pc : Word) : Bool := getBits pc 35 1 == 1
def mkPc (idx slot ver : Nat) : Word := BitVec.ofNat 64 (idx % 2 ^ 17 + slot % 2 ^ 10 * 2 ^ 17 + ver % 2 ^ 8 * 2 ^ 27)
def mkCmdPc (idx : Nat) : Word := BitVec.ofNat 64 (idx % 2 ^ 17 + 2 ^ 35)

/-! ### Gating and waking (R19, R524) -/

/-- Cluster c is clock-gated or power-gated. -/
def Dev.gated (d : Dev) (c : Nat) : Bool :=
  getBits (d.reg R.PWR_DOM_STAT) c 1 == 1 || getBits (d.reg R.PWR_DOM_STAT) (16 + c) 1 == 1
def Dev.dmaGated (d : Dev) (c : Nat) : Bool :=
  getBits (d.reg R.PWR_DOM_STAT) (32 + c) 1 == 1 || getBits (d.reg R.PWR_DOM_STAT) (48 + c) 1 == 1

/-- R22 begins to hold of a part of unit u at this time (R524). -/
def Dev.rest (d : Dev) (u : Nat) : Dev := { d with eng.idleSince := Tbl.put u d.ps d.eng.idleSince }

/-- Unit u starts to wake: 0 to 15 engine clusters, 16 to 31 DMA clusters. -/
def Dev.wake (d : Dev) (u : Nat) : Dev :=
  let g := if u < 16 then d.gated u else d.dmaGated (u - 16)
  if g && !d.eng.waking.contains u then { d with eng.waking := d.eng.waking ++ [u] } else d

/-- A thread's part of it, as it stalls in ctr.wait, col.wait or pit.acq. -/
def Dev.restThr (d : Dev) (th : Nat) : Dev := if isCore th then d else d.rest (clusterOf th)
/-- A thread that goes on wakes its cluster (R22). -/
def Dev.wakeThr (d : Dev) (th : Nat) : Dev := if isCore th then d else d.wake (clusterOf th)

/-! ### Events -/

/-- Pending events of cluster c, oldest first. -/
def Dev.pendEv (d : Dev) (c : Nat) : List Event := Tbl.get d.eng.pend [] c

/-- Clusters that slot n's events may use (R80). -/
def Dev.slotClusters (d : Dev) (n : Nat) : List Nat :=
  let m := d.rd F.ENG_SLOT_CTL_CLUSTERS n
  (List.range 16).filter (fun c => m == 0 || m / 2 ^ c % 2 == 1)

/-- A thread of cluster c is waiting and takes no event already pending. -/
def Dev.hasIdle (d : Dev) (c : Nat) : Bool :=
  let busy := ((List.range 64).filter (fun t => (d.thr (c * 64 + t)).st != .wait || (d.thr (c * 64 + t)).active)).length
  (d.pendEv c).length + busy < 64

/-- Places in cluster c that arrival events have reserved (R175, R247). -/
def Dev.evHeld (d : Dev) (c : Nat) : Nat :=
  (d.rma.rx.filter (fun e => e.2.evRoom == some c)).length +
  (d.mtc.active.filter (fun e => e.2.evRoom == some c)).length +
  d.mtc.doms.foldl (fun n e => n + (e.2.waiting.filter (fun x => x.evRoom == some c)).length + (match e.2.writing with
    | some j => if j.rcd.evRoom = some c then 1 else 0
    | none => 0)) 0

/-- Cluster c has a place that no event has taken or reserved. -/
def Dev.evOpen (d : Dev) (c : Nat) : Bool := (d.pendEv c).length + d.evHeld c < 256

/-- The cluster that R80 gives an event of slot n, among those whose pending events are not full. Which of several warm
clusters is the device's choice; where none is warm with a waiting thread, the lowest-numbered with room is taken
(DESIGN CHOICE, log entry 36: R80 does not say whether the event waits for the lowest-numbered allowed one). -/
def Dev.chooseCluster (d : Dev) (n : Nat) : Dev × Option Nat :=
  let room := (d.slotClusters n).filter d.evOpen
  let warm := room.filter (fun c => !d.gated c && d.hasIdle c)
  if warm.isEmpty then (d, room.head?)
  else
    let (k, d) := d.pick warm.length
    (d, warm[k]?)

/-- An event is placed with a cluster; `false` where every allowed cluster is full. -/
def Dev.placeEvent (d : Dev) (e : Event) : Dev × Bool :=
  let (d, c) := d.chooseCluster e.slot
  match c with
  | none => (d, false)
  | some c => ({ d with eng.pend := Tbl.put c (d.pendEv c ++ [e]) d.eng.pend }.wake c, true)

/-- The events that wait in their units, oldest first: each takes the place that is open to it. -/
def Dev.lateGo (d : Dev) : Dev :=
  d.eng.late.foldl (fun d e =>
    let (d, ok) := d.placeEvent e
    if ok then d else { d with eng.late := d.eng.late ++ [e] }) { d with eng.late := [] }

/-- An event: it waits in the unit that raised it where no cluster has room (R80). -/
def Dev.raiseEvent (d : Dev) (e : Event) : Dev :=
  let (d, ok) := d.placeEvent e
  if ok then d else { d with eng.late := d.eng.late ++ [e] }

/-- A trap event that no instruction caused (R134, R600, R514): entry 0 of the function's trap slot, c12 = 5. Where
ENG_FN_TRAP.EN is 0 the event still takes a thread, which then stops (R78). -/
def Dev.trapEvent (d : Dev) (fn cause : Nat) (tval : Word) (acc : Option Nat) : Dev :=
  d.raiseEvent { slot := d.rd F.ENG_FN_TRAP_SLOT fn, entry := 0, fn := fn, kind := 5, w1 := BitVec.ofNat 64 cause,
                 w2 := tval, w3 := 0, w4 := 0, acc := acc }

/-- Trap causes of R74. -/
abbrev tcIllegal : Nat := 1
abbrev tcPrivilege : Nat := 2
abbrev tcAlign : Nat := 3
abbrev tcPoison : Nat := 4
abbrev tcXlt : Nat := 5
abbrev tcPage : Nat := 6
abbrev tcWindow : Nat := 7
abbrev tcGate : Nat := 8
abbrev tcBus : Nat := 9
abbrev tcSoftware : Nat := 10
abbrev tcMalformed : Nat := 11
abbrev tcCtl : Nat := 12
abbrev tcSlotOff : Nat := 13

/-! ### Reads that come back (R429, R435) -/

/-- The tag of the outstanding read that is for `why`. -/
def Dev.findRead (d : Dev) (why : Purpose) : Option Nat := (d.reads.find? (fun e => e.2.why == why)).map Prod.fst

/-- The last completion `cpl` of a read of `bytes` bytes (R429, R561); none where its requester had abandoned it. -/
def Dev.takeRead (d : Dev) (tag bytes : Nat) (cpl : Cpl) : Dev × Option HostRd :=
  match Tbl.find d.reads tag with
  | none => (d, none)
  | some r =>
    let p := r.fn / 256
    let d := { d with reads := Tbl.del tag d.reads }
    let d := if r.failed then d else
      ((match cpl with
        | .ok _ x => if x then (d.bump F.HST_PORT_ERR_POISON p).ev 10 2 (some p) (some r.fn) bytes
          else d.ev 10 2 (some p) (some r.fn) bytes
        | .err => d).ev 10 4 (some p) (some r.fn) ((d.ps - r.at_) / 1000)).ev 10 5 (some p) (some r.fn)
    if r.gone then (if d.halted then d else d.bump F.HST_PORT_ERR_CUT (r.fn / 256), none) else (d, some r)

end Sys2Proof.Machine

namespace Sys2Proof

/-- The data of a completion that is neither an error nor poisoned. -/
def Cpl.good : Cpl → Option Nat
  | .ok v false => some v
  | .ok _ true => none
  | .err => none

end Sys2Proof
end

