-- ==== Sys2Proof/Machine/Xlt.lean ====
section
/-! DEFINITION. Translation (R123 to R144): leaves and their rights, TLBs, the walk cache, walks, invalidation, ageing. -/

namespace Sys2Proof.Machine

/-- What a translation comes to. -/
inductive XRes where
  /-- The host bus address. -/
  | ok (addr : Nat)
  | fault
  /-- PAGE_STATE, with TVAL (R132). -/
  | page (tval : Word)
  /-- A walk is under way. -/
  | wait
deriving DecidableEq, Repr

/-- A translation or gate result as a unit uses it: the function whose host port the access takes. -/
def Dev.asidFn (d : Dev) (asid : Nat) : Nat := d.rd F.XLT_ASID_ROOT_OWNER_FN asid

/-- The leaf serves this address. -/
def Leaf.covers (l : Leaf) (va : Nat) : Bool := l.va ≤ va && va < l.va + 2 ^ l.bits

/-- Flag bit k of a leaf: R 0, W 1, X 2, U 3, S 4, A 5, D 6. -/
def Leaf.flag (l : Leaf) (k : Nat) : Bool := l.flags / 2 ^ k % 2 == 1

/-- R131: the privilege and kind bits. -/
def Leaf.allows (l : Leaf) (r : XReq) : Bool :=
  (if r.priv then l.flag 4 else l.flag 3) &&
  (match r.kind with
   | .read => l.flag 0
   | .write => l.flag 1
   | .exec => l.flag 2
   | .atomic => l.flag 0 && l.flag 1)

/-- R132: TVAL bits 62 and 63. -/
def Leaf.pageState (l : Leaf) (r : XReq) : Nat :=
  (if l.flag 5 then 0 else 2 ^ 62) + (if l.flag 6 || r.kind = .read || r.kind = .exec then 0 else 2 ^ 63)

/-! ### The caches (R135 to R137) -/

/-- U3-compatible mode, for an engine access. -/
def Dev.u3 (d : Dev) (r : XReq) : Bool := d.flag F.XLT_CFG_MODE && r.cluster.isSome

def Dev.l1 (d : Dev) (r : XReq) (c : Nat) : List Leaf :=
  if r.kind = .exec then Tbl.get d.xlt.l1i [] c else Tbl.get d.xlt.l1d [] c
def Dev.setL1 (d : Dev) (r : XReq) (c : Nat) (l : List Leaf) : Dev :=
  if r.kind = .exec then { d with xlt.l1i := Tbl.set [] c l d.xlt.l1i } else { d with xlt.l1d := Tbl.set [] c l d.xlt.l1d }

/-- The second-level cache that serves the request, and its entries. -/
def Dev.l2Of (d : Dev) (r : XReq) : List Leaf :=
  match r.cluster with
  | some c => if d.u3 r then Tbl.get d.xlt.part [] c else d.xlt.l2
  | none => d.xlt.l2
def Dev.setL2 (d : Dev) (r : XReq) (l : List Leaf) : Dev :=
  match r.cluster with
  | some c => if d.u3 r then { d with xlt.part := Tbl.set [] c l d.xlt.part } else { d with xlt.l2 := l }
  | none => { d with xlt.l2 := l }

/-- Sets of the second level: 4,096 of eight ways, and in U3-compatible mode, by the sizes of R137, 192 and 1,024 (DEDUCED,
log entry 11). -/
def Dev.l2Sets (d : Dev) (r : XReq) : Nat := if !d.flag F.XLT_CFG_MODE then 4096 else if d.u3 r then 192 else 1024

/-- The set of `n` that a leaf belongs to. -/
def Leaf.set (n : Nat) (e : Leaf) : Nat := Config.l2Set e.asid e.va e.bits % n

/-- An entry goes to the front of a list held most recently used first; of the entries that share its set `same`, the
least recently used makes room where there are `ways` of them (R135). -/
def addRecent {α : Type} [DecidableEq α] (ways : Nat) (same : α → Bool) (e : α) (l : List α) : List α :=
  if (l.filter same).length < ways then e :: l
  else match (l.filter same).getLast? with
    | some o => e :: l.erase o
    | none => e :: l

/-- A leaf joins a cache of `ways` entries a set. -/
def addLeaf (ways : Nat) (same : Leaf → Bool) (e : Leaf) (l : List Leaf) : List Leaf :=
  addRecent ways same e (l.filter (fun x => !(x.asid == e.asid && x.va == e.va && x.bits == e.bits)))

/-- A leaf joins the first level, fully associative, and the second. -/
def Dev.fillL1 (d : Dev) (r : XReq) (c : Nat) (e : Leaf) : Dev :=
  d.setL1 r c (addLeaf (if r.kind = .exec then 64 else 128) (fun _ => true) e (d.l1 r c))
def Dev.fillL2 (d : Dev) (r : XReq) (e : Leaf) : Dev :=
  let n := d.l2Sets r
  d.setL2 r (addLeaf 8 (fun x => x.set n == e.set n) e (d.l2Of r))

/-- The matching leaf of a list, which becomes the most recently used, with its age restarted. -/
def hitLeaf (asid va now : Nat) (l : List Leaf) : Option (Leaf × List Leaf) :=
  match l.find? (fun e => e.asid == asid && e.covers va) with
  | none => none
  | some e => let e' := { e with hit := now }; some (e', e' :: l.erase e)

/-- The flush of an address-space switch of cluster c (R137). Walks of the cluster in progress install nothing (R138). -/
def Dev.u3Flush (d : Dev) (c asid : Nat) : Dev :=
  let old := Tbl.get d.eng.u3asid 0 c
  { d with
    xlt.walks := d.xlt.walks.map (fun (e : Nat × Walk) =>
      if e.2.req.cluster = some c || e.2.req.asid = old || e.2.req.asid = asid then (e.1, { e.2 with stale := true }) else e)
    xlt.l1i := Tbl.set [] c [] d.xlt.l1i
    xlt.l1d := Tbl.set [] c [] d.xlt.l1d
    xlt.part := Tbl.set [] c [] d.xlt.part
    xlt.wc := d.xlt.wc.filter (fun e => e.asid != old && e.asid != asid)
    eng.u3asid := Tbl.set 0 c asid d.eng.u3asid }

/-- An access of cluster c in address space `asid` switches the cluster to it. -/
def Dev.u3Switch (d : Dev) (c asid : Nat) : Dev := if Tbl.get d.eng.u3asid 0 c = asid then d else d.u3Flush c asid

/-- The leaf that serves the request, from the first level that holds one. -/
def Dev.lookup (d : Dev) (r : XReq) : Dev × Option Leaf :=
  let level2 := fun (d : Dev) =>
    match hitLeaf r.asid r.va d.ps (d.l2Of r) with
    | some (e, l) => ((d.setL2 r l).ev 2 2, some e)
    | none => (d.ev 2 3, none)
  match r.cluster with
  | none => level2 d
  | some c =>
    match hitLeaf r.asid r.va d.ps (d.l1 r c) with
    | some (e, l) => (d.setL1 r c l, some e)
    | none =>
      let (d, e) := level2 (if r.kind = .exec then d.ev 2 0 (some c) else d.ev 2 1 (some c))
      match e with
      | none => (d, none)
      | some e => (d.fillL1 r c e, some e)

/-- The entry used is discarded (R132). -/
def Dev.dropLeaf (d : Dev) (r : XReq) (e : Leaf) : Dev :=
  let keep := fun (x : Leaf) => !(x.asid == e.asid && x.va == e.va && x.bits == e.bits)
  let d := d.setL2 r ((d.l2Of r).filter keep)
  match r.cluster with
  | some c => d.setL1 r c ((d.l1 r c).filter keep)
  | none => d

/-- Rights and page state of the leaf found (R131, R132). A speculative access reports nothing (R144). -/
def Dev.judgeLeaf (d : Dev) (r : XReq) (e : Leaf) (spec : Bool := false) : Dev × XRes :=
  if !e.allows r then (d, .fault)
  else
    let ps := e.pageState r
    if ps = 0 then (d, .ok ((e.out + (r.va - e.va)) % 2 ^ 64))
    else (if spec then d else (d.dropLeaf r e).ev 2 7, .page (BitVec.ofNat 64 (r.va + ps)))

/-! ### Walks (R127 to R130, R142, R144) -/

/-- The 9-bit index of level L. -/
def vaIndex (va lvl : Nat) : Nat := bitsOf va (12 + 9 * lvl) 9

/-- The address bits above those that the table of level `lvl` resolves. -/
def vaPrefix (va lvl : Nat) : Nat := va / 2 ^ (21 + 9 * lvl)

/-- The deepest level that the walk cache holds a table for. -/
def Dev.walkFrom (d : Dev) (r : XReq) : Option WalkEnt :=
  [0, 1, 2, 3].findSome? (fun lvl => d.xlt.wc.find? (fun e =>
    e.asid == r.asid && e.level == lvl && e.pre == vaPrefix r.va lvl))

/-- The read of a walk's next entry; a read that the function's cut suppresses fails at once (R435). -/
def Dev.walkRead (d : Dev) (id : Nat) (w : Walk) : Dev × XRes :=
  let (d, t) := d.hostRead w.fn (w.table + 8 * vaIndex w.req.va w.level) 8 (.walk id)
  match t with
  | none => ({ d with xlt.walks := Tbl.del id d.xlt.walks }, .fault)
  | some t => ({ (d.ev 2 4) with xlt.walks := Tbl.put id { w with tag := some t } d.xlt.walks }, .wait)

/-- Walk `id` begins from the deepest level that the walk cache holds; that entry becomes the most recently used. -/
def Dev.beginWalk (d : Dev) (id : Nat) (w : Walk) : Dev × XRes :=
  match d.walkFrom w.req with
  | some e =>
    { d with xlt.wc := { e with hit := d.ps } :: d.xlt.wc.erase e }.walkRead id { w with level := e.level, table := e.table }
  | none => d.walkRead id { w with level := 4, table := d.rd F.XLT_ASID_ROOT_ROOT w.req.asid * 2 ^ 12 }

/-- Walks in progress. -/
def Dev.walking (d : Dev) : Nat := (d.xlt.walks.filter (fun e => e.2.tag.isSome)).length

/-- A walk begins, or waits while 64 are in progress (R135); an address space that is not usable fails at once
(XLT_ASID_ROOT.EN). -/
def Dev.startWalk (d : Dev) (r : XReq) (work : Work) (spec : Bool) (owner : Nat) : Dev × XRes :=
  if !d.flag F.XLT_ASID_ROOT_EN r.asid then (d, .fault)
  else
    let id := d.nextTag
    let w : Walk := { req := r, work := work, level := 4, table := 0, fn := d.asidFn r.asid, spec := spec,
                      owner := owner, tag := none, partialOf := [] }
    if d.walking < 64 then d.beginWalk id w
    else ({ d with nextTag := id + 1, xlt.walks := Tbl.put id w d.xlt.walks }, .wait)

/-- A translated access: its address, a failure, or a walk with the work that waits for it. -/
def Dev.xlate (d : Dev) (r : XReq) (work : Work) (spec : Bool) (owner : Nat) : Dev × XRes :=
  if 2 ^ 57 ≤ r.va then (d, .fault)
  else
    let d := match r.cluster with
      | some c => if d.u3 r then d.u3Switch c r.asid else d
      | none => d
    let (d, e) := d.lookup r
    match e with
    | some e => d.judgeLeaf r e spec
    | none => d.startWalk r work spec owner

/-- Range covered by an invalidation against an entry's range (R141). -/
def Inval.hits (v : Inval) (asid lo size : Nat) : Bool :=
  v.kind == 2 || (asid == v.asid && (v.kind == 1 || (lo < v.addr + v.size && v.addr < lo + size)))

/-- What a partial walk may not install (R142), or one that an address-space switch has passed (R138). -/
def Dev.barred (d : Dev) (w : Walk) (lo size : Nat) : Bool :=
  w.stale || w.partialOf.any (fun e => (Tbl.get d.xlt.inv [] e.1).any (fun v =>
    v.ticket == e.2 && v.hits w.req.asid lo size))

/-- The set of the walk cache that an entry belongs to. -/
def WalkEnt.set (e : WalkEnt) : Nat := Config.walkSet e.asid e.level e.pre % 1024

/-- A non-leaf entry joins the walk cache: 1,024 sets of four ways. -/
def Dev.addWalkEnt (d : Dev) (e : WalkEnt) : Dev :=
  let l := d.xlt.wc.filter (fun x => !(x.asid == e.asid && x.level == e.level && x.pre == e.pre))
  { d with xlt.wc := addRecent 4 (fun x => x.set == e.set) e l }

/-- The table that a walk has found for level `lvl` joins the walk cache, where it may (R138, R142). -/
def Dev.tableEntry (d : Dev) (w : Walk) (lvl table : Nat) : Dev :=
  let size := 2 ^ (21 + 9 * lvl)
  if d.barred w (w.req.va / size * size) size then d
  else d.addWalkEnt { asid := w.req.asid, level := lvl, pre := vaPrefix w.req.va lvl, table := table, hit := d.ps }

/-- The leaf that a level's entry gives, or none where it is not a usable leaf (R128 to R130). -/
def leafOf (asid va lvl e now : Nat) : Option Leaf :=
  let ps64 := bitsOf e 10 1 == 1
  let cont := bitsOf e 9 1 == 1
  let bits := if lvl = 2 then 30 else if lvl = 1 then 21 else if ps64 then 16 else 12
  let addr := e / 2 ^ 12 * 2 ^ 12
  if 3 ≤ lvl || (lvl != 0 && ps64) || addr % 2 ^ bits != 0 then none
  else
    -- The group of a CONT leaf translates from the one entry walked.
    let gbits := if lvl = 0 && cont then bits + 4 else bits
    let base := va / 2 ^ gbits * 2 ^ gbits
    let off := va / 2 ^ bits * 2 ^ bits - base
    some { asid := asid, va := base, bits := gbits, out := (addr + 2 ^ 64 - off) % 2 ^ 64, flags := bitsOf e 2 7, hit := now }

/-- A walk read of `id` ends: the walk goes on, or its request's result with the work that waits. A speculative walk
that fails leaves nothing and its work gets no result but `fault`. -/
def Dev.walkStep (d : Dev) (id : Nat) (cpl : Cpl) : Dev × Option (Walk × XRes) :=
  match Tbl.find d.xlt.walks id with
  | none => (d, none)
  | some w =>
    match w.tag with
    | none => (d, none)
    | some tag =>
      let (d, r) := d.takeRead tag 8 cpl
      let d0 := { d with xlt.walks := Tbl.del id d.xlt.walks }
      match r with
      | none => (d0, none)
      | some _ =>
        match cpl.good with
        | none => (d0, some (w, .fault))
        | some e =>
          if e % 2 = 0 then (d0, some (w, .fault))
          else if bitsOf e 1 1 = 0 then
            if w.level = 0 then (d0, some (w, .fault))
            else
              let lvl := w.level - 1
              let table := bitsOf e 12 52 * 2 ^ 12
              let d := if w.spec then d else d.tableEntry w lvl table
              if w.work = .table && lvl = 0 then (d0.tableEntry w lvl table, some (w, .ok 0))
              else
                let (d, x) := d.walkRead id { w with level := lvl, table := table, tag := none }
                (d, if x = .wait then none else some (w, x))
          else if w.work = .table then (d0, some (w, .ok 0))
          else match leafOf w.req.asid w.req.va w.level (e % 2 ^ 64) d.ps with
            | none => (d0, some (w, .fault))
            | some l =>
              let bar := d0.barred w l.va (2 ^ l.bits)
              let (d1, res) := d0.judgeLeaf w.req l w.spec
              match res with
              | .ok _ =>
                if bar then (d1, some (w, res))
                else
                  let d2 := d1.fillL2 w.req l
                  match w.req.cluster with
                  | some c => (d2.fillL1 w.req c l, some (w, res))
                  | none => (d2, some (w, res))
              | .fault => (d1, some (w, res))
              | .page _ => (d1, some (w, res))
              | .wait => (d1, some (w, res))

/-- After a walk that a demand access needed, the walk cache may look for the next table: whether it does, is the device's
choice (R144; log entry 1). -/
def Dev.tableAhead (d : Dev) (w : Walk) (x : XRes) : Dev :=
  match x with
  | .ok _ =>
    let (k, d) := d.pick 2
    let r := { w.req with va := (w.req.va / 2 ^ 21 + 1) * 2 ^ 21 }
    if k = 0 || w.spec || 2 ^ 57 ≤ r.va || 64 ≤ d.walking ||
       d.xlt.wc.any (fun e => e.asid == r.asid && e.level == 0 && e.pre == vaPrefix r.va 0) then d
    else match d.startWalk r .table true w.owner with
      | (d, .fault) => d.ev 2 5
      | (d, _) => d
  | .fault => d
  | .page _ => d
  | .wait => d

/-! ### Ageing and invalidation (R136, R141 to R143) -/

/-- The age limit in ps. -/
def Dev.ageLimit (d : Dev) : Nat :=
  let k := d.rd F.XLT_CFG_AGE_LIMIT
  if k = 1 then usPs 100 else if k = 2 then msPs 1 else if k = 3 then msPs 10 else msPs 100

/-- The entry of a list that has gone longest without a hit. -/
def oldestBy {α : Type} (hit : α → Nat) (l : List α) : Option α :=
  l.foldl (fun b e => match b with
    | none => some e
    | some x => if hit e < hit x then some e else b) none

/-- Leaves of the second level that serve an address, with the cluster of a U3-compatible partition. -/
def Dev.l2Leaves (d : Dev) (asid va : Nat) : List (Option Nat × Leaf) :=
  let mine := fun (e : Leaf) => e.asid == asid && e.covers va
  (d.xlt.l2.filter mine).map (fun e => (none, e)) ++
    d.xlt.part.flatMap (fun p => (p.2.filter mine).map (fun e => (some p.1, e)))

/-- TLB_AGE_RELEASE: of the L2 or walk-cache entries of this address, the one longest without a hit, once that is the age
limit. -/
def Dev.ageRelease (d : Dev) (asid va : Nat) (walkCache : Bool) : Dev :=
  if d.rd F.XLT_CFG_AGE_LIMIT = 0 then d
  else if walkCache then
    match oldestBy WalkEnt.hit (d.xlt.wc.filter (fun e => e.asid == asid && e.pre == vaPrefix va e.level)) with
    | none => d
    | some e => { d.advanceTo (e.hit + d.ageLimit) with xlt.wc := d.xlt.wc.erase e }
  else
    match oldestBy (fun e => e.2.hit) (d.l2Leaves asid va) with
    | none => d
    | some (none, e) => { d.advanceTo (e.hit + d.ageLimit) with xlt.l2 := d.xlt.l2.erase e }
    | some (some c, e) =>
      { d.advanceTo (e.hit + d.ageLimit) with xlt.part := Tbl.set [] c ((Tbl.get d.xlt.part [] c).erase e) d.xlt.part }

/-- Every cached entry within an invalidation is cleared. -/
def Dev.clearCaches (d : Dev) (v : Inval) : Dev :=
  let keep := fun (e : Leaf) => !v.hits e.asid e.va (2 ^ e.bits)
  -- Untagged partitions of U3-compatible mode hold entries of the cluster's current address space.
  let all := fun (t : Tbl (List Leaf)) => (t.map (fun (x : Nat × List Leaf) => (x.1, x.2.filter keep))).filter (fun x => !x.2.isEmpty)
  { d with
    xlt.l1i := all d.xlt.l1i
    xlt.l1d := all d.xlt.l1d
    xlt.part := all d.xlt.part
    xlt.l2 := d.xlt.l2.filter keep
    xlt.wc := if v.walk || v.kind != 0 then
        d.xlt.wc.filter (fun e => let s := 2 ^ (21 + 9 * e.level); !v.hits e.asid (e.pre * s) s)
      else d.xlt.wc }

def Dev.invals (d : Dev) (p : Nat) : List Inval := Tbl.get d.xlt.inv [] p
def Dev.setInvals (d : Dev) (p : Nat) (l : List Inval) : Dev := { d with xlt.inv := Tbl.set [] p l d.xlt.inv }

/-- Reads whose completion an invalidation accepted now waits for: those under way with a translated address (R143). -/
def Dev.readsOut (d : Dev) : List Nat :=
  (d.reads.filter (fun e => match e.2.why with
    | .load _ _ => true
    | .imem _ => true
    | .imemPre _ _ _ _ => true
    | .walk _ => false
    | .wqFetch _ => true
    | .wqPre _ _ _ => true
    | .own _ _ _ => true
    | .flushInv _ _ _ => false
    | .flushRevoke _ _ => false
    | .flushReq _ => false
    | .flushFence _ => false)).map Prod.fst

/-- An invalidation is accepted on port p: its caches clear and walks in progress become partial. -/
def Dev.invalidate (d : Dev) (p kind asid sizeLog2 : Nat) (walk : Bool) : Dev :=
  let t := (d.rd F.XLT_INV_STAT_ISSUED p + 1) % 2 ^ 32
  let d := d.wr F.XLT_INV_STAT_ISSUED p t
  let bad := sizeLog2 < 12 || 57 < sizeLog2
  let kind := if kind = 0 && bad then 1 else kind
  let size := 2 ^ sizeLog2
  let addr := d.rd F.XLT_INV_ADDR_ADDR p * 2 ^ 12 / size * size
  let v : Inval := { ticket := t, asid := asid, addr := addr, size := size, kind := kind, walk := walk,
                     older := d.readsOut, issued := false, reads := [] }
  let d := (d.clearCaches v).setInvals p (d.invals p ++ [v])
  { d with
    xlt.walks := d.xlt.walks.map (fun (e : Nat × Walk) =>
      if e.2.tag.isNone then e else (e.1, { e.2 with partialOf := e.2.partialOf ++ [(p, t)] })) }

/-- Reads that an access makes with the address of a partial walk are among those that its invalidations wait for: `l` names
them by port and ticket, the reads have tags from `n` on. -/
def Dev.invJoin (d : Dev) (l : List (Nat × Nat)) (n : Nat) : Dev :=
  let new := d.readsOut.filter (fun t => n ≤ t)
  l.foldl (fun d e => d.setInvals e.1 ((d.invals e.1).map (fun v =>
    if v.ticket = e.2 then { v with older := v.older ++ new } else v))) d

/-- DONE takes tickets in order (R143). -/
def Dev.invRetire (d : Dev) (p : Nat) : Nat → Dev
  | 0 => d
  | n + 1 =>
    match d.invals p with
    | v :: rest =>
      if v.issued && v.reads.isEmpty && !v.older.any (Tbl.has d.reads) then
        (((d.wr F.XLT_INV_STAT_DONE p v.ticket).setInvals p rest).ev 2 8).invRetire p n
      else d
    | [] => d

/-- Invalidations that waited only for a read that has ended complete (R143). -/
def Dev.invPoll (d : Dev) : Dev := [0, 1, 2, 3].foldl (fun d p => d.invRetire p (d.invals p).length) d

/-- Read t is an atomic's, whose write is still to follow it. -/
def Dev.amoReads (d : Dev) (t : Nat) : Bool :=
  match Tbl.find d.reads t with
  | some r => match r.why with
    | .own (.amo _) _ _ => true
    | _ => false
  | none => false

/-- XLT_INV_FLUSH_ISSUE: the oldest invalidation of port p whose partial walks, and the atomics that had read their words,
have all finished issues a flush read on each link of the port that may have a posted write ahead (R142, R143, R599). -/
def Dev.invFlush (d : Dev) (p : Nat) : Dev :=
  match (d.invals p).find? (fun v => !v.issued) with
  | none => d
  | some v =>
    if d.xlt.walks.any (fun e => e.2.partialOf.contains (p, v.ticket)) || v.older.any d.amoReads then d
    else
      let links := if d.bifurcated p then [0, 1] else [0]
      let step := fun (acc : Dev × List Nat) (l : Nat) =>
        match acc.1.flushAny (p * 2 + l) with
        | none => acc
        | some (f, a) =>
          let (d, t) := acc.1.hostRead f a 0 (.flushInv p v.ticket l)
          (d, match t with | some t => acc.2 ++ [t] | none => acc.2)
      let (d, ts) := links.foldl step (d, [])
      let d := d.setInvals p ((d.invals p).map (fun x => if x.ticket = v.ticket then { x with issued := true, reads := ts } else x))
      d.invRetire p (d.invals p).length

/-- The oldest outstanding flush read of port p's link for an invalidation: its tag and the ticket. -/
def Dev.findFlush (d : Dev) (p link : Nat) : Option (Nat × Nat) :=
  d.reads.findSome? (fun e => match e.2.why with
    | .flushInv q t l => if q = p && l = link && !e.2.gone then some (e.1, t) else none
    | _ => none)

/-- Flush read `tag` of port p's invalidation with ticket t ends. An error completion ends the wait as any completion does
(R599). -/
def Dev.invEnd (d : Dev) (p t tag : Nat) (cpl : Cpl) : Dev :=
  let (d, _) := d.takeRead tag 0 cpl
  let d := d.setInvals p ((d.invals p).map (fun x => if x.ticket = t then { x with reads := x.reads.erase tag } else x))
  d.invRetire p (d.invals p).length

/-- XLT_INV_DONE: a flush read of port p's link completes. -/
def Dev.invDone (d : Dev) (p link : Nat) (cpl : Cpl) : Dev :=
  match d.findFlush p link with
  | none => d
  | some (tag, t) => d.invEnd p t tag cpl

end Sys2Proof.Machine
end

