-- ==== Sys2Proof/Machine/Win.lean ====
section
/-! DEFINITION. Windows (R145 to R157): handles, the checks of a use, accesses through a window, opening and revoking. -/

namespace Sys2Proof.Machine

def handleIdx (h : Nat) : Nat := h / 4096 % 2 ^ 20
def handleGen (h : Nat) : Nat := h % 4096

def Dev.win_ (d : Dev) (idx : Nat) : Win := Tbl.get d.win.wins {} idx
def Dev.setWin (d : Dev) (idx : Nat) (w : Win) : Dev := { d with win.wins := Tbl.set {} idx w d.win.wins }
/-- The window that a handle names, whatever its state. -/
def Dev.winOf (d : Dev) (h : Nat) : Win := d.win_ (handleIdx h)

/-- Rights of R149, as bits of `Win.rights`. -/
abbrev rLR : Nat := 0
abbrev rLW : Nat := 1
abbrev rRR : Nat := 2
abbrev rRW : Nat := 3
abbrev rRA : Nat := 4

/-- WIN_INVALID, WIN_STALE, WIN_REVOKED of R147. -/
def Dev.winLive (d : Dev) (h : Nat) : Nat :=
  let w := d.winOf h
  if handleGen h = 0 || w.state = .free then Status.WIN_INVALID
  else if w.gen != handleGen h then Status.WIN_STALE
  else if w.state = .revoking then Status.WIN_REVOKED
  else 0

/-- The checks of a use in the order of R147, `peer` being R148's answer; 0 where all pass. -/
def Dev.winCheck (d : Dev) (h : Nat) (peer : Win → Bool) (right off len : Nat) : Nat :=
  let w := d.winOf h
  if d.winLive h != 0 then d.winLive h
  else if !peer w then Status.WIN_PEER
  else if w.rights / 2 ^ right % 2 = 0 then Status.WIN_RIGHTS
  else if w.len < off + len then Status.WIN_BOUNDS
  else 0

/-- A local use (R148). -/
def localPeer (fn : Nat) (priv : Bool) (w : Win) : Bool := priv || w.owner == fn

/-- A remote request (R148). -/
def remotePeer (dev fn : Nat) (w : Win) : Bool :=
  match w.peerMode with
  | 0 => true
  | 1 => fn == w.owner
  | 2 => dev * 1024 + fn == w.peer
  | _ => false

/-- The look-up of a handle's entry: a miss of the 16,384-entry window cache costs one Depot read (R146). Which entry makes
room is the device's choice (log entry 11). -/
def Dev.winLook (d : Dev) (h : Nat) : Dev :=
  let i := handleIdx h
  if handleGen h = 0 || d.win.cache.contains i then d
  else
    let d := ((d.ev 3 2).ev 11 0).depWake
    if d.win.cache.length < 16384 then { d with win.cache := i :: d.win.cache }
    else
      let (k, d) := d.pick 16384
      { d with win.cache := i :: d.win.cache.eraseIdx k }

/-- A failed check is counted. -/
def Dev.winFail (d : Dev) (st : Nat) : Dev := if st = 0 then d else d.ev 3 4

/-- A use of a window: its look-up and its checks, with a failure counted. -/
def Dev.winUse (d : Dev) (h : Nat) (peer : Win → Bool) (right off len : Nat) : Dev × Nat :=
  let st := d.winCheck h peer right off len
  ((d.winLook h).winFail st, st)

/-! ### Accesses through a window -/

/-- The function whose host port the access takes (R124). -/
def Dev.winFn (d : Dev) (w : Win) : Nat := if w.phys then w.owner else d.asidFn w.asid

/-- The access of a unit that meets PAGE_STATE waits for the event of the owning function (R134, R600). -/
def Dev.pageWait (d : Dev) (r : XReq) (work : Work) (fn : Nat) (tval : Word) : Dev :=
  let id := d.nextTag
  { d with nextTag := id + 1, xlt.waits := Tbl.put id (r, work, fn, false) d.xlt.waits }.trapEvent fn tcPage tval (some id)

/-- Gate need of an access kind: bit 0 read, bit 1 write. -/
def kindNeed (k : Kind) : Nat :=
  match k with
  | .read => 1
  | .write => 2
  | .exec => 1
  | .atomic => 3

/-- The address of a window access that does not cross a page: translated, or checked at the host output gate (R489). -/
def Dev.winAddr (d : Dev) (h off len : Nat) (k : Kind) (work : Work) : Dev × XRes :=
  let w := d.winOf h
  if w.phys then
    let a := (w.base + off) % 2 ^ 64
    let g := 18 + w.owner / 256
    match d.gateFail g 1 (some w.owner) a len (kindNeed k) with
    | some b => (d.deny g 1 (some w.owner) b, .fault)
    | none => (d, .ok a)
  else
    let r : XReq := { asid := w.asid, va := w.base + off, kind := k, priv := d.isPf w.owner }
    let (d, x) := d.xlate r work false w.owner
    match x with
    | .ok a => (d, .ok a)
    | .fault => (d.ev 2 6 none (some w.owner), .fault)
    | .page tv => (d.pageWait r work w.owner tv, .page tv)
    | .wait => (d, .wait)

/-- Parts of an access that stay within 4 KiB pages and `most` bytes: offset from its start, and length. -/
def pageParts (a most : Nat) : Nat → Nat → List (Nat × Nat)
  | 0, _ => []
  | _, 0 => []
  | fuel + 1, len =>
    let n := min (min len most) (4096 - a % 4096)
    (0, n) :: (pageParts (a + n) most fuel (len - n)).map (fun e => (e.1 + n, e.2))

/-- The address by which a window's pages are divided. -/
def Dev.winVa (d : Dev) (h off : Nat) : Nat := (d.winOf h).base + off

/-- How a window access stands. -/
inductive AccRes where
  | done
  | wait
  | fail (status : Nat)
deriving DecidableEq, Repr

/-- What unit `own` writes holds a poisoned word (R482). -/
def Dev.ownEp (d : Dev) (own : Own) : Bool :=
  match own with
  | .uxCopy f id => ((Tbl.get d.mtc.doms {} f).ux.find? (fun u => u.id == id)).any (fun u => u.bad)
  | _ => false

/-- A write through a window by the unit `own`, within one page. -/
def Dev.winWrite (d : Dev) (own : Own) (h off len data : Nat) (ro : Bool := false) : Dev × AccRes :=
  let fn := d.winFn (d.winOf h)
  let (d, x) := d.winAddr h off len .write (.accW own data len ro)
  match x with
  | .ok a => (d.hostWrite fn a len data ro (d.ownEp own), .done)
  | .fault => (d, .fail Status.WIN_XLT)
  | .page _ => (d, .wait)
  | .wait => (d, .wait)

/-- A read through a window by the unit `own`, within one page; `pos` says which bytes of the unit's access they are. -/
def Dev.winRead (d : Dev) (own : Own) (h off len pos : Nat) : Dev × AccRes :=
  let fn := d.winFn (d.winOf h)
  let (d, x) := d.winAddr h off len .read (.accR own pos len)
  match x with
  | .ok a =>
    let (d, t) := d.hostRead fn a len (.own own pos len)
    (d, if t.isSome then .wait else .fail Status.HOST_ERROR)
  | .fault => (d, .fail Status.WIN_XLT)
  | .page _ => (d, .wait)
  | .wait => (d, .wait)

/-- Writes of `len` bytes through a window, part by part until one fails; how many wait for a translation. -/
def Dev.winWriteAll (d : Dev) (own : Own) (h off len data : Nat) (ro : Bool := false) : Dev × Nat × Nat :=
  (pageParts (d.winVa h off) 4096 (len + 1) len).foldl (fun (acc : Dev × Nat × Nat) e =>
    if acc.2.2 != 0 then acc
    else
      let (d, r) := acc.1.winWrite own h (off + e.1) e.2 (bitsOf data (8 * e.1) (8 * e.2)) ro
      match r with
      | .done => (d, acc.2.1, 0)
      | .wait => (d, acc.2.1 + 1, 0)
      | .fail s => (d, acc.2.1, s)) (d, 0, 0)

/-- Reads of `len` bytes through a window, part by part until one fails; how many are to come, and the failure. -/
def Dev.winReadAll (d : Dev) (own : Own) (h off len : Nat) : Dev × Nat × Nat :=
  (pageParts (d.winVa h off) 4096 (len + 1) len).foldl (fun (acc : Dev × Nat × Nat) e =>
    if acc.2.2 != 0 then acc
    else
      let (d, r) := acc.1.winRead own h (off + e.1) e.2 e.1
      match r with
      | .done => (d, acc.2.1 + 1, 0)
      | .wait => (d, acc.2.1 + 1, 0)
      | .fail s => (d, acc.2.1, s)) (d, 0, 0)

/-! ### Opening (R151 to R153) -/

/-- Windows OPEN or REVOKING, of a function or of the device, and their bytes. -/
def Dev.winLiveList (d : Dev) : List (Nat × Win) := d.win.wins.filter (fun e => e.2.state != .free)
def Dev.winCount (d : Dev) (fn : Option Nat) : Nat :=
  (d.winLiveList.filter (fun e => fn == none || fn == some e.2.owner)).length
def Dev.winBytes (d : Dev) : Nat := d.winLiveList.foldl (fun n e => n + e.2.len) 0

/-- An outcome in WIN_FN_RESULT. -/
def Dev.winResult (d : Dev) (f busy st v : Nat) : Dev :=
  ((d.wr F.WIN_FN_RESULT_BUSY f busy).wr F.WIN_FN_RESULT_STATUS f st).wr F.WIN_FN_RESULT_VALUE f v

/-- A write of WIN_FN_CMD while a command is in progress is discarded and counted (R153). -/
def Dev.winBusy (d : Dev) (f : Nat) : Dev := d.ev 3 3 none (some f)

/-- WIN_OPEN: the arguments are taken; a command while BUSY is discarded and counted. -/
def Dev.winOpen (d : Dev) (f : Nat) : Dev :=
  if d.halted then d
  else if d.flag F.WIN_FN_RESULT_BUSY f then d.winBusy f
  else
    let a := fun r => (d.reg r f).toNat
    { d with win.busy := Tbl.put f (a R.WIN_FN_ARG0, a R.WIN_FN_ARG1, a R.WIN_FN_ARG2) d.win.busy }.winResult f 1 0 0

/-- The check of an open that fails first (R151, R152); 0 where it succeeds. -/
def Dev.openCheck (d : Dev) (f base lenM1 a2 : Nat) : Nat :=
  let phys := bitsOf a2 23 1 == 1
  let asid := bitsOf a2 0 16
  let top := base + lenM1 + 1
  if (phys && !d.isPf f) || (!phys && 2 ^ 57 ≤ base) || (if phys then 2 ^ 64 else 2 ^ 57) < top ||
     bitsOf a2 16 5 = 0 then Status.WIN_ARG
  else if !phys && (!d.flag F.XLT_ASID_ROOT_EN asid || d.asidFn asid != f) then Status.WIN_ASID
  else if d.rd F.WIN_FN_QUOTA_MAX_OPEN f ≤ d.winCount (some f) || 2 ^ 20 ≤ d.winCount none ||
     (2 ^ 20 ≤ d.win.head && d.win.freed.isEmpty) || 2 ^ 50 < d.winBytes + lenM1 + 1 then Status.WIN_NOSPACE
  else 0

/-- The index at the head of the free list (R145). -/
def Dev.takeIndex (d : Dev) : Dev × Nat :=
  if d.win.head < 2 ^ 20 then ({ d with win.head := d.win.head + 1 }, d.win.head)
  else ({ d with win.freed := d.win.freed.tail }, d.win.freed.headD 0)

def Dev.revokesOf (d : Dev) (f : Nat) : List Revoke := Tbl.get d.win.revokes [] f
def Dev.setRevokes (d : Dev) (f : Nat) (l : List Revoke) : Dev := { d with win.revokes := Tbl.set [] f l d.win.revokes }

/-- Window `idx` becomes REVOKING under the next ticket of its owner (R154). -/
def Dev.revokeIdx (d : Dev) (idx : Nat) : Dev × Nat :=
  let w := d.win_ idx
  let t := (d.rd F.WIN_FN_REVOKE_ISSUED w.owner + 1) % 2 ^ 32
  let d := (d.setWin idx { w with state := .revoking }).wr F.WIN_FN_REVOKE_ISSUED w.owner t
  let lim := clampTo 5 5000 (d.rd F.WIN_CFG_DRAIN_LIMIT)
  ((d.setRevokes w.owner (d.revokesOf w.owner ++
    [{ idx := idx, ticket := t, start := d.ps, limit := usPs lim }])).ev 3 1 none (some w.owner), t)

/-- WIN_OPEN_DONE. -/
def Dev.winOpenDone (d : Dev) (f : Nat) : Dev :=
  match Tbl.find d.win.busy f with
  | none => d
  | some (base, a1, a2) =>
    let d := { d with win.busy := Tbl.del f d.win.busy }
    let lenM1 := a1 % 2 ^ 48
    let st := d.openCheck f base lenM1 a2
    let late := Tbl.get d.win.revokeOnOpen false f
    let d := { d with win.revokeOnOpen := Tbl.del f d.win.revokeOnOpen }
    if st != 0 then d.winResult f 0 st 0
    else
      let (d, idx) := d.takeIndex
      let gen := (d.win_ idx).gen % 4095 + 1
      let w : Win := { state := .opened, gen := gen, base := base, len := lenM1 + 1, phys := bitsOf a2 23 1 == 1,
                       asid := bitsOf a2 0 16, owner := f, rights := bitsOf a2 16 5, peerMode := bitsOf a2 21 2,
                       peer := bitsOf a2 24 28 }
      let d := (((d.setWin idx w).winResult f 0 0 (idx * 4096 + gen))).ev 3 0 none (some f)
      if late then (d.revokeIdx idx).1 else d

/-! ### Revoking (R154 to R157) -/

/-- WIN_REVOKE. -/
def Dev.winRevoke (d : Dev) (f h : Nat) : Dev :=
  if d.halted then d
  else if d.flag F.WIN_FN_RESULT_BUSY f then d.winBusy f
  else if d.winLive h != 0 then d.winResult f 0 (d.winLive h) 0
  else if (d.winOf h).owner != f then d.winResult f 0 Status.WIN_PEER 0
  else
    let (d, t) := d.revokeIdx (handleIdx h)
    d.winResult f 0 0 t

/-- A function entering DRAINING revokes its open windows (R157); the order among them is ascending. -/
def Dev.revokeAll (d : Dev) (f : Nat) : Dev :=
  let d := if Tbl.has d.win.busy f then { d with win.revokeOnOpen := Tbl.put f true d.win.revokeOnOpen } else d
  (d.win.wins.filter (fun e => e.2.state == .opened && e.2.owner == f)).foldl (fun d e => (d.revokeIdx e.1).1) d

def Dev.updRevoke (d : Dev) (f t : Nat) (g : Revoke → Revoke) : Dev :=
  d.setRevokes f ((d.revokesOf f).map (fun r => if r.ticket = t then g r else r))

/-- DONE takes tickets in order (R156). -/
def Dev.revokeRetire (d : Dev) (f : Nat) : Nat → Dev
  | 0 => d
  | n + 1 =>
    match d.revokesOf f with
    | r :: rest => if r.done then ((d.wr F.WIN_FN_REVOKE_DONE f r.ticket).setRevokes f rest).revokeRetire f n else d
    | [] => d

/-- WIN_REVOKE_FREE: the flush read has completed, or none was needed. -/
def Dev.revokeFree (d : Dev) (f t : Nat) (cpl : Cpl) : Dev :=
  match (d.revokesOf f).find? (fun r => r.ticket == t) with
  | none => d
  | some r =>
    if r.done then d
    else
      let (d, ready) := match r.flush with
        | some tag => let (d, x) := d.takeRead tag 0 cpl; (d, x.isSome || !Tbl.has d.reads tag)
        | none => (d, r.flushed)
      if !ready then d
      else
        let w := d.win_ r.idx
        let d := d.setWin r.idx { gen := w.gen }
        let d := { d with win.freed := d.win.freed ++ [r.idx] }
        let d := d.updRevoke f t (fun r => { r with done := true, flush := none, flushed := true })
        d.revokeRetire f (d.revokesOf f).length

/-- The flush read of a revoke whose uses are over (R155). -/
def Dev.revokeFlush (d : Dev) (f t : Nat) (open_ : Bool) : Dev :=
  match (d.revokesOf f).find? (fun r => r.ticket == t) with
  | none => d
  | some r =>
    if r.flushed || r.flush.isSome || (open_ && !r.cancelled) then d
    else match d.flushAddr f with
      | none => d.updRevoke f t (fun r => { r with flushed := true })
      | some a =>
        let (d, tag) := d.hostRead f a 0 (.flushRevoke f t)
        d.updRevoke f t (fun r => match tag with | some x => { r with flush := some x } | none => { r with flushed := true })

end Sys2Proof.Machine
end

