-- ==== Sys2Proof/Machine/Wq.lean ====
section
/-! DEFINITION. Work queues (chapter 03): entries and their completion, the status record, error stop, doorbells and pushes. -/

namespace Sys2Proof.Machine

/-- Queue states of WQ_CTX_CTL.STATE. -/
abbrev qsOff : Nat := 0
abbrev qsEnabling : Nat := 1
abbrev qsRun : Nat := 2
abbrev qsHold : Nat := 3
abbrev qsDraining : Nat := 4
abbrev qsError : Nat := 5

/-- Causes of R117. -/
abbrev qeMalformed : Nat := 1
abbrev qeFetch : Nat := 2
abbrev qeOverrun : Nat := 3
abbrev qeDoubleTrap : Nat := 4
abbrev qeStatus : Nat := 5
abbrev qeHandlerStop : Nat := 6
abbrev qeCfg : Nat := 7

def Dev.qst (d : Dev) (q : Nat) : Nat := d.rd F.WQ_CTX_CTL_STATE q
def Dev.queue (d : Dev) (q : Nat) : Queue := Tbl.get d.wq.qs {} q
def Dev.setQueue (d : Dev) (q : Nat) (x : Queue) : Dev := { d with wq.qs := Tbl.set {} q x d.wq.qs }
def Dev.updQueue (d : Dev) (q : Nat) (g : Queue → Queue) : Dev := d.setQueue q (g (d.queue q))
def Dev.qFn (d : Dev) (q : Nat) : Nat := d.rd F.WQ_CTX_CFG_FN q
def Dev.qProd (d : Dev) (q : Nat) : Nat := d.rd F.WQ_CTX_PROD_SEQ_PROD q
def Dev.qDisp (d : Dev) (q : Nat) : Nat := d.rd F.WQ_CTX_DISP_SEQ_DISP q
def Dev.qComp (d : Dev) (q : Nat) : Nat := d.rd F.WQ_CTX_COMP_SEQ_COMP q
/-- N. -/
def Dev.qSize (d : Dev) (q : Nat) : Nat := 2 ^ d.rd F.WQ_CTX_RING_LOG2_SIZE q
/-- a - b modulo 2^32 (R89). -/
def seqSub (a b : Nat) : Nat := (a % 2 ^ 32 + 2 ^ 32 - b % 2 ^ 32) % 2 ^ 32

def Queue.ent (x : Queue) (s : Nat) : Entry := Tbl.get x.ents {} s
def Dev.updEnt (d : Dev) (q s : Nat) (g : Entry → Entry) : Dev :=
  d.updQueue q (fun x => { x with ents := Tbl.put s (g (x.ent s)) x.ents })

/-! ### Readiness and the choice among a function's queues (R105, R107) -/

/-- Lines of the descriptor cache (R108): key queue * 2^32 + sequence number. -/
def lineKey (q s : Nat) : Nat := q * 2 ^ 32 + s % 2 ^ 32

/-- The next entry to dispatch: one that RESUME runs again, or DISP. -/
def Dev.qNext (d : Dev) (q : Nat) : Option Nat :=
  match (d.queue q).redo with
  | some s => some s
  | none => if d.qDisp q = d.qProd q then none else some (d.qDisp q)

/-- The copy of entry s that the device holds. -/
def Dev.held (d : Dev) (q s : Nat) : Option Nat := Tbl.find d.wq.cache (lineKey q s)

/-- A get of the queue is held for reply space (R12). -/
def Dev.heldGet (d : Dev) (q : Nat) : Bool :=
  d.rma.slots.any (fun e => e.2.st == .hold && (Tbl.find d.rma.msgs e.2.msg).bind Msg.queue == some q)

/-- A queue is ready to dispatch (R105). FENCE is known where the device holds the entry. -/
def Dev.qReady (d : Dev) (q : Nat) : Bool :=
  let x := d.queue q
  d.qst q == qsRun && !d.flag F.WQ_CTX_CTL_HOLD q && x.fetch.isNone && !d.heldGet q &&
  x.running < d.rd F.WQ_CTX_CFG_THREADS_M1 q + 1 &&
  (match d.qNext q with
   | none => false
   | some s => match d.held q s with
     | some v => bitsOf v 35 1 == 0 || d.qComp q == s
     | none => true)

/-- Queues of function f in ascending order, those in RUN. -/
def Dev.queuesOf (d : Dev) (f : Nat) : List Nat :=
  ((d.listed R.WQ_CTX_CTL).filter (fun e => getBits e.2 0 3 == qsRun && d.qFn e.1 == f)).map Prod.fst

def Dev.wrrOf (d : Dev) (f : Nat) : Wrr := Tbl.get d.wq.wrr {} f

/-- Credit and burst of a queue in the round that stands. -/
def Wrr.creditOf (w : Wrr) (q : Nat) : Nat := if w.begun then Tbl.get w.credit 1 q else 0
def Wrr.burstOf (w : Wrr) (q : Nat) : Nat := Tbl.get w.burst 1 q

/-- A round begins: every queue of f has its weight. -/
def Dev.wrrRound (d : Dev) (f : Nat) (w : Wrr) : Wrr :=
  let qs := (d.listed R.WQ_CTX_CFG).filter (fun e => getBits e.2 0 10 == f)
  { w with
    begun := true
    credit := qs.foldl (fun t e => Tbl.set 1 e.1 (d.rd F.WQ_CTX_CFG_WEIGHT_M1 e.1 + 1) t) []
    burst := qs.foldl (fun t e => Tbl.set 1 e.1 (d.rd F.WQ_CTX_CFG_BURST_M1 e.1 + 1) t) [] }

/-- The fetch of a dispatched entry of queue q is under way, not waiting for page state: the entry is still to start. -/
def Dev.qFetching (d : Dev) (q : Nat) : Bool :=
  (d.queue q).fetch.isSome && !(d.queue q).fetchOld && !d.xlt.waits.any (fun e => e.2.2.1 == .wqFetch q)

/-- Once the entry being fetched has started, queue q is ready for the next one, as far as the device knows. -/
def Dev.qFollow (d : Dev) (q : Nat) : Bool :=
  let x := d.queue q
  let s := if x.redo.isSome then d.qDisp q else d.qDisp q + 1
  d.qFetching q && d.qst q == qsRun && !d.flag F.WQ_CTX_CTL_HOLD q && !d.heldGet q &&
  x.running + 1 < d.rd F.WQ_CTX_CFG_THREADS_M1 q + 1 && seqSub (d.qProd q) s != 0 && seqSub (d.qProd q) s < 2 ^ 31 &&
  (match d.held q (s % 2 ^ 32) with
   | some v => bitsOf v 35 1 == 0
   | none => true)

/-- Entries of q that its last grant serves and that have not started. -/
def Dev.qPending (d : Dev) (q : Nat) : Nat := if d.qFetching q then 1 else 0

/-- The round of f stands: an entry is still to start, or a queue has credit and is ready or follows one (R107). -/
def Dev.wrrStands (d : Dev) (f : Nat) (w : Wrr) : Bool :=
  (d.queuesOf f).any (fun q => d.qFetching q || (0 < w.creditOf q && d.qReady q))

/-- A round that no ready queue has credit in is over: the next one takes the weights of its own start (R107). -/
def Dev.wrrEnd (d : Dev) (f : Nat) : Dev :=
  let w := d.wrrOf f
  if !w.begun || d.wrrStands f w then d
  else { d with wq.wrr := Tbl.put f { w with begun := false, cur := none, credit := [], burst := [] } d.wq.wrr }

/-- The first queue after the one served last, in ascending order with wrap-around, that has credit and is ready. -/
def Dev.wrrScan (d : Dev) (w : Wrr) (qs : List Nat) : Option Nat :=
  let last := (w.cur.map Prod.fst).getD w.last
  (qs.filter (fun q => last < q) ++ qs.filter (fun q => q ≤ last)).find? (fun q =>
    0 < w.creditOf q && d.qReady q)

/-- The queue of f that its next grant serves (R107), with the round as it then stands; none while the burst of a queue
whose entry is being fetched goes on, or while no queue may be served. -/
def Dev.wrrPick (d : Dev) (f : Nat) : Option (Nat × Wrr) :=
  let w := d.wrrOf f
  let qs := d.queuesOf f
  let more := match w.cur with
    | some (q, n) => if n + d.qPending q < w.burstOf q && d.qPending q < w.creditOf q then some q else none
    | none => none
  match more.filter (fun q => d.qReady q || d.qFollow q) with
  | some q => if d.qReady q then some (q, w) else none
  | none =>
    match d.wrrScan w qs with
    | some q => some (q, { w with cur := some (q, 0) })
    | none =>
      if w.begun && d.wrrStands f w then none
      else
        let w := { d.wrrRound f w with cur := none }
        match d.wrrScan w qs with
        | some q => some (q, { w with cur := some (q, 0) })
        | none => none

/-! ### Accesses of a queue (R100, R123, R489, R600) -/

/-- Where a queue's access of `va` lies. -/
inductive QAcc where
  | ok (fn addr : Nat)
  | xlt
  | gate (byte : Nat)
  | wait

/-- A queue access of at most a page, for `work`. `phys` is the PHYS bit of its register. -/
def Dev.qAddr (d : Dev) (q va len : Nat) (k : Kind) (phys : Bool) (work : Work) : Dev × QAcc :=
  let f := d.qFn q
  if phys then
    match d.gateFail (18 + f / 256) 1 (some f) va len (kindNeed k) with
    | some b => (d.deny (18 + f / 256) 1 (some f) b, .gate b)
    | none => (d, .ok f va)
  else
    let asid := d.rd F.WQ_CTX_CFG_ASID q
    let r : XReq := { asid := asid, va := va, kind := k, priv := d.isPf f }
    let (d, x) := d.xlate r work false f
    match x with
    | .ok a => (d, .ok (d.asidFn asid) a)
    | .fault => (d, .xlt)
    | .page tv => (d.pageWait r work f tv, .wait)
    | .wait => (d, .wait)

/-- The ring address of entry s (R88). -/
def Dev.ringAddr (d : Dev) (q s : Nat) : Nat := d.rd F.WQ_CTX_RING_BASE q * 2 ^ 12 + 64 * (s % d.qSize q)

/-- The COAL window in ns. -/
def Dev.coal (d : Dev) (q : Nat) : Nat :=
  let k := d.rd F.WQ_CTX_STAT_COAL q
  if k = 0 then 0 else 25 * 2 ^ (k - 1)

/-- The state that the queue is in, or enters once the record of ENABLING is written (R102 to R104). -/
def Dev.qTarget (d : Dev) (q : Nat) : Nat :=
  let x := d.queue q
  if !x.prepared then d.qst q
  else if x.disEnabling then qsDraining
  else if x.latched then qsError
  else if d.flag F.WQ_CTX_CTL_HOLD q then qsHold
  else qsRun

/-- The status record (R115). The one that ENABLING writes carries the state that the queue is about to enter (DESIGN
CHOICE, log entry 34). -/
def Dev.qRecord (d : Dev) (q : Nat) : Nat :=
  d.qComp q + d.rd F.WQ_CTX_COMP_SEQ_ERR_CNT q * 2 ^ 32 + d.qProd q * 2 ^ 64 + d.qDisp q * 2 ^ 96 +
  d.qTarget q * 2 ^ 128 + d.rd F.WQ_CTX_CTL_ERR_CAUSE q * 2 ^ 144 + d.rd F.WQ_CTX_CTL_ERR_SEQ q * 2 ^ 160 +
  d.rd F.WQ_CTX_AUX_INCARNATION q * 2 ^ 192

/-- The queue's interrupt. -/
def Dev.qInt (d : Dev) (q : Nat) : Dev := d.raise (d.qFn q) (d.rd F.WQ_CTX_AUX_INT_NUM q)

/-- The first error latches (R117). -/
def Dev.qLatch (d : Dev) (q cause seq : Nat) : Dev :=
  ((d.wr F.WQ_CTX_CTL_ERR_CAUSE q cause).wr F.WQ_CTX_CTL_ERR_SEQ q seq).updQueue q (fun x => { x with latched := true })

/-- An error's reports: WQ_ERROR and the interrupt of the entry to ERROR. -/
def Dev.qStop (d : Dev) (q : Nat) : Dev :=
  let d := (d.wr F.WQ_CTX_CTL_STATE q qsError).fault 3
  (d.updQueue q (fun x => { x with recDue := some d.ps,
                                   intReq := x.intReq || d.flag F.WQ_CTX_STAT_INT_EN q })).wrrEnd (d.qFn q)

/-- An error of R117, the record of an entry to ERROR left due. -/
def Dev.qFail (d : Dev) (q cause seq : Nat) : Dev :=
  if d.qst q = qsOff || (d.queue q).latched then d
  else
    let d := d.qLatch q cause seq
    if d.qst q = qsRun || d.qst q = qsHold then d.qStop q else d

/-- One write of the queue's. -/
def Dev.qWrite (d : Dev) (q va len data : Nat) (phys : Bool) : Dev × AccRes :=
  let (d, x) := d.qAddr q va len .write phys (.wqStat q)
  match x with
  | .ok fn a => (d.hostWrite fn a len data, .done)
  | .xlt => (d, .fail qeStatus)
  | .gate _ => (d, .fail qeStatus)
  | .wait => (d, .wait)

/-- A queue with work wakes its cluster. R105 says it of a doorbell or push; here the end of ENABLING, RESUME, SKIP, HOLD
written 0, an advance of COMP (which FENCE waits for) and the release of a held get do so too (DESIGN CHOICE, log entry
36). -/
def Dev.qWake (d : Dev) (q : Nat) : Dev :=
  if d.qst q = qsRun && (d.qNext q).isSome then d.wake (d.rd F.WQ_CTX_CFG_CLUSTER q) else d

/-- The queue leaves ENABLING (R102, R103). -/
def Dev.qEnter (d : Dev) (q : Nat) : Dev :=
  if !(d.queue q).prepared then d
  else
    let st := d.qTarget q
    let d := (d.updQueue q (fun x => { x with prepared := false, disEnabling := false })).wr F.WQ_CTX_CTL_STATE q st
    if st = qsDraining then d.updQueue q (fun x => { x with asm := none, redo := none })
    else if st = qsError then
      (d.fault 3).updQueue q (fun x => { x with intReq := x.intReq || d.flag F.WQ_CTX_STAT_INT_EN q })
    else d.qWake q

/-- The record has been written, or has failed for good: what waited for it follows. -/
def Dev.qRecDone (d : Dev) (q : Nat) : Dev :=
  let d := (d.updQueue q (fun x => { x with recDue := none })).qEnter q
  if (d.queue q).intReq then (d.updQueue q (fun x => { x with intReq := false })).qInt q else d

/-- The queue's write at `va` fails: STATUS_FAULT (R117). A record is 64-byte aligned and a write-back is not. The record of
the entry to ERROR is due then (R102, R115); the write-backs of other entries are made all the same (R113). -/
def Dev.qStatFail (d : Dev) (q va : Nat) : Dev :=
  if va % 64 != 0 then (d.updQueue q (fun x => { x with wb := x.wb.tail })).qFail q qeStatus (d.qDisp q)
  else
    let d := (d.updQueue q (fun x => { x with recDue := none })).qFail q qeStatus (d.qDisp q)
    if (d.queue q).recDue.isSome then d else d.qRecDone q

/-- The writes that are due, in the order of R114: write-backs, the record, the interrupt. They stop where one waits. -/
def Dev.qFlush (d : Dev) (q : Nat) : Nat → Dev
  | 0 => d
  | fuel + 1 =>
    let x := d.queue q
    if x.wbWait then d
    else
      match x.wb with
      | (s, st) :: rest =>
        let (d, r) := d.qWrite q (d.ringAddr q s + 6) 2 st (d.flag F.WQ_CTX_RING_PHYS q)
        match r with
        | .done => (d.updQueue q (fun x => { x with wb := rest })).qFlush q fuel
        | .wait => d.updQueue q (fun x => { x with wbWait := true })
        | .fail _ => (d.qStatFail q (d.ringAddr q s + 6)).qFlush q fuel
      | [] =>
        if x.recDue.isNone then d
        else
          let (d, r) := d.qWrite q (d.rd F.WQ_CTX_STAT_ADDR q * 64) 64 (d.qRecord q) (d.flag F.WQ_CTX_STAT_PHYS q)
          match r with
          | .done => d.qRecDone q
          | .wait => d.updQueue q (fun x => { x with wbWait := true })
          | .fail _ => (d.qStatFail q (d.rd F.WQ_CTX_STAT_ADDR q * 64)).qFlush q fuel

/-- What is due is written now. -/
def Dev.qWriteDue (d : Dev) (q : Nat) : Dev := d.qFlush q ((d.queue q).wb.length + 3)

/-- The record of a state change (R115). While an earlier write of the queue's waits for a walk or a PAGE_STATE event, state
changes and advances share the one record that is then due, with the values of the moment it is written (DESIGN CHOICE,
log entry 36). -/
def Dev.qNote (d : Dev) (q : Nat) : Dev :=
  (d.updQueue q (fun x => { x with recDue := some d.ps })).qWriteDue q

/-- An error of R117, with its record. -/
def Dev.qError (d : Dev) (q cause seq : Nat) : Dev :=
  let d := d.qFail q cause seq
  if d.qst q = qsError then d.qWriteDue q else d

/-! ### Completion (R111 to R114) -/

/-- The STATUS of a completed entry (R112). -/
def Entry.status (e : Entry) : Nat :=
  if e.skipped then Status.CMD_SKIPPED
  else if e.trapStatus != 0 then e.trapStatus
  else (e.fail.map Prod.snd).getD 0

/-- Both conditions of R111, or SKIP. -/
def Entry.complete (e : Entry) : Bool := e.skipped || (e.ended && e.outst == 0 && !e.stopped)

/-- COMP passes the entries that have completed (R113). -/
def Dev.qAdvance (d : Dev) (q : Nat) : Nat → Dev
  | 0 => d
  | fuel + 1 =>
    let c := d.qComp q
    let e := (d.queue q).ent c
    if c = d.qDisp q || !e.complete then d
    else
      let st := e.status
      let d := d.updQueue q (fun x => { x with
        ents := Tbl.del c x.ents,
        wb := if st = 0 then x.wb else x.wb ++ [(c, st)],
        intReq := x.intReq || (e.notify && !e.skipped && d.flag F.WQ_CTX_STAT_INT_EN q),
        recDue := some (x.recDue.getD (d.ps + nsPs (d.coal q))) })
      let d := if st = 0 then d else d.wr F.WQ_CTX_COMP_SEQ_ERR_CNT q (d.rd F.WQ_CTX_COMP_SEQ_ERR_CNT q + 1)
      let d := ((d.wr F.WQ_CTX_COMP_SEQ_COMP q (c + 1)).ev 1 1 none (some (d.qFn q))).fnCount (d.qFn q) 0
      d.qAdvance q fuel

def Dev.qProgress (d : Dev) (q : Nat) : Dev := (d.qAdvance q ((d.queue q).ents.length + 1)).qWake q

/-- A command activation ends (R111); `st` is the status a trap activation of it set. -/
def Dev.entryEnd (d : Dev) (q s st : Nat) : Dev :=
  (((d.updEnt q s (fun e => { e with ended := true, trapStatus := st })).updQueue q
    (fun x => { x with running := x.running - 1 })).qProgress q)

/-- The activation stops without completing its entry (DOUBLE_TRAP, HANDLER_STOP). -/
def Dev.entryStop (d : Dev) (q s cause : Nat) : Dev :=
  ((d.updEnt q s (fun e => { e with stopped := true })).updQueue q (fun x => { x with running := x.running - 1 })).qError q cause s

/-- An operation of an entry is issued: its place in issue order. -/
def Dev.opStart (d : Dev) (q s : Nat) : Dev × OpRef :=
  let i := ((d.queue q).ent s).nextOp
  ((d.updEnt q s (fun e => { e with nextOp := i + 1, outst := e.outst + 1 })).updQueue q (fun x => { x with ops := x.ops + 1 }),
   ⟨q, s, i⟩)

/-- It completes: the earliest-issued failure stands (R112). -/
def Dev.opEnd (d : Dev) (r : OpRef) (st : Nat) : Dev :=
  let d := d.updQueue r.q (fun x => { x with ops := x.ops - 1 })
  if !Tbl.has (d.queue r.q).ents r.seq then d
  else
    let d := d.updEnt r.q r.seq (fun e => { e with
      outst := e.outst - 1
      fail := if st = 0 then e.fail else match e.fail with
        | some (i, s) => if i < r.idx then some (i, s) else some (r.idx, st)
        | none => some (r.idx, st) })
    d.qProgress r.q

def Dev.opEndO (d : Dev) (r : Option OpRef) (st : Nat) : Dev :=
  match r with
  | some r => d.opEnd r st
  | none => d

/-! ### Doorbells and pushes (R94 to R97) -/

/-- The states that accept announcements. -/
def qAccepts (st : Nat) : Bool := st == qsEnabling || st == qsRun || st == qsHold || st == qsError

/-- A proposed PROD (R95). -/
def Dev.announce (d : Dev) (q v : Nat) : Dev :=
  let k := seqSub v (d.qProd q)
  if k = 0 then d
  else if 2 ^ 31 ≤ k then d.ev 1 2 none (some (d.qFn q))
  else if seqSub v (d.qComp q) ≤ d.qSize q then (d.wr F.WQ_CTX_PROD_SEQ_PROD q v).qWake q
  else d.qError q qeOverrun (d.qDisp q)

/-- DOORBELL: a write of `size` bytes to the doorbell of queue q. -/
def Dev.doorbell (d : Dev) (q size : Nat) (v : Word) : Dev :=
  if d.halted then d
  else
    let d := d.ev 10 3 (some (d.qFn q / 256)) (some (d.qFn q))
    if (size != 4 && size != 8) || (size = 8 && getBits v 32 32 != 0) then d.ev 1 2 none (some (d.qFn q))
    else if !qAccepts (d.qst q) then d
    else d.announce q (getBits v 0 32)

/-- A push that is complete or timed out (R97). -/
def Dev.pushUse (d : Dev) (q mask data : Nat) : Dev :=
  let s := bitsOf data 0 32
  let f := d.qFn q
  if mask % 16 != 15 then d.ev 1 5 none (some f)
  else if mask = 2 ^ 64 - 1 && s = d.qProd q && (d.queue q).push.isNone && d.wq.cache.length < 16384 &&
      seqSub (s + 1) (d.qComp q) ≤ d.qSize q then
    let d := d.updQueue q (fun x => { x with push := some (s, data) })
    let d := { d with wq.cache := Tbl.put (lineKey q s) data d.wq.cache }
    ((d.wr F.WQ_CTX_PROD_SEQ_PROD q (s + 1)).ev 1 3 none (some f)).qWake q
  else (d.ev 1 4 none (some f)).announce q ((s + 1) % 2 ^ 32)

/-- Bytes of `new` where `mask` has them, of `old` elsewhere. -/
def mergeBytes (old new mask : Nat) : Nat → Nat
  | 0 => 0
  | n + 1 => mergeBytes old new mask n + (if mask / 2 ^ n % 2 = 1 then bitsOf new (8 * n) 8 else bitsOf old (8 * n) 8) * 2 ^ (8 * n)

/-- PUSH_WRITE: bytes reach the push area; the push is used once all 64 have arrived. -/
def Dev.pushWrite (d : Dev) (q : Nat) (mask : BitVec 64) (data : BitVec 512) : Dev :=
  if d.halted || !qAccepts (d.qst q) || mask = 0 then d
  else
    let (m, v, t) := ((d.queue q).asm).getD (0, 0, d.ps)
    let v := mergeBytes v data.toNat mask.toNat 64
    let m := m ||| mask.toNat
    if m = 2 ^ 64 - 1 then (d.updQueue q (fun x => { x with asm := none })).pushUse q m v
    else d.updQueue q (fun x => { x with asm := some (m, v, t) })

/-- PUSH_TIMEOUT: 1 µs after its first byte an incomplete push is discarded, as a doorbell where its header came. -/
def Dev.pushTimeout (d : Dev) (q : Nat) : Dev :=
  match (d.queue q).asm with
  | none => d
  | some (m, v, t) =>
    let d := (d.advanceTo (t + usPs 1)).updQueue q (fun x => { x with asm := none })
    if qAccepts (d.qst q) then d.pushUse q m v else d

end Sys2Proof.Machine
end

