-- ==== Sys2Proof/Machine/Operands.lean ====
section
/-! DEFINITION. The operand forms of instructions (R38 to R40): words, guards, immediates, and what a word's bits say. -/

namespace Sys2Proof.Machine

/-- The 36-bit word of each format under major opcode `op` (R38). -/
def wordA (op : Nat) (f : FmtA) : Nat :=
  op * 2 ^ 28 + f.wd.toNat * 2 ^ 23 + f.wa.toNat * 2 ^ 18 + f.wb.toNat * 2 ^ 13 + f.guard.toNat * 2 ^ 9 + f.fn.toNat
def wordI (op : Nat) (f : FmtI) : Nat :=
  op * 2 ^ 28 + f.wd.toNat * 2 ^ 23 + f.wa.toNat * 2 ^ 18 + f.guard.toNat * 2 ^ 14 + f.imm.toNat
def wordW (op : Nat) (f : FmtW) : Nat := op * 2 ^ 28 + f.wd.toNat * 2 ^ 23 + f.imm.toNat
def wordB (op : Nat) (f : FmtB) : Nat := op * 2 ^ 28 + f.guard.toNat * 2 ^ 24 + f.off.toNat

/-- The immediate of a slot-code instruction, or with its extension in a command slot, sign-extended (R40 S). -/
def immS (cmd : Bool) (imm w : Nat) (ext : Ext) : Word :=
  if cmd then BitVec.ofInt 64 (signed (ext.toNat * 2 ^ w + imm) (28 + w)) else BitVec.ofInt 64 (signed imm w)

/-- The same, zero-extended in a command slot (R40 Z, R63: zero-extended in slot code too). -/
def immZ (cmd : Bool) (imm w : Nat) (ext : Ext) : Word :=
  if cmd then BitVec.ofNat 64 (ext.toNat * 2 ^ w + imm) else BitVec.ofNat 64 imm

/-- An operand group's first register (R57). -/
def groupOk (a : Nat) : Bool := a % 4 == 0 && a != 0

end Sys2Proof.Machine
end

