-- ==== Sys2Proof/Machine/Flags.lean ====
section
/-! DEFINITION. Predicates, guards and tags (R33 to R37, R39): what an instruction's result carries beside its value. The
instruction set has no arithmetic flags. -/

namespace Sys2Proof.Machine

/-- The guard is satisfied (R39). -/
def guardOk (t : Thread) (g : Nat) : Bool := t.pred (g % 8) != (g / 8 % 2 == 1)

/-- DTYPE and PTR of a tag. -/
def tagType (t : Nat) : Nat := t % 16
def tagPtr (t : Nat) : Bool := t / 32 % 2 == 1

/-- The tag of an integer or bit result: DTYPE from wa, POISON from any source read, PTR as given (R35 to R37). -/
def resultTag (ta : Nat) (poison ptr : Bool) : Nat :=
  tagType ta + (if poison then 16 else 0) + (if ptr then 32 else 0)

/-- The new tag of tag.set and tag.seti: the reserved bits are written 0 (R33, R49). -/
def cleanTag (t : Nat) : Nat := t % 64

end Sys2Proof.Machine
end

