-- ==== Sys2Proof/Machine/Eng.lean ====
section
/-! DEFINITION. Engine threads (chapter 02): activations, traps, the issue of an instruction, events and timers. -/

namespace Sys2Proof.Machine

/-! ### Program slots (R84 to R86) -/

def Dev.slotVer (d : Dev) (n : Nat) : Nat := d.rd F.ENG_SLOT_STAT_VERSION n
/-- ENG_SLOT_IMG and LEN_M1 of version `v` of slot n: the current one's, or the old one's while it drains (R87). -/
def Dev.slotImg (d : Dev) (n v : Nat) : Nat × Nat :=
  let now := ((d.reg R.ENG_SLOT_IMG n).toNat, d.rd F.ENG_SLOT_CTL_LEN_M1 n)
  if v = d.slotVer n then now else Tbl.get d.eng.oldImg now n
/-- Image start, and whether it lies in the Depot. -/
def Dev.imgBase (d : Dev) (n v : Nat) : Nat := bitsOf (d.slotImg n v).1 0 57
def Dev.imgDepot (d : Dev) (n v : Nat) : Bool := bitsOf (d.slotImg n v).1 57 1 == 1
/-- Instructions in the image. -/
def Dev.slotLen (d : Dev) (n v : Nat) : Nat := 2 * ((d.slotImg n v).2 + 1)

/-- An activation enters slot n at its current version. -/
def Dev.enterSlot (d : Dev) (n : Nat) : Dev := d.wr F.ENG_SLOT_STAT_ACTIVE_NEW n (d.rd F.ENG_SLOT_STAT_ACTIVE_NEW n + 1)

/-- Cached lines of slot n other than of its current version are released. -/
def Dev.dropLines (d : Dev) (n : Nat) : Dev :=
  let v := d.slotVer n
  { d with eng.imem := (d.eng.imem.map (fun (e : Nat × List ILine) =>
      (e.1, e.2.filter (fun l => l.slot != n || l.ver == v)))).filter (fun e => !e.2.isEmpty)
           eng.ahead := d.eng.ahead.filter (fun e => e.2.line.slot != n || e.2.line.ver == v) }

/-- An activation of version `v` leaves slot n. -/
def Dev.leaveSlot (d : Dev) (e : Option (Nat × Nat)) : Dev :=
  match e with
  | none => d
  | some (n, v) =>
    if v = d.slotVer n then d.wr F.ENG_SLOT_STAT_ACTIVE_NEW n (d.rd F.ENG_SLOT_STAT_ACTIVE_NEW n - 1)
    else
      let k := d.rd F.ENG_SLOT_STAT_ACTIVE_OLD n - 1
      let d := d.wr F.ENG_SLOT_STAT_ACTIVE_OLD n k
      if k = 0 then { (d.wr F.ENG_SLOT_STAT_DRAINING n 0).dropLines n with eng.oldImg := Tbl.del n d.eng.oldImg } else d

/-! ### Telemetry of issue slots (R564): a slot in which an instruction issues. Dev.slotTime counts the others. -/

def Dev.retired (d : Dev) (th : Nat) : Dev :=
  if isCore th then d
  else ((d.ev 0 0 (some (clusterOf th)) (some (d.thr th).fn)).ev 0 1 (some (clusterOf th)) (some (d.thr th).fn)).fnCount
    (d.thr th).fn 11
def Dev.wasted (d : Dev) (th : Nat) : Dev :=
  if isCore th then d
  else ((d.ev 0 0 (some (clusterOf th)) (some (d.thr th).fn)).ev 0 2 (some (clusterOf th)) (some (d.thr th).fn)).fnCount
    (d.thr th).fn 12

/-! ### Activations (R25 to R27, R79) -/

/-- A thread takes an activation for function `fn`: registers of another function's work are cleared (R27). -/
def Thread.begin_ (t : Thread) (fn asid : Nat) (priv : Bool) (pc : Word) : Thread :=
  let t := if t.lastFn = some fn then t else { t with w := [], p := 0 }
  { t with st := .ready, stall := .none, active := true, fn := fn, asid := asid, priv := priv, pc := pc, past := false,
           lastFn := some fn,
           queue := 0, cmd := false, seq := 0, event := 0, slots := [], inSlot := none, trapped := none, trapEv := none,
           noEntry := false, lastCol := none, trapCol := none, cutAt := none }

/-- The thread returns to waiting. -/
def Dev.idle (d : Dev) (th : Nat) : Dev :=
  let t := d.thr th
  let d := d.leaveSlot t.inSlot
  let d := match t.trapped with
    | some (s, _) => d.leaveSlot s
    | none => d
  let c := clusterOf th
  let d := d.updThr th (fun t => { t with st := .wait, stall := .none, active := false, inSlot := none, trapped := none,
                                          trapEv := none, queue := 0, cmd := false, seq := 0, event := 0, slots := [] })
  d.rest c

/-- The activation ends: the entry of a command ends with it (R111). -/
def Dev.endActivation (d : Dev) (th st : Nat) : Dev :=
  let t := d.thr th
  let d := d.idle th
  if t.cmd && !t.noEntry then d.entryEnd t.queue t.seq st else d

/-! ### Traps (R74 to R78) -/

/-- Byte address of a thread's trap save area (R53). Where a Basecamp core's lies in SRAM the spec does not say: it is the
same offset here (DESIGN CHOICE, log entry 34). -/
def saveArea (th : Nat) : Nat := 0xF8000 + 0x200 * (if th < 1024 then th % 64 else th - 1024)

/-- A double trap: the thread stops; a command's queue enters ERROR. -/
def Dev.doubleTrap (d : Dev) (th : Nat) : Dev :=
  let t := d.thr th
  let d := d.leaveSlot t.inSlot
  let d := match t.trapped with
    | some (s, _) => d.leaveSlot s
    | none => d
  let d := (d.updThr th (fun t => { t with st := .stopped, stall := .none, active := false, inSlot := none,
                                           trapped := none })).fault 2
  if t.cmd && !t.noEntry then d.entryStop t.queue t.seq qeDoubleTrap
  else d

/-- The thread is in a trap activation. -/
def Thread.inTrap (t : Thread) : Bool := t.event == 5

/-- The words of the save area (R75). -/
def Dev.saveWords (d : Dev) (th : Nat) (t : Thread) (tpc cause tval : Word) : Dev :=
  let c := clusterOf th
  let a := saveArea th
  let put := fun (d : Dev) (n : Nat) (v : TWord) => d.setScrWord c (a + 8 * n) v
  let plain := fun (v : Word) => mkWord v 0
  let d := put (put (put d 0 (plain tpc)) 1 (plain cause)) 2 (plain tval)
  let preds := t.p.toNat / 2 * 2 + 1
  let d := put d 3 (plain (BitVec.ofNat 64 (preds + (if t.priv then 256 else 0))))
  let d := put d 4 (plain (BitVec.ofNat 64 (t.asid + t.fn * 2 ^ 16)))
  let d := put d 5 (plain (BitVec.ofNat 64 (t.queue + (if t.cmd then 2 ^ 16 else 0))))
  (List.range 7).foldl (fun d k => put d (8 + k) (t.reg (k + 1))) d

/-- Entry 0 of slot n begins; a disabled slot traps SLOT_OFF instead, a double trap here (R78, R81). -/
def Dev.trapBegin (d : Dev) (th n : Nat) : Dev :=
  if !d.flag F.ENG_SLOT_CTL_EN n then d.doubleTrap th
  else
    let v := d.slotVer n
    (d.enterSlot n).updThr th (fun t =>
      { t with st := .ready, stall := .none, pc := mkPc 0 n v, past := false, inSlot := some (n, v) })

/-- A trap on thread `th` with cause, trap value, and the code address that eret resumes at (R76, R78). -/
def Dev.trap (d : Dev) (th cause : Nat) (tval tpc : Word) : Dev :=
  let t := d.thr th
  let d := if isCore th then d else d.ev 0 10 (some (clusterOf th)) (some t.fn)
  let d := d.wasted th
  if t.inTrap || !d.flag F.ENG_FN_TRAP_EN t.fn then d.doubleTrap th
  else
    let c := BitVec.ofNat 64 cause
    let d := d.saveWords th t tpc c tval
    let d := d.updThr th (fun t =>
      ({ t with cause := c, tval := tval, tpc := tpc, priv := true, event := 5, trapped := some (t.inSlot, t.event),
                inSlot := none, lastCol := none, trapCol := t.lastCol }.setReg 1 (mkWord c 0)).setReg 2 (mkWord tval 0) |>.setReg 3 (mkWord tpc 0))
    d.trapBegin th (d.rd F.ENG_FN_TRAP_SLOT t.fn)

/-- A trap of the instruction at the thread's pc. -/
def Dev.trapHere (d : Dev) (th cause : Nat) (tval : Word) : Dev := d.trap th cause tval (d.thr th).pc

/-! ### Instruction memory and the issue of an instruction (R69, R82 to R84) -/

/-- The line of instruction memory that holds the thread's next instruction. -/
def Dev.lineOf (d : Dev) (th : Nat) (pc : Word) : Option ILine :=
  (Tbl.get d.eng.imem [] (clusterOf th)).find? (fun l =>
    l.slot == pcSlot pc && l.ver == pcVer pc && l.line == pcIndex pc / 16)

/-- The instruction at `pc` with its extension, if the thread has it: a slot of the entry, or a cached line. -/
def Dev.fetched (d : Dev) (th : Nat) (pc : Word) : Option (Nat × Nat) :=
  if isCore th then some (d.coreInstr (pcIndex pc), 0)
  else if pcCmd pc then
    match (d.thr th).slots[pcIndex pc - 1]? with
    | some s => some (getBits s 28 36, getBits s 0 28)
    | none => none
  else match d.lineOf th pc with
    | some l => some (bitsOf l.data (36 * (pcIndex pc % 16)) 36, 0)
    | none => none

/-- The code address after `pc`. -/
def pcNext (pc : Word) : Word := setBits pc 0 17 (pcIndex pc + 1)

/-- The instruction at `pc` is the last that an index can name: what follows it lies past every image (R69). -/
def pcLast (pc : Word) : Bool := !pcCmd pc && pcIndex pc == 2 ^ 17 - 1

/-- The activation goes on at `pc`, `past` where that lies past the last index; the instruction slots of a command end
after the last (R82). -/
def Dev.goTo (d : Dev) (th : Nat) (pc : Word) (past : Bool := false) : Dev :=
  if pcCmd pc && (d.thr th).slots.length < pcIndex pc then d.endActivation th 0
  else d.updThr th (fun t => { t with pc := pc, past := past })

/-- The instruction is done: the next one follows. -/
def Dev.goOn (d : Dev) (th : Nat) : Dev := d.goTo th (pcNext (d.thr th).pc) (pcLast (d.thr th).pc)

/-- A stalled instruction is done, with its result. -/
def Dev.finish (d : Dev) (th wd : Nat) (v : TWord) : Dev :=
  ((d.updThr th (fun t => { t with st := .ready, stall := .none })).setW th wd v).goOn th

/-- The thread stalls (R29). -/
def Dev.stall (d : Dev) (th : Nat) (s : Stall) : Dev := d.updThr th (fun t => { t with st := .stall, stall := s })

/-- An instruction fill of a host-memory image: the pages of a line, translated in the slot's address space. -/
def Dev.slotReq (d : Dev) (th slot va : Nat) : XReq :=
  { asid := d.rd F.ENG_SLOT_CTL_ASID slot, va := va, kind := .exec, priv := (d.thr th).priv,
    cluster := if isCore th then none else some (clusterOf th) }

/-- XLT_FAULT with TVAL[63] (R84). -/
def Dev.fetchTrap (d : Dev) (th va : Nat) : Dev :=
  (d.updThr th (fun t => { t with st := .ready, stall := .none })).trapHere th tcXlt (BitVec.ofNat 64 (va % 2 ^ 57 + 2 ^ 63))

/-- Address and length of the first (stage 0) or second part of a line: it may cross a page (R84). -/
def Dev.linePart (d : Dev) (slot ver line stage : Nat) : Nat × Nat :=
  let base := d.imgBase slot ver + 72 * line
  let first := min 72 (4096 - base % 4096)
  if stage = 0 then (base, first) else (base + first, 72 - first)

/-- A line joins the cluster's instruction memory of 2,048 lines; which line makes room is the device's choice. -/
def Dev.addLine (d : Dev) (c : Nat) (l : ILine) : Dev :=
  let ls := Tbl.get d.eng.imem [] c
  let (ls, d) := if ls.length < 2048 then (ls, d) else
    let (k, d) := d.pick ls.length
    (ls.eraseIdx k, d)
  { d with eng.imem := Tbl.put c (l :: ls) d.eng.imem }

/-- The line that cluster c has filled ahead from address `a` (R144). -/
def Dev.aheadFor (d : Dev) (c slot ver line a : Nat) : Option ILine :=
  match Tbl.find d.eng.ahead c with
  | some x => if x.line.slot = slot && x.line.ver = ver && x.line.line = line && x.addr = a then some x.line else none
  | none => none

/-- The read of a part whose translation is `x`; `got` are the bytes of the first part once they are in. -/
def Dev.lineGot (d : Dev) (th slot ver line : Nat) (got : Option Nat) (x : XRes) : Dev :=
  let (va, len) := d.linePart slot ver line (if got.isSome then 1 else 0)
  let d := d.stall th (.imem slot ver line got)
  match x with
  | .ok a => match if len = 72 then d.aheadFor (clusterOf th) slot ver line a else none with
    | some l =>
      ({ d with eng.ahead := Tbl.del (clusterOf th) d.eng.ahead }.addLine (clusterOf th) l).updThr th (fun t =>
        { t with st := .ready, stall := .none })
    | none =>
      let (d, t) := d.hostRead (d.asidFn (d.rd F.ENG_SLOT_CTL_ASID slot)) a len (.imem th)
      if t.isSome then d else d.fetchTrap th va
  | .fault => d.fetchTrap th va
  | .page tv => (d.updThr th (fun t => { t with st := .ready, stall := .none })).trapHere th tcPage tv
  | .wait => d

/-- The read of a line ahead, whose translation is `x`; what fails is dropped and counted (R144). -/
def Dev.aheadGo (d : Dev) (c slot ver line fn : Nat) (x : XRes) : Dev :=
  match x with
  | .ok a =>
    let (d, t) := d.hostRead fn a 72 (.imemPre c slot ver line)
    if t.isSome then d else d.ev 2 5
  | .fault => d.ev 2 5
  | .page _ => d.ev 2 5
  | .wait => d

/-- A line beyond the one that thread th needs is filled ahead, where it lies within the image and a page: whether it is, is the
device's choice (R144; log entry 1). -/
def Dev.lineAhead (d : Dev) (th slot ver line : Nat) : Dev :=
  let (k, d) := d.pick 2
  if k = 0 || isCore th || d.slotLen slot ver ≤ 16 * line || (d.linePart slot ver line 0).2 < 72 then d
  else
    let r := d.slotReq th slot (d.linePart slot ver line 0).1
    let (d, x) := d.xlate r (.imemPre (clusterOf th) slot ver line) true r.asid
    d.aheadGo (clusterOf th) slot ver line (d.asidFn r.asid) x

/-- The read of a line ahead ends (R144). -/
def Dev.aheadDone (d : Dev) (c slot ver line tag : Nat) (cpl : Cpl) : Dev :=
  match d.takeRead tag 72 cpl, cpl.good with
  | (d, none), _ => d
  | (d, some _), none => d.ev 2 5
  | (d, some r), some v =>
    if d.gated c then d else { d with eng.ahead := Tbl.put c { line := ⟨slot, ver, line, v % 2 ^ 576⟩, addr := r.addr } d.eng.ahead }

/-- The read of a part of a line. -/
def Dev.lineRead (d : Dev) (th slot ver line : Nat) (got : Option Nat) : Dev :=
  let r := d.slotReq th slot (d.linePart slot ver line (if got.isSome then 1 else 0)).1
  let (d, x) := d.xlate r (.imem th slot ver line) false r.asid
  d.lineGot th slot ver line got x

/-- The bytes of a line that lies in the Depot: the value bytes alone (R84). -/
def Dev.depLine (d : Dev) (a : Nat) : Nat :=
  (List.range 72).foldl (fun v k => v + bitsOf (TWord.val (d.depWord (a + k))).toNat (8 * ((a + k) % 8)) 8 * 2 ^ (8 * k)) 0

/-- The line of the instruction at `pc`, which is missing, is fetched. -/
def Dev.fillAt (d : Dev) (th : Nat) (pc : Word) : Dev :=
  let slot := pcSlot pc
  let line := pcIndex pc / 16
  if !d.imgDepot slot (pcVer pc) then (d.lineRead th slot (pcVer pc) line none).lineAhead th slot (pcVer pc) (line + 1)
  else
    let a := d.imgBase slot (pcVer pc) + 72 * line
    let cls := if d.flag F.ENG_SLOT_CTL_PRIV slot then 1 else 0
    let owner := d.rd F.ENG_SLOT_CTL_OWNER_FN slot
    match d.gateFail 0 cls (some owner) a 72 1 with
    | some b => (d.deny 0 cls (some owner) b).fetchTrap th a
    | none =>
      let d := (d.depWake.ev 11 0).depMeet a 72
      d.addLine (clusterOf th) ⟨slot, pcVer pc, line, d.depLine a⟩

/-- The line of the thread's next instruction. -/
def Dev.fill (d : Dev) (th : Nat) : Dev := d.fillAt th (d.thr th).pc

/-- What an instruction does once it has passed its checks. -/
inductive IRes where
  /-- Done; the next instruction follows. -/
  | next (d : Dev)
  /-- nop or yield: the slot counts as WASTED. -/
  | idle (d : Dev)
  /-- Done; the thread's place is set. -/
  | done (d : Dev)
  | trap (cause : Nat) (tval : Word)
  /-- A trap that leaves traces of its access (a gate denial, a TLB entry). -/
  | trapIn (d : Dev) (cause : Nat) (tval : Word)

/-- Thread `th` may issue: READY, with its cluster clocked. -/
def Dev.ready (d : Dev) (th : Nat) : Bool :=
  let t := d.thr th
  t.st == .ready && t.active && (if isCore th then !d.dark else !d.halted && !d.gated (th / 64))

/-- The opcode is in the opcode map (R41). -/
def opListed (w : Nat) : Bool :=
  let op := w / 2 ^ 28
  (1 ≤ op && op ≤ 9) || (0x10 ≤ op && op ≤ 0x20) || (0x28 ≤ op && op ≤ 0x2A) || (0x30 ≤ op && op ≤ 0x3A) ||
  (0x40 ≤ op && op ≤ 0x45) || (0x48 ≤ op && op ≤ 0x4A) || (0x50 ≤ op && op ≤ 0x53) || (0x58 ≤ op && op ≤ 0x5B) ||
  (0x60 ≤ op && op ≤ 0x62) || (0x68 ≤ op && op ≤ 0x6A) || (0x70 ≤ op && op ≤ 0x73)

/-- The word at the thread's pc has a reserved opcode: it traps ILLEGAL whatever command lets the thread issue
(log entry 17). -/
def Dev.illegalHere (d : Dev) (th : Nat) : Option Nat :=
  match d.fetched th (d.thr th).pc with
  | some (w, _) => if opListed w then none else some w
  | none => none

/-- The instruction is done and counted as RETIRED, and the next one follows. -/
def Dev.completed (d : Dev) (th : Nat) : Dev := (d.retired th).goOn th

/-- Thread `th` may issue, the instruction at its pc is `word` with extension `ext`, of a listed opcode, and its guard is
satisfied: it takes effect or traps (R39, R69, R82, R84). -/
def Dev.atInstr (d : Dev) (th word : Nat) (ext : Ext) (g : Nat) : Bool :=
  let t := d.thr th
  d.ready th && guardOk t g &&
  (opListed word && (isCore th || pcCmd t.pc || !t.past && pcIndex t.pc < d.slotLen (pcSlot t.pc) (pcVer t.pc)) &&
    d.fetched th t.pc == some (word, if pcCmd t.pc then ext.toNat else 0))

/-- Thread `th` issues instruction `word` with extension `ext`, guard `g`, ILLEGAL where `bad`, PRIVILEGE at user
privilege where `sup` (R38 to R41, R74). The instruction is the one at the thread's pc: one that is not fetched starts its
fill, one that differs is not what the thread would issue. -/
def Dev.issue (d : Dev) (th word : Nat) (ext : Ext) (g : Nat) (bad sup noCmd : Bool) (body : Dev → IRes) : Dev :=
  let t := d.thr th
  if !d.ready th then d
  else if !isCore th && !pcCmd t.pc && (t.past || d.slotLen (pcSlot t.pc) (pcVer t.pc) ≤ pcIndex t.pc) then
    d.trapHere th tcIllegal t.pc
  else if (d.fetched th t.pc).isNone then (if pcCmd t.pc then d else d.fill th)
  else if (d.illegalHere th).isSome then d.trapHere th tcIllegal (BitVec.ofNat 64 ((d.illegalHere th).getD 0))
  else if d.fetched th t.pc != some (word, if pcCmd t.pc then ext.toNat else 0) then d
  else if !guardOk t g then (d.wasted th).goOn th
  else if bad || (noCmd && pcCmd t.pc) then d.trapHere th tcIllegal (BitVec.ofNat 64 word)
  else if sup && !t.priv then d.trapHere th tcPrivilege (BitVec.ofNat 64 word)
  else match body d with
    | .next d => d.completed th
    | .idle d => (d.wasted th).goOn th
    | .done d => if (d.thr th).inTrap && !t.inTrap || (d.thr th).st == .stopped then d else d.retired th
    | .trap c v => d.trapHere th c v
    | .trapIn d c v => d.trapHere th c v

/-- The extension must be 0 in a command slot (R40 N). -/
def extBad (t : Thread) (ext : Ext) : Bool := pcCmd t.pc && ext != 0

/-- The number of the first poisoned register of `l`, as a trap (R35, R74). Which register TVAL names where several are
poisoned the spec leaves open: it is the first in the order in which the instruction lists them (DESIGN CHOICE, log entry
34). -/
def Thread.poisonIn (t : Thread) (l : List Nat) : Option Nat := l.find? (fun n => isPoison (t.reg n))

/-- A body that traps POISON first. -/
def noPoison (d : Dev) (th : Nat) (l : List Nat) (k : Unit → IRes) : IRes :=
  match (d.thr th).poisonIn l with
  | some n => .trap tcPoison (BitVec.ofNat 64 n)
  | none => k ()

/-! ### Events, timers, restart -/

/-- EVENT_START: the oldest pending event of the thread's cluster begins on the thread (R79 to R81). -/
def Dev.eventStart (d : Dev) (th : Nat) : Dev :=
  let t := d.thr th
  let c := clusterOf th
  if t.st != .wait || t.active || d.halted || d.gated c then d
  else match d.pendEv c with
    | [] => d
    | e :: rest =>
      let d := { d with eng.pend := Tbl.set [] c rest d.eng.pend }
      -- Events that waited in their units take the place that is free now.
      let d := d.lateGo
      let trapKind := e.kind == 5
      let v := d.slotVer e.slot
      let priv := trapKind || d.flag F.ENG_SLOT_CTL_PRIV e.slot
      let d := (d.updThr th (fun t =>
        let t := t.begin_ e.fn (d.rd F.ENG_SLOT_CTL_ASID e.slot) priv (mkPc e.entry e.slot v)
        let t := { t with event := e.kind, trapEv := e.acc }
        let t := (t.setReg 1 (mkWord e.w1 0)).setReg 2 (mkWord e.w2 0)
        let t := if e.kind = 3 then t else t.setReg 3 (mkWord e.w3 0)
        if e.kind = 1 || e.kind = 4 then t.setReg 4 (mkWord e.w4 0) else t)).ev 0 11 (some c) (some e.fn)
      if trapKind && !d.flag F.ENG_FN_TRAP_EN e.fn then d.doubleTrap th
      else if !d.flag F.ENG_SLOT_CTL_EN e.slot then
        if trapKind then d.doubleTrap th else d.trapHere th tcSlotOff (BitVec.ofNat 64 e.slot)
      else (d.enterSlot e.slot).updThr th (fun t => { t with inSlot := some (e.slot, v) })

/-- TIMER_EXPIRE (R31). -/
def Dev.timerExpire (d : Dev) (th : Nat) : Dev :=
  let t := d.thr th
  if t.timer = 0 || d.halted then d
  else
    let d := d.advanceToNs t.timer
    let slot := match t.timerSlot with
      | some n => n
      | none => d.rd F.ENG_FN_TRAP_SLOT t.timerFn
    let d := d.updThr th (fun t => { t with timer := 0 })
    d.raiseEvent { slot := slot, entry := 15, fn := t.timerFn, kind := 3, w1 := BitVec.ofNat 64 d.ns,
                   w2 := BitVec.ofNat 64 t.timer, w3 := 0, w4 := 0 }

/-- THR_RESTART: a STOPPED thread returns to WAIT with registers cleared. -/
def Dev.thrRestart (d : Dev) (th : Nat) : Dev :=
  let t := d.thr th
  if t.st != .stopped then d
  else d.setThr th { timer := t.timer, timerSlot := t.timerSlot, timerFn := t.timerFn }

/-- IMEM_FILL_DONE: the read of a line ends (R84). -/
def Dev.imemDone (d : Dev) (th : Nat) (cpl : Cpl) : Dev :=
  match d.findRead (.imem th), (d.thr th).stall with
  | some tag, .imem slot ver line got =>
    let (base, first) := d.linePart slot ver line 0
    let (va, len) := d.linePart slot ver line (if got.isSome then 1 else 0)
    let (d, r) := d.takeRead tag len cpl
    match r, cpl.good with
    | none, _ => d
    | some _, none => d.fetchTrap th (if got.isSome then va else base)
    | some _, some v =>
      match got with
      | none =>
        if first < 72 then d.lineRead th slot ver line (some (v % 2 ^ (8 * first)))
        else
          (d.addLine (clusterOf th) ⟨slot, ver, line, v % 2 ^ 576⟩).updThr th (fun t => { t with st := .ready, stall := .none })
      | some v0 =>
        (d.addLine (clusterOf th) ⟨slot, ver, line, (v0 + v * 2 ^ (8 * first)) % 2 ^ 576⟩).updThr th
          (fun t => { t with st := .ready, stall := .none })
  | some tag, _ => (d.takeRead tag 72 cpl).1
  | none, _ => d

end Sys2Proof.Machine
end

