-- ==== Sys2Proof/Machine/Alu.lean ====
section
/-! DEFINITION. Integer, bit, predicate and tag instructions (R42 to R50) and the system instructions of R72 and R73 that
touch no other unit. -/

namespace Sys2Proof.Machine

/-! ### Issue by format -/

/-- A format A instruction under opcode `op`; the checks common to it are the extension and `bad`. -/
def Dev.issueA (d : Dev) (op th : Nat) (f : FmtA) (ext : Ext) (bad : Bool) (body : Dev → IRes) (sup : Bool := false)
    (noCmd : Bool := false) : Dev :=
  d.issue th (wordA op f) ext f.guard.toNat (extBad (d.thr th) ext || bad) sup noCmd body

/-- A format I instruction whose extension must be 0 (N). -/
def Dev.issueIN (d : Dev) (op th : Nat) (f : FmtI) (ext : Ext) (bad : Bool) (body : Dev → IRes) : Dev :=
  d.issue th (wordI op f) ext f.guard.toNat (extBad (d.thr th) ext || bad) false false body

/-- A format I instruction with an immediate (S or Z). -/
def Dev.issueI (d : Dev) (op th : Nat) (f : FmtI) (ext : Ext) (bad : Bool) (body : Dev → IRes) (sup : Bool := false) : Dev :=
  d.issue th (wordI op f) ext f.guard.toNat bad sup false body

/-- The effective immediate of a format I instruction (R40 S). -/
def immOf (t : Thread) (f : FmtI) (ext : Ext) : Word := immS (pcCmd t.pc) f.imm.toNat 14 ext

/-! ### Integer results (R42 to R46) -/

/-- The operations of alu (R42). divs rounds toward zero and rems takes the dividend's sign, which the spec does not say
(DESIGN CHOICE, log entry 34). -/
def aluOp (fn : Nat) (a b : Word) : Word :=
  let n := b.toNat % 64
  match fn with
  | 0x000 => a + b
  | 0x001 => a - b
  | 0x002 => a &&& b
  | 0x003 => a ||| b
  | 0x004 => a ^^^ b
  | 0x005 => a <<< n
  | 0x006 => a >>> n
  | 0x007 => a.sshiftRight n
  | 0x008 => a * b
  | 0x009 => BitVec.ofNat 64 (a.toNat * b.toNat / 2 ^ 64)
  | 0x00A => BitVec.ofInt 64 (a.toInt * b.toInt / 2 ^ 64)
  | 0x00B => if b = 0 then BitVec.allOnes 64 else BitVec.ofNat 64 (a.toNat / b.toNat)
  | 0x00C => if b = 0 then BitVec.allOnes 64 else BitVec.ofInt 64 (a.toInt.tdiv b.toInt)
  | 0x00D => if b = 0 then a else BitVec.ofNat 64 (a.toNat % b.toNat)
  | 0x00E => if b = 0 then a else BitVec.ofInt 64 (a.toInt.tmod b.toInt)
  | 0x00F => if a.toInt ≤ b.toInt then a else b
  | 0x010 => if b.toInt ≤ a.toInt then a else b
  | 0x011 => if a.toNat ≤ b.toNat then a else b
  | 0x012 => if b.toNat ≤ a.toNat then a else b
  | _ => a &&& ~~~b

/-- Count of the bits set among the `n` low ones. -/
def popCount (x : Word) (n : Nat) : Nat := ((List.range n).filter (fun k => x.getLsbD k)).length

/-- Bytes of a word reversed. -/
def bswap (x : Word) : Nat := (List.range 8).foldl (fun v k => v + getBits x (8 * k) 8 * 2 ^ (8 * (7 - k))) 0
/-- Bits of a word reversed. -/
def brev (x : Word) : Nat := (List.range 64).foldl (fun v k => v + getBits x k 1 * 2 ^ (63 - k)) 0
/-- The lowest or highest set bit's distance from the end; 64 for zero. -/
def ctz (x : Word) : Nat := ((List.range 64).find? (fun k => x.getLsbD k)).getD 64
def clz (x : Word) : Nat := ((List.range 64).find? (fun k => x.getLsbD (63 - k))).getD 64

/-- The operations of bit (R45). -/
def bitOp (fn : Nat) (a : Word) : Nat :=
  match fn with
  | 0 => popCount a 64
  | 1 => clz a
  | 2 => ctz a
  | 3 => bswap a
  | _ => brev a

/-- The conditions of cmp (R47). -/
def condOf (fn : Nat) (a b : Word) : Bool :=
  match fn with
  | 0 => a == b
  | 1 => a != b
  | 2 => a.toInt < b.toInt
  | 3 => b.toInt ≤ a.toInt
  | 4 => a.toNat < b.toNat
  | _ => b.toNat ≤ a.toNat

/-- The operations of pop (R48). -/
def predOp (fn : Nat) (a b : Bool) : Bool :=
  match fn with
  | 0 => a && b
  | 1 => a || b
  | 2 => a != b
  | _ => a && !b

/-- An integer instruction with second operand `b` of tag `tb`: its result and tag (R35 to R37). `addSub` keeps PTR. -/
def intRes (d : Dev) (th wd wa : Nat) (b : Word) (tb fn : Nat) : Dev :=
  let x := (d.thr th).reg wa
  let ptr := fn ≤ 1 && tagPtr (tagOf x) && !tagPtr tb
  d.setW th wd (mkWord (aluOp fn (TWord.val x) b) (resultTag (tagOf x) (isPoison x || tagPoison tb) ptr))

/-- addi, andi, ori, xori (R43). -/
def Dev.intImm (d : Dev) (op fn th : Nat) (f : FmtI) (ext : Ext) : Dev :=
  d.issueI op th f ext false (fun d => .next (intRes d th f.wd.toNat f.wa.toNat (immOf (d.thr th) f ext) 0 fn))

/-- shli, shri, srai (R43). -/
def Dev.shiftImm (d : Dev) (op fn th : Nat) (f : FmtI) (ext : Ext) : Dev :=
  d.issueIN op th f ext (64 ≤ f.imm.toNat) (fun d => .next (intRes d th f.wd.toNat f.wa.toNat (f.imm.setWidth 64) 0 fn))

/-- cmpi.eq, cmpi.lt, cmpi.ltu (R47). -/
def Dev.cmpImm (d : Dev) (op fn th : Nat) (f : FmtI) (ext : Ext) : Dev :=
  d.issueI op th f ext (8 ≤ f.wd.toNat) (fun d => noPoison d th [f.wa.toNat] (fun _ =>
    let t := d.thr th
    .next (d.setThr th (t.setPred f.wd.toNat (condOf fn (TWord.val (t.reg f.wa.toNat)) (immOf t f ext))))))

def execAlu (th : Tid) (f : FmtA) (ext : Ext) (s : State) : Host.Outcome State Fault Refusal :=
  onDev s (fun d => d.issueA 0x10 th f ext (0x13 < f.fn.toNat) (fun d =>
    let b := (d.thr th).reg f.wb.toNat
    .next (intRes d th f.wd.toNat f.wa.toNat (TWord.val b) (tagOf b) f.fn.toNat)))

def execAddi (th : Tid) (f : FmtI) (ext : Ext) (s : State) : Host.Outcome State Fault Refusal :=
  onDev s (fun d => d.intImm 0x11 0 th f ext)
def execAndi (th : Tid) (f : FmtI) (ext : Ext) (s : State) : Host.Outcome State Fault Refusal :=
  onDev s (fun d => d.intImm 0x12 2 th f ext)
def execOri (th : Tid) (f : FmtI) (ext : Ext) (s : State) : Host.Outcome State Fault Refusal :=
  onDev s (fun d => d.intImm 0x13 3 th f ext)
def execXori (th : Tid) (f : FmtI) (ext : Ext) (s : State) : Host.Outcome State Fault Refusal :=
  onDev s (fun d => d.intImm 0x14 4 th f ext)
def execShli (th : Tid) (f : FmtI) (ext : Ext) (s : State) : Host.Outcome State Fault Refusal :=
  onDev s (fun d => d.shiftImm 0x15 5 th f ext)
def execShri (th : Tid) (f : FmtI) (ext : Ext) (s : State) : Host.Outcome State Fault Refusal :=
  onDev s (fun d => d.shiftImm 0x16 6 th f ext)
def execSrai (th : Tid) (f : FmtI) (ext : Ext) (s : State) : Host.Outcome State Fault Refusal :=
  onDev s (fun d => d.shiftImm 0x17 7 th f ext)

/-- movi (R44): a format W instruction has no guard (R39). -/
def execMovi (th : Tid) (f : FmtW) (ext : Ext) (s : State) : Host.Outcome State Fault Refusal :=
  onDev s (fun d => d.issue th (wordW 0x18 f) ext 0 false false false (fun d =>
    .next (d.setW th f.wd.toNat (mkWord (immS (pcCmd (d.thr th).pc) f.imm.toNat 23 ext) 0))))

/-- movk: it keeps wd's tag but for PTR, as R44 says, where R37 gives movk's result DTYPE NONE; the rules differ, and the
one about movk alone is followed (DESIGN CHOICE, log entry 34). -/
def execMovk (th : Tid) (f : FmtW) (ext : Ext) (s : State) : Host.Outcome State Fault Refusal :=
  onDev s (fun d => d.issue th (wordW 0x19 f) ext 0 (extBad (d.thr th) ext || 2 ^ 18 ≤ f.imm.toNat) false false (fun d =>
    let x := (d.thr th).reg f.wd.toNat
    let v := setBits (TWord.val x) (16 * bitsOf f.imm.toNat 16 2) 16 (bitsOf f.imm.toNat 0 16)
    .next (d.setW th f.wd.toNat (mkWord v (tagOf x % 32)))))

def execBit (th : Tid) (f : FmtA) (ext : Ext) (s : State) : Host.Outcome State Fault Refusal :=
  onDev s (fun d => d.issueA 0x1A th f ext (4 < f.fn.toNat || f.wb != 0) (fun d =>
    let x := (d.thr th).reg f.wa.toNat
    .next (d.setW th f.wd.toNat (mkWord (BitVec.ofNat 64 (bitOp f.fn.toNat (TWord.val x)))
      (resultTag (tagOf x) (isPoison x) false)))))

/-- sel (R46): POISON of the selected source alone. -/
def execSel (th : Tid) (f : FmtA) (ext : Ext) (s : State) : Host.Outcome State Fault Refusal :=
  onDev s (fun d => d.issueA 0x1B th f ext (8 ≤ f.fn.toNat) (fun d =>
    let t := d.thr th
    let a := t.reg f.wa.toNat
    let x := if t.pred f.fn.toNat then a else t.reg f.wb.toNat
    .next (d.setW th f.wd.toNat (mkWord (TWord.val x) (resultTag (tagOf a) (isPoison x) false)))))

def execCmp (th : Tid) (f : FmtA) (ext : Ext) (s : State) : Host.Outcome State Fault Refusal :=
  onDev s (fun d => d.issueA 0x1C th f ext (5 < f.fn.toNat || 8 ≤ f.wd.toNat) (fun d =>
    noPoison d th [f.wa.toNat, f.wb.toNat] (fun _ =>
      let t := d.thr th
      .next (d.setThr th (t.setPred f.wd.toNat
        (condOf f.fn.toNat (TWord.val (t.reg f.wa.toNat)) (TWord.val (t.reg f.wb.toNat))))))))

def execCmpiEq (th : Tid) (f : FmtI) (ext : Ext) (s : State) : Host.Outcome State Fault Refusal :=
  onDev s (fun d => d.cmpImm 0x1D 0 th f ext)
def execCmpiLt (th : Tid) (f : FmtI) (ext : Ext) (s : State) : Host.Outcome State Fault Refusal :=
  onDev s (fun d => d.cmpImm 0x1E 2 th f ext)
def execCmpiLtu (th : Tid) (f : FmtI) (ext : Ext) (s : State) : Host.Outcome State Fault Refusal :=
  onDev s (fun d => d.cmpImm 0x1F 4 th f ext)

def execPop (th : Tid) (f : FmtA) (ext : Ext) (s : State) : Host.Outcome State Fault Refusal :=
  onDev s (fun d => d.issueA 0x20 th f ext (3 < f.fn.toNat || 8 ≤ f.wd.toNat || 8 ≤ f.wa.toNat || 8 ≤ f.wb.toNat) (fun d =>
    let t := d.thr th
    .next (d.setThr th (t.setPred f.wd.toNat (predOp f.fn.toNat (t.pred f.wa.toNat) (t.pred f.wb.toNat))))))

/-! ### Tags (R49, R50) -/

/-- A new tag for wa's value; only a supervisor may declare poisoned data good (R50). -/
def setTag (d : Dev) (th wd wa tag word : Nat) : IRes :=
  let t := d.thr th
  let x := t.reg wa
  if !t.priv && isPoison x && !tagPoison tag then .trap tcPrivilege (BitVec.ofNat 64 word)
  else .next (d.setW th wd (mkWord (TWord.val x) (cleanTag tag)))

/-- Opcode 0x28, by its minor function: tag.get and tag.set. -/
def Dev.tagInstr (d : Dev) (th : Nat) (f : FmtA) (ext : Ext) : Dev :=
  d.issueA 0x28 th f ext (1 < f.fn.toNat || (f.fn = 0 && f.wb != 0)) (fun d =>
    let t := d.thr th
    if f.fn = 0 then .next (d.setVal th f.wd.toNat (tagOf (t.reg f.wa.toNat)))
    else setTag d th f.wd.toNat f.wa.toNat ((TWord.val (t.reg f.wb.toNat)).toNat % 256) (wordA 0x28 f))

def execTagGet (th : Tid) (f : FmtA) (ext : Ext) (s : State) : Host.Outcome State Fault Refusal :=
  onDev s (fun d => d.tagInstr th f ext)
def execTagSet (th : Tid) (f : FmtA) (ext : Ext) (s : State) : Host.Outcome State Fault Refusal :=
  onDev s (fun d => d.tagInstr th f ext)
def execTagSeti (th : Tid) (f : FmtI) (ext : Ext) (s : State) : Host.Outcome State Fault Refusal :=
  onDev s (fun d => d.issueIN 0x29 th f ext (256 ≤ f.imm.toNat) (fun d =>
    setTag d th f.wd.toNat f.wa.toNat f.imm.toNat (wordI 0x29 f)))
def execTagTst (th : Tid) (f : FmtI) (ext : Ext) (s : State) : Host.Outcome State Fault Refusal :=
  onDev s (fun d => d.issueIN 0x2A th f ext (16 ≤ f.imm.toNat || 8 ≤ f.wd.toNat) (fun d =>
    let t := d.thr th
    let x := t.reg f.wa.toNat
    .next (d.setThr th (t.setPred f.wd.toNat (tagType (tagOf x) == f.imm.toNat && !isPoison x)))))

/-! ### System instructions (R30, R31, R72, R73) -/

/-- A format A instruction that uses no field but its guard. -/
def bareA (f : FmtA) : Bool := f.wd != 0 || f.wa != 0 || f.wb != 0 || f.fn != 0

def execNop (th : Tid) (f : FmtA) (ext : Ext) (s : State) : Host.Outcome State Fault Refusal :=
  onDev s (fun d => d.issueA 0x01 th f ext (bareA f) (fun d => .idle d))
/-- trap: its TPC is the next instruction (R72). -/
def execTrap (th : Tid) (f : FmtI) (ext : Ext) (s : State) : Host.Outcome State Fault Refusal :=
  onDev s (fun d => d.issueIN 0x02 th f ext (f.wd != 0 || f.wa != 0) (fun d =>
    .done (d.trap th tcSoftware (f.imm.setWidth 64) (pcNext (d.thr th).pc))))
/-- yield: which thread of the core issues next is the core's choice among those ready (R25). -/
def execYield (th : Tid) (f : FmtA) (ext : Ext) (s : State) : Host.Outcome State Fault Refusal :=
  onDev s (fun d => d.issueA 0x03 th f ext (bareA f) (fun d => .idle d))

/-- Context registers that the table reserves (R30). -/
def ctxReserved (n : Nat) : Bool := n == 9 || n == 13 || n == 19 || 21 ≤ n

/-- The value of context register n (R30). -/
def Dev.ctxRead (d : Dev) (th n : Nat) : Nat :=
  let t := d.thr th
  match n with
  | 0 => th
  | 1 => t.fn
  | 2 => t.asid
  | 3 => if t.priv then 1 else 0
  | 4 => if pcCmd t.pc then 0 else pcSlot t.pc + pcVer t.pc * 2 ^ 10
  | 5 => t.pc.toNat
  | 6 => t.cause.toNat
  | 7 => t.tval.toNat
  | 8 => t.tpc.toNat
  | 10 => t.queue + (if t.cmd then 2 ^ 16 else 0)
  | 11 => t.seq
  | 12 => t.event
  | 14 => d.ps / 625
  | 15 => d.ns
  | 16 => t.ftfrac
  | 17 => d.scratchBase (clusterOf th) t.fn
  | 18 => saveArea th
  | _ => t.timer

def execRdc (th : Tid) (f : FmtA) (ext : Ext) (s : State) : Host.Outcome State Fault Refusal :=
  onDev s (fun d => d.issueA 0x06 th f ext (f.wb != 0 || f.fn != 0 || ctxReserved f.wa.toNat) (fun d =>
    let n := f.wa.toNat
    if n = 8 && !(d.thr th).priv then .trap tcPrivilege (BitVec.ofNat 64 (wordA 0x06 f))
    else
      let v := d.ctxRead th n
      let d := if n = 15 then d.updThr th (fun t => { t with ftfrac := d.ns16 % 2 ^ 16 }) else d
      .next (d.setVal th f.wd.toNat v)))

/-- A write of c2: in U3-compatible mode with its flush (R32). -/
def Dev.setAsid (d : Dev) (th asid : Nat) : Dev :=
  let d := d.updThr th (fun t => { t with asid := asid })
  if d.flag F.XLT_CFG_MODE && !isCore th then d.u3Flush (clusterOf th) asid else d

/-- A write of c20 (R31). -/
def Dev.setTimer (d : Dev) (th v : Nat) : Dev :=
  d.updThr th (fun t => { t with timer := v, timerFn := t.fn,
                                 timerSlot := if pcCmd t.pc then none else some (pcSlot t.pc) })

def execWrc (th : Tid) (f : FmtA) (ext : Ext) (s : State) : Host.Outcome State Fault Refusal :=
  onDev s (fun d => d.issueA 0x07 th f ext (f.wb != 0 || f.fn != 0 || ctxReserved f.wd.toNat) (fun d =>
    let t := d.thr th
    let v := (TWord.val (t.reg f.wa.toNat)).toNat
    if f.wd.toNat = 20 then .next (d.setTimer th v)
    else if f.wd.toNat = 2 && t.priv then .next (d.setAsid th (v % 2 ^ 16))
    else .trap tcPrivilege (BitVec.ofNat 64 (wordA 0x07 f))))

/-- prog.swap of slot n (R86): the result for wd. -/
def Dev.swap (d : Dev) (n img len : Nat) : Dev × Nat :=
  if d.flag F.ENG_SLOT_STAT_DRAINING n then (d, Status.SWAP_BUSY)
  else
    let old := d.slotImg n (d.slotVer n)
    let k := d.rd F.ENG_SLOT_STAT_ACTIVE_NEW n
    let d := (d.wr F.ENG_SLOT_IMG_BASE n img).wr F.ENG_SLOT_IMG_SRC n (img / 2 ^ 57)
    let d := d.wr F.ENG_SLOT_CTL_LEN_M1 n len
    let d := (d.wr F.ENG_SLOT_STAT_VERSION n (d.slotVer n + 1)).wr F.ENG_SLOT_STAT_ACTIVE_NEW n 0
    if k = 0 then (d.dropLines n, 0)
    else ({ (d.wr F.ENG_SLOT_STAT_ACTIVE_OLD n k).wr F.ENG_SLOT_STAT_DRAINING n 1 with
              eng.oldImg := Tbl.put n old d.eng.oldImg }, 0)

def execProgSwap (th : Tid) (f : FmtA) (ext : Ext) (s : State) : Host.Outcome State Fault Refusal :=
  onDev s (fun d => d.issueA 0x08 th f ext (f.fn != 0) (sup := true) (fun d =>
    noPoison d th [f.wa.toNat, f.wb.toNat] (fun _ =>
      let t := d.thr th
      let a := (TWord.val (t.reg f.wa.toNat)).toNat
      let (d, st) := d.swap (bitsOf a 0 10) (TWord.val (t.reg f.wb.toNat)).toNat (bitsOf a 16 16)
      .next (d.setVal th f.wd.toNat st))))

/-! ### Commands on threads -/

def execTimerExpire (th : Tid) (s : State) : Host.Outcome State Fault Refusal := onDev s (fun d => d.timerExpire th)
def execEventStart (th : Tid) (s : State) : Host.Outcome State Fault Refusal := onDev s (fun d => d.eventStart th)
def execImemFillDone (th : Tid) (cpl : Cpl) (s : State) : Host.Outcome State Fault Refusal :=
  onDev s (fun d => (d.imemDone th cpl).invPoll)
def execThrRestart (th : Eid) (s : State) : Host.Outcome State Fault Refusal :=
  onDev s (fun d => (d.wake (th.val / 64)).thrRestart th)

end Sys2Proof.Machine
end

