-- ==== Sys2Proof/Machine/Lsu.lean ====
section
/-! DEFINITION. Loads, stores and scratch atomics (R51 to R56). ld.p and st.p of a Basecamp core, which may reach the
register space, are completed in Machine/Late.lean. -/

namespace Sys2Proof.Machine

/-- The requester class of a thread (R486). -/
def Dev.classOf (d : Dev) (th : Nat) : Nat := if isCore th then 4 else if (d.thr th).priv then 1 else 0

/-- The function that FN_MATCH sees of a thread: a Basecamp core has none (R486). -/
def Dev.gateFn (d : Dev) (th : Nat) : Option Nat := if isCore th then none else some (d.thr th).fn

/-- The trap of a gate denial at byte b (R489). -/
def Dev.gateTrap (d : Dev) (th g b : Nat) : IRes :=
  let cls := d.classOf th
  .trapIn (d.deny g cls (d.gateFn th) b) (if isCore th then tcBus else tcGate) (BitVec.ofNat 64 b)

/-- The address of a format I access: wa + imm * 8. -/
def Dev.eaOf (d : Dev) (th : Nat) (f : FmtI) (ext : Ext) : Nat :=
  let t := d.thr th
  (TWord.val (t.reg f.wa.toNat) + immOf t f ext * 8).toNat

/-- ALIGN of an address. -/
def aligned (a n : Nat) (k : Unit → IRes) : IRes := if a % n = 0 then k () else .trap tcAlign (BitVec.ofNat 64 a)

/-! ### Scratch and Depot -/

/-- A scratch access of 8 bytes that passes its gate. Basecamp's SRAM has no gate; beyond its 8 MiB lies nothing. -/
def Dev.scratchOk (d : Dev) (th a need : Nat) (k : Unit → IRes) : IRes :=
  if isCore th then (if a < 2 ^ 23 then k () else .trap tcBus (BitVec.ofNat 64 a))
  else
    let g := clusterOf th + 2
    match d.gateFail g (d.classOf th) (d.gateFn th) a 8 need with
    | some b => d.gateTrap th g b
    | none => k ()

def Dev.depotOk (d : Dev) (th a need : Nat) (k : Unit → IRes) : IRes :=
  match d.gateFail 0 (d.classOf th) (d.gateFn th) a 8 need with
  | some b => d.gateTrap th 0 b
  | none => k ()

def execLdS (th : Tid) (f : FmtI) (ext : Ext) (ecc : Ecc) (s : State) : Host.Outcome State Fault Refusal :=
  onDev s (fun d => d.issueI 0x30 th f ext false (fun d => noPoison d th [f.wa.toNat] (fun _ =>
    let a := d.eaOf th f ext
    aligned a 8 (fun _ => d.scratchOk th a 1 (fun _ =>
      let (d, w) := d.scrRead (clusterOf th) a ecc
      .next (d.setW th f.wd.toNat w))))))

def execStS (th : Tid) (f : FmtI) (ext : Ext) (s : State) : Host.Outcome State Fault Refusal :=
  onDev s (fun d => d.issueI 0x31 th f ext false (fun d => noPoison d th [f.wa.toNat] (fun _ =>
    let a := d.eaOf th f ext
    aligned a 8 (fun _ => d.scratchOk th a 2 (fun _ =>
      .next (d.setScrWord (clusterOf th) a ((d.thr th).reg f.wd.toNat)))))))

def execLdD (th : Tid) (f : FmtI) (ext : Ext) (ecc : Ecc) (s : State) : Host.Outcome State Fault Refusal :=
  onDev s (fun d => d.issueI 0x32 th f ext false (fun d => noPoison d th [f.wa.toNat] (fun _ =>
    let a := d.eaOf th f ext
    aligned a 8 (fun _ => d.depotOk th a 1 (fun _ =>
      let (d, w) := d.depWake.depRead a ecc
      .next (d.setW th f.wd.toNat w))))))

def execStD (th : Tid) (f : FmtI) (ext : Ext) (s : State) : Host.Outcome State Fault Refusal :=
  onDev s (fun d => d.issueI 0x33 th f ext false (fun d => noPoison d th [f.wa.toNat] (fun _ =>
    let a := d.eaOf th f ext
    aligned a 8 (fun _ => d.depotOk th a 2 (fun _ =>
      .next ((d.depWake.ev 11 1).setDepWord a ((d.thr th).reg f.wd.toNat)))))))

/-! ### Host memory -/

/-- A trap of an access that had stalled its thread. -/
def Dev.stallTrap (d : Dev) (th cause : Nat) (tval : Word) : Dev :=
  (d.updThr th (fun t => { t with st := .ready, stall := .none })).trapHere th cause tval

/-- The address of a thread's host access of `n` bytes within a page, through window `win` where that is not 0, and the
function whose port it takes. -/
def Dev.engAddr (d : Dev) (th va n : Nat) (k : Kind) (win : Nat) (work : Work) : Dev × XRes × Nat :=
  let t := d.thr th
  let w := d.winOf win
  if win != 0 && w.phys then
    match d.gateFail (18 + w.owner / 256) 1 (some w.owner) va n (kindNeed k) with
    | some b => (d.deny (18 + w.owner / 256) 1 (some w.owner) b, .fault, w.owner)
    | none => (d, .ok va, w.owner)
  else
    let r : XReq :=
      if win = 0 then { asid := t.asid, va := va, kind := k, priv := t.priv,
                        cluster := if isCore th then none else some (clusterOf th) }
      else { asid := w.asid, va := va, kind := k, priv := d.isPf w.owner }
    let (d, x) := d.xlate r work false t.fn
    (d, x, d.asidFn r.asid)

/-- The trap of an access that has no address (R52, R74, R489). -/
def Dev.xltTrap (d : Dev) (th va win : Nat) : Dev :=
  if win != 0 && (d.winOf win).phys then d.stallTrap th tcWindow (BitVec.ofNat 64 (win + Status.WIN_XLT * 2 ^ 32))
  else d.stallTrap th tcXlt (BitVec.ofNat 64 (va % 2 ^ 57))

/-- A load of bytes `got` on, within a page, whose address is `x` on function fn's port: its read is issued, or it waits for
a walk, or it traps. -/
def Dev.loadGot (d : Dev) (th wd va size win got data : Nat) (x : XRes) (fn : Nat) : Dev :=
  let a := va + got
  let n := min (size - got) (4096 - a % 4096)
  match x with
  | .ok b =>
    let (d, tag) := d.hostRead fn b n (.load th win)
    match tag with
    | some tag => d.stall th (.load tag wd va size win got data)
    | none => d.stallTrap th tcBus (BitVec.ofNat 64 va)
  | .fault => d.xltTrap th a win
  | .page tv => d.stallTrap th tcPage tv
  | .wait => d.stall th (.walk wd va size win got data)

/-- The next part of a load. -/
def Dev.loadStep (d : Dev) (th wd va size win got data : Nat) : Dev :=
  let a := va + got
  let (d, x, fn) := d.engAddr th a (min (size - got) (4096 - a % 4096)) .read win (.ldH th)
  d.loadGot th wd va size win got data x fn

/-- A store of the part within a page, whose address is `x`; `rest` goes on with what follows it. -/
def Dev.storeGot (d : Dev) (th va data size win : Nat) (x : XRes) (fn : Nat) (rest : Dev → Nat → Dev) : Dev :=
  let n := min size (4096 - va % 4096)
  match x with
  | .ok b =>
    let d := d.hostWrite fn b n (data % 2 ^ (8 * n))
    if size = n then (d.updThr th (fun t => { t with st := .ready, stall := .none })).goOn th else rest d n
  | .fault => d.xltTrap th va win
  | .page tv => d.stallTrap th tcPage tv
  | .wait => d.stall th .store

/-- A store, part by part where it crosses a page. -/
def Dev.storeStep (d : Dev) (th va data size win : Nat) : Nat → Dev
  | 0 => d
  | fuel + 1 =>
    let n := min size (4096 - va % 4096)
    let (d, x, fn) := d.engAddr th va n .write win (.stH th va data size win)
    d.storeGot th va data size win x fn (fun d n => d.storeStep th (va + n) (data / 2 ^ (8 * n)) (size - n) win fuel)

def execLdH (th : Tid) (f : FmtI) (ext : Ext) (s : State) : Host.Outcome State Fault Refusal :=
  onDev s (fun d => d.issueI 0x34 th f ext false (fun d => noPoison d th [f.wa.toNat] (fun _ =>
    let a := d.eaOf th f ext
    aligned a 8 (fun _ => .done (d.loadStep th f.wd.toNat a 8 0 0 0)))))

def execStH (th : Tid) (f : FmtI) (ext : Ext) (s : State) : Host.Outcome State Fault Refusal :=
  onDev s (fun d => d.issueI 0x35 th f ext false (fun d => noPoison d th [f.wa.toNat, f.wd.toNat] (fun _ =>
    let a := d.eaOf th f ext
    aligned a 8 (fun _ => .done (d.storeStep th a (TWord.val ((d.thr th).reg f.wd.toNat)).toNat 8 0 2)))))

/-- The output gate before the whole of an access through a physical window, which its pages do not divide (R489): the first
failing byte. -/
def Dev.windowGate (d : Dev) (w : Win) (off size right : Nat) : Option Nat :=
  if w.phys then d.gateFail (18 + w.owner / 256) 1 (some w.owner) (w.base + off) size (if right = rLW then 2 else 1) else none

/-- ld.w and st.w: the window's checks, then the access (R51, R52, R147). The address that R52 aligns is taken as the
offset within the window, and TVAL holds it (DESIGN CHOICE, log entry 34). -/
def Dev.windowed (d : Dev) (th : Nat) (f : FmtA) (right : Nat) (k : Dev → Nat → Nat → Nat → Dev) : IRes :=
  let t := d.thr th
  let h := (TWord.val (t.reg f.wa.toNat)).toNat % 2 ^ 32
  let off := (TWord.val (t.reg f.wb.toNat)).toNat % 2 ^ 48
  let size := 2 ^ (f.fn.toNat % 4)
  aligned off size (fun _ =>
    let d := d.winLook h
    let st := d.winCheck h (localPeer t.fn t.priv) right off size
    if st != 0 then .trapIn (d.winFail st) tcWindow (BitVec.ofNat 64 (h + st * 2 ^ 32))
    else match d.windowGate (d.winOf h) off size right with
      | some b => .trapIn (d.deny (18 + (d.winOf h).owner / 256) 1 (some (d.winOf h).owner) b) tcWindow
          (BitVec.ofNat 64 (h + Status.WIN_XLT * 2 ^ 32))
      | none => .done (k d h ((d.winOf h).base + off) size))

def execLdW (th : Tid) (f : FmtA) (ext : Ext) (s : State) : Host.Outcome State Fault Refusal :=
  onDev s (fun d => d.issueA 0x36 th f ext (4 ≤ f.fn.toNat) (fun d => noPoison d th [f.wa.toNat, f.wb.toNat] (fun _ =>
    d.windowed th f rLR (fun d h va size => d.loadStep th f.wd.toNat va size h 0 0))))

def execStW (th : Tid) (f : FmtA) (ext : Ext) (s : State) : Host.Outcome State Fault Refusal :=
  onDev s (fun d => d.issueA 0x37 th f ext (4 ≤ f.fn.toNat) (fun d =>
    noPoison d th [f.wa.toNat, f.wb.toNat, f.wd.toNat] (fun _ =>
      d.windowed th f rLW (fun d h va size =>
        d.storeStep th va ((TWord.val ((d.thr th).reg f.wd.toNat)).toNat % 2 ^ (8 * size)) size h 2))))

/-- A completion for a thread's load (R54). -/
def Dev.loadDone (d : Dev) (th win : Nat) (tag : Nat) (cpl : Cpl) : Dev :=
  match (d.thr th).stall with
  | .load t wd va size _ got data =>
    if t != tag then (d.takeRead tag 8 cpl).1
    else
      let n := min (size - got) (4096 - (va + got) % 4096)
      let (d, r) := d.takeRead tag n cpl
      match r, cpl with
      | none, _ => d
      | some _, .err => d.stallTrap th tcBus (BitVec.ofNat 64 va)
      | some _, .ok v poison =>
        -- Poison seen so far stands above the value.
        let p := poison || 2 ^ 64 ≤ data
        let v := data % 2 ^ 64 + v % 2 ^ (8 * n) * 2 ^ (8 * got) + (if p then 2 ^ 64 else 0)
        if got + n = size then d.finish th wd (mkWord (BitVec.ofNat 64 (v % 2 ^ 64)) (if p then 16 else 0))
        else d.loadStep th wd va size win (got + n) v
  | _ => (d.takeRead tag 8 cpl).1

/-! ### amo.s (R56, R60) -/

/-- The operations and datatypes that R60 lists; `float` admits fadd. NONE, which R34 treats as u64 where a type is needed,
is not among them and traps ILLEGAL (DESIGN CHOICE, log entry 34). -/
def amoLegal (op dt : Nat) (float : Bool) : Bool :=
  if op = 0 || op = 4 || op = 5 then 1 ≤ dt && dt ≤ 4
  else if op ≤ 7 then dt == 2 || dt == 4
  else float && op == 8 && (dt == 5 || dt == 6)

/-- Bits of an atomic's datatype: 32 for S32, U32, F32, else 64. -/
def amoBits (dt : Nat) : Nat := if dt = 1 || dt = 2 || dt = 6 then 32 else 64

/-- The new value of an integer atomic on `w` bits: `a` the operand, `b` the compare value of cas. -/
def amoInt (op dt w old a b : Nat) : Nat :=
  let sgn := dt == 1 || dt == 3
  let less := fun (x y : Nat) => if sgn then decide (signed x w < signed y w) else decide (x < y)
  match op with
  | 0 => (old + a) % 2 ^ w
  | 1 => old &&& a
  | 2 => old ||| a
  | 3 => old ^^^ a
  | 4 => if less a old then a else old
  | 5 => if less old a then a else old
  | 6 => a
  | _ => if old = b then a else old

/-- The word that amo.s leaves. What the spec does not state is free (log entry 1): the upper half of the word after a
32-bit operation, and the tag's DTYPE and PTR. -/
def amoWord (op dt : Nat) (old opnd : TWord) (cmp : Nat) (free tag : Word) : TWord :=
  let w := amoBits dt
  let v := amoInt op dt w ((TWord.val old).toNat % 2 ^ w) ((TWord.val opnd).toNat % 2 ^ w) (cmp % 2 ^ w)
  let v := if w = 64 then v else v + getBits free 32 32 * 2 ^ 32
  if op = 7 && (TWord.val old).toNat % 2 ^ w != cmp % 2 ^ w then old else
  mkWord (BitVec.ofNat 64 v) (resultTag (tag.toNat % 16) (isPoison old || isPoison opnd) (tag.getLsbD 5))

def execAmoS (th : Tid) (f : FmtA) (ext : Ext) (ecc : Ecc) (s : State) : Host.Outcome State Fault Refusal :=
  let op := f.fn.toNat / 16
  let dt := f.fn.toNat % 16
  onDev s (fun d => d.issueA 0x3A th f ext (!amoLegal op dt false) (fun d =>
    noPoison d th (f.wa.toNat :: (if op = 7 then [f.wd.toNat] else [])) (fun _ =>
      let t := d.thr th
      let a := (TWord.val (t.reg f.wa.toNat)).toNat
      aligned a 8 (fun _ => d.scratchOk th a 3 (fun _ =>
        let c := clusterOf th
        let (d, old) := d.scrRead c a ecc
        let (free, d) := d.freeWord
        let (tag, d) := d.freeWord
        let new := amoWord op dt old (t.reg f.wb.toNat) (TWord.val (t.reg f.wd.toNat)).toNat free tag
        .next ((d.setScrWord c a new).setW th f.wd.toNat old))))))

end Sys2Proof.Machine
end

