-- ==== Sys2Proof/Machine/Dispatching.lean ====
section
/-! DEFINITION. Control transfers of slot and command code (R69 to R71), and the commands of work queues: enabling, dispatch,
prefetch, error recovery (R100 to R110, R116 to R122). -/

namespace Sys2Proof.Machine

/-! ### Control transfer -/

/-- The code address `idx` of the running code. -/
def pcAt (pc : Word) (idx : Nat) : Word := setBits pc 0 17 idx

/-- A target within the image or the entry (R69, R70, R92). -/
def Dev.targetOk (d : Dev) (th : Nat) (target : Int) : Bool :=
  let t := d.thr th
  if isCore th then 0 ≤ target
  else if pcCmd t.pc then (pcIndex t.pc : Int) < target && target ≤ t.slots.length
  else 0 ≤ target && target < d.slotLen (pcSlot t.pc) (pcVer t.pc)

/-- br and call: own index plus off24. TVAL of a target whose index does not fit 17 bits holds the index modulo 2^17 (DESIGN
CHOICE, log entry 36). -/
def Dev.transfer (d : Dev) (th : Nat) (f : FmtB) (link : Bool) : IRes :=
  let t := d.thr th
  let target : Int := pcIndex t.pc + f.off.toInt
  if !d.targetOk th target then .trap tcIllegal (pcAt t.pc (unsigned target 17))
  else
    let d := if link then d.setW th 31 (mkWord (pcNext t.pc) 32) else d
    .done (d.goTo th (pcAt t.pc target.toNat))

/-- br: its guard is the branch condition (R39). -/
def execBr (th : Tid) (f : FmtB) (ext : Ext) (s : State) : Host.Outcome State Fault Refusal :=
  onDev s (fun d => d.issue th (wordB 0x70 f) ext f.guard.toNat (extBad (d.thr th) ext) false false
    (fun d => d.transfer th f false))

def execCall (th : Tid) (f : FmtB) (ext : Ext) (s : State) : Host.Outcome State Fault Refusal :=
  onDev s (fun d => d.issue th (wordB 0x71 f) ext f.guard.toNat (extBad (d.thr th) ext) false true
    (fun d => d.transfer th f true))

/-- jr: within the running slot and version. -/
def execJr (th : Tid) (f : FmtA) (ext : Ext) (s : State) : Host.Outcome State Fault Refusal :=
  onDev s (fun d => d.issueA 0x72 th f ext (f.wd != 0 || f.wb != 0 || f.fn != 0) (noCmd := true) (fun d =>
    let t := d.thr th
    let v := TWord.val (t.reg f.wa.toNat)
    if getBits v 17 19 != getBits t.pc 17 19 || !d.targetOk th (pcIndex v) then .trap tcIllegal v
    else noPoison d th [f.wa.toNat] (fun _ => .done (d.goTo th (pcAt t.pc (pcIndex v))))))

/-- invoke: the activation goes on at an entry of another slot (R71). -/
def execInvoke (th : Tid) (f : FmtW) (ext : Ext) (s : State) : Host.Outcome State Fault Refusal :=
  onDev s (fun d =>
    let n := bitsOf f.imm.toNat 0 10
    let bad := extBad (d.thr th) ext || 2 ^ 14 ≤ f.imm.toNat || f.wd != 0
    d.issue th (wordW 0x73 f) ext 0 bad false false (fun d =>
      let t := d.thr th
      let owned := d.rd F.ENG_SLOT_CTL_OWNER_FN n == t.fn || d.flag F.ENG_SLOT_CTL_SHARED n
      if !owned || (d.flag F.ENG_SLOT_CTL_PRIV n && !t.priv) then .trap tcPrivilege (BitVec.ofNat 64 (wordW 0x73 f))
      else if !d.flag F.ENG_SLOT_CTL_EN n then .trap tcSlotOff (BitVec.ofNat 64 n)
      else
        let v := d.slotVer n
        let d := (d.leaveSlot t.inSlot).enterSlot n
        .done (d.updThr th (fun t => { t with inSlot := some (n, v), pc := mkPc (bitsOf f.imm.toNat 10 4) n v }))))

/-! ### Enabling and disabling (R100, R102, R103, R126, R437) -/

/-- Header bits that must be 0, and the other checks of R116. -/
def malformed (v s : Nat) : Bool :=
  bitsOf v 0 32 != s || bitsOf v 32 3 == 0 || bitsOf v 37 11 != 0 || bitsOf v 48 16 != 0

/-- The queue groups of function f, in ascending order. -/
def Dev.groupsOf (d : Dev) (f : Nat) : List Nat := (List.range 4096).filter (fun g => d.qFn (16 * g) == f)

/-- ENABLE's conditions. -/
def Dev.qValid (d : Dev) (q : Nat) : Bool :=
  let f := d.qFn q
  let n := d.rd F.WQ_CTX_RING_LOG2_SIZE q
  let asid := d.rd F.WQ_CTX_CFG_ASID q
  let g := q / 16
  6 ≤ n && n ≤ 16 && d.qFn (g * 16) == f &&
  (d.isPf f || (!d.flag F.WQ_CTX_RING_PHYS q && !d.flag F.WQ_CTX_STAT_PHYS q &&
    ((d.groupsOf f).filter (fun h => h < g)).length < 16)) &&
  d.flag F.XLT_ASID_ROOT_EN asid && d.asidFn asid == f

def Dev.qReject (d : Dev) (q : Nat) : Dev := d.wr F.WQ_CTX_CTL_CMD_REJ q 1
def Dev.qState (d : Dev) (q st : Nat) : Dev := d.wr F.WQ_CTX_CTL_STATE q st

/-- OFF to ENABLING, or the refusal of an invalid configuration. -/
def Dev.qStart (d : Dev) (q : Nat) : Dev :=
  let x := d.queue q
  if d.qValid q then
    (d.setQueue q { wb := x.wb, recDue := x.recDue, intReq := x.intReq, wbWait := x.wbWait, fetch := x.fetch,
                    fetchOld := x.fetch.isSome }).qState q qsEnabling
  else (d.wr F.WQ_CTX_CTL_ERR_CAUSE q qeCfg).qReject q

/-- WQ_ENABLE. -/
def Dev.qEnable (d : Dev) (q : Nat) : Dev :=
  if d.halted then d
  else if d.qst q = qsOff then d.qStart q
  else if d.qst q = qsDraining then d.wr F.WQ_CTX_CTL_ENABLE_LATCHED q 1
  else d.qReject q

/-- Cached lines of the queue from entry `s` on are discarded, and its unused push with them; what a fetch or a prefetch in
flight brings is from before the discard, and is not used (R110). -/
def Dev.dropEntries (d : Dev) (q s : Nat) : Dev :=
  let gone := fun (n : Nat) => seqSub n s < 2 ^ 31
  let d := d.updQueue q (fun x => { x with
    push := x.push.filter (fun e => !gone e.1)
    fenced := x.fenced.filter (fun n => !gone n)
    fetchOld := x.fetch.isSome })
  { d with
    wq.cache := d.wq.cache.filter (fun e => !(e.1 / 2 ^ 32 == q && gone (e.1 % 2 ^ 32)))
    reads := d.reads.map (fun (e : Nat × HostRd) => match e.2.why with
      | .wqPre q' n _ => if q' = q then (e.1, { e.2 with why := .wqPre q n 0 }) else e
      | _ => e)
    xlt.walks := d.xlt.walks.map (fun (e : Nat × Walk) => match e.2.work with
      | .wqPre q' n _ => if q' = q then (e.1, { e.2 with work := .wqPre q n 0 }) else e
      | _ => e) }

/-- Every line of the queue is discarded. -/
def Dev.dropAll (d : Dev) (q : Nat) : Dev := (d.dropEntries q (d.qComp q)).dropEntries q (d.qComp q + 2 ^ 31)

/-- DISABLE in RUN, HOLD or ERROR (R102). -/
def Dev.qDrain (d : Dev) (q : Nat) : Dev :=
  ((((d.qState q qsDraining).updQueue q (fun x => { x with asm := none, redo := none }))).qNote q).wrrEnd (d.qFn q)

/-- The end of ENABLING (R102 to R104): the queue leaves it once its status record is written (R115). -/
def Dev.qEnableDone (d : Dev) (q : Nat) : Dev :=
  if d.qst q != qsEnabling || d.halted || (d.queue q).prepared then d
  else
    let d := (d.dropAll q).wr F.WQ_CTX_COMP_SEQ_ERR_CNT q 0
    let d := d.wr F.WQ_CTX_AUX_INCARNATION q (d.rd F.WQ_CTX_AUX_INCARNATION q + 1)
    (d.updQueue q (fun x => { x with prepared := true })).qNote q

/-- WQ_DISABLE. -/
def Dev.qDisable (d : Dev) (q : Nat) : Dev :=
  if d.halted then d
  else if d.qst q = qsRun || d.qst q = qsHold || d.qst q = qsError then d.qDrain q
  else d.qReject q

/-- A function's disabling disables each of its queues (R103). -/
def Dev.qFnDisable (d : Dev) (f : Nat) : Dev :=
  ((d.listed R.WQ_CTX_CTL).filter (fun e => d.qFn e.1 == f)).foldl (fun d e =>
    let q := e.1
    if d.qst q = qsEnabling then d.updQueue q (fun x => { x with disEnabling := true })
    else if d.qst q = qsOff || d.qst q = qsDraining then d
    else d.qDrain q) d

/-- WQ_DRAIN_DONE: every activation has ended and every operation has completed. -/
def Dev.qDrainDone (d : Dev) (q : Nat) : Dev :=
  let x := d.queue q
  if d.qst q != qsDraining || d.halted || x.running != 0 || x.ops != 0 then d
  else
    let d := (d.qState q qsOff).qNote q
    if d.flag F.WQ_CTX_CTL_ENABLE_LATCHED q then (d.wr F.WQ_CTX_CTL_ENABLE_LATCHED q 0).qStart q else d

/-! ### Error recovery (R110, R121) -/

/-- RESUME and SKIP are accepted: no activation is running and every operation has completed. -/
def Dev.qMayResume (d : Dev) (q : Nat) : Bool :=
  d.qst q == qsError && (d.queue q).running == 0 && (d.queue q).ops == 0

/-- The queue leaves ERROR. -/
def Dev.qGo (d : Dev) (q : Nat) : Dev :=
  let d := d.updQueue q (fun x => { x with latched := false })
  ((d.qState q (if d.flag F.WQ_CTX_CTL_HOLD q then qsHold else qsRun)).qNote q).qWake q

/-- WQ_RESUME. -/
def Dev.qResume (d : Dev) (q : Nat) : Dev :=
  if d.halted then d
  else if !d.qMayResume q then d.qReject q
  else
    let s := d.rd F.WQ_CTX_CTL_ERR_SEQ q
    let d := d.dropEntries q s
    let again := seqSub s (d.qComp q) < 2 ^ 31 && seqSub (d.qDisp q) s - 1 < 2 ^ 31 - 1 && s != d.qDisp q &&
      Tbl.has (d.queue q).ents s
    let d := if again then d.updQueue q (fun x => { x with redo := some s, ents := Tbl.del s x.ents }) else d
    d.qGo q

/-- WQ_SKIP. -/
def Dev.qSkip (d : Dev) (q : Nat) : Dev :=
  let c := d.rd F.WQ_CTX_CTL_ERR_CAUSE q
  if d.halted then d
  else if !d.qMayResume q || !(c == qeMalformed || c == qeFetch || c == qeDoubleTrap || c == qeHandlerStop) then d.qReject q
  else
    let s := d.rd F.WQ_CTX_CTL_ERR_SEQ q
    let d := if d.qDisp q = s then (d.wr F.WQ_CTX_DISP_SEQ_DISP q (s + 1)).dropEntries q s else d
    let d := d.updQueue q (fun x => { x with redo := x.redo.filter (fun n => n != s) })
    ((d.updEnt q s (fun e => { e with skipped := true })).qGo q).qProgress q

/-- WQ_INVAL: accepted in HOLD and ERROR. -/
def Dev.qInval (d : Dev) (q : Nat) : Dev :=
  if d.halted then d
  else if d.qst q = qsHold || d.qst q = qsError then d.dropEntries q (d.rd F.WQ_CTX_AUX_INVAL_SEQ q)
  else d.qReject q

/-- WQ_HOLD. -/
def Dev.qHold (d : Dev) (q : Nat) (v : Bool) : Dev :=
  let d := d.wr F.WQ_CTX_CTL_HOLD q (if v then 1 else 0)
  if d.halted then d
  else if v && d.qst q = qsRun then ((d.qState q qsHold).qNote q).wrrEnd (d.qFn q)
  else if !v && d.qst q = qsHold then ((d.qState q qsRun).qNote q).qWake q
  else d

/-- WQ_PROD_WRITE: in OFF it sets PROD, DISP and COMP; elsewhere it is late (R5). -/
def Dev.qProdWrite (d : Dev) (q v : Nat) : Dev :=
  if d.qst q = qsOff then
    ((d.wr F.WQ_CTX_PROD_SEQ_PROD q v).wr F.WQ_CTX_DISP_SEQ_DISP q v).wr F.WQ_CTX_COMP_SEQ_COMP q v
  else if d.qProd q = v then d
  else d.fault 1

/-! ### Dispatch (R105 to R107, R116, R118, R347) -/

/-- Entry s, read as v, has to wait: for its FENCE (R105), or behind a get that is held (R12). -/
def Dev.mustWait (d : Dev) (q s v : Nat) : Bool :=
  d.heldGet q || (bitsOf v 35 1 == 1 && d.qComp q != s && !malformed v s)

/-- The segment has been charged, waits for its charge, or has been handed to the schedulers (R347). -/
def Slot.backlogged (s : Slot) : Bool :=
  match s.st with
  | .ord => false
  | .hold => false
  | .wait => true
  | .reading => s.charged
  | .out => true
  | .quiet => false

/-- The backlog of R347: REQ and COL cells charged or handed on and not yet injected for the first time, RELEASE cells
among them. -/
def Dev.backlog (d : Dev) (f : Nat) : Nat :=
  (d.rma.slots.filter (fun e => e.2.fn == f && e.2.backlogged)).foldl (fun n e => n + e.2.fresh) 0 +
  ((Tbl.get d.sch.req [] f).filter (fun t => t.slot.isNone)).length + (Tbl.get d.sch.col [] f).length

/-- f may be granted a thread of cluster c. -/
def Dev.wants (d : Dev) (f c : Nat) : Bool :=
  match d.wrrPick f with
  | some (q, _) => d.rd F.WQ_CTX_CFG_CLUSTER q == c && d.backlog f < max 1 (d.rd F.SCH_FN_CFG_BACKLOG_MAX f)
  | none => false

/-- The function that the round robin of cluster c serves next (R347). -/
def Dev.grantee (d : Dev) (c : Nat) : Option Nat :=
  let last := Tbl.get d.sch.lastGrant 1023 c
  let fs := (List.range 1024).filter (fun f => (d.queuesOf f).any (fun q => d.rd F.WQ_CTX_CFG_CLUSTER q == c))
  (fs.filter (fun f => last < f) ++ fs.filter (fun f => f ≤ last)).find? (fun f => d.wants f c)

/-- A trap raised for an entry that is not run (R118). Its activation is not counted among those of the queue (DESIGN
CHOICE, log entry 34). -/
def Dev.entryTrap (d : Dev) (q s th cause : Nat) (tval : Word) : Dev :=
  let f := d.qFn q
  let d := d.updThr th (fun t =>
    { t.begin_ f (d.rd F.WQ_CTX_CFG_ASID q) (d.isPf f) (mkCmdPc 0) with queue := q, cmd := true, seq := s, noEntry := true })
  d.trapHere th cause tval

/-- The thread kept for a fetch goes back to waiting. -/
def Dev.release (d : Dev) (q th : Nat) : Dev :=
  (d.updQueue q (fun x => { x with fetch := none })).updThr th (fun t =>
    if t.stall = .wqFetch q then { t with st := .wait, stall := .none } else t)

/-- An entry of q starts: its round's credit goes down, and the burst advances where it is still q's (R107). -/
def Dev.wrrSpend (d : Dev) (f q : Nat) : Dev :=
  let w := d.wrrOf f
  let w := { w with credit := Tbl.set 1 q (w.creditOf q - 1) w.credit }
  { d with wq.wrr := Tbl.put f (match w.cur with
    | some (p, n) => if p = q then { w with cur := some (q, n + 1), last := q } else w
    | none => { w with cur := some (q, 1), last := q }) d.wq.wrr }

/-- Entry s, in hand, starts on thread th, or stops the queue. -/
def Dev.startEntry (d : Dev) (q s th v : Nat) : Dev :=
  let d := d.release q th
  let d := { d with wq.cache := Tbl.del (lineKey q s) d.wq.cache }
  let d := d.updQueue q (fun x => { x with push := x.push.filter (fun e => e.1 != s), fenced := none })
  if malformed v s then (d.qError q qeMalformed s).entryTrap q s th tcMalformed (BitVec.ofNat 64 s)
  else
    let f := d.qFn q
    let n := bitsOf v 32 3
    let d := d.wrrSpend f q
    let d := if (d.queue q).redo = some s then d.updQueue q (fun x => { x with redo := none })
      else d.wr F.WQ_CTX_DISP_SEQ_DISP q (s + 1)
    let d := d.updEnt q s (fun _ => { notify := bitsOf v 36 1 == 1 })
    let d := d.updQueue q (fun x => { x with running := x.running + 1 })
    let slots := (List.range n).map (fun k => BitVec.ofNat 64 (bitsOf v (64 * (k + 1)) 64))
    let d := d.updThr th (fun t =>
      { t.begin_ f (d.rd F.WQ_CTX_CFG_ASID q) (d.isPf f) (mkCmdPc 1) with queue := q, cmd := true, seq := s, slots := slots })
    ((d.ev 1 0 none (some f)).ev 0 11 (some (clusterOf th)) (some f)).wrrEnd f

/-- The dispatch fetch fails (R117, R118). -/
def Dev.fetchFail (d : Dev) (q s th cause : Nat) (tval : Word) : Dev :=
  ((d.release q th).qError q qeFetch s).entryTrap q s th cause tval

/-- The access of entry s has passed its translation or gate: a line that the device holds is used (R144), or the ring is
read. -/
def Dev.entryAt (d : Dev) (q s th fn a va : Nat) : Dev :=
  match d.held q s with
  | some v => if d.mustWait q s v then (d.release q th).wrrEnd (d.qFn q) else d.startEntry q s th v
  | none =>
    let (d, tag) := (d.updQueue q (fun x => { x with fetchOld := false })).hostRead fn a 64 (.wqFetch q)
    if tag.isSome then d else d.fetchFail q s th tcBus (BitVec.ofNat 64 va)

/-- The access of entry s for thread th in the ring. -/
def Dev.fetchEntry (d : Dev) (q s th : Nat) : Dev :=
  let va := d.ringAddr q s
  let d := (d.updQueue q (fun x => { x with fetch := some th })).updThr th (fun t => { t with st := .stall, stall := .wqFetch q })
  let (d, x) := d.qAddr q va 64 .read (d.flag F.WQ_CTX_RING_PHYS q) (.wqFetch q)
  match x with
  | .ok fn a => d.entryAt q s th fn a va
  | .xlt => d.fetchFail q s th tcXlt (BitVec.ofNat 64 va)
  | .gate b => d.fetchFail q s th tcGate (BitVec.ofNat 64 b)
  | .wait => d

/-- The device's copy of entry s needs no access of the ring: it was pushed, or a dispatch fetch read it. A prefetched line
is used only after the access that needs it has passed (R144). -/
def Dev.inHand (d : Dev) (q s : Nat) : Bool :=
  ((d.queue q).push.any (fun e => e.1 == s)) || (d.queue q).fenced == some s

/-- WQ_DISPATCH: a grant to function fn starts an entry on thread th. -/
def Dev.dispatch (d : Dev) (fn th : Nat) : Dev :=
  let t := d.thr th
  let c := th / 64
  if d.halted || d.gated c || t.st != .wait || t.active || d.grantee c != some fn then d
  else match d.wrrPick fn with
    | none => d
    | some (q, w) => match d.qNext q with
      | none => d
      | some s =>
        let d := { d with wq.wrr := Tbl.put fn w d.wq.wrr, sch.lastGrant := Tbl.put c fn d.sch.lastGrant }
        match d.held q s with
        | some v =>
          if d.inHand q s then (d.ev 1 6 none (some fn)).startEntry q s th v
          else (d.ev 1 6 none (some fn)).fetchEntry q s th
        | none => (d.ev 1 7 none (some fn)).fetchEntry q s th

/-- WQ_FETCH_DONE: the dispatch fetch returns. A queue that no longer dispatches lets the thread go; an entry that has to
wait does so in the descriptor cache. -/
def Dev.fetchDone (d : Dev) (q : Nat) (cpl : Cpl) : Dev :=
  match d.findRead (.wqFetch q), (d.queue q).fetch with
  | some tag, some th =>
    let (d, r) := d.takeRead tag 64 cpl
    if r.isNone then d
    else match d.qNext q with
      | none => d.release q th
      | some s =>
        if d.qst q != qsRun || (d.queue q).fetchOld then d.release q th
        else match cpl.good with
          | none => d.fetchFail q s th tcBus (BitVec.ofNat 64 (d.ringAddr q s))
          | some v =>
            if d.mustWait q s v then
              let d := d.release q th
              (if d.wq.cache.length < 16384 then
                { d.updQueue q (fun x => { x with fenced := some s }) with wq.cache := Tbl.put (lineKey q s) v d.wq.cache }
              else d).wrrEnd (d.qFn q)
            else d.startEntry q s th v
  | some tag, none => (d.takeRead tag 64 cpl).1
  | none, _ => d

/-! ### Prefetch (R108, R144) -/

/-- Queue q may read the `n` entries from `s` on ahead. -/
def Dev.preOk (d : Dev) (q s n : Nat) : Bool :=
  let k := seqSub s (d.qDisp q)
  let most := min (min (d.rd F.WQ_CTX_CFG_PREFETCH q) 16) (seqSub (d.qProd q) (d.qDisp q))
  !(d.halted || !(d.qst q == qsRun || d.qst q == qsHold) || n = 0 || 4 < n || most < k + n ||
     d.qSize q < s % d.qSize q + n || 16384 < d.wq.cache.length + n ||
     (List.range n).any (fun i => (d.held q (s + i)).isSome))

/-- WQ_PREFETCH: up to four entries from `s` on are read ahead, in one read that stays within a page. -/
def Dev.prefetch (d : Dev) (q s n : Nat) : Dev :=
  let f := d.qFn q
  let n := min n (64 - s % 64)
  let va := d.ringAddr q s
  if !d.preOk q s n then d
  else if d.flag F.WQ_CTX_RING_PHYS q then
    if (d.gateFail (18 + f / 256) 1 (some f) va (64 * n) 1).isSome then d.ev 2 5
    else (d.hostRead f va (64 * n) (.wqPre q s n)).1
  else
    let asid := d.rd F.WQ_CTX_CFG_ASID q
    let (d, x) := d.xlate { asid := asid, va := va, kind := .read, priv := d.isPf f } (.wqPre q s n) true f
    match x with
    | .ok a => (d.hostRead (d.asidFn asid) a (64 * n) (.wqPre q s n)).1
    | .fault => d.ev 2 5
    | .page _ => d.ev 2 5
    | .wait => d

/-- The outstanding prefetch of queue q from sequence s: its tag and how many entries it reads. -/
def Dev.findPre (d : Dev) (q s : Nat) : Option (Nat × Nat) :=
  d.reads.findSome? (fun e => match e.2.why with
    | .wqPre q' s' n => if q' = q && s' = s then some (e.1, n) else none
    | _ => none)

/-- Line e of queue q comes into the descriptor cache, if the entry is still announced and not dispatched. -/
def Dev.cacheLine (d : Dev) (q e v : Nat) : Dev :=
  if seqSub e (d.qDisp q) < seqSub (d.qProd q) (d.qDisp q) && d.wq.cache.length < 16384 && (d.held q e).isNone then
    { d with wq.cache := Tbl.put (lineKey q e) v d.wq.cache }
  else d

/-- WQ_PREFETCH_DONE. -/
def Dev.prefetchDone (d : Dev) (q s : Nat) (cpl : Cpl) : Dev :=
  match d.findPre q s with
  | none => d
  | some (tag, n) =>
    let (d, r) := d.takeRead tag (64 * n) cpl
    if r.isNone then d
    else match cpl.good with
      | none => d.ev 2 5
      | some v => (List.range n).foldl (fun d i => d.cacheLine q ((s + i) % 2 ^ 32) (bitsOf v (512 * i) 512)) d

/-- STATUS_RECORD_WRITE: the COAL window ends. -/
def Dev.recordWrite (d : Dev) (q : Nat) : Dev :=
  match (d.queue q).recDue with
  | none => d
  | some t => if d.halted then d else (d.advanceTo t).qWriteDue q

end Sys2Proof.Machine
end

