-- ==== Sys2Proof/Machine/Counters.lean ====
section
/-! DEFINITION. Trigger counters and the deferred list (R456 to R462), and the instructions ctr.add, ctr.wait and ctr.read (R63). -/

namespace Sys2Proof.Machine

/-- The function that owns counter n (R456). -/
def Dev.ctrOwner (d : Dev) (n : Nat) : Option Nat :=
  if d.flag F.DMA_CTR_OWNER_EN (n / 64) then some (d.rd F.DMA_CTR_OWNER_FN (n / 64)) else none

def Dev.ctrVal (d : Dev) (n : Nat) : Nat := Tbl.get d.dma.ctr 0 n

/-- A value reaches a threshold (R457). -/
def reaches (v t : Nat) : Bool := (v % 2 ^ 48 + 2 ^ 48 - t % 2 ^ 48) % 2 ^ 48 < 2 ^ 47

/-- How far a threshold lies ahead of a value (R460). -/
def ahead (v t : Nat) : Nat := (t % 2 ^ 48 + 2 ^ 48 - v % 2 ^ 48) % 2 ^ 48

/-- An entry put among entries of rising distance, behind those of its own distance. -/
def byDistance (v : Nat) (e : DefEnt) : List DefEnt → List DefEnt
  | [] => [e]
  | x :: l => if ahead v e.thresh < ahead v x.thresh then e :: x :: l else x :: byDistance v e l

/-- The threads that wait for counter n to reach what it now has (R63). -/
def Dev.ctrRelease (d : Dev) (n : Nat) : Dev :=
  d.eng.th.foldl (fun d e => match e.2.stall with
    | .ctr m t => if m = n && reaches (d.ctrVal n) t then
        ((d.updThr e.1 (fun t => { t with st := .ready, stall := .none })).goOn e.1).wakeThr e.1 else d
    | _ => d) d

/-- Counter n takes the value v: the entries whose thresholds it reaches become ripe in the order of R460. -/
def Dev.ctrPut (d : Dev) (n v : Nat) : Dev :=
  let old := d.ctrVal n
  let v := v % 2 ^ 48
  let d := { d with dma.ctr := Tbl.set 0 n v d.dma.ctr }
  let due := d.dma.defs.filter (fun e => e.ctr == n && e.ripe.isNone && reaches v e.thresh)
  let order := (due.foldl (fun l e => byDistance old e l) []).map DefEnt.id
  let k := d.nextTag
  { d with
    nextTag := k + order.length
    dma.defs := d.dma.defs.map (fun (e : DefEnt) => if order.contains e.id then { e with ripe := some (k + order.idxOf e.id) } else e) }

/-- Counter n set to v: the threads that wait for it go on too (R63). -/
def Dev.ctrSet (d : Dev) (n v : Nat) : Dev := (d.ctrPut n v).ctrRelease n

/-- An advance on behalf of function fn (R456). -/
def Dev.ctrAdd (d : Dev) (n inc fn : Nat) : Dev :=
  if d.ctrOwner n = some fn then d.ctrSet n (d.ctrVal n + inc) else d.bump F.DMA_CTR_STAT_FOREIGN

def Dev.ctrAddO (d : Dev) (n : Option Nat) (fn : Nat) : Dev :=
  match n with
  | some n => d.ctrAdd n 1 fn
  | none => d

/-- The deferred list has room (R459). -/
def Dev.defRoom (d : Dev) : Bool := d.dma.defs.length < 16384

/-- An entry joins the deferred list; one whose threshold is reached already is ripe (R458). -/
def Dev.defAdd (d : Dev) (ctr thresh fn : Nat) (what : DefWhat) : Dev :=
  let k := d.nextTag
  { d with
    nextTag := k + 1
    dma.defs := d.dma.defs ++ [{ id := k, ctr := ctr, thresh := thresh, fn := fn, what := what,
                                 ripe := if reaches (d.ctrVal ctr) thresh then some k else none }] }

/-- The ripe entry that fires next (R460). -/
def Dev.defNext (d : Dev) : Option DefEnt :=
  d.dma.defs.foldl (fun b e => match e.ripe, b with
    | none, _ => b
    | some _, none => some e
    | some k, some x => if k < x.ripe.getD 0 then some e else b) none

def Dev.defDel (d : Dev) (id : Nat) : Dev := { d with dma.defs := d.dma.defs.filter (fun e => e.id != id) }

/-- A function entering DRAINING loses its entries (R462). -/
def Dev.defDrain (d : Dev) (fn : Nat) : Dev :=
  let mine := (d.dma.defs.filter (fun e => e.fn == fn)).length
  { d.bumpBy F.DMA_CTR_STAT_DISCARDED 0 mine with dma.defs := d.dma.defs.filter (fun e => e.fn != fn) }

/-! ### Register writes -/

/-- DMA_CTR_ADD_WRITE: an advance on behalf of the writer's function (R456); Basecamp and the debug port have none, and
are held to no ownership (log entry 20). -/
def Dev.ctrAddWrite (d : Dev) (rq : Req) (v : Nat) : Dev :=
  let n := d.rd F.DMA_CTR_SEL_CTR
  if d.halted then d
  else match reqFn rq with
    | some f => d.ctrAdd n v f
    | none => d.ctrSet n (d.ctrVal n + v)

def execDmaCtrAddWrite (v : CtrAddW) (s : State) : Host.Outcome State Fault Refusal :=
  onDev s (fun d => d.ctrAddWrite v.rq v.value.toNat)

/-- DMA_CTR_VAL_WRITE. -/
def execDmaCtrValWrite (v : BitVec 48) (s : State) : Host.Outcome State Fault Refusal :=
  onDev s (fun d => if d.halted then d else d.ctrSet (d.rd F.DMA_CTR_SEL_CTR) v.toNat)

/-- DMA_CTR_ARM (R461). -/
def Dev.ctrArm (d : Dev) (thresh : Nat) : Dev :=
  let n := d.rd F.DMA_CTR_ARM0_CTR
  if d.halted then d
  else match d.ctrOwner n with
    | none => d.bump F.DMA_CTR_STAT_FOREIGN
    | some fn =>
      if !d.defRoom then d.wr F.DMA_CTR_STAT_ARM_FULL 0 1
      else d.defAdd n thresh fn (.event (d.rd F.DMA_CTR_ARM0_SLOT) (d.rd F.DMA_CTR_ARM0_ENTRY))

def execDmaCtrArm (v : BitVec 48) (s : State) : Host.Outcome State Fault Refusal := onDev s (fun d => d.ctrArm v.toNat)

/-- A threshold event fires (R461, R79). -/
def Dev.ctrEvent (d : Dev) (e : DefEnt) (slot entry : Nat) : Dev :=
  if d.ctrOwner e.ctr != some e.fn then d.bump F.DMA_CTR_STAT_FOREIGN
  else d.raiseEvent { slot := slot, entry := entry, fn := e.fn, kind := 2, w1 := BitVec.ofNat 64 e.ctr,
                      w2 := BitVec.ofNat 64 (d.ctrVal e.ctr), w3 := BitVec.ofNat 64 e.thresh, w4 := 0 }

/-! ### ctr.add, ctr.wait, ctr.read (R63) -/

/-- The counter that register wa names. -/
def Thread.ctrOf (t : Thread) (wa : Nat) : Nat := (TWord.val (t.reg wa)).toNat % 65536

/-- PRIVILEGE where the activation's function does not own the counter. -/
def Dev.ownCtr (d : Dev) (th n word : Nat) (k : Unit → IRes) : IRes :=
  if d.ctrOwner n = some (d.thr th).fn then k () else .trap tcPrivilege (BitVec.ofNat 64 word)

def execCtrAdd (th : Tid) (f : FmtI) (ext : Ext) (s : State) : Host.Outcome State Fault Refusal :=
  onDev s (fun d => d.issueI 0x50 th f ext (f.wd != 0) (fun d =>
    let t := d.thr th
    let n := t.ctrOf f.wa.toNat
    d.ownCtr th n (wordI 0x50 f) (fun _ => noPoison d th [f.wa.toNat] (fun _ =>
      .next (d.ctrAdd n (immZ (pcCmd t.pc) f.imm.toNat 14 ext).toNat t.fn)))))

def execCtrWait (th : Tid) (f : FmtA) (ext : Ext) (s : State) : Host.Outcome State Fault Refusal :=
  onDev s (fun d => d.issueA 0x51 th f ext (f.wd != 0 || f.fn != 0) (fun d =>
    let t := d.thr th
    let n := t.ctrOf f.wa.toNat
    d.ownCtr th n (wordA 0x51 f) (fun _ => noPoison d th [f.wa.toNat, f.wb.toNat] (fun _ =>
      let thresh := (TWord.val (t.reg f.wb.toNat)).toNat % 2 ^ 48
      if reaches (d.ctrVal n) thresh then .next d else .done ((d.stall th (.ctr n thresh)).restThr th)))))

def execCtrRead (th : Tid) (f : FmtA) (ext : Ext) (s : State) : Host.Outcome State Fault Refusal :=
  onDev s (fun d => d.issueA 0x52 th f ext (f.wb != 0 || f.fn != 0) (fun d =>
    let n := (d.thr th).ctrOf f.wa.toNat
    d.ownCtr th n (wordA 0x52 f) (fun _ => noPoison d th [f.wa.toNat] (fun _ =>
      .next (d.setVal th f.wd.toNat (d.ctrVal n))))))

end Sys2Proof.Machine
end

