-- ==== Sys2Proof/Machine/Pitons.lean ====
section
/-! DEFINITION. Pitons (R463 to R470): rights, waiting, effective priority, release. -/

namespace Sys2Proof.Machine

def Dev.piton (d : Dev) (n : Nat) : Piton := Tbl.get d.dma.pit {} n
def Dev.setPiton (d : Dev) (n : Nat) (p : Piton) : Dev := { d with dma.pit := Tbl.set {} n p d.dma.pit }

/-- The requester that a thread's activation is (R463). -/
def Dev.pitWho (d : Dev) (th : Nat) : Holder := .thread th (d.thr th).fn

/-- Two requesters are one holder: the same thread, or host accesses of one function (R464). -/
def sameHolder : Holder → Holder → Bool
  | .thread a _, .thread b _ => a == b
  | .host f, .host g => f == g
  | .thread _ _, .host _ => false
  | .host _, .thread _ _ => false

/-- Right `rel` (else to acquire) of a requester in group g (R463). -/
def Dev.pitRight (d : Dev) (who : Holder) (g : Nat) (rel : Bool) : Bool :=
  let r := if rel then R.PIT_FN_REL else R.PIT_FN_ACQ
  match who with
  | .thread th fn => isCore th || getBits (d.reg r fn) g 1 == 1
  | .host fn => getBits (d.reg r fn) g 1 == 1

/-- Base priority (R468). -/
def Dev.pitPrio (d : Dev) (who : Holder) (g prio : Nat) : Nat :=
  match who with
  | .thread th _ => if isCore th then 7 else prio
  | .host _ => d.rd F.PIT_GRP_CFG_HOST_PRIO g

/-- The waiters still there: a stopped thread has left every queue it waited in (R465). -/
def Dev.pitQueue (d : Dev) (n : Nat) : List Waiter :=
  (d.piton n).queue.filter (fun w => match w.who with
    | .thread th _ => (match (d.thr th).stall with | .piton m _ _ => m == n | _ => false)
    | .host _ => true)

/-- The Pitons that a requester holds. -/
def Dev.pitHeld (d : Dev) (who : Holder) : List Nat :=
  (d.dma.pit.filter (fun e => match e.2.holder with | some (h, _) => sameHolder h who | none => false)).map Prod.fst

/-- Effective priority of a requester of base priority `base`, chains followed to depth `fuel` (R468). -/
def Dev.pitEff (d : Dev) (who : Holder) (base : Nat) : Nat → Nat
  | 0 => base
  | fuel + 1 =>
    ((d.pitHeld who).filter (fun n => d.flag F.PIT_GRP_CFG_INHERIT_EN (n / 64))).foldl (fun m n =>
      (d.pitQueue n).foldl (fun m w => max m (d.pitEff w.who w.prio fuel)) m) base

/-- The first waiter: the highest effective priority, then the earliest (R467). -/
def Dev.pitFirst (d : Dev) (n : Nat) : Option Waiter :=
  (d.pitQueue n).foldl (fun b w => match b with
    | none => some w
    | some x =>
      let p := d.pitEff w.who w.prio 8
      let q := d.pitEff x.who x.prio 8
      if q < p || (q == p && w.order < x.order) then some w else some x) none

/-- A status goes to a waiter that leaves its queue. -/
def Dev.pitAnswer (d : Dev) (w : Waiter) (st : Nat) : Dev :=
  match w.who with
  | .thread th _ => (d.finish th w.wd (mkWord (BitVec.ofNat 64 st) 0)).wakeThr th
  | .host f =>
    let d := if st = Status.BUSY then d.bump F.PIT_STAT_HOST_BUSY else d
    let _ := f
    d.emit (.readValue st)

/-- A held Piton is released: it passes to the first waiter (R467). -/
def Dev.pitPass (d : Dev) (n : Nat) : Dev :=
  match d.pitFirst n with
  | none => d.setPiton n {}
  | some w =>
    (d.setPiton n { holder := some (w.who, w.prio), queue := (d.pitQueue n).erase w }).pitAnswer w 0

/-- What a request to acquire comes to: a status, or none where it waits (R464). -/
def Dev.pitAcquire (d : Dev) (who : Holder) (n prio : Nat) (wait : Bool) : Dev × Option Nat :=
  if !d.pitRight who (n / 64) false then (d, some Status.PIT_RIGHTS)
  else match (d.piton n).holder with
    | none => (d.setPiton n { holder := some (who, d.pitPrio who (n / 64) prio) }, some 0)
    | some (h, _) => if sameHolder h who || !wait then (d, some Status.PIT_HELD) else (d, none)

/-- A requester joins the queue. -/
def Dev.pitWait (d : Dev) (who : Holder) (n prio wd : Nat) : Dev :=
  let w : Waiter := { who := who, prio := d.pitPrio who (n / 64) prio, order := d.nextTag, since := d.ps, wd := wd }
  { d.setPiton n { d.piton n with queue := d.pitQueue n ++ [w] } with nextTag := d.nextTag + 1 }

/-- A refused release (R469). -/
def Dev.pitMisuse (d : Dev) : Dev := (d.bump F.PIT_STAT_BAD_REL).fault 6

/-- A release (R464, R469): its status. -/
def Dev.pitRelease (d : Dev) (who : Holder) (n : Nat) : Dev × Nat :=
  let acq := d.pitRight who (n / 64) false
  let rel := d.pitRight who (n / 64) true
  if !acq && !rel then (d.pitMisuse, Status.PIT_RIGHTS)
  else match (d.piton n).holder with
    | none => (d.pitMisuse, Status.PIT_NOT_HELD)
    | some (h, _) =>
      if if sameHolder h who then acq else rel then (d.pitPass n, 0) else (d.pitMisuse, Status.PIT_RIGHTS)

/-- R470: the Pitons that function f's threads or host accesses hold are released when it reaches OFF. -/
def Dev.pitForce (d : Dev) (f : Nat) : Dev :=
  (d.dma.pit.filter (fun e => match e.2.holder with
    | some (.thread th g, _) => !isCore th && g == f
    | some (.host g, _) => g == f
    | none => false)).foldl (fun d e => (d.pitPass e.1).bump F.PIT_STAT_FORCED) d

/-- A cut ends the function's waiting reads with BUSY (R466). -/
def Dev.pitCut (d : Dev) (f : Nat) : Dev :=
  d.dma.pit.foldl (fun d e => (e.2.queue.filter (fun w => decide (w.who = .host f))).foldl (fun d w =>
    (d.setPiton e.1 { d.piton e.1 with queue := (d.piton e.1).queue.erase w }).pitAnswer w Status.BUSY) d) d

/-- Host reads that wait on host port p, across all Pitons. -/
def Dev.pitHostWaits (d : Dev) (p : Nat) : Nat :=
  d.dma.pit.foldl (fun n e => n + (e.2.queue.filter (fun w => match w.who with
    | .host f => f / 256 == p
    | .thread _ _ => false)).length) 0

/-- A read of PIT_LOCK that its gate has passed (R464, R466). -/
def Dev.pitRead (d : Dev) (f n : Nat) : Dev :=
  let (d, st) := d.pitAcquire (.host f) n 0 true
  match st with
  | some st => d.emit (.readValue st)
  | none =>
    if 16 ≤ d.pitHostWaits (f / 256) then (d.bump F.PIT_STAT_HOST_BUSY).emit (.readValue Status.BUSY)
    else d.pitWait (.host f) n 0 0

/-- HOST_WAIT_NS, held within its bounds. -/
def Dev.hostWait (d : Dev) : Nat := clampTo 100 1000 (d.rd F.PIT_CFG_HOST_WAIT_NS)

/-- The oldest waiting read of function f. -/
def Piton.hostWaiter (x : Piton) (f : Nat) : Option Waiter := x.queue.find? (fun w => decide (w.who = .host f))

/-- PIT_HOST_WAIT_EXPIRE: the oldest waiting read of f on Piton n. -/
def Dev.pitHostExpire (d : Dev) (f n : Nat) : Dev :=
  match (d.piton n).hostWaiter f with
  | none => d
  | some w =>
    let d := d.advanceTo (w.since + nsPs d.hostWait)
    (d.setPiton n { d.piton n with queue := (d.piton n).queue.erase w }).pitAnswer w Status.BUSY

def execPitHostWaitExpire (fn : Fid) (n : BitVec 12) (s : State) : Host.Outcome State Fault Refusal :=
  onDev s (fun d => if d.halted then d else d.pitHostExpire fn n.toNat)

/-- PIT_ENG_WAIT_EXPIRE (R465). -/
def Dev.pitEngExpire (d : Dev) (th : Nat) : Dev :=
  match (d.thr th).stall with
  | .piton n wd since =>
    if d.rd F.PIT_CFG_ENG_WAIT_US = 0 then d
    else
      let d := d.advanceTo (since + usPs (d.rd F.PIT_CFG_ENG_WAIT_US))
      let d := d.setPiton n { d.piton n with queue := (d.pitQueue n).filter (fun w => !sameHolder w.who (.thread th 0)) }
      (d.finish th wd (mkWord (BitVec.ofNat 64 Status.BUSY) 0)).wakeThr th
  | _ => d

def execPitEngWaitExpire (th : Tid) (s : State) : Host.Outcome State Fault Refusal :=
  onDev s (fun d => if d.halted then d else d.pitEngExpire th)

/-! ### pit.acq, pit.try, pit.rel (R67) -/

/-- The Piton that register wa names. -/
def Thread.pitOf (t : Thread) (wa : Nat) : Nat := (TWord.val (t.reg wa)).toNat % 4096

def execPitAcq (th : Tid) (f : FmtA) (ext : Ext) (s : State) : Host.Outcome State Fault Refusal :=
  onDev s (fun d => d.issueA 0x68 th f ext (f.wb != 0 || 8 ≤ f.fn.toNat) (fun d => noPoison d th [f.wa.toNat] (fun _ =>
    let n := (d.thr th).pitOf f.wa.toNat
    let (d, st) := d.pitAcquire (d.pitWho th) n f.fn.toNat true
    match st with
    | some st => .next (d.setVal th f.wd.toNat st)
    | none => .done (((d.pitWait (d.pitWho th) n f.fn.toNat f.wd.toNat).stall th (.piton n f.wd.toNat d.ps)).restThr th))))

def execPitTry (th : Tid) (f : FmtA) (ext : Ext) (s : State) : Host.Outcome State Fault Refusal :=
  onDev s (fun d => d.issueA 0x69 th f ext (f.wb != 0 || 8 ≤ f.fn.toNat) (fun d => noPoison d th [f.wa.toNat] (fun _ =>
    let (d, st) := d.pitAcquire (d.pitWho th) ((d.thr th).pitOf f.wa.toNat) f.fn.toNat false
    .next (d.setVal th f.wd.toNat (st.getD Status.PIT_HELD)))))

def execPitRel (th : Tid) (f : FmtA) (ext : Ext) (s : State) : Host.Outcome State Fault Refusal :=
  onDev s (fun d => d.issueA 0x6A th f ext (f.wb != 0 || f.fn != 0) (fun d => noPoison d th [f.wa.toNat] (fun _ =>
    let (d, st) := d.pitRelease (d.pitWho th) ((d.thr th).pitOf f.wa.toNat)
    .next (d.setVal th f.wd.toNat st))))

end Sys2Proof.Machine
end

