-- ==== Sys2Proof/Machine/Channels.lean ====
section
/-! DEFINITION. DMA channels and clusters (R445 to R455). A channel has one data request in flight at a time (log
entry 21) and reads one list element ahead (R448). Channels are numbered cluster * 64 + channel. -/

namespace Sys2Proof.Machine

abbrev chIdle : Nat := 0
abbrev chTrig : Nat := 1
abbrev chRun : Nat := 2
abbrev chPausing : Nat := 3
abbrev chPaused : Nat := 4
abbrev chXlt : Nat := 5
abbrev chStopped : Nat := 6

def Dev.chan (d : Dev) (ch : Nat) : Chan := Tbl.get d.dma.ch {} ch
def Dev.setChan (d : Dev) (ch : Nat) (x : Chan) : Dev := { d with dma.ch := Tbl.set {} ch x d.dma.ch }
def Dev.updChan (d : Dev) (ch : Nat) (g : Chan → Chan) : Dev := d.setChan ch (g (d.chan ch))
def Dev.chSt (d : Dev) (ch : Nat) : Nat := d.rd F.DMA_CH_CTL_STATE ch
/-- The channel moves to state `st`; IDLE and PAUSED begin the cluster's idle time (R22, R524). -/
def Dev.chGo (d : Dev) (ch st : Nat) : Dev :=
  let d := d.wr F.DMA_CH_CTL_STATE ch st
  if st = chIdle || st = chPaused then d.rest (16 + ch / 64) else d
def Dev.chFn (d : Dev) (ch : Nat) : Nat := d.rd F.DMA_CH_CFG_FN ch
def Dev.chDone (d : Dev) (ch : Nat) : Nat := d.rd F.DMA_CH_POS_DONE ch
/-- Channels 60 to 63 of a cluster are privileged. -/
def chPriv (ch : Nat) : Bool := 60 ≤ ch % 64
/-- The address pattern of R449: 0 LIST, 1 RING_DST, 2 RING_SRC. -/
def Dev.chPat (d : Dev) (ch : Nat) : Nat := d.rd F.DMA_CH_CFG_PATTERN ch
def Dev.chRing (d : Dev) (ch : Nat) : Nat := 2 ^ d.rd F.DMA_CH_CFG_LOG2_RING ch

/-! ### Bytes of the Depot -/

/-- `n` Depot bytes from `a` on, with a bit for each byte of a poisoned word. -/
def Dev.depBytes (d : Dev) (a : Nat) : Nat → Nat × Nat
  | 0 => (0, 0)
  | n + 1 =>
    let (v, p) := d.depBytes a n
    let w := d.depWord (a + n)
    (v + bitsOf (TWord.val w).toNat (8 * ((a + n) % 8)) 8 * 2 ^ (8 * n), p + (if isPoison w then 2 ^ n else 0))

/-- The words that a store of `n` bytes from `a` on covers in part are read first (R483). -/
def Dev.depRmw (d : Dev) (a n : Nat) : Dev :=
  let d := if a % 8 = 0 && 8 ≤ n then d else d.depMeet a 1
  if (a + n) % 8 = 0 || (a + n) / 8 = a / 8 then d else d.depMeet (a + n) 1

/-- `n` bytes stored from Depot byte `a` on (R483). What DTYPE and PTR a word takes is not stated: `tag` is free. -/
def Dev.depPut (d : Dev) (a n v pmask tag : Nat) : Dev :=
  (List.range ((a + n + 7) / 8 - a / 8)).foldl (fun d k =>
    let lo := max a ((a / 8 + k) * 8)
    let hi := min (a + n) ((a / 8 + k) * 8 + 8)
    let bad := bitsOf pmask (lo - a) (hi - lo) != 0
    let w := mkWord (BitVec.ofNat 64 (bitsOf v (8 * (lo - a)) (8 * (hi - lo)))) (tag % 16 + (if bad then 16 else 0) + tag / 32 % 2 * 32)
    d.setDepWord lo (mergeWord (d.depWord lo) w lo (hi - lo))) d

/-! ### Elements (R446, R447) -/

/-- The element that 32 list bytes spell; none where R446 refuses it. A LINK element is answered with its target. -/
def elemOf (v : Nat) : Option (Elem × Option Nat) :=
  let e : Elem := { srcWin := bitsOf v 0 32, dstWin := bitsOf v 32 32, srcOff := bitsOf v 64 48, dstOff := bitsOf v 128 48,
                    len := bitsOf v 192 32, event := bitsOf v 224 1 == 1, last := bitsOf v 225 1 == 1 }
  let link := bitsOf v 226 1 == 1
  if bitsOf v 112 16 != 0 || bitsOf v 176 16 != 0 || bitsOf v 227 29 != 0 then none
  else if link then
    if e.srcWin != 0 || e.dstWin != 0 || e.dstOff != 0 || e.len != 0 || e.srcOff % 32 != 0 then none
    else some ({ e with srcOff := 0 }, some e.srcOff)
  else some (e, none)

/-- The check of one side: a window over its extent, or the right to use the Depot (R445, R447). -/
def Dev.chSide (d : Dev) (ch win right off len : Nat) : Nat :=
  if win = 0 then (if chPriv ch then 0 else Status.ARG)
  else d.winCheck win (localPeer (d.chFn ch) (d.isPf (d.chFn ch))) right off len

/-- Both sides over their whole extents; the ring side over the whole ring (R449). -/
def Dev.chExtents (d : Dev) (ch : Nat) (e : Elem) : Nat :=
  let s := d.chSide ch e.srcWin rLR e.srcOff (if d.chPat ch = 2 then d.chRing ch else e.len)
  if s != 0 then s
  else d.chSide ch e.dstWin rLW e.dstOff (if d.chPat ch = 1 then d.chRing ch else e.len)

/-- The look-ups of the windows that an element names. -/
def Dev.chLook (d : Dev) (e : Elem) : Dev :=
  let d := if e.srcWin = 0 then d else d.winLook e.srcWin
  if e.dstWin = 0 then d else d.winLook e.dstWin

/-- Where byte DONE of the element is read and written. -/
def Dev.chSrc (d : Dev) (ch : Nat) (e : Elem) : Nat :=
  e.srcOff + (if d.chPat ch = 2 then (d.reg R.DMA_CH_RPOS ch).toNat % d.chRing ch else d.chDone ch)
def Dev.chDst (d : Dev) (ch : Nat) (e : Elem) : Nat :=
  e.dstOff + (if d.chPat ch = 1 then (d.reg R.DMA_CH_RPOS ch).toNat % d.chRing ch else d.chDone ch)

/-- Bytes up to which one request goes: a page of a window, 256 bytes of the Depot, the ring's end and its limit. -/
def Dev.chChunk (d : Dev) (ch : Nat) (e : Elem) : Nat :=
  let side := fun (win off : Nat) => if win = 0 then 256 else 4096 - d.winVa win off % 4096
  let n := min (e.len - d.chDone ch) (min (side e.srcWin (d.chSrc ch e)) (side e.dstWin (d.chDst ch e)))
  if d.chPat ch = 0 then n
  else
    let r := (d.reg R.DMA_CH_RPOS ch).toNat
    let room := ((d.reg R.DMA_CH_RLIM ch).toNat + 2 ^ 64 - r) % 2 ^ 64
    min n (min (d.chRing ch - r % d.chRing ch) (if room < 2 ^ 63 then room else 0))

/-! ### Stops and waits -/

/-- The cluster issues requests: not stopped, awake, powered. -/
def Dev.clusterGo (d : Dev) (c : Nat) : Bool :=
  !d.halted && !d.flag F.DMA_CL_STAT_STOPPED c && !d.dmaGated c

/-- A window access of a RUN or PAUSING channel that meets PAGE_STATE (R451). -/
def Dev.chPage (d : Dev) (ch : Nat) : Dev :=
  if d.chSt ch != chRun && d.chSt ch != chPausing then d
  else (d.updChan ch (fun x => { x with pauseReq := x.pauseReq || d.chSt ch == chPausing })).chGo ch chXlt

/-- A Depot access of the channel's: the first failing byte (R489). -/
def Dev.chGate (d : Dev) (ch a n need : Nat) : Dev × Bool :=
  match d.gateFail 0 3 (some (d.chFn ch)) a n need with
  | some b => (d.deny 0 3 (some (d.chFn ch)) b, false)
  | none => (d, true)

/-! ### Requests -/

/-- Read-ahead that has failed is dropped and counted (R144, R448). -/
def Dev.aheadDrop (d : Dev) (ch : Nat) : Dev :=
  ((d.disown (.dmaList ch)).updChan ch (fun x => { x with ahead := false, fetching := false, parts := 0, buf := 0 })).ev 9 3
    (some (ch / 64)) (some (d.chFn ch))

/-- The address of part `p` of a list element that is read ahead; a failure is reported nowhere (R144). -/
def Dev.aheadAddr (d : Dev) (ch h off len : Nat) (p : Nat) : Dev × XRes :=
  let w := d.winOf h
  if w.phys then
    let a := (w.base + off) % 2 ^ 64
    (d, if (d.gateFail (18 + w.owner / 256) 1 (some w.owner) a len 1).isSome then .fault else .ok a)
  else d.xlate { asid := w.asid, va := w.base + off, kind := .read, priv := d.isPf w.owner } (.accR (.dmaList ch) p len) true w.owner

/-- The element after the one that begins is fetched ahead (R448); one of a list in the Depot is not (log entry 21). -/
def Dev.chAhead (d : Dev) (ch : Nat) (e : Elem) : Dev :=
  let a := d.rd F.DMA_CH_LPOS_LPOS ch + 32
  let h := d.rd F.DMA_CH_LIST_WIN ch
  if e.last || d.flag F.DMA_CH_CFG_LIST_IN_DEPOT ch || !d.clusterGo (ch / 64) then d
  else if d.winCheck h (localPeer (d.chFn ch) (d.isPf (d.chFn ch))) rLR a 32 != 0 then d.aheadDrop ch
  else
    let d := d.updChan ch (fun x => { x with ahead := true, fetching := true, parts := 0, buf := 0, next := none })
    (pageParts (d.winVa h a) 4096 33 32).foldl (fun d p =>
      if !(d.chan ch).ahead then d
      else
        let (d, x) := d.aheadAddr ch h (a + p.1) p.2 p.1
        let more := fun (d : Dev) => d.updChan ch (fun x => { x with parts := x.parts + 1 })
        match x with
        | .ok b =>
          let (d, t) := d.hostRead (d.winFn (d.winOf h)) b p.2 (.own (.dmaList ch) p.1 p.2)
          if t.isSome then more d else d.aheadDrop ch
        | .fault => d.aheadDrop ch
        | .page _ => d.aheadDrop ch
        | .wait => more d) d

/-- Part of an element that was read ahead is in hand; the last part completes it. -/
def Dev.aheadPart (d : Dev) (ch off n v : Nat) : Dev :=
  let d := d.updChan ch (fun x => { x with parts := x.parts - 1, buf := x.buf + v % 2 ^ (8 * n) * 2 ^ (8 * off) })
  if (d.chan ch).parts = 0 then
    d.updChan ch (fun x => { x with ahead := false, fetching := false, buf := 0,
                                    next := some ((d.rd F.DMA_CH_LPOS_LPOS ch + 32) % 2 ^ 48, x.buf) })
  else d

/-- The list element at LPOS is fetched (R448): bytes read ahead serve each part whose demand access passes its own checks
(R144). -/
def Dev.chFetch (d : Dev) (ch : Nat) : Dev :=
  let a := d.rd F.DMA_CH_LPOS_LPOS ch
  if d.flag F.DMA_CH_CFG_LIST_IN_DEPOT ch then
    let (d, ok) := d.chGate ch a 32 1
    if ok then d.updChan ch (fun x => { x with fetching := true, parts := 0 }) else d.chStop ch Status.ARG
  else
    let h := d.rd F.DMA_CH_LIST_WIN ch
    let (d, st) := d.winUse h (localPeer (d.chFn ch) (d.isPf (d.chFn ch))) rLR a 32
    if st != 0 then d.chStop ch st
    else
      let got := (d.chan ch).next.filter (fun e => e.1 == a)
      let d := d.updChan ch (fun x => { x with fetching := true, parts := 0, buf := 0, next := none })
      (pageParts (d.winVa h a) 4096 33 32).foldl (fun d p =>
        if !(d.chan ch).fetching then d
        else
          let (d, x) := d.winAddr h (a + p.1) p.2 .read (.accR (.dmaList ch) p.1 p.2)
          let more := fun (d : Dev) => d.updChan ch (fun x => { x with parts := x.parts + 1 })
          match x with
          | .ok b => match got with
            | some (_, v) => d.updChan ch (fun x => { x with buf := x.buf + bitsOf v (8 * p.1) (8 * p.2) * 2 ^ (8 * p.1) })
            | none =>
              let (d, t) := d.hostRead (d.winFn (d.winOf h)) b p.2 (.own (.dmaList ch) p.1 p.2)
              if t.isSome then more d else d.chStop ch Status.DMA_BUS_ERROR
          | .fault => d.chStop ch Status.WIN_XLT
          | .page _ => (more d).chPage ch
          | .wait => more d) d

/-- An element ends: its pulse, and the place of the next one (R446, R454). -/
def Dev.chEnd (d : Dev) (ch : Nat) (e : Elem) (next : Nat) : Dev :=
  let d := (d.updChan ch (fun x => { x with elem := none })).wr F.DMA_CH_POS_DONE ch 0
  let d := d.ev 9 2 (some (ch / 64)) (some (d.chFn ch))
  let d := if d.flag F.DMA_CH_CFG_CTR_EN ch && (e.event || e.last) then d.ctrAdd (d.rd F.DMA_CH_CFG_CTR ch) 1 (d.chFn ch) else d
  if e.last then (d.chGo ch chIdle).setChan ch {}
  else d.wr F.DMA_CH_LPOS_LPOS ch next

/-- The next data read of the element (R447), or its end. -/
def Dev.chRead (d : Dev) (ch : Nat) (e : Elem) : Dev :=
  if e.len ≤ d.chDone ch then
    let d := d.chEnd ch e (d.rd F.DMA_CH_LPOS_LPOS ch + 32)
    if e.last || d.chSt ch != chRun || (d.chan ch).fetching then d else d.chFetch ch
  else
    let n := d.chChunk ch e
    let off := d.chSrc ch e
    if n = 0 then d
    else if e.srcWin = 0 then
      let (d, ok) := d.chGate ch off n 1
      if ok then d.updChan ch (fun x => { x with rd := some n }) else d.chStop ch Status.ARG
    else
      let st := d.chSide ch e.srcWin rLR off n
      let d := d.winLook e.srcWin
      if st != 0 then (d.winFail st).chStop ch st
      else
        let (d, x) := d.winAddr e.srcWin off n .read (.accR (.dmaRd ch) 0 n)
        let busy := fun (d : Dev) => d.updChan ch (fun x => { x with rd := some n })
        match x with
        | .ok b =>
          let (d, t) := d.hostRead (d.winFn (d.winOf e.srcWin)) b n (.own (.dmaRd ch) 0 n)
          if t.isSome then busy d else d.chStop ch Status.DMA_BUS_ERROR
        | .fault => d.chStop ch Status.WIN_XLT
        | .page _ => d.chPage ch
        | .wait => busy d

/-- What the channel does next: nothing while a request that it needs is out. -/
def Dev.chStep (d : Dev) (ch : Nat) : Dev :=
  let x := d.chan ch
  if d.chSt ch != chRun || !d.clusterGo (ch / 64) || (x.fetching && !x.ahead) || x.rd.isSome || x.wr.isSome then d
  else match x.elem with
    | none => if x.fetching then d else d.chFetch ch
    | some e => d.chRead ch e

/-- Every channel of a cluster that has something to do. -/
def Dev.chKick (d : Dev) (c : Nat) : Dev :=
  (d.listed R.DMA_CH_CTL).foldl (fun d e => if e.1 / 64 = c then d.chStep e.1 else d) d

/-- `n` bytes of the element have been written. -/
def Dev.chWrote (d : Dev) (ch n : Nat) : Dev :=
  let d := (d.updChan ch (fun x => { x with wr := none })).wr F.DMA_CH_POS_DONE ch (d.chDone ch + n)
  let d := if d.chPat ch = 0 then d else d.setReg R.DMA_CH_RPOS ch (d.reg R.DMA_CH_RPOS ch + BitVec.ofNat 64 n)
  (d.ev 9 1 (some (ch / 64)) (some (d.chFn ch)) n).chStep ch

/-- The write of what has been read goes to host address b, unless the cluster has stopped (R453). -/
def Dev.chPut (d : Dev) (ch : Nat) (fn b : Nat) : Dev :=
  match (d.chan ch).wr with
  | none => d
  | some (v, n, mask) =>
    if d.flag F.DMA_CL_STAT_STOPPED (ch / 64) then d else (d.hostWrite fn b n v false (mask != 0)).chWrote ch n

/-- The bytes read are written (R447, R455, R482). -/
def Dev.chWrite (d : Dev) (ch : Nat) : Dev :=
  match (d.chan ch).elem, (d.chan ch).wr with
  | some e, some (v, n, mask) =>
    let off := d.chDst ch e
    if e.dstWin = 0 then
      let (d, ok) := d.chGate ch off n 2
      if !ok then d.chStop ch Status.ARG
      else
        let (tag, d) := d.freeWord
        (((d.depWake.ev 11 1).depRmw off n).depPut off n v mask tag.toNat).chWrote ch n
    else
      let st := d.chSide ch e.dstWin rLW off n
      let d := d.winLook e.dstWin
      if st != 0 then (d.winFail st).chStop ch st
      else
        let (d, x) := d.winAddr e.dstWin off n .write (.accW (.dmaWr ch) v n false)
        match x with
        | .ok b => d.chPut ch (d.winFn (d.winOf e.dstWin)) b
        | .fault => d.chStop ch Status.WIN_XLT
        | .page _ => d.chPage ch
        | .wait => d
  | _, _ => d

/-- An access of the channel is made again, after its handler's eret (R451); a cluster that has stopped makes none
(R453). -/
def Dev.chRetry (d : Dev) (ch : Nat) : Dev :=
  if d.chSt ch != chXlt || d.halted || d.flag F.DMA_CL_STAT_STOPPED (ch / 64) then d
  else
    let x := d.chan ch
    let d := d.chGo ch (if x.pauseReq then chPausing else chRun)
    let d := if x.ahead then d else d.disown (.dmaList ch)
    let d := d.updChan ch (fun x => { x with pauseReq := false, fetching := x.ahead, rd := none })
    if x.wr.isSome then d.chWrite ch
    else match x.elem with
      | none => if x.ahead then d else d.chFetch ch
      | some e => d.chRead ch e

/-- The handler halted, or could not run. -/
def Dev.chRefuse (d : Dev) (ch : Nat) : Dev := if d.chSt ch = chXlt then d.chStop ch Status.WIN_XLT else d

/-! ### Cluster stop (R453) -/

/-- Outstanding reads of the cluster's channels. -/
def Dev.clusterReads (d : Dev) (c : Nat) : Nat :=
  (d.reads.filter (fun e => match e.2.why with
    | .own (.dmaRd ch) _ _ => ch / 64 == c
    | .own (.dmaList ch) _ _ => ch / 64 == c
    | _ => false)).length

/-- A data request of cluster c failed at host bus address a. -/
def Dev.clusterFail (d : Dev) (c a : Nat) : Dev :=
  if d.flag F.DMA_CL_STAT_STOPPED c then d
  else
    let d := (d.wr F.DMA_CL_STAT_STOPPED c 1).bump F.DMA_CL_STAT_STOPS c
    let d := d.setReg R.DMA_CL_ERR c (BitVec.ofNat 64 a)
    { d with dma.stopping := Tbl.put c true d.dma.stopping }.fault 5

def execDmaClusterStopDone (c : Clu) (s : State) : Host.Outcome State Fault Refusal :=
  onDev s (fun d =>
    if !Tbl.get d.dma.stopping false c || d.halted || d.clusterReads c != 0 then d
    else { d.stopCluster c with dma.stopping := Tbl.del c d.dma.stopping })

/-- DMA_CL_CLEAR: accepted once the cluster's reads have ended. -/
def Dev.clClear (d : Dev) (c : Nat) : Dev :=
  if d.halted || Tbl.get d.dma.stopping false c || !d.flag F.DMA_CL_STAT_STOPPED c then d
  else (d.wr F.DMA_CL_STAT_STOPPED c 0).chKick c
def execDmaClClear (c : Clu) (s : State) : Host.Outcome State Fault Refusal := onDev s (fun d => (d.wake (16 + c)).clClear c)

/-! ### Reads that return -/

/-- A data read of the channel is in hand: `mask` has a bit for each poisoned byte. -/
def Dev.chData (d : Dev) (ch n v mask : Nat) : Dev :=
  let d := d.ev 9 0 (some (ch / 64)) (some (d.chFn ch)) n
  (d.updChan ch (fun x => { x with rd := none, wr := some (v, n, mask) })).chWrite ch

/-- The host read of channel ch's data that is out: its tag and what was asked. -/
def Dev.dataRead (d : Dev) (ch : Nat) : Option (Nat × HostRd) :=
  d.reads.find? (fun e => !e.2.gone && (match e.2.why with | .own (.dmaRd x) _ _ => x == ch | _ => false))

/-- The host read of channel ch's list that is out. -/
def Dev.listRead (d : Dev) (ch : Nat) : Option (Nat × HostRd) :=
  d.reads.find? (fun e => !e.2.gone && (match e.2.why with | .own (.dmaList x) _ _ => x == ch | _ => false))

/-- Offset and length of an owner's host read. -/
def HostRd.part (r : HostRd) : Nat × Nat := match r.why with
  | .own _ off n => (off, n)
  | _ => (0, 0)

/-- The bytes of a data read that has ended reach the channel, unless it or its cluster has stopped. -/
def Dev.chGot (d : Dev) (ch n v : Nat) (poison : Bool) : Dev :=
  if d.flag F.DMA_CL_STAT_STOPPED (ch / 64) || !((d.chan ch).rd.isSome && (d.chSt ch == chRun || d.chSt ch == chPausing)) then d
  else d.chData ch n (v % 2 ^ (8 * n)) (if poison then 2 ^ n - 1 else 0)

/-- Data read `r` of the channel ends (R435, R453). -/
def Dev.chReadEnd (d : Dev) (ch n : Nat) (r : HostRd) (cpl : Cpl) : Dev :=
  match cpl with
  | .err => d.clusterFail (ch / 64) r.addr
  | .ok v p => d.chGot ch n v p

/-- The bytes of a read of the Depot. -/
def Dev.chDepot (d : Dev) (ch : Nat) (e : Elem) (n : Nat) : Dev :=
  if e.srcWin != 0 || d.halted || d.flag F.DMA_CL_STAT_STOPPED (ch / 64) then d
  else
    let d := (d.depWake.ev 11 0).depMeet (d.chSrc ch e) n
    d.chData ch n (d.depBytes (d.chSrc ch e) n).1 (d.depBytes (d.chSrc ch e) n).2

/-- DMA_DATA_READ_DONE: of a host read; or of a Depot read, whose bytes are the Depot's. -/
def Dev.chDataDone (d : Dev) (ch : Nat) (cpl : Cpl) : Dev :=
  match d.dataRead ch with
  | some (tag, r0) => match d.takeRead tag r0.part.2 cpl with
    | (d, none) => d
    | (d, some r) => d.chReadEnd ch r0.part.2 r cpl
  | none =>
    match (d.chan ch).elem, (d.chan ch).rd with
    | some e, some n => d.chDepot ch e n
    | _, _ => d

def execDmaDataReadDone (c : Clu) (h : Fin 64) (cpl : Cpl) (s : State) : Host.Outcome State Fault Refusal :=
  onDev s (fun d => (d.chDataDone (c.val * 64 + h.val) cpl).invPoll)

/-- The element at LPOS is in hand. -/
def Dev.chElem (d : Dev) (ch v : Nat) : Dev :=
  let d := d.updChan ch (fun x => { x with fetching := false, parts := 0, buf := 0 })
  match elemOf v with
  | none => d.chStop ch Status.ARG
  | some (e, some next) => (d.chEnd ch e next).chStep ch
  | some (e, none) =>
    let st := d.chExtents ch e
    let d := d.chLook e
    if st != 0 then (d.winFail st).chStop ch st
    else ((d.updChan ch (fun x => { x with elem := some e })).chAhead ch e).chStep ch

/-- Part of a list element is in hand; the last part completes it. -/
def Dev.chListPart (d : Dev) (ch off n v : Nat) : Dev :=
  let d := d.updChan ch (fun x => { x with parts := x.parts - 1, buf := x.buf + v % 2 ^ (8 * n) * 2 ^ (8 * off) })
  if (d.chan ch).parts = 0 then d.chElem ch (d.chan ch).buf else d

/-- A list read ends (R448); a poisoned element is no element (DEDUCED, log entry 21). -/
def Dev.chListEnd (d : Dev) (ch off n : Nat) (cpl : Cpl) : Dev :=
  if !(d.chan ch).fetching || d.flag F.DMA_CL_STAT_STOPPED (ch / 64) then d
  else if (d.chan ch).ahead then match cpl.good with
    | none => (d.aheadDrop ch).chStep ch
    | some v => (d.aheadPart ch off n v).chStep ch
  else match cpl.good with
    | none => d.chStop ch Status.DMA_BUS_ERROR
    | some v => d.chListPart ch off n v

/-- DMA_LIST_FETCH_DONE: of a host read, of a Depot list, or of an element that was read ahead. -/
def Dev.chListDone (d : Dev) (ch : Nat) (cpl : Cpl) : Dev :=
  match d.listRead ch with
  | some (tag, r0) => match d.takeRead tag r0.part.2 cpl with
    | (d, none) => d
    | (d, some _) => d.chListEnd ch r0.part.1 r0.part.2 cpl
  | none =>
    if !(d.chan ch).fetching || (d.chan ch).parts != 0 || d.halted || d.flag F.DMA_CL_STAT_STOPPED (ch / 64) then d
    else if d.flag F.DMA_CH_CFG_LIST_IN_DEPOT ch then
      let d := (d.depWake.ev 11 0).depMeet (d.rd F.DMA_CH_LPOS_LPOS ch) 32
      let (v, p) := d.depBytes (d.rd F.DMA_CH_LPOS_LPOS ch) 32
      if p != 0 then d.chStop ch Status.DMA_BUS_ERROR else d.chElem ch v
    else d.chElem ch (d.chan ch).buf

def execDmaListFetchDone (c : Clu) (h : Fin 64) (cpl : Cpl) (s : State) : Host.Outcome State Fault Refusal :=
  onDev s (fun d => (d.chListDone (c.val * 64 + h.val) cpl).invPoll)

/-! ### Commands (R451) -/

def Dev.chReject (d : Dev) (ch : Nat) : Dev := d.wr F.DMA_CH_CTL_CMD_REJ ch 1

/-- START's checks: configuration, list and counters (R446, R449, R456, R459). -/
def Dev.chValid (d : Dev) (ch : Nat) : Bool :=
  let fn := d.chFn ch
  let ring := d.rd F.DMA_CH_CFG_LOG2_RING ch
  let trig := d.flag F.DMA_CH_CFG_TRIG_EN ch
  d.chPat ch != 3 && 12 ≤ ring && ring ≤ 40 && (chPriv ch || (d.chPat ch == 0 && !d.flag F.DMA_CH_CFG_LIST_IN_DEPOT ch)) &&
  (!chPriv ch || d.isPf fn) && d.rd F.DMA_CH_LPOS_LPOS ch % 32 == 0 &&
  (!d.flag F.DMA_CH_CFG_CTR_EN ch || d.ctrOwner (d.rd F.DMA_CH_CFG_CTR ch) == some fn) &&
  (!trig || (d.ctrOwner (d.rd F.DMA_CH_TRIG_TCTR ch) == some fn && d.defRoom))

/-- START. -/
def Dev.chStart (d : Dev) (ch : Nat) : Dev :=
  if d.chSt ch != chIdle then d.chReject ch
  else if !d.chValid ch then (d.wr F.DMA_CH_CTL_STATUS ch Status.ARG).chReject ch
  else
    let d := (((d.wr F.DMA_CH_CTL_STATUS ch 0).setChan ch {}).wr F.DMA_CH_POS_DONE ch 0).wake (16 + ch / 64)
    if d.flag F.DMA_CH_CFG_TRIG_EN ch then
      (d.chGo ch chTrig).defAdd (d.rd F.DMA_CH_TRIG_TCTR ch) (d.rd F.DMA_CH_TRIG_THRESH ch) (d.chFn ch) (.chan ch)
    else (d.chGo ch chRun).chStep ch

/-- PAUSE. A walk in progress for a read counts as a read already made. -/
def Dev.chPause (d : Dev) (ch : Nat) : Dev :=
  if d.chSt ch = chRun then d.chGo ch chPausing
  else if d.chSt ch = chXlt then d.updChan ch (fun x => { x with pauseReq := true })
  else if d.chSt ch = chTrig then (d.chGo ch chPaused).wr F.DMA_CH_CTL_TRIG_PEND ch 1
  else d.chReject ch

/-- A channel goes on from LPOS and DONE. -/
def Dev.chRerun (d : Dev) (ch : Nat) : Dev := (((d.setChan ch {}).chGo ch chRun).wake (16 + ch / 64)).chStep ch

/-- RESUME. -/
def Dev.chResume (d : Dev) (ch : Nat) : Dev :=
  if d.chSt ch = chPaused then
    if d.flag F.DMA_CH_CTL_TRIG_PEND ch then (d.wr F.DMA_CH_CTL_TRIG_PEND ch 0).chGo ch chTrig else d.chRerun ch
  else if d.chSt ch = chStopped && !d.flag F.DMA_CL_STAT_STOPPED (ch / 64) then d.chRerun ch
  else d.chReject ch

/-- RESET, STATUS kept. -/
def Dev.chReset (d : Dev) (ch : Nat) : Dev :=
  if d.chSt ch = chPaused || d.chSt ch = chStopped then
    let st := d.rd F.DMA_CH_CTL_STATUS ch
    (d.chStop ch st).chGo ch chIdle
  else d.chReject ch

/-- DMA_PAUSED: every byte read has been written. The channel of a function in DRAINING is reset (R462). -/
def Dev.chPauseDone (d : Dev) (ch : Nat) : Dev :=
  let x := d.chan ch
  if d.chSt ch != chPausing || x.rd.isSome || x.wr.isSome then d
  else
    let d := ((d.disown (.dmaList ch)).setChan ch {}).chGo ch chPaused
    if d.fnState (d.chFn ch) = 3 then d.chReset ch else d

/-- The channels of a function entering DRAINING (R462, R435). -/
def Dev.chDrain (d : Dev) (f : Nat) (cut : Bool) : Dev :=
  ((d.listed R.DMA_CH_CTL).filter (fun e => d.chFn e.1 == f && d.chSt e.1 != chIdle)).foldl (fun d e =>
    let ch := e.1
    if cut then (d.chStop ch Status.DMA_STOPPED).chGo ch chIdle
    else
      let d := d.wr F.DMA_CH_CTL_TRIG_PEND ch 0
      if d.chSt ch = chTrig || d.chSt ch = chPaused || d.chSt ch = chStopped then (d.chGo ch chPaused).chReset ch
      else d.chPause ch) d

/-- A channel's trigger is reached (R451). -/
def Dev.chTrigger (d : Dev) (ch : Nat) : Dev :=
  if d.chSt ch = chTrig then ((d.chGo ch chRun).wake (16 + ch / 64)).chStep ch
  else d.wr F.DMA_CH_CTL_TRIG_PEND ch 0

/-- A command of a channel, unless the units have stopped. -/
def chCmd (c : Clu) (h : Fin 64) (s : State) (f : Dev → Nat → Dev) : Host.Outcome State Fault Refusal :=
  onDev s (fun d => if d.halted then d else f d (c.val * 64 + h.val))

/-- A write of one of the channel's registers, which wakes its cluster (R19). -/
def chAccess (c : Clu) (h : Fin 64) (s : State) (f : Dev → Nat → Dev) : Host.Outcome State Fault Refusal :=
  chCmd c h s (fun d ch => f (d.wake (16 + c)) ch)

def execDmaChStart (c : Clu) (h : Fin 64) (s : State) : Host.Outcome State Fault Refusal := chAccess c h s Dev.chStart
def execDmaChPause (c : Clu) (h : Fin 64) (s : State) : Host.Outcome State Fault Refusal := chAccess c h s Dev.chPause
def execDmaChResume (c : Clu) (h : Fin 64) (s : State) : Host.Outcome State Fault Refusal := chAccess c h s Dev.chResume
def execDmaChReset (c : Clu) (h : Fin 64) (s : State) : Host.Outcome State Fault Refusal := chAccess c h s Dev.chReset
def execDmaPaused (c : Clu) (h : Fin 64) (s : State) : Host.Outcome State Fault Refusal := chCmd c h s Dev.chPauseDone

/-- DMA_RLIM_WRITE (R450). -/
def execDmaRlimWrite (c : Clu) (h : Fin 64) (v : Word) (s : State) : Host.Outcome State Fault Refusal :=
  chAccess c h s (fun d ch => (d.setReg R.DMA_CH_RLIM ch v).chStep ch)

end Sys2Proof.Machine
end

