-- ==== Sys2Proof/Machine/Frames.lean ====
section
/-! DEFINITION. Frames of Belay (R356 to R360), codewords of the lane layer (R392, R393), training frames (R397) and Rope
packets (R413, R415) as they stand on the wire. -/

namespace Sys2Proof.Machine

/-! ### Belay frames -/

/-- Byte k of `v` is byte n - 1 - k of the answer. -/
def revBytes (n v : Nat) : Nat := (List.range n).foldl (fun a k => a * 256 + v / 2 ^ (8 * k) % 256) 0

/-- A cell in serial order (R295). -/
def cellBits (c : Cell) : Nat := c.hdr.toNat * 2 ^ 512 + revBytes 64 c.pay.toNat
/-- Cells in index order, and a control body, each word least significant byte first (R359). -/
def cellsBits (l : List Cell) : Nat := l.foldl (fun a c => a * 2 ^ 640 + cellBits c) 0
def ctlBits (b : BitVec 512) : Nat := revBytes 64 b.toNat

/-- The CRC-64 of R359 over a header and a body of `len` bytes. -/
def crc64 (hdr : BitVec 128) (body len : Nat) : BitVec 64 :=
  ~~~(BitVec.ofNat 64 (crcOf 64 0x42F0E1EBA9EA3693 (2 ^ 64 - 1) (hdr.toNat * 2 ^ (8 * len) + body) (128 + 8 * len)))

/-- The header of R358 with its FHCHK. -/
def frameHdr (kind sub seq ack xoff shared : Nat) (nak : Bool) : BitVec 128 :=
  let h := BitVec.ofNat 128 (0xB5 * 2 ^ 120 + kind % 16 * 2 ^ 116 + sub % 16 * 2 ^ 112 + seq % 2 ^ 24 * 2 ^ 88 + ack % 2 ^ 24 * 2 ^ 64 +
    xoff % 2 ^ 16 * 2 ^ 48 + shared % 256 * 2 ^ 40 + (if nak then 2 ^ 39 else 0))
  h ||| BitVec.ofNat 128 (hchk h)

/-- A frame with its CRC-64, or stomped (R359). -/
def mkFrame (hdr : BitVec 128) (body len holds : Nat) (stomp : Bool) : Frame :=
  { hdr := hdr, body := body, len := len, holds := holds, crc := if stomp then ~~~(crc64 hdr body len) else crc64 hdr body len }

/-- Bytes that the frame takes without HOLD words (R357). -/
def Frame.bytes (f : Frame) : Nat := 24 + f.len

/-- The marked words handed to the lane layer: bit 64 the marker, the first serial byte in bits [63:56] (R356, R392). -/
def Frame.words (f : Frame) : List (BitVec 65) :=
  let h := f.hdr.toNat
  [BitVec.ofNat 65 (2 ^ 64 + h / 2 ^ 64), BitVec.ofNat 65 (h % 2 ^ 64)] ++
    (List.range (f.len / 8)).map (fun k => BitVec.ofNat 65 (f.body / 2 ^ (8 * f.len - 64 * (k + 1)) % 2 ^ 64)) ++
    List.replicate f.holds (BitVec.ofNat 65 (2 ^ 64)) ++ [BitVec.ofNat 65 f.crc.toNat]

/-! ### Codewords of the lane layer (R392, R393) -/

/-- The message of a codeword: TYPE, the counter modulo 8, 5,135 bits. -/
def cwMsg (type ctr body : Nat) : Nat := (type * 8 + ctr % 8) * 2 ^ 5135 + body % 2 ^ 5135
/-- 79 units, the first in the highest bits. -/
def unitsBits (l : List (BitVec 65)) : Nat := l.foldl (fun a u => a * 2 ^ 65 + u.toNat) 0
/-- The fields of an ALIGN codeword in order; every other bit is 0. -/
def alignBits (lane map ctr : Nat) (fast : Bool) : Nat :=
  (lane * 2 ^ 29 + map * 2 ^ 25 + ctr % 2 ^ 24 * 2 + (if fast then 1 else 0)) * 2 ^ 5102
/-- The units of a group that go to the lane of rank k among n (R392, R394). -/
def laneUnits (n k : Nat) (l : List (BitVec 65)) : List (BitVec 65) := (List.range 79).map (fun j => l.getD (j * n + k) 0)

/-! The parity of RS(544,514) over GF(2^10) (R392; PRESUMED, log entry 35): the code of IEEE 802.3, with the field polynomial
x^10 + x^3 + 1 and a generator with the roots α^0 to α^29, the first symbol in the highest bits. -/

/-- `a` times α. -/
def gfDouble (a : Nat) : Nat := if 2 * a < 1024 then 2 * a else 2 * a ^^^ 0x409
def gfMul (a b : Nat) : Nat :=
  (List.range 10).foldl (fun c k => gfDouble c ^^^ (if b / 2 ^ (9 - k) % 2 = 1 then a else 0)) 0
/-- The generator's coefficients, highest first, without the leading one. -/
def rsGen : List Nat :=
  (((List.range 30).foldl (fun (s : List Nat × Nat) _ =>
    (List.zipWith (· ^^^ ·) (s.1 ++ [0]) (0 :: s.1.map (gfMul s.2)), gfDouble s.2)) ([1], 1)).1).tail
/-- One symbol of the message enters the 30 symbols of the remainder. -/
def rsStep (gen r : List Nat) (m : Nat) : List Nat :=
  List.zipWith (· ^^^ ·) (r.tail ++ [0]) (gen.map (gfMul (m ^^^ r.headD 0)))
/-- The 30 parity symbols of a message of 514 symbols. -/
def rsParity (msg : Nat) : Nat :=
  ((List.range 514).foldl (fun r k => rsStep rsGen r (msg / 2 ^ (10 * (513 - k)) % 1024)) (List.replicate 30 0)).foldl
    (fun a x => a * 1024 + x) 0

/-! ### Training frames (R397) -/

/-- The control field, with its CRC-16. -/
def trainCtl (lane cap stage usable pre post : Nat) (ready spare : Bool) : Nat :=
  let v := lane % 4 + cap % 4 * 2 ^ 4 + stage % 4 * 2 ^ 6 + usable % 16 * 2 ^ 8 + pre % 4 * 2 ^ 12 + post % 4 * 2 ^ 14 +
    (if ready then 2 ^ 16 else 0) + (if spare then 2 ^ 17 else 0)
  v + crcOf 16 0x1021 0xFFFF v 112 * 2 ^ 112
/-- The CRC-16 of a received control field. -/
def trainCrcOk (c : Nat) : Bool := c / 2 ^ 112 % 2 ^ 16 == crcOf 16 0x1021 0xFFFF (c % 2 ^ 112) 112

/-- The next state of PRBS13 with x^13 + x^12 + x^2 + x + 1, whose highest bit is the output (log entry 35). -/
def prbsStep (s : Nat) : Nat :=
  let b := (s / 2 ^ 12 + s / 2 ^ 11 + s / 2 + s) % 2
  s * 2 % 2 ^ 13 + b
def prbsBits (s : Nat) : Nat → List Nat
  | 0 => []
  | n + 1 => s / 2 ^ 12 % 2 :: prbsBits (prbsStep s) n
/-- A PAM4 level from two bits, Gray-coded as in R390. -/
def pam4 : List Nat → List Nat
  | a :: b :: l => (if a = 0 then b else 3 - b) :: pam4 l
  | _ => []
/-- The 4,256 symbols of the training frame with control field `c`. -/
def trainSymbols (c : Nat) : List Nat :=
  List.replicate 16 3 ++ List.replicate 16 0 ++ (List.range 128).map (fun k => 3 * (c / 2 ^ (127 - k) % 2)) ++
    pam4 (prbsBits (0x0AAA + c % 16) 8192)

/-! ### Rope packets (R413, R415) -/

/-- A symbol on one Rope lane: a data byte, or one of the sets of R413. -/
inductive RopeSym where | data (b : Nat) | idle | comma3 | sop | eop | abort
deriving DecidableEq, Repr

/-- The ALIGN set: four symbols on each lane, L naming the sender's lane. -/
def alignSet : List (RopeSym × RopeSym) :=
  [(.comma3, .comma3), (.data 0xB5, .data 0xB5), (.data 0x60, .data 0x61), (.data 0xB5, .data 0xB5)]
/-- Bytes striped over the two lanes. -/
def stripe : List Nat → List (RopeSym × RopeSym)
  | a :: b :: l => (.data a, .data b) :: stripe l
  | _ => []
/-- The columns of a packet. -/
def packetColumns (bytes : List Nat) : List (RopeSym × RopeSym) := (.sop, .sop) :: stripe bytes ++ [(.eop, .eop)]

/-! The 8b/10b code of IEEE 802.3 (R412; PRESUMED, log entry 35): a code group has bit a in bit 9 and bit j in bit 0, and
`rd` is a positive running disparity. -/

/-- abcdei of the 32 values at negative disparity. -/
def code6 (x : Nat) : Nat :=
  [0b100111, 0b011101, 0b101101, 0b110001, 0b110101, 0b101001, 0b011001, 0b111000, 0b111001, 0b100101, 0b010101, 0b110100,
   0b001101, 0b101100, 0b011100, 0b010111, 0b011011, 0b100011, 0b010011, 0b110010, 0b001011, 0b101010, 0b011010, 0b111010,
   0b110011, 0b100110, 0b010110, 0b110110, 0b001110, 0b101110, 0b011110, 0b101011].getD x 0
/-- fghj of the 8 values at negative disparity, 7 being the primary form. -/
def code4 (y : Nat) : Nat := [0b1011, 0b1001, 0b0101, 0b1100, 0b1101, 0b1010, 0b0110, 0b1110].getD y 0
/-- The ones among the lowest `n` bits. -/
def onesOf (n v : Nat) : Nat := ((List.range n).filter (fun k => v / 2 ^ k % 2 == 1)).length
/-- A sub-block of `n` bits with `v` its form at negative disparity: complemented at positive disparity where it is unbalanced
or `alt`, and the disparity after it. -/
def subBlock (n v : Nat) (alt rd : Bool) : Nat × Bool :=
  let even := onesOf n v * 2 == n
  (if rd && (!even || alt) then 2 ^ n - 1 - v else v, if even then rd else !rd)
/-- A data byte. The alternate form of .7 stands where the primary one would make a run of five. -/
def codeData (rd : Bool) (b : Nat) : BitVec 10 × Bool :=
  let x := b % 32
  let y := b / 32 % 8
  let (six, rd) := subBlock 6 (code6 x) (x == 7) rd
  let a7 := y == 7 && (if rd then x == 11 || x == 13 || x == 14 else x == 17 || x == 18 || x == 20)
  let (four, rd) := subBlock 4 (if a7 then 0b0111 else code4 y) (y == 3) rd
  (BitVec.ofNat 10 (six * 16 + four), rd)
/-- A control code group, by its form at negative disparity, which its complement stands for at positive disparity. -/
def codeCtl (rd : Bool) (v : Nat) : BitVec 10 × Bool :=
  (BitVec.ofNat 10 (if rd then 1023 - v else v), if onesOf 10 v = 5 then rd else !rd)
/-- The symbols of R413: K28.5, K28.3, K27.7, K29.7, K30.7. -/
def codeSym (rd : Bool) : RopeSym → BitVec 10 × Bool
  | .data b => codeData rd b
  | .idle => codeCtl rd 0b0011111010
  | .comma3 => codeCtl rd 0b0011110011
  | .sop => codeCtl rd 0b1101101000
  | .eop => codeCtl rd 0b1011101000
  | .abort => codeCtl rd 0b0111101000
/-- Columns on the two lanes, each with its running disparity. -/
def codeColumns (rd : Bool × Bool) : List (RopeSym × RopeSym) → List (BitVec 10 × BitVec 10) × (Bool × Bool)
  | [] => ([], rd)
  | c :: l =>
    let (a, ra) := codeSym rd.1 c.1
    let (b, rb) := codeSym rd.2 c.2
    let (t, e) := codeColumns (ra, rb) l
    ((a, b) :: t, e)

/-- `n` bytes of `v`, least significant first. -/
def leBytes (n v : Nat) : List Nat := (List.range n).map (fun k => v / 2 ^ (8 * k) % 256)

/-- The CRC-32 of IEEE 802.3, each byte least significant bit first. -/
def crc32 (l : List Nat) : Nat :=
  let bit := fun (c : Nat) (b : Bool) => if (c % 2 == 1) != b then c / 2 ^^^ 0xEDB88320 else c / 2
  l.foldl (fun c x => (List.range 8).foldl (fun c k => bit c (x / 2 ^ k % 2 == 1)) c) (2 ^ 32 - 1) ^^^ (2 ^ 32 - 1)

/-- The bytes of a Rope packet that its CRC-32 covers. -/
def RopePkt.raw (k : RopePkt) : List Nat :=
  [k.kind % 256, k.ttl % 256] ++ leBytes 2 k.len ++ leBytes 4 k.src ++ leBytes 4 k.dst ++ leBytes k.len k.body
/-- The bytes of a Rope packet between SOP and EOP. -/
def RopePkt.bytes (k : RopePkt) : List Nat := k.raw ++ leBytes 4 (crc32 k.raw)

end Sys2Proof.Machine

/-! ### Received frames -/

namespace Sys2Proof

open Sys2Proof.Machine

/-- Header bits [lo + w - 1 : lo] of a received frame (R358). -/
def FrameHdr.bits (h : FrameHdr) (lo w : Nat) : Nat := h.hdr.toNat / 2 ^ lo % 2 ^ w
def FrameHdr.ack (h : FrameHdr) : Nat := h.bits 64 24
def FrameHdr.xoff (h : FrameHdr) : Nat := h.bits 48 16
def FrameHdr.nak (h : FrameHdr) : Bool := h.bits 39 1 == 1
/-- The frame keeps framing: MARK, FHCHK, at most 96 HOLD words (R356, R360, R361). -/
def FrameHdr.framed (h : FrameHdr) : Bool := h.bits 120 8 == 0xB5 && h.bits 0 8 == hchk h.hdr && h.holds ≤ 96
/-- What the CRC-64 shows; a frame that holds a flagged word is corrupt (R360, R394). -/
def FrameHdr.verdict (h : FrameHdr) (body len : Nat) : Crc :=
  if h.flagged || h.uncorr != 0 then .corrupt
  else if h.crc = crc64 h.hdr body len then .good
  else if h.crc = ~~~(crc64 h.hdr body len) then .stomped
  else .corrupt

def DataFrame.seq (f : DataFrame) : Nat := f.hdr.bits 88 24
def DataFrame.verdict (f : DataFrame) : Crc := f.hdr.verdict (cellsBits f.cells) (80 * f.cells.length)
/-- The cells with their SHARED bits. -/
def DataFrame.marked (f : DataFrame) : List (Cell × Bool) := f.cells.mapIdx (fun i c => (c, f.hdr.bits (40 + i) 1 == 1))
def CtlFrame.verdict (f : CtlFrame) : Crc := f.hdr.verdict (ctlBits f.body) 64

end Sys2Proof
end

