-- ==== Sys2Proof/Machine/Route.lean ====
section
/-! DEFINITION. Cells and routing (chapter 08): eligible ports, port choice, Traverse, marks, local delivery. -/

namespace Sys2Proof.Machine

/-- Routing states of RTE_PORT_STATE. -/
abbrev rsDown : Nat := 0
abbrev rsDiscovering : Nat := 1
abbrev rsCtlOnly : Nat := 2
abbrev rsUp : Nat := 3
abbrev rsMiscabled : Nat := 4
abbrev rsParked : Nat := 5

def Dev.rtState (d : Dev) (p : Nat) : Nat := d.rd F.RTE_PORT_STATE_STATE p
def Dev.setRtState (d : Dev) (p s : Nat) : Dev :=
  (d.wr F.RTE_PORT_STATE_STATE p s).wr F.RTE_PORT_STATE_MIS_REASON p 0
def Dev.myDev (d : Dev) : Nat := d.rd F.RTE_ID_DEV_ID
def Dev.myGroup (d : Dev) : Nat := d.myDev / 64

/-- The phase on the output link (R309): `inp` is the kind of the input port, none for injection. -/
def nextPhase (inp : Option Nat) (out ph : Nat) : Nat :=
  match inp with
  | none => ph
  | some 2 => ph
  | some 0 => if out = 0 then ph + 1 else ph
  | some _ => ph + 1

/-- The conditions of R303 apart from the routing state and, with `any`, the phase. Over a TERMINAL port the device only
injects and receives (R307, R320). -/
def Dev.portFits (d : Dev) (c : Cell) (inp : Option Nat) (anyPhase : Bool) (p : Nat) : Bool :=
  !d.flag F.RTE_PORT_CTL_DRAIN p && (inp.isNone || d.rd F.RTE_PORT_CFG_KIND p != 2) &&
    (anyPhase || nextPhase inp (d.rd F.RTE_PORT_CFG_KIND p) c.phase ≤ 3)

/-- A port is eligible for a cell (R303). -/
def Dev.portEligible (d : Dev) (c : Cell) (inp : Option Nat) (anyPhase : Bool) (p : Nat) : Bool :=
  (d.rtState p == rsUp ||
    (d.rtState p == rsCtlOnly && c.cls == 3 && nextPhase inp (d.rd F.RTE_PORT_CFG_KIND p) c.phase == 0)) &&
  d.portFits c inp anyPhase p

/-- A parked port that is otherwise eligible (R305). -/
def Dev.portWakeable (d : Dev) (c : Cell) (inp : Option Nat) (anyPhase : Bool) (p : Nat) : Bool :=
  d.rtState p == rsParked && d.portFits c inp anyPhase p

/-- L(p) of R304, with the penalty of a port in DEGRADED. -/
def Dev.load (d : Dev) (p : Nat) : Nat :=
  min 4095 (d.portSt p).out.length + (if d.rd F.PRT_LNK_STATE_STATE p = 4 then d.rd F.RTE_TRAV_DEG_PENALTY else 0)

/-- The ports of set s. -/
def Dev.setPorts (d : Dev) (s : Nat) : List Nat :=
  let m := d.reg R.RTE_PSET s
  if m = 0 then [] else allPorts.filter (fun p => getBits m p 1 == 1)

/-- The least-loaded port of `l`, the first after `last` among ties, in ascending order with wrap-around (R304). -/
def Dev.leastLoaded (d : Dev) (last : Nat) (l : List Nat) : Option Nat :=
  (l.filter (fun p => last < p) ++ l.filter (fun p => p ≤ last)).foldl
    (fun b p => match b with
      | none => some p
      | some q => if d.load p < d.load q then some p else some q) none

/-- The port that R304 gives in set s. -/
def Dev.setChoice (d : Dev) (c : Cell) (inp : Option Nat) (s : Nat) : Option Nat :=
  d.leastLoaded (Tbl.get d.rte.last 63 s) ((d.setPorts s).filter (d.portEligible c inp false))

/-- A table entry of R301: sets, cost, flags. -/
structure Route where
  pset : Nat
  alt : Nat
  cost : Nat
  valid : Bool
  altEn : Bool

/-- The entry that R301 uses for target group `g`. -/
def Dev.routeOf (d : Dev) (c : Cell) (g : Nat) : Route :=
  let w := if g = d.myGroup then d.reg R.RTE_MBR c.dstMember else d.reg R.RTE_GRP g
  { pset := getBits w 0 8, alt := getBits w 8 8, cost := max 1 (getBits w 16 4),
    valid := getBits w 20 1 == 1, altEn := getBits w 21 1 == 1 }

/-- How the router answers: a port of a set, a port to wake, or none. -/
inductive RouteTo where
  | port (p set : Nat)
  | wake (p set : Nat)
  | none
deriving DecidableEq, Repr

/-- R304 and R305 over one set. -/
def Dev.trySet (d : Dev) (c : Cell) (inp : Option Nat) (s : Nat) : RouteTo :=
  match d.setChoice c inp s with
  | some p => .port p s
  | none => match (d.setPorts s).find? (d.portWakeable c inp false) with
    | some p => .wake p s
    | none => .none

/-- R301 to R306 for a target group, primary then alternate. -/
def Dev.tryGroup (d : Dev) (c : Cell) (inp : Option Nat) (g : Nat) : RouteTo :=
  let e := d.routeOf c g
  if !e.valid then .none
  else match d.trySet c inp e.pset with
    | .none => if e.altEn then d.trySet c inp e.alt else .none
    | r => r

/-- Groups that may serve as intermediate (R314). -/
def Dev.viaGroups (d : Dev) (c : Cell) : List Nat :=
  (d.listed R.RTE_VIA_MASK).flatMap (fun e =>
    ((List.range 64).filter (fun j => getBits e.2 j 1 == 1)).map (fun j => e.1 * 64 + j)) |>.filter
      (fun g => g != d.myGroup && g != c.dstGroup)

/-- R311: the router may make the Traverse decision for the cell. -/
def Dev.mayDecide (d : Dev) (c : Cell) (inp : Option Nat) : Bool :=
  c.via == 0xFFF && c.phase == 0 && c.srcDev / 64 == d.myGroup && c.dstGroup != d.myGroup &&
  getBits (d.reg R.RTE_CFG) (8 + c.cls) 1 == 1 && (inp.isNone || d.flag F.RTE_CFG_TRANSIT_DECIDE)

/-- The Traverse decision (R312): the intermediate group and port, where the detour is taken. -/
def Dev.traverse (d : Dev) (c : Cell) (inp : Option Nat) : Dev × Option (Nat × Nat × Nat) :=
  let e := d.routeOf c c.dstGroup
  match (if e.valid then d.setChoice c inp e.pset else none) with
  | none => (d, none)
  | some m =>
    if d.load m < d.rd F.RTE_TRAV_MIN_THRESH then (d.ev 8 7 (some m), none)
    else
      let gs := d.viaGroups c
      if gs.isEmpty then (d.ev 8 7 (some m), none)
      else
        let x := Config.lfsr d.rte.lfsr
        let d := { d with rte.lfsr := x }
        let v := gs.getD (x.toNat % gs.length) 0
        let en := d.routeOf c v
        match (if en.valid then d.setChoice c inp en.pset else none) with
        | none => (d.ev 8 7 (some m), none)
        | some n =>
          if d.load n * (en.cost + d.rd F.RTE_TRAV_NM_EXTRA) + d.rd F.RTE_TRAV_BIAS < d.load m * e.cost then
            (d.ev 8 6 (some n), some (v, n, en.pset))
          else (d.ev 8 7 (some m), none)

/-- The way to the target group that `via` gives; a non-minimal path that finds no route becomes a minimal one (R306). -/
def Dev.toward (d : Dev) (c : Cell) (inp : Option Nat) (via : Nat) : Nat × RouteTo :=
  if via = 0xFFF then (via, d.tryGroup c inp c.dstGroup)
  else match d.tryGroup c inp via with
    | .none => (0xFFF, d.tryGroup c inp c.dstGroup)
    | r => (via, r)

/-- Where the router sends a cell that is not for this device, with VIA_GROUP as it will stand (R301 to R313). -/
def Dev.route (d : Dev) (c : Cell) (inp : Option Nat) : Dev × Nat × RouteTo :=
  let via := if c.via = d.myGroup then 0xFFF else c.via
  let c := c.setBits 32 12 via
  let (d, det) := if d.mayDecide c inp then d.traverse c inp else (d, none)
  match det with
  | some (v, n, s) => (d, v, .port n s)
  | none => (d, d.toward c inp via)

/-- The cell as it is sent on port p: VC, VIA_GROUP, HOPS, CMARK and HCHK (R309, R313, R316, R317, R296). -/
def Dev.outgoing (d : Dev) (c : Cell) (inp : Option Nat) (via p : Nat) : Cell :=
  let vc := c.cls * 4 + nextPhase inp (d.rd F.RTE_PORT_CFG_KIND p) c.phase
  let n := ((d.portSt p).out.filter (fun x => x.t.cell.vc == vc)).length
  let mark := if d.rd F.RTE_CMARK_THR3 ≤ n then 3 else if d.rd F.RTE_CMARK_THR2 ≤ n then 2
    else if d.rd F.RTE_CMARK_THR1 ≤ n then 1 else 0
  ((((c.setBits 44 4 vc).setBits 32 12 via).setBits 28 4 (c.hops + 1)).setBits 26 2 (max c.cmark mark)).sealed

/-- The cell, resident since `since`, joins the output queue of port p, chosen in set s. A port that Belay has parked in another
routing state than UP is woken for it. -/
def Dev.enqueue (d : Dev) (t : TxCell) (inp : Option Nat) (via p s since : Nat) : Dev :=
  let c := d.outgoing t.cell inp via p
  let d := if t.cell.cmark < c.cmark then d.ev 8 5 (some p) else d
  let d := { d with rte.last := Tbl.put s p d.rte.last }
  d.updPort p (fun x => { x with out := x.out ++ [⟨{ t with cell := c }, since, false, false⟩],
                                 wakeWant := x.wakeWant || d.rd F.PRT_LNK_STATE_STATE p == 5 })

/-- The wake of port p is requested (R305). -/
def Dev.wantWake (d : Dev) (p : Nat) : Dev := d.updPort p (fun x => { x with wakeWant := true })

/-- Where a cell goes whose decision is `h`: R304 over its set again, then the rest of R306 for its target group (R305, R388). -/
def Dev.reroute (d : Dev) (c : Cell) (inp : Option Nat) (h : Hold) : Nat × RouteTo :=
  match d.trySet c inp h.set with
  | .none => d.toward c inp h.via
  | r => (h.via, r)

/-- The limits of R317 and R318 that act (field ranges applied). -/
def Dev.hopLimit (d : Dev) : Nat := max 2 (d.rd F.RTE_CFG_HOP_LIMIT)
def Dev.residence (d : Dev) : Nat := usPs (max 4 (d.rd F.RTE_CFG_RESIDENCE_US))

/-- A transit cell that finds no route is discarded under one of two counts (R306, R310). -/
def Dev.noRoute (d : Dev) (c : Cell) (inp : Option Nat) : Dev :=
  let e := d.routeOf c c.dstGroup
  let some1 := fun s => (d.setPorts s).any (fun p => d.portEligible c inp true p || d.portWakeable c inp true p)
  if e.valid && (some1 e.pset || (e.altEn && some1 e.alt)) then d.bump F.RTE_DROP2_PHASE
  else d.bump F.RTE_DROP_NOROUTE

/-! ### Local delivery (R300, R513) -/

/-- Entries of the CTL ring that received cells may fill: 512 of the 8,192 are kept for send completions (R513). -/
def ctlRoom : Nat := 7680

/-- The 128 bytes of an entry, byte 0 lowest: the cell in serial order (R295), KIND, port and status, the time. -/
def CtlEnt.bytes (e : CtlEnt) : Nat :=
  (List.range 16).foldl (fun v k => v + bitsOf e.cell.hdr.toNat (120 - 8 * k) 8 * 2 ^ (8 * k)) 0 + e.cell.pay.toNat * 2 ^ 128 +
  (e.kind + e.port * 2 ^ 8 + e.status * 2 ^ 16) * 2 ^ 640 + e.time * 2 ^ 704

/-- The entry is written into the ring, which begins the Depot's internal area, in the next place that is free (R513; log
entry 36). -/
def Dev.ringPut (d : Dev) (e : CtlEnt) : Dev :=
  match firstFreeFrom (fun p => d.bcp.ring.any (fun x => x.pos == p)) 8192 d.bcp.ringPos (d.bcp.ring.length + 1) with
  | none => d
  | some p =>
    let e := { e with pos := p }
    let d := { d.depWake with bcp.ring := d.bcp.ring ++ [e], bcp.ringPos := (p + 1) % 8192 }
    (List.range 16).foldl (fun d k =>
      d.setDepWord (d.depSize - 2 * 2 ^ 30 + 128 * p + 8 * k) (mkWord (BitVec.ofNat 64 (bitsOf e.bytes (64 * k) 64)) 0)) d

/-- A CTL cell enters the ring, or is discarded and counted. -/
def Dev.ctlIn (d : Dev) (c : Cell) (port : Nat) : Dev :=
  if ctlRoom ≤ (d.bcp.ring.filter (fun e => e.kind == 1)).length then d.bump F.BCP_CTL_STAT_DROP
  else d.ringPut { cell := c, kind := 1, port := port, status := 0, time := d.ns }

/-- The completion of a CTL cell that Basecamp sent (R515). -/
def Dev.ctlSent (d : Dev) (c : Cell) (status : Nat) : Dev :=
  { d.ringPut { cell := c, kind := 2, port := 0, status := status, time := d.ns } with bcp.ctlOut := d.bcp.ctlOut - 1 }

/-- Delivery by class; REQ, RSP and COL cells then wait for the command that takes them (R300). -/
def Dev.deliver (d : Dev) (c : Cell) (port : Nat) : Dev :=
  if c.cls = 3 then d.ctlIn c port
  else if d.halted then d.bump F.RTE_DROP2_MISROUTE
  else
    let d := if c.cls = 0 || c.cls = 2 then d.ev 4 (15 + c.color) none (some c.dstFn) else d
    { d with rma.inbox := d.rma.inbox ++ [c] }

/-- What a cell that port p received and Belay accepted comes to (R14, R297, R324, R325): delivered or discarded, or none
where it is in transit. -/
def Dev.arrive (d : Dev) (p : Nat) (c : Cell) : Option Dev :=
  let st := d.rtState p
  let d := d.ev 8 1 (some p)
  if !c.hchkOk then some (d.bump F.RTE_DROP_HCHK)
  else if st = rsDiscovering || st = rsMiscabled || st = rsDown then some (d.bump F.RTE_DROP2_MISROUTE)
  else if st = rsCtlOnly && c.cls != 3 then some (d.bump F.RTE_DROP2_MISROUTE)
  else if c.cls = 3 && !d.flag F.RTE_ID_ASSIGNED then some (d.deliver c p)
  else if c.dstDev = d.myDev && d.flag F.RTE_ID_ASSIGNED then some (d.deliver c p)
  else if d.rd F.RTE_PORT_CFG_KIND p = 2 then some (d.bump F.RTE_DROP2_MISROUTE)
  else none

/-- What routing answered for a cell of this device: queued on a port, held in its injection buffer while a port wakes, or
without a route: discarded and counted where Basecamp sent it, refused back to RMA and COL (R305, R306). -/
def Dev.placeOwn (d : Dev) (t : TxCell) (since via : Nat) (r : RouteTo) : Dev :=
  match r with
  | .port p s => d.enqueue t none via p s since
  | .wake p s => { d.wantWake p with rte.held := d.rte.held ++ [⟨t, ⟨p, s, via⟩, since⟩] }
  | .none =>
    { (if t.cls = 3 then d.noRoute t.cell none else d) with rma.lost := d.rma.lost ++ [(t, Status.UNREACHABLE)] }

/-- A cell of this device is handed to the router: delivered here, or routed (R300 to R306). -/
def Dev.handOver (d : Dev) (t : TxCell) : Dev :=
  let c := t.cell
  if c.dstDev = d.myDev && d.flag F.RTE_ID_ASSIGNED then
    let d := if t.cls = 3 then d.ctlSent c Status.OK else d
    d.deliver c.sealed 0xFF
  else
    let (d, via, r) := d.route c none
    d.placeOwn t d.ps via r

/-- Cells held for port p are routed again: it is UP, or down (R305, R388). -/
def Dev.freeHeld (d : Dev) (p : Nat) : Dev :=
  (d.rte.held.filter (fun h => h.hold.port == p)).foldl (fun d h =>
    d.placeOwn h.t h.since (d.reroute h.t.cell none h.hold).1 (d.reroute h.t.cell none h.hold).2)
    { d with rte.held := d.rte.held.filter (fun h => h.hold.port != p) }

end Sys2Proof.Machine
end

