-- ==== Sys2Proof/Machine/Belay.lean ====
section
/-! DEFINITION. The Belay link layer (chapter 10): frames sent and received, acknowledgement, replay, credits,
initialisation, errors, link down; and neighbour discovery (R321 to R325). -/

namespace Sys2Proof.Machine

abbrev lsDown : Nat := 0
abbrev lsLock : Nat := 1
abbrev lsInit : Nat := 2
abbrev lsUp : Nat := 3
abbrev lsDegraded : Nat := 4
abbrev lsParked : Nat := 5
abbrev lsRelock : Nat := 6

/-! The states of a port's training (R396). -/
abbrev tsOff : Nat := 0
abbrev tsDetect : Nat := 1
abbrev tsCal : Nat := 2
abbrev tsTrain : Nat := 3
abbrev tsAlign : Nat := 4
abbrev tsTrained : Nat := 5
abbrev tsFailed : Nat := 6
abbrev tsParked : Nat := 7

def Dev.trn (d : Dev) (p : Nat) : Nat := d.rd F.PRT_TRN_STAT_STATE p
def Dev.setTrn (d : Dev) (p s : Nat) : Dev := (d.wr F.PRT_TRN_STAT_STATE p s).updPort p (fun x => { x with trnAt := d.ps })

def Dev.lnk (d : Dev) (p : Nat) : Nat := d.rd F.PRT_LNK_STATE_STATE p
def Dev.setLnk (d : Dev) (p s : Nat) : Dev :=
  (d.wr F.PRT_LNK_STATE_STATE p s).updPort p (fun x => { x with since := d.ps, good := 0 })

/-- Sequence numbers of PRT_LNK_SEQ (R363, R364). -/
def Dev.txNext (d : Dev) (p : Nat) : Nat := d.rd F.PRT_LNK_SEQ_TX_NEXT p
def Dev.nextRx (d : Dev) (p : Nat) : Nat := d.rd F.PRT_LNK_SEQ_NEXT_RX p

/-- Timers of PRT_LNK_CFG with the field ranges applied. -/
def Dev.ackTimer (d : Dev) (p : Nat) : Nat := clampTo 20 5000 (d.rd F.PRT_LNK_CFG_ACK_TIMER p)
def Dev.frameLife (d : Dev) (p : Nat) : Nat := max 2 (d.rd F.PRT_LNK_CFG_FRAME_LIFE_US p)
/-- T_replay (R368), in ns. -/
def Dev.tReplay (d : Dev) (p rtt : Nat) : Nat := max (d.rd F.PRT_LNK_CFG_REPLAY_NS p) (rtt + d.ackTimer p + 200)

/-! ### Errors (R385) -/

/-- An error event: LEVEL rises, and a port in UP may enter DEGRADED. -/
def Dev.linkError (d : Dev) (p : Nat) : Dev :=
  let d := d.bump F.PRT_LNK_STATE_LEVEL p
  if d.lnk p = lsUp && max 1 (d.rd F.PRT_LNK_ERR_ERR_LIMIT p) ≤ d.rd F.PRT_LNK_STATE_LEVEL p then
    ((d.setLnk p lsDegraded).updPort p (fun x => { x with
      out := x.out.map (fun c => { c with deg := c.t.cell.cls == 3 }),
      again := x.again.map (fun c => { c with deg := c.t.cell.cls == 3 }) })).fault 15
  else d

/-- A framing error (R361). -/
def Dev.framingError (d : Dev) (p : Nat) : Dev :=
  if d.lnk p = lsDown || d.lnk p = lsParked || d.dark then d
  else ((d.updPort p (fun x => { x with good := 0 })).bump F.PRT_LNK_ERRCNT_FRAMING p).linkError p

/-- Codewords that failed to decode on the physical lanes `ls` (R385, R394). -/
def Dev.uncorrIn (d : Dev) (p : Nat) (ls : BitVec 4) : Dev :=
  (List.range 4).foldl (fun d l => if ls.getLsbD l then (d.bump F.PRT_LANE_STAT_UNCORR (p * 4 + l)).linkError p else d) d

/-! ### Credits (R373 to R378) -/

/-- Dedicated cells per VC and the shared pool of a U4 port (R373). -/
abbrev dedCells : Nat := 32
abbrev poolCells : Nat := 5632

def Port.dedHeld (x : Port) (v : Nat) : Nat := (x.inb.filter (fun c => c.cell.vc == v && !c.shared)).length
def Port.poolHeld (x : Port) : Nat := (x.inb.filter (fun c => c.shared)).length
def Port.poolHeldBy (x : Port) (v : Nat) : Nat := (x.inb.filter (fun c => c.cell.vc == v && c.shared)).length
def Port.limOut (x : Port) (v : Nat) : Nat := Tbl.get x.limitOut dedCells v
def Port.limIn (x : Port) (v : Nat) : Nat := Tbl.get x.limitIn x.peerDed v
def Port.usedOf (x : Port) (v : Nat) : Nat := Tbl.get x.used 0 v
def Port.gotOf (x : Port) (v : Nat) : Nat := Tbl.get x.gotDed 0 v

/-- The effective thresholds of R376. -/
def Dev.xoffEff (d : Dev) (p : Nat) : Nat :=
  let c10 := if d.flag F.PRT_TRN_STAT_MODE_425 p then 25 else 12
  let extra := if d.flag F.PRT_TRN_STAT_MODE_425 p then 0 else d.rd F.PRT_LNK_RTT_RTT_NS p
  max (d.rd F.PRT_LNK_CREDIT_XOFF_FREE p) ((d.rd F.PRT_LNK_RTT_RTT_NS p * c10 * 2 + extra + 19) / 20 + 16)

/-- The XOFF mask (R376). -/
def Dev.xoffMask (d : Dev) (p : Nat) : Nat :=
  let x := d.portSt p
  let free := poolCells - x.poolHeld
  let cap := clampTo 128 5632 (d.rd F.PRT_LNK_CREDIT_SHARED_CAP p)
  let off := d.xoffEff p
  let on := max (d.rd F.PRT_LNK_CREDIT_XON_FREE p) (off + 64)
  (List.range 16).foldl (fun m v =>
    let was := x.xoffOut / 2 ^ v % 2 == 1
    let set := free < off || cap ≤ x.poolHeldBy v
    let clear := on ≤ free && x.poolHeldBy v ≤ cap - 128
    if set || (was && !clear) then m + 2 ^ v else m) 0

def Dev.reXoff (d : Dev) (p : Nat) : Dev := d.updPort p (fun x => { x with xoffOut := d.xoffMask p })

/-- PRT_LNK_RTT shows T_replay and XOFF_EFF as they now stand (R368, R376). -/
def Dev.showEff (d : Dev) (p : Nat) : Dev :=
  (d.wr F.PRT_LNK_RTT_REPLAY_EFF_NS p (min (d.tReplay p (d.rd F.PRT_LNK_RTT_RTT_NS p)) 65535)).wr F.PRT_LNK_RTT_XOFF_EFF p
    (min (d.xoffEff p) 8191)
/-- The same after a write of a Live field they rest on, once a round trip has been measured. -/
def Dev.reEff (d : Dev) (p : Nat) : Dev := if d.rd F.PRT_LNK_RTT_RTT_NS p = 0 then d else d.showEff p

/-- A dedicated cell of VC v has left its buffer (R374, R375). -/
def Dev.freedCredit (d : Dev) (p v : Nat) : Dev :=
  d.updPort p (fun x => { x with limitOut := Tbl.put v ((x.limOut v + 1) % 65536) x.limitOut, freed := x.freed + 1,
                                 freedAt := some (x.freedAt.getD d.ps) })

/-- The CREDIT frame (R380). -/
def Dev.sendCredit (d : Dev) (p : Nat) : Dev :=
  let x := d.portSt p
  let body := (List.range 16).foldl (fun b v => b + x.limOut v * 2 ^ (16 * v)) 0 + (poolCells - x.poolHeld) * 2 ^ 256
  (d.ctlFrame p 2 body).updPort p (fun x => { x with freed := 0, freedAt := none, creditAt := d.ps })

/-- The first cell of VC v that port p may send now: through the pool, or with dedicated credit (R377). -/
def Port.credit (x : Port) (v : Nat) : Option Bool :=
  if x.xoffIn / 2 ^ v % 2 = 0 then some true
  else
    let k := (x.limIn v + 65536 - x.usedOf v) % 65536
    if 1 ≤ k && k < 32768 then some false else none

/-! ### Discovery (R321 to R325) -/

def idSystem (w : Nat) : Nat := bitsOf w 0 16
def idDev (w : Nat) : Nat := bitsOf w 16 18
def idAssigned (w : Nat) : Bool := bitsOf w 34 1 == 1
def idPort (w : Nat) : Nat := bitsOf w 35 6
def idRole (w : Nat) : Nat := bitsOf w 41 2
def idKind (w : Nat) : Nat := bitsOf w 43 2

/-- R323: another port already reaches the same neighbour, which its identity names, from another port group. -/
def Dev.duplicate (d : Dev) (p w : Nat) : Bool :=
  allPorts.any (fun q => q != p && (d.rtState q == rsUp || d.rtState q == rsCtlOnly) &&
    idAssigned (d.reg R.RTE_PORT_NBR q).toNat && idRole (d.reg R.RTE_PORT_NBR q).toNat == idRole w && idDev (d.reg R.RTE_PORT_NBR q).toNat == idDev w &&
    d.rd F.RTE_PORT_CFG_PGROUP q != d.rd F.RTE_PORT_CFG_PGROUP p)

/-- The first check of R322 that the identity word fails; 0 where all pass. -/
def Dev.misReason (d : Dev) (p w : Nat) : Nat :=
  let kind := d.rd F.RTE_PORT_CFG_KIND p
  let assigned := d.flag F.RTE_ID_ASSIGNED
  if idSystem w != d.rd F.RTE_ID_SYSTEM_ID then 1
  else if kind = 3 || 2 ≤ idRole w || idKind w = 3 || (kind = 2 && idRole w = 0) || (kind != 2 && idRole w = 1 && idKind w = 2) then 2
  else if idKind w != kind then 3
  else if assigned && idRole w = 0 && idAssigned w && idDev w = d.myDev then 4
  else if d.flag F.RTE_PORT_CFG_EXPECT_EN p &&
      (idDev w != d.rd F.RTE_PORT_CFG_EXPECT_DEV p || idPort w != d.rd F.RTE_PORT_CFG_EXPECT_PORT p) then 5
  else if assigned && idAssigned w && d.duplicate p w then 6
  else 0

/-- DISCOVER sent on a port (R379). -/
def Dev.sendDiscover (d : Dev) (p : Nat) : Dev :=
  (d.ctlFrame p 3 (d.identity p)).updPort p (fun x => { x with discAt := d.ps })

/-- Entry to DISCOVERING. -/
def Dev.discover (d : Dev) (p : Nat) : Dev := (d.setRtState p rsDiscovering).sendDiscover p

/-- The checks of R322 on the identity received, in DISCOVERING. Cells still held for the port's wake go on once it is UP (R305). -/
def Dev.judge (d : Dev) (p w : Nat) : Dev :=
  let r := d.misReason p w
  if r != 0 then ((d.setRtState p rsMiscabled).wr F.RTE_PORT_STATE_MIS_REASON p r).fault 14
  else if d.pwr.state != .safe && d.flag F.RTE_ID_ASSIGNED && idAssigned w then (d.setRtState p rsUp).freeHeld p
  else d.setRtState p rsCtlOnly

/-- An identity word arrives on port p (R322, R325). -/
def Dev.identityIn (d : Dev) (p w : Nat) : Dev :=
  let old := (d.reg R.RTE_PORT_NBR p).toNat
  let st := d.rtState p
  let d := d.setReg R.RTE_PORT_NBR p (BitVec.ofNat 64 w)
  if st = rsDiscovering then d.judge p w
  else if (st = rsCtlOnly || st = rsUp) && old != w then (d.discover p).judge p w
  else d

/-- RTE_ID or RTE_PORT_CFG changed: ports in CTL_ONLY, UP and MISCABLED discover again (R325), and every port that is not DOWN
sends the new identity word (R379). -/
def Dev.rediscoverAll (d : Dev) (ps : List Nat) : Dev :=
  ps.foldl (fun d p =>
    if d.rtState p = rsCtlOnly || d.rtState p = rsUp || d.rtState p = rsMiscabled then d.discover p
    else if d.rtState p = rsDown then d else d.sendDiscover p) d

/-! ### Link down (R387, R388) -/

/-- Units go to the lanes: each full group of them leaves as one codeword on every active lane, after an ALIGN codeword where
the counter is due (R392, R393). -/
def Dev.groupOut (d : Dev) (p : Nat) (ls : List Nat) (l : List (BitVec 65)) : Dev :=
  let send := fun (d : Dev) (type : Nat) (body : Nat → Nat → Nat) =>
    let c := (d.portSt p).cwCtr
    let d := ls.mapIdx (fun k lane => (k, lane)) |>.foldl (fun d (e : Nat × Nat) =>
      let m := cwMsg type c (body e.1 e.2)
      d.emit (.codeword p e.2 m (rsParity m))) d
    d.updPort p (fun x => { x with cwCtr := (c + 1) % 2 ^ 24 })
  let align := fun (d : Dev) => send d 1 (fun _ lane =>
    alignBits lane (d.rd F.PRT_TRN_STAT_TX_MAP p) (d.portSt p).cwCtr (d.flag F.PRT_TRN_STAT_MODE_425 p))
  if l.isEmpty then align d
  else
    let d := if (d.portSt p).cwCtr % 1024 = 0 then align d else d
    send d 0 (fun k _ => unitsBits (laneUnits ls.length k l))

/-- The active transmit lanes. -/
def Dev.txLanes (d : Dev) (p : Nat) : List Nat := (List.range 4).filter (fun l => d.rd F.PRT_TRN_STAT_TX_MAP p / 2 ^ l % 2 == 1)

/-- Full groups leave, as many as there are. -/
def Dev.drainUnits (d : Dev) (p n : Nat) : Nat → Dev
  | 0 => d
  | fuel + 1 =>
    let l := (d.portSt p).units
    if n = 0 || l.length < n then d
    else
      let d := d.updPort p (fun x => { x with units := l.drop n })
      (d.groupOut p (d.txLanes p) (l.take n)).drainUnits p n fuel

/-- A frame is handed to the lane layer (R356). -/
def Dev.toLanes (d : Dev) (p : Nat) (f : Frame) : Dev :=
  let d := d.emit (.frame p f)
  let n := 79 * (d.txLanes p).length
  if n = 0 then d
  else (d.updPort p (fun x => { x with units := x.units ++ f.words })).drainUnits p n 4

/-- The FEC data path starts with 8 ALIGN codewords (R393); its counter starts at 0 (log entry 35). -/
def Dev.startPath (d : Dev) (p : Nat) : Dev :=
  (List.range 8).foldl (fun d _ => d.groupOut p (d.txLanes p) []) (d.updPort p (fun x => { x with units := [], cwCtr := 0 }))

/-- A frame with the port's present ACK_SEQ and XOFF. -/
def Dev.frameOf (d : Dev) (p kind sub seq shared : Nat) (nak : Bool) (body len holds : Nat) (stomp : Bool) : Frame :=
  mkFrame (frameHdr kind sub seq (d.portSt p).ackSeq (d.portSt p).xoffOut shared nak) body len holds stomp

/-- Entry to DOWN. The cells lost are left for their units, TIME exchanges and parking end with LINK_DOWN, and the mask of R376
follows the pool, which keeps the cells of accepted frames (R388). -/
def Dev.linkDown (d : Dev) (p reason : Nat) : Dev :=
  if d.lnk p = lsDown then d
  else
    let x := d.portSt p
    let d := ((d.setLnk p lsDown).wr F.PRT_LNK_STATE_REASON p reason).bumpBy F.PRT_LNK_DROP_LINKDOWN p x.out.length
    let lost := (x.out.filter (fun c => c.t.own)).map (fun c => (c.t, Status.LINK_DOWN))
    let d := { d with rma.lost := d.rma.lost ++ lost, time.nbr := Tbl.del p d.time.nbr }
    let d := d.setPort p { inb := x.inb, lanes := x.lanes, trnAt := x.trnAt, trainMs := x.trainMs, stage := x.stage,
                           modAt := x.modAt, recalAt := x.recalAt, since := d.ps, exId := x.exId, parkId := x.parkId,
                           ackSeq := x.ackSeq, cellAt := x.cellAt, decayAt := x.decayAt, txIdle := x.txIdle,
                           exEnd := if x.exch.isEmpty && !x.ctl.any (fun e => e.1 == 4 && e.2 % 2 == 0) then x.exEnd
                             else Status.LINK_DOWN,
                           parkEnd := if x.parkReq.isNone && x.parkAgree.isNone then x.parkEnd else Status.LINK_DOWN }
    let d := ((d.reXoff p).setReg R.RTE_PORT_NBR p 0).setRtState p rsDown
    (d.freeHeld p).fault 16

/-! ### Initialisation (R383, R384) -/

/-- A TIME REQ queued; its stamp is put in when it leaves (R381, R420). -/
def Dev.sendTimeReq (d : Dev) (p : Nat) : Dev :=
  let id := (d.portSt p).exId
  let head := id % 256 * 2 ^ 8 + d.rd F.TIME_STAT_LOCKED * 2 ^ 16 + d.rd F.TIME_STAT_GM_DIST * 2 ^ 24
  (d.ctlFrame p 4 head).updPort p (fun x => { x with exId := (id + 1) % 256 })

/-- The INIT frame (R380). -/
def Dev.sendInit (d : Dev) (p : Nat) : Dev :=
  let x := d.portSt p
  d.ctlFrame p 1 (1 + (if x.seen then 2 ^ 8 else 0) + dedCells * 2 ^ 16 + poolCells * 2 ^ 24 + d.identity p * 2 ^ 64)

/-- Entry to LOCK when the lane layer reports the port trained and the input buffer is empty. -/
def Dev.tryLock (d : Dev) (p : Nat) : Dev :=
  let x := d.portSt p
  if d.lnk p = lsDown && x.trained && x.inb.isEmpty then (d.setLnk p lsLock).updPort p (fun x => { x with trained := false })
  else d

/-- Entry to INIT. -/
def Dev.enterInit (d : Dev) (p : Nat) : Dev :=
  let d := d.setLnk p lsInit
  let d := (d.wr F.PRT_LNK_SEQ_TX_NEXT p 0).wr F.PRT_LNK_SEQ_NEXT_RX p 0
  let d := d.updPort p (fun x => { x with
    replay := [], replaying := 0, replayFrom := none, replayEnd := none, ackSeq := 0xFFFFFF, accepted := 0, ackAt := none,
    nakNext := false, nakRaised := false, limitOut := [], limitIn := [], used := [], gotDed := [], seen := false,
    peerSeen := false, initRtts := [], exch := [], lastGood := d.ps, discAt := d.ps })
  (List.range 4).foldl (fun d _ => d.sendTimeReq p) (d.sendInit p)

/-- INIT to UP when both ends have seen each other; a round trip that does not pass ends INIT at once (R383, R384). -/
def Dev.tryUp (d : Dev) (p : Nat) : Dev :=
  let x := d.portSt p
  if d.lnk p != lsInit || x.initRtts.length < 4 then d
  else
    let rtt := x.initRtts.foldl min (x.initRtts.headD 0)
    let d := (d.wr F.PRT_LNK_RTT_RTT_NS p (min rtt 65535)).showEff p
    if 1500 < rtt then d.linkDown p 9
    else if d.frameLife p * 1000 < 2 * d.tReplay p rtt + rtt then d.linkDown p 10
    else if !(x.seen && x.peerSeen) then d
    else
      let d := ((d.setLnk p lsUp).updPort p (fun x => { x with cellAt := d.ps })).sendCredit p
      (d.setReg R.RTE_PORT_NBR p (BitVec.ofNat 64 x.initId)).discover p

/-! ### Acknowledgement and replay (R365 to R368) -/

/-- An acknowledgement event. -/
def Dev.ackEvent (d : Dev) (p : Nat) : Dev :=
  d.updPort p (fun x => { x with ackSeq := (d.nextRx p + 0xFFFFFF) % 2 ^ 24, accepted := 0, ackAt := none })

/-- A NAK event, once for each NEXT_RX. -/
def Dev.nakEvent (d : Dev) (p : Nat) : Dev :=
  if (d.portSt p).nakRaised then d
  else (d.ackEvent p).updPort p (fun x => { x with nakNext := true, nakRaised := true })

/-- A replay timer that starts now (R368). -/
def Dev.replayStart (d : Dev) (p : Nat) : Nat × Nat := (d.ps, d.rd F.PRT_LNK_CFG_REPLAY_NS p)
/-- When a replay timer expires: REPLAY_NS as it stood at its start, ACK_TIMER as it stands (R368). -/
def Dev.replayDue (d : Dev) (p : Nat) (t : Nat × Nat) : Nat :=
  t.1 + nsPs (max t.2 (d.rd F.PRT_LNK_RTT_RTT_NS p + d.ackTimer p + 200))

/-- A replay starts from the oldest unacknowledged frame. -/
def Dev.startReplay (d : Dev) (p : Nat) : Dev :=
  d.updPort p (fun x => match x.replay with
    | [] => x
    | r :: _ => { x with replaying := x.replay.length, replayEnd := some (d.replayStart p), replayFrom := some (r.seq, d.ps) })

/-- The ACK_SEQ of a correct frame (R366). -/
def Dev.ackIn (d : Dev) (p a : Nat) : Dev :=
  let x := d.portSt p
  let oldest := (x.replay.head?.map RepFrame.seq).getD (d.txNext p)
  let before := (oldest + 0xFFFFFF) % 2 ^ 24
  let k := (a + 2 ^ 24 - before) % 2 ^ 24
  if x.replay.length < k then ((d.bump F.PRT_LNK_ERRCNT2_ACK_RANGE p).linkError p)
  else if k = 0 then d
  else
    let rest := x.replay.drop k
    d.setPort p { x with replay := rest, replaying := min x.replaying rest.length,
                         replayEnd := if rest.isEmpty then none else some (d.replayStart p) }

/-- NAK = 1 with ACK_SEQ a (R367). -/
def Dev.nakIn (d : Dev) (p a : Nat) : Dev :=
  let recent := match (d.portSt p).replayFrom with
    | some (s, t) => s == (a + 1) % 2 ^ 24 && d.ps < t + nsPs (d.rd F.PRT_LNK_RTT_RTT_NS p)
    | none => false
  if recent then d else d.startReplay p

/-- The wake of a port is complete (R325, R383, R396). Cells held for it wait on where it must first be discovered again (R305). -/
def Dev.wakeComplete (d : Dev) (p : Nat) : Dev :=
  let again := (d.portSt p).rediscover
  let d := ((d.setLnk p lsUp).setTrn p tsTrained).updPort p (fun x => { x with
    waking := false, wakeWant := false, rediscover := false, parkReq := none, parkAgree := none, cellAt := d.ps })
  let d := (d.ev 8 9 (some p)).sendCredit p
  if again then d.discover p else (if d.rtState p = rsParked then d.setRtState p rsUp else d).freeHeld p

/-- The header of a frame whose CRC-64 is correct takes effect: XOFF, ACK_SEQ and NAK (R360, R366, R367). -/
def Dev.headerIn (d : Dev) (p : Nat) (h : FrameHdr) : Dev :=
  let d := (d.updPort p (fun x => { x with xoffIn := h.xoff })).ackIn p h.ack
  if h.nak then d.nakIn p h.ack else d

/-- A frame has passed its CRC-64. -/
def Dev.passed (d : Dev) (p : Nat) : Dev := d.updPort p (fun x => { x with lastGood := d.ps, good := x.good + 1 })

/-- What a frame whose framing stands does by its CRC-64 (R360, R366, R367, R372, R383). `false` where its body is not to be used. -/
def Dev.frameVerdict (d : Dev) (p : Nat) (h : FrameHdr) (v : Crc) : Dev × Bool :=
  let st := d.lnk p
  match v with
    | .corrupt => (((d.updPort p (fun x => { x with good := 0 })).bump F.PRT_LNK_ERRCNT_CRC p).linkError p, false)
    | .stomped => ((d.updPort p (fun x => { x with good := 0 })).bump F.PRT_LNK_ERRCNT2_STOMP p, false)
    | .good =>
      (if st = lsLock then if 2 ≤ ((d.passed p).portSt p).good then (d.passed p).enterInit p else d.passed p
       else if st = lsRelock && 2 ≤ (((d.passed p).headerIn p h).portSt p).good then ((d.passed p).headerIn p h).wakeComplete p
       else (d.passed p).headerIn p h, true)

/-- What every received frame does by its codewords, its header and the verdict `v` of its CRC-64 (R360, R361, R385, R394). -/
def Dev.frameIn (d : Dev) (p : Nat) (h : FrameHdr) (v : Crc) : Dev × Bool :=
  if d.dark || d.lnk p = lsDown || d.lnk p = lsParked then (d, false)
  else if !h.framed then ((d.uncorrIn p h.uncorr).framingError p, false)
  else (d.uncorrIn p h.uncorr).frameVerdict p h v

/-! ### Receiving DATA (R364, R372, R377) -/

/-- One cell of an accepted frame. -/
def Dev.cellIn (d : Dev) (p : Nat) (cs : Cell × Bool) : Dev :=
  let x := d.portSt p
  let v := cs.1.vc
  if (cs.2 && poolCells ≤ x.poolHeld) || (!cs.2 && dedCells ≤ x.dedHeld v) then
    (d.bump F.PRT_LNK_ERRCNT_CREDIT p).linkError p
  else
    let d := d.updPort p (fun x => { x with
      cellAt := d.ps,
      gotDed := if cs.2 then x.gotDed else Tbl.put v ((x.gotOf v + 1) % 65536) x.gotDed })
    match d.arrive p cs.1 with
    | some d => if cs.2 then d else d.freedCredit p v
    | none => d.updPort p (fun x => { x with inb := x.inb ++ [⟨cs.1, cs.2, d.ps, none⟩] })

/-- NEXT_RX counts an accepted frame, and every 32nd raises an acknowledgement event (R364, R365). -/
def Dev.accept (d : Dev) (p : Nat) : Dev :=
  let d := d.wr F.PRT_LNK_SEQ_NEXT_RX p ((d.nextRx p + 1) % 2 ^ 24)
  let d := d.updPort p (fun x => { x with nakRaised := false, accepted := x.accepted + 1, ackAt := some (x.ackAt.getD d.ps) })
  if 32 ≤ (d.portSt p).accepted then d.ackEvent p else d

/-- A DATA frame whose CRC-64 is correct: accepted, a duplicate, or a gap (R364). -/
def Dev.dataGood (d : Dev) (p : Nat) (fr : DataFrame) : Dev :=
  if fr.seq = d.nextRx p then (fr.marked.foldl (fun d c => d.cellIn p c) (d.accept p)).reXoff p
  else if serialLt 24 fr.seq (d.nextRx p) then (d.bump F.PRT_LNK_ERRCNT2_DUP p).ackEvent p
  else (d.bump F.PRT_LNK_ERRCNT2_GAP p).nakEvent p

/-- The body of a DATA frame by its CRC-64 (R364, R372). -/
def Dev.dataBody (d : Dev) (p : Nat) (fr : DataFrame) : Dev :=
  match fr.verdict with
  | .stomped => d
  | .corrupt => d.nakEvent p
  | .good => d.dataGood p fr

/-- A DATA frame (R364). A body that arrives in LOCK is not used. -/
def Dev.dataIn (d : Dev) (p : Nat) (fr : DataFrame) : Dev :=
  let e := (d.frameIn p fr.hdr fr.verdict).1
  if d.lnk p = lsDown || d.lnk p = lsParked || d.dark || !fr.hdr.framed || e.lnk p = lsLock || e.lnk p = lsDown then e
  else e.dataBody p fr

/-! ### Sending (R351, R362, R363) -/

/-- Gate entry in force at fabric time `t` of a list of `n` entries from base `b` in bank `k` of port p (R352). -/
def Dev.gateEntry (d : Dev) (p k n b t : Nat) : Nat :=
  let dur := fun i => max 16 (d.rd F.SCH_GATE_ENT_DURATION (p * 128 + k * 64 + i))
  let cycle := (List.range n).foldl (fun s i => s + dur i) 0
  let off := (t - b) % max 1 cycle
  ((List.range n).foldl (fun (acc : Nat × Nat) i =>
    if acc.1 ≤ off then (acc.1 + dur i, i) else acc) (0, 0)).2

/-- The class's gate is open on port p (R352, R353): 0 REQ, 1 RSP, 2 COL; CTL always. -/
def Dev.gateOpen (d : Dev) (p cls : Nat) : Bool :=
  if cls = 3 || !d.flag F.SCH_GATE_CTL_EN p then true
  else match (Tbl.get d.sch.gates {} p).active with
    | none => true
    | some (k, n, b) =>
      let e := d.gateEntry p k n b d.ns
      getBits (d.reg R.SCH_GATE_ENT (p * 128 + k * 64 + e)) (24 + cls) 1 == 1

/-- Port p carries cells of VC v: UP every one, CTL_ONLY those of class CTL and phase 0 (R324, R325). -/
def Dev.carries (d : Dev) (p v : Nat) : Bool := d.rtState p == rsUp || (d.rtState p == rsCtlOnly && v == 12)

/-- The cell of class `cls` that goes first: highest phase, oldest, with credit (R351). -/
def Dev.classReady (d : Dev) (p cls : Nat) : Option (OutCell × Bool) :=
  [3, 2, 1, 0].findSome? (fun ph =>
    let v := cls * 4 + ph
    match (d.portSt p).out.find? (fun c => c.t.cell.vc == v && d.carries p v), (d.portSt p).credit v with
    | some c, some sh => some (c, sh)
    | _, _ => none)

/-- The class that the round robin of R351 serves next, with the cells left in the round; a class that cannot send gives up its
share. -/
def Dev.nextClass (d : Dev) (p : Nat) : Dev × Option Nat :=
  if (d.classReady p 3).isSome then (d, some 3)
  else
    let can := fun c => (d.classReady p c).isSome && d.gateOpen p c
    let pickLeft := fun (l : List Nat) => [0, 1, 2].find? (fun c => can c && 0 < l.getD c 0)
    let left := (d.portSt p).rrLeft.mapIdx (fun c n => if can c then n else 0)
    let d := d.updPort p (fun x => { x with rrLeft := left })
    match pickLeft left with
    | some c => (d, some c)
    | none =>
      if !(can 0 || can 1 || can 2) then (d, none)
      else
        let d := d.latch R.SCH_PORT_CFG p
        let fresh := [d.rdF F.SCH_PORT_CFG_REQ_W_M1 p + 1, d.rdF F.SCH_PORT_CFG_RSP_W_M1 p + 1,
                      d.rdF F.SCH_PORT_CFG_COL_W_M1 p + 1].mapIdx (fun c n => if can c then n else 0)
        (d.updPort p (fun x => { x with rrLeft := fresh }), pickLeft fresh)

/-- A list without the first element equal to `a`. -/
def eraseFirst {α : Type} [DecidableEq α] (a : α) : List α → List α
  | [] => []
  | b :: l => if b = a then l else b :: eraseFirst a l

/-- A cell leaves the device: of a datagram's slot the time is kept (R171, R195). -/
def Dev.leftDevice (d : Dev) (t : TxCell) : Dev :=
  match t.slot with
  | none => d
  | some (i, g) =>
    if Tbl.get d.rma.gens 0 i != g then d
    else { d with rma.slots := Tbl.upd i (fun s => if s.op = 5 then { s with lastTx := some d.ps } else s) d.rma.slots }

/-- Cell o leaves the queue of port p in a frame (R374, R513). -/
def Dev.takeOne (d : Dev) (p : Nat) (o : OutCell) (sh : Bool) : Dev :=
  let v := o.t.cell.vc
  let d := d.updPort p (fun x => { x with
    out := eraseFirst o x.out, again := eraseFirst o x.again, cellAt := d.ps,
    used := if sh then x.used else Tbl.put v ((x.usedOf v + 1) % 65536) x.used })
  let d := (d.ev 8 0 (some p)).leftDevice o.t
  if o.t.cls = 3 && o.t.own then d.ctlSent o.t.cell Status.OK else d

/-- The cells of a stomped frame that may go now, first, at most `n` (R362, R371). -/
def Dev.takeAgain (d : Dev) (p n : Nat) : List OutCell → Dev × List (OutCell × Bool)
  | [] => (d, [])
  | o :: l =>
    if n = 0 || !(d.portSt p).out.contains o || !d.carries p o.t.cell.vc then d.takeAgain p n l
    else match (d.portSt p).credit o.t.cell.vc with
      | none => d.takeAgain p n l
      | some sh => (((d.takeOne p o sh).takeAgain p (n - 1) l).1, (o, sh) :: ((d.takeOne p o sh).takeAgain p (n - 1) l).2)

/-- Up to `n` cells taken for a new frame in the order of R351, with their SHARED bits. -/
def Dev.takeNext (d : Dev) (p : Nat) : Nat → Dev × List (OutCell × Bool)
  | 0 => (d, [])
  | n + 1 =>
    let (d, c) := d.nextClass p
    match c with
    | none => (d, [])
    | some c =>
      match d.classReady p c with
      | none => (d, [])
      | some (o, sh) =>
        let d := (d.takeOne p o sh).updPort p (fun x => { x with
          rrLeft := if c = 3 then x.rrLeft else x.rrLeft.set c (x.rrLeft.getD c 0 - 1) })
        let (d, l) := d.takeNext p n
        (d, (o, sh) :: l)

/-- The cells of a new frame, at most 8. -/
def Dev.takeCells (d : Dev) (p : Nat) : Dev × List (OutCell × Bool) :=
  let (d, a) := d.takeAgain p 8 (d.portSt p).again
  let (d, l) := d.takeNext p (8 - a.length)
  (d, a ++ l)

/-- Cells and SHARED bits of a frame's cells. -/
def plain (l : List (OutCell × Bool)) : List (Cell × Bool) := l.map (fun e => (e.1.t.cell, e.2))

/-- The SHARED field (R358). -/
def sharedMask (l : List (Cell × Bool)) : Nat :=
  (l.zip (List.range 8)).foldl (fun m e => if e.1.2 then m + 2 ^ e.2 else m) 0

/-- A frame leaves: the NAK flag goes with it only (R365). -/
def Dev.putFrame (d : Dev) (p kind sub seq shared body len holds : Nat) (stomp : Bool) : Dev :=
  let d := d.toLanes p (d.frameOf p kind sub seq shared (d.portSt p).nakNext body len holds stomp)
  let d := d.updPort p (fun x => { x with nakNext := false, lastCtl := kind == 2 })
  (if kind = 0 then d.ev 8 3 (some p) else d).ev 8 2 (some p)

/-- A DATA frame with these cells leaves (R357, R359, R371). -/
def Dev.putData (d : Dev) (p seq : Nat) (cells : List (Cell × Bool)) (holds : Nat) (stomp : Bool) : Dev :=
  d.putFrame p 1 (cells.length - 1) seq (sharedMask cells) (cellsBits (cells.map Prod.fst)) (80 * cells.length) holds stomp

/-- The stamps of a TIME frame are taken as it leaves (R420): t1 of a REQ, t3 of a RESP, each an integer and a fraction. An
exchange that never ended gives way to the one that takes its ID again. -/
def Dev.stampTime (d : Dev) (p body : Nat) : Dev × Nat :=
  let t := d.ns16
  if body % 2 = 0 then
    (d.updPort p (fun x => { x with exch := x.exch.filter (fun e => e.1 != bitsOf body 8 8) ++ [(bitsOf body 8 8, t)] }),
     body + t / 2 ^ 16 * 2 ^ 64 + t % 2 ^ 16 * 2 ^ 256)
  else (d, body + t / 2 ^ 16 * 2 ^ 192 + t % 2 ^ 16 * 2 ^ 288)

/-- The ports besides p that stay in UP or DEGRADED: those whose own parking is not in progress (R525). -/
def Dev.stayUp (d : Dev) (p : Nat) : Nat :=
  (allPorts.filter (fun q => q != p && (d.lnk q == lsUp || d.lnk q == lsDegraded) &&
    (d.portSt q).parkReq.isNone && (d.portSt q).parkAgree.isNone)).length

/-- The conditions of R405, R382 and R525 for parking, without IDLE_US. -/
def Dev.mayPark (d : Dev) (p : Nat) : Bool :=
  let x := d.portSt p
  d.flag F.PRT_PARK_CFG_EN p && d.rd F.PRT_TRN_STAT_STATE p == 5 && d.lnk p == lsUp && x.replay.isEmpty && x.out.isEmpty &&
  x.ackAt.isNone && d.rd F.TIME_STAT_PARENT != p && d.rd F.PWR_POLICY_MIN_PORTS ≤ d.stayUp p

/-- Control frame `e` of a queue is a PARK frame with operation `op`. -/
def parkIs (op : Nat) (e : Nat × Nat) : Bool := e.1 == 5 && e.2 % 8 == op

/-- Whether the port may start a new DATA frame: not from a REQUEST or AGREE on, nor before the WAKE that withdraws one (R362,
R382, R406). -/
def Dev.mayData (d : Dev) (p : Nat) : Bool :=
  let x := d.portSt p
  (d.lnk p == lsUp || d.lnk p == lsDegraded) && x.replay.length < 512 && x.parkReq.isNone && x.parkAgree.isNone &&
  !x.ctl.any (parkIs 4)

/-- An IDLE frame. -/
def Dev.sendIdle (d : Dev) (p : Nat) : Dev := d.putFrame p 0 0 0 0 0 0 0 false

/-- Frame `r` of the replay buffer is sent again (R367). -/
def Dev.resend (d : Dev) (p : Nat) (r : RepFrame) : Dev :=
  (d.updPort p (fun x => { x with replaying := x.replaying - 1 })).putData p r.seq r.cells 0 false

/-- A new DATA frame is numbered, kept for replay and sent, with its HOLD words (R363, R371). -/
def Dev.sendData (d : Dev) (p : Nat) (cells : List (Cell × Bool)) (holds : Nat) : Dev :=
  let seq := d.txNext p
  let d := d.wr F.PRT_LNK_SEQ_TX_NEXT p ((seq + 1) % 2 ^ 24)
  let d := d.updPort p (fun x => { x with
    replay := x.replay ++ [⟨seq, cells, d.ps⟩], replayEnd := some (x.replayEnd.getD (d.replayStart p)) })
  d.putData p seq cells holds false

/-- Whether a replay is in progress; a MISCABLED port sends no cell (R324). -/
def Dev.replays (d : Dev) (p : Nat) : Bool := 0 < (d.portSt p).replaying && d.rtState p != rsMiscabled

/-- The next frame of the replay in progress. -/
def Port.nextReplay (x : Port) : Option RepFrame := x.replay[x.replay.length - x.replaying]?

/-- A replayed frame, a new DATA frame, or IDLE. -/
def Dev.sendOther (d : Dev) (p : Nat) : Dev :=
  if d.replays p then
    match (d.portSt p).nextReplay with
    | some r => d.resend p r
    | none => d.sendIdle p
  else if d.mayData p then
    if (d.takeCells p).2.isEmpty then (d.takeCells p).1.sendIdle p
    else (d.takeCells p).1.sendData p (plain (d.takeCells p).2) 0
  else d.sendIdle p

/-- A control frame of type `k` leaves. -/
def Dev.putCtl (d : Dev) (p k body : Nat) : Dev := d.putFrame p 2 k 0 0 (ctlBits (BitVec.ofNat 512 body)) 64 0 false

/-- The codewords that hold what was sent leave: IDLE frames follow until their group is full (R356, R392). -/
def Dev.flushUnits (d : Dev) (p : Nat) : Dev :=
  let k := (d.portSt p).units.length
  if k = 0 then d else (List.range ((79 * (d.txLanes p).length - k + 2) / 3)).foldl (fun d _ => d.sendIdle p) d

/-- Four DOWN frames in a row leave on the lanes (R379). -/
def Dev.sendDownFrames (d : Dev) (p reason : Nat) : Dev :=
  ((List.range 4).foldl (fun d _ => d.putCtl p 6 reason) d).flushUnits p

/-- A PARK frame: its 2 µs run from here. REFUSE goes in the place of an AGREE for which R382 no longer holds. -/
def Dev.sendPark (d : Dev) (p body : Nat) : Dev :=
  let op := body % 8
  let id := bitsOf body 8 8
  if op = 1 then (d.updPort p (fun x => { x with parkReq := some (id, d.ps) })).putCtl p 5 body
  else if op = 2 then
    if d.mayPark p then (d.updPort p (fun x => { x with parkAgree := some (id, d.ps) })).putCtl p 5 body
    else (d.updPort p (fun x => { x with parkAgree := none })).putCtl p 5 (body + 1)
  else d.putCtl p 5 body

/-- A queued REQUEST or AGREE that no longer stands: its request has ended or may no longer be made, its agreement was withdrawn. -/
def Dev.parkStale (d : Dev) (p : Nat) (e : Nat × Nat) : Bool :=
  let x := d.portSt p
  (parkIs 1 e && !(x.parkReq.any (fun r => r.1 == bitsOf e.2 8 8) && d.mayPark p)) ||
    (parkIs 2 e && !x.parkAgree.any (fun r => r.1 == bitsOf e.2 8 8))

/-- Such frames leave the head of the queue, and a request ends with its REQUEST. -/
def Dev.dropStale (d : Dev) (p : Nat) : Dev :=
  d.updPort p (fun x => { x with
    ctl := x.ctl.dropWhile (d.parkStale p),
    parkReq := if x.parkReq.any (fun r => (x.ctl.takeWhile (d.parkStale p)).any (fun e => parkIs 1 e && bitsOf e.2 8 8 == r.1))
      then none else x.parkReq })

/-- A control frame of type `k` leaves; a TIME frame takes its stamp (R362, R420). -/
def Dev.sendCtl (d : Dev) (p k body : Nat) : Dev :=
  let d := d.updPort p (fun x => { x with ctl := x.ctl.tail })
  if k = 4 then (d.stampTime p body).1.putCtl p k (d.stampTime p body).2
  else if k = 5 then d.sendPark p body
  else d.putCtl p k body

/-- Whether a replay or a DATA frame waits (R362). -/
def Dev.frameWaits (d : Dev) (p : Nat) : Bool := d.replays p || (d.mayData p && (d.nextClass p).2.isSome)

/-- A PARK frame is queued (R380): 1 REQUEST, 2 AGREE, 3 REFUSE, 4 WAKE. -/
def Dev.queuePark (d : Dev) (p op id : Nat) : Dev := d.ctlFrame p 5 (op + id % 256 * 2 ^ 8)

/-- The requester withdraws its request, by WAKE where its REQUEST has left. -/
def Dev.parkWithdraw (d : Dev) (p : Nat) : Dev :=
  match (d.portSt p).parkReq with
  | some (id, _) =>
    let mine := fun (e : Nat × Nat) => parkIs 1 e && bitsOf e.2 8 8 == id
    let d' := d.updPort p (fun x => { x with parkReq := none, ctl := x.ctl.filter (fun e => !mine e) })
    if (d.portSt p).ctl.any mine then d' else d'.queuePark p 4 id
  | none => d

/-- A requester that has gained work withdraws (R406). -/
def Dev.parkWork (d : Dev) (p : Nat) : Dev := if (d.portSt p).out.isEmpty then d else d.parkWithdraw p

/-- The frame of a frame boundary (R362): no two control frames in a row while other frames wait. -/
def Dev.sendFrame (d : Dev) (p : Nat) : Dev :=
  let d := (d.parkWork p).dropStale p
  match (d.portSt p).ctl with
  | (k, body) :: _ => if (d.portSt p).lastCtl && d.frameWaits p then d.sendOther p else d.sendCtl p k body
  | [] => d.sendOther p

end Sys2Proof.Machine
end

