-- ==== Sys2Proof/Machine/Links.lean ====
section
/-! DEFINITION. What each command of chapters 08 to 10 does to the device: forwarding, Belay's timers and control frames,
and the time gates of R352 to R355. Commands that come before their cause act on nothing (00_scope, State machines). -/

namespace Sys2Proof.Machine

/-! ### Forwarding (R304, R306, R317, R318) -/

/-- The cell waits for a port that was woken for it and is not yet UP, nor DOWN (R305, R388). -/
def Dev.waitsWake (d : Dev) (c : InCell) : Bool :=
  match c.hold with
  | some h => d.rtState h.port != rsUp && d.rtState h.port != rsDown
  | none => false

/-- The oldest cell of VC v in port p's input buffer that waits for no port's wake: a held cell holds back no other (R320). -/
def Dev.inCell (d : Dev) (p v : Nat) : Option InCell := (d.portSt p).inb.find? (fun c => c.cell.vc == v && !d.waitsWake c)

/-- A cell leaves the input buffer: its credit returns, and a port that waits in DOWN may enter LOCK (R374, R383). -/
def Dev.leaveIn (d : Dev) (p : Nat) (c : InCell) : Dev :=
  let d := d.updPort p (fun x => { x with inb := eraseFirst c x.inb })
  let d := if c.shared then d else d.freedCredit p c.cell.vc
  (d.reXoff p).tryLock p

/-- A transit cell, seen as a cell to transmit. -/
def InCell.tx (c : InCell) : TxCell :=
  { cell := c.cell, fn := c.cell.dstFn, cls := c.cell.cls, retx := false, slot := none, own := false, col := none, last := false }

/-- What routing answered for transit cell c of port p: dropped without a route, or at the hop limit; sent on, or held while its
port wakes (R305, R306, R317). -/
def Dev.sendOn (d : Dev) (p : Nat) (c : InCell) (inp : Option Nat) (via : Nat) (r : RouteTo) : Dev :=
  if r = .none then (d.noRoute c.cell inp).leaveIn p c
  else if d.hopLimit ≤ c.cell.hops then (d.bump F.RTE_DROP_HOP).leaveIn p c
  else match r with
    | .port q s => (d.enqueue c.tx inp via q s c.since).leaveIn p c
    | .wake q s => (d.wantWake q).updPort p (fun x => { x with
        inb := x.inb.map (fun y => if y = c then { c with hold := some ⟨q, s, via⟩ } else y) })
    | .none => d

/-- A transit cell is forwarded: dropped in safe state, else routed; one that was held keeps its decision (R305, R315). -/
def Dev.forwardCell (d : Dev) (p : Nat) (c : InCell) (inp : Option Nat) : Dev :=
  if d.dark then d
  else if d.pwr.state = .safe && c.cell.cls != 3 then (d.bump F.RTE_DROP2_MISROUTE).leaveIn p c
  else match c.hold with
    | some h => d.sendOn p c inp (d.reroute c.cell inp h).1 (d.reroute c.cell inp h).2
    | none => (d.route c.cell inp).1.sendOn p c inp (d.route c.cell inp).2.1 (d.route c.cell inp).2.2

/-- CELL_FORWARD. -/
def Dev.forward (d : Dev) (p v : Nat) : Dev :=
  match d.inCell p v with
  | none => d
  | some c => d.forwardCell p c (some (d.rd F.RTE_PORT_CFG_KIND p))

/-- A cell whose residence can end at port p (R318): in its input buffer, in its output queue, or held for its wake. -/
inductive Stay where
  | inb (c : InCell)
  | out (c : OutCell)
  | held (h : HeldCell)
deriving DecidableEq, Repr

def Stay.since : Stay → Nat
  | .inb c => c.since
  | .out c => c.since
  | .held h => h.since

/-- The cells of VC v that stay at port p. -/
def Dev.stays (d : Dev) (p v : Nat) : List Stay :=
  ((d.portSt p).inb.filter (fun c => c.cell.vc == v)).map Stay.inb ++
    ((d.portSt p).out.filter (fun c => c.t.cell.vc == v)).map Stay.out ++
    (d.rte.held.filter (fun h => h.hold.port == p && h.t.cell.vc == v)).map Stay.held

/-- A cell of this device that ends without being sent: Basecamp is told of its own (R515). -/
def Dev.ownGone (d : Dev) (t : TxCell) : Dev := if t.own && t.cls = 3 then d.ctlSent t.cell Status.UNREACHABLE else d

/-- The cell is discarded. -/
def Dev.endStay (d : Dev) (p : Nat) (s : Stay) : Dev :=
  let d := (d.advanceTo (s.since + d.residence)).bump F.RTE_DROP_RESIDENCE
  match s with
  | .inb c => d.leaveIn p c
  | .out c => (d.updPort p (fun x => { x with out := eraseFirst c x.out, again := eraseFirst c x.again })).ownGone c.t
  | .held h => ({ d with rte.held := eraseFirst h d.rte.held }).ownGone h.t

/-- The longest stay of a list. -/
def longest (l : List Stay) : Option Stay :=
  l.foldl (fun b s => match b with
    | none => some s
    | some x => if s.since < x.since then some s else some x) none

/-- CELL_RESIDENCE_EXPIRE: the cell of VC v that has stayed longest at port p. -/
def Dev.residenceExpire (d : Dev) (p v : Nat) : Dev :=
  match longest (d.stays p v) with
  | none => d
  | some s => d.endStay p s

/-- PORT_REDISCOVER (R325). -/
def Dev.rediscover (d : Dev) (p : Nat) : Dev :=
  let st := d.rtState p
  if st = rsDown || d.dark then d
  else if st = rsParked then d.updPort p (fun x => { x with wakeWant := true, rediscover := true })
  else d.discover p

/-- RTE_SEED_WRITE (R314): 0 acts as 1. -/
def Dev.seedWrite (d : Dev) (v : Word) : Dev :=
  { d.setReg R.RTE_SEED 0 v with rte.lfsr := if v = 0 then 1 else v }

/-! ### Belay timers -/

def Dev.ackTimerEnd (d : Dev) (p : Nat) : Dev :=
  match (d.portSt p).ackAt with
  | some t => if d.dark then d else (d.advanceTo (t + nsPs (d.ackTimer p))).ackEvent p
  | none => d

def Dev.replayTimeout (d : Dev) (p : Nat) : Dev :=
  match (d.portSt p).replayEnd with
  | some t =>
    if d.dark || (d.portSt p).replay.isEmpty then d
    else
      (((d.advanceTo (d.replayDue p t)).bump F.PRT_LNK_ERRCNT_REPLAY p).linkError p).startReplay p
  | none => d

def Dev.frameLifeEnd (d : Dev) (p : Nat) : Dev :=
  match (d.portSt p).replay with
  | r :: _ => if d.dark then d else (d.advanceTo (r.firstTx + usPs (d.frameLife p))).linkDown p 3
  | [] => d

/-- The states in which a port sends CREDIT and carries cells. -/
def Dev.running (d : Dev) (p : Nat) : Bool := !d.dark && (d.lnk p == lsUp || d.lnk p == lsDegraded)

def Dev.creditTimer (d : Dev) (p : Nat) : Dev :=
  if !d.running p then d
  else
    let x := d.portSt p
    let full := x.creditAt + usPs 1
    let due := match x.freedAt with
      | some t => if 8 ≤ x.freed then d.ps else min full (t + nsPs (clampTo 10 1000 (d.rd F.PRT_LNK_CFG_CREDIT_NS p)))
      | none => full
    (d.advanceTo due).sendCredit p

def Dev.initRepeat (d : Dev) (p : Nat) : Dev :=
  if d.lnk p != lsInit || d.dark then d
  else
    let d := d.advanceTo ((d.portSt p).discAt + usPs 1)
    (d.sendInit p).updPort p (fun x => { x with discAt := d.ps })

def Dev.discoverRepeat (d : Dev) (p : Nat) : Dev :=
  if d.rtState p = rsDown || d.lnk p = lsParked || d.dark then d
  else (d.advanceTo ((d.portSt p).discAt + usPs 100)).sendDiscover p

/-- A state of Belay that lasts too long ends in DOWN (R383). -/
def Dev.stateTimeout (d : Dev) (p st limit reason : Nat) : Dev :=
  if d.lnk p != st || d.dark then d else (d.advanceTo ((d.portSt p).since + limit)).linkDown p reason

def Dev.framingLoss (d : Dev) (p : Nat) : Dev :=
  if d.lnk p = lsInit || d.running p then (d.advanceTo ((d.portSt p).lastGood + usPs 1)).linkDown p 4 else d

def Dev.errDecay (d : Dev) (p : Nat) : Dev :=
  if d.dark then d
  else
    let d := d.advanceTo ((d.portSt p).decayAt + usPs (max 1 (d.rd F.PRT_LNK_ERR_ERR_DECAY_US p)))
    let d := d.wr F.PRT_LNK_STATE_LEVEL p (d.rd F.PRT_LNK_STATE_LEVEL p - 1)
    let d := d.updPort p (fun x => { x with decayAt := d.ps })
    if d.lnk p = lsDegraded && !d.flag F.PRT_LNK_ERR_RETRAIN_EN p && d.rd F.PRT_LNK_STATE_LEVEL p = 0 then
      ((d.setLnk p lsUp).fault 15).sendCredit p
    else d

/-- R378. -/
def Dev.creditAudit (d : Dev) (p : Nat) : Dev :=
  if d.lnk p = lsDown || d.lnk p = lsLock || d.lnk p = lsInit || d.dark then d
  else
    let x := d.portSt p
    let bad := (List.range 16).any (fun v =>
      x.dedHeld v + (x.limOut v + 65536 - x.gotOf v) % 65536 != dedCells ||
      x.peerDed < (x.limIn v + 65536 - x.usedOf v) % 65536)
    if bad || poolCells < x.poolHeld then d.fault 9 else d

/-- LINK_DOWN_CMD (R387). -/
def Dev.linkDownCmd (d : Dev) (p : Nat) : Dev :=
  if d.lnk p = lsDown || d.dark then d else (d.sendDownFrames p 1).linkDown p 1

/-! ### Cut-through (R370 to R372) -/

/-- Lanes of a map. -/
def laneCount (m : Nat) : Nat := ((List.range 4).filter (fun l => m / 2 ^ l % 2 == 1)).length
/-- Rates of a port's two directions, in 212.5 Gb/s lanes (R390). -/
def Dev.rateIn (d : Dev) (p : Nat) : Nat :=
  (if d.flag F.PRT_TRN_STAT_MODE_425 p then 2 else 1) * laneCount (d.rd F.PRT_TRN_STAT_RX_MAP p)
def Dev.rateOut (d : Dev) (p : Nat) : Nat :=
  (if d.flag F.PRT_TRN_STAT_MODE_425 p then 2 else 1) * laneCount (d.rd F.PRT_TRN_STAT_TX_MAP p)

/-- The cells of a frame that its port forwards before the verdict where their outputs admit it: those that `early` names, of a
frame in sequence, in transit with a good header. -/
def Dev.earlyCells (d : Dev) (p : Nat) (fr : DataFrame) : List Cell :=
  if d.dark || !fr.hdr.framed || fr.seq != d.nextRx p || !d.flag F.PRT_LNK_CFG_CUT_THROUGH_EN p || !(d.lnk p == lsUp || d.lnk p == lsDegraded) then []
  else (fr.cells.mapIdx (fun i c => (i, c))).filterMap (fun (e : Nat × Cell) =>
    if fr.early.getLsbD e.1 && e.2.hchkOk && (d.arrive p e.2).isNone then some e.2 else none)

/-- A conditional cell joins the queue of the output that routing gives, where its rate does not exceed the input's. -/
def Dev.condCell (d : Dev) (p : Nat) (c : Cell) : Dev :=
  let inp := some (d.rd F.RTE_PORT_CFG_KIND p)
  let (e, via, r) := d.route c inp
  match r with
  | .port q s =>
    if d.rateOut q ≤ d.rateIn p && c.hops < d.hopLimit then
      (e.enqueue (InCell.tx ⟨c, false, d.ps, none⟩) inp via q s d.ps).updPort q (fun x => { x with
        out := x.out.dropLast ++ (x.out.getLast?.toList.map (fun o => { o with cond := true })) })
    else d
  | _ => d

/-- The next frame of port q is a new DATA frame where it has cells (R362). -/
def Dev.dataTurn (d : Dev) (q : Nat) : Bool :=
  d.mayData q && !d.replays q && ((d.portSt q).ctl.isEmpty || (d.portSt q).lastCtl)

/-- Output q's frame with conditional cells whose verdict is bad: stomped, not kept, its other cells kept for the next frame, and
no credit taken (R371). -/
def Dev.stompOut (d : Dev) (q : Nat) : Dev :=
  let l := (d.takeCells q).2
  let rest := (l.map Prod.fst).filter (fun o => !o.cond)
  let d := if d.dataTurn q && l.any (fun e => e.1.cond) then
      let (h, d) := d.pick 97
      (d.putData q (d.txNext q) (plain l) h true).updPort q (fun x => { x with
        again := x.again ++ rest.filter (fun o => !x.again.contains o) })
    else d
  d.updPort q (fun x => { x with out := x.out.filter (fun o => !o.cond) })

/-- A frame that ends bad: the outputs of its conditional cells are stomped (R371, R372). -/
def Dev.cutBad (d : Dev) (p : Nat) (l : List Cell) : Dev :=
  let d := l.foldl (fun d c => d.condCell p c) d
  allPorts.foldl (fun d q => if (d.portSt q).out.any OutCell.cond then d.stompOut q else d) d

/-- Output q's frame ends good, with the HOLD words that passed before the verdict, where it holds conditional cells: those
beyond the first `n` of its queue (R371). -/
def Dev.heldFrame (d : Dev) (q n : Nat) : Dev :=
  if !d.dataTurn q then d
  else
    let (e, l) := d.takeCells q
    if !l.any (fun o => ((d.portSt q).out.drop n).contains o.1) then d
    else
      let (h, e) := e.pick 97
      e.sendData q (plain l) h

/-- A frame that ends good: its conditional cells go on as accepted ones. -/
def Dev.cutGood (d : Dev) (p : Nat) (l : List Cell) : Dev :=
  let n := allPorts.map (fun q => (q, (d.portSt q).out.length))
  let inp := some (d.rd F.RTE_PORT_CFG_KIND p)
  let d := l.foldl (fun d c => match (d.portSt p).inb.find? (fun x => x.cell == c) with
    | some x => match (d.route c inp).2.2 with
      | .port q _ => if d.rateOut q ≤ d.rateIn p then d.forwardCell p x inp else d
      | _ => d
    | none => d) d
  n.foldl (fun d e => if e.2 < (d.portSt e.1).out.length then d.heldFrame e.1 e.2 else d) d

/-- BELAY_DATA_RX: the frame, and what its port forwarded before its verdict (R364, R370), which CONDITIONAL counts at this port
(R561). -/
def Dev.dataRx (d : Dev) (p : Nat) (fr : DataFrame) : Dev :=
  let l := d.earlyCells p fr
  let e := d.dataIn p fr
  if l.isEmpty then e
  else
    let e := e.ev 8 4 (some p) none l.length
    if fr.verdict = .good then e.cutGood p l else e.cutBad p l

/-! ### Control frames (R379 to R384) -/

/-- Word Ck of a control body (R380). -/
def ctlWord (b : BitVec 512) (k : Nat) : Nat := bitsOf b.toNat (64 * k) 64

/-- A valid INIT tells the peer's advertisement and identity (R383, R384). -/
def Dev.peerInit (d : Dev) (p : Nat) (fr : CtlFrame) : Dev :=
  let c0 := ctlWord fr.body 0
  let d := d.updPort p (fun x => { x with
    seen := true, peerSeen := x.peerSeen || bitsOf c0 8 1 == 1, peerDed := bitsOf c0 16 8,
    peerPool := bitsOf c0 24 16, initId := ctlWord fr.body 1 })
  d.tryUp p

/-- What every control frame does by its header, and whether its body is to be used. -/
def Dev.ctlIn_ (d : Dev) (p : Nat) (fr : CtlFrame) : Dev × Bool := d.frameIn p fr.hdr fr.verdict

def Dev.initIn (d : Dev) (p : Nat) (fr : CtlFrame) : Dev :=
  if !(d.ctlIn_ p fr).2 || (d.ctlIn_ p fr).1.lnk p != lsInit then (d.ctlIn_ p fr).1
  else if bitsOf (ctlWord fr.body 0) 0 8 != 1 || bitsOf (ctlWord fr.body 0) 16 8 = 0 then (d.ctlIn_ p fr).1.linkDown p 8
  else (d.ctlIn_ p fr).1.peerInit p fr

/-- The peer's LIMIT values are taken (R374). -/
def Dev.takeLimits (d : Dev) (p : Nat) (fr : CtlFrame) : Dev :=
  d.updPort p (fun x => { x with
    limitIn := (List.range 16).foldl (fun t v => Tbl.put v (bitsOf fr.body.toNat (16 * v) 16) t) x.limitIn })

def Dev.creditIn (d : Dev) (p : Nat) (fr : CtlFrame) : Dev :=
  if !(d.ctlIn_ p fr).2 || !(d.ctlIn_ p fr).1.running p then (d.ctlIn_ p fr).1
  else (d.ctlIn_ p fr).1.takeLimits p fr

def Dev.discoverIn (d : Dev) (p : Nat) (fr : CtlFrame) : Dev :=
  if (d.ctlIn_ p fr).2 && (d.ctlIn_ p fr).1.running p then (d.ctlIn_ p fr).1.identityIn p (ctlWord fr.body 0)
  else (d.ctlIn_ p fr).1

def Dev.controlReserved (d : Dev) (p : Nat) (fr : CtlFrame) : Dev :=
  if (d.ctlIn_ p fr).2 then (d.ctlIn_ p fr).1.bump F.PRT_LNK_DROP_CTRL_UNKNOWN p else (d.ctlIn_ p fr).1

def Dev.downIn (d : Dev) (p : Nat) (fr : CtlFrame) : Dev :=
  if (d.ctlIn_ p fr).2 then (d.ctlIn_ p fr).1.linkDown p 5 else (d.ctlIn_ p fr).1

/-- What a TIME frame tells of the neighbour (R421). -/
def Dev.noteNbr (d : Dev) (src c0 : Nat) : Dev :=
  { d with time.nbr := Tbl.put src (bitsOf c0 16 1 == 1, bitsOf c0 24 8) d.time.nbr }

/-- The RESP to a TIME REQ is queued. -/
def Dev.answerTime (d : Dev) (p : Nat) (fr : CtlFrame) : Dev :=
  let c0 := ctlWord fr.body 0
  let d := d.noteNbr p c0
  let head := 1 + bitsOf c0 8 8 * 2 ^ 8 + d.rd F.TIME_STAT_LOCKED * 2 ^ 16 + d.rd F.TIME_STAT_GM_DIST * 2 ^ 24
  let t2 := d.ns16
  d.ctlFrame p 4 (head + ctlWord fr.body 1 * 2 ^ 64 + t2 / 2 ^ 16 * 2 ^ 128 +
    bitsOf fr.body.toNat 256 16 * 2 ^ 256 + t2 % 2 ^ 16 * 2 ^ 272)

/-- TIME REQ answered with a RESP that echoes ID and t1 and adds t2 (R381). -/
def Dev.timeReqIn (d : Dev) (p : Nat) (fr : CtlFrame) : Dev :=
  if (d.ctlIn_ p fr).2 then (d.ctlIn_ p fr).1.answerTime p fr else (d.ctlIn_ p fr).1

/-! ### Time gates (R352 to R355) -/

def Dev.gateSt (d : Dev) (p : Nat) : Gate := Tbl.get d.sch.gates {} p

/-- The gate's state and what SCH_GATE_CTL and SCH_GATE_ABASE show of it. -/
def Dev.setGate (d : Dev) (p : Nat) (g : Gate) : Dev :=
  let d := { d with sch.gates := Tbl.set {} p g d.sch.gates }
  let d := (d.wr F.SCH_GATE_CTL_ARMED p (if g.armed.isSome then 1 else 0)).wr F.SCH_GATE_CTL_ACTIVE p
    (if g.active.isSome then 1 else 0)
  match g.active with
  | some (k, n, b) =>
    let d := (d.wr F.SCH_GATE_CTL_ACTIVE_BANK p k).wr F.SCH_GATE_CTL_ACT_LEN p n
    (d.wr F.SCH_GATE_CTL_POSITION p (d.gateEntry p k n b d.ns)).setReg R.SCH_GATE_ABASE p (BitVec.ofNat 64 b)
  | none => (d.wr F.SCH_GATE_CTL_ACT_LEN p 0).wr F.SCH_GATE_CTL_POSITION p 0

/-- GATE_ARM (R354). -/
def Dev.gateArm (d : Dev) (p : Nat) : Dev :=
  let g := d.gateSt p
  let k := 1 - d.rd F.SCH_GATE_CTL_ACTIVE_BANK p
  let n := clampTo 1 64 (d.rd F.SCH_GATE_CTL_PEND_LEN p)
  let b := (d.reg R.SCH_GATE_PBASE p).toNat
  let opens := fun c => (List.range n).any (fun i => getBits (d.reg R.SCH_GATE_ENT (p * 128 + k * 64 + i)) (24 + c) 1 == 1)
  let late := b < d.ns + 1000
  let never := !(opens 0 && opens 1 && opens 2)
  if g.armed.isSome then d
  else if late || never then
    let d := if late then d.wr F.SCH_GATE_CTL_LATE p 1 else d
    if never then d.wr F.SCH_GATE_CTL_INVALID p 1 else d
  else d.setGate p { g with armed := some (k, n, b) }

def Dev.gateDisarm (d : Dev) (p : Nat) : Dev := d.setGate p { d.gateSt p with armed := none }

def Dev.gateDisable (d : Dev) (p : Nat) : Dev := (d.wr F.SCH_GATE_CTL_EN p 0).setGate p {}

/-- GATE_BANK_ACTIVATE: fabric time reaches the base. -/
def Dev.gateActivate (d : Dev) (p : Nat) : Dev :=
  match (d.gateSt p).armed with
  | some (k, n, b) => (d.advanceToNs b).setGate p { active := some (k, n, b), armed := none }
  | none => d

/-- GATE_ENTRY_ADVANCE: the clock passes to the end of the entry in force. -/
def Dev.gateAdvance (d : Dev) (p : Nat) : Dev :=
  match (d.gateSt p).active with
  | some (k, n, b) =>
    let dur := fun i => max 16 (d.rd F.SCH_GATE_ENT_DURATION (p * 128 + k * 64 + i))
    let cycle := (List.range n).foldl (fun s i => s + dur i) 0
    let e := d.gateEntry p k n b d.ns
    let start := (List.range e).foldl (fun s i => s + dur i) 0
    let stop := d.ns - (d.ns - b) % max 1 cycle + start + dur e
    (d.advanceToNs stop).setGate p (d.gateSt p)
  | none => d

/-- After a jump of fabric time an armed list whose base has passed is active at once (R355). -/
def Dev.gatesJump (d : Dev) : Dev :=
  d.sch.gates.foldl (fun d e =>
    match e.2.armed with
    | some (k, n, b) => if b ≤ d.ns then d.setGate e.1 { active := some (k, n, b), armed := none } else d.setGate e.1 e.2
    | none => d.setGate e.1 e.2) d

/-! ### Buckets (R348 to R350) -/

def Dev.tokensOf (d : Dev) (f : Nat) : Int := Tbl.get d.sch.tokens 0 f
def Dev.burst (d : Dev) (f : Nat) : Nat := max 1 (d.rdF F.SCH_FN_SHAPER_BURST f) * 256

/-- SHAPER_ENABLE: the bucket is set full. A change of BURST that waits for the next refill does not act yet (R348). -/
def Dev.shaperEnable (d : Dev) (f : Nat) : Dev :=
  let d := d.wr F.SCH_FN_CFG_SHAPE_EN f 1
  { d with sch.tokens := Tbl.put f (d.burst f : Int) d.sch.tokens }

def Dev.meterEnable (d : Dev) (f : Nat) : Dev :=
  let d := d.wr F.SCH_FN_CFG_METER_EN f 1
  { d with sch.tc := Tbl.put f (max 1 (d.rdF F.SCH_FN_METER_CBS f) * 256) d.sch.tc,
           sch.tp := Tbl.put f (max 1 (d.rdF F.SCH_FN_METER_PBS f) * 256) d.sch.tp }

def Dev.udpEnable (d : Dev) (q : Nat) : Dev :=
  let d := d.wr F.SCH_UDP_EN q 1
  { d with sch.udp := Tbl.put q (max 1 (d.rdF F.SCH_UDP_BURST q) * 256) d.sch.udp }

/-- One bucket's refill. -/
def refill (level rate cap : Nat) : Nat := min (level + rate) cap

/-- A function whose shaper is configured has a bucket. -/
def Dev.newBuckets (d : Dev) : Dev :=
  (d.listed R.SCH_FN_SHAPER).foldl (fun d e =>
    if Tbl.has d.sch.tokens e.1 then d else { d with sch.tokens := Tbl.put e.1 0 d.sch.tokens }) d

/-- Every shaper's bucket takes its rate (R348). -/
def Dev.refillShapers (d : Dev) : Dev :=
  d.sch.tokens.foldl (fun d e =>
    let v := min (e.2 + ((d.rdF F.SCH_FN_SHAPER_RATE e.1 : Nat) : Int)) ((d.burst e.1 : Nat) : Int)
    { d with sch.tokens := Tbl.put e.1 v d.sch.tokens }) d

/-- Every meter's two buckets take CIR, and the larger of CIR and PIR (R349). -/
def Dev.refillMeters (d : Dev) : Dev :=
  d.sch.tp.foldl (fun d e =>
    let f := e.1
    let cir := d.rdF F.SCH_FN_METER_CIR f
    let tc := refill (Tbl.get d.sch.tc 0 f) cir (max 1 (d.rdF F.SCH_FN_METER_CBS f) * 256)
    let tp := refill e.2 (max cir (d.rdF F.SCH_FN_METER_PIR f)) (max 1 (d.rdF F.SCH_FN_METER_PBS f) * 256)
    { d with sch.tc := Tbl.put f tc d.sch.tc, sch.tp := Tbl.put f tp d.sch.tp }) d

/-- Every policer's bucket takes its rate (R350). -/
def Dev.refillUdp (d : Dev) : Dev :=
  d.sch.udp.foldl (fun d e =>
    { d with sch.udp := Tbl.put e.1 (refill e.2 (d.rdF F.SCH_UDP_RATE e.1) (max 1 (d.rdF F.SCH_UDP_BURST e.1) * 256)) d.sch.udp }) d

/-- Boundary fields of the schedulers come into force. -/
def Dev.schLatch (d : Dev) : Dev := ((d.latchAll R.SCH_FN_SHAPER).latchAll R.SCH_FN_METER).latchAll R.SCH_UDP

/-- SCH_REFILL: the next 64 ns boundary of fabric time. Boundary fields come into force with it. -/
def Dev.schRefill (d : Dev) : Dev :=
  (d.advanceToNs ((d.ns / 64 + 1) * 64)).schLatch.newBuckets.refillShapers.refillMeters.refillUdp

end Sys2Proof.Machine
end

