-- ==== Sys2Proof/Machine/Lanes.lean ====
section
/-! DEFINITION. Lanes, training, parking and modules (R390 to R411): what each command does to the device. -/

namespace Sys2Proof.Machine

/-- PRT_LANE_STAT instance of lane l of port p. -/
def laneIx (p l : Nat) : Nat := p * 4 + l
def Dev.laneFault (d : Dev) (p l : Nat) : Nat := d.rd F.PRT_LANE_STAT_FAULT (laneIx p l)
def Dev.setLaneFault (d : Dev) (p l v : Nat) : Dev := d.wr F.PRT_LANE_STAT_FAULT (laneIx p l) v
def Port.lane (x : Port) (l : Nat) : LaneSt := Tbl.get x.lanes {} l
def Dev.updLane (d : Dev) (p l : Nat) (g : LaneSt → LaneSt) : Dev :=
  d.updPort p (fun x => { x with lanes := Tbl.set {} l (g (x.lane l)) x.lanes })

/-- Lane l's receiver is marked: a wire test of its own, NO_SIGNAL, NO_LOCK, SER_HIGH or CAL_FAIL (R398, R401). FAULT shows the
transmitter's mark where its receiver has none (DESIGN CHOICE, log entry 36). -/
def Dev.rxBad (d : Dev) (p l : Nat) : Bool := ((d.portSt p).lane l).rxMark || 3 ≤ d.laneFault p l
/-- A receiver that has no mark is marked. -/
def Dev.markRx (d : Dev) (p l v : Nat) : Dev := if d.rxBad p l then d else d.setLaneFault p l v

/-- The four lanes. -/
def lanes4 : List Nat := [0, 1, 2, 3]

/-- The lanes' marks are cleared; SER_HIGH makes its lane unusable in the next training and stays until the port is OFF (R401,
R404, log entry 35). -/
def Dev.clearLanes (d : Dev) (p : Nat) (ser : Bool) : Dev :=
  lanes4.foldl (fun d l =>
    (if ser || d.laneFault p l != 5 then d.setLaneFault p l 0 else d).wr F.PRT_LANE_STAT_ACTIVE (laneIx p l) 0) d

/-- Entry to DETECT: a training starts (R396). -/
def Dev.enterDetect (d : Dev) (p : Nat) : Dev :=
  let d := d.setTrn p tsDetect
  let d := d.wr F.PRT_TRN_STAT_TRAIN_COUNT p ((d.rd F.PRT_TRN_STAT_TRAIN_COUNT p + 1) % 65536)
  let d := ((d.wr F.PRT_TRN_STAT_FAIL_REASON p 0).wr F.PRT_TRN_STAT_TX_MAP p 0).wr F.PRT_TRN_STAT_RX_MAP p 0
  (d.clearLanes p false).updPort p (fun x => { x with
    stage := 0, modeSet := false, doneSeen := false, doneSent := 0, trained := false, txIdle := false,
    parkReq := none, parkAgree := none, waking := false,
    lanes := x.lanes.map (fun e => (e.1, { hasCal := e.2.hasCal, pre := 0, post := 0, hits := 0 })) })

/-- Entry to FAILED (R396). -/
def Dev.trainFail (d : Dev) (p reason : Nat) : Dev := ((d.setTrn p tsFailed).wr F.PRT_TRN_STAT_FAIL_REASON p reason).fault 17

/-- The module allows training. -/
def Dev.moduleOk (d : Dev) (p : Nat) : Bool := d.flag F.PRT_MOD_STAT_READY p || d.flag F.PRT_LANE_CFG_NO_MODULE p

/-- OFF to DETECT where EN is 1 and the module allows. -/
def Dev.tryTrain (d : Dev) (p : Nat) : Dev :=
  if d.trn p = tsOff && d.flag F.PRT_LANE_CFG_EN p && d.moduleOk p && !d.dark then d.enterDetect p else d

/-- Entry to OFF: nothing that training reported stands (R396). -/
def Dev.laneOff (d : Dev) (p : Nat) : Dev :=
  ((d.setTrn p tsOff).updPort p (fun x => { x with trained := false })).clearLanes p true

/-! ### The modules' management (R409, R410). The CMIS pages that firmware uses are PRESUMED from CMIS 5.0, log entry 36. -/

def Dev.modSt (d : Dev) (p : Nat) : ModSt := Tbl.get d.bcp.mods {} p
def Dev.setMod (d : Dev) (p : Nat) (x : ModSt) : Dev := { d with bcp.mods := Tbl.set {} p x d.bcp.mods }

/-- An output pin of port p's module: level `b` (R409). -/
def Dev.modPin (d : Dev) (name : String) (p : Nat) (b : Bool) : Dev := d.emit (.pin name (2 * p + if b then 1 else 0))
/-- A transaction with port p's module, which MOD_SEL_N selects for it (R409). -/
def Dev.modXfer (d : Dev) (p : Nat) (write : Bool) (bank page off len data : Nat) : Dev :=
  ((d.modPin "MOD_SEL_N" p false).emit (.modBus (p / 4) p write bank page off len data)).modPin "MOD_SEL_N" p true
/-- Firmware writes one byte of a page of bank 0. -/
def Dev.modWrite (d : Dev) (p page off v : Nat) : Dev :=
  { d.modXfer p true 0 page off 1 v with bcp.cmis := Tbl.put (p * 2 ^ 24 + page * 2 ^ 8 + off) v d.bcp.cmis }

/-- Firmware takes a module out of low power and its data path down and up again for the Application of the port's mode, on all
four host lanes; which of the module's Applications that is, the module says (R410). -/
def Dev.modStart (d : Dev) (p : Nat) : Dev :=
  if !d.flag F.PRT_MOD_STAT_PRESENT p then d
  else
    let d := (d.wr F.PRT_MOD_STAT_READY p 0).setMod p { low := false, app := some (d.rd F.PRT_LANE_CFG_MODE p), path := 1 }
    let d := ((d.modPin "MOD_RST_N" p true).modPin "MOD_LPMODE" p false).modWrite p 0x10 128 0x0F
    let (n, d) := d.pick 15
    let d := [145, 146, 147, 148].foldl (fun d o => d.modWrite p 0x10 o ((n + 1) * 16)) d
    (d.modWrite p 0x10 143 0x0F).modWrite p 0x10 128 0

/-- Firmware takes a module's data path down and puts it into low power (R411). -/
def Dev.modLow (d : Dev) (p : Nat) : Dev :=
  (((d.wr F.PRT_MOD_STAT_READY p 0).setMod p { (d.modSt p) with low := true, path := 3 }).modWrite p 0x10 128 0x0F).modPin
    "MOD_LPMODE" p true

/-- LANE_EN_SET. -/
def Dev.laneEnSet (d : Dev) (p : Nat) : Dev :=
  ((d.wr F.PRT_LANE_CFG_EN p 1).updPort p (fun x => { x with modAt := d.ps })).tryTrain p

/-- LANE_EN_CLEAR: to OFF, Belay down with reason COMMAND after DOWN frames. -/
def Dev.laneEnClear (d : Dev) (p : Nat) : Dev := ((d.wr F.PRT_LANE_CFG_EN p 0).linkDownCmd p).laneOff p

/-- A write of the other fields of PRT_LANE_CFG: in OFF a module is managed for the new mode, and training starts where it may. -/
def Dev.laneCfg (d : Dev) (p : Nat) (modeNew : Bool) : Dev :=
  if d.trn p != tsOff then d else (if modeNew then d.modStart p else d).tryTrain p

/-- LANE_RETRAIN. -/
def Dev.laneRetrain (d : Dev) (p : Nat) : Dev :=
  if d.trn p = tsOff || d.dark then d else (d.linkDownCmd p).enterDetect p

/-- A calibration's outcome on lane l: aborted with the old coefficients, failed, or done (R401, R402). -/
def Dev.calLane (d : Dev) (p l : Nat) (busy failed : Bool) : Dev :=
  let d := d.wr F.PRT_LANE_STAT_CAL_STATUS (laneIx p l) (if busy then Status.CAL_INPUT_BUSY else 0)
  if busy then d else if failed then d.markRx p l 6 else d.updLane p l (fun x => { x with hasCal := true })

/-- LANE_RECAL: always aborts in TRAINED; elsewhere by what the input carries (R402). -/
def Dev.laneRecal (d : Dev) (p : Nat) (cal : CalIn) : Dev :=
  if d.dark then d
  else lanes4.foldl (fun d l => d.calLane p l (d.trn p = tsTrained || !cal.quiet) (cal.failed.getLsbD l)) d

/-- TRAIN_DETECT_DONE (R398). -/
def Dev.detectDone (d : Dev) (p : Nat) (rxOpen rxShort txOpen txShort : BitVec 4) : Dev :=
  if d.trn p != tsDetect then d
  else
    let d := lanes4.foldl (fun d l =>
      let rx := if rxShort.getLsbD l then 2 else if rxOpen.getLsbD l then 1 else 0
      let tx := if txShort.getLsbD l then 2 else if txOpen.getLsbD l then 1 else 0
      (d.markRx p l (if rx = 0 then tx else rx)).updLane p l (fun x => { x with txFault := tx, rxMark := rx != 0 })) d
    d.setTrn p tsCal

/-- CAP of R397: the modes that the part supports and MODE allows; lane grade 2 parts have 212.5G only. -/
def Dev.capOf (d : Dev) (p : Nat) : Nat :=
  let m := d.rd F.PRT_LANE_CFG_MODE p
  if !d.flag F.GLB_ID_LANE_425 then 1 else if m = 0 then 1 else if m = 1 then 2 else 3

/-- Logical lanes that this end receives well, and those its transmitters offer. -/
def Dev.usable (d : Dev) (p : Nat) : Nat :=
  lanes4.foldl (fun m l =>
    let x := (d.portSt p).lane l
    if x.heard && !d.rxBad p l && x.ready then m ||| 2 ^ d.rd F.PRT_LANE_STAT_LOGICAL (laneIx p l) else m) 0

/-- A tap request to the peer: any while the receiver has not met its error target, hold once it has (R397, R400, log entry 35). -/
def Dev.tapAsk (d : Dev) (ready : Bool) : Nat × Dev := if ready then (0, d) else d.pick 3

/-- The training frames that the port's transmitters now send: those without a fault (R397, R398). -/
def Dev.sendTraining (d : Dev) (p : Nat) : Dev :=
  let d := lanes4.foldl (fun d l =>
    let x := (d.portSt p).lane l
    if x.txFault != 0 then d
    else
      let (pre, d) := d.tapAsk (x.ready || !(d.portSt p).modeSet)
      let (post, d) := d.tapAsk (x.ready || !(d.portSt p).modeSet)
      let c := trainCtl l (d.capOf p) (d.portSt p).stage (d.usable p) pre post x.ready (d.flag F.PRT_LANE_CFG_SPARE_EN p)
      d.emit (.train p l c (trainSymbols c))) d
  if (d.portSt p).stage = 2 then d.updPort p (fun x => { x with doneSent := x.doneSent + 1 }) else d

/-- Calibration has ended on every lane, and TRAIN begins with SLOW frames from the transmitters without a fault (R399, R402). -/
def Dev.calibrated (d : Dev) (p : Nat) (busy failed : BitVec 4) : Dev :=
  let d := lanes4.foldl (fun d l =>
    d.calLane p l (busy.getLsbD l) (failed.getLsbD l)) d
  ((d.setTrn p tsTrain).updPort p (fun x => { x with
    trainMs := clampTo 10 2047 (d.rd F.PRT_LANE_CFG_TRAIN_MS p), stage := 0 })).sendTraining p

/-- TRAIN_CAL_DONE: training enters TRAIN whatever the calibration came to (R402). -/
def Dev.calDone (d : Dev) (p : Nat) (busy failed : BitVec 4) : Dev :=
  if d.trn p != tsCal then d else d.calibrated p busy failed

/-- The receive direction's lanes and the transmit direction's, as R401 resolves them; none where it fails. -/
def Dev.resolve (d : Dev) (p : Nat) : Option (Nat × Nat) :=
  let x := d.portSt p
  let heard := lanes4.filter (fun l => (x.lane l).heard)
  match heard with
  | [] => none
  | h :: _ =>
    let peer := x.lane h
    let rx := d.usable p
    let tx := lanes4.foldl (fun m l => if (x.lane l).txFault = 0 && peer.usable / 2 ^ l % 2 = 1 then m + 2 ^ l else m) 0
    let spare := d.flag F.PRT_LANE_CFG_SPARE_EN p && peer.spareOk
    let n := fun (m : Nat) => (lanes4.filter (fun l => m / 2 ^ l % 2 == 1)).length
    let ok := fun (m : Nat) => n m = 4 || (n m = 3 && spare)
    if ok rx && ok tx then some (rx, tx) else none

/-- A tap request (R397): 1 increases, 2 decreases. -/
def tapStep (t : Int) (req : Nat) : Int := if req = 1 then t + 1 else if req = 2 then t - 1 else t

/-- What physical lane `l` hears in control field `c`, and its answer to the tap requests (R397 to R399). -/
def Dev.frameHeard (d : Dev) (p l : Nat) (inverted met : Bool) (c : Nat) : Dev :=
  let d := (d.wr F.PRT_LANE_STAT_LOGICAL (laneIx p l) (bitsOf c 0 2)).wr F.PRT_LANE_STAT_POL_INV (laneIx p l)
    (if inverted then 1 else 0)
  d.updLane p l (fun x => { x with
    heard := true, cap := bitsOf c 4 2, stage := bitsOf c 6 2, usable := bitsOf c 8 4, spareOk := bitsOf c 17 1 == 1,
    peerReady := bitsOf c 16 1 == 1, ready := met, pre := tapStep x.pre (bitsOf c 12 2), post := tapStep x.post (bitsOf c 14 2) })

/-- The mode is settled once control fields have been decoded; with no mode shared the end stays SLOW. For 425G it goes on at
the new rate with FINAL, where its receivers have yet to meet their target; DONE follows once they do (R400). -/
def Dev.settleMode (d : Dev) (p c : Nat) : Dev :=
  let both := d.capOf p &&& bitsOf c 4 2
  let d := if !(d.portSt p).modeSet && both != 0 then
      let d := (d.wr F.PRT_TRN_STAT_MODE_425 p (both / 2)).updPort p (fun x => { x with modeSet := true })
      if both / 2 = 1 then
        d.updPort p (fun x => { x with stage := 1, lanes := x.lanes.map (fun e => (e.1, { e.2 with ready := false })) })
      else d
    else d
  if (d.portSt p).modeSet && (d.portSt p).stage != 2 && (d.resolve p).isSome then d.updPort p (fun x => { x with stage := 2 }) else d

/-- TRAIN has ended: receivers that saw no energy, or whose clock never locked, are marked (R398). -/
def Dev.markUnheard (d : Dev) (p : Nat) (energy clock : BitVec 4) : Dev :=
  lanes4.foldl (fun d l =>
    if !energy.getLsbD l then d.markRx p l 3 else if !clock.getLsbD l then d.markRx p l 4 else d) d

/-- Entry to ALIGN with the lanes resolved: the FEC data path starts; three lanes in a direction are reported (R393, R401). -/
def Dev.enterAlign (d : Dev) (p rx tx : Nat) : Dev :=
  let d := ((d.setTrn p tsAlign).wr F.PRT_TRN_STAT_RX_MAP p rx).wr F.PRT_TRN_STAT_TX_MAP p tx
  let d := lanes4.foldl (fun d l =>
    let x := (d.portSt p).lane l
    d.wr F.PRT_LANE_STAT_ACTIVE (laneIx p l)
      (if x.heard && !d.rxBad p l && x.ready then rx / 2 ^ d.rd F.PRT_LANE_STAT_LOGICAL (laneIx p l) % 2 else 0)) d
  let d := d.startPath p
  if rx != 15 || tx != 15 then d.fault 18 else d

/-- DONE frames that an end sends before it starts its FEC data path (R400). -/
def doneFrames : Nat := 16

/-- The answer's frames, and ALIGN where both ends are DONE, once 16 DONE frames have left (R400, R401). -/
def Dev.trainDone (d : Dev) (p c : Nat) (rx : TrainRx) : Dev :=
  let d := (if bitsOf c 6 2 = 2 then d.updPort p (fun x => { x with doneSeen := true }) else d).sendTraining p
  match d.resolve p with
  | some e =>
    if (d.portSt p).stage = 2 && (d.portSt p).doneSeen then
      (((List.range (doneFrames - (d.portSt p).doneSent)).foldl (fun d _ => d.sendTraining p) d).markUnheard p rx.energy
        rx.clock).enterAlign p e.1 e.2
    else d
  | none => d

/-- TRAIN_FRAME_RX: a training frame on physical lane `l` (R397 to R401). -/
def Dev.trainFrame (d : Dev) (p l : Nat) (inverted : Bool) (rx : TrainRx) (ctl : BitVec 128) : Dev :=
  if d.trn p != tsTrain || !trainCrcOk ctl.toNat then d
  else ((d.frameHeard p l inverted rx.met ctl.toNat).settleMode p ctl.toNat).trainDone p ctl.toNat
    { rx with energy := rx.energy ||| 1#4 <<< l, clock := rx.clock ||| 1#4 <<< l }

/-- Training ends in FAILED: no common mode, no lane count that both admit, or no lane locked; `x` as the port stood (R396). -/
def Dev.trainOver (d : Dev) (p : Nat) (x : Port) : Dev :=
  let heard := lanes4.any (fun l => (x.lane l).heard)
  d.trainFail p (if heard && !x.modeSet then 2 else if heard && (d.resolve p).isNone then 1 else 3)

/-- TRAIN_TIMEOUT: receivers that saw no energy, or whose clock never locked, are marked (R396, R398, R400). -/
def Dev.trainTimeout (d : Dev) (p : Nat) (energy clock : BitVec 4) : Dev :=
  if d.trn p != tsTrain then d
  else
    ((d.advanceTo ((d.portSt p).trnAt + msPs (d.portSt p).trainMs)).markUnheard p energy clock).trainOver p (d.portSt p)

/-- TRAIN_ALIGN_DONE: TRAINED, and Belay is told (R383, R396). -/
def Dev.alignDone (d : Dev) (p : Nat) : Dev :=
  if d.trn p != tsAlign then d
  else (((d.setTrn p tsTrained).updPort p (fun x => { x with trained := true }))).tryLock p

def Dev.alignTimeout (d : Dev) (p : Nat) : Dev :=
  if d.trn p != tsAlign then d else (d.advanceTo ((d.portSt p).trnAt + msPs 1)).trainFail p 4

/-- TRAIN_RETRY (R396, R410). -/
def Dev.trainRetry (d : Dev) (p : Nat) : Dev :=
  if d.trn p != tsFailed || !d.flag F.PRT_LANE_CFG_AUTO_RETRY p then d
  else
    let d := d.advanceTo ((d.portSt p).trnAt + msPs (max 1 (d.rd F.PRT_LANE_CFG_RETRY_MS p)))
    if d.rd F.PRT_TRN_STAT_FAIL_REASON p = 5 then
      (((d.setTrn p tsOff).updPort p (fun x => { x with modAt := d.ps })).modStart p).tryTrain p
    else d.enterDetect p

/-- LANE_LOSS: active lanes lose signal (0), clock lock (1) or alignment (2) (R396, R401). -/
def Dev.laneLoss (d : Dev) (p : Nat) (ls : BitVec 4) (why : Nat) : Dev :=
  if d.trn p != tsTrained || !(lanes4.any (fun l => ls.getLsbD l && d.flag F.PRT_LANE_STAT_ACTIVE (laneIx p l))) then d
  else
    let d := (d.linkDown p 6).enterDetect p
    lanes4.foldl (fun d l => if ls.getLsbD l && why < 2 then d.setLaneFault p l (3 + why) else d) d

/-- SER_WINDOW: the count of corrected symbols of a 1 ms window, of `symbols` (R404). -/
def Dev.serWindow (d : Dev) (p l : Nat) (ser symbols : Nat) : Dev :=
  if d.trn p != tsTrained then d
  else
    let d := d.wr F.PRT_LANE_STAT_SER (laneIx p l) (min ser (2 ^ 24 - 1))
    let n := if symbols < ser * 10000 then ((d.portSt p).lane l).hits + 1 else 0
    let d := d.updLane p l (fun x => { x with hits := min n 3 })
    if n = 3 && !d.rxBad p l then (d.setLaneFault p l 5).fault 19 else d

/-- BELAY_DEGRADED_RETRAIN (R383). -/
def Dev.degradedRetrain (d : Dev) (p : Nat) : Dev :=
  if d.lnk p != lsDegraded || !d.flag F.PRT_LNK_ERR_RETRAIN_EN p || d.dark then d
  else
    let d := if (d.portSt p).out.any OutCell.deg then d.advanceTo ((d.portSt p).since + usPs 10) else d
    ((d.sendDownFrames p 2).linkDown p 2).enterDetect p

/-! ### Modules (R409 to R411) -/

/-- MOD_INSERT: firmware brings the module toward READY. -/
def Dev.modInsert (d : Dev) (p cmis : Nat) : Dev :=
  ((((d.wr F.PRT_MOD_STAT_PRESENT p 1).wr F.PRT_MOD_STAT_READY p 0).wr F.PRT_MOD_STAT_CMIS_STATE p cmis).updPort p
    (fun x => { x with modAt := d.ps })).modStart p

/-- MOD_READY: the data path is activated. -/
def Dev.modReady (d : Dev) (p cmis : Nat) : Dev :=
  if !d.flag F.PRT_MOD_STAT_PRESENT p then d
  else
    (((d.setMod p { (d.modSt p) with path := 2 }).wr F.PRT_MOD_STAT_READY p 1).wr F.PRT_MOD_STAT_CMIS_STATE p cmis).tryTrain p

/-- MOD_READY_TIMEOUT: 2 s have passed, or firmware reports that it cannot bring the module to READY. -/
def Dev.modTimeout (d : Dev) (p : Nat) (reported : Bool) : Dev :=
  if d.trn p != tsOff || !d.flag F.PRT_LANE_CFG_EN p || d.moduleOk p || !d.flag F.PRT_MOD_STAT_PRESENT p then d
  else (if reported then d else d.advanceTo ((d.portSt p).modAt + msPs 2000)).trainFail p 5

def Dev.modRemove (d : Dev) (p : Nat) : Dev :=
  let d := ((d.wr F.PRT_MOD_STAT_PRESENT p 0).wr F.PRT_MOD_STAT_READY p 0).wr F.PRT_MOD_STAT_ALARM p 0
  (((d.setMod p {}).linkDown p 6).laneOff p).fault 20

/-- What firmware does on an alarm (R411): with ALARM_ACT the port goes down and the module into low power. -/
def Dev.alarmAct (d : Dev) (p : Nat) : Dev :=
  if d.flag F.PRT_MOD_CFG_ALARM_ACT p then ((d.linkDownCmd p).laneOff p).modLow p else d

/-- A module alarm. During a blackout firmware serves it afterwards (R521). -/
def Dev.modAlarm (d : Dev) (p : Nat) : Dev :=
  let d := (d.wr F.PRT_MOD_STAT_ALARM p 1).fault 20
  if d.rd F.BCP_FW_STAT_STATE = 3 then { d with bcp.alarms := d.bcp.alarms ++ [p] } else d.alarmAct p

/-! ### Parking (R382, R405 to R408, R525) -/

/-- PORT_PARK_REQUEST. -/
def Dev.parkRequest (d : Dev) (p : Nat) : Dev :=
  let x := d.portSt p
  if !d.mayPark p || d.halted || x.parkReq.isSome || x.parkAgree.isSome then d
  else
    let d := d.advanceTo (x.cellAt + usPs (max 1 (d.rd F.PRT_PARK_CFG_IDLE_US p)))
    let id := (x.parkId + 1) % 256
    (d.updPort p (fun x => { x with parkId := id, parkReq := some (id, d.ps), parkEnd := 0 })).queuePark p 1 id

/-- The port's transmitters enter or leave electrical idle (R406, R408). -/
def Dev.setIdle (d : Dev) (p : Nat) (b : Bool) : Dev := (d.updPort p (fun x => { x with txIdle := b })).emit (.txIdle p b)

/-- Both enter PARKED, with their transmitters idle (R406). The routing state follows where it is UP (R325). -/
def Dev.enterParked (d : Dev) (p : Nat) : Dev :=
  let d := ((d.setLnk p lsParked).setTrn p tsParked).setIdle p true
  let d := if d.rtState p = rsUp then d.setRtState p rsParked else d
  (d.updPort p (fun x => { x with parkReq := none, parkAgree := none, recalAt := d.ps })).ev 8 8 (some p)

/-- This end's identity is the greater in crossing requests (R407). -/
def Dev.greater (d : Dev) (p : Nat) : Bool :=
  let w := (d.reg R.RTE_PORT_NBR p).toNat
  idDev w < d.myDev || (idDev w = d.myDev && idPort w < p)

/-- The answer to a REQUEST with number `id`: AGREE where this end may park, else REFUSE. -/
def Dev.parkAnswer (d : Dev) (p id : Nat) : Dev :=
  if d.mayPark p && !d.halted then (d.updPort p (fun x => { x with parkAgree := some (id, d.ps) })).queuePark p 2 id
  else d.queuePark p 3 id

/-- PARK_REQUEST_RX. -/
def Dev.parkRequestIn (d : Dev) (p : Nat) (fr : CtlFrame) : Dev :=
  let id := bitsOf fr.body.toNat 8 8
  let e := (d.ctlIn_ p fr).1
  if !(d.ctlIn_ p fr).2 || !e.running p then e
  else if (e.portSt p).parkReq.isSome && e.greater p then e.queuePark p 3 id
  else (e.parkWithdraw p).parkAnswer p id

/-- The requester parks, unless the ports left are too few by now (R406, R525). -/
def Dev.parkOrNot (d : Dev) (p : Nat) : Dev :=
  if d.rd F.PWR_POLICY_MIN_PORTS ≤ d.stayUp p then d.enterParked p else d.parkWithdraw p

/-- PARK_AGREE_RX: only the outstanding ID counts, and none once the requester has gained work. -/
def Dev.parkAgreeIn (d : Dev) (p : Nat) (fr : CtlFrame) : Dev :=
  let e := (d.ctlIn_ p fr).1.parkWork p
  match (e.portSt p).parkReq with
  | some r => if (d.ctlIn_ p fr).2 && e.lnk p = lsUp && bitsOf fr.body.toNat 8 8 = r.1 then e.parkOrNot p else e
  | none => e

def Dev.parkRefuseIn (d : Dev) (p : Nat) (fr : CtlFrame) : Dev :=
  let e := (d.ctlIn_ p fr).1
  match (e.portSt p).parkReq with
  | some r => if (d.ctlIn_ p fr).2 && bitsOf fr.body.toNat 8 8 = r.1 then e.updPort p (fun x => { x with parkReq := none }) else e
  | none => e

def Dev.parkWakeIn (d : Dev) (p : Nat) (fr : CtlFrame) : Dev :=
  let e := (d.ctlIn_ p fr).1
  match (e.portSt p).parkAgree with
  | some r => if (d.ctlIn_ p fr).2 && bitsOf fr.body.toNat 8 8 = r.1 then e.updPort p (fun x => { x with parkAgree := none }) else e
  | none => e

/-- PARK_TIMEOUT: 2 µs without an answer, or without idle or WAKE. A requester that gained work withdraws before that. -/
def Dev.parkTimeout (d : Dev) (p : Nat) : Dev :=
  let x := d.portSt p
  match x.parkReq, x.parkAgree with
  | some (_, t), _ => (if x.out.isEmpty then d.advanceTo (t + usPs 2) else d).parkWithdraw p
  | none, some (_, t) => ((d.advanceTo (t + usPs 2)).updPort p (fun x => { x with parkAgree := none })).ev 8 10 (some p)
  | none, none => d

/-- PARK_SIGNAL_LOST: within 2 µs of the AGREE. -/
def Dev.parkSignalLost (d : Dev) (p : Nat) : Dev :=
  match (d.portSt p).parkAgree with
  | some (_, t) => if d.lnk p = lsUp && d.ps ≤ t + usPs 2 then d.enterParked p else d
  | none => d

/-- A wake begins: transmitters leave idle; a recalibration in progress aborts (R408). -/
def Dev.wakeStart (d : Dev) (p : Nat) : Dev :=
  if d.lnk p != lsParked || d.dark || (d.portSt p).waking then d
  else (d.setIdle p false).updPort p (fun x => { x with waking := true })

/-- PORT_WAKE: on the router's request. -/
def Dev.portWake (d : Dev) (p : Nat) : Dev := if (d.portSt p).wakeWant then d.wakeStart p else d

/-- PARK_RELOCK_DONE: receivers lock and ALIGN codewords deskew, and Belay enters RELOCK; or lane relock fails (R396, R408). -/
def Dev.relockDone (d : Dev) (p : Nat) (ok : Bool) : Dev :=
  if d.lnk p != lsParked || !(d.portSt p).waking then d
  else if ok then (d.setLnk p lsRelock).startPath p
  else (d.linkDown p 11).enterDetect p

/-- BELAY_RELOCK_TIMEOUT: the lanes are trained anew (R383, R396). -/
def Dev.relockTimeout (d : Dev) (p : Nat) : Dev :=
  if d.lnk p != lsRelock || d.dark then d else (d.stateTimeout p lsRelock (usPs 2) 11).enterDetect p

/-- PARKED_RECAL: every 100 ms while parked (R407). -/
def Dev.parkedRecal (d : Dev) (p : Nat) (cal : CalIn) : Dev :=
  if d.trn p != tsParked || !d.flag F.PRT_PARK_CFG_RECAL_PARKED p || (d.portSt p).waking then d
  else
    let d := d.advanceTo ((d.portSt p).recalAt + msPs 100)
    let d := lanes4.foldl (fun d l => d.calLane p l (!cal.quiet) (cal.failed.getLsbD l)) d
    d.updPort p (fun x => { x with recalAt := d.ps })

end Sys2Proof.Machine
end

