-- ==== Sys2Proof/Machine/Time.lean ====
section
/-! DEFINITION. The Rope ring and fabric time (R412 to R425): packets, alignment, exchanges, the choice of parent, the
servo, the grandmaster's inputs. -/

namespace Sys2Proof.Machine

/-! ### The Rope ring (R412 to R417) -/

def Dev.ropeSt (d : Dev) (r : Nat) : Rope := Tbl.get d.ropes {} r
def Dev.updRope (d : Dev) (r : Nat) (g : Rope → Rope) : Dev := { d with ropes := Tbl.set {} r (g (d.ropeSt r)) d.ropes }

/-- Rope port r is UP. -/
def Dev.ropeUp (d : Dev) (r : Nat) : Bool :=
  d.ropePower && getBits (d.reg R.ROPE_CFG) r 1 == 1 && d.rd F.ROPE_PORT_STAT_STATE r == 2

/-- A received packet of type `kind` as its bytes stand before the CRC-32. -/
def rxPkt (k : RopeFrame) (kind : Nat) : RopePkt := ⟨kind, k.ttl.toNat, k.src.toNat, k.dst.toNat, k.len, k.body⟩

/-- A packet arrives on Rope port r: whether it is for this device, with the CRC-32, the ring test and the forwarding of R415. -/
def Dev.ropeIn (d : Dev) (r kind : Nat) (k : RopeFrame) : Dev × Bool :=
  let mine := d.flag F.RTE_ID_ASSIGNED
  let src := bitsOf k.src.toNat 0 18
  let dst := bitsOf k.dst.toNat 0 18
  let bcast := k.dst.getLsbD 31
  if !d.ropeUp r || k.abort then (d, false)
  else if k.crc.toNat != crc32 (rxPkt k kind).raw then (d.bump F.ROPE_PORT_STAT_CRC_ERR r, false)
  else if k.src.getLsbD 18 && mine && src = d.myDev then (d.bump F.ROPE_PORT_STAT_CRC_ERR r, false)
  else
    let forMe := bcast || (mine && dst = d.myDev) || (!mine && dst = 0 && k.ttl = 1)
    let d := if (bcast || !forMe) && 1 < k.ttl.toNat then
        d.ropeSend (1 - r) { rxPkt k kind with ttl := k.ttl.toNat - 1 } else d
    (d, forMe)

/-- What a HELLO tells of the neighbour (R416). -/
def Dev.ropeNbr (d : Dev) (r : Nat) (k : RopeFrame) : Dev :=
  let d := (d.wr F.ROPE_PORT_NBR_DEV_ID r k.src.toNat).wr F.ROPE_PORT_NBR_ASSIGNED r (bitsOf k.src.toNat 18 1)
  let d := (d.wr F.ROPE_PORT_NBR_SYSTEM_ID r k.body).wr F.ROPE_PORT_NBR_PORT r (k.body / 2 ^ 16)
  d.wr F.ROPE_PORT_NBR_POSITION r (k.body / 2 ^ 17)

/-- ROPE_HELLO_RX (R416). -/
def Dev.ropeHello (d : Dev) (r : Nat) (k : RopeFrame) : Dev :=
  if !(d.ropeIn r 1 k).2 then (d.ropeIn r 1 k).1
  else if bitsOf k.body 16 1 = r then (((d.ropeIn r 1 k).1.ropeNbr r k).wr F.ROPE_PORT_STAT_SWAPPED r 1).fault 21
  else ((d.ropeIn r 1 k).1.ropeNbr r k).wr F.ROPE_PORT_STAT_SWAPPED r 0

/-- ROPE_FAULT_RX. -/
def Dev.ropeFaultIn (d : Dev) (r : Nat) (k : RopeFrame) : Dev :=
  if (d.ropeIn r 3 k).2 then (d.ropeIn r 3 k).1.fault 22 else (d.ropeIn r 3 k).1

/-- Firmware that runs may answer a MGMT packet with one of its own, at TTL 1 where the device has no ID (R415, R417); whether it
does, and what it says, is the firmware's (log entry 1). -/
def Dev.mgmtAnswer (d : Dev) (r : Nat) (k : RopeFrame) : Dev :=
  let (n, d) := d.pick 2
  if n = 0 || d.rd F.BCP_FW_STAT_STATE != 2 then d
  else
    let (t, d) := d.pick 255
    let (w, d) := d.freeWord
    d.ropeSend r { kind := 4, ttl := if d.flag F.RTE_ID_ASSIGNED then t + 1 else 1, src := d.ropeSrc,
                   dst := bitsOf k.src.toNat 0 18, len := 8, body := w.toNat }

/-- ROPE_MGMT_RX: the packet is Basecamp firmware's. -/
def Dev.ropeMgmt (d : Dev) (r : Nat) (k : RopeFrame) : Dev :=
  let e := (d.ropeIn r 4 k).1
  if (d.ropeIn r 4 k).2 then { e with bcp.ropeIn := e.bcp.ropeIn ++ [(k.src.toNat, k.body)] }.mgmtAnswer r k else e

/-- A bad CRC or a reserved TYPE. -/
def Dev.ropeDiscard (d : Dev) (r : Nat) : Dev := if d.ropeUp r then d.bump F.ROPE_PORT_STAT_CRC_ERR r else d

/-- ROPE_HELLO_TIMER: every 100 µs. -/
def Dev.ropeHelloTimer (d : Dev) : Dev :=
  if !d.ropePower then d
  else
    let d := d.advanceTo (d.time.helloAt + usPs 100)
    let d := { d with time.helloAt := d.ps }
    [0, 1].foldl (fun d r =>
      d.ropeSend r { kind := 1, ttl := 1, src := d.ropeSrc, dst := 2 ^ 31, len := 6,
                     body := d.rd F.RTE_ID_SYSTEM_ID + r * 2 ^ 16 + d.rd F.ROPE_CFG_POSITION * 2 ^ 17 }) d

/-- ROPE_FAULT_REPEAT: every 10 µs in safe state or Whiteout while the Rope ports have power. -/
def Dev.ropeFaultRepeat (d : Dev) : Dev :=
  let d' := d.advanceTo (d.flt.faultAt + usPs 10)
  if !d.ropePower then d
  else match d.pwr.state with
  | .safe => d'.ropeFault 1
  | .whiteout => d'.ropeFault 2
  | .off => d
  | .bivouac => d
  | .start => d
  | .run => d

/-- What one lane's ALIGN set says, its symbols after K28.3 with the first lowest: whether D10.2 stands for D21.5, and the
sender's lane that L names (R413, R414). -/
def alignLane (w : BitVec 24) : Option (Bool × Nat) :=
  let b := fun k => bitsOf w.toNat (8 * k) 8
  if b 0 = b 2 && (b 0 = 0xB5 || b 0 = 0x4A) && (b 1 = 0x60 || b 1 = 0x61) then some (b 0 = 0x4A, b 1 - 0x60) else none

/-- A good set: each lane's own is one, they name both lanes, and the deskew reaches (R414). -/
def alignGood (lane0 lane1 : BitVec 24) (skew : Nat) : Option (Nat × Bool) :=
  match alignLane lane0, alignLane lane1 with
  | some x, some y =>
    if x.2 != y.2 && skew ≤ 16 then some ((if x.1 then 1 else 0) + (if y.1 then 2 else 0), x.2 == 1) else none
  | _, _ => none

/-- A good ALIGN set: the inputs' inversion, and whether the lanes are remapped; four in a row bring the port UP (R414). -/
def Dev.ropeGood (d : Dev) (r inverted : Nat) (swapped : Bool) : Dev :=
  let d := (d.wr F.ROPE_PORT_STAT_POL_INV r inverted).wr F.ROPE_PORT_STAT_LANES_SWAPPED r (if swapped then 1 else 0)
  let d := d.updRope r (fun x => { x with good := min 4 (x.good + 1) })
  if d.rd F.ROPE_PORT_STAT_STATE r = 2 then d
  else d.wr F.ROPE_PORT_STAT_STATE r (if (d.ropeSt r).good = 4 then 2 else 1)

/-- ROPE_ALIGN_RX (R414). -/
def Dev.ropeAlign (d : Dev) (r : Nat) (lane0 lane1 : BitVec 24) (skew : Nat) : Dev :=
  if !d.ropePower || getBits (d.reg R.ROPE_CFG) r 1 = 0 then d
  else
    let d := d.updRope r (fun x => { x with heardAt := d.ps })
    match alignGood lane0 lane1 skew with
    | none => d.updRope r (fun x => { x with good := 0 })
    | some (inv, sw) => d.ropeGood r inv sw

/-- A Rope port goes DOWN. -/
def Dev.ropeDown (d : Dev) (r : Nat) : Dev :=
  let d := (d.wr F.ROPE_PORT_STAT_STATE r 0).updRope r (fun x => { x with good := 0, exch := [] })
  { d with time.nbr := Tbl.del (64 + r) d.time.nbr }

/-- A symbol column lasts 3,200 ps: 3.125 GBd and ten bits a symbol (R412). -/
def columnPs : Nat := 3200

/-- ROPE_ALIGN_TIMEOUT: four errors within 32 symbols of a lane, or 4,096 columns since the last ALIGN set (R414). -/
def Dev.ropeLoss (d : Dev) (l : RopeLoss) : Dev :=
  match l.errs with
  | some e => if 4 ≤ onesOf 32 e.toNat then d.ropeDown l.r else d
  | none => (d.advanceTo ((d.ropeSt l.r).heardAt + 4096 * columnPs)).ropeDown l.r

/-- The stamps of a TIME packet of this device, taken at SOP (R420). -/
def Dev.ropeStamped (d : Dev) (k : RopePkt) : RopePkt :=
  let t := d.ns16
  if !(k.kind = 2 && k.src = d.ropeSrc) then k
  else if k.body % 2 = 0 then { k with body := k.body + t / 2 ^ 16 * 2 ^ 64 + t % 2 ^ 16 * 2 ^ 256 }
  else { k with body := k.body + t / 2 ^ 16 * 2 ^ 192 + t % 2 ^ 16 * 2 ^ 288 }

/-- Columns of a Rope lane that have passed on the device's clock. -/
def Dev.columns (d : Dev) : Nat := d.ps / columnPs

/-- The head of Rope port r's buffer leaves when the packet before it has ended, after the ALIGN sets that are due and
the IDLE columns that fill the line (R413). -/
def Dev.ropeDrain (d : Dev) (r : Nat) : Dev :=
  match (d.ropeSt r).q with
  | [] => d
  | k :: rest =>
    let x := d.ropeSt r
    let aligns := (d.columns - x.alignAt) / 512
    if !d.ropeUp r || d.columns < x.sentTo + 4 * aligns then d
    else
      let k' := d.ropeStamped k
      let exch := if k.kind = 2 && k.src = d.ropeSrc && k.body % 2 = 0 then
          x.exch.filter (fun e => e.1 != bitsOf k.body 8 8) ++ [(bitsOf k.body 8 8, d.ns16)] else x.exch
      let fill := d.columns - x.sentTo - 4 * aligns
      -- two IDLE columns, and two ALIGN sets, leave the disparity as it was
      let rd := (codeColumns x.disp (List.replicate (fill % 2) (.idle, .idle) ++ (List.replicate (aligns % 2) alignSet).flatten)).2
      let code := codeColumns rd (packetColumns k'.bytes)
      (d.updRope r (fun x => { x with
        disp := code.2, q := rest, exch := exch, alignAt := x.alignAt + 512 * aligns,
        sentTo := d.columns + (packetColumns k'.bytes).length })).emit
          (.rope r fill aligns k'.bytes code.1)

/-! ### The clock set (R418, R419, R355) -/

/-- Fabric time takes a new value, in 2^-16 ns. -/
def Dev.jump (d : Dev) (t : Int) : Dev :=
  let d := { d with ft := t.toNat * 2 ^ 32 }
  (d.wr F.TIME_STAT_JUMPS 0 ((d.rd F.TIME_STAT_JUMPS + 1) % 2 ^ 16)).gatesJump

/-- TIME_SET: accepted while SERVO_EN is 0. -/
def Dev.timeSet (d : Dev) (v : Word) : Dev :=
  if d.dark || d.flag F.TIME_CFG_SERVO_EN then d
  else { d.jump (v.toNat * 2 ^ 16 : Nat) with time.ppsJump := true }

/-- TIME_NOW_READ: the fraction is latched (R418). -/
def Dev.timeNowRead (d : Dev) : Dev :=
  (d.wr F.TIME_FRAC_FRAC 0 (d.ns16 % 2 ^ 16)).emit (.readValue d.ns)

/-! ### The servo (R421 to R424) -/

def Dev.period (d : Dev) : Nat := max 16 (d.rd F.TIME_CFG_PERIOD_US)
def Dev.parent (d : Dev) : Nat := d.rd F.TIME_STAT_PARENT
def Dev.locked (d : Dev) : Bool := d.flag F.TIME_STAT_LOCKED

/-- LOCKED, GM_DIST of R422, and the report on entry to UNLOCKED. -/
def Dev.setLocked (d : Dev) (v : Bool) : Dev :=
  let was := d.locked
  let d := d.wr F.TIME_STAT_LOCKED 0 (if v then 1 else 0)
  let dist := if d.flag F.TIME_CFG_GM then 0
    else if v then (match Tbl.find d.time.nbr d.parent with
      | some (_, n) => min (n + 1) 0xFF
      | none => 0xFF)
    else 0xFF
  let d := d.wr F.TIME_STAT_GM_DIST 0 dist
  if was && !v then d.fault 23 else d

/-- The synchronising reset. -/
def Dev.servoReset (d : Dev) : Dev := { d.setLocked false with time.thetas := [], time.losses := 0 }

/-- Ports and Rope ports (64, 65) whose neighbour may be the parent, with their GM_DIST, in order. -/
def Dev.candidates (d : Dev) : List (Nat × Nat) :=
  d.time.nbr.filterMap (fun (e : Nat × Bool × Nat) =>
    let up := if e.1 < 64 then d.running e.1 else d.ropeUp (e.1 - 64) && d.flag F.TIME_CFG_ROPE_EN
    if up && e.2.1 && e.2.2 < 0xFE then some (e.1, e.2.2) else none)

/-- The candidate with the least GM_DIST; the lowest number on a tie, ports before Rope ports. -/
def bestParent (l : List (Nat × Nat)) : Option (Nat × Nat) :=
  l.foldl (fun b e => match b with
    | none => some e
    | some x => if e.2 < x.2 then some e else b) none

/-- A new parent, or none (127): a synchronising reset (R423). -/
def Dev.setParent (d : Dev) (p : Nat) : Dev := (({ d with time.rtts := [] }).wr F.TIME_STAT_PARENT 0 p).servoReset

/-- R424: a grandmaster is LOCKED when each enabled input has locked. -/
def Dev.gmLocked (d : Dev) : Bool :=
  (!d.flag F.TIME_CFG_PPS_EN || d.time.ppsLocked) && (!d.flag F.TIME_CFG_REF10M_EN || d.time.tenLocked)

/-- The choice of R422. -/
def Dev.chooseParent (d : Dev) : Dev :=
  if d.flag F.TIME_CFG_GM then (d.wr F.TIME_STAT_PARENT 0 127).setLocked d.gmLocked
  else
    let l := d.candidates
    match bestParent l with
    | none => d.setParent 127
    | some (p, n) => match l.find? (fun e => e.1 == d.parent) with
      | some (_, m) => if n < m then d.setParent p else d.setLocked d.locked
      | none => d.setParent p

/-- freq of R423 in ppb, clamped. -/
def Dev.setFreq (d : Dev) (f : Int) : Dev :=
  d.wr F.TIME_FREQ_FREQ_PPB 0 (unsigned (max (-100000) (min 100000 f)) 32)
def Dev.freq (d : Dev) : Int := signed (d.rd F.TIME_FREQ_FREQ_PPB) 32

/-- A correction by frequency: the LOCKED arm of R423; theta in 2^-16 ns. -/
def Dev.steer (d : Dev) (theta : Int) : Dev :=
  let integ := d.time.integ + theta * 250000 / (16 * d.period * 65536 : Nat)
  ({ d with time.integ := integ, time.losses := 0 }).setFreq (integ + theta * 250000 / (d.period * 65536 : Nat))

/-- The middle of three. -/
def median3 (a b c : Int) : Int := max (min a b) (min (max a b) c)

/-- A valid offset in UNLOCKED. The clock that measured it runs at freq, so it stands corrected for freq (log entry 14). -/
def Dev.servoUnlocked (d : Dev) (theta : Int) : Dev :=
  let d := { d with time.thetas := (theta :: d.time.thetas).take 3 }
  match d.time.thetas with
  | [a, b, c] =>
    let w : Int := d.rd F.TIME_CFG_CONSIST_NS * 65536
    if max a (max b c) - min a (min b c) ≤ w then
      let m := median3 a b c
      let d := if d.rd F.TIME_CFG_STEP_NS * 65536 < m.natAbs then d.jump (d.ns16 + m) else { d with time.phase := m }
      { d with time.integ := d.freq, time.losses := 0, time.thetas := [] }.setLocked true
    else d
  | _ => d

/-- A valid offset in LOCKED. -/
def Dev.servoLocked (d : Dev) (theta : Int) : Dev :=
  if d.rd F.TIME_CFG_LOSS_NS * 65536 < theta.natAbs then
    if 2 ≤ d.time.losses then d.servoReset else { d with time.losses := d.time.losses + 1 }
  else d.steer theta

/-- asym of R421 in 2^-16 ns; a Rope port has no register for one. -/
def Dev.asym (d : Dev) (src : Nat) : Int :=
  if src < 64 then signed (d.rd F.PRT_TIME_ASYM_ASYM_PS src) 32 * 65536 / 1000 else 0

/-- An integer held within a signed field of `w` bits. -/
def saturate (w : Nat) (x : Int) : Int := max (-(2 ^ (w - 1) : Nat)) (min ((2 ^ (w - 1) : Nat) - 1) x)

/-- An exchange with the parent completes, its stamps in 2^-16 ns (R421). -/
def Dev.exchange (d : Dev) (src : Nat) (t1 t2 t3 t4 : Nat) : Dev :=
  if src != d.parent || d.flag F.TIME_CFG_GM then d
  else
    let rtt : Int := (t4 - t1 : Int) - (t3 - t2 : Int)
    let theta : Int := ((t2 - t1 : Int) - (t4 - t3 : Int)) / 2 - d.asym src
    let rtts := (rtt.toNat :: d.time.rtts).take 16
    let d := ({ d with time.rtts := rtts }).wr F.TIME_STAT_OFFSET_NS 0 (unsigned (saturate 32 (theta / 65536)) 32)
    let least := rtts.foldl min rtt.toNat
    if !d.flag F.TIME_CFG_SERVO_EN || 1500 * 65536 < rtt || (20 * 65536 + least : Nat) < rtt then d
    else if d.locked then d.servoLocked theta else d.servoUnlocked theta

/-- Stamp k (0 for t1) of a TIME body, in 2^-16 ns. -/
def stampOf (body k : Nat) : Nat := bitsOf body (64 + 64 * k) 64 * 65536 + bitsOf body (256 + 16 * k) 16

/-- The RESP to exchange `e` (its number and t1) arrived: it serves the initialisation or the servo (R381, R383, R420). -/
def Dev.timeAnswer (d : Dev) (p : Nat) (fr : CtlFrame) (e : Nat × Nat) : Dev :=
  let b := fr.body.toNat
  let t4 := d.ns16
  let d := d.updPort p (fun x => { x with exch := x.exch.filter (fun f => f.1 != e.1), exEnd := 0 })
  let d := d.noteNbr p (ctlWord fr.body 0)
  if d.lnk p = lsInit then
    let rtt := ((t4 - e.2 : Int) - (stampOf b 2 - stampOf b 1 : Int)).toNat
    (d.updPort p (fun x => { x with initRtts := x.initRtts ++ [(rtt + 65535) / 65536] })).tryUp p
  else d.exchange p e.2 (stampOf b 1) (stampOf b 2) t4

/-- BELAY_TIME_RESP_RX: in INIT one of the four round trips of R384, later an exchange. -/
def Dev.timeRespIn (d : Dev) (p : Nat) (fr : CtlFrame) : Dev :=
  match ((d.ctlIn_ p fr).1.portSt p).exch.find? (fun e => e.1 == bitsOf fr.body.toNat 8 8) with
  | none => (d.ctlIn_ p fr).1
  | some e =>
    if !(d.ctlIn_ p fr).2 || (d.ctlIn_ p fr).1.lnk p = lsLock then (d.ctlIn_ p fr).1
    else (d.ctlIn_ p fr).1.timeAnswer p fr e

/-- A TIME packet of this device to its neighbour on Rope port r (R415: TTL 1 and the neighbour's own number). -/
def Dev.ropeTime (d : Dev) (r body : Nat) : Dev :=
  d.ropeSend r { kind := 2, ttl := 1, src := d.ropeSrc, len := 64, body := body,
                 dst := if d.flag F.ROPE_PORT_NBR_ASSIGNED r then d.rd F.ROPE_PORT_NBR_DEV_ID r else 0 }

/-- LOCKED and GM_DIST as a TIME frame carries them. -/
def Dev.timeHead (d : Dev) : Nat := d.rd F.TIME_STAT_LOCKED * 2 ^ 16 + d.rd F.TIME_STAT_GM_DIST * 2 ^ 24

/-- The body of a TIME packet on Rope port r: a REQ is answered, a RESP ends an exchange. -/
def Dev.ropeTimeBody (d : Dev) (r b : Nat) : Dev :=
  let now := d.ns16
  if b % 2 = 0 then
    d.ropeTime r (1 + bitsOf b 8 8 * 2 ^ 8 + d.timeHead + bitsOf b 64 64 * 2 ^ 64 + now / 2 ^ 16 * 2 ^ 128 +
      bitsOf b 256 16 * 2 ^ 256 + now % 2 ^ 16 * 2 ^ 272)
  else match (d.ropeSt r).exch.find? (fun e => e.1 == bitsOf b 8 8) with
    | none => d
    | some x =>
      (d.updRope r (fun y => { y with exch := y.exch.filter (fun e => e.1 != x.1) })).exchange (64 + r) x.2
        (stampOf b 1) (stampOf b 2) now

/-- ROPE_TIME_RX. -/
def Dev.ropeTimeIn (d : Dev) (r : Nat) (k : RopeFrame) : Dev :=
  if !(d.ropeIn r 2 k).2 then (d.ropeIn r 2 k).1
  else ((d.ropeIn r 2 k).1.noteNbr (64 + r) (bitsOf k.body 0 64)).ropeTimeBody r k.body

/-- A TIME REQ on port or Rope port `src`. -/
def Dev.timeReq (d : Dev) (src : Nat) : Dev :=
  if src < 64 then (if d.running src then d.sendTimeReq src else d)
  else if !d.ropeUp (src - 64) then d
  else
    let r := src - 64
    let id := (d.ropeSt r).exId
    (d.ropeTime r (id % 256 * 2 ^ 8 + d.timeHead)).updRope r (fun x => { x with exId := (id + 1) % 256 })

/-- TIME_EXCHANGE_TIMER: every PERIOD_US; the other ports at every eighth. -/
def Dev.timeTimer (d : Dev) : Dev :=
  if d.dark then d
  else
    let d := d.advanceTo (d.time.exAt + usPs d.period)
    let n := d.time.ticks
    let d := ({ d with time.exAt := d.ps, time.ticks := (n + 1) % 8 }).chooseParent
    (List.range 66).foldl (fun d src => if src = d.parent || n = 0 then d.timeReq src else d) d

/-- SERVO_ENABLE. -/
def Dev.servoEnable (d : Dev) : Dev :=
  let d := d.wr F.TIME_CFG_SERVO_EN 0 1
  if d.dark then d else d.servoReset

/-- The PPS input at an edge: the first edge after a set steps the clock to the nearest second, later ones steer it. -/
def Dev.ppsStep (d : Dev) : Dev :=
  if !d.flag F.TIME_CFG_PPS_EN then d
  else
    let near : Nat := (d.ns16 + 1000000000 * 65536 / 2) / (1000000000 * 65536) * (1000000000 * 65536)
    if d.time.ppsJump then { d.jump near with time.ppsJump := false, time.ppsLocked := true, time.integ := d.freq }
    else d.steer ((near : Int) - d.ns16)

/-- PPS_EDGE: an edge at fabric time `t16`, and whether TIME_10M is present (R424). -/
def Dev.ppsEdge (d : Dev) (t16 : BitVec 80) (tenOk : Bool) : Dev :=
  if d.dark || !d.flag F.TIME_CFG_GM then d
  else
    let d := Dev.ppsStep { d.advanceToNs (t16.toNat / 65536) with time.tenLocked := tenOk }
    d.setLocked d.gmLocked

end Sys2Proof.Machine
end

