-- ==== Sys2Proof/Machine/Tick.lean ====
section
/-! DEFINITION. What happens with no command: one cycle of the reference clock (R418) with its issue slots and queue sums
(R561, R564), and a Rope packet leaves each port. -/

namespace Sys2Proof.Machine

/-- The reference clock's period in ps: 156.25 MHz, or TIME_10M (R418). -/
def Dev.refPeriod (d : Dev) : Nat := if d.flag F.TIME_CFG_REF10M_EN then 100000 else 6400

/-- A cycle of TIME_10M that the counter takes locks its rate (R424; DESIGN CHOICE, log entry 36: one cycle is enough). -/
def Dev.tenLock (d : Dev) : Dev :=
  if d.dark || !d.flag F.TIME_CFG_REF10M_EN || d.time.tenLocked then d
  else
    let d := { d with time.tenLocked := true }
    if d.flag F.TIME_CFG_GM then d.setLocked d.gmLocked else d

/-! ### Issue slots in which nothing issues (R564, R565), and queue lengths (R561) -/

/-- The sub-event of block 0 that a stall counts: 7 BACK_HOST, 8 BACK_UNIT, 6 FRONT_FETCH. A thread whose entry is still being
read has no activation yet. -/
def stallEvent : Stall → Option Nat
  | .none => none
  | .wqFetch _ => none
  | .load _ _ _ _ _ _ _ => some 7
  | .walk _ _ _ _ _ _ => some 7
  | .store => some 8
  | .imem _ _ _ _ => some 6
  | .msgSlot _ => some 8
  | .amoReply _ => some 7
  | .ctr _ _ => some 8
  | .col _ _ _ => some 8
  | .fence _ => some 8
  | .mtc _ _ _ _ _ _ _ => some 8
  | .piton _ _ _ => some 8

/-- `n` slots of cluster c count category `cat` with its sub-event, for function `fn`. -/
def Dev.slotCount (d : Dev) (c cat sub : Nat) (fn : Option Nat) (n : Nat) : Dev :=
  let d := ((d.ev 0 0 (some c) fn n).ev 0 cat (some c) fn n).ev 0 sub (some c) fn n
  match fn with
  | some f => d.fnCount f (10 + cat) n
  | none => d

/-- The slots of core k of cluster c over `n` engine cycles, of which none issues. Where a thread could issue, only the slots
that the throttle level forbids are counted here: each other is counted by the instruction that takes it (log entry 16). -/
def Dev.coreSlots (d : Dev) (c k n : Nat) : Dev :=
  let ths := (List.range 4).map (fun j => d.thr (64 * c + 4 * k + j))
  let first := fun (e : Nat) => ths.find? (fun t => t.st == .stall && stallEvent t.stall == some e)
  match ths.find? (fun t => t.st == .ready && t.active) with
  | some t => if d.rd F.FLT_THERM_LEVEL = 0 then d else d.slotCount c 4 9 (some t.fn) (n - n / 2 ^ d.rd F.FLT_THERM_LEVEL)
  | none => match first 7, first 8, first 6 with
    | some t, _, _ => d.slotCount c 4 7 (some t.fn) n
    | none, some t, _ => d.slotCount c 4 8 (some t.fn) n
    | none, none, some t => d.slotCount c 3 6 (some t.fn) n
    | none, none, none => d.slotCount c 3 5 none n

/-- The issue slots of `n` ps from now, at 1.6 GHz, of each cluster that is not gated. -/
def Dev.slotTime (d : Dev) (n : Nat) : Dev :=
  let cyc := (d.ps + n) / 625 - d.ps / 625
  ((List.range 16).filter (fun c => !d.gated c)).foldl (fun d c => (List.range 16).foldl (fun d k => d.coreSlots c k cyc) d) d

/-- OUTQ over `n` ps from now: L(p) in each cycle of the router, at 2 GHz. -/
def Dev.queueTime (d : Dev) (n : Nat) : Dev :=
  let cyc := (d.ps + n) / 500 - d.ps / 500
  (d.ports.map Prod.fst).foldl (fun d p => d.ev 8 11 (some p) none (d.load p * cyc)) d

/-- One tick: fabric time stops with its clock. -/
def Dev.tick (d : Dev) : Dev :=
  let n := d.refPeriod
  let d := if d.dark then d else (d.slotTime n).queueTime n
  ((d.advance n).tenLock.ropeDrain 0).ropeDrain 1

def tick (s : State) : State := { s with dev := s.dev.tick }

end Sys2Proof.Machine
end

