-- ==== Sys2Proof/Machine/Cc.lean ====
section
/-! DEFINITION. Congestion control (R328 to R342): destination entries, base intervals, samples, the window and admission. -/

namespace Sys2Proof.Machine

/-! ### Settings with their bounds -/

def Dev.ccBase0 (d : Dev) : Nat := max 100 (d.rd F.RMA_CC_BASE_DEFAULT_BASE_NS)
def Dev.ccMin (d : Dev) : Nat := max 1 (d.rd F.RMA_CC_WIN_W_MIN) * 256
def Dev.ccMax (d : Dev) : Nat := max (d.ccMin) (d.rd F.RMA_CC_WIN_W_MAX * 256)
def Dev.ccClip (d : Dev) (w : Nat) : Nat := min (max w d.ccMin) d.ccMax

/-! ### Base intervals (R335) -/

/-- The numbering brought up to the present. -/
def Dev.ccTick (d : Dev) : Dev :=
  let len := clampTo 10 1000 (d.rd F.RMA_CC_BASE_BASE_DECAY_MS) * 500000
  let now := d.ns
  if d.cc.ivLen = 0 then { d with cc.ivLen := len, cc.ivNum := now / len, cc.ivStart := now / len * len }
  else
    let b := d.cc.ivStart + d.cc.ivLen
    if now < b then d
    else { d with cc.ivLen := len, cc.ivNum := d.cc.ivNum + 1 + (now - b) / len, cc.ivStart := b + (now - b) / len * len }

/-- The base estimate of an entry. -/
def Dev.ccBase (d : Dev) (e : CcEnt) : Nat :=
  match e.bCur, e.bPrev with
  | some a, some b => min a b
  | some a, none => a
  | none, some b => b
  | none, none => d.ccBase0

def CcEnt.srtt (e : CcEnt) : Nat := e.s8 / 8

/-- srtt, or the base estimate of an entry without samples (R336, R338). -/
def Dev.ccRtt (d : Dev) (e : CcEnt) : Nat := if e.samples = 0 then d.ccBase e else e.srtt

def Dev.ccFind (d : Dev) (dev : Nat) : Option CcEnt := Tbl.find d.cc.ents dev
def Dev.ccPut (d : Dev) (dev : Nat) (e : CcEnt) : Dev := { d with cc.ents := Tbl.put dev e d.cc.ents }
def Dev.ccUpd (d : Dev) (dev : Nat) (g : CcEnt → CcEnt) : Dev :=
  match d.ccFind dev with
  | some e => d.ccPut dev (g e)
  | none => d

/-- The base terms of an entry as interval `n` leaves them (R335). -/
def CcEnt.aged (e : CcEnt) (n : Nat) : CcEnt :=
  if e.touch = n then e
  else { e with bPrev := if e.touch + 1 = n then e.bCur else none, bCur := none, touch := n }

/-- A hit of an entry: its idle time restarts and it becomes the most recently used; its first touch in a new interval ages
the base terms and may start a re-probe (R330, R331, R335, R336). -/
def Dev.ccTouch (d : Dev) (dev : Nat) : Dev :=
  let d := d.ccTick
  let d := { d with cc.hits := d.cc.hits + 1 }
  match d.ccFind dev with
  | none => d
  | some e =>
    let e' := { e.aged d.cc.ivNum with lastHit := d.ps, recency := d.cc.hits }
    let probe := e.touch != d.cc.ivNum && d.flag F.RMA_CC_CFG_REPROBE_EN && e.charge != 0
    d.ccPut dev (if probe then { e' with reprobe := some (d.ns + d.ccRtt e') } else e')

/-- The base estimate that an entry has now, though nothing has touched it in this interval. -/
def Dev.ccBaseNow (d : Dev) (e : CcEnt) : Nat := d.ccBase (e.aged d.ccTick.cc.ivNum)

/-- The base estimate of a destination, for intervals (R180, R285). -/
def Dev.ccBaseOf (d : Dev) (dev : Nat) : Nat :=
  match d.ccFind dev with
  | some e => d.ccBaseNow e
  | none => d.ccBase0

/-- The least recently used entry that may be evicted (R330). -/
def Dev.ccVictim (d : Dev) : Option (Nat × CcEnt) :=
  (d.cc.ents.filter (fun e => e.2.charge == 0 && e.2.waiting.isEmpty)).foldl (fun b e => match b with
    | none => some e
    | some x => if e.2.recency < x.2.recency then some e else some x) none

/-- The entry that a segment needs, created where there is none (R329, R330). -/
def Dev.ccNeed (d : Dev) (dev : Nat) : Dev :=
  let d := d.ccTouch dev
  if (d.ccFind dev).isSome then d
  else
    let d := if d.cc.ents.length < 131072 then d
      else match d.ccVictim with
        | some v => { d.bump F.RMA_CC_STAT_EVICT with cc.ents := Tbl.del v.1 d.cc.ents }
        | none => d
    d.ccPut dev { w := d.ccClip (d.rd F.RMA_CC_WIN_W_INIT * 256), touch := d.cc.ivNum, lastHit := d.ps, recency := d.cc.hits }

/-! ### Samples (R333, R334, R337) -/

/-- The sample that an echoed stamp gives at fabric time `now`. -/
def rttSample (now tstamp : Nat) : Nat := 4 * ((now / 4 % 2 ^ 16 + 2 ^ 16 - tstamp % 2 ^ 16) % 2 ^ 16)

/-- The estimates after sample r. -/
def CcEnt.estimate (e : CcEnt) (r : Nat) : CcEnt :=
  { e with
    s8 := if e.samples = 0 then 8 * r else e.s8 + r - e.s8 / 8
    samples := min (e.samples + 1) 15
    bCur := match e.bCur with
      | some b => some (min b r)
      | none => some r }

/-- The decrease factor of R337. -/
def Dev.ccFactor (d : Dev) (srtt target mark : Nat) (busy : Bool) : Nat :=
  let md := max 1 (d.rd F.RMA_CC_CFG_MD_MAX)
  let f := if target < srtt then d.rd F.RMA_CC_CFG_BETA * (srtt - target) / srtt else 0
  let f := if mark = 3 || busy then md else if max 1 (d.rd F.RMA_CC_CFG_CMARK_DEC) ≤ mark then max f (md / 4) else f
  min f md

/-- The window after a sample of a segment with charge n (R337); `e` holds the new estimates, `earlier` the samples before. -/
def Dev.ccWindow (d : Dev) (e : CcEnt) (earlier n mark : Nat) (busy : Bool) : CcEnt :=
  let srtt := e.srtt
  let base := d.ccBase e
  let tns := max 100 (d.rd F.RMA_CC_CFG_TARGET_NS)
  let target := base + tns
  let f := d.ccFactor srtt target mark busy
  let e :=
    if 0 < f || target < srtt then
      let due := match e.lastDec with
        | none => true
        | some t => srtt ≤ d.ns - t
      if 0 < f && due then { e with w := e.w - e.w * f / 256, lastDec := some d.ns } else e
    else
      let inc := max 1 (d.rd F.RMA_CC_CFG_AI) * n * 65536 / e.w
      let inc := if 4 ≤ earlier && srtt ≤ base + tns / 2 then max inc (n * d.rd F.RMA_CC_CFG_MI) else inc
      { e with w := e.w + inc }
  { e with w := d.ccClip e.w }

/-- A sample for a destination: of a segment with charge n, or (none) of a COL acknowledgement, which leaves W alone. -/
def Dev.ccSample (d : Dev) (dev tstamp : Nat) (n : Option Nat) (mark : Nat) (busy : Bool) : Dev :=
  let d := d.ccTouch dev
  d.ccUpd dev (fun e =>
    let earlier := e.samples
    let e := e.estimate (rttSample d.ns tstamp)
    match n with
    | some n => d.ccWindow e earlier n mark busy
    | none => e)

/-- The decrease of a retransmission (R338). -/
def Dev.ccRetx (d : Dev) (dev : Nat) : Dev :=
  let d := d.ccTouch dev
  d.ccUpd dev (fun e =>
    let due := match e.lastDec with
      | none => true
      | some t => d.ccRtt e ≤ d.ns - t
    if due then { e with w := d.ccClip (e.w - e.w * max 1 (d.rd F.RMA_CC_CFG_MD_MAX) / 256), lastDec := some d.ns } else e)

/-! ### Admission (R340 to R342) -/

/-- The admission limit (R336). -/
def Dev.ccLimit (d : Dev) (e : CcEnt) : Nat :=
  match e.reprobe with
  | some t => if d.ns < t then max d.ccMin (e.w / 4) else e.w
  | none => e.w

/-- A segment may be admitted to an entry (R341). -/
def Dev.ccMay (d : Dev) (e : CcEnt) : Bool := e.charge * 256 < d.ccLimit e

/-- The charge is released (R341): a lookup by the segment or its response (R331). -/
def Dev.ccRelease (d : Dev) (dev n : Nat) : Dev := (d.ccTouch dev).ccUpd dev (fun e => { e with charge := e.charge - n })

/-- CC_ENTRY_IDLE_RELEASE (R331). -/
def Dev.ccIdle (d : Dev) (dev : Nat) : Dev :=
  match d.ccFind dev with
  | none => d
  | some e =>
    if d.halted || e.charge != 0 || !e.waiting.isEmpty then d
    else
      let d := d.advanceTo (e.lastHit + msPs (max 1 (d.rd F.RMA_CC_BASE_DST_IDLE_MS)))
      { d with cc.ents := Tbl.del dev d.cc.ents }

def execCcEntryIdleRelease (dev : DevId) (s : State) : Host.Outcome State Fault Refusal := onDev s (fun d => d.ccIdle dev.toNat)

/-- CC_REPROBE_END (R336). -/
def Dev.ccReprobeEnd (d : Dev) (dev : Nat) : Dev :=
  match d.ccFind dev with
  | some e => match e.reprobe with
    | some t => if d.halted then d else (d.advanceToNs t).ccUpd dev (fun e => { e with reprobe := none })
    | none => d
  | none => d

def execCcReprobeEnd (dev : DevId) (s : State) : Host.Outcome State Fault Refusal := onDev s (fun d => d.ccReprobeEnd dev.toNat)

end Sys2Proof.Machine
end

