-- ==== Sys2Proof/Machine/Float.lean ====
section
/-! DEFINITION. Floating-point arithmetic of collectives and atomics (R192, R272 to R274), and the element operations of
R269 to R273. -/

namespace Sys2Proof.Machine

/-- A format: exponent and fraction bits, and whether it is E4M3, which has no infinity. -/
structure Fmt where
  e : Nat
  m : Nat
  noInf : Bool := false
deriving DecidableEq, Repr

def Fmt.width (f : Fmt) : Nat := 1 + f.e + f.m
/-- Exponent of the unit in the last place of subnormals. -/
def Fmt.qmin (f : Fmt) : Int := 2 - (2 ^ (f.e - 1) : Nat) - (f.m : Int)
/-- The code of the largest finite magnitude; of infinity; of the canonical NaN (R272). -/
def Fmt.maxFin (f : Fmt) : Nat := if f.noInf then 2 ^ (f.e + f.m) - 2 else (2 ^ f.e - 1) * 2 ^ f.m - 1
def Fmt.inf (f : Fmt) : Nat := (2 ^ f.e - 1) * 2 ^ f.m
def Fmt.nan (f : Fmt) : Nat := if f.noInf then 2 ^ (f.e + f.m) - 1 else (2 ^ f.e - 1) * 2 ^ f.m + 2 ^ (f.m - 1)

/-- The format of a datatype code (R34). -/
def fmtOf (dt : Nat) : Option Fmt :=
  match dt with
  | 5 => some { e := 11, m := 52 }
  | 6 => some { e := 8, m := 23 }
  | 7 => some { e := 5, m := 10 }
  | 8 => some { e := 8, m := 7 }
  | 9 => some { e := 4, m := 3, noInf := true }
  | 10 => some { e := 5, m := 2 }
  | _ => none

/-- A value: not a number, an infinity, or sign, significand and exponent of the significand's unit. -/
inductive Fp where
  | nan
  | inf (neg : Bool)
  | fin (neg : Bool) (sig : Nat) (exp : Int)
deriving DecidableEq, Repr

/-- The value of a code. -/
def Fmt.decode (f : Fmt) (x : Nat) : Fp :=
  let neg := x / 2 ^ (f.e + f.m) % 2 == 1
  let mag := x % 2 ^ (f.e + f.m)
  let be := mag / 2 ^ f.m
  let fr := mag % 2 ^ f.m
  if f.maxFin < mag then (if !f.noInf && fr = 0 then .inf neg else .nan)
  else if be = 0 then .fin neg fr f.qmin
  else .fin neg (2 ^ f.m + fr) (f.qmin + (be - 1 : Nat))

/-- x / 2^k rounded to nearest, ties to even. -/
def roundShift (x k : Nat) : Nat :=
  let q := x / 2 ^ k
  let r := x % 2 ^ k
  if 2 ^ k < 2 * r || (2 * r = 2 ^ k && q % 2 = 1 && k != 0) then q + 1 else q

/-- The code of magnitude sig * 2^exp, rounded to nearest even; what overflow gives is set by `sat` (R272, R273). -/
def Fmt.roundMag (f : Fmt) (sat : Bool) (sig : Nat) (exp : Int) : Nat :=
  if sig = 0 then 0
  else
    -- The exponent of the result's unit: that of the leading bit less the fraction, not below the subnormals'.
    let q := max (exp + (Nat.log2 sig : Int) - (f.m : Int)) f.qmin
    let s := if q ≤ exp then sig * 2 ^ (exp - q).toNat else roundShift sig (q - exp).toNat
    let code := (q - f.qmin).toNat * 2 ^ f.m + s
    if code ≤ f.maxFin then code else if sat then f.maxFin else if f.noInf then f.nan else f.inf

/-- The code of a value (R272, R273). -/
def Fmt.encode (f : Fmt) (sat : Bool) : Fp → Nat
  | .nan => f.nan
  | .inf neg => if f.noInf then f.nan else (if neg then 2 ^ (f.e + f.m) else 0) + f.inf
  | .fin neg sig exp =>
    let mag := f.roundMag sat sig exp
    if mag = f.nan then mag else (if neg then 2 ^ (f.e + f.m) else 0) + mag

/-- Exact sum; an exact zero is +0 unless both are -0. -/
def Fp.add : Fp → Fp → Fp
  | .nan, _ => .nan
  | _, .nan => .nan
  | .inf a, .inf b => if a = b then .inf a else .nan
  | .inf a, .fin _ _ _ => .inf a
  | .fin _ _ _, .inf b => .inf b
  | .fin a x e, .fin b y g =>
    let u := min e g
    let v := fun (n : Bool) (s : Nat) (k : Int) => (if n then -1 else 1) * ((s * 2 ^ (k - u).toNat : Nat) : Int)
    let r := v a x e + v b y g
    if r = 0 then .fin (a && b) 0 u else .fin (r < 0) r.natAbs u

/-- Exact product. -/
def Fp.mul : Fp → Fp → Fp
  | .nan, _ => .nan
  | _, .nan => .nan
  | .inf a, .inf b => .inf (a != b)
  | .inf a, .fin b y _ => if y = 0 then .nan else .inf (a != b)
  | .fin a x _, .inf b => if x = 0 then .nan else .inf (a != b)
  | .fin a x e, .fin b y g => .fin (a != b) (x * y) (e + g)

/-- x is below y; -0 is less than +0 (R272). -/
def Fp.lt : Fp → Fp → Bool
  | .nan, _ => false
  | _, .nan => false
  | .inf a, .inf b => a && !b
  | .inf a, .fin _ _ _ => a
  | .fin _ _ _, .inf b => !b
  | .fin a x e, .fin b y g =>
    if a != b then a
    else
      let u := min e g
      let m := x * 2 ^ (e - u).toNat
      let n := y * 2 ^ (g - u).toNat
      if a then n < m else m < n

/-- The IEEE minimum or maximum. -/
def Fp.minmax (max : Bool) (x y : Fp) : Fp :=
  if x = .nan || y = .nan then .nan else if x.lt y != max then x else y

/-! ### Element operations (R269 to R273) -/

/-- Bits of an element of a datatype. -/
def elemBits (dt : Nat) : Nat :=
  match dt with
  | 1 => 32
  | 2 => 32
  | 6 => 32
  | 7 => 16
  | 8 => 16
  | 11 => 16
  | 12 => 16
  | 9 => 8
  | 10 => 8
  | _ => 64

def isFloat (dt : Nat) : Bool := 5 ≤ dt && dt ≤ 10

/-- x op y on elements of datatype dt: SUM, PROD, MIN, MAX, BAND, BOR, BXOR. -/
def elemOp (op dt : Nat) (sat : Bool) (x y : Nat) : Nat :=
  match fmtOf dt with
  | some f =>
    let a := f.decode x
    let b := f.decode y
    f.encode sat (match op with
      | 0 => a.add b
      | 1 => a.mul b
      | 2 => Fp.minmax false a b
      | _ => Fp.minmax true a b)
  | none =>
    let w := elemBits dt
    let sgn := dt == 1 || dt == 3 || dt == 11
    let less := fun (x y : Nat) => if sgn then decide (signed x w < signed y w) else decide (x < y)
    match op with
    | 0 => (x + y) % 2 ^ w
    | 1 => x * y % 2 ^ w
    | 2 => if less x y then x else y
    | 3 => if less x y then y else x
    | 4 => x &&& y
    | 5 => x ||| y
    | _ => x ^^^ y

/-- The combinations of R270 without ACC_WIDE or SAT. -/
def opAllowed (op dt : Nat) : Bool := if isFloat dt then op ≤ 3 else op ≤ 6 && dt ≤ 12

/-- The operation on each of the n elements of width w packed in x and y. -/
def packedOp (g : Nat → Nat → Nat) (w x y : Nat) : Nat → Nat
  | 0 => 0
  | n + 1 => g (x % 2 ^ w) (y % 2 ^ w) % 2 ^ w + packedOp g w (x / 2 ^ w) (y / 2 ^ w) n * 2 ^ w

/-! ### Atomics on host memory (R192) -/

/-- The value that an atomic leaves: fadd in its format, the integer operations as scratch has them. -/
def amoNew (op dt old a b : Nat) : Nat :=
  let w := amoBits dt
  if op = 8 then elemOp 0 dt false (old % 2 ^ w) (a % 2 ^ w)
  else amoInt op dt w (old % 2 ^ w) (a % 2 ^ w) (b % 2 ^ w)

end Sys2Proof.Machine
end

