-- ==== Sys2Proof/Machine/Msgs.lean ====
section
/-! DEFINITION. Messages, slots and scopes as RMA and MTC share them (R160, R168 to R170, R199, R203), receive completion
(R244 to R247) and the messages that MTC sends (R240, R241). -/

namespace Sys2Proof.Machine

/-! ### Slots and messages -/

def Dev.slotOf (d : Dev) (i : Nat) : Option Slot := Tbl.find d.rma.slots i
def Dev.putSlot (d : Dev) (i : Nat) (s : Slot) : Dev := { d with rma.slots := Tbl.put i s d.rma.slots }
def Dev.updSlot (d : Dev) (i : Nat) (g : Slot → Slot) : Dev := { d with rma.slots := Tbl.upd i g d.rma.slots }
def Dev.slotGen (d : Dev) (i : Nat) : Nat := Tbl.get d.rma.gens 0 i

/-- A message joins those under way; its slots are taken as they are to be had (R161). -/
def Dev.newMsg (d : Dev) (m : Msg) : Dev × Nat :=
  let n := d.rma.nextMsg
  ({ d with rma.msgs := Tbl.put n m d.rma.msgs, rma.nextMsg := n + 1 }, n)

def Dev.msgOf (d : Dev) (n : Nat) : Option Msg := Tbl.find d.rma.msgs n
def Dev.updMsg (d : Dev) (n : Nat) (g : Msg → Msg) : Dev := { d with rma.msgs := Tbl.upd n g d.rma.msgs }

/-- 256 KiB. -/
abbrev segBytes : Nat := 262144
/-- Segments of a message of `len` bytes (R160). -/
def segsOf (kind len : Nat) : Nat := if (kind = 1 || kind = 2) && segBytes < len then (len + segBytes - 1) / segBytes else 1
/-- Length of segment k. -/
def Msg.segLen (m : Msg) (k : Nat) : Nat := if m.segs ≤ 1 then m.len else min segBytes (m.len - segBytes * k)

/-- A free slot that the limits of R170 allow. -/
def Dev.slotFree (d : Dev) (fn : Nat) (dg : Bool) : Bool :=
  d.rma.slots.length < 65536 && (d.rma.slots.filter (fun e => e.2.fn == fn)).length < d.rd F.RMA_FN_CFG_SLOT_MAX fn &&
  (!dg || (d.rma.slots.filter (fun e => e.2.op == 5)).length < d.rd F.RMA_CFG_DG_SLOT_MAX)

/-! ### Scopes (R66) -/

/-- The scope of a thread's operations. -/
def Thread.scope (t : Thread) (th : Nat) : Scope := if t.cmd then .queue t.queue else .thread th

def Dev.scopeSt (d : Dev) (s : Scope) : ScopeSt := (d.rma.scopes.find? (fun x => x.scope == s)).getD { scope := s }
def Dev.updScope (d : Dev) (s : Scope) (g : ScopeSt → ScopeSt) : Dev :=
  if s = .none then d
  else { d with rma.scopes := g (d.scopeSt s) :: d.rma.scopes.filter (fun x => x.scope != s) }

/-- A thread of the scope stalls in fence.remote or fence.durable: later operations of the scope do not issue (R66). -/
def Dev.fencing (d : Dev) (s : Scope) : Bool :=
  s != .none && d.eng.th.any (fun e => match e.2.stall with
    | .fence k => k != 0 && e.2.scope e.1 == s
    | _ => false)

/-- The scope has a message operation that has not reached its level (R202). -/
def Dev.scopeBusy (d : Dev) (s : Scope) : Bool :=
  d.rma.msgs.any (fun e => e.2.scope == s && e.2.role != .flush && !e.2.ended) || (d.scopeSt s).others != 0

/-- A nonzero status of an operation issued outside a command activation (R202, R460). -/
def Dev.lastErr (d : Dev) (fn st msgId : Nat) : Dev :=
  if st = 0 then d
  else ((d.wr F.RMA_FN_LASTERR_STATUS fn st).bump F.RMA_FN_LASTERR_COUNT fn).wr F.RMA_FN_LASTERR_MSG_ID fn msgId

/-! ### Room for arrival events (R175, R247) -/

/-- The cluster of slot n's in which an arrival event reserves its place; none where all are full. Which cluster the event
then goes to is R80's choice at the time it is raised. -/
def Dev.evRoomFor (d : Dev) (n : Nat) : Option Nat := (d.slotClusters n).find? d.evOpen

/-- EVT_BUSY (R561): an arrival event of slot n is refused, counted at the lowest-numbered cluster allowed (DESIGN CHOICE, log
entry 36). -/
def Dev.evBusy (d : Dev) (n fn : Nat) : Dev := d.ev 0 12 (d.slotClusters n).head? (some fn)

/-- A message-arrival event (R79). -/
def Dev.arrivalEvent (d : Dev) (fn slot entry op src : Nat) (w2 w3 w4 : Nat) : Dev :=
  d.raiseEvent { slot := slot, entry := entry, fn := fn, kind := 1, w1 := BitVec.ofNat 64 (src + op * 2 ^ 28),
                 w2 := BitVec.ofNat 64 w2, w3 := BitVec.ofNat 64 w3, w4 := BitVec.ofNat 64 w4 }

/-! ### Receive completion (R244 to R247) -/

def Dev.dom (d : Dev) (f : Nat) : Dom := Tbl.get d.mtc.doms {} f
def Dev.setDom (d : Dev) (f : Nat) (x : Dom) : Dev := { d with mtc.doms := Tbl.set {} f x d.mtc.doms }
def Dev.updDom (d : Dev) (f : Nat) (g : Dom → Dom) : Dev := d.setDom f (g (d.dom f))

/-- The handle of a receive (R214). -/
def Recv.handle (r : Recv) : Nat := r.index + r.gen * 2 ^ 20

/-- Steps 2 and 3 of R244. -/
def Dev.recvAfter (d : Dev) (x : Done) : Dev :=
  let d := d.fnCount x.fn 9
  let d := match x.ctr with
    | none => d
    | some n => if d.ctrOwner n = some x.fn then d.ctrAdd n 1 x.fn else (d.ctrAdd n 1 x.fn).ev 5 9 none (some x.fn)
  if d.flag F.MTC_FN_ARR_EV_EN x.fn && x.status != Status.MT_CANCELLED then
    d.arrivalEvent x.fn (d.rd F.MTC_FN_ARR_SLOT x.fn) (d.rd F.MTC_FN_ARR_ENTRY x.fn) (if x.rdv then 4 else 3) x.src x.bits x.len
      (if x.rdv then 0 else x.d6)
  else d

/-- The record of R245. -/
def Done.record (x : Done) (prod : Nat) : Nat :=
  x.handle + x.status * 2 ^ 32 + (if x.rdv then 2 ^ 48 else 0) + x.len * 2 ^ 64 + x.src * 2 ^ 96 + x.bits * 2 ^ 128 +
  prod % 2 ^ 32 * 2 ^ 192

/-- The record is written, or has failed: PROD advances and the completion goes on. -/
def Dev.rcqNext (d : Dev) (f : Nat) (x : Done) : Dev :=
  ((d.updDom f (fun m => { m with writing := none })).wr F.MTC_FN_RCQ_IDX_PROD f (d.rd F.MTC_FN_RCQ_IDX_PROD f + 1)).recvAfter x

/-- The completion ring of f is full (R245). -/
def Dev.rcqFull (d : Dev) (f : Nat) : Bool :=
  seqSub (d.rd F.MTC_FN_RCQ_IDX_PROD f) (d.rd F.MTC_FN_RCQ_IDX_CONS f) == 2 ^ d.rd F.MTC_FN_RCQ_LOG2_ENTRIES f

/-- The parts of a record, one for each page that it lies on, translated: those that have an address, how many are to come,
and the failure of one (R245: a record that fails writes nothing). -/
def Dev.rcqParts (d : Dev) (f h off data : Nat) : Dev × List Part × Nat × Nat :=
  (pageParts (d.winVa h off) 4096 33 32).foldl (fun (acc : Dev × List Part × Nat × Nat) e =>
    if acc.2.2.2 != 0 then acc
    else
      let v := bitsOf data (8 * e.1) (8 * e.2)
      let (d, x) := acc.1.winAddr h (off + e.1) e.2 .write (.accW (.rcq f) v e.2 false)
      match x with
      | .ok a => (d, acc.2.1 ++ [{ fn := d.winFn (d.winOf h), addr := a, len := e.2, data := v, off := off + e.1 }], acc.2.2.1, 0)
      | .fault => (d, acc.2.1, acc.2.2.1, Status.WIN_XLT)
      | .page _ => (d, acc.2.1, acc.2.2.1 + 1, 0)
      | .wait => (d, acc.2.1, acc.2.2.1 + 1, 0)) (d, [], 0, 0)

/-- The parts of a record are written. -/
def Dev.rcqPut (d : Dev) (l : List Part) : Dev :=
  l.foldl (fun d e => d.hostWrite e.fn e.addr e.len e.data) d

/-- Records are written in completion order while the ring has room (R246). -/
def Dev.rcqRun (d : Dev) (f : Nat) : Nat → Dev
  | 0 => d
  | fuel + 1 =>
    match (d.dom f).writing, (d.dom f).waiting with
    | none, x :: rest =>
      let h := d.rd F.MTC_FN_RCQ_WIN f
      if h = 0 then ((d.updDom f (fun m => { m with waiting := rest })).recvAfter x).rcqRun f fuel
      else if d.rcqFull f then d
      else
        let prod := d.rd F.MTC_FN_RCQ_IDX_PROD f
        let off := prod % 2 ^ d.rd F.MTC_FN_RCQ_LOG2_ENTRIES f * 32
        let d := d.updDom f (fun m => { m with waiting := rest, writing := some { rcd := x } })
        let (d, st) := d.winUse h (localPeer f false) rLW off 32
        let (d, l, n, st) := if st != 0 then (d, [], 0, st) else d.rcqParts f h off (x.record prod)
        if st != 0 then (((d.disown (.rcq f)).ev 5 11 none (some f)).rcqNext f x).rcqRun f fuel
        else if n = 0 then ((d.rcqPut l).rcqNext f x).rcqRun f fuel
        else d.updDom f (fun m => { m with writing := some { rcd := x, todo := n, parts := l } })
    | _, _ => d

def Dev.rcqGo (d : Dev) (f : Nat) : Dev := d.rcqRun f ((d.dom f).waiting.length + 1)

/-- A receive completes. -/
def Dev.complete (d : Dev) (x : Done) : Dev := (d.updDom x.fn (fun m => { m with waiting := m.waiting ++ [x] })).rcqGo x.fn

/-- A posted receive is cancelled or removed (R217, R248). -/
def Dev.cancelRecv (d : Dev) (r : Recv) : Dev :=
  d.complete { fn := r.fn, handle := r.handle, status := Status.MT_CANCELLED, rdv := false, len := 0, src := 0, bits := 0,
               d6 := 0, ctr := r.ctr, evRoom := none }

/-- A part of a record that waited for its translation has it; the last one lets the record be written. -/
def Dev.rcqPart (d : Dev) (f : Nat) (e : Part) : Dev :=
  match (d.dom f).writing with
  | none => d
  | some j =>
    if j.todo ≤ 1 then ((d.rcqPut (j.parts ++ [e])).rcqNext f j.rcd).rcqGo f
    else d.updDom f (fun m => { m with writing := some { j with todo := j.todo - 1, parts := j.parts ++ [e] } })

/-- A part of a record has failed: the record writes nothing. -/
def Dev.rcqFail (d : Dev) (f : Nat) : Dev :=
  match (d.dom f).writing with
  | none => d
  | some j => (((d.disown (.rcq f)).ev 5 11 none (some f)).rcqNext f j.rcd).rcqGo f

/-- The parts of function f's record that have an address are translated afresh: an invalidation may have taken theirs
(R143). -/
def Dev.rcqRenew (d : Dev) (f : Nat) : Dev :=
  match (d.dom f).writing with
  | none => d
  | some j =>
    let h := d.rd F.MTC_FN_RCQ_WIN f
    j.parts.foldl (fun d p =>
      let (d, x) := d.winAddr h p.off p.len .write (.accW (.rcq f) p.data p.len false)
      match x with
      | .ok a => d.rcqPart f { p with fn := d.winFn (d.winOf h), addr := a }
      | .fault => d.rcqFail f
      | .page _ => d
      | .wait => d)
      (d.updDom f (fun m => { m with writing := some { j with parts := [], todo := j.todo + j.parts.length } }))

/-! ### The messages that MTC sends -/

/-- The finish of a rendezvous (R241). -/
def Dev.sendFinish (d : Dev) (fn : Nat) (l : Mail) (st : Nat) : Dev :=
  (d.newMsg { kind := 3, role := .finish, fn := fn, dev := l.src / 1024, dfn := l.src % 1024, mbits := l.len + st * 2 ^ 32,
              mseq := 2 ^ 30, rdvWin := l.rwin, rdvOff := l.roff }).1

/-- A receive that has matched completes with `st`; a rendezvous is then finished (R235, R237, R240). -/
def Dev.recvDone (d : Dev) (rid st : Nat) : Dev :=
  match Tbl.find d.mtc.active rid with
  | none => d
  | some a =>
    let d := { d with mtc.active := Tbl.del rid d.mtc.active }
    let st := if st = 0 && a.recv.len < a.mail.len then Status.MT_TRUNCATED else st
    let d := d.complete { fn := a.recv.fn, handle := a.recv.handle, status := st, rdv := a.mail.rdv, len := a.mail.len,
                          src := a.mail.src, bits := a.mail.bits, d6 := a.mail.d6, ctr := a.recv.ctr, evRoom := a.evRoom }
    if a.mail.rdv then d.sendFinish a.recv.fn a.mail st else d

/-- The fetch of a matched rendezvous (R240). -/
def Dev.startFetch (d : Dev) (rid : Nat) : Dev :=
  match Tbl.find d.mtc.active rid with
  | none => d
  | some a =>
    let n := min a.mail.len a.recv.len
    let (d, st) := d.winUse a.recv.win (fun _ => true) rLW (if n = 0 then 0 else a.recv.off) n
    if st != 0 then d.recvDone rid st
    else if n = 0 then d.recvDone rid 0
    else
      (d.newMsg { kind := 2, role := .fetch rid, fn := a.recv.fn, dev := a.mail.src / 1024, dfn := a.mail.src % 1024,
                  rwin := a.mail.rwin, roff := a.mail.roff, lwin := a.recv.win, loff := a.recv.off, len := n,
                  segs := segsOf 2 n }).1

end Sys2Proof.Machine
end

