-- ==== Sys2Proof/Machine/Tx.lean ====
section
/-! DEFINITION. The sending RMA (R158 to R171, R180 to R184, R188, R198 to R205): issue, slots, transmission, completion,
fences. -/

namespace Sys2Proof.Machine

/-! ### Operands (R57, R58) -/

def MsgOp.len (m : MsgOp) : Nat := getBits m.size 0 32
def MsgOp.amo (m : MsgOp) : Bool := 0x44 ≤ m.op
def MsgOp.inl (m : MsgOp) : Bool := !m.amo && getBits m.g0 30 1 == 1
def MsgOp.ord (m : MsgOp) : Bool := getBits m.g0 31 1 == 1
def MsgOp.dev (m : MsgOp) : Nat := getBits m.g0 10 18
def MsgOp.dfn (m : MsgOp) : Nat := getBits m.g0 0 10
def MsgOp.lwin (m : MsgOp) : Nat := getBits m.g3 32 32
def MsgOp.loff (m : MsgOp) : Nat := getBits m.g2 0 48
/-- The trigger counter that completion advances. -/
def MsgOp.ctr (m : MsgOp) : Option Nat := if getBits m.size 48 1 = 1 then some (getBits m.size 32 16) else none
/-- send and ud.send, which name no remote window. -/
def MsgOp.sends (m : MsgOp) : Bool := m.op == 0x42 || m.op == 0x43

/-- A reserved operand field is nonzero, or INLINE where it may not be (R57, R58, R162). Bits to which R57 gives no field
count as reserved in w[a] and w[a+1] of every operation, those of an amo's w[a+1] included; bits [63:48] of w[a+2] and
[31:0] of w[a+3] are ignored (DESIGN CHOICE, log entry 36). -/
def MsgOp.bad (m : MsgOp) : Bool :=
  getBits m.g0 28 2 != 0 || getBits m.size 49 15 != 0 ||
  (if m.sends then getBits m.g0 32 32 != 0 else getBits m.g1 48 16 != 0) ||
  (m.amo && (getBits m.g0 30 1 != 0 || m.len != 0)) ||
  (m.inl && (m.op == 0x41 || 16 < m.len)) || (m.op == 0x43 && 4096 < m.len)

/-- The operation uses a local window when it issues. -/
def MsgOp.local_ (m : MsgOp) : Bool := !m.bad && !m.amo && !m.inl

/-- The local checks of R162; 0 where all pass. -/
def Dev.localCheck (d : Dev) (m : MsgOp) : Nat :=
  if m.bad then Status.ARG
  else if m.amo || m.inl then 0
  else d.winCheck m.lwin (localPeer m.fn m.priv) (if m.op = 0x41 then rLW else rLR) (if m.len = 0 then 0 else m.loff) m.len

/-! ### Send streams (R219, R220) -/

def streamKey (fn dev dfn : Nat) : Nat := fn * 2 ^ 28 + dev * 2 ^ 10 + dfn
/-- On-die and Depot streams together. -/
def streamMax : Nat := 32768 + 4194304

/-- A stream has room for one more send (R220). -/
def Dev.streamRoom (d : Dev) (k : Nat) : Bool :=
  match Tbl.find d.mtc.streams k with
  | some x => x.open_.length < 8192
  | none => d.mtc.streams.length < streamMax

/-- The send takes its SEQ: MSEQ of the descriptor (R218, R219). -/
def Dev.streamTake (d : Dev) (k : Nat) : Dev × Nat :=
  let x := Tbl.get d.mtc.streams {} k
  let oldest := x.open_.headD x.next
  let gap := (x.next + 2 ^ 15 - oldest) % 2 ^ 15
  ({ d with mtc.streams := Tbl.put k { x with next := (x.next + 1) % 2 ^ 15, open_ := x.open_ ++ [x.next] } d.mtc.streams },
   x.next * 2 ^ 15 + gap)

/-- A send of the stream completes (R219). -/
def Dev.streamDone (d : Dev) (k mseq : Nat) : Dev :=
  { d with mtc.streams := Tbl.upd k (fun x => { x with open_ := x.open_.erase (mseq / 2 ^ 15 % 2 ^ 15), last := d.ps }) d.mtc.streams }

/-! ### Issue (R59, R161, R162, R203, R233, R238) -/

/-- What becomes of an operation that a thread or the deferred list hands over. -/
inductive IssueRes where
  | wait
  | status (st : Nat)
  | taken
deriving DecidableEq, Repr

/-- A send goes eagerly (R233). -/
def Dev.eager (d : Dev) (m : MsgOp) : Bool :=
  m.inl || m.len ≤ 16 || m.len ≤ min 16384 (d.rd F.MTC_FN_CFG_EAGER_MAX m.fn)

/-- Operation code of R158. -/
def Dev.opCode (d : Dev) (m : MsgOp) : Nat :=
  match m.op with
  | 0x40 => 1
  | 0x41 => 2
  | 0x42 => if d.eager m then 3 else 4
  | 0x43 => 5
  | 0x44 => 6
  | _ => 7

/-- Size of an atomic's datatype (R164). -/
def amoSize (dt : Nat) : Nat := amoBits dt / 8

/-- The message that an operation is. -/
def MsgOp.msg (m : MsgOp) (kind : Nat) (entry : Option OpRef) : Msg :=
  let inl := m.inl
  { kind := kind, role := if kind = 4 then .rdv else .user, fn := m.fn, dev := m.dev, dfn := m.dfn,
    rwin := if m.sends then 0 else getBits m.g0 32 32, roff := if m.sends then 0 else getBits m.g1 0 48,
    lwin := if m.amo || inl then 0 else m.lwin, loff := if m.amo || inl then 0 else m.loff,
    len := if m.amo then amoSize (m.minor % 16) else m.len,
    mbits := if m.sends then m.g1.toNat else 0,
    rdvWin := if kind = 4 then m.lwin else 0, rdvOff := if kind = 4 then m.loff else 0, inl := inl,
    a := if m.amo then m.g2.toNat else if inl then m.g2.toNat % 2 ^ (8 * min m.len 8) else 0,
    -- Operand B is the compare value of cas; other operations have none (DEDUCED, log entry 22).
    b := if m.amo then (if m.minor / 16 = 7 then m.g3.toNat else 0) else if inl then m.g3.toNat % 2 ^ (8 * (m.len - 8)) else 0,
    amoFn := if m.amo then m.minor else 0, ord := m.ord, ctr := m.ctr, entry := entry, scope := m.scope,
    ret := if m.op = 0x45 then m.ret else none, queue := m.queue, segs := segsOf kind m.len }

/-- The place of an operation in its thread's entry (R111, R112). -/
def Dev.opStartTh (d : Dev) (th : Option Nat) : Dev × Option OpRef :=
  match th with
  | none => (d, none)
  | some th =>
    let t := d.thr th
    if t.cmd && !t.noEntry then let (d, r) := d.opStart t.queue t.seq; (d, some r) else (d, none)

/-- The endpoint joins the scope's durable set, or the message goes with DUR (R203). That of a send that turns out
unexpected stays in the set: R236 speaks of sends with DUR (DESIGN CHOICE, log entry 36). -/
def Dev.durable (d : Dev) (s : Scope) (ep kind : Nat) : Dev × Bool :=
  let x := d.scopeSt s
  if s = .none || kind = 2 || kind = 5 || x.durable.contains ep then (d, false)
  else if x.durable.length < 16 then (d.updScope s (fun x => { x with durable := x.durable ++ [ep] }), false)
  else (d, true)

/-- Data cells of a slot's segment. -/
def Msg.dataCells (m : Msg) (len : Nat) : Nat :=
  if (m.kind = 1 || m.kind = 3 || m.kind = 5) && !m.inl && 16 < len then (len + 63) / 64 else 0

/-- A message takes a slot for its next segment. -/
def Dev.takeSlot (d : Dev) (n : Nat) (m : Msg) : Dev :=
  let (start, d) := d.pick 65536
  match firstFreeFrom (Tbl.has d.rma.slots) 65536 start (d.rma.slots.length + 1) with
  | none => d
  | some i =>
    let k := m.taken
    let id := d.rma.msgId
    let d := d.putSlot i { msg := n, seg := k, st := .ord, msgId := id, fn := m.fn, dev := m.dev, dfn := m.dfn, op := m.kind,
                           len := m.segLen k, lwin := m.lwin, loff := (m.loff + segBytes * k) % 2 ^ 48,
                           toSend := m.dataCells (m.segLen k) + 1, fresh := m.dataCells (m.segLen k) + 1 }
    let d := { d with rma.msgId := (id + 1) % 2 ^ 32 }
    d.updMsg n (fun m => { m with taken := k + 1, msgId := if k = 0 then id else m.msgId })

/-- The target of an ORD operation (R199). -/
def Msg.target (m : Msg) : Nat × Nat × Nat := (m.dev, m.dfn, m.rwin)

/-- The ORD operations of a scope that have not completed, those before message n. -/
def Dev.ordBefore (d : Dev) (n : Nat) (s : Scope) : List Msg :=
  (d.rma.msgs.filter (fun e => e.1 < n && e.2.ord && !e.2.ended && e.2.scope == s)).map Prod.snd

/-- An ORD operation meets eight other targets (R199). -/
def Dev.ordFull (d : Dev) (m : Msg) : Bool :=
  let targets := ((d.ordBefore d.rma.nextMsg m.scope).map Msg.target).eraseDups
  m.ord && m.scope != .none && !targets.contains m.target && 8 ≤ targets.length

/-- The look-up of the local window that an operation names. -/
def Dev.localLook (d : Dev) (m : MsgOp) : Dev := if m.local_ then d.winLook m.lwin else d

/-- An operation is handed to RMA; `th` is the thread that issues it, if it is not a deferred one. One that is refused has
failed: its counter advances as any operation's does (R202). -/
def Dev.issueOp (d : Dev) (th : Option Nat) (m : MsgOp) : Dev × IssueRes :=
  let st := d.localCheck m
  let kind := d.opCode m
  let key := streamKey m.fn m.dev m.dfn
  if d.fencing m.scope then (d, .wait)
  else if st != 0 then
    let (d, r) := ((d.localLook m).winFail (if m.bad then 0 else st)).opStartTh th
    let d := d.ctrAddO m.ctr m.fn
    (if r.isSome then d.opEndO r st else d.lastErr m.fn st 0, .status st)
  else if kind = 2 && m.len = 0 then
    let (d, r) := (d.localLook m).opStartTh th
    ((d.ctrAddO m.ctr m.fn).opEndO r 0, .status 0)
  else if !d.slotFree m.fn (kind == 5) || ((kind = 3 || kind = 4) && !d.streamRoom key) ||
      (kind = 4 && 65536 ≤ d.mtc.rdvs.length) then (d, .wait)
  else
    let (d, r) := (d.localLook m).opStartTh th
    let (d, dur) := d.durable m.scope (m.dev * 1024 + m.dfn) kind
    let (d, mseq) := if kind = 3 || kind = 4 then d.streamTake key else (d, 0)
    let d := if kind = 2 then d.updScope m.scope (fun x => { x with gets := true }) else d
    let x := { m.msg kind r with dur := dur, mseq := mseq }
    let x := { x with ordAll := d.ordFull x }
    let (d, n) := d.newMsg x
    let d := d.takeSlot n x
    let d := if kind = 4 then
        { d with mtc.rdvs := d.mtc.rdvs ++ [⟨m.fn, m.dev * 1024 + m.dfn, m.lwin, m.loff, m.len, n⟩] } else d
    (d, .taken)

/-! ### Slots (R161, R168 to R171, R188) -/

/-- A cell of RMA's for the schedulers. -/
def Dev.txCell (d : Dev) (s : Slot) (i : Nat) (idx : Nat) (head last : Bool) (pay : Nat) (retx : Bool) (mine : Bool) : TxCell :=
  { cell := mkCell s.dev s.dfn d.myDev i (d.slotGen i) idx head last 0 pay, fn := s.fn, cls := 0, retx := retx,
    slot := if mine then some (i, d.slotGen i) else none, own := true, col := none, last := last, trig := s.adm }

/-- Cells sent again join the others in the order in which the retransmissions were triggered (R344). -/
def Dev.pushRetx (d : Dev) (g : Nat) (l : List TxCell) : Dev :=
  { d with sch.retx := d.sch.retx.filter (fun t => t.trig ≤ g) ++ l ++ d.sch.retx.filter (fun t => g < t.trig) }

/-- A first transmission of function f joins its REQ queue. -/
def Dev.pushReq (d : Dev) (f : Nat) (l : List TxCell) : Dev :=
  { d with sch.req := Tbl.put f (Tbl.get d.sch.req [] f ++ l) d.sch.req }

/-- Operations that are not idempotent (R158). -/
def nonIdem (op : Nat) : Bool := op == 3 || op == 4 || op == 6 || op == 7

/-- The slot is free again: its generation advances, and a RELEASE goes to the target (R168, R188). -/
def Dev.freeSlot (d : Dev) (i : Nat) (s : Slot) : Dev :=
  let rel := d.txCell s i 0 true true (9 + s.fn * 2 ^ 22 + s.msgId * 2 ^ 96) false false
  let d := if nonIdem s.op then d.pushReq s.fn [rel] else d
  { d with rma.slots := Tbl.del i d.rma.slots, rma.gens := Tbl.set 0 i ((d.slotGen i + 1) % 16) d.rma.gens }

/-- The OBJECT of a slot's reply reservation: the slot and its generation (R474). -/
def Dev.slotObj (d : Dev) (i : Nat) : Nat := i + d.slotGen i * 2 ^ 16

/-- The quiet time of R171, in ps. -/
def Dev.quietPs (d : Dev) : Nat := usPs (max 4 (d.rd F.RMA_CFG_QUIET_US))

/-- Cells of the slot that have not been injected are not sent any more. -/
def Dev.unsend (d : Dev) (i : Nat) (s : Slot) : Dev :=
  let keep := fun (t : TxCell) => t.slot != some (i, d.slotGen i)
  { d with
    sch.req := Tbl.set [] s.fn ((Tbl.get d.sch.req [] s.fn).filter keep) d.sch.req
    sch.retx := d.sch.retx.filter keep }

/-! ### Descriptor and cells (R163 to R167) -/

/-- The segment reads its source window (R163, R182). -/
def Msg.reads (m : Msg) (len : Nat) : Bool := (m.kind == 1 || m.kind == 3 || m.kind == 5) && !m.inl && 0 < len

/-- The descriptor of R164, RETX 0. A segment of 16 bytes or less goes as a single cell, the last one of a longer message
too (R163; DESIGN CHOICE, log entry 34). -/
def Msg.descriptor (m : Msg) (s : Slot) : Nat :=
  let short := (m.kind == 1 || m.kind == 3 || m.kind == 5) && !m.inl && s.len ≤ 16
  let inl := m.inl || short
  let a := if short then s.data % 2 ^ 64 else m.a
  let b := if short then s.data / 2 ^ 64 else m.b
  m.kind + (if m.ord then 2 ^ 8 else 0) + (if inl then 2 ^ 9 else 0) + (if m.dur then 2 ^ 11 else 0) + m.amoFn * 2 ^ 12 +
  m.fn * 2 ^ 22 + s.len * 2 ^ 32 + m.rwin * 2 ^ 64 + s.msgId * 2 ^ 96 +
  (if 3 ≤ m.kind && m.kind ≤ 5 || m.kind = 8 then 0 else (m.roff + segBytes * s.seg) % 2 ^ 48) * 2 ^ 128 + m.mbits * 2 ^ 192 + m.mseq * 2 ^ 256 +
  m.rdvWin * 2 ^ 288 + m.rdvOff * 2 ^ 320 + a * 2 ^ 384 + b * 2 ^ 448
/-- The head cell. -/
def Dev.headCell (d : Dev) (i : Nat) (s : Slot) (desc n : Nat) : TxCell :=
  d.txCell s i 0 true (n = 0) (if s.attempt = 0 then desc else desc + 2 ^ 10) (s.attempt != 0) true

/-- The data cells, in index order. -/
def Dev.bodyCells (d : Dev) (i : Nat) (s : Slot) (n : Nat) : List TxCell :=
  (List.range n).map (fun k => d.txCell s i k false (k + 1 = n) (bitsOf s.data (512 * k) 512) (s.attempt != 0) true)

/-- Cells join the schedulers: first transmissions by function, retransmissions in the order triggered (R344, R346). -/
def Dev.handCells (d : Dev) (s : Slot) (l : List TxCell) : Dev :=
  if s.attempt = 0 then d.pushReq s.fn l else d.pushRetx s.adm l

/-- The policer of R350 for a datagram of c cells; `false` where it refuses. -/
def Dev.police (d : Dev) (q : Option Nat) (c : Nat) : Dev × Bool :=
  match q with
  | none => (d, true)
  | some q =>
    let x := Tbl.get d.sch.udp 0 q
    if !d.flag F.SCH_UDP_EN q then (d, true)
    else if c * 256 ≤ x then ({ d with sch.udp := Tbl.put q (x - c * 256) d.sch.udp }, true)
    else (d.ev 7 4 none (some (d.qFn q)), false)

/-- The message reader's part of the segment is over: its cluster may have become idle (R524). -/
def Dev.readerRest (d : Dev) (s : Slot) : Dev :=
  match s.st, (d.msgOf s.msg).bind Msg.queue with
  | .reading, some q => d.rest (16 + d.rd F.WQ_CTX_CFG_DMA_CLUSTER q)
  | _, _ => d

/-- The segment's data are in hand: its cells go to the schedulers. -/
def Dev.segHand (d : Dev) (i : Nat) : Dev :=
  match d.slotOf i with
  | none => d
  | some s => match d.msgOf s.msg with
    | none => d
    | some m =>
      let n := m.dataCells s.len
      let desc := s.desc.getD (m.descriptor s)
      let d := d.readerRest s
      let (d, ok) := if m.kind = 5 then d.police m.queue (n + 1) else (d, true)
      if !ok then d.updSlot i (fun s => { s with fail := some Status.UD_POLICED })
      else
        -- A retransmission has sent its head cell already.
        let l := (if s.attempt = 0 then [d.headCell i s desc n] else []) ++ d.bodyCells i s n
        let d := (d.handCells s l).updSlot i (fun s => { s with st := .out, desc := some desc, data := 0 })
        if s.attempt = 0 then (d.ev 4 0 none (some s.fn)).fnCount s.fn 1 else d

/-- The DMA cluster that reads the sources of queue q's messages wakes (R19). -/
def Dev.wakeReader (d : Dev) (q : Option Nat) : Dev :=
  match q with
  | some q => d.wake (16 + d.rd F.WQ_CTX_CFG_DMA_CLUSTER q)
  | none => d

/-- The message reader of queue q's messages is awake. -/
def Dev.readerUp (d : Dev) (q : Option Nat) : Bool :=
  match q with
  | some q => !d.dmaGated (d.rd F.WQ_CTX_CFG_DMA_CLUSTER q)
  | none => true

/-- The source of a segment is read (R163, R444), once its reader is awake (R20). The read is a use of the window, which a
revoke since the issue refuses (R155). -/
def Dev.segRead (d : Dev) (i : Nat) (s : Slot) : Dev :=
  let q := (d.msgOf s.msg).bind Msg.queue
  if !d.readerUp q then (d.wakeReader q).updSlot i (fun s => { s with st := .reading, data := 0, reads := 0, asleep := true })
  else
  let d := (d.updSlot i (fun s => { s with asleep := false })).winLook s.lwin
  if d.winLive s.lwin != 0 then
    (d.winFail (d.winLive s.lwin)).updSlot i (fun s => { s with fail := some (d.winLive s.lwin) })
  else
    let d := d.updSlot i (fun s => { s with st := .reading, data := 0, reads := 0 })
    let (d, n, st) := d.winReadAll (.src i) s.lwin s.loff s.len
    d.updSlot i (fun s => { s with reads := n, fail := if st = 0 then s.fail else some st })

/-- A segment that may go: its data are read, or its cells handed over. -/
def Dev.segGo (d : Dev) (i : Nat) : Dev :=
  match d.slotOf i with
  | none => d
  | some s => match d.msgOf s.msg with
    | none => d
    | some m =>
      let d := { d with nextTag := d.nextTag + 1 }.updSlot i (fun s => { s with adm := d.nextTag })
      if m.reads s.len then d.segRead i s else d.segHand i

/-- The charge of a segment (R340). -/
def Msg.charge (m : Msg) (len : Nat) : Nat := if m.kind = 2 then 1 + (len + 63) / 64 else 1 + m.dataCells len

/-- A segment reaches its destination's window: admitted at once, or waiting (R341, R342). -/
def Dev.segAdmit (d : Dev) (i : Nat) : Dev :=
  match d.slotOf i with
  | none => d
  | some s => match d.msgOf s.msg with
    | none => d
    | some m =>
      if m.kind = 5 then d.segGo i
      else
        let n := m.charge s.len
        let d := d.ccNeed s.dev
        match d.ccFind s.dev with
        | none => d
        | some e =>
          if e.waiting.isEmpty && d.ccMay e then
            ((d.ccPut s.dev { e with charge := e.charge + n, lastFn := s.fn }).updSlot i
              (fun s => { s with charge := n, charged := true })).segGo i
          else (d.ccPut s.dev { e with waiting := e.waiting ++ [i] }).updSlot i (fun s => { s with charge := n, st := .wait })

/-- A segment is released from ORD: a get reserves its reply space first (R12, R190), and is held while it cannot. -/
def Dev.segStart (d : Dev) (i : Nat) : Dev :=
  match d.slotOf i with
  | none => d
  | some s =>
    if s.op != 2 then d.segAdmit i
    else
      let (d, l) := d.alloc 1 (d.slotObj i) (((s.len + 63) / 64 * 64 + 2047) / 2048)
      match l with
      | some l => (d.updSlot i (fun s => { s with bufs := l })).segAdmit i
      | none => (d.updSlot i (fun s => { s with st := .hold })).wrrEnd s.fn

/-- GET_RESERVE: a held get's reservation is tried again. -/
def Dev.getReserve (d : Dev) (i : Nat) : Dev :=
  match d.slotOf i with
  | none => d
  | some s =>
    if s.st != .hold then d
    else match (d.msgOf s.msg).bind Msg.queue with
      | some q => (d.segStart i).qWake q
      | none => d.segStart i

/-- An ORD operation is held (R199): behind those to its target, or behind all of its scope. -/
def Dev.ordBlocked (d : Dev) (n : Nat) (m : Msg) : Bool :=
  m.ord && m.scope != .none && (d.ordBefore n m.scope).any (fun x => m.ordAll || x.target == m.target)

/-- Message n of queue q waits behind an earlier get of the queue that is held (R12). -/
def Dev.heldBehind (d : Dev) (n : Nat) (q : Option Nat) : Bool :=
  q.isSome && d.rma.slots.any (fun e => e.2.st == .hold && e.2.msg < n && (d.msgOf e.2.msg).bind Msg.queue == q)

/-! ### Completion (R161, R168, R171, R202) -/

/-- A message that is complete goes, but for a rendezvous send whose header cell is still to be answered (R219). -/
def Dev.endMsg (d : Dev) (n : Nat) : Dev :=
  let d := { d with mtc.rdvs := d.mtc.rdvs.filter (fun r => r.msg != n) }
  if d.rma.slots.any (fun e => e.2.msg == n && e.2.st != .quiet) then d.updMsg n (fun m => { m with ended := true })
  else { d with rma.msgs := Tbl.del n d.rma.msgs }

/-- A message is complete. `old` is the old value that an AMO_F brought. -/
def Dev.finishMsg (d : Dev) (n : Nat) (m : Msg) (st old : Nat) : Dev :=
  let d := d.endMsg n
  let counts := fun (d : Dev) =>
    let d := d.ctrAddO m.ctr m.fn
    if m.entry.isSome then d.opEndO m.entry st else d.lastErr m.fn st m.msgId
  match m.role with
  | .user =>
    let d := counts d
    match m.ret with
    | some (th, wd) =>
      if (d.thr th).stall = .amoReply wd then
        d.finish th wd (if st = 0 then mkWord (BitVec.ofNat 64 old) 0 else mkWord (BitVec.ofNat 64 st) 16)
      else d
    | none => d
  | .rdv => counts d
  | .fetch rid => d.recvDone rid st
  | .finish => d
  | .flush => if m.entry.isSome then d.opEndO m.entry st else d.lastErr m.fn st m.msgId

/-- A segment completes with `st` (R168); `acked` by an ACK, `old` for AMO_F. The slot is freed or becomes quiet (R171). -/
def Dev.segEnd (d : Dev) (i : Nat) (s : Slot) (st : Nat) (acked : Bool) (old : Nat) : Dev :=
  let d := if s.charged then d.ccRelease s.dev s.charge else d
  let d := if s.st = .wait then d.ccUpd s.dev (fun e => { e with waiting := e.waiting.erase i }) else d
  let d := ((((d.unsend i s).disown (.src i)).disown (.reply i)).freeAll s.bufs 1 (d.slotObj i)).readerRest s
  let m? := d.msgOf s.msg
  let mseq := (m?.map Msg.mseq).getD 0
  let d := if (s.op = 3 || s.op = 4) && mseq / 2 ^ 30 = 0 then d.streamDone (streamKey s.fn s.dev s.dfn) mseq else d
  let quiet := !(acked && s.attempt = 0) && s.lastTx.isSome
  let d := if quiet then
      d.updSlot i (fun s => { s with st := .quiet, doneAt := d.ps, charged := false, fail := none, bufs := [], toSend := 0, fresh := 0, asleep := false,
                                     reads := 0, writes := 0, data := 0 })
    else d.freeSlot i s
  match m? with
  | none => d
  | some m =>
    let fail := if st = 0 then m.fail else match m.fail with
      | some (k, x) => if k < s.seg then some (k, x) else some (s.seg, st)
      | none => some (s.seg, st)
    let m := { m with done := m.done + 1, fail := fail }
    let d := d.updMsg s.msg (fun _ => m)
    -- A rendezvous send that did not fail waits for its finish (R242), or has had it.
    if m.ended then { d with rma.msgs := Tbl.del s.msg d.rma.msgs }
    else if m.done < m.segs || (m.role == .rdv && st = 0) then d
    else d.finishMsg s.msg m ((m.fail.map Prod.snd).getD 0) old

/-- When a quiet slot is freed (R171); of a datagram `lastTx` is when its last cell left. -/
def Dev.quietEnd (d : Dev) (s : Slot) : Nat := max (s.lastTx.getD 0 + d.quietPs) s.doneAt

/-- SLOT_QUIET_EXPIRE. -/
def Dev.slotQuiet (d : Dev) (i : Nat) : Dev :=
  match d.slotOf i with
  | none => d
  | some s => if s.st != .quiet || d.halted then d else (d.advanceTo (d.quietEnd s)).freeSlot i s

/-! ### Attempts (R180 to R183) -/

def Dev.retryLimit (d : Dev) : Nat := max 1 (d.rd F.RMA_CFG_RETRY_LIMIT)

/-- interval[k] of R180 in ns. -/
def retryInterval (base : Nat) : Nat → Nat
  | 0 => max (4 * base) 2000
  | k + 1 => min (2 * retryInterval base k) 1000000

/-- The next attempt: the whole segment again (R165, R182, R338). -/
def Dev.retransmit (d : Dev) (i : Nat) (s : Slot) : Dev :=
  match d.msgOf s.msg with
  | none => d
  | some m =>
    let d := (d.unsend i s).disown (.src i)
    let d := if s.charged then d.ccRetx s.dev else d
    let n := m.dataCells s.len
    let s := { s with attempt := s.attempt + 1, busy := none, txAt := none, toSend := n + 1, st := .out, adm := d.nextTag, asleep := false }
    let d := ({ d with nextTag := d.nextTag + 1 }.ev 4 1 none (some s.fn)).fnCount s.fn 2
    let d := (d.putSlot i s).handCells s [d.headCell i s (s.desc.getD 0) n]
    if n = 0 then d else d.segRead i s

/-- The attempt is over: another one, or failure with `st` (R180, R181, R183). -/
def Dev.attemptOver (d : Dev) (i : Nat) (s : Slot) (st : Nat) : Dev :=
  if s.attempt < d.retryLimit then d.retransmit i s else d.updSlot i (fun s => { s with fail := some st })

/-- RMA_RETRY_TIMEOUT. -/
def Dev.retryTimeout (d : Dev) (i : Nat) : Dev :=
  match d.slotOf i with
  | none => d
  | some s =>
    match s.txAt with
    | none => d
    | some t =>
      if d.halted || s.op = 5 || !(s.st == .out || s.st == .reading) then d
      else (d.advanceTo (t + nsPs (retryInterval s.base s.attempt))).attemptOver i s (s.busy.getD Status.RETRY_EXHAUSTED)

/-- A cell of the slot has been injected: of the head cell the attempt's time and base estimate are kept (R180). -/
def Dev.injected (d : Dev) (i : Nat) (head : Bool) : Dev :=
  match d.slotOf i with
  | none => d
  | some s =>
    let d := if head && s.attempt = 0 then d.ccTouch s.dev else d
    let base := if head && s.attempt = 0 then d.ccBaseOf s.dev else s.base
    d.putSlot i { s with toSend := s.toSend - 1, fresh := min s.fresh (s.toSend - 1), lastTx := some d.ps, base := base,
                         txAt := if head then some d.ps else s.txAt,
                         sentNs := if head then d.ns else s.sentNs,
                         firstTx := if s.lastTx.isNone then d.ns else s.firstTx }

/-! ### Reads of source data (R444) -/

/-- Bytes of a segment's source have arrived, or their read has failed. -/
def Dev.srcRead (d : Dev) (i off n : Nat) (v : Option Nat) : Dev :=
  match d.slotOf i with
  | none => d
  | some s =>
    match v with
    | none => d.updSlot i (fun s => { s with fail := some Status.HOST_ERROR })
    | some v =>
      let d := d.putSlot i { s with reads := s.reads - 1, data := s.data + v % 2 ^ (8 * n) * 2 ^ (8 * off) }
      if s.reads ≤ 1 && s.fail.isNone then d.segHand i else d

/-! ### Fences (R66, R203 to R205) -/

/-- Threads of the scope that have a load or a store under way, `th` apart. -/
def Dev.scopeMem (d : Dev) (s : Scope) (th : Nat) : Bool :=
  d.eng.th.any (fun e => e.1 != th && e.2.scope e.1 == s && (match e.2.stall with
    | .load _ _ _ _ _ _ _ => true
    | .walk _ _ _ _ _ _ => true
    | .store => true
    | _ => false))

/-- The second stage of fence.durable: a FLUSH to each endpoint of the set, and the scope's own flush read (R204). The
FLUSHes are known as thread th's by its number in `ret`. -/
def Dev.fenceFlush (d : Dev) (th : Nat) : Dev :=
  let t := d.thr th
  let sc := t.scope th
  let x := d.scopeSt sc
  let d := x.durable.foldl (fun d ep =>
    let (d, r) := d.opStartTh (some th)
    (d.newMsg { kind := 8, role := .flush, fn := t.fn, dev := ep / 1024, dfn := ep % 1024, entry := r, scope := sc,
                ret := some (th, 0) }).1) d
  let own := x.gets && (d.flushAddr t.fn).isSome
  let d := d.stall th (.fence 3)
  match own, d.flushAddr t.fn with
  | true, some a =>
    let (d, tag) := d.hostRead t.fn a 0 (.flushFence th)
    if tag.isSome then d
    else
      let (d, r) := d.opStartTh (some th)
      if r.isSome then d.opEndO r Status.HOST_ERROR else d.lastErr t.fn Status.HOST_ERROR 0
  | _, _ => d

/-- A FLUSH or the flush read of thread th's fence.durable is out. -/
def Dev.flushesOut (d : Dev) (th : Nat) : Bool :=
  d.rma.msgs.any (fun e => e.2.role == .flush && e.2.ret == some (th, 0)) ||
  d.reads.any (fun e => !e.2.gone && !e.2.failed && (match e.2.why with
    | .flushFence t => t == th
    | _ => false))

/-- What a fence of kind k waits for is over. -/
def Dev.fenceOver (d : Dev) (th k : Nat) : Bool :=
  let sc := (d.thr th).scope th
  if k = 0 then !d.scopeMem sc th
  else if k = 3 then !d.flushesOut th
  else !d.scopeBusy sc

/-- The fence goes on: done, with the set emptied where it was durable, or to its second stage. -/
def Dev.fenceStep (d : Dev) (th k : Nat) : Dev :=
  if k = 2 then d.fenceFlush th
  else
    let d := if k = 3 then d.updScope ((d.thr th).scope th) (fun x => { x with durable := [], gets := false }) else d
    (d.updThr th (fun t => { t with st := .ready, stall := .none })).goOn th

/-- A fence that issues: it stalls only where it finds something outstanding. -/
def Dev.fence (d : Dev) (th k : Nat) : Dev :=
  let d := d.stall th (.fence k)
  let d := if d.fenceOver th k then d.fenceStep th k else d
  if k = 2 && (d.thr th).stall = .fence 3 && d.fenceOver th 3 then d.fenceStep th 3 else d

/-- The flush read of a fence.durable has ended (R204). -/
def Dev.fenceRead (d : Dev) (th : Nat) (ok : Bool) : Dev :=
  let t := d.thr th
  if ok then d
  else
    let (d, r) := d.opStartTh (some th)
    if r.isSome then d.opEndO r Status.HOST_ERROR else d.lastErr t.fn Status.HOST_ERROR 0

/-! ### What follows -/

/-- Cells of a datagram that have not left the device (R195): to be injected, held for a port that wakes (R305), or in a
port's queues. -/
def Dev.notLeft (d : Dev) (i : Nat) (s : Slot) : Bool :=
  s.toSend != 0 || d.rte.held.any (fun h => h.t.slot == some (i, d.slotGen i)) || d.ports.any (fun p => p.2.out.any (fun c => c.t.slot == some (i, d.slotGen i)))

/-- An operation that waited issues, where it can now: the thread takes its result. -/
def Dev.issueLater (d : Dev) (x : Option Nat × MsgOp) : Option Dev :=
  let d := { d with rma.later := d.rma.later.erase x }
  match x.1 with
  | some th =>
    if (d.thr th).stall != .msgSlot x.2 then some d
    else
      let (d, r) := d.issueOp (some th) x.2
      let wd := (x.2.ret.map Prod.snd).getD 0
      match r with
      | .wait => none
      | .status st => some (d.finish th wd (mkWord (BitVec.ofNat 64 st) (if x.2.op = 0x45 && st != 0 then 16 else 0)))
      | .taken => some (if x.2.op = 0x45 then d.stall th (.amoReply wd) else d.finish th wd (mkWord 0 0))
  | none =>
    let (d, r) := d.issueOp none x.2
    match r with
    | .wait => none
    | .status _ => some d
    | .taken => some d

/-- One thing that RMA does by itself as soon as it can. -/
def Dev.rmaStep (d : Dev) : Option Dev :=
  match d.rma.slots.find? (fun e => e.2.st != .quiet && (e.2.fail.isSome || (e.2.op == 5 && e.2.st == .out && !d.notLeft e.1 e.2))) with
  | some (i, s) => some (d.segEnd i s (s.fail.getD 0) false 0)
  | none => match d.rma.msgs.find? (fun e => e.2.taken < e.2.segs && d.slotFree e.2.fn (e.2.kind == 5)) with
    | some (n, m) => some (d.takeSlot n m)
    | none => match d.rma.slots.find? (fun e => e.2.st == .ord && (match d.msgOf e.2.msg with
          | some m => !d.ordBlocked e.2.msg m && !d.heldBehind e.2.msg m.queue
          | none => false)) with
      | some (i, _) => some (d.segStart i)
      | none => match d.rma.slots.find? (fun e => e.2.asleep && d.readerUp ((d.msgOf e.2.msg).bind Msg.queue)) with
      | some (i, s) => some (d.segRead i s)
      | none => match d.rma.later.findSome? d.issueLater with
        | some d => some d
        | none => match d.eng.th.find? (fun e => match e.2.stall with
            | .fence k => d.fenceOver e.1 k
            | _ => false) with
          | some (th, t) => match t.stall with
            | .fence k => some (d.fenceStep th k)
            | _ => none
          | none => none

/-- Such things, until none is left. -/
def Dev.rmaRun (d : Dev) : Nat → Dev
  | 0 => d
  | fuel + 1 => match d.rmaStep with
    | some d => d.rmaRun fuel
    | none => d

/-- As many steps as the state can give rise to. -/
def Dev.rmaGo (d : Dev) : Dev :=
  d.rmaRun (4 * (d.rma.msgs.foldl (fun n e => n + e.2.segs + 2) 0 + d.rma.slots.length + 6 * d.rma.later.length +
    18 * d.eng.th.length + 8))

/-- A command of RMA's. -/
def onRma (s : State) (f : Dev → Dev) : Host.Outcome State Fault Refusal := onDev s (fun d => if d.halted then d else (f d).rmaGo)

end Sys2Proof.Machine
end

