-- ==== Sys2Proof/Machine/Rx.lean ====
section
/-! DEFINITION. The receiving RMA (R172 to R179, R184 to R197): receive contexts, head checks, the Cairn, responses, placement,
gets, atomics, datagrams, arrival notification. -/

namespace Sys2Proof

/-! ### The descriptor of a head cell (R164) and the words of a response (R178) -/

def Cell.op (c : Cell) : Nat := c.p 0 8
def Cell.inl (c : Cell) : Bool := c.p 9 1 == 1
def Cell.dur (c : Cell) : Bool := c.p 11 1 == 1
def Cell.amoFn (c : Cell) : Nat := c.p 12 9
def Cell.srcFn (c : Cell) : Nat := c.p 22 10
def Cell.len (c : Cell) : Nat := c.p 32 32
def Cell.rwin (c : Cell) : Nat := c.p 64 32
def Cell.msgId (c : Cell) : Nat := c.p 96 32
def Cell.roff (c : Cell) : Nat := c.p 128 48
def Cell.mbits (c : Cell) : Nat := c.p 192 64
def Cell.mseq (c : Cell) : Nat := c.p 256 32
def Cell.rdvWin (c : Cell) : Nat := c.p 288 32
def Cell.rdvOff (c : Cell) : Nat := c.p 320 48
def Cell.a (c : Cell) : Nat := c.p 384 64
def Cell.b (c : Cell) : Nat := c.p 448 64
/-- Source endpoint (R210). -/
def Cell.src (c : Cell) : Nat := c.srcDev * 1024 + c.srcFn
/-- The key of R172. -/
def Cell.key (c : Cell) : Nat := c.srcDev * 2 ^ 20 + c.slot * 16 + c.gen
/-- Data cells that follow the head (R158, R166). -/
def Cell.count (c : Cell) : Nat := if (c.op = 1 || c.op = 3 || c.op = 5) && !c.inl then (c.len + 63) / 64 else 0
/-- Inline data (R164). -/
def Cell.inlData (c : Cell) : Nat := c.a + c.b * 2 ^ 64

end Sys2Proof

namespace Sys2Proof.Machine

/-! ### Receive contexts (R172 to R176) -/

def Dev.rxOf (d : Dev) (key : Nat) : Option Rx := Tbl.find d.rma.rx key
def Dev.putRx (d : Dev) (key : Nat) (x : Rx) : Dev := { d with rma.rx := Tbl.put key x d.rma.rx }
def Dev.updRx (d : Dev) (key : Nat) (g : Rx → Rx) : Dev := { d with rma.rx := Tbl.upd key g d.rma.rx }

/-- A command takes the cell that was delivered. -/
def Dev.taken (d : Dev) (c : Cell) : Dev := { d with rma.inbox := d.rma.inbox.erase c }

/-- A context may be opened for function fn (R174). -/
def Dev.rxRoom (d : Dev) (fn : Nat) : Bool :=
  d.rma.rx.length < 262144 && (d.rma.rx.filter (fun e => e.2.fn == fn)).length < d.rd F.RMA_FN_CFG_RX_MAX fn

/-- The context of a cell that has arrived: opened for the first one, its idle time restarted for any. -/
def Dev.rxJoin (d : Dev) (c : Cell) : Option Dev :=
  match d.rxOf c.key with
  | some _ => some (d.updRx c.key (fun x => { x with last := d.ps }))
  | none => if d.rxRoom c.dstFn then some (d.putRx c.key { fn := c.dstFn, last := d.ps }) else none

/-- Every cell has been counted. -/
def Rx.complete (x : Rx) : Bool := x.head.isSome && x.count == some x.got

/-- The flush read of context `key` answers no one. -/
def Dev.dropFlush (d : Dev) (key : Nat) : Dev :=
  { d with reads := d.reads.map (fun (e : Nat × HostRd) => match e.2.why with
      | .flushReq k => if k = key then (e.1, { e.2 with why := .own .gone 0 0 }) else e
      | _ => e) }

/-- The context closes: what it holds is returned, and what goes on for it finds no owner (R176). -/
def Dev.rxClose (d : Dev) (key : Nat) : Dev :=
  match d.rxOf key with
  | none => d
  | some x =>
    let d := { (d.freeAll x.bufs 0 key) with rma.rx := Tbl.del key d.rma.rx }
    let d := ((d.disown (.rx key)).disown (.ud key)).dropFlush key
    let d := (d.rma.gets.filter (fun e => e.2.cell.key == key)).foldl (fun d e =>
      { d.disown (.getSrc e.1) with rma.gets := Tbl.del e.1 d.rma.gets }) d
    (d.rma.amos.filter (fun e => e.2.cell.key == key)).foldl (fun d e =>
      { d.disown (.amo e.1) with rma.amos := Tbl.del e.1 d.rma.amos }) d

/-! ### Responses (R178) -/

/-- A cell of class RSP for the requester of head cell c. -/
def Dev.rspCell (d : Dev) (c : Cell) (idx : Nat) (head last : Bool) (stamp pay : Nat) : TxCell :=
  { cell := (mkCell c.srcDev c.srcFn d.myDev c.slot c.gen idx head last 1 pay).setBits 8 16 stamp, fn := c.dstFn, cls := 1,
    retx := false, slot := none, own := true, col := none, last := last }

/-- The payload of a response. -/
def rspPay (kind st : Nat) (durable cairn : Bool) (cmark msgId r : Nat) : Nat :=
  kind + st % 2 ^ 16 * 2 ^ 8 + (if durable then 2 ^ 24 else 0) + (if cairn then 2 ^ 25 else 0) + cmark % 4 * 2 ^ 26 +
  msgId * 2 ^ 32 + r % 2 ^ 64 * 2 ^ 128

def Dev.sendRsp (d : Dev) (c : Cell) (stamp : Nat) (pay : Nat) : Dev :=
  { d with sch.rsp := d.sch.rsp ++ [d.rspCell c 0 true true stamp pay] }

/-- The answer to a head cell stands in the request's Cairn entry; a busy NACK removes the entry (R186). -/
def Dev.cairnDone (d : Dev) (c : Cell) (kind st r : Nat) (durable : Bool := false) : Dev :=
  match Tbl.find d.rma.cairn c.key with
  | none => d
  | some e =>
    if !nonIdem c.op || e.msgId != c.msgId then d
    else if kind = 2 then { d with rma.cairn := Tbl.del c.key d.rma.cairn }
    else { d with rma.cairn := Tbl.put c.key { e with resp := some (kind, st, r), durable := durable } d.rma.cairn }

/-- The stamp of a response: of the cell that completed the count, or of the head cell (DEDUCED, log entry 23). -/
def Rx.stamp (x : Rx) (c : Cell) : Nat := if x.complete then x.tstamp else c.tstamp

/-- A NACK is sent and the context closes. -/
def Dev.nack (d : Dev) (key kind st : Nat) : Dev :=
  match d.rxOf key with
  | none => d
  | some x => match x.head with
    | none => d.rxClose key
    | some c =>
      let d := d.sendRsp c (x.stamp c) (rspPay kind st false false x.cmark c.msgId 0)
      (d.cairnDone c kind st 0).rxClose key

def Dev.nackErr (d : Dev) (key st : Nat) : Dev := d.nack key 3 st
def Dev.nackBusy (d : Dev) (key st : Nat) : Dev := d.nack key 2 st

/-! ### The order of atomics (R193) -/

/-- The word of an atomic: the host port and the 8 bytes at the bus address (R124, R193). Atomics of 4 bytes count as on the
word of 8 that holds theirs, so that overlapping ones take effect one at a time (DESIGN CHOICE, log entry 36). -/
def AmoJob.word (j : AmoJob) : Option (Nat × Nat) := j.addr.map (fun x => (x.1 / 256, x.2 / 8))

/-- Atomics run one at a time on a word, in the order their heads were admitted: one whose address is not yet known holds
back those behind it. -/
def Dev.amoGo (d : Dev) : Nat → Dev
  | 0 => d
  | fuel + 1 =>
    let l := d.rma.amos
    match l.find? (fun e => !e.2.reading && e.2.addr.isSome &&
        !l.any (fun x => x.1 < e.1 && (x.2.addr.isNone || x.2.word == e.2.word))) with
    | none => d
    | some (id, j) =>
      let (fn, a) := j.addr.getD (0, 0)
      let n := amoSize (j.cell.amoFn % 16)
      let d := { d with rma.amos := Tbl.put id { j with reading := true } d.rma.amos }
      let (d, t) := d.hostRead fn a n (.own (.amo id) 0 n)
      if t.isSome then d.amoGo fuel else (d.nackErr j.cell.key Status.HOST_ERROR).amoGo fuel

def Dev.amoRun (d : Dev) : Dev := d.amoGo (d.rma.amos.length + 1)

/-- A context ends otherwise than by its answer: the atomics that it held back go on. -/
def Dev.rxEnd (d : Dev) (key : Nat) : Dev := (d.rxClose key).amoRun

/-- A message that fails after its head was admitted: a receive that it matched completes with the status too (R235). -/
def Dev.rxFail (d : Dev) (key st : Nat) : Dev :=
  match d.rxOf key with
  | none => d
  | some x =>
    let d := d.nackErr key st
    match x.recv with
    | some rid => d.recvDone rid st
    | none => d

/-- The response is known: sent by RMA_RESPONSE_SEND, or once the flush read of DUR has completed (R177). -/
def Dev.ready_ (d : Dev) (key kind st r : Nat) : Dev :=
  match d.rxOf key with
  | none => d
  | some x =>
    let d := d.updRx key (fun x => { x with resp := some (kind, st, r) })
    match x.head with
    | some c => if c.dur then d else d.cairnDone c kind st r
    | none => d

/-! ### Arrival notification (R175, R197) -/

/-- The notification that RMA_FN_ARR selects for an operation. -/
def Dev.arrSel (d : Dev) (fn op : Nat) : Bool :=
  match op with
  | 1 => d.flag F.RMA_FN_ARR_PUT fn
  | 2 => d.flag F.RMA_FN_ARR_GET fn
  | 6 => d.flag F.RMA_FN_ARR_AMO fn
  | 7 => d.flag F.RMA_FN_ARR_AMO fn
  | _ => false

/-- Step 4 of R175. -/
def Dev.arrRoom (d : Dev) (key : Nat) (c : Cell) : Option Dev :=
  let f := c.dstFn
  if !d.arrSel f c.op || !d.flag F.RMA_FN_ARR_EV_EN f then some d
  else (d.evRoomFor (d.rd F.RMA_FN_ARR_SLOT f)).map (fun c => d.updRx key (fun x => { x with evRoom := some c }))

/-- A request that has been served notifies. -/
def Dev.arrived (d : Dev) (key : Nat) (c : Cell) : Dev :=
  let f := c.dstFn
  let room := match d.rxOf key with
    | some x => x.evRoom.isSome
    | none => false
  let d := d.updRx key (fun x => { x with evRoom := none })
  if !d.arrSel f c.op then d
  else
    let d := if !d.flag F.RMA_FN_ARR_CTR_EN f then d
      else
        let n := d.rd F.RMA_FN_ARR_CTR f
        let mine := d.ctrOwner n = some f
        let d := d.ctrAdd n 1 f
        if mine then d else d.ev 4 14 none (some f)
    if room then d.arrivalEvent f (d.rd F.RMA_FN_ARR_SLOT f) (d.rd F.RMA_FN_ARR_ENTRY f) c.op c.src c.roff c.len c.a else d

/-! ### The response to a request (R177, R178) -/

/-- The final response of a context, with what follows it. -/
def Dev.answer (d : Dev) (key kind st r : Nat) (durable : Bool) : Dev :=
  match d.rxOf key with
  | none => d
  | some x => match x.head with
    | none => d
    | some c =>
      let d := d.sendRsp c (x.stamp c) (rspPay kind st durable false x.cmark c.msgId r)
      let d := d.cairnDone c kind st r durable
      let d := if kind = 1 then d.arrived key c else d
      d.rxClose key

/-- The flush read of a FLUSH or DUR request: ACK at once where no write can lie ahead of it (R203, R204, R599). -/
def Dev.flushRx (d : Dev) (key r : Nat) : Dev :=
  match d.rxOf key with
  | none => d
  | some x =>
    match d.flushAddr x.fn with
    | none => d.answer key 1 0 r true
    | some a =>
      let (d, tag) := d.hostRead x.fn a 0 (.flushReq key)
      if tag.isSome then d.updRx key (fun x => { x with flushing := true }) else d.answer key 3 Status.HOST_ERROR 0 false

/-- RMA_RESPONSE_SEND. An eager message that became unexpected is never durable (R236). -/
def Dev.responseSend (d : Dev) (key : Nat) : Dev :=
  match d.rxOf key with
  | none => d
  | some x => match x.head, x.resp with
    | some c, some (k, st, r) =>
      if x.flushing then d
      else
        let d := match x.recv with
          | some rid => (d.updRx key (fun x => { x with recv := none })).recvDone rid 0
          | none => d
        let ux := match x.place with
          | .ux _ => true
          | .none => false
          | .win _ _ _ => false
          | .drop => false
        if k = 1 && c.dur && !ux then d.flushRx key r else d.answer key k st r false
    | _, _ => d

/-- DUR_FLUSH_DONE. -/
def Dev.durDone (d : Dev) (key : Nat) (cpl : Cpl) : Dev :=
  match d.findRead (.flushReq key) with
  | none => d
  | some tag =>
    let (d, h) := d.takeRead tag 0 cpl
    match h, d.rxOf key with
    | some _, some x =>
      let r := match x.resp with
        | some (_, _, r) => r
        | none => 0
      if cpl = .err then d.answer key 3 Status.HOST_ERROR 0 false else d.answer key 1 0 r true
    | _, _ => d

/-! ### Placement (R166, R173, R201, R235, R236) -/

/-- Placement writes of `n` bytes, counted for function `fn` (R569). -/
def Dev.placeAt (d : Dev) (own : Own) (fn h off n data : Nat) : Dev × Nat × Nat :=
  let (d, k, st) := d.winWriteAll own h off n data (d.flag F.RMA_FN_CFG_RELAXED fn)
  (if st = 0 then d.fnCount fn 7 n else d, k, st)

/-- The copy of unexpected data to the receive that a post matched to it (R237). -/
def Dev.uxCopy (d : Dev) (f id : Nat) : Dev :=
  match (d.dom f).ux.find? (fun u => u.id == id) with
  | none => d
  | some u => match u.matched, u.rx with
    | some rid, none => match Tbl.find d.mtc.active rid with
      | none => d
      | some a =>
        let n := min u.mail.len a.recv.len
        let (d, st) := d.winUse a.recv.win (remotePeer (u.mail.src / 1024) (u.mail.src % 1024)) rRW
          (if n = 0 then 0 else a.recv.off) n
        let (d, k, st) := if st != 0 then (d, 0, st) else d.placeAt (.uxCopy f id) f a.recv.win a.recv.off n u.data
        { d with mtc.active := Tbl.put rid { a with writes := k, status := st } d.mtc.active }
    | _, _ => d

/-- Unexpected data is all stored. -/
def Dev.uxStored (d : Dev) (f id : Nat) : Dev :=
  (d.updDom f (fun m => { m with ux := m.ux.map (fun (u : UxMsg) => if u.id = id then { u with rx := none } else u) })).uxCopy f id

/-- Bytes of data cell i of a message, placed as its context says. -/
def Dev.placeCell (d : Dev) (key i data : Nat) : Dev :=
  match d.rxOf key with
  | none => d
  | some x => match x.place with
    | .none => d
    | .drop => d
    | .ux id => d.updDom x.fn (fun m => { m with ux := m.ux.map (fun (u : UxMsg) =>
        if u.id = id then { u with data := u.data + data % 2 ^ (8 * min 64 (u.mail.len - 64 * i)) * 2 ^ (512 * i) } else u) })
    | .win h off limit =>
      let n := min 64 (limit - 64 * i)
      if n = 0 then d
      else
        let (d, k, st) := d.placeAt (.rx key) x.fn h (off + 64 * i) n (data % 2 ^ (8 * n))
        if st != 0 then d.rxFail key st else d.updRx key (fun x => { x with writes := x.writes + k })

/-- The record of R196 follows the data. -/
def Dev.udRecord (d : Dev) (key : Nat) : Dev :=
  match d.rxOf key with
  | none => d
  | some x => match x.head with
    | none => d
    | some c =>
      let f := x.fn
      let prod := d.rd F.RMA_FN_UD_IDX_PROD f
      let off := prod % 2 ^ d.rd F.RMA_FN_UD_RING_LOG2_ENTRIES f * 2 ^ d.rd F.RMA_FN_UD_RING_LOG2_SIZE f
      let rec_ := c.len + c.src * 2 ^ 32 + c.mbits * 2 ^ 64 + x.doneNs * 2 ^ 128 + prod * 2 ^ 192
      let (d, k, st) := d.winWriteAll (.ud key) (d.rd F.RMA_FN_UD_RING_WIN f) off 64 rec_
      if st != 0 then (d.ev 4 19 none (some f)).rxClose key
      else if k != 0 then d.updRx key (fun x => { x with udStage := 2, writes := k })
      else (d.wr F.RMA_FN_UD_IDX_PROD f (prod + 1)).rxClose key

/-- A datagram's ring writes begin where no other of its function is in progress (R196). One whose ring window fails its check
is discarded (DESIGN CHOICE, log entry 34). -/
def Dev.udGo (d : Dev) (f : Nat) : Nat → Dev
  | 0 => d
  | fuel + 1 =>
    let mine := d.rma.rx.filter (fun e => e.2.fn == f && (match e.2.head with
      | some c => c.op == 5
      | none => false))
    if mine.any (fun e => e.2.udStage != 0) then d
    else match mine.find? (fun e => e.2.complete) with
      | none => d
      | some (key, x) => match x.head with
        | none => d
        | some c =>
          let h := d.rd F.RMA_FN_UD_RING_WIN f
          let n := d.rd F.RMA_FN_UD_RING_LOG2_ENTRIES f
          let prod := d.rd F.RMA_FN_UD_IDX_PROD f
          let off := prod % 2 ^ n * 2 ^ d.rd F.RMA_FN_UD_RING_LOG2_SIZE f
          if seqSub prod (d.rd F.RMA_FN_UD_IDX_CONS f) = 2 ^ n then ((d.ev 4 19 none (some f)).rxClose key).udGo f fuel
          else
            let (d, st) := d.winUse h (localPeer f false) rLW off (64 + c.len)
            let data := if c.inl then c.inlData else x.staged.foldl (fun v (e : Nat × Nat) => v + e.2 * 2 ^ (512 * e.1)) 0
            let (d, k, st) := if st != 0 then (d, 0, st)
              else d.placeAt (.ud key) f h (off + 64) c.len (data % 2 ^ (8 * c.len))
            if st != 0 then ((d.ev 4 19 none (some f)).rxClose key).udGo f fuel
            else if k != 0 then d.updRx key (fun x => { x with udStage := 1, writes := k })
            else (d.udRecord key).udGo f fuel

def Dev.udRun (d : Dev) (f : Nat) : Dev := d.udGo f (d.rma.rx.length + 1)

/-- A ring write that waited for its translation is issued, or has failed. -/
def Dev.udWrote (d : Dev) (key : Nat) (ok : Bool) : Dev :=
  match d.rxOf key with
  | none => d
  | some x =>
    if !ok then ((d.ev 4 19 none (some x.fn)).rxClose key).udRun x.fn
    else if 1 < x.writes then d.updRx key (fun x => { x with writes := x.writes - 1 })
    else if x.udStage = 1 then (d.udRecord key).udRun x.fn
    else ((d.wr F.RMA_FN_UD_IDX_PROD x.fn (d.rd F.RMA_FN_UD_IDX_PROD x.fn + 1)).rxClose key).udRun x.fn

/-! ### Progress of a context -/

/-- What follows once every cell is counted and every write issued (R177, R236). -/
def Dev.rxProgress (d : Dev) (key : Nat) : Dev :=
  match d.rxOf key with
  | none => d
  | some x =>
    if !x.complete || x.writes != 0 || x.resp.isSome then d
    else match x.place, x.head with
      | .none, some c => if c.op = 5 then d.udRun x.fn else d
      | .none, none => d
      -- A get or an atomic answers when its read ends.
      | .drop, _ => if d.rma.gets.any (fun e => e.2.cell.key == key) || d.rma.amos.any (fun e => e.2.cell.key == key) then d
        else d.rxClose key
      | .win _ _ _, _ => d.ready_ key 1 0 0
      | .ux id, _ => (d.ready_ key 1 0 0).uxStored x.fn id

/-- Placement writes of the context that wait for a PAGE_STATE event (R134): their numbers. -/
def Dev.rxWaits (d : Dev) (key : Nat) : List Nat :=
  (d.xlt.waits.filter (fun e => match e.2.2.1 with
    | .accW o _ _ _ => o == .rx key
    | _ => false)).map Prod.fst

/-- Buffers that a context holds once its cells are placed stay while some of them wait for a PAGE_STATE event (R134). -/
def Dev.rxUnhold (d : Dev) (key : Nat) : Dev :=
  match d.rxOf key with
  | none => d
  | some x =>
    if x.place = .none || !x.staged.isEmpty || !(d.rxWaits key).isEmpty then d
    else (d.freeAll x.bufs 0 key).updRx key (fun x => { x with bufs := [] })

/-- A cell that is not counted after all: its writes that wait, from number `n` on, go with it. -/
def Dev.rxUncount (d : Dev) (key idx n : Nat) : Dev :=
  let l := (d.rxWaits key).filter (fun id => n ≤ id)
  { d with xlt.waits := d.xlt.waits.filter (fun e => !l.contains e.1) }.updRx key (fun x =>
    { x with bitmap := x.bitmap ^^^ 2 ^ idx, got := x.got - 1, writes := x.writes - l.length })

/-- Cell idx, of whose writes those from number `n` on have met PAGE_STATE, is held in the Depot as an early cell is, 32 to a
buffer; where the pool refuses it is discarded, and inline data with their head, which is answered busy (R134, R173). -/
def Dev.rxHold (d : Dev) (key idx n : Nat) : Dev :=
  match d.rxOf key with
  | none => d
  | some x =>
    if (d.rxWaits key).length ≤ 32 * x.bufs.length || !(d.rxWaits key).any (fun id => n ≤ id) then d
    else match d.alloc 0 key 1 with
      | (d, some l) => d.updRx key (fun x => { x with bufs := x.bufs ++ l })
      | (d, none) =>
        let d := d.ev 4 8 none (some x.fn)
        if x.head.any Cell.inl then match x.recv with
          | some rid => (d.nackBusy key Status.RX_BUSY).recvDone rid Status.RX_BUSY
          | none => d.nackBusy key Status.RX_BUSY
        else d.rxUncount key idx n

/-- A placement write that waited for its translation is issued, or has failed. -/
def Dev.rxWrote (d : Dev) (key : Nat) (ok : Bool) : Dev :=
  if ok then ((d.updRx key (fun x => { x with writes := x.writes - 1 })).rxUnhold key).rxProgress key
  else d.rxFail key Status.WIN_XLT

/-- The head's message is placed: inline data, and what was staged (R173). -/
def Dev.rxPlace (d : Dev) (key : Nat) (p : Place) : Dev :=
  match d.rxOf key with
  | none => d
  | some x => match x.head with
    | none => d
    | some c =>
      let d := d.updRx key (fun x => { x with place := p, staged := [] })
      let cells := if c.inl then [(0, c.inlData)] else x.staged
      let n := d.nextTag
      (((cells.foldl (fun d (e : Nat × Nat) => d.placeCell key e.1 e.2) d).rxUnhold key).rxHold key 0 n).rxProgress key

/-- A data cell is staged: one buffer holds 32 of them (R173). -/
def Dev.rxStage (d : Dev) (key : Nat) (x : Rx) : Dev × Bool :=
  if x.staged.length < 32 * x.bufs.length then (d, true)
  else match d.alloc 0 key 1 with
    | (d, some l) => (d.updRx key (fun x => { x with bufs := x.bufs ++ l }), true)
    | (d, none) => (d.ev 4 8 none (some x.fn), false)

/-- A cell is counted (R172, R178). -/
def Dev.rxCount (d : Dev) (key : Nat) (c : Cell) : Dev :=
  d.updRx key (fun x =>
    let x := { x with bitmap := x.bitmap ||| 2 ^ c.idx, got := x.got + 1, cmark := max x.cmark c.cmark,
                      count := if x.count.isNone && c.last then some (c.idx + 1) else x.count }
    if x.complete then { x with tstamp := c.tstamp, doneNs := d.ns } else x)

/-- A data cell is placed (R134, R173). -/
def Dev.rxPut_ (d : Dev) (key : Nat) (c : Cell) : Dev :=
  let n := d.nextTag
  (((d.rxCount key c).placeCell key c.idx c.pay.toNat).rxHold key c.idx n).rxProgress key

/-- RX_DATA_CELL (R173). -/
def Dev.rxData (d : Dev) (c : Cell) : Dev :=
  let d := d.taken c
  let key := c.key
  match d.rxJoin c with
  | none => d
  | some d => match d.rxOf key with
    | none => d
    | some x =>
      if x.bitmap.testBit c.idx || (x.head.isSome && x.count.getD 0 ≤ c.idx) then
        (d.ev 4 7 none (some x.fn)).updRx key (fun x => { x with cmark := max x.cmark c.cmark })
      else
        let staging := match x.place with
          | .none => true
          | .win _ _ _ => false
          | .ux _ => false
          | .drop => false
        if !staging then d.rxPut_ key c
        else
          let (d, ok) := d.rxStage key x
          if !ok then d.updRx key (fun x => { x with cmark := max x.cmark c.cmark })
          else
            let d := d.updRx key (fun x => { x with staged := Tbl.put c.idx c.pay.toNat x.staged })
            (d.rxCount key c).rxProgress key

/-! ### Head cells (R175, R186) -/

/-- Entries that lie on-die, and those in the Depot (R185). -/
def Dev.cairnDie (d : Dev) : Nat := (d.rma.cairn.filter (fun e => !e.2.spilled)).length
def Dev.cairnDepot (d : Dev) : Nat := (d.rma.cairn.filter (fun e => e.2.spilled)).length

/-- The entry of a key: a look-up that misses on-die and hits in the Depot makes one Depot read (R185). -/
def Dev.cairnLook (d : Dev) (key : Nat) : Dev × Option Cairn :=
  match Tbl.find d.rma.cairn key with
  | none => (d, none)
  | some e => (if e.spilled then d.depWake.ev 11 0 else d, some e)

/-- The oldest entry on-die, which makes room by spilling. -/
def Dev.cairnOldest (d : Dev) : Option (Nat × Cairn) :=
  d.rma.cairn.foldl (fun b e => if e.2.spilled then b else match b with
    | none => some e
    | some x => if e.2.born < x.2.born then some e else b) none

/-- A new entry in PENDING; none where neither place has room. The oldest entries spill to the Depot (R185). -/
def Dev.cairnMake (d : Dev) (c : Cell) : Option Dev :=
  let e : Cairn := { msgId := c.msgId, born := d.ns, life := max 1000 (d.rd F.RMA_CAIRN_CFG_LIFE_US) }
  let new := fun (d : Dev) => { d with rma.cairn := Tbl.put c.key e d.rma.cairn }
  if d.cairnDie < 262144 then some (new d)
  else if min 4194304 (d.rd F.RMA_CAIRN_CFG_SPILL_MAX) ≤ d.cairnDepot then none
  else match d.cairnOldest with
    | none => none
    | some (k, e) => some (new { d with rma.cairn := Tbl.put k { e with spilled := true } d.rma.cairn })

/-- The look-up of step 2; `true` where the request goes on. An entry of another MSG_ID is released (R186). -/
def Dev.cairnStep (d : Dev) (c : Cell) : Dev × Bool :=
  let key := c.key
  let fresh := fun (d : Dev) => match d.cairnMake c with
    | none => (d.nackBusy key Status.CAIRN_BUSY, false)
    | some d => (d, true)
  match d.cairnLook key with
  | (d, none) => fresh d
  | (d, some e) =>
    if e.msgId != c.msgId then fresh { d with rma.cairn := Tbl.del key d.rma.cairn }
    else
      let d := d.updRx key (fun x => { x with place := .drop })
      match e.resp with
      | none => ((d.ev 4 11 none (some c.dstFn)).rxProgress key, false)
      | some (k, st, r) =>
        let mark := match d.rxOf key with
          | some x => x.cmark
          | none => c.cmark
        (((d.ev 4 10 none (some c.dstFn)).sendRsp c c.tstamp (rspPay k st e.durable true mark c.msgId r)).rxProgress key, false)

/-- A second copy of a head cell that its context holds, once step 1 has passed: a non-idempotent one meets the Cairn (R186).
One with another MSG_ID belongs to a later use of the slot, which R171 keeps from meeting a live context: the context
closes and the head cell begins anew (DEDUCED, log entry 23). -/
def Dev.headAgain (d : Dev) (c : Cell) : Dev × Bool :=
  let mark := match d.rxOf c.key with
    | some x => max x.cmark c.cmark
    | none => c.cmark
  let d := d.updRx c.key (fun x => { x with last := d.ps, cmark := mark })
  let same := match (d.rxOf c.key).bind Rx.head with
    | some h => h.msgId == c.msgId
    | none => false
  if !nonIdem c.op then (d.ev 4 7 none (some c.dstFn), false)
  else if !same then (d.rxEnd c.key, true)
  else match d.cairnLook c.key with
    -- Its entry is gone: it goes on as a request that has none.
    | (d, none) => (d.rxEnd c.key, true)
    | (d, some e) => match e.resp with
      | none => (d.ev 4 11 none (some c.dstFn), false)
      | some (k, st, r) =>
        ((d.ev 4 10 none (some c.dstFn)).sendRsp c c.tstamp (rspPay k st e.durable true mark c.msgId r), false)

/-- The head cell stands in its context; staged cells beyond its count are discarded (R173). -/
def Dev.headIn (d : Dev) (c : Cell) : Dev :=
  match d.rxOf c.key with
  | none => d
  | some x =>
    let n := c.count
    let keep := x.staged.filter (fun (e : Nat × Nat) => e.1 < n)
    let d := d.ev 4 7 none (some c.dstFn) (x.staged.length - keep.length)
    d.updRx c.key (fun x => { x with head := some c, count := some n, staged := keep, got := keep.length,
                                     bitmap := x.bitmap % 2 ^ n, cmark := max x.cmark c.cmark, tstamp := c.tstamp,
                                     doneNs := d.ns })

/-- The answer of step 1, which comes before the Cairn and leaves its entries as they are. -/
def Dev.refused (d : Dev) (c : Cell) : Dev :=
  let mark := match d.rxOf c.key with
    | some x => max x.cmark c.cmark
    | none => c.cmark
  let stamp := match d.rxOf c.key with
    | some x => if x.head = some c then x.stamp c else c.tstamp
    | none => c.tstamp
  d.sendRsp c stamp (rspPay 3 Status.FN_OFF false false mark c.msgId 0)

/-- Steps 1 and 2 of R175 for a head cell; `k` goes on with the operation's own checks. -/
def Dev.rxHead (d : Dev) (c : Cell) (k : Dev → Dev) : Dev :=
  let d := (d.taken c).ev 4 6 none (some c.dstFn)
  let again := match d.rxOf c.key with
    | some x => x.head.isSome
    | none => false
  let (d, go) :=
    if !again then (d, true)
    else if d.fnOn c.dstFn then d.headAgain c
    else if c.op = 5 then (d.ev 4 19 none (some c.dstFn), false)
    else (d.refused c, false)
  if !go then d
  else match d.rxJoin c with
    | none => if c.op = 5 then d.ev 4 19 none (some c.dstFn)
      else d.sendRsp c c.tstamp (rspPay 2 Status.RX_BUSY false false c.cmark c.msgId 0)
    | some d =>
      let d := d.headIn c
      if !d.fnOn c.dstFn then
        if c.op = 5 then (d.ev 4 19 none (some c.dstFn)).rxClose c.key else (d.refused c).rxClose c.key
      else if !nonIdem c.op then k d
      else
        let (d, go) := d.cairnStep c
        if go then k d else d

/-- Steps 3 and 4 of R175 for an operation on a window. -/
def Dev.rxWindow (d : Dev) (c : Cell) (right : Nat) (k : Dev → Dev) : Dev :=
  let (d, st) := d.winUse c.rwin (remotePeer c.srcDev c.srcFn) right (if c.len = 0 then 0 else c.roff) c.len
  if st != 0 then d.nackErr c.key st
  else match d.arrRoom c.key c with
    | some d => k d
    | none => (d.evBusy (d.rd F.RMA_FN_ARR_SLOT c.dstFn) c.dstFn).nackBusy c.key Status.RX_BUSY

/-- A head cell of class REQ for this device that carries operation `op`. -/
def Dev.isHead (d : Dev) (c : Cell) (op : Nat) : Bool :=
  c.cls == 0 && c.head && c.dstDev == d.myDev && c.op == op

/-- RX_PUT. -/
def Dev.rxPut (d : Dev) (c : Cell) : Dev :=
  d.rxHead c (fun d => d.rxWindow c rRW (fun d => d.rxPlace c.key (.win c.rwin c.roff c.len)))

/-- A datagram is checked against its ring (R195, R196). -/
def Dev.rxUd (d : Dev) (c : Cell) : Dev :=
  d.rxHead c (fun d =>
    if d.rd F.RMA_FN_UD_RING_WIN c.dstFn = 0 || 2 ^ d.rd F.RMA_FN_UD_RING_LOG2_SIZE c.dstFn < c.len + 64 then
      (d.ev 4 19 none (some c.dstFn)).rxClose c.key
    else d.rxProgress c.key)

/-- RX_FLUSH (R204). -/
def Dev.rxFlush (d : Dev) (c : Cell) : Dev :=
  d.rxHead c (fun d => (d.updRx c.key (fun x => { x with resp := some (1, 0, 0) })).flushRx c.key 0)

/-- RX_RELEASE (R188). -/
def Dev.rxRelease (d : Dev) (c : Cell) : Dev :=
  let d := (d.taken c).ev 4 6 none (some c.dstFn)
  match d.cairnLook c.key with
  | (d, some e) => if e.msgId = c.msgId then { d with rma.cairn := Tbl.del c.key d.rma.cairn } else d.ev 4 12 none (some c.dstFn)
  | (d, none) => d.ev 4 12 none (some c.dstFn)

/-- RX_IDLE_CLOSE (R176); a held message stays (R225). A receive matched to the message whose placement has not ended stays
active, and an unexpected message not wholly stored stays listed: the spec names no end for them (DESIGN CHOICE, log entry
36). -/
def Dev.rxIdle (d : Dev) (key : Nat) : Dev :=
  match d.rxOf key with
  | none => d
  | some x =>
    if x.held then d
    else
      let d := d.advanceTo (x.last + usPs (max 100 (d.rd F.RMA_CFG_RX_IDLE_US)))
      -- A receive whose placement has ended completes all the same (R244).
      let d := match x.recv, x.resp with
        | some rid, some _ => d.recvDone rid 0
        | _, _ => d
      let d := d.ev 4 9 none (some x.fn)
      let d := match x.head with
        | some c => if c.op = 5 then d.ev 4 19 none (some x.fn) else d
        | none => d
      (d.rxEnd key).udRun x.fn

/-- CAIRN_EXPIRE (R187). -/
def Dev.cairnExpire (d : Dev) (key : Nat) : Dev :=
  match Tbl.find d.rma.cairn key with
  | none => d
  | some e => { d.advanceToNs (e.born + e.life * 1000) with rma.cairn := Tbl.del key d.rma.cairn }

/-! ### Gets at the target (R190) -/

/-- The reply cells of a get whose source has been read; the context then closes. -/
def Dev.getReply (d : Dev) (job : Nat) : Dev :=
  match Tbl.find d.rma.gets job with
  | none => d
  | some j =>
    let c := j.cell
    let n := (c.len + 63) / 64
    let l := (List.range n).map (fun i => d.rspCell c i false (i + 1 = n) c.tstamp (bitsOf j.data (512 * i) 512))
    (({ d with sch.rsp := d.sch.rsp ++ l }).arrived c.key c).rxClose c.key

/-- RX_GET. -/
def Dev.rxGet (d : Dev) (c : Cell) : Dev :=
  d.rxHead c (fun d => d.rxWindow c rRR (fun d =>
    let id := d.nextTag
    let d := { d with nextTag := id + 1, rma.gets := Tbl.put id { cell := c, win := c.rwin } d.rma.gets }
    let d := d.updRx c.key (fun x => { x with place := .drop })
    let (d, n, st) := d.winReadAll (.getSrc id) c.rwin c.roff c.len
    if st != 0 then d.nackErr c.key st
    else if n = 0 then d.getReply id
    else { d with rma.gets := Tbl.upd id (fun j => { j with reads := n }) d.rma.gets }))

/-- A part of a get's source has been read, or its read has failed with `st`. -/
def Dev.getRead (d : Dev) (job off n : Nat) (v : Option Nat) (st : Nat) : Dev :=
  match Tbl.find d.rma.gets job with
  | none => d
  | some j => match v with
    | none => d.nackErr j.cell.key st
    | some v =>
      let j := { j with reads := j.reads - 1, data := j.data + v % 2 ^ (8 * n) * 2 ^ (8 * off) }
      let d := { d with rma.gets := Tbl.put job j d.rma.gets }
      if j.reads = 0 then d.getReply job else d

/-! ### Atomics (R192, R193) -/

/-- The address of an atomic's word, or none. -/
def Dev.amoAddr (d : Dev) (id : Nat) (x : XRes) : Dev :=
  match Tbl.find d.rma.amos id with
  | none => d
  | some j => match x with
    | .ok a => ({ d with rma.amos := Tbl.put id { j with addr := some (d.winFn (d.winOf j.win), a) } d.rma.amos }).amoRun
    | .fault => (d.nackErr j.cell.key Status.WIN_XLT).amoRun
    | .page _ => d
    | .wait => d

/-- The operation and datatype of AMO_FN that R60 allows (R158). -/
def amoFnOk (fn : Nat) : Bool := amoLegal (fn / 16) (fn % 16) true

/-- RX_AMO and RX_AMO_F. An unaligned address is refused before it is translated (DEDUCED, log entry 23). -/
def Dev.rxAmo (d : Dev) (c : Cell) : Dev :=
  d.rxHead c (fun d => d.rxWindow c rRA (fun d =>
    let n := amoSize (c.amoFn % 16)
    if d.winVa c.rwin c.roff % n != 0 then d.nackErr c.key Status.ATOMIC_ALIGN
    else
      let id := d.nextTag
      let d := { d with nextTag := id + 1, rma.amos := Tbl.put id { cell := c, win := c.rwin } d.rma.amos }
      let d := d.updRx c.key (fun x => { x with place := .drop })
      let (d, x) := d.winAddr c.rwin c.roff n .atomic (.accR (.amo id) 0 n)
      d.amoAddr id x))

/-- An atomic that has an address and has not read its word translates it again: an invalidation may have taken it (R143). -/
def Dev.amoRenew (d : Dev) (id : Nat) : Dev :=
  match Tbl.find d.rma.amos id with
  | none => d
  | some j =>
    if j.reading || j.addr.isNone then d
    else
      let n := amoSize (j.cell.amoFn % 16)
      let d := { d with rma.amos := Tbl.put id { j with addr := none } d.rma.amos }
      let (d, x) := d.winAddr j.win j.cell.roff n .atomic (.accR (.amo id) 0 n)
      d.amoAddr id x

/-- AMO_READ_DONE: `v` is the old value, none where its read failed. -/
def Dev.amoRead (d : Dev) (id : Nat) (v : Option Nat) : Dev :=
  match Tbl.find d.rma.amos id with
  | none => d
  | some j =>
    let c := j.cell
    let d := { d with rma.amos := Tbl.del id d.rma.amos }
    (match v, j.addr with
    | some v, some (fn, a) =>
      let op := c.amoFn / 16
      let dt := c.amoFn % 16
      let w := amoBits dt
      let old := v % 2 ^ w
      let d := if op = 7 && old != c.b % 2 ^ w then d
        else (d.hostWrite fn a (w / 8) (amoNew op dt old c.a c.b)).fnCount c.dstFn 7 (w / 8)
      d.ready_ c.key 1 0 (if c.op = 7 then old else 0)
    | _, _ => d.nackErr c.key Status.HOST_ERROR).amoRun

/-! ### Get replies and responses at the sender (R179, R191, R333) -/

/-- The sample that an accepted response or reply gives. -/
def Dev.rspSample (d : Dev) (s : Slot) (stamp mark : Nat) (busy : Bool) : Dev :=
  if s.charged && d.ns < s.firstTx + 262144 then d.ccSample s.dev stamp (some s.charge) mark busy else d

/-- A slot that is outstanding and has been transmitted. -/
def Slot.outstanding (s : Slot) : Bool :=
  s.lastTx.isSome && (match s.st with
    | .out => true
    | .reading => true
    | .ord => false
    | .hold => false
    | .wait => false
    | .quiet => false)

/-- A get is complete once every reply cell is counted and its writes issued (R191). -/
def Dev.replyGo (d : Dev) (i : Nat) : Dev :=
  match d.slotOf i with
  | none => d
  | some s => if s.got = (s.len + 63) / 64 && s.writes = 0 then d.segEnd i s 0 true 0 else d

/-- RX_GET_REPLY. -/
def Dev.getReplyRx (d : Dev) (c : Cell) : Dev :=
  let d := d.taken c
  let i := c.slot
  match d.slotOf i with
  | none => d.ev 4 5
  | some s =>
    if s.op != 2 || !s.outstanding || d.slotGen i != c.gen || s.fail.isSome then d.ev 4 5
    else if s.bitmap.testBit c.idx || (s.len + 63) / 64 ≤ c.idx then d.ev 4 7 none (some s.fn)
    else
      let d := d.putSlot i { s with bitmap := s.bitmap ||| 2 ^ c.idx, got := s.got + 1, cmark := max s.cmark c.cmark }
      let d := if s.got + 1 = (s.len + 63) / 64 then d.rspSample s c.tstamp (max s.cmark c.cmark) false else d
      let n := min 64 (s.len - 64 * c.idx)
      let (d, k, st) := d.placeAt (.reply i) s.fn s.lwin (s.loff + 64 * c.idx) n (c.pay.toNat % 2 ^ (8 * n))
      if st != 0 then d.updSlot i (fun s => { s with fail := some st })
      else (d.updSlot i (fun s => { s with writes := s.writes + k })).replyGo i

/-- A reply's write that waited for its translation is issued, or has failed. -/
def Dev.replyWrote (d : Dev) (i : Nat) (ok : Bool) : Dev :=
  if ok then (d.updSlot i (fun s => { s with writes := s.writes - 1 })).replyGo i
  else d.updSlot i (fun s => { s with fail := some Status.WIN_XLT })

/-- A response answers the current attempt: its stamp is not from before that attempt's head cell (R181; DEDUCED, log
entry 23). -/
def Slot.answers (s : Slot) (stamp : Nat) : Bool := s.txAt.isSome && (stamp + 2 ^ 16 - s.sentNs / 4 % 2 ^ 16) % 2 ^ 16 < 2 ^ 15

/-- RMA_RESPONSE (R179). An ACK that names the slot of a get, which R190 never sends, is stale (DESIGN CHOICE, log entry
36). -/
def Dev.response (d : Dev) (c : Cell) : Dev :=
  let d := d.taken c
  let i := c.slot
  let kind := c.p 0 8
  match d.slotOf i with
  | none => d.ev 4 5
  | some s =>
    if !s.outstanding || d.slotGen i != c.gen || s.msgId != c.p 32 32 || s.op = 5 || s.fail.isSome || kind = 0 || 3 < kind ||
        (s.op = 2 && kind = 1) then d.ev 4 5
    else
      let dur := c.p 24 1 == 1
      let d := d.ev 4 (kind + 1) none (some s.fn)
      let d := if dur || s.op = 8 then d else d.rspSample s c.tstamp (c.p 26 2) (kind = 2)
      let st := c.p 8 16
      if kind = 2 then
        (d.updSlot i (fun s => { s with busy := if s.answers c.tstamp then some st else s.busy })).fnCount s.fn 8
      else
        let d := match d.msgOf s.msg with
          | some m => if dur then d.updScope m.scope (fun x => { x with durable := x.durable.erase (m.dev * 1024 + m.dfn) }) else d
          | none => d
        d.segEnd i s (if kind = 3 then st else 0) (kind = 1) (c.p 128 64)

/-! ### Commands -/

/-- A cell that reaches the command which its contents call for. -/
def onCell (s : State) (ok : Dev → Bool) (f : Dev → Dev) : Host.Outcome State Fault Refusal :=
  onRma s (fun d => if ok d then f d else d)

def execRxPut (c : Cell) (s : State) : Host.Outcome State Fault Refusal := onCell s (fun d => d.isHead c 1) (fun d => d.rxPut c)
def execRxGet (c : Cell) (s : State) : Host.Outcome State Fault Refusal := onCell s (fun d => d.isHead c 2) (fun d => d.rxGet c)
def execRxUd (c : Cell) (s : State) : Host.Outcome State Fault Refusal := onCell s (fun d => d.isHead c 5) (fun d => d.rxUd c)
def execRxAmo (c : Cell) (s : State) : Host.Outcome State Fault Refusal :=
  onCell s (fun d => d.isHead c 6 && amoFnOk c.amoFn) (fun d => d.rxAmo c)
def execRxAmoF (c : Cell) (s : State) : Host.Outcome State Fault Refusal :=
  onCell s (fun d => d.isHead c 7 && amoFnOk c.amoFn) (fun d => d.rxAmo c)
def execRxFlush (c : Cell) (s : State) : Host.Outcome State Fault Refusal := onCell s (fun d => d.isHead c 8) (fun d => d.rxFlush c)
def execRxRelease (c : Cell) (s : State) : Host.Outcome State Fault Refusal :=
  onCell s (fun d => d.isHead c 9) (fun d => d.rxRelease c)
def execRxDataCell (c : Cell) (s : State) : Host.Outcome State Fault Refusal :=
  onCell s (fun d => c.cls == 0 && !c.head && c.dstDev == d.myDev) (fun d => d.rxData c)
/-- RX_OP_RESERVED (R158): an operation that is none of the nine, or an atomic that R60 does not allow. -/
def execRxOpReserved (c : Cell) (s : State) : Host.Outcome State Fault Refusal :=
  onCell s (fun d => c.cls == 0 && c.head && c.dstDev == d.myDev &&
      (c.op = 0 || 9 < c.op || ((c.op = 6 || c.op = 7) && !amoFnOk c.amoFn)))
    (fun d => ((d.taken c).ev 4 6 none (some c.dstFn)).ev 4 13 none (some c.dstFn))
def execRxGetReply (c : Cell) (s : State) : Host.Outcome State Fault Refusal :=
  onCell s (fun d => c.cls == 1 && !c.head && c.dstDev == d.myDev) (fun d => d.getReplyRx c)
def execRmaResponse (c : Cell) (s : State) : Host.Outcome State Fault Refusal :=
  onCell s (fun d => c.cls == 1 && c.head && c.dstDev == d.myDev) (fun d => d.response c)

/-- The key of a context named by its parts. -/
def keyOf (src : DevId) (slot : Sid) (gen : BitVec 4) : Nat := src.toNat * 2 ^ 20 + slot.toNat * 16 + gen.toNat

def execRmaResponseSend (src : DevId) (slot : Sid) (gen : BitVec 4) (s : State) : Host.Outcome State Fault Refusal :=
  onRma s (fun d => d.responseSend (keyOf src slot gen))
def execDurFlushDone (src : DevId) (slot : Sid) (gen : BitVec 4) (cpl : Cpl) (s : State) : Host.Outcome State Fault Refusal :=
  onRma s (fun d => d.durDone (keyOf src slot gen) cpl)
def execRxIdleClose (src : DevId) (slot : Sid) (gen : BitVec 4) (s : State) : Host.Outcome State Fault Refusal :=
  onRma s (fun d => d.rxIdle (keyOf src slot gen))
def execCairnExpire (src : DevId) (slot : Sid) (gen : BitVec 4) (s : State) : Host.Outcome State Fault Refusal :=
  onRma s (fun d => d.cairnExpire (keyOf src slot gen))

/-- The outstanding read of an owner's part from `off`: its tag and length. -/
def Dev.findOwn (d : Dev) (o : Own) (off : Nat) : Option (Nat × Nat) :=
  d.reads.findSome? (fun e => match e.2.why with
    | .own x k n => if x = o && k = off then some (e.1, n) else none
    | _ => none)

/-- A completion for one of the reads that an owner has out: the length of the part, and its data (none where it failed). -/
def Dev.ownRead (d : Dev) (o : Own) (off : Nat) (cpl : Cpl) : Dev × Option (Nat × Option Nat) :=
  match d.findOwn o off with
  | some (tag, n) =>
    let (d, h) := d.takeRead tag n cpl
    (d.invPoll, if h.isSome then some (n, cpl.good) else none)
  | none => (d, none)

def execGetSourceReadDone (job off : Nat) (cpl : Cpl) (s : State) : Host.Outcome State Fault Refusal :=
  onRma s (fun d => match d.ownRead (.getSrc job) off cpl with
    | (d, some (n, v)) => d.getRead job off n v Status.HOST_ERROR
    | (d, none) => d)
def execAmoReadDone (job : Nat) (cpl : Cpl) (s : State) : Host.Outcome State Fault Refusal :=
  onRma s (fun d => match d.ownRead (.amo job) 0 cpl with
    | (d, some (_, v)) => d.amoRead job v
    | (d, none) => d)

end Sys2Proof.Machine
end

