-- ==== Sys2Proof/Machine/Match.lean ====
section
/-! DEFINITION. Message matching (R210 to R249): send order, matching, unexpected messages, posts, probes and cancels, shutdown. -/

namespace Sys2Proof.Machine

/-! ### Matching (R210, R227 to R230) -/

/-- A message matches a posted receive (R210). -/
def Recv.takes (r : Recv) (src bits : Nat) : Bool :=
  (bits ^^^ r.bits) &&& (2 ^ 64 - 1 - r.ignore) == 0 && (r.any || r.src == src)

/-- The posted receive with the lowest PSN among those that match (R228). -/
def lowestPsn (src bits : Nat) (l : List Recv) : Option Recv :=
  (l.filter (fun r => r.takes src bits)).foldl (fun b r => match b with
    | none => some r
    | some x => if r.psn < x.psn then some r else some x) none

/-- The unexpected message with the lowest arrival number among those that match and that no post has taken (R228). -/
def lowestArr (r : Recv) (l : List UxMsg) : Option UxMsg :=
  (l.filter (fun u => u.matched.isNone && r.takes u.mail.src u.mail.bits)).foldl (fun b u => match b with
    | none => some u
    | some x => if u.arr < x.arr then some u else some x) none

/-- Unexpected messages of a domain that no post has taken. -/
def Dom.unexp (m : Dom) : Nat := (m.ux.filter (fun u => u.matched.isNone)).length

/-- The domain takes no further event (R246). -/
def Dev.mtcBlocked (d : Dev) (f : Nat) : Bool := 64 ≤ (d.dom f).waiting.length

/-! ### Lists, bins and searches (R229 to R232) -/

/-- The list that holds a posted receive (R211, R229). -/
def Recv.list (r : Recv) : MList :=
  if r.ignore != 0 then .masked r.fn
  else if r.any then .tag (Config.tagBin r.fn r.bits % 262144)
  else .full (Config.fullBin r.fn r.src r.bits % 262144)

/-- The lists of posted receives that a message searches (R230). -/
def msgLists (f src bits : Nat) : List MList :=
  [.full (Config.fullBin f src bits % 262144), .tag (Config.tagBin f bits % 262144), .masked f]

/-- The three lists that hold an unexpected message of function f (R229). -/
def UxMsg.lists (u : UxMsg) (f : Nat) : List MList :=
  [.full (Config.fullBin f u.mail.src u.mail.bits % 262144), .tag (Config.tagBin f u.mail.bits % 262144), .arrival f]

/-- The list of unexpected messages that a post or a probe searches (R230). -/
def Recv.searches (r : Recv) : MList :=
  match r.list with
  | .masked f => .arrival f
  | l => l

/-- Posted receives of the device: place in its order, whether list `l` holds it, whether it takes the message. -/
def Dev.postedIn (d : Dev) (f src bits : Nat) (l : MList) : List (Nat × Bool × Bool) :=
  d.mtc.doms.flatMap (fun e => e.2.posted.map (fun r => (r.ord, r.list == l, e.1 == f && r.takes src bits)))

/-- Unexpected messages of the device that no post has taken, in the same way. -/
def Dev.uxIn (d : Dev) (r : Recv) : List (Nat × Bool × Bool) :=
  d.mtc.doms.flatMap (fun e => (e.2.ux.filter (fun u => u.matched.isNone)).map (fun u =>
    (u.id, (u.lists e.1).contains r.searches, e.1 == r.fn && r.takes u.mail.src u.mail.bits)))

/-- An entry lies on-die while fewer than 65,536 of its store came before it: space that frees is refilled at once with the
oldest Depot entry (R231; DESIGN CHOICE, log entry 24). -/
def onDie (all : List (Nat × Bool × Bool)) (ord : Nat) : Bool := (all.filter (fun e => e.1 < ord)).length < 65536

/-- A search of one list stops at the first entry that matches: the entries examined, and the Depot reads, one for each group
of up to 16 Depot entries (R230, R232). -/
def searchCost (all : List (Nat × Bool × Bool)) : Nat × Nat :=
  let hits := (all.filter (fun e => e.2.1 && e.2.2)).map Prod.fst
  let seen := all.filter (fun e => e.2.1 && hits.all (fun h => e.1 ≤ h))
  (seen.length, ((seen.filter (fun e => !onDie all e.1)).length + 15) / 16)

/-- A search is counted: entries examined, and Depot reads. -/
def Dev.searched (d : Dev) (f : Nat) (c : Nat × Nat) : Dev :=
  let d := d.ev 5 3 none (some f) c.1
  if c.2 = 0 then d else ((d.ev 5 4 none (some f) c.2).ev 11 0 none none c.2).depWake

/-- The searches of a message, list by list. -/
def Dev.searchMsg (d : Dev) (f src bits : Nat) : Dev :=
  (msgLists f src bits).foldl (fun d l => d.searched f (searchCost (d.postedIn f src bits l))) d

/-- The search of a post or a probe. -/
def Dev.searchUx (d : Dev) (r : Recv) : Dev := d.searched r.fn (searchCost (d.uxIn r))

/-- A receive that has matched. -/
def Dev.newActive (d : Dev) (a : Active) : Dev × Nat :=
  let rid := d.mtc.nextRid
  ({ d with mtc.active := Tbl.put rid a d.mtc.active, mtc.nextRid := rid + 1 }, rid)

def Cell.mail (c : Cell) : Mail :=
  { src := c.src, bits := c.mbits, len := c.len, d6 := if c.op = 4 then 0 else c.a, rdv := c.op == 4, rwin := c.rdvWin,
    roff := c.rdvOff }

/-- A message taken as an event that matches receive r (R235, R239, R247); `false` where it is answered busy and not taken. -/
def Dev.takeMatched (d : Dev) (key : Nat) (c : Cell) (r : Recv) : Dev × Bool :=
  let f := c.dstFn
  let armed := c.op = 3 && d.flag F.MTC_FN_ARR_EV_EN f
  let room := if armed then d.evRoomFor (d.rd F.MTC_FN_ARR_SLOT f) else none
  if armed && room.isNone then ((d.evBusy (d.rd F.MTC_FN_ARR_SLOT f) f).nackBusy key Status.RX_BUSY, false)
  else
    let d := (d.updDom f (fun m => { m with posted := m.posted.filter (fun x => x.psn != r.psn) })).ev 5 0 none (some f)
    let (d, rid) := d.newActive { recv := r, mail := Cell.mail c, evRoom := room }
    if c.op = 4 then ((d.ready_ key 1 0 0).startFetch rid, true)
    else
      let n := min c.len r.len
      let (d, st) := d.winUse r.win (remotePeer c.srcDev c.srcFn) rRW (if n = 0 then 0 else r.off) n
      let d := d.updRx key (fun x => { x with recv := some rid })
      if st != 0 then (d.rxFail key st, true) else (d.rxPlace key (.win r.win r.off n), true)

/-- A message taken as an event that matches nothing becomes unexpected (R236, R239). -/
def Dev.takeUnexpected (d : Dev) (key : Nat) (c : Cell) : Dev × Bool :=
  let f := c.dstFn
  let total := d.mtc.doms.foldl (fun n e => n + e.2.unexp) 0
  if d.rd F.MTC_FN_CFG_UX_MAX f ≤ (d.dom f).unexp || 1048576 ≤ total then (d.nackBusy key Status.RX_BUSY, false)
  else
    let id := d.mtc.nextUx
    let (d, l) := if c.op = 4 then (d, some []) else d.alloc 2 id ((c.len + 2047) / 2048)
    match l with
    | none => (d.nackBusy key Status.RX_BUSY, false)
    | some l =>
      let u : UxMsg := { id := id, mail := Cell.mail c, arr := (d.dom f).arr, bufs := l, rx := if c.op = 4 then none else some key }
      let d := { d.updDom f (fun m => { m with arr := m.arr + 1, ux := m.ux ++ [u] }) with mtc.nextUx := id + 1 }
      let d := (d.ev 5 1 none (some f)).fnCount f 10
      if c.op = 4 then (d.ready_ key 1 0 0, true) else (d.rxPlace key (.ux id), true)

/-- A message is taken as an event (R228). -/
def Dev.takeMsg (d : Dev) (key : Nat) : Dev × Bool :=
  match (d.rxOf key).bind Rx.head with
  | none => (d, false)
  | some c =>
    let d := d.searchMsg c.dstFn c.src c.mbits
    match lowestPsn c.src c.mbits (d.dom c.dstFn).posted with
    | some r => d.takeMatched key c r
    | none => d.takeUnexpected key c

/-! ### Send order (R218, R222 to R226) -/

def orderKey (f src : Nat) : Nat := f * 2 ^ 28 + src
def Dev.order (d : Dev) (k : Nat) : Option Order := Tbl.find d.mtc.orders k
def Dev.putOrder (d : Dev) (k : Nat) (o : Order) : Dev := { d with mtc.orders := Tbl.put k o d.mtc.orders }
def Cell.seq15 (c : Cell) : Nat := c.mseq / 2 ^ 15 % 2 ^ 15
def Cell.base15 (c : Cell) : Nat := (Cell.seq15 c + 2 ^ 15 - c.mseq % 2 ^ 15) % 2 ^ 15

/-- Held messages whose turn has come are taken, one event each. -/
def Dev.orderDrain (d : Dev) (f k : Nat) : Nat → Dev
  | 0 => d
  | fuel + 1 =>
    match d.order k with
    | none => d
    | some o => match o.held.find? (fun h => h.1 == o.e) with
      | none => d
      | some h =>
        if d.mtcBlocked f then d
        else
          let d := (d.putOrder k { o with held := o.held.erase h, last := d.ps }).updRx h.2.1 (fun x => { x with held := false })
          let (d, ok) := d.takeMsg h.2.1
          if ok then (d.putOrder k { o with held := o.held.erase h, last := d.ps, e := (o.e + 1) % 2 ^ 15 }).orderDrain f k fuel
          else d

/-- Messages held, of the device. -/
def Dev.heldCount (d : Dev) : Nat := d.mtc.orders.foldl (fun n e => n + e.2.held.length) 0

/-- R222 for a head cell that has passed its checks. -/
def Dev.orderStep (d : Dev) (c : Cell) : Dev :=
  let key := c.key
  let f := c.dstFn
  let k := orderKey f c.src
  let seq := Cell.seq15 c
  let b := Cell.base15 c
  if d.mtcBlocked f then d.nackBusy key Status.RX_BUSY
  else if (d.order k).isNone && streamMax ≤ d.mtc.orders.length then d.nackBusy key Status.RX_BUSY
  else
    let o := (d.order k).getD { e := b, last := d.ps }
    let o := { o with e := if serialLt 15 o.e b then b else o.e, last := d.ps }
    let d := d.putOrder k o
    let d :=
      if seq = o.e then
        let (d, ok) := d.takeMsg key
        if ok then d.putOrder k { o with e := (o.e + 1) % 2 ^ 15 } else d
      else if serialLt 15 o.e seq then
        if min 131072 (d.rd F.MTC_CAP_HOLD_MAX) ≤ d.heldCount then d.nackBusy key Status.RX_BUSY
        else
          let due := d.ps + usPs (max 50 (d.rd F.MTC_CFG_HOLD_US))
          ((d.updRx key (fun x => { x with held := true })).putOrder k { o with held := o.held ++ [(seq, key, due)] }).ev 5 5 none (some f)
      else (d.ev 5 6 none (some f)).takeMsg key |>.1
    d.orderDrain f k (o.held.length + 2)

/-! ### Head cells of SEND and SEND_RDV (R234, R241) -/

/-- A finish: it completes the oldest record with its key (R241, R242). -/
def Dev.rdvFinish (d : Dev) (c : Cell) : Dev :=
  let d :=
    match d.mtc.rdvs.find? (fun r => r.fn == c.dstFn && r.dst == c.src && r.win == c.rdvWin && r.off == c.rdvOff &&
        r.len == c.mbits % 2 ^ 32) with
    | none => d.ev 5 7 none (some c.dstFn)
    | some r =>
      let d := { d with mtc.rdvs := d.mtc.rdvs.erase r }
      match d.msgOf r.msg with
      | some m => d.finishMsg r.msg m (bitsOf c.mbits 32 16) 0
      | none => d
  d.ready_ c.key 1 0 0

/-- RX_SEND and RX_SEND_RDV. -/
def Dev.rxSend (d : Dev) (c : Cell) : Dev :=
  d.rxHead c (fun d =>
    let kind := c.mseq / 2 ^ 30
    if !d.flag F.MTC_FN_CFG_EN c.dstFn then d.nackErr c.key Status.FN_OFF
    else if (c.op = 3 && 16384 < c.len) || (c.op = 4 && !c.last) || 2 ≤ kind then (d.ev 5 8 none (some c.dstFn)).rxClose c.key
    else if kind = 1 then d.rdvFinish c
    else d.orderStep c)

def execRxSend (c : Cell) (s : State) : Host.Outcome State Fault Refusal :=
  onCell s (fun d => d.isHead c 3) (fun d => d.rxSend c)
def execRxSendRdv (c : Cell) (s : State) : Host.Outcome State Fault Refusal :=
  onCell s (fun d => d.isHead c 4) (fun d => d.rxSend c)

/-! ### mt.post, mt.probe, mt.cancel (R61, R62, R213 to R217) -/

/-- The operands of mt.post and mt.probe as a receive, not yet posted. -/
def recvOf (fn : Nat) (g0 g1 g2 g3 size : Word) : Recv :=
  { index := 0, gen := 0, fn := fn, src := getBits size 0 28, any := getBits size 28 1 == 1, bits := g0.toNat, ignore := g1.toNat,
    win := getBits g3 32 32, off := getBits g2 0 48, len := getBits g3 0 32,
    ctr := if getBits size 48 1 = 1 then some (getBits size 32 16) else none, psn := 0 }

/-- The checks of R213; 0 where all pass. -/
def Dev.postCheck (d : Dev) (fn : Nat) (priv : Bool) (r : Recv) (g2 size : Word) : Nat :=
  if getBits g2 48 16 != 0 || getBits size 29 3 != 0 || getBits size 49 15 != 0 then Status.ARG
  else if !d.flag F.MTC_FN_CFG_EN fn then Status.FN_OFF
  else
    let st := d.winCheck r.win (localPeer fn priv) rLW (if r.len = 0 then 0 else r.off) r.len
    if st != 0 then st
    else if d.rd F.MTC_FN_CFG_POST_MAX fn ≤ (d.dom fn).posted.length ||
        1048576 ≤ d.mtc.doms.foldl (fun n e => n + e.2.posted.length) 0 then Status.MT_FULL
    else 0

/-- A receive handle (R214): which free index it takes is the device's choice (log entry 1). -/
def Dev.takeHandle (d : Dev) : Dev × Nat × Nat :=
  let used := fun (k : Nat) => d.mtc.doms.any (fun e => e.2.posted.any (fun r => r.index == k)) ||
    d.mtc.active.any (fun e => e.2.recv.index == k)
  let n := d.mtc.doms.foldl (fun n e => n + e.2.posted.length) 0 + d.mtc.active.length
  let (start, d) := d.pick 1048576
  let k := (firstFreeFrom used 1048576 start (n + 1)).getD 0
  let g := Tbl.get d.mtc.gens 0 k % 4095 + 1
  ({ d with mtc.gens := Tbl.put k g d.mtc.gens }, k, g)

/-- A post taken as an event (R228, R237, R240): its handle. -/
def Dev.post (d : Dev) (r : Recv) : Dev × Nat :=
  let f := r.fn
  let (d, k, g) := d.takeHandle
  let r := { r with index := k, gen := g, psn := (d.dom f).psn, ord := d.mtc.nextPost }
  let d := { (d.updDom f (fun m => { m with psn := m.psn + 1 })) with mtc.nextPost := d.mtc.nextPost + 1 }.searchUx r
  let d := match lowestArr r (d.dom f).ux with
    | none => d.updDom f (fun m => { m with posted := m.posted ++ [r] })
    | some u =>
      let (d, rid) := (d.ev 5 2 none (some f)).newActive { recv := r, mail := u.mail, ux := some u.id }
      if u.mail.rdv then (d.updDom f (fun m => { m with ux := m.ux.filter (fun x => x.id != u.id) })).startFetch rid
      else (d.updDom f (fun m => { m with ux := m.ux.map (fun (x : UxMsg) =>
        if x.id = u.id then { x with matched := some rid } else x) })).uxCopy f u.id
  (d, r.handle)

/-- The value that mt.probe finds (R216, R62). -/
def Dev.probe (d : Dev) (r : Recv) : Nat :=
  match lowestArr r (d.dom r.fn).ux with
  | some u => 2 ^ 63 + u.mail.src * 2 ^ 32 + u.mail.len
  | none => 0

/-- mt.cancel taken as an event (R217). -/
def Dev.cancel (d : Dev) (f handle : Nat) : Dev × Nat :=
  match (d.dom f).posted.find? (fun r => r.handle == handle) with
  | none => (d, Status.MT_NOT_FOUND)
  | some r => ((d.updDom f (fun m => { m with posted := m.posted.filter (fun x => x.psn != r.psn) })).cancelRecv r, 0)

/-- A match instruction of a thread: 0 mt.post, 1 mt.probe, 2 mt.cancel. No result where it waits for the ring (R246). A
post that is refused counts as a failed operation of its entry (DEDUCED, log entry 22). -/
def Dev.mtcOp (d : Dev) (th kind : Nat) (g0 g1 g2 g3 size : Word) : Dev × Option TWord :=
  let t := d.thr th
  let r := recvOf t.fn g0 g1 g2 g3 size
  let value := fun (v : Nat) => some (mkWord (BitVec.ofNat 64 v) 0)
  let failed := fun (v : Nat) => some (mkWord (BitVec.ofNat 64 v) 16)
  if kind = 0 then
    let st := d.postCheck t.fn t.priv r g2 size
    let reached := st != Status.ARG && st != Status.FN_OFF
    let d := if reached then d.winLook r.win else d
    if st != 0 then
      let (d, e) := (d.winFail (if st ≤ Status.WIN_ARG then st else 0)).opStartTh (some th)
      (d.opEndO e st, failed st)
    else if d.mtcBlocked t.fn then (d, none)
    else
      let (d, e) := d.opStartTh (some th)
      let (d, h) := d.post r
      (d.opEndO e 0, value h)
  else if !d.flag F.MTC_FN_CFG_EN t.fn then (d, if kind = 1 then failed Status.FN_OFF else value Status.FN_OFF)
  else if d.mtcBlocked t.fn then (d, none)
  else if kind = 1 then (d.searchUx r, value (d.probe r))
  else
    let (d, st) := d.cancel t.fn (getBits g0 0 32)
    (d, value st)

/-- A match instruction at issue: its result, or its stall. -/
def Dev.mtcIssue (d : Dev) (th kind wd : Nat) (g0 g1 g2 g3 size : Word) : IRes :=
  let (d, v) := d.mtcOp th kind g0 g1 g2 g3 size
  match v with
  | some v => .next (d.setW th wd v)
  | none => .done (d.stall th (.mtc kind wd g0 g1 g2 g3 size))

/-- The values of an operand group. -/
def Thread.val (t : Thread) (n : Nat) : Word := TWord.val (t.reg n)

def execMtPost (th : Tid) (f : FmtA) (ext : Ext) (s : State) : Host.Outcome State Fault Refusal :=
  onRma s (fun d => d.issueA 0x48 th f ext (!groupOk f.wa.toNat || f.fn != 0) (fun d =>
    let a := f.wa.toNat
    let t := d.thr th
    noPoison d th (insertAsc f.wb.toNat [a, a + 1, a + 2, a + 3]) (fun _ =>
      d.mtcIssue th 0 f.wd.toNat (t.val a) (t.val (a + 1)) (t.val (a + 2)) (t.val (a + 3)) (t.val f.wb.toNat))))

def execMtProbe (th : Tid) (f : FmtA) (ext : Ext) (s : State) : Host.Outcome State Fault Refusal :=
  onRma s (fun d => d.issueA 0x49 th f ext (!groupOk f.wa.toNat || f.fn != 0) (fun d =>
    let a := f.wa.toNat
    let t := d.thr th
    noPoison d th (insertAsc f.wb.toNat [a, a + 1]) (fun _ =>
      d.mtcIssue th 1 f.wd.toNat (t.val a) (t.val (a + 1)) 0 0 (t.val f.wb.toNat))))

def execMtCancel (th : Tid) (f : FmtA) (ext : Ext) (s : State) : Host.Outcome State Fault Refusal :=
  onRma s (fun d => d.issueA 0x4A th f ext (f.wb != 0 || f.fn != 0) (fun d =>
    noPoison d th [f.wa.toNat] (fun _ => d.mtcIssue th 2 f.wd.toNat ((d.thr th).val f.wa.toNat) 0 0 0 0)))

/-! ### The completion ring has room again (R246), copies (R237) -/

/-- A stalled match instruction of function f goes on where it can. -/
def Dev.mtcThread (d : Dev) (th : Nat) : Dev :=
  match (d.thr th).stall with
  | .mtc kind wd g0 g1 g2 g3 size =>
    let (d, v) := d.mtcOp th kind g0 g1 g2 g3 size
    match v with
    | some v => d.finish th wd v
    | none => d
  | _ => d

/-- What function f's full ring held up goes on: held messages, then stalled instructions. -/
def Dev.mtcWake (d : Dev) (f : Nat) : Dev :=
  if d.mtcBlocked f then d
  else
    let d := (d.mtc.orders.filter (fun e => e.1 / 2 ^ 28 == f)).foldl (fun d e => d.orderDrain f e.1 (e.2.held.length + 1)) d
    (d.eng.th.filter (fun e => e.2.fn == f)).foldl (fun d e => d.mtcThread e.1) d

/-- RCQ_CONS_WRITE. -/
def Dev.rcqCons (d : Dev) (f v : Nat) : Dev := ((d.wr F.MTC_FN_RCQ_IDX_CONS f v).rcqGo f).mtcWake f

def execRcqConsWrite (fn : Fid) (v : BitVec 32) (s : State) : Host.Outcome State Fault Refusal :=
  onDev s (fun d => if d.halted then d.wr F.MTC_FN_RCQ_IDX_CONS fn v.toNat else (d.rcqCons fn v.toNat).rmaGo)

/-- MT_UX_COPY_DONE: the receive completes and the buffers return to the pool (R237). -/
def Dev.uxCopied (d : Dev) (f id : Nat) : Dev :=
  match (d.dom f).ux.find? (fun u => u.id == id) with
  | none => d
  | some u => match u.matched, u.rx with
    | some rid, none => match Tbl.find d.mtc.active rid with
      | some a =>
        if a.writes != 0 then d
        else
          let d := d.updDom f (fun m => { m with ux := m.ux.filter (fun x => x.id != id) })
          ((d.disown (.uxCopy f id)).freeAll u.bufs 2 id).recvDone rid a.status
      | none => d
    | _, _ => d

def execMtUxCopyDone (fn : Fid) (id : Nat) (s : State) : Host.Outcome State Fault Refusal :=
  onRma s (fun d => (d.uxCopied fn id).mtcWake fn)

/-- A copy write that waited for its translation is issued, or has failed. -/
def Dev.uxWrote (d : Dev) (f id : Nat) (ok : Bool) : Dev :=
  match ((d.dom f).ux.find? (fun u => u.id == id)).bind UxMsg.matched with
  | none => d
  | some rid => { d with mtc.active := Tbl.upd rid (fun (a : Active) =>
      if ok then { a with writes := a.writes - 1 } else { a with writes := 0, status := Status.WIN_XLT }) d.mtc.active }

/-! ### Timed releases and shutdown (R221, R223, R226, R242, R248) -/

/-- MT_HOLD_TIMEOUT. -/
def Dev.holdTimeout (d : Dev) (f key : Nat) : Dev :=
  match d.mtc.orders.find? (fun e => e.1 / 2 ^ 28 == f && e.2.held.any (fun h => h.2.1 == key)) with
  | none => d
  | some (k, o) => match o.held.find? (fun h => h.2.1 == key) with
    | none => d
    | some h =>
      let d := d.advanceTo h.2.2
      ((d.putOrder k { o with held := o.held.erase h, last := d.ps }).updRx key (fun x => { x with held := false })).nackBusy key
        Status.RX_BUSY

def execMtHoldTimeout (fn : Fid) (src : DevId) (slot : Sid) (gen : BitVec 4) (s : State) : Host.Outcome State Fault Refusal :=
  onRma s (fun d => d.holdTimeout fn (keyOf src slot gen))

/-- ORDER_IDLE_RELEASE. -/
def Dev.orderRelease (d : Dev) (k : Nat) : Dev :=
  match d.order k with
  | none => d
  | some o =>
    if !o.held.isEmpty then d
    else { d.advanceTo (o.last + usPs (max 1000 (d.rd F.MTC_CFG_ORDER_IDLE_US))) with mtc.orders := Tbl.del k d.mtc.orders }

def execOrderIdleRelease (fn : Fid) (src : Endp) (s : State) : Host.Outcome State Fault Refusal :=
  onRma s (fun d => d.orderRelease (orderKey fn src.toNat))

/-- SEND_STREAM_RELEASE. -/
def Dev.streamRelease (d : Dev) (k : Nat) : Dev :=
  match Tbl.find d.mtc.streams k with
  | none => d
  | some x =>
    if !x.open_.isEmpty then d
    else { d.advanceTo (x.last + usPs (max 1100 (d.rd F.MTC_CFG_SEND_IDLE_US))) with mtc.streams := Tbl.del k d.mtc.streams }

def execSendStreamRelease (fn : Fid) (dst : Endp) (s : State) : Host.Outcome State Fault Refusal :=
  onRma s (fun d => d.streamRelease (orderKey fn dst.toNat))

/-- The one event of R248. The context of an unexpected message that is discarded while its cells still arrive stays open
and answers ACK once every cell is counted (DESIGN CHOICE, log entry 36). -/
def Dev.mtcShutdown (d : Dev) (f : Nat) : Dev :=
  let m := d.dom f
  let d := d.updDom f (fun m => { m with posted := [] })
  let d := m.posted.foldl (fun d r => d.cancelRecv r) d
  let gone := m.ux.filter (fun u => u.matched.isNone)
  let d := gone.foldl (fun d u => (d.ev 5 10 none (some f)).freeAll u.bufs 2 u.id)
    (d.updDom f (fun m => { m with ux := m.ux.filter (fun u => u.matched.isSome) }))
  let mine := d.mtc.orders.filter (fun e => e.1 / 2 ^ 28 == f)
  let d := mine.foldl (fun d e => e.2.held.foldl (fun d h => (d.ev 5 10 none (some f)).rxClose h.2.1) d) d
  { d with mtc.orders := d.mtc.orders.filter (fun e => e.1 / 2 ^ 28 != f) }

/-- MT_DOMAIN_DISABLE: the write of EN = 0. -/
def Dev.mtcDisable (d : Dev) (f : Nat) : Dev :=
  let on := d.flag F.MTC_FN_CFG_EN f
  let d := d.wr F.MTC_FN_CFG_EN f 0
  if d.halted || !on then d else ((d.mtcShutdown f).mtcWake f).rmaGo

def execMtDomainDisable (fn : Fid) (s : State) : Host.Outcome State Fault Refusal := onDev s (fun d => d.mtcDisable fn)

/-- The open records of a function that enters DRAINING complete at once (R242). -/
def Dev.rdvDrain (d : Dev) (f : Nat) : Dev :=
  (d.mtc.rdvs.filter (fun r => r.fn == f)).foldl (fun d r => match d.msgOf r.msg with
    | some m => d.finishMsg r.msg m Status.WIN_REVOKED 0
    | none => d) d

end Sys2Proof.Machine
end

