-- ==== Sys2Proof/Machine/Collect.lean ====
section
/-! DEFINITION. Collectives (chapter 07): contexts, linking, contributions, the phases of an epoch, ordinary and reproducible
arithmetic, failure. -/

namespace Sys2Proof.Machine

/-! ### Contexts and what their descriptors say (R253 to R256, R263) -/

abbrev cFree : Nat := 0
abbrev cLinking : Nat := 1
abbrev cActive : Nat := 2
abbrev cFailed : Nat := 3
abbrev cDraining : Nat := 4

def Dev.cSt (d : Dev) (n : Nat) : Nat := d.rd F.COL_CTX_STAT_STATE n
def Dev.cFn (d : Dev) (n : Nat) : Nat := d.rd F.COL_CTX_STAT_FN n
def Dev.ctxOf (d : Dev) (n : Nat) : ColCtx := Tbl.get d.col.ctxs {} n
def Dev.cEpoch (d : Dev) (n : Nat) : Nat := (d.ctxOf n).epochs
def Dev.cUp (d : Dev) (n : Nat) : Nat := (d.ctxOf n).ups
def Dev.putCtx (d : Dev) (n : Nat) (c : ColCtx) : Dev := { d with col.ctxs := Tbl.put n c d.col.ctxs }
def Dev.updCtx (d : Dev) (n : Nat) (g : ColCtx → ColCtx) : Dev := d.putCtx n (g (d.ctxOf n))

/-- REDUCE or ALLREDUCE. -/
def ColCtx.reduces (c : ColCtx) : Bool := c.kind == 2 || c.kind == 3
/-- The two passes of reproducible mode (R263, R270). -/
def ColCtx.twoPass (c : ColCtx) : Bool := c.repro && c.reduces && c.op == 0 && (c.dtype == 5 || c.dtype == 6)
def ColCtx.elem (c : ColCtx) : Nat := elemBits c.dtype / 8
def ColCtx.wire (c : ColCtx) : Nat := if c.wide then 4 else c.elem
/-- RB, XB, and the bytes of the up data phase (R255, R256, R279). -/
def ColCtx.resBytes (c : ColCtx) : Nat := if c.kind = 0 then 0 else c.count * c.elem
def ColCtx.expBytes (c : ColCtx) : Nat := if c.twoPass then (c.count + 7) / 8 * 8 else 0
def ColCtx.upBytes (c : ColCtx) : Nat :=
  if !c.reduces then 0 else if c.twoPass then (c.count + 7) / 8 * 192 else c.count * c.wire
def ColCtx.downBytes (c : ColCtx) : Nat := if c.kind = 1 || c.kind = 3 then c.resBytes else 0
/-- Cells of a phase of so many bytes; a phase with no data is one cell (R263). -/
def cellsOf (bytes : Nat) : Nat := max 1 ((bytes + 63) / 64)
def ColCtx.upCells (c : ColCtx) : Nat := cellsOf c.upBytes
def ColCtx.expCells (c : ColCtx) : Nat := cellsOf c.expBytes
def ColCtx.downCells (c : ColCtx) : Nat := cellsOf c.downBytes
/-- This vertex places a result (R266). -/
def ColCtx.places (c : ColCtx) : Bool := c.resWin != 0 && (c.kind == 1 || c.kind == 3 || (c.kind == 2 && c.root))
/-- The staging of R255: each of the three terms rounded up (log entry 25). -/
def ColCtx.staging (c : ColCtx) : Nat :=
  roundUp ((c.kids.length + 1) * (c.upBytes + c.expBytes)) 64 + roundUp c.resBytes 64 + roundUp c.expBytes 64
/-- A contribution of local index l supplies data (R260). -/
def ColCtx.needs (c : ColCtx) (l : Nat) : Bool := c.reduces || (c.kind == 1 && c.root && l == 0)

/-- Peers: 0 the parent, 1 + i child i. -/
def ColCtx.peers (c : ColCtx) : List (Nat × ColPeer) :=
  (match c.parent with
    | some p => [(0, p)]
    | none => []) ++ c.kids.mapIdx (fun i p => (i + 1, p))
def ColCtx.peer (c : ColCtx) (k : Nat) : Option ColPeer := (c.peers.find? (fun e => e.1 == k)).map Prod.snd
def ColCtx.updPeer (c : ColCtx) (k : Nat) (g : ColPeer → ColPeer) : ColCtx :=
  if k = 0 then { c with parent := c.parent.map g } else { c with kids := c.kids.mapIdx (fun i p => if i + 1 = k then g p else p) }
/-- The peer on device `dev` (R251). -/
def ColCtx.from_ (c : ColCtx) (dev : Nat) : Option (Nat × ColPeer) := c.peers.find? (fun e => e.2.endp / 1024 == dev)

/-! ### Cells (R282) -/

/-- A COL cell to a peer. -/
def Dev.colCell (d : Dev) (n : Nat) (p : ColPeer) (kind epoch idx : Nat) (last : Bool) (pay : Nat) (retx : Bool) : TxCell :=
  { cell := mkCell (p.endp / 1024) (p.endp % 1024) d.myDev (p.ctx + kind * 4096) (epoch % 16) idx false last 2 pay, fn := d.cFn n,
    cls := 2, retx := retx, slot := none, own := true, col := some n, last := last }

def Dev.pushCol (d : Dev) (n : Nat) (l : List TxCell) : Dev :=
  let f := d.cFn n
  { d with sch.col := Tbl.put f (Tbl.get d.sch.col [] f ++ l) d.sch.col }

/-- Acknowledgements, LINK and ABORT to one peer that stand in one place of its state: the newer takes the older's (R286). -/
def TxCell.samePlace (s t : TxCell) : Bool :=
  let k := t.cell.slot / 4096
  s.col == t.col && s.cell.dstDev == t.cell.dstDev && s.cell.slot == t.cell.slot && s.cell.gen % 2 == t.cell.gen % 2 &&
    s.cell.p (if k = 8 then 0 else 32) 1 == t.cell.p (if k = 8 then 0 else 32) 1

/-- A cell of fixed state: it takes the place of one like it that has not been sent (R286). -/
def Dev.colPut (d : Dev) (n : Nat) (t : TxCell) : Dev :=
  let f := d.cFn n
  let q := Tbl.get d.sch.col [] f
  if q.any (fun s => s.samePlace t) then
    { d with sch.col := Tbl.put f (q.map (fun s => if s.samePlace t then t else s)) d.sch.col }
  else d.pushCol n [t]

/-- A single cell. -/
def Dev.colOne (d : Dev) (n : Nat) (p : ColPeer) (kind epoch pay : Nat) : Dev :=
  d.colPut n (d.colCell n p kind epoch 0 true pay false)

/-- An acknowledgement echoes the stamp of the cell that completed the count (R282, R284). -/
def Dev.colAck (d : Dev) (n : Nat) (p : ColPeer) (kind epoch : Nat) (exp : Bool) (stamp : Nat) : Dev :=
  let t := d.colCell n p kind epoch 0 true (epoch % 2 ^ 32 + (if exp then 2 ^ 32 else 0)) false
  d.colPut n { t with cell := t.cell.setBits 8 16 stamp }

/-- Cell i of a phase vector goes to a peer; the vector is kept until it is acknowledged (R285). -/
def Dev.colSend (d : Dev) (n k : Nat) (kind epoch total i pay : Nat) : Dev :=
  let c := d.ctxOf n
  match c.peer k with
  | none => d
  | some p =>
    let old := c.sent.find? (fun v => v.peer == k && v.kind == kind && v.epoch == epoch)
    let v := old.getD { peer := k, kind := kind, epoch := epoch, total := total }
    let v := { v with cells := Tbl.put i pay v.cells }
    let rest := c.sent.filter (fun v => !(v.peer == k && v.kind == kind && v.epoch == epoch))
    let d := d.putCtx n { c with sent := rest ++ [v], toHand := c.toHand + (if kind = 1 then 1 else 0) }
    d.pushCol n [d.colCell n p kind epoch i (i + 1 = total) pay false]

/-- To every child. -/
def Dev.colSendDown (d : Dev) (n kind epoch total i pay : Nat) : Dev :=
  (List.range (d.ctxOf n).kids.length).foldl (fun d k => d.colSend n (k + 1) kind epoch total i pay) d

/-- Place of a phase in the order of all phases (R284). -/
def phaseNo (kind epoch : Nat) : Nat := 4 * epoch + (match kind with
  | 2 => 0
  | 3 => 1
  | 0 => 2
  | _ => 3)

/-- A cell of a later phase from a peer acknowledges every earlier phase sent to it. -/
def ColCtx.heard (c : ColCtx) (k kind epoch : Nat) : ColCtx :=
  { c with sent := c.sent.filter (fun v => v.peer != k || phaseNo kind epoch ≤ phaseNo v.kind v.epoch) }

/-! ### Arithmetic (R265, R272 to R280) -/

/-- Elements of a vector of width w at positions from `at_` on. -/
def vecElem (v w k : Nat) : Nat := v / 2 ^ (w * k) % 2 ^ w
/-- A vector of n elements of width w. -/
def vecOf (g : Nat → Nat) (w n : Nat) : Nat := (List.range n).foldl (fun v k => v + g k % 2 ^ w * 2 ^ (w * k)) 0

/-- Cell i of the wire vector of a local contribution (R274). -/
def ColCtx.localCell (c : ColCtx) (data i : Nat) : Nat :=
  if !c.wide then bitsOf data (512 * i) 512
  else match fmtOf c.dtype, fmtOf 6 with
    | some f, some g => vecOf (fun k => if c.count ≤ 16 * i + k then 0 else
        g.encode false (f.decode (vecElem data f.width (16 * i + k)))) 32 16
    | _, _ => 0

/-- One combination of wire cells (R265). -/
def ColCtx.combine (c : ColCtx) (x y : Nat) : Nat :=
  let dt := if c.wide then 6 else c.dtype
  packedOp (elemOp c.op dt (c.sat && !c.wide)) (elemBits dt) x y (512 / elemBits dt)

/-- The wire result rounded to DTYPE at the root (R274). -/
def ColCtx.rounded (c : ColCtx) (v : Nat) : Nat :=
  if !c.wide then v % 2 ^ (8 * c.resBytes)
  else match fmtOf c.dtype, fmtOf 6 with
    | some f, some g => vecOf (fun k => f.encode c.sat (g.decode (vecElem v 32 k))) f.width c.count
    | _, _ => 0

/-- floor(log2 |x|) of a finite nonzero value. -/
def Fp.log2 : Fp → Option Int
  | .nan => none
  | .inf _ => none
  | .fin _ s e => if s = 0 then none else some (e + (Nat.log2 s : Int))

/-- The flags of an element (R275). -/
def Fp.flags : Fp → Nat
  | .nan => 1 + 8
  | .inf neg => (if neg then 4 else 2) + 8
  | .fin neg s _ => if neg && s = 0 then 0 else 8

/-- The pass-1 record of block b of a local contribution (R275). -/
def ColCtx.record (c : ColCtx) (data b : Nat) : Nat :=
  match fmtOf c.dtype with
  | none => 0
  | some f =>
    let xs := ((List.range 8).filter (fun j => 8 * b + j < c.count)).map (fun j => (j, f.decode (vecElem data f.width (8 * b + j))))
    let e := xs.foldl (fun (m : Int) x => match x.2.log2 with
      | some k => max m k
      | none => m) (-32768)
    unsigned e 16 + xs.foldl (fun v x => v + x.2.flags * 2 ^ (16 + 4 * x.1)) 0

/-- Records combined (R276). -/
def recCombine (x y : Nat) : Nat :=
  unsigned (max (signed (x % 2 ^ 16) 16) (signed (y % 2 ^ 16) 16)) 16 + (bitsOf x 16 32 ||| bitsOf y 16 32) * 2 ^ 16

/-- The 192-bit integer of an element at block exponent e (R277). -/
def Fp.fixed (e : Int) : Fp → Nat
  | .nan => 0
  | .inf _ => 0
  | .fin neg s x =>
    if e = -32768 then 0
    else
      let k := x - (e - 159)
      let q := if 0 ≤ k then s * 2 ^ k.toNat else s / 2 ^ (-k).toNat
      if neg then (2 ^ 192 - q) % 2 ^ 192 else q

/-- Block b of the pass-2 vector of a local contribution: eight 192-bit words (R279). -/
def ColCtx.fixedBlock (c : ColCtx) (data rec_ b : Nat) : Nat :=
  match fmtOf c.dtype with
  | none => 0
  | some f => vecOf (fun j => if c.count ≤ 8 * b + j then 0
      else (f.decode (vecElem data f.width (8 * b + j))).fixed (signed (rec_ % 2 ^ 16) 16)) 192 8

/-- The result of element j of a block from its record and its sum (R280). -/
def ColCtx.finish (c : ColCtx) (rec_ j sum : Nat) : Nat :=
  match fmtOf c.dtype with
  | none => 0
  | some f =>
    let fl := bitsOf rec_ (16 + 4 * j) 4
    let s := signed sum 192
    f.encode false (
      if fl % 2 = 1 || (fl / 2 % 2 = 1 && fl / 4 % 2 = 1) then .nan
      else if fl / 2 % 2 = 1 then .inf false
      else if fl / 4 % 2 = 1 then .inf true
      else if s = 0 then .fin (fl / 8 % 2 = 0) 0 0
      else .fin (s < 0) s.natAbs (signed (rec_ % 2 ^ 16) 16 - 159))

/-- A vector as cells, and back. -/
def joinCells (t : Tbl Nat) : Nat := t.foldl (fun v (e : Nat × Nat) => v + e.2 % 2 ^ 512 * 2 ^ (512 * e.1)) 0

/-- The result vector at the root (R263, R266). -/
def ColCtx.result (c : ColCtx) : Nat :=
  if c.kind = 0 then 0
  else if c.kind = 1 then (match Tbl.find c.contribs 0 with
    | some x => x.data % 2 ^ (8 * c.resBytes)
    | none => 0)
  else
    let v := joinCells c.upOut
    if !c.twoPass then c.rounded v
    else
      let recs := joinCells c.expAll
      vecOf (fun k => c.finish (vecElem recs 64 (k / 8)) (k % 8) (bitsOf v (1536 * (k / 8) + 192 * (k % 8)) 192)) (elemBits c.dtype) c.count

/-! ### Failure and close (R267, R268, R287 to R289) -/

/-- Thread th has made a col.step into epoch e of context n (R268). -/
def Dev.stepped (d : Dev) (th : Option Nat) (n e : Nat) : Dev :=
  match th with
  | none => d
  | some th => d.updThr th (fun t => { t with lastCol := some (n, e, none) })

/-- What an activation knows of its last col.step, once epoch e of context n has closed with `st`. -/
def closedCol (n e st : Nat) (x : Option (Nat × Nat × Option Nat)) : Option (Nat × Nat × Option Nat) :=
  if x = some (n, e, none) then some (n, e, some st) else x

/-- The open epoch closes with `st`. -/
def Dev.epochClose (d : Dev) (n st : Nat) : Dev :=
  let c := d.ctxOf n
  let e := d.cEpoch n
  let d := (d.ctrAddO c.ctr (d.cFn n)).ev 6 0 none (some (d.cFn n))
  let d := d.eng.th.foldl (fun d (x : Nat × Thread) =>
    let d := if x.2.lastCol = some (n, e, none) || x.2.trapCol = some (n, e, none) then
        d.updThr x.1 (fun t => { t with lastCol := closedCol n e st t.lastCol, trapCol := closedCol n e st t.trapCol })
      else d
    match x.2.stall with
    | .col m k wd => if m = n && k = e then (d.finish x.1 wd (mkWord (BitVec.ofNat 64 st) 0)).wakeThr x.1 else d
    | _ => d) d
  let d := c.contribs.foldl (fun d (x : Nat × Contrib) =>
    (d.disown (.colIn (n + 4096 * x.2.id))).updScope x.2.scope (fun s => { s with others := s.others - 1 }) |>.opEndO x.2.entry st) d
  d.updCtx n (fun c => { c with contribs := c.next, next := [], expAll := [], down := [], upOut := [], expOut := [], status := 0,
                                started := false, toHand := 0, placing := 0, epochs := e + 1 })

/-- Cells of context n that `p` holds of and that have not been injected are not sent any more. -/
def Dev.colUnsend (d : Dev) (n : Nat) (p : TxCell → Bool) : Dev :=
  let f := d.cFn n
  let keep := fun (t : TxCell) => t.col != some n || !p t
  { d with sch.col := Tbl.set [] f ((Tbl.get d.sch.col [] f).filter keep) d.sch.col, sch.retx := d.sch.retx.filter keep }

/-- A context that ends sends no more vectors and no LINK; its answers go out (R257, R288). -/
def Dev.unsendCol (d : Dev) (n : Nat) : Dev :=
  d.colUnsend n (fun t => t.cell.slot / 4096 < 4 || t.cell.slot / 4096 == 6)

/-- ABORT with ECHO 0 to a peer that has neither echoed one nor one under way (R288); its attempt runs from its leaving. One
whose attempts were exhausted while the context was FAILED is sent to again when it is destroyed (R258). -/
def Dev.abortTo (d : Dev) (n k : Nat) : Dev :=
  match (d.ctxOf n).peer k with
  | none => d
  | some p =>
    if p.echo || p.aborting then d
    else
      let d := d.updCtx n (fun c => c.updPeer k (fun p => { p with aborting := true, given := false, tries := 0 }))
      d.colOne n p 8 0 (d.rd F.COL_CTX_STAT_STATUS n * 2 ^ 16)

def Dev.abortAll (d : Dev) (n : Nat) (but : Option Nat) : Dev :=
  ((d.ctxOf n).peers.filter (fun e => some e.1 != but)).foldl (fun d e => d.abortTo n e.1) d

/-- The open epoch of a context that ends closes, and the next one where contributions are pending for it (R289). -/
def Dev.epochsEnd (d : Dev) (n st : Nat) : Dev :=
  let d := (d.disown (.colOut n)).unsendCol n
  let more := !(d.ctxOf n).next.isEmpty
  let d := (d.updCtx n (fun c => { c with sent := [] })).epochClose n st
  if more then d.epochClose n st else d

/-- The context fails (R287, R288). -/
def Dev.colFail (d : Dev) (n st : Nat) (but : Option Nat := none) : Dev :=
  if d.cSt n != cLinking && d.cSt n != cActive then d
  else
    let d := (d.wr F.COL_CTX_STAT_STATE n cFailed).wr F.COL_CTX_STAT_STATUS n st
    (d.epochsEnd n st).abortAll n but

/-! ### The phases (R263 to R266) -/

/-- Every local contribution of the epoch is made, with its data read (R264). -/
def ColCtx.localReady (c : ColCtx) : Bool := c.contribs.length == c.locals && c.contribs.all (fun e => e.2.reads == 0)

/-- Cell i of every child's input has arrived. -/
def ColCtx.kidsHave (c : ColCtx) (t : Tbl Nat) (i : Nat) : Bool :=
  (List.range c.kids.length).all (fun k => Tbl.has t (k * 4096 + i))
def ColCtx.kidCells (c : ColCtx) (t : Tbl Nat) (i : Nat) : List Nat :=
  (List.range c.kids.length).map (fun k => Tbl.get t 0 (k * 4096 + i))

/-- The inputs combined in the order of R265. Without any input the result is open (log entry 25). -/
def foldIn (g : Nat → Nat → Nat) (free : Nat) : List Nat → Nat
  | [] => free
  | x :: l => l.foldl g x

/-- A free cell. -/
def Dev.freeCell (d : Dev) : Dev × Nat :=
  (List.range 8).foldl (fun (x : Dev × Nat) k => let (w, d) := x.1.freeWord; (d, x.2 + w.toNat * 2 ^ (64 * k))) (d, 0)

/-- Element combinations that `inputs` inputs of a cell of so many elements take (R291). -/
def Dev.combined (d : Dev) (n inputs elems : Nat) : Dev := d.ev 6 1 none (some (d.cFn n)) ((inputs - 1) * elems)

/-- A cell of the vertex's own up vector is complete: the root keeps it, another vertex sends it. -/
def Dev.upCell (d : Dev) (n kind total i v : Nat) : Dev := if (d.ctxOf n).root then d else d.colSend n 0 kind (d.cEpoch n) total i v

/-- Cells of the exponent phase that can be made (R276). -/
def Dev.expGo (d : Dev) (n : Nat) : Dev :=
  (List.range (d.ctxOf n).expCells).foldl (fun d i =>
    let c := d.ctxOf n
    if Tbl.has c.expOut i || !c.kidsHave c.expIn i then d
    else
      let own := c.contribs.map (fun e => vecOf (fun k => if c.count ≤ 64 * i + 8 * k then 0 else c.record e.2.data (8 * i + k)) 64 8)
      let ins := own ++ c.kidCells c.expIn i
      let v := foldIn (fun x y => packedOp recCombine 64 x y 8) (vecOf (fun _ => 0x8000) 64 8) ins
      let d := (d.putCtx n { c with expOut := Tbl.put i v c.expOut }).combined n ins.length (min 64 (c.count - 64 * i))
      d.upCell n 2 c.expCells i v) d

/-- At the root the end of the up exponents phase starts the down exponents phase (R264). -/
def Dev.rootExp (d : Dev) (n : Nat) : Dev :=
  let c := d.ctxOf n
  if !c.root || !c.expAll.isEmpty || c.expOut.length != c.expCells then d
  else c.expOut.foldl (fun d x => d.colSendDown n 3 (d.cEpoch n) c.expCells x.1 x.2) (d.putCtx n { c with expAll := c.expOut })

/-- The bits of block b of the up data phase that cells `ms` of each child's input give. -/
def ColCtx.kidBlocks (c : ColCtx) (b : Nat) (ms : List Nat) : List Nat :=
  (List.range c.kids.length).map (fun k =>
    ms.foldl (fun v m => v + Tbl.get c.upIn 0 (k * 4096 + 3 * b + m) % 2 ^ 512 * 2 ^ (512 * m)) 0)

/-- Elements whose last word lies in cell m of a block. -/
def elemsIn (m : Nat) : Nat := if m = 0 then 2 else 3

/-- Cells of the data phase that can be made. In reproducible mode cell m of a block takes the carries of cell m - 1, in which
its first element may begin (R264, R277, R279). -/
def Dev.upGo (d : Dev) (n : Nat) : Dev :=
  let c := d.ctxOf n
  if c.twoPass then
    (List.range c.upCells).foldl (fun d i =>
      let c := d.ctxOf n
      let b := i / 3
      let m := i % 3
      let ms := if m = 0 then [0] else [m - 1, m]
      if Tbl.has c.upOut i || !ms.all (fun m => c.kidsHave c.upIn (3 * b + m)) then d
      else
        let recs := Tbl.get c.expAll 0 (b / 8)
        let own := c.contribs.map (fun e => c.fixedBlock e.2.data (vecElem recs 64 (b % 8)) b)
        let ins := own ++ c.kidBlocks b ms
        let cell := bitsOf (foldIn (fun x y => packedOp (fun p q => p + q) 192 x y 8) 0 ins) (512 * m) 512
        let d := d.combined n ins.length (min (elemsIn m) (c.count - 8 * b - (3 * m - 1)))
        (d.updCtx n (fun c => { c with upOut := Tbl.put i cell c.upOut })).upCell n 0 c.upCells i cell) d
  else
    (List.range c.upCells).foldl (fun d i =>
      let c := d.ctxOf n
      if Tbl.has c.upOut i || !c.kidsHave c.upIn i then d
      else
        let ins := if c.reduces then c.contribs.map (fun e => c.localCell e.2.data i) ++ c.kidCells c.upIn i else [0]
        let (d, free) := if ins.isEmpty then d.freeCell else (d, 0)
        let v := foldIn c.combine free ins
        let d := d.combined n ins.length (min (64 / c.wire) (c.count - 64 / c.wire * i))
        (d.updCtx n (fun c => { c with upOut := Tbl.put i v c.upOut })).upCell n 0 c.upCells i v) d

/-- Bytes of cell i of the result are placed (R266). -/
def Dev.colPlace (d : Dev) (n i v : Nat) : Dev :=
  let c := d.ctxOf n
  if !c.places || c.resBytes ≤ 64 * i then d
  else
    let f := d.cFn n
    let off := c.resOff + d.cEpoch n % c.slots * c.resBytes
    let (d, st) := if c.started then (d, c.status) else d.winUse c.resWin (localPeer f false) rLW off c.resBytes
    let d := d.putCtx n { c with started := true, status := st }
    if st != 0 then d
    else
      let m := min 64 (c.resBytes - 64 * i)
      let (d, k, st) := d.placeAt (.colOut n) f c.resWin (off + 64 * i) m (v % 2 ^ (8 * m))
      d.updCtx n (fun c => { c with placing := c.placing + k, status := if st = 0 then c.status else st })

/-- The placement of the open epoch has begun and is not over: an admitted use of RES_WIN (R266, R290). -/
def ColCtx.placingNow (c : ColCtx) : Bool :=
  c.placing != 0 || (c.started && c.status == 0 && c.down.length != c.downCells)

/-- The root's up phase has ended: the down phase starts, and the result is placed. -/
def Dev.rootDown (d : Dev) (n : Nat) : Dev :=
  let c := d.ctxOf n
  let (d, res) := if c.kind = 1 && c.locals = 0 then
      (List.range c.downCells).foldl (fun (x : Dev × Nat) i => let (d, v) := x.1.freeCell; (d, x.2 + v * 2 ^ (512 * i))) (d, 0)
    else (d, c.result)
  let d := (List.range c.downCells).foldl (fun d i =>
    let v := if c.downBytes = 0 then 0 else bitsOf (res % 2 ^ (8 * c.downBytes)) (512 * i) 512
    (d.updCtx n (fun c => { c with down := Tbl.put i v c.down })).colSendDown n 1 (d.cEpoch n) c.downCells i v) d
  (List.range (cellsOf c.resBytes)).foldl (fun d i => d.colPlace n i (bitsOf res (512 * i) 512)) d

/-- The up phases of the open epoch, as far as their inputs reach. -/
def Dev.upPhases (d : Dev) (n : Nat) : Dev :=
  let c := d.ctxOf n
  if d.cUp n != d.cEpoch n || !c.localReady then d
  else
    let d := if c.twoPass then (d.expGo n).rootExp n else d
    let c := d.ctxOf n
    if c.twoPass && c.expAll.length != c.expCells then d
    else
      let d := d.upGo n
      let c := d.ctxOf n
      if c.upOut.length != c.upCells then d
      else
        let d := d.updCtx n (fun c => { c with upIn := [], expIn := [], ups := c.ups + 1 })
        if c.root then d.rootDown n else d

/-- The epoch can close (R267). -/
def Dev.canClose (d : Dev) (n : Nat) : Bool :=
  let c := d.ctxOf n
  d.cUp n != d.cEpoch n && c.down.length == c.downCells && c.toHand == 0 && c.placing == 0

/-- What context n can do by itself. -/
def Dev.colRun (d : Dev) (n : Nat) : Nat → Dev
  | 0 => d
  | fuel + 1 =>
    if d.cSt n != cActive then d
    else
      let d := d.upPhases n
      if d.canClose n then (d.epochClose n (d.ctxOf n).status).colRun n fuel else d

/-- At most the open epoch and the next one have local contributions; a relay's close waits for cells. -/
def Dev.colGo (d : Dev) (n : Nat) : Dev := d.colRun n 4

/-! ### Linking (R257, R258) -/

/-- LINK to a peer. -/
def Dev.linkTo (d : Dev) (n k : Nat) (p : ColPeer) : Dev :=
  let c := d.ctxOf n
  let me := d.myDev * 1024 + d.cFn n
  d.colOne n p 6 0 (d.rd F.COL_CTX_TREE_TREE n + c.fp * 2 ^ 32 + me * 2 ^ 64 + n * 2 ^ 92 + (if k = 0 then 0 else 2 ^ 104))

/-- The context becomes ACTIVE once every peer has answered. -/
def Dev.linked (d : Dev) (n : Nat) : Dev :=
  if d.cSt n = cLinking && (d.ctxOf n).peers.all (fun e => e.2.linked) then (d.wr F.COL_CTX_STAT_STATE n cActive).colGo n else d

/-- COL_LINK_REPEAT. -/
def Dev.linkRepeat (d : Dev) (n : Nat) : Dev :=
  if d.cSt n != cLinking then d
  else
    let d := d.advanceTo ((d.ctxOf n).linkAt + usPs 20)
    let d := d.updCtx n (fun c => { c with linkAt := d.ps })
    ((d.ctxOf n).peers.filter (fun e => !e.2.linked)).foldl (fun d e => d.linkTo n e.1 e.2) d

/-- COL_LINK_TIMEOUT. -/
def Dev.linkTimeout (d : Dev) (n : Nat) : Dev :=
  if d.cSt n != cLinking then d
  else (d.advanceTo ((d.ctxOf n).born + msPs (d.ctxOf n).linkMs)).colFail n Status.COL_MEMBER_LOST

/-- RX_COL_LINK. -/
def Dev.rxLink (d : Dev) (cell : Cell) : Dev :=
  let d := d.taken cell
  let n := cell.slot % 4096
  let c := d.ctxOf n
  let me := cell.p 64 28
  let ctx := cell.p 92 12
  let toKid := cell.p 104 1 == 1
  match c.from_ cell.srcDev with
  | none => d.ev 6 3
  | some (k, p) =>
    if (d.cSt n != cLinking && d.cSt n != cActive) || p.endp != me || p.ctx != ctx || (k == 0) != toKid then d.ev 6 3
    else if cell.p 0 32 != d.rd F.COL_CTX_TREE_TREE n || cell.p 32 32 != c.fp then
      (d.colOne n p 7 0 Status.COL_BAD_DESC).colFail n Status.COL_BAD_DESC
    else d.colOne n p 7 0 0

/-- RX_COL_LINK_ACK. -/
def Dev.rxLinkAck (d : Dev) (cell : Cell) : Dev :=
  let d := d.taken cell
  let n := cell.slot % 4096
  match (d.ctxOf n).from_ cell.srcDev with
  | none => d.ev 6 2
  | some (k, _) =>
    if d.cSt n != cLinking && d.cSt n != cActive then d.ev 6 2
    else if cell.p 0 16 != 0 then d.colFail n Status.COL_BAD_DESC
    else (d.updCtx n (fun c => c.updPeer k (fun p => { p with linked := true }))).linked n

/-! ### Phase cells and acknowledgements (R283, R284) -/

/-- Cells of child k in an input. -/
def kidCount (t : Tbl Nat) (k : Nat) : Nat := (t.filter (fun e => e.1 / 4096 == k)).length

/-- RX_COL_UP and RX_COL_UP_EXP. -/
def Dev.rxUp (d : Dev) (cell : Cell) (exp : Bool) : Dev :=
  let d := d.taken cell
  let n := cell.slot % 4096
  let c := d.ctxOf n
  let up := d.cUp n
  let i := cell.idx
  match c.from_ cell.srcDev with
  | none => d.ev 6 2
  | some (0, _) => d.ev 6 2
  | some (k + 1, p) =>
    let total := if exp then c.expCells else c.upCells
    if d.cSt n != cActive || (exp && !c.twoPass) then d.ev 6 2
    else if cell.gen = up % 16 then
      let c := c.heard (k + 1) (if exp then 2 else 0) up
      let d := d.putCtx n c
      let t := if exp then c.expIn else c.upIn
      if total ≤ i || Tbl.has t (k * 4096 + i) then d.ev 6 2
      else
        let t := Tbl.put (k * 4096 + i) cell.pay.toNat t
        let d := d.putCtx n (if exp then { c with expIn := t } else { c with upIn := t })
        let d := if kidCount t k = total then d.colAck n p 4 up exp cell.tstamp else d
        d.colGo n
    else if up != 0 && cell.gen = (up - 1) % 16 then (d.colAck n p 4 (up - 1) exp cell.tstamp).ev 6 2
    else d.ev 6 2

/-- RX_COL_DOWN and RX_COL_DOWN_EXP: kept, forwarded and placed. -/
def Dev.rxDown (d : Dev) (cell : Cell) (exp : Bool) : Dev :=
  let d := d.taken cell
  let n := cell.slot % 4096
  let c := d.ctxOf n
  let e := d.cEpoch n
  let i := cell.idx
  let v := cell.pay.toNat
  match c.from_ cell.srcDev with
  | some (0, p) =>
    let total := if exp then c.expCells else c.downCells
    if d.cSt n != cActive || (exp && !c.twoPass) then d.ev 6 2
    else if cell.gen = e % 16 then
      let c := c.heard 0 (if exp then 3 else 1) e
      let d := d.putCtx n c
      let t := if exp then c.expAll else c.down
      if total ≤ i || Tbl.has t i then d.ev 6 2
      else
        let t := Tbl.put i v t
        let d := d.putCtx n (if exp then { c with expAll := t } else { c with down := t })
        let d := if t.length = total then d.colAck n p 5 e exp cell.tstamp else d
        let d := d.colSendDown n (if exp then 3 else 1) e total i v
        (if exp then d else d.colPlace n i v).colGo n
    else if e != 0 && cell.gen = (e - 1) % 16 then (d.colAck n p 5 (e - 1) exp cell.tstamp).ev 6 2
    else d.ev 6 2
  | _ => d.ev 6 2

/-- RX_COL_UP_ACK and RX_COL_DOWN_ACK: the vector is released, and its stamp gives a sample (R333). -/
def Dev.rxAck (d : Dev) (cell : Cell) (up : Bool) : Dev :=
  let d := d.taken cell
  let n := cell.slot % 4096
  let c := d.ctxOf n
  let exp := cell.p 32 1 == 1
  let kind := if up then (if exp then 2 else 0) else (if exp then 3 else 1)
  match c.from_ cell.srcDev with
  | none => d.ev 6 2
  | some (k, _) =>
    if (k == 0) != up then d.ev 6 2
    else match c.sent.find? (fun v => v.peer == k && v.kind == kind && v.epoch % 2 ^ 32 == cell.p 0 32 && v.cells.length == v.total) with
      | none => d
      | some v =>
        let d := d.putCtx n { c with sent := c.sent.erase v }
        if (v.sentAt.isSome || v.attempt != 0) && d.ns < v.first + 262144 then d.ccSample cell.srcDev cell.tstamp none 0 false else d

/-! ### Retries, aborts, destruction (R258, R259, R285, R287, R288) -/

/-- The end of a vector's attempt, where it has been transmitted. -/
def SentVec.due (v : SentVec) : Option Nat := v.sentAt.map (fun t => t + nsPs (retryInterval v.base v.attempt))

/-- The vector to a peer whose attempt ends first. -/
def ColCtx.firstDue (c : ColCtx) (k : Nat) : Option (SentVec × Nat) :=
  c.sent.foldl (fun b v =>
    match v.peer == k && v.cells.length == v.total, v.due, b with
    | true, some t, none => some (v, t)
    | true, some t, some (w, u) => if t < u then some (v, t) else some (w, u)
    | _, _, b => b) none

/-- COL_PHASE_RETRY: cells of an earlier retransmission that still wait give way. -/
def Dev.phaseRetry (d : Dev) (n k : Nat) : Dev :=
  match (d.ctxOf n).firstDue k, (d.ctxOf n).peer k with
  | some (v, due), some p =>
    if d.cSt n != cActive then d
    else
      let d := d.advanceTo due
      if d.retryLimit ≤ v.attempt then d.colFail n Status.COL_MEMBER_LOST
      else
        let cs := v.cells.map (fun (e : Nat × Nat) => d.colCell n p v.kind v.epoch e.1 (e.1 + 1 = v.total) e.2 true)
        let d := d.updCtx n (fun c => { c with
          sent := c.sent.map (fun x => if x = v then { v with attempt := v.attempt + 1, sentAt := none } else x) })
        let d := (d.colUnsend n (fun t => t.retx && cs.any (fun s => s.cell.dstDev == t.cell.dstDev && s.cell.slot == t.cell.slot &&
          s.cell.gen == t.cell.gen))).ev 6 5 none (some (d.cFn n))
        ({ d with nextTag := d.nextTag + 1 } : Dev).pushRetx d.nextTag (cs.map (fun t : TxCell => { t with trig := d.nextTag }))
  | _, _ => d

/-- COL_ABORT_RETRY. -/
def Dev.abortRetry (d : Dev) (n k : Nat) : Dev :=
  match (d.ctxOf n).peer k with
  | none => d
  | some p => match p.abortAt with
    | none => d
    | some t =>
      let d := d.advanceTo (t + nsPs (retryInterval p.base p.tries))
      if d.retryLimit ≤ p.tries then
        d.updCtx n (fun c => c.updPeer k (fun p => { p with aborting := false, abortAt := none, given := true }))
      else
        let d := d.updCtx n (fun c => c.updPeer k (fun p => { p with abortAt := none, tries := p.tries + 1 }))
        d.colOne n p 8 0 (d.rd F.COL_CTX_STAT_STATUS n * 2 ^ 16)

/-- RX_COL_ABORT. -/
def Dev.rxAbort (d : Dev) (cell : Cell) : Dev :=
  let d := d.taken cell
  let n := cell.slot % 4096
  match (d.ctxOf n).from_ cell.srcDev with
  | none => d.ev 6 2
  | some (k, p) =>
    if cell.p 0 1 = 1 then
      -- Before the context fails there are no retries for an echo to end.
      if d.cSt n = cLinking || d.cSt n = cActive then d
      else (d.updCtx n (fun c => c.updPeer k (fun p => { p with echo := true, aborting := false, abortAt := none }))).colUnsend n
        (fun t => t.cell.slot / 4096 == 8 && t.cell.dstDev == cell.srcDev && t.cell.p 0 1 == 0)
    else
      let d := d.colOne n p 8 0 (1 + cell.p 16 16 * 2 ^ 16)
      d.colFail n Status.COL_MEMBER_LOST (some k)

/-- Context n is destroyed (R258, R259). -/
def Dev.colDestroy (d : Dev) (n : Nat) : Dev :=
  let open_ := d.cSt n == cLinking || d.cSt n == cActive
  let d := d.wr F.COL_CTX_STAT_STATE n cDraining
  let d := if open_ then d.epochsEnd n Status.COL_MEMBER_LOST else d
  d.abortAll n none

/-- COL_CTX_FREE. -/
def Dev.colFree (d : Dev) (n : Nat) : Dev :=
  let c := d.ctxOf n
  let f := d.cFn n
  if d.cSt n != cDraining || c.peers.any (fun e => !e.2.echo && !e.2.given) ||
      (Tbl.get d.sch.col [] f ++ d.sch.retx).any (fun t => t.col == some n) then d
  else
    let d := d.advanceTo (c.lastSent + d.quietPs)
    let d := { d.freeAll c.bufs 3 n with col.ctxs := Tbl.del n d.col.ctxs }
    (d.setReg R.COL_CTX_STAT n 0).setReg R.COL_CTX_TREE n 0

/-- Contexts of a function that enters DRAINING (R259). -/
def Dev.colDrain (d : Dev) (f : Nat) : Dev :=
  (d.col.ctxs.filter (fun e => d.cFn e.1 == f && d.cSt e.1 != cDraining)).foldl (fun d e => d.colDestroy e.1) d

/-- An attempt begins when its first cell leaves (R285, with R180). -/
def SentVec.left (v : SentVec) (d : Dev) (dev : Nat) : SentVec :=
  if v.sentAt.isSome then v
  else if v.attempt = 0 then { v with sentAt := some d.ps, first := d.ns, base := d.ccBaseOf dev }
  else { v with sentAt := some d.ps }
def ColPeer.left (p : ColPeer) (d : Dev) : ColPeer :=
  if !p.aborting || p.abortAt.isSome then p
  else { p with abortAt := some d.ps, base := if p.tries = 0 then d.ccBaseOf (p.endp / 1024) else p.base }

/-- What a context notes of a cell of its own that leaves. -/
def Dev.colLeft (d : Dev) (n : Nat) (t : TxCell) : Dev :=
  match (d.ctxOf n).from_ t.cell.dstDev with
  | none => d
  | some (k, _) =>
    let kind := t.cell.slot / 4096
    if kind = 8 && t.cell.p 0 1 = 0 then d.updCtx n (fun c => c.updPeer k (fun p => p.left d))
    else if kind < 4 then d.updCtx n (fun c => { c with sent := c.sent.map (fun v =>
      if v.peer = k && v.kind = kind && v.epoch % 16 = t.cell.gen then v.left d t.cell.dstDev else v) })
    else d

/-- A cell of context n has been injected: of a first transmission of the down phase it brings the close nearer (R267). -/
def Dev.colInjected (d : Dev) (n : Nat) (t : TxCell) : Dev :=
  let d := (d.updCtx n (fun c => { c with lastSent := d.ps })).colLeft n t
  if t.cell.slot / 4096 = 1 && !t.retx && t.cell.gen = d.cEpoch n % 16 then
    (d.updCtx n (fun c => { c with toHand := c.toHand - 1 })).colGo n
  else d

/-! ### Local contributions (R260 to R262) -/

/-- The checks of R260; 0 where all pass. A FREE context has no owner to compare (DEDUCED, log entry 25). -/
def Dev.stepCheck (d : Dev) (fn : Nat) (priv : Bool) (a b : Word) : Nat :=
  let n := getBits a 0 12
  let c := d.ctxOf n
  let st := d.cSt n
  let l := getBits b 48 6
  if getBits b 54 10 != 0 || getBits a 12 20 != 0 || (st != cFree && c.locals ≤ l) then Status.ARG
  else if st != cFree && d.cFn n != fn then Status.COL_BAD_DESC
  else if st = cFree || st = cDraining then Status.COL_NO_CONTEXT
  else if st = cFailed then d.rd F.COL_CTX_STAT_STATUS n
  else if Tbl.has c.contribs l && Tbl.has c.next l then Status.COL_EPOCH
  else if !c.needs l then 0
  else d.winCheck (getBits a 32 32) (localPeer fn priv) rLR (getBits b 0 48) c.resBytes

/-- Contribution number `id` of context n changed. -/
def ColCtx.updContrib (c : ColCtx) (id : Nat) (g : Contrib → Contrib) : ColCtx :=
  let up := fun (t : Tbl Contrib) => t.map (fun (e : Nat × Contrib) => if e.2.id = id then (e.1, g e.2) else e)
  { c with contribs := up c.contribs, next := up c.next }

/-- The look-up that the check of a col.step with data makes. -/
def Dev.stepLook (d : Dev) (a b : Word) : Dev :=
  if (d.ctxOf (getBits a 0 12)).needs (getBits b 48 6) then d.winLook (getBits a 32 32) else d

/-- col.step, issued or deferred: its status, and the epoch that it joined. -/
def Dev.colStep (d : Dev) (th : Option Nat) (scope : Scope) (fn : Nat) (priv : Bool) (a b : Word) : Dev × Nat × Option Nat :=
  let st := d.stepCheck fn priv a b
  let n := getBits a 0 12
  let (d, r) := d.opStartTh th
  let d := if st = 0 || st ≤ Status.WIN_ARG then d.stepLook a b else d
  if st != 0 then ((d.winFail (if st ≤ Status.WIN_ARG then st else 0)).opEndO r st, st, none)
  else
    let c := d.ctxOf n
    let l := getBits b 48 6
    let now := !Tbl.has c.contribs l
    let id := d.nextTag
    let x : Contrib := { id := id, win := getBits a 32 32, off := getBits b 0 48, scope := scope, entry := r }
    let d := { d with nextTag := id + 1 }.updScope scope (fun s => { s with others := s.others + 1 })
    let d := d.putCtx n (if now then { c with contribs := Tbl.put l x c.contribs } else { c with next := Tbl.put l x c.next })
    let e := d.cEpoch n + (if now then 0 else 1)
    let d := d.stepped th n e
    if !c.needs l then (d.colGo n, 0, some e)
    else
      let (d, k, fail) := d.winReadAll (.colIn (n + 4096 * id)) x.win x.off c.resBytes
      if fail != 0 then (d.colFail n fail, 0, some e)
      else ((d.updCtx n (fun c => c.updContrib id (fun x => { x with reads := k }))).colGo n, 0, some e)

/-- A part of contribution `key` (context + 4,096 * number) has been read, or its read has failed with `st`. -/
def Dev.contribRead (d : Dev) (key off n : Nat) (v : Option Nat) (st : Nat) : Dev :=
  match v with
  | none => d.colFail (key % 4096) st
  | some v => (d.updCtx (key % 4096) (fun c => c.updContrib (key / 4096) (fun x =>
      { x with reads := x.reads - 1, data := x.data + v % 2 ^ (8 * n) * 2 ^ (8 * off) }))).colGo (key % 4096)

/-- A placement write that waited for its translation is issued, or has failed. -/
def Dev.colWrote (d : Dev) (n : Nat) (ok : Bool) : Dev :=
  (d.updCtx n (fun c => { c with placing := c.placing - 1, status := if ok then c.status else Status.WIN_XLT })).colGo n

/-- The contribution of context n whose read from `off` is the oldest outstanding. -/
def Dev.findContrib (d : Dev) (n off : Nat) : Option Nat :=
  d.reads.findSome? (fun e => match e.2.why with
    | .own (.colIn k) o _ => if k % 4096 = n && o = off then some k else none
    | _ => none)

/-- COL_CONTRIB_READ_DONE: the oldest read of the context at this offset. -/
def Dev.contribDone (d : Dev) (n off : Nat) (cpl : Cpl) : Dev :=
  match d.findContrib n off with
  | none => d
  | some key => match d.ownRead (.colIn key) off cpl with
    | (d, some (m, v)) => d.contribRead key off m v Status.HOST_ERROR
    | (d, none) => d

/-! ### Creation (R253, R254) -/

/-- The combinations of R270. -/
def ColCtx.allowed (c : ColCtx) : Bool :=
  if c.dtype > 12 || 6 < c.op then false
  else if !c.reduces then c.op == 0 && !c.wide && !c.sat
  else if !opAllowed c.op c.dtype then false
  else
    let small := 7 ≤ c.dtype && c.dtype ≤ 10
    (!c.wide || (small && c.op ≤ 1)) && (!c.sat || (9 ≤ c.dtype && c.dtype ≤ 10)) &&
    (!c.repro || !isFloat c.dtype || 2 ≤ c.op || (!small && c.op == 0))

/-- The descriptor at scratch address a, as words. -/
def Dev.colWords (d : Dev) (th a n : Nat) : List TWord := (List.range n).map (fun k => d.scrWord (clusterOf th) (a + 8 * k))

/-- The context that descriptor words w describe. -/
def colOf (w : Nat → Word) (nkids : Nat) : ColCtx :=
  let w0 := w 0
  { kind := getBits w0 0 2, repro := getBits w0 2 1 == 1, wide := getBits w0 3 1 == 1, sat := getBits w0 4 1 == 1,
    root := getBits w0 5 1 == 1, op := getBits w0 8 5, dtype := getBits w0 16 4, locals := getBits w0 32 7,
    count := getBits (w 1) 32 32, resOff := getBits (w 2) 0 48, slots := getBits (w 2) 48 16 + 1, resWin := getBits (w 3) 0 32,
    ctr := if getBits (w 3) 48 1 = 1 then some (getBits (w 3) 32 16) else none
    parent := if getBits w0 5 1 = 1 then none else some { endp := getBits (w 4) 0 28, ctx := getBits (w 4) 28 12 }
    kids := (List.range nkids).map (fun i => { endp := getBits (w (5 + i)) 0 28, ctx := getBits (w (5 + i)) 28 12 })
    fp := getBits w0 0 5 + getBits w0 8 5 * 2 ^ 5 + getBits w0 16 4 * 2 ^ 10 + getBits (w 1) 32 18 * 2 ^ 14 }

/-- Reserved bits of the descriptor are set, or a word is poisoned. -/
def colBad (ws : List TWord) (w : Nat → Word) (nkids : Nat) : Bool :=
  ws.any isPoison || getBits (w 0) 7 1 != 0 || getBits (w 0) 13 3 != 0 || getBits (w 0) 39 1 != 0 || getBits (w 0) 45 19 != 0 ||
  getBits (w 3) 49 15 != 0 || (getBits (w 0) 5 1 == 0 && getBits (w 4) 40 24 != 0) ||
  (List.range nkids).any (fun i => getBits (w (5 + i)) 40 24 != 0)

/-- COUNT is within the limits of R256. -/
def ColCtx.countOk (c : ColCtx) : Bool :=
  if c.kind = 0 then c.count == 0
  else c.count != 0 && (if c.twoPass then c.count ≤ 8192
    else if c.kind = 1 then c.resBytes ≤ 262144 else c.count * c.wire ≤ 262144)

/-- The first FREE context, or the one required. -/
def Dev.freeCtx (d : Dev) (any : Bool) (req : Nat) : Option Nat :=
  if !any then (if d.cSt req = cFree then some req else none)
  else firstFreeFrom (fun k => d.cSt k != cFree) 4096 0 (d.col.ctxs.length + 1)

/-- Staging that the contexts of f hold. -/
def Dev.stageOf (d : Dev) (f : Nat) : Nat := (d.col.ctxs.filter (fun e => d.cFn e.1 == f)).foldl (fun n e => n + e.2.stage) 0

/-- The check of R254 that fails first, or the context that is made, with the LINKs sent. -/
def Dev.colCreate (d : Dev) (fn : Nat) (priv : Bool) (ws : List TWord) : Dev × Nat × Option Nat :=
  let w := fun k => TWord.val (ws.getD k 0)
  let nk := getBits (w 0) 40 5
  let c := colOf w (min nk 16)
  let devs := c.peers.map (fun e => e.2.endp / 1024)
  let foreign := match c.ctr with
    | some k => d.ctrOwner k != some fn
    | none => false
  if colBad ws w (min nk 16) || !c.allowed || !c.countOk || 16 < nk || 64 < c.locals || (c.root && c.locals = 0 && nk = 0) ||
      devs.eraseDups.length != devs.length || foreign then (d, Status.COL_BAD_DESC, none)
  else
    let (d, st) := if c.resWin = 0 then (d, 0) else d.winUse c.resWin (localPeer fn priv) rLW
      (if c.resBytes = 0 then 0 else c.resOff) (c.slots * c.resBytes)
    if st != 0 then (d, st, none)
    else if d.rd F.COL_FN_CFG_CTX_MAX fn ≤ (d.col.ctxs.filter (fun e => d.cFn e.1 == fn)).length then (d, Status.COL_NO_CONTEXT, none)
    else match d.freeCtx (getBits (w 0) 6 1 == 1) (getBits (w 0) 20 12) with
      | none => (d, Status.COL_NO_CONTEXT, none)
      | some n =>
        if d.rd F.COL_FN_CFG_STAGE_MAX_MIB fn * 2 ^ 20 < d.stageOf fn + c.staging ||
            min (d.rd F.COL_CFG_STAGE_MIB) 32768 * 2 ^ 20 < tblSum d.col.ctxs ColCtx.stage + c.staging then
          (d, Status.COL_NO_BUFFER, none)
        else match d.alloc 3 n ((c.staging + 2047) / 2048) with
          | (d, none) => (d, Status.COL_NO_BUFFER, none)
          | (d, some l) =>
            let d := d.putCtx n { c with bufs := l, stage := c.staging, born := d.ps, linkAt := d.ps, lastSent := d.ps,
                                         linkMs := max 1 (d.rd F.COL_CFG_LINK_MS) }
            let d := (d.setReg R.COL_CTX_STAT n 0).setReg R.COL_CTX_TREE n (BitVec.ofNat 64 (getBits (w 1) 0 32))
            let d := (d.wr F.COL_CTX_STAT_STATE n cLinking).wr F.COL_CTX_STAT_FN n fn
            (((d.ctxOf n).peers.foldl (fun d e => d.linkTo n e.1 e.2) d).linked n, 0, some n)

/-! ### Instructions (R65) -/

def execColStep (th : Tid) (f : FmtA) (ext : Ext) (s : State) : Host.Outcome State Fault Refusal :=
  onRma s (fun d => d.issueA 0x58 th f ext (f.fn != 0) (fun d => noPoison d th [f.wa.toNat, f.wb.toNat] (fun _ =>
    let t := d.thr th
    let a := t.val f.wa.toNat
    if d.fencing (t.scope th) then .done d
    else
      let (d, st, _) := d.colStep (some th) (t.scope th) t.fn t.priv a (t.val f.wb.toNat)
      .next (d.setVal th f.wd.toNat st))))

def execColWait (th : Tid) (f : FmtA) (ext : Ext) (s : State) : Host.Outcome State Fault Refusal :=
  onRma s (fun d => d.issueA 0x59 th f ext (f.wa != 0 || f.wb != 0 || f.fn != 0) (fun d =>
    match (d.thr th).lastCol with
    | none => .next (d.setVal th f.wd.toNat 0)
    | some (_, _, some st) => .next (d.setVal th f.wd.toNat st)
    | some (n, e, none) => .done ((d.stall th (.col n e f.wd.toNat)).restThr th)))

/-- col.red (R271). -/
def execColRed (th : Tid) (f : FmtA) (ext : Ext) (s : State) : Host.Outcome State Fault Refusal :=
  let op := f.fn.toNat / 16
  let dt := f.fn.toNat % 16
  onDev s (fun d => d.issueA 0x5A th f ext (!opAllowed op dt || 12 < dt) (fun d =>
    let t := d.thr th
    let x := t.reg f.wa.toNat
    let y := t.reg f.wb.toNat
    let w := elemBits dt
    let v := packedOp (elemOp op dt false) w (TWord.val x).toNat (TWord.val y).toNat (64 / w)
    .next (d.setW th f.wd.toNat (mkWord (BitVec.ofNat 64 v) (resultTag dt (isPoison x || isPoison y) false)))))

/-- Scratch words of a descriptor that pass the gate. -/
def Dev.scratchAll (d : Dev) (th a : Nat) (k : Unit → IRes) : Nat → IRes
  | 0 => k ()
  | n + 1 => d.scratchOk th (a + 8 * n) 1 (fun _ => d.scratchAll th a k n)

def execColCtxCreate (th : Tid) (f : FmtA) (ext : Ext) (s : State) : Host.Outcome State Fault Refusal :=
  onRma s (fun d => if f.fn != 0 then d else d.issueA 0x5B th f ext (f.wb != 0) (fun d => noPoison d th [f.wa.toNat] (fun _ =>
    let t := d.thr th
    let a := (t.val f.wa.toNat).toNat
    aligned a 8 (fun _ => d.scratchAll th a (fun _ =>
      let nk := min 16 (getBits (TWord.val (d.scrWord (clusterOf th) a)) 40 5)
      d.scratchAll th a (fun _ =>
        let (d, st, n) := d.colCreate t.fn t.priv (d.colWords th a (5 + nk))
        .next (d.setW th f.wd.toNat (match n with
          | some n => mkWord (BitVec.ofNat 64 n) 0
          | none => mkWord (BitVec.ofNat 64 st) 16))) (5 + nk)) 5))))

def execColCtxDestroy (th : Tid) (f : FmtA) (ext : Ext) (s : State) : Host.Outcome State Fault Refusal :=
  onRma s (fun d => if f.fn = 0 then d else d.issueA 0x5B th f ext (f.fn != 1 || f.wb != 0) (fun d =>
    noPoison d th [f.wa.toNat] (fun _ =>
      let t := d.thr th
      let a := (t.val f.wa.toNat).toNat
      aligned a 8 (fun _ => d.scratchOk th a 1 (fun _ =>
        let w := d.scrWord (clusterOf th) a
        let n := getBits (TWord.val w) 0 12
        if isPoison w then .trap tcPoison (BitVec.ofNat 64 f.wa.toNat)
        else if d.cSt n = cFree || d.cSt n = cDraining then .next (d.setVal th f.wd.toNat Status.COL_NO_CONTEXT)
        else if d.cFn n != t.fn then .next (d.setVal th f.wd.toNat Status.COL_BAD_DESC)
        else .next ((d.colDestroy n).setVal th f.wd.toNat 0))))))

/-! ### Commands -/

/-- A COL cell of kind `k` for this device. -/
def Dev.isCol (d : Dev) (c : Cell) (k : Nat) : Bool := c.cls == 2 && c.dstDev == d.myDev && c.slot / 4096 == k

def execRxColUp (c : Cell) (s : State) : Host.Outcome State Fault Refusal := onCell s (fun d => d.isCol c 0) (fun d => d.rxUp c false)
def execRxColDown (c : Cell) (s : State) : Host.Outcome State Fault Refusal :=
  onCell s (fun d => d.isCol c 1) (fun d => d.rxDown c false)
def execRxColUpExp (c : Cell) (s : State) : Host.Outcome State Fault Refusal :=
  onCell s (fun d => d.isCol c 2) (fun d => d.rxUp c true)
def execRxColDownExp (c : Cell) (s : State) : Host.Outcome State Fault Refusal :=
  onCell s (fun d => d.isCol c 3) (fun d => d.rxDown c true)
def execRxColUpAck (c : Cell) (s : State) : Host.Outcome State Fault Refusal :=
  onCell s (fun d => d.isCol c 4) (fun d => d.rxAck c true)
def execRxColDownAck (c : Cell) (s : State) : Host.Outcome State Fault Refusal :=
  onCell s (fun d => d.isCol c 5) (fun d => d.rxAck c false)
def execRxColLink (c : Cell) (s : State) : Host.Outcome State Fault Refusal := onCell s (fun d => d.isCol c 6) (fun d => d.rxLink c)
def execRxColLinkAck (c : Cell) (s : State) : Host.Outcome State Fault Refusal :=
  onCell s (fun d => d.isCol c 7) (fun d => d.rxLinkAck c)
def execRxColAbort (c : Cell) (s : State) : Host.Outcome State Fault Refusal := onCell s (fun d => d.isCol c 8) (fun d => d.rxAbort c)
/-- RX_COL_KIND_RESERVED (R282). -/
def execRxColKindReserved (c : Cell) (s : State) : Host.Outcome State Fault Refusal :=
  onCell s (fun d => c.cls == 2 && c.dstDev == d.myDev && 9 ≤ c.slot / 4096) (fun d => (d.taken c).ev 6 4)
def execColLinkRepeat (n : Cid) (s : State) : Host.Outcome State Fault Refusal := onRma s (fun d => d.linkRepeat n.toNat)
def execColLinkTimeout (n : Cid) (s : State) : Host.Outcome State Fault Refusal := onRma s (fun d => d.linkTimeout n.toNat)
def execColPhaseRetry (n : Cid) (peer : Nat) (s : State) : Host.Outcome State Fault Refusal := onRma s (fun d => d.phaseRetry n.toNat peer)
def execColAbortRetry (n : Cid) (peer : Nat) (s : State) : Host.Outcome State Fault Refusal := onRma s (fun d => d.abortRetry n.toNat peer)
def execColContribReadDone (n : Cid) (off : Nat) (cpl : Cpl) (s : State) : Host.Outcome State Fault Refusal :=
  onRma s (fun d => d.contribDone n.toNat off cpl)
def execColCtxFree (n : Cid) (s : State) : Host.Outcome State Fault Refusal := onRma s (fun d => d.colFree n.toNat)
/-- COL_CTX_ABORT: ignored unless LINKING or ACTIVE. -/
def execColCtxAbort (n : Cid) (s : State) : Host.Outcome State Fault Refusal := onRma s (fun d => d.colFail n.toNat Status.COL_MEMBER_LOST)

end Sys2Proof.Machine
end

