-- ==== Sys2Proof/Machine/Crypto.lean ====
section
/-! DEFINITION. SHA-384 (FIPS 180-4) and the verification of ECDSA signatures on P-384 (FIPS 186-5), by which R504 judges an
image. Byte strings are numbers, byte k in bits [8k+7:8k]; digests, keys and signatures are big-endian numbers (R503). -/

namespace Sys2Proof.Machine

/-! ### SHA-384 -/

/-- Byte k of a byte string. -/
def byteOf (v k : Nat) : Nat := v / 2 ^ (8 * k) % 256

/-- Bytes [off + n - 1 : off] of a byte string as a big-endian number. -/
def bigEnd (v off n : Nat) : Nat := (List.range n).foldl (fun x k => x * 256 + byteOf v (off + k)) 0

/-- The constants of the rounds. -/
def shaK : List Nat :=
   [0x428a2f98d728ae22, 0x7137449123ef65cd, 0xb5c0fbcfec4d3b2f, 0xe9b5dba58189dbbc,
    0x3956c25bf348b538, 0x59f111f1b605d019, 0x923f82a4af194f9b, 0xab1c5ed5da6d8118,
    0xd807aa98a3030242, 0x12835b0145706fbe, 0x243185be4ee4b28c, 0x550c7dc3d5ffb4e2,
    0x72be5d74f27b896f, 0x80deb1fe3b1696b1, 0x9bdc06a725c71235, 0xc19bf174cf692694] ++
   [0xe49b69c19ef14ad2, 0xefbe4786384f25e3, 0xfc19dc68b8cd5b5, 0x240ca1cc77ac9c65,
    0x2de92c6f592b0275, 0x4a7484aa6ea6e483, 0x5cb0a9dcbd41fbd4, 0x76f988da831153b5,
    0x983e5152ee66dfab, 0xa831c66d2db43210, 0xb00327c898fb213f, 0xbf597fc7beef0ee4,
    0xc6e00bf33da88fc2, 0xd5a79147930aa725, 0x6ca6351e003826f, 0x142929670a0e6e70] ++
   [0x27b70a8546d22ffc, 0x2e1b21385c26c926, 0x4d2c6dfc5ac42aed, 0x53380d139d95b3df,
    0x650a73548baf63de, 0x766a0abb3c77b2a8, 0x81c2c92e47edaee6, 0x92722c851482353b,
    0xa2bfe8a14cf10364, 0xa81a664bbc423001, 0xc24b8b70d0f89791, 0xc76c51a30654be30,
    0xd192e819d6ef5218, 0xd69906245565a910, 0xf40e35855771202a, 0x106aa07032bbd1b8] ++
   [0x19a4c116b8d2d0c8, 0x1e376c085141ab53, 0x2748774cdf8eeb99, 0x34b0bcb5e19b48a8,
    0x391c0cb3c5c95a63, 0x4ed8aa4ae3418acb, 0x5b9cca4f7763e373, 0x682e6ff3d6b2b8a3,
    0x748f82ee5defb2fc, 0x78a5636f43172f60, 0x84c87814a1f0ab72, 0x8cc702081a6439ec,
    0x90befffa23631e28, 0xa4506cebde82bde9, 0xbef9a3f7b2c67915, 0xc67178f2e372532b] ++
   [0xca273eceea26619c, 0xd186b8c721c0c207, 0xeada7dd6cde0eb1e, 0xf57d4f7fee6ed178,
    0x6f067aa72176fba, 0xa637dc5a2c898a6, 0x113f9804bef90dae, 0x1b710b35131c471b,
    0x28db77f523047d84, 0x32caab7b40c72493, 0x3c9ebe0a15c9bebc, 0x431d67c49c100d4c,
    0x4cc5d4becb3e42b6, 0x597f299cfc657e2a, 0x5fcb6fab3ad6faec, 0x6c44198c4a475817]

/-- The initial hash value. -/
def shaH : List Nat :=
   [0xcbbb9d5dc1059ed8, 0x629a292a367cd507, 0x9159015a3070dd17, 0x152fecd8f70e5939,
    0x67332667ffc00b31, 0x8eb44a8768581511, 0xdb0c2e0d64f98fa7, 0x47b5481dbefa4fa4]

abbrev w64 : Nat := 2 ^ 64
def rotr (x n : Nat) : Nat := x / 2 ^ n + x % 2 ^ n * 2 ^ (64 - n)
def shaBig0 (x : Nat) : Nat := (rotr x 28 ^^^ rotr x 34) ^^^ rotr x 39
def shaBig1 (x : Nat) : Nat := (rotr x 14 ^^^ rotr x 18) ^^^ rotr x 41
def shaSmall0 (x : Nat) : Nat := (rotr x 1 ^^^ rotr x 8) ^^^ x / 2 ^ 7
def shaSmall1 (x : Nat) : Nat := (rotr x 19 ^^^ rotr x 61) ^^^ x / 2 ^ 6

/-- Byte i of a message of n bytes as padded to `blocks` blocks of 128. -/
def shaByte (v n blocks i : Nat) : Nat :=
  if i < n then byteOf v i
  else if i = n then 0x80
  else if 128 * blocks - i ≤ 16 then 8 * n / 2 ^ (8 * (128 * blocks - 1 - i)) % 256
  else 0

/-- The message schedule: the newest word first, from the sixteen of a block. -/
def shaSchedule : Nat → List Nat → List Nat
  | 0, l => l
  | k + 1, l => shaSchedule k
      (((shaSmall1 (l.getD 1 0) + l.getD 6 0 + shaSmall0 (l.getD 14 0) + l.getD 15 0) % w64) :: l)

/-- One round over the eight working variables. -/
def shaRound (s : List Nat) (kw : Nat × Nat) : List Nat :=
  match s with
  | [a, b, c, d, e, f, g, h] =>
    let t1 := h + shaBig1 e + ((e &&& f) ^^^ ((w64 - 1 - e) &&& g)) + kw.1 + kw.2
    let t2 := shaBig0 a + (((a &&& b) ^^^ (a &&& c)) ^^^ (b &&& c))
    [(t1 + t2) % w64, a, b, c, (d + t1) % w64, e, f, g]
  | s => s

/-- The hash value after block b. -/
def shaBlock (v n blocks : Nat) (hash : List Nat) (b : Nat) : List Nat :=
  let first := (List.range 16).map (fun t =>
    (List.range 8).foldl (fun x k => x * 256 + shaByte v n blocks (128 * b + 8 * t + k)) 0)
  let w := (shaSchedule 64 first.reverse).reverse
  List.zipWith (fun x y => (x + y) % w64) hash ((shaK.zip w).foldl shaRound hash)

/-- SHA-384 of a byte string of n bytes. -/
def sha384 (v n : Nat) : Nat :=
  let blocks := (n + 17 + 127) / 128
  (((List.range blocks).foldl (shaBlock v n blocks) shaH).take 6).foldl (fun x y => x * w64 + y) 0

/-! ### P-384 -/

abbrev p384 : Nat := 2 ^ 384 - 2 ^ 128 - 2 ^ 96 + 2 ^ 32 - 1
abbrev p384n : Nat :=
  0xffffffffffffffffffffffffffffffffffffffffffffffffc7634d81f4372ddf581a0db248b0a77aecec196accc52973
abbrev p384b : Nat :=
  0xb3312fa7e23ee7e4988e056be3f82d19181d9c6efe8141120314088f5013875ac656398d8a2ed19d2a85c8edd3ec2aef
abbrev p384x : Nat :=
  0xaa87ca22be8b05378eb1c71ef320ad746e1d3b628ba79b9859f741e082542a385502f25dbf55296c3a545e3872760ab7
abbrev p384y : Nat :=
  0x3617de4a96262c6f5d9e98bf9292dc29f8f41dbd289a147ce9da3113b5f0b8c00a60b1ce1d7e819d7a431d7c90ea0e5f

/-- b to the power e, modulo m, for e below 2^384. -/
def powMod (b e m : Nat) : Nat :=
  (List.range 384).foldl (fun x k => if e.testBit (383 - k) then x * x % m * b % m else x * x % m) 1

/-- A point in Jacobian coordinates; z = 0 is the point at infinity. -/
structure Jac where
  x : Nat
  y : Nat
  z : Nat
deriving DecidableEq, Repr

def subMod (a b m : Nat) : Nat := (a + m - b % m) % m

/-- Twice a point. -/
def Jac.twice (a : Jac) : Jac :=
  let p := p384
  let d := a.z * a.z % p
  let g := a.y * a.y % p
  let b := a.x * g % p
  let al := 3 * subMod a.x d p * (a.x + d) % p
  let x := subMod (al * al) (8 * b) p
  ⟨x, subMod (al * subMod (4 * b) x p) (8 * g * g) p, 2 * a.y * a.z % p⟩

/-- The sum of two points. -/
def Jac.plus (a b : Jac) : Jac :=
  let p := p384
  if a.z = 0 then b
  else if b.z = 0 then a
  else
    let za := a.z * a.z % p
    let zb := b.z * b.z % p
    let ua := a.x * zb % p
    let ub := b.x * za % p
    let sa := a.y * b.z % p * zb % p
    let sb := b.y * a.z % p * za % p
    if ua = ub then (if sa = sb then a.twice else ⟨1, 1, 0⟩)
    else
      let h := subMod ub ua p
      let r := subMod sb sa p
      let h2 := h * h % p
      let h3 := h * h2 % p
      let v := ua * h2 % p
      let x := subMod (r * r) (h3 + 2 * v) p
      ⟨x, subMod (r * subMod v x p) (sa * h3) p, h * a.z % p * b.z % p⟩

/-- u times point a plus v times point b. -/
def Jac.comb (a b : Jac) (u v : Nat) : Jac :=
  (List.range 384).foldl (fun r k =>
    let r := r.twice
    let r := if u.testBit (383 - k) then r.plus a else r
    if v.testBit (383 - k) then r.plus b else r) ⟨1, 1, 0⟩

/-- Signature (r, s) of the digest z verifies with the public key (x, y). -/
def ecdsaOk (z r s x y : Nat) : Bool :=
  if r = 0 || p384n ≤ r || s = 0 || p384n ≤ s || p384 ≤ x || p384 ≤ y || y * y % p384 != (subMod (x * x % p384 * x) (3 * x) p384 + p384b) % p384
  then false
  else
    let w := powMod s (p384n - 2) p384n
    let q := (Jac.mk p384x p384y 1).comb ⟨x, y, 1⟩ (z * w % p384n) (r * w % p384n)
    q.z != 0 && q.x * powMod (q.z * q.z % p384) (p384 - 2) p384 % p384 % p384n == r

end Sys2Proof.Machine
end

