-- ==== Sys2Proof/Machine/Message.lean ====
section
/-! DEFINITION. Message and fence instructions (R57 to R60, R66), defer and the deferred list (R64, R460), and RMA's commands at
the sender (R12, R171, R180, R342, R444). -/

namespace Sys2Proof.Machine

/-! ### Operands (R57, R58) -/

/-- The operation that the operand group at register `a` and size register `b` spell. -/
def Thread.msgOp (t : Thread) (th op fn wd a b : Nat) : MsgOp :=
  { op := op, fn := t.fn, priv := t.priv, minor := fn, g0 := t.val a, g1 := t.val (a + 1), g2 := t.val (a + 2),
    g3 := t.val (a + 3), size := t.val b, scope := t.scope th, queue := if t.cmd then some t.queue else none,
    ret := some (th, wd), entry := none }

/-- ILLEGAL of a message instruction: the operand group, the minor function (R57, R60). -/
def msgBad (op fn a : Nat) : Bool :=
  !groupOk a || (if 0x44 ≤ op then !amoLegal (fn / 16) (fn % 16) true else fn != 0)

/-- The registers that a message instruction reads, in ascending order (R35). -/
def MsgOp.reads (m : MsgOp) (a b : Nat) : List Nat :=
  let third := if m.amo then true else if m.inl then 0 < m.len else true
  let fourth := if m.amo then m.minor / 16 == 7 else if m.inl then decide (8 < m.len) else true
  insertAsc b ([a, a + 1] ++ (if third then [a + 2] else []) ++ (if fourth then [a + 3] else []))

/-! ### put, get, send, ud.send, amo, amo.f (R59, R60) -/

/-- The operation at issue: its status, or its stall. -/
def Dev.msgIssue (d : Dev) (th wd : Nat) (m : MsgOp) : IRes :=
  let (d, r) := d.issueOp (some th) m
  match r with
  | .wait => .done ({ d with rma.later := d.rma.later ++ [(some th, m)] }.stall th (.msgSlot m))
  | .status st => .next (d.setW th wd (mkWord (BitVec.ofNat 64 st) (if m.op = 0x45 && st != 0 then 16 else 0)))
  | .taken => if m.op = 0x45 then .done (d.stall th (.amoReply wd)) else .next (d.setVal th wd 0)

/-- A message instruction of opcode `op`. -/
def Dev.msgInstr (d : Dev) (op th : Nat) (f : FmtA) (ext : Ext) : Dev :=
  let a := f.wa.toNat
  let b := f.wb.toNat
  d.issueA op th f ext (msgBad op f.fn.toNat a) (fun d =>
    let m := (d.thr th).msgOp th op f.fn.toNat f.wd.toNat a b
    noPoison d th (m.reads a b) (fun _ => d.msgIssue th f.wd.toNat m))

def execPut (th : Tid) (f : FmtA) (ext : Ext) (s : State) : Host.Outcome State Fault Refusal :=
  onRma s (fun d => d.msgInstr 0x40 th f ext)
def execGet (th : Tid) (f : FmtA) (ext : Ext) (s : State) : Host.Outcome State Fault Refusal :=
  onRma s (fun d => d.msgInstr 0x41 th f ext)
def execSend (th : Tid) (f : FmtA) (ext : Ext) (s : State) : Host.Outcome State Fault Refusal :=
  onRma s (fun d => d.msgInstr 0x42 th f ext)
def execUdSend (th : Tid) (f : FmtA) (ext : Ext) (s : State) : Host.Outcome State Fault Refusal :=
  onRma s (fun d => d.msgInstr 0x43 th f ext)
def execAmo (th : Tid) (f : FmtA) (ext : Ext) (s : State) : Host.Outcome State Fault Refusal :=
  onRma s (fun d => d.msgInstr 0x44 th f ext)
def execAmoF (th : Tid) (f : FmtA) (ext : Ext) (s : State) : Host.Outcome State Fault Refusal :=
  onRma s (fun d => d.msgInstr 0x45 th f ext)

/-! ### Fences (R66) -/

def Dev.fenceInstr (d : Dev) (op kind th : Nat) (f : FmtA) (ext : Ext) : Dev :=
  d.issueA op th f ext (bareA f) (fun d => .done (d.fence th kind))

def execFenceLocal (th : Tid) (f : FmtA) (ext : Ext) (s : State) : Host.Outcome State Fault Refusal :=
  onRma s (fun d => d.fenceInstr 0x60 0 th f ext)
def execFenceRemote (th : Tid) (f : FmtA) (ext : Ext) (s : State) : Host.Outcome State Fault Refusal :=
  onRma s (fun d => d.fenceInstr 0x61 1 th f ext)
def execFenceDurable (th : Tid) (f : FmtA) (ext : Ext) (s : State) : Host.Outcome State Fault Refusal :=
  onRma s (fun d => d.fenceInstr 0x62 2 th f ext)

/-! ### defer (R64) -/

/-- What the instruction that follows a defer is. -/
inductive Deferred where
  | illegal
  | privilege
  | poison (n : Nat)
  /-- Its guard is not satisfied: nothing is deferred. -/
  | off
  | what (w : DefWhat)

/-- The instruction word `w` with extension `ext` as a deferred operation of thread `th`. -/
def Dev.deferOf (d : Dev) (th w : Nat) (ext : Ext) : Deferred :=
  let t := d.thr th
  let op := bitsOf w 28 8
  let wd := bitsOf w 23 5
  let a := bitsOf w 18 5
  let b := bitsOf w 13 5
  let fn := bitsOf w 0 9
  if op = 0x50 then
    let n := t.ctrOf a
    if wd != 0 then .illegal
    else if !guardOk t (bitsOf w 14 4) then .off
    else if d.ctrOwner n != some t.fn then .privilege
    else match t.poisonIn [a] with
      | some k => .poison k
      | none => .what (.ctrAdd n (immZ (pcCmd t.pc) (bitsOf w 0 14) 14 ext).toNat)
  else if extBad t ext then .illegal
  else if op = 0x58 then
    if fn != 0 then .illegal
    else if !guardOk t (bitsOf w 9 4) then .off
    else match t.poisonIn (insertAsc b [a]) with
      | some k => .poison k
      | none => .what (.colStep (t.val a) (t.val b) t.fn t.priv)
  else if op = 0x40 || op = 0x41 || op = 0x42 || op = 0x43 || op = 0x44 then
    if msgBad op fn a then .illegal
    else if !guardOk t (bitsOf w 9 4) then .off
    else
      let m := { t.msgOp th op fn wd a b with scope := .none, ret := none }
      match t.poisonIn (m.reads a b) with
      | some k => .poison k
      | none => .what (.msg m)
  else .illegal

/-- A deferred operation issues (R460): its status goes to RMA_FN_LASTERR. -/
def Dev.deferIssue (d : Dev) (fn : Nat) (w : DefWhat) : Dev :=
  match w with
  | .msg m =>
    let (d, r) := d.issueOp none m
    (match r with
    | .wait => { d with rma.later := d.rma.later ++ [(none, m)] }
    | .status _ => d
    | .taken => d)
  | .ctrAdd n inc => d.ctrAdd n inc fn
  | .colStep a b fn priv =>
    let (d, st, _) := d.colStep none .none fn priv a b
    d.lastErr fn st 0
  | .chan ch => d.chTrigger ch
  | .event _ _ => d

/-- The instruction at code address `pc` is `w` with extension `ext`; `some d` where it is not there yet. -/
def Dev.isNext (d : Dev) (th : Nat) (pc : Word) (w : IWord) (ext : Ext) : Bool × Option Dev :=
  if isCore th then (true, none)
  else if !pcCmd pc && d.slotLen (pcSlot pc) (pcVer pc) ≤ pcIndex pc then (false, none)
  else match d.fetched th pc with
    | some x => (decide (x = (w.toNat, if pcCmd pc then ext.toNat else 0)), none)
    | none => if pcCmd pc then (false, none) else (false, some (d.fillAt th pc))

/-- defer. Where the guard of the instruction that it defers is off, neither issues and the counter's owner is not checked
(DESIGN CHOICE, log entry 34). -/
def execDefer (th : Tid) (f : FmtA) (ext : Ext) (nxt : IWord) (nxtExt : Ext) (s : State) : Host.Outcome State Fault Refusal :=
  onRma s (fun d => d.issueA 0x53 th f ext (f.fn != 0) (fun d =>
    let t := d.thr th
    let pc := pcNext t.pc
    let word := BitVec.ofNat 64 (wordA 0x53 f)
    let past := fun (d : Dev) (st : Nat) => IRes.next ((d.setVal th f.wd.toNat st).updThr th (fun t => { t with pc := pc }))
    let beyond := !isCore th && (if pcCmd pc then decide (t.slots.length < pcIndex pc)
      else pcLast t.pc || decide (d.slotLen (pcSlot pc) (pcVer pc) ≤ pcIndex pc))
    if beyond then .trap tcIllegal word
    else match d.isNext th pc nxt nxtExt with
      | (_, some d) => .done d
      | (false, none) => .done d
      | (true, none) =>
        let n := t.ctrOf f.wa.toNat
        let thresh := (t.val f.wb.toNat).toNat % 2 ^ 48
        match d.deferOf th nxt.toNat nxtExt with
        | .illegal => .trap tcIllegal word
        | .privilege => .trap tcPrivilege word
        | .off => noPoison d th [f.wa.toNat, f.wb.toNat] (fun _ => past d 0)
        | .poison k => d.ownCtr th n (wordA 0x53 f) (fun _ => noPoison d th [f.wa.toNat, f.wb.toNat] (fun _ =>
            .trap tcPoison (BitVec.ofNat 64 k)))
        | .what w => d.ownCtr th n (wordA 0x53 f) (fun _ => noPoison d th [f.wa.toNat, f.wb.toNat] (fun _ =>
            if reaches (d.ctrVal n) thresh then past (d.deferIssue t.fn w) 0
            else if !d.defRoom then past d Status.DEFER_FULL
            else past (d.defAdd n thresh t.fn w) 0))))

/-- DEFER_FIRE: the ripe entry that is next (R460, R461). -/
def Dev.deferFire (d : Dev) : Dev :=
  match d.defNext with
  | none => d
  | some e =>
    let d := d.defDel e.id
    match e.what with
    | .event slot entry => d.ctrEvent e slot entry
    | .msg m => d.deferIssue e.fn (.msg m)
    | .ctrAdd n inc => d.deferIssue e.fn (.ctrAdd n inc)
    | .colStep a b fn priv => d.deferIssue e.fn (.colStep a b fn priv)
    | .chan ch => d.deferIssue e.fn (.chan ch)

def execDeferFire (s : State) : Host.Outcome State Fault Refusal := onRma s Dev.deferFire

/-! ### The sender's commands -/

def execRmaRetryTimeout (slot : Sid) (s : State) : Host.Outcome State Fault Refusal := onRma s (fun d => d.retryTimeout slot.toNat)
def execSlotQuietExpire (slot : Sid) (s : State) : Host.Outcome State Fault Refusal := onRma s (fun d => d.slotQuiet slot.toNat)
def execGetReserve (slot : Sid) (s : State) : Host.Outcome State Fault Refusal := onRma s (fun d => d.getReserve slot.toNat)

/-- MSG_READ_DONE: bytes from `off` on of the segment's source. -/
def execMsgReadDone (slot : Sid) (off : Nat) (cpl : Cpl) (s : State) : Host.Outcome State Fault Refusal :=
  onRma s (fun d => match d.ownRead (.src slot.toNat) off cpl with
    | (d, some (n, v)) =>
      let q := ((d.slotOf slot.toNat).bind (fun s => d.msgOf s.msg)).bind Msg.queue
      (d.ev 9 4 (q.map (fun q => d.rd F.WQ_CTX_CFG_CLUSTER q)) (q.map d.qFn)).srcRead slot.toNat off n v
    | (d, none) => d)

/-- The waiting segment that is admitted next (R342): of the next function, the one that took its slot first. -/
def Dev.ccNext (d : Dev) (e : CcEnt) : Option (Nat × Slot) :=
  let l := e.waiting.filterMap (fun i => (d.slotOf i).map (fun s => (i, s)))
  let key := fun (s : Slot) => (s.fn + 1024 - e.lastFn - 1) % 1024
  l.foldl (fun b x => match b with
    | none => some x
    | some y => if key x.2 < key y.2 || (key x.2 == key y.2 && serialLt 32 x.2.msgId y.2.msgId) then some x else b) none

/-- CC_ADMIT. -/
def Dev.ccAdmit (d : Dev) (dev : Nat) : Dev :=
  let d := d.ccTouch dev
  match d.ccFind dev with
  | none => d
  | some e =>
    if !d.ccMay e then d
    else match d.ccNext e with
      | none => d
      | some (i, s) =>
        ((d.ccPut dev { e with waiting := e.waiting.erase i, charge := e.charge + s.charge, lastFn := s.fn }).updSlot i
          (fun s => { s with charged := true })).segGo i

def execCcAdmit (dev : DevId) (s : State) : Host.Outcome State Fault Refusal := onRma s (fun d => d.ccAdmit dev.toNat)

end Sys2Proof.Machine
end

