-- ==== Sys2Proof/Machine/Inject.lean ====
section
/-! DEFINITION. Injection (R343 to R349), cells that the fabric gives back (R183, R306, R388), and the commands of chapters
08 to 11. -/

namespace Sys2Proof.Machine

/-! ### Cells given back -/

/-- A cell that the router or a link gave back, with its status. -/
def Dev.lostCell (d : Dev) (t : TxCell) (st : Nat) : Dev :=
  if t.cls = 3 then d.ctlSent t.cell st
  else match t.slot with
    | none => d
    | some (i, g) => match d.slotOf i with
      | none => d
      | some s =>
        if d.slotGen i != g || s.st == .quiet || s.fail.isSome then d
        -- A cell of an attempt that is over tells nothing of the one that stands.
        else if s.op != 5 && t.trig != s.adm then d
        else if s.op = 5 then d.updSlot i (fun s => { s with fail := some st })
        else if st = Status.UNREACHABLE then
          let s := if t.cell.head && s.attempt = 0 then { s with base := d.ccBaseOf s.dev } else s
          (d.putSlot i s).attemptOver i s st
        else d

def Dev.flushLost (d : Dev) : Dev :=
  d.rma.lost.foldl (fun d (x : TxCell × Nat) => d.lostCell x.1 x.2) { d with rma.lost := [] }

/-- A command of the fabric's units. -/
def onFab (s : State) (f : Dev → Dev) : Host.Outcome State Fault Refusal :=
  onDev s (fun d =>
    let d := (f d).flushLost
    if d.halted then d else d.rmaGo)

/-! ### The cell that a function sends next (R345, R346) -/

/-- The place of a cell's segment in admission order. -/
def Dev.admOf (d : Dev) (t : TxCell) : Nat :=
  match t.slot with
  | some (i, _) => ((d.slotOf i).map Slot.adm).getD 0
  | none => 0

/-- The first cell of the earliest segment. -/
def Dev.reqNext (d : Dev) (f : Nat) : Option TxCell :=
  (Tbl.get d.sch.req [] f).foldl (fun b t => match b with
    | none => some t
    | some x => if d.admOf t < d.admOf x then some t else b) none

/-- A segment of f that was admitted before cell t's is still reading its source. -/
def Dev.readingBefore (d : Dev) (f : Nat) (t : TxCell) : Bool :=
  d.rma.slots.any (fun e => e.2.fn == f && e.2.st == .reading && e.2.attempt == 0 && e.2.adm < d.admOf t)

/-- Function f's next cell in class REQ (0) or COL (2). -/
def Dev.classNext (d : Dev) (f cls : Nat) : Option TxCell :=
  if cls = 2 then (Tbl.get d.sch.col [] f).head?
  else match d.reqNext f with
    | some t => if d.readingBefore f t then none else some t
    | none => none

/-- Held by its shaper (R348), or deferred by its meter (R349). -/
def Dev.shaped (d : Dev) (f : Nat) : Bool := d.flag F.SCH_FN_CFG_SHAPE_EN f && d.tokensOf f < 256
def Dev.deferred (d : Dev) (f : Nat) : Bool :=
  d.flag F.SCH_FN_CFG_METER_EN f && d.flag F.SCH_FN_CFG_METER_DEFER f && Tbl.get d.sch.tp 0 f < 256

/-- Functions eligible in a class. -/
def Dev.eligibles (d : Dev) (cls : Nat) : List Nat :=
  ((if cls = 2 then d.sch.col else d.sch.req).map Prod.fst).filter (fun f =>
    (d.classNext f cls).isSome && !d.shaped f && !d.deferred f)

/-- Functions that the shaper or the meter alone held back are counted (chapter 18, block 7). -/
def Dev.countHeld (d : Dev) (cls : Nat) : Dev :=
  ((if cls = 2 then d.sch.col else d.sch.req).map Prod.fst).foldl (fun d f =>
    if (d.classNext f cls).isNone then d
    else if d.shaped f then d.ev 7 6 none (some f)
    else if d.deferred f then d.ev 7 5 none (some f)
    else d) d

/-- The later of two 48-bit serial numbers. -/
def tagMax (a b : Nat) : Nat := if serialLt 48 a b then b else a

/-- The tags of functions that have become eligible take the virtual time (R345). -/
def wakeTags (l old : List Nat) (v : Nat) (t : Tbl Nat) : Tbl Nat :=
  l.foldl (fun t f => if old.contains f then t else Tbl.put f (tagMax (Tbl.get t 0 f) v) t) t

def leastTag (t : Tbl Nat) (l : List Nat) : Option Nat :=
  l.foldl (fun b f => match b with
    | none => some f
    | some g => if serialLt 48 (Tbl.get t 0 f) (Tbl.get t 0 g) then some f else b) none

/-- Both classes' eligibility at this opportunity. -/
def Dev.schUpdate (d : Dev) : Dev :=
  let r := d.eligibles 0
  let c := d.eligibles 2
  { d with
    sch.tagReq := wakeTags r d.sch.elReq d.sch.vReq d.sch.tagReq
    sch.tagCol := wakeTags c d.sch.elCol d.sch.vCol d.sch.tagCol
    sch.elReq := r
    sch.elCol := c }

/-! ### Handing over (R298, R299, R348, R349) -/

/-- The meter's colour, with the tokens it takes. -/
def Dev.meter (d : Dev) (f : Nat) : Dev × Nat :=
  let tc := Tbl.get d.sch.tc 0 f
  let tp := Tbl.get d.sch.tp 0 f
  if !d.flag F.SCH_FN_CFG_METER_EN f then (d, 0)
  else if tp < 256 then (d, 2)
  else if tc < 256 then ({ d with sch.tp := Tbl.put f (tp - 256) d.sch.tp }, 1)
  else ({ d with sch.tp := Tbl.put f (tp - 256) d.sch.tp, sch.tc := Tbl.put f (tc - 256) d.sch.tc }, 0)

/-- The shaper's debit: not below minus BURST. -/
def Dev.debit (d : Dev) (f : Nat) : Dev :=
  { d with sch.tokens := Tbl.put f (max (d.tokensOf f - 256) (-((d.burst f : Nat) : Int))) d.sch.tokens }

/-- A cell that echoes a stamp: a response or reply, a COL acknowledgement (R178, R282). -/
def TxCell.echoes (t : TxCell) : Bool := t.cls == 1 || t.cls == 3 || (t.cls == 2 && (t.cell.slot / 4096 == 4 || t.cell.slot / 4096 == 5))

/-- The cell joins its class's injection buffer: coloured and stamped, it goes to the router, which may hold it for a port
that wakes (R298, R305, R343). -/
def Dev.inject (d : Dev) (t : TxCell) : Dev :=
  let metered := t.cls = 0 || t.cls = 2
  let (d, color) := if metered then d.meter t.fn else (d, 0)
  let cell := (if t.echoes then t.cell else t.cell.setBits 8 16 (d.ns / 4)).setBits 24 2 color
  let n := d.rma.lost.length
  let d := d.handOver { t with cell := cell }
  let d := if metered then ((d.debit t.fn).fnCount t.fn 3).fnCount t.fn (4 + color) else d
  let d := d.ev 7 t.cls none (some t.fn)
  let d := match t.slot with
    | some (i, g) => if d.rma.lost.length = n && d.slotGen i = g then d.injected i t.cell.head else d
    | none => d
  match t.col with
    | some k => d.colInjected k t
    | none => d

/-- Class `cls` has an injection opportunity: a lane takes its cell (bit `cls` of `lanes`) and its injection buffer of 1,024
cells has room (R343). -/
def Dev.injRoom (d : Dev) (lanes : BitVec 4) (cls : Nat) : Bool :=
  lanes.getLsbD cls && (d.rte.held.filter (fun h => h.t.cls == cls)).length < 1024

/-- First transmissions (R344): the class whose turn it is, and the function of R345. -/
def Dev.injectNew (d : Dev) (lanes : BitVec 4) : Dev :=
  let d := ((d.countHeld 0).countHeld 2).schUpdate
  let r := d.sch.elReq
  let c := d.sch.elCol
  let left := fun (d : Dev) => ((if r.isEmpty then 0 else d.sch.reqLeft), (if c.isEmpty then 0 else d.sch.colLeft))
  let may := fun (x : Nat × Nat) => (d.injRoom lanes 0 && 0 < x.1, d.injRoom lanes 2 && 0 < x.2)
  let (a, b) := left d
  let d := { d with sch.reqLeft := a, sch.colLeft := b }
  let d := if (may (a, b)).1 || (may (a, b)).2 then d
    else { d with sch.reqLeft := if r.isEmpty then 0 else d.rd F.SCH_INJ_CFG_REQ_W_M1 + 1,
                  sch.colLeft := if c.isEmpty then 0 else d.rd F.SCH_INJ_CFG_COL_W_M1 + 1 }
  let (a, b) := left d
  let pick := if (may (a, b)).1 then some (0, r, d.sch.tagReq) else if (may (a, b)).2 then some (2, c, d.sch.tagCol) else none
  match pick with
  | none => d
  | some (cls, l, tags) => match leastTag tags l with
    | none => d
    | some f => match d.classNext f cls with
      | none => d
      | some t =>
        let v := Tbl.get tags 0 f
        let next := (v + 65536 / (d.rd F.SCH_FN_CFG_WEIGHT_M1 f + 1)) % 2 ^ 48
        (if cls = 0 then
            { d with sch.req := Tbl.set [] f ((Tbl.get d.sch.req [] f).erase t) d.sch.req, sch.reqLeft := a - 1, sch.vReq := v,
                     sch.tagReq := Tbl.put f next d.sch.tagReq }
          else
            { d with sch.col := Tbl.set [] f ((Tbl.get d.sch.col [] f).erase t) d.sch.col, sch.colLeft := b - 1, sch.vCol := v,
                     sch.tagCol := Tbl.put f next d.sch.tagCol }).inject t

/-- The first retransmitted cell of a class with an opportunity, or else a first transmission (R344). -/
def Dev.injectRetx (d : Dev) (lanes : BitVec 4) : Dev :=
  match d.sch.retx.find? (fun t => d.injRoom lanes t.cls) with
  | some t => { d with sch.retx := d.sch.retx.erase t }.inject t
  | none => d.injectNew lanes

/-- Responses come before every request. -/
def Dev.injectRsp (d : Dev) (lanes : BitVec 4) : Dev :=
  match d.sch.rsp, d.injRoom lanes 1 with
  | t :: l, true => { d with sch.rsp := l }.inject t
  | _, _ => d.injectRetx lanes

/-- SCH_INJECT: the lanes that take a cell are bits REQ 0, RSP 1, COL 2, CTL 3 of `lanes` (R343, R344). -/
def Dev.schInject (d : Dev) (lanes : BitVec 4) : Dev :=
  if d.dark then d
  else match d.sch.ctl, d.injRoom lanes 3 with
    | t :: l, true => { d with sch.ctl := l }.inject t
    | _, _ => if d.halted then d else d.injectRsp lanes

def execSchInject (room : BitVec 4) (s : State) : Host.Outcome State Fault Refusal := onFab s (fun d => d.schInject room)

/-! ### Forwarding and scheduling -/

def execCellForward (p : Pid) (vc : Fin 16) (s : State) : Host.Outcome State Fault Refusal := onFab s (fun d => d.forward p vc)
def execCellResidenceExpire (p : Pid) (vc : Fin 16) (s : State) : Host.Outcome State Fault Refusal :=
  onFab s (fun d => if d.dark then d else d.residenceExpire p vc)
def execPortRediscover (p : Pid) (s : State) : Host.Outcome State Fault Refusal := onFab s (fun d => d.rediscover p)
def execRteSeedWrite (v : Word) (s : State) : Host.Outcome State Fault Refusal := onDev s (fun d => d.seedWrite v)
def execSchRefill (s : State) : Host.Outcome State Fault Refusal := onDev s (fun d => if d.dark then d else d.schRefill)
def execShaperEnable (fn : Fid) (s : State) : Host.Outcome State Fault Refusal := onDev s (fun d => d.shaperEnable fn)
def execMeterEnable (fn : Fid) (s : State) : Host.Outcome State Fault Refusal := onDev s (fun d => d.meterEnable fn)
def execUdpEnable (q : Qid) (s : State) : Host.Outcome State Fault Refusal := onDev s (fun d => d.udpEnable q)
def execGateArm (p : Pid) (s : State) : Host.Outcome State Fault Refusal := onDev s (fun d => d.gateArm p)
def execGateDisarm (p : Pid) (s : State) : Host.Outcome State Fault Refusal := onDev s (fun d => d.gateDisarm p)
def execGateDisable (p : Pid) (s : State) : Host.Outcome State Fault Refusal := onDev s (fun d => d.gateDisable p)
def execGateBankActivate (p : Pid) (s : State) : Host.Outcome State Fault Refusal :=
  onDev s (fun d => if d.dark then d else d.gateActivate p)
def execGateEntryAdvance (p : Pid) (s : State) : Host.Outcome State Fault Refusal :=
  onDev s (fun d => if d.dark then d else d.gateAdvance p)

/-! ### Belay -/

/-- A frame leaves at a frame boundary of a port whose link carries frames. -/
def execBelayFrameSend (p : Pid) (s : State) : Host.Outcome State Fault Refusal :=
  onFab s (fun d => if d.dark || d.lnk p == lsDown || d.lnk p == lsParked then d else d.sendFrame p)
def execBelayDataRx (p : Pid) (fr : DataFrame) (s : State) : Host.Outcome State Fault Refusal := onFab s (fun d => d.dataRx p fr)
def execBelayIdleRx (p : Pid) (hdr : FrameHdr) (s : State) : Host.Outcome State Fault Refusal := onFab s (fun d => (d.frameIn p hdr (hdr.verdict 0 0)).1)
def execBelayInitRx (p : Pid) (fr : CtlFrame) (s : State) : Host.Outcome State Fault Refusal := onFab s (fun d => d.initIn p fr)
def execBelayCreditRx (p : Pid) (fr : CtlFrame) (s : State) : Host.Outcome State Fault Refusal := onFab s (fun d => d.creditIn p fr)
def execBelayDiscoverRx (p : Pid) (fr : CtlFrame) (s : State) : Host.Outcome State Fault Refusal := onFab s (fun d => d.discoverIn p fr)
def execBelayTimeReqRx (p : Pid) (fr : CtlFrame) (s : State) : Host.Outcome State Fault Refusal := onFab s (fun d => d.timeReqIn p fr)
def execBelayTimeRespRx (p : Pid) (fr : CtlFrame) (s : State) : Host.Outcome State Fault Refusal := onFab s (fun d => d.timeRespIn p fr)
def execParkRequestRx (p : Pid) (fr : CtlFrame) (s : State) : Host.Outcome State Fault Refusal := onFab s (fun d => d.parkRequestIn p fr)
def execParkAgreeRx (p : Pid) (fr : CtlFrame) (s : State) : Host.Outcome State Fault Refusal := onFab s (fun d => d.parkAgreeIn p fr)
def execParkRefuseRx (p : Pid) (fr : CtlFrame) (s : State) : Host.Outcome State Fault Refusal := onFab s (fun d => d.parkRefuseIn p fr)
def execParkWakeRx (p : Pid) (fr : CtlFrame) (s : State) : Host.Outcome State Fault Refusal := onFab s (fun d => d.parkWakeIn p fr)
def execBelayDownRx (p : Pid) (fr : CtlFrame) (s : State) : Host.Outcome State Fault Refusal := onFab s (fun d => d.downIn p fr)
def execBelayControlReserved (p : Pid) (fr : CtlFrame) (s : State) : Host.Outcome State Fault Refusal :=
  onFab s (fun d => d.controlReserved p fr)
def execBelayAckTimer (p : Pid) (s : State) : Host.Outcome State Fault Refusal := onFab s (fun d => d.ackTimerEnd p)
def execBelayReplayTimeout (p : Pid) (s : State) : Host.Outcome State Fault Refusal := onFab s (fun d => d.replayTimeout p)
def execBelayFrameLife (p : Pid) (s : State) : Host.Outcome State Fault Refusal := onFab s (fun d => d.frameLifeEnd p)
def execBelayCreditTimer (p : Pid) (s : State) : Host.Outcome State Fault Refusal := onFab s (fun d => d.creditTimer p)
def execBelayInitRepeat (p : Pid) (s : State) : Host.Outcome State Fault Refusal := onFab s (fun d => d.initRepeat p)
def execBelayDiscoverRepeat (p : Pid) (s : State) : Host.Outcome State Fault Refusal := onFab s (fun d => d.discoverRepeat p)
/-- LOCK_LOSS 20 µs after the entry to LOCK (R383). -/
def execBelayLockTimeout (p : Pid) (s : State) : Host.Outcome State Fault Refusal :=
  onFab s (fun d => d.stateTimeout p lsLock (usPs 20) 4)
/-- INIT_TIMEOUT 1 ms after the entry to INIT (R383). -/
def execBelayInitTimeout (p : Pid) (s : State) : Host.Outcome State Fault Refusal :=
  onFab s (fun d => d.stateTimeout p lsInit (msPs 1) 7)
def execBelayRelockTimeout (p : Pid) (s : State) : Host.Outcome State Fault Refusal := onFab s (fun d => d.relockTimeout p)
def execBelayFramingLoss (p : Pid) (s : State) : Host.Outcome State Fault Refusal :=
  onFab s (fun d => if d.dark then d else d.framingLoss p)
def execBelayFramingError (p : Pid) (s : State) : Host.Outcome State Fault Refusal := onFab s (fun d => d.framingError p)
def execBelayErrDecay (p : Pid) (s : State) : Host.Outcome State Fault Refusal := onFab s (fun d => d.errDecay p)
def execBelayDegradedRetrain (p : Pid) (s : State) : Host.Outcome State Fault Refusal := onFab s (fun d => d.degradedRetrain p)
def execBelayCreditAudit (p : Pid) (s : State) : Host.Outcome State Fault Refusal := onFab s (fun d => d.creditAudit p)
def execLinkDownCmd (p : Pid) (s : State) : Host.Outcome State Fault Refusal := onFab s (fun d => d.linkDownCmd p)

/-! ### Lanes, modules, parking -/

def execLaneEnSet (p : Pid) (s : State) : Host.Outcome State Fault Refusal := onFab s (fun d => d.laneEnSet p)
def execLaneEnClear (p : Pid) (s : State) : Host.Outcome State Fault Refusal := onFab s (fun d => d.laneEnClear p)
def execLaneRetrain (p : Pid) (s : State) : Host.Outcome State Fault Refusal := onFab s (fun d => d.laneRetrain p)
def execLaneRecal (p : Pid) (cal : CalIn) (s : State) : Host.Outcome State Fault Refusal := onFab s (fun d => d.laneRecal p cal)
def execTrainDetectDone (p : Pid) (rxOpen rxShort txOpen txShort : BitVec 4) (s : State) : Host.Outcome State Fault Refusal :=
  onFab s (fun d => d.detectDone p rxOpen rxShort txOpen txShort)
def execTrainCalDone (p : Pid) (busy failed : BitVec 4) (s : State) : Host.Outcome State Fault Refusal :=
  onFab s (fun d => d.calDone p busy failed)
def execTrainFrameRx (p : Pid) (lane : Fin 4) (inverted : Bool) (crc : BitVec 16) (rx : TrainRx) (ctl : BitVec 112) (s : State) :
    Host.Outcome State Fault Refusal := onFab s (fun d => d.trainFrame p lane inverted rx (crc ++ ctl))
def execTrainTimeout (p : Pid) (energy clock : BitVec 4) (s : State) : Host.Outcome State Fault Refusal :=
  onFab s (fun d => d.trainTimeout p energy clock)
def execTrainAlignDone (p : Pid) (s : State) : Host.Outcome State Fault Refusal := onFab s (fun d => d.alignDone p)
def execTrainAlignTimeout (p : Pid) (s : State) : Host.Outcome State Fault Refusal := onFab s (fun d => d.alignTimeout p)
def execTrainRetry (p : Pid) (s : State) : Host.Outcome State Fault Refusal := onFab s (fun d => d.trainRetry p)
def execLaneLoss (p : Pid) (lanes : BitVec 4) (fault : Fin 3) (s : State) : Host.Outcome State Fault Refusal :=
  onFab s (fun d => d.laneLoss p lanes fault)
def execSerWindow (p : Pid) (lane : Fin 4) (ser : BitVec 24) (symbols : Nat) (s : State) : Host.Outcome State Fault Refusal :=
  onFab s (fun d => d.serWindow p lane ser.toNat symbols)
def execModInsert (p : Pid) (cmis : BitVec 8) (s : State) : Host.Outcome State Fault Refusal := onFab s (fun d => d.modInsert p cmis.toNat)
def execModReady (p : Pid) (cmis : BitVec 8) (s : State) : Host.Outcome State Fault Refusal := onFab s (fun d => d.modReady p cmis.toNat)
def execModReadyTimeout (p : Pid) (reported : Bool) (s : State) : Host.Outcome State Fault Refusal :=
  onFab s (fun d => d.modTimeout p reported)
def execModRemove (p : Pid) (s : State) : Host.Outcome State Fault Refusal := onFab s (fun d => d.modRemove p)
def execModAlarm (p : Pid) (s : State) : Host.Outcome State Fault Refusal := onFab s (fun d => d.modAlarm p)
def execPortParkRequest (p : Pid) (s : State) : Host.Outcome State Fault Refusal := onFab s (fun d => d.parkRequest p)
def execParkTimeout (p : Pid) (s : State) : Host.Outcome State Fault Refusal := onFab s (fun d => d.parkTimeout p)
def execParkSignalLost (p : Pid) (s : State) : Host.Outcome State Fault Refusal := onFab s (fun d => d.parkSignalLost p)
def execPortWake (p : Pid) (s : State) : Host.Outcome State Fault Refusal := onFab s (fun d => d.portWake p)
/-- PARK_SIGNAL_DETECT: the other end wakes the port (R407). -/
def execParkSignalDetect (p : Pid) (s : State) : Host.Outcome State Fault Refusal := onFab s (fun d => d.wakeStart p)
def execParkRelockDone (p : Pid) (ok : Bool) (s : State) : Host.Outcome State Fault Refusal := onFab s (fun d => d.relockDone p ok)
def execParkedRecal (p : Pid) (cal : CalIn) (s : State) : Host.Outcome State Fault Refusal := onFab s (fun d => d.parkedRecal p cal)

/-! ### Rope and fabric time -/

def execRopeHelloRx (r : Fin 2) (k : RopeFrame) (s : State) : Host.Outcome State Fault Refusal := onDev s (fun d => d.ropeHello r k)
def execRopeTimeRx (r : Fin 2) (k : RopeFrame) (s : State) : Host.Outcome State Fault Refusal := onDev s (fun d => d.ropeTimeIn r k)
def execRopeFaultRx (r : Fin 2) (k : RopeFrame) (s : State) : Host.Outcome State Fault Refusal := onDev s (fun d => d.ropeFaultIn r k)
def execRopeMgmtRx (r : Fin 2) (k : RopeFrame) (s : State) : Host.Outcome State Fault Refusal := onDev s (fun d => d.ropeMgmt r k)
def execRopePacketDiscard (r : Fin 2) (s : State) : Host.Outcome State Fault Refusal := onDev s (fun d => d.ropeDiscard r)
def execRopeHelloTimer (s : State) : Host.Outcome State Fault Refusal := onDev s (fun d => d.ropeHelloTimer)
def execRopeFaultRepeat (s : State) : Host.Outcome State Fault Refusal := onDev s (fun d => d.ropeFaultRepeat)
def execRopeAlignRx (r : Fin 2) (lane0 lane1 : BitVec 24) (skew : Nat) (s : State) : Host.Outcome State Fault Refusal :=
  onDev s (fun d => d.ropeAlign r lane0 lane1 skew)
def execRopeAlignTimeout (l : RopeLoss) (s : State) : Host.Outcome State Fault Refusal := onDev s (fun d => d.ropeLoss l)
def execTimeExchangeTimer (s : State) : Host.Outcome State Fault Refusal := onDev s (fun d => d.timeTimer)
def execTimeSet (v : Word) (s : State) : Host.Outcome State Fault Refusal := onDev s (fun d => d.timeSet v)
def execServoEnable (s : State) : Host.Outcome State Fault Refusal := onDev s (fun d => d.servoEnable)
def execPpsEdge (t16 : BitVec 80) (tenOk : Bool) (s : State) : Host.Outcome State Fault Refusal := onDev s (fun d => d.ppsEdge t16 tenOk)
def execTimeNowRead (s : State) : Host.Outcome State Fault Refusal := onDev s (fun d => d.timeNowRead)

end Sys2Proof.Machine
end

