-- ==== Sys2Proof/Machine/Telemetry.lean ====
section
/-! DEFINITION. The telemetry reader (R566 to R568). Counting itself is Dev.ev and Dev.fnCount in Machine/Ops.lean. -/

namespace Sys2Proof.Machine

/-- The reader's states. -/
abbrev rdOff : Nat := 0
abbrev rdRun : Nat := 1
abbrev rdStopped : Nat := 2

/-- The reader stops with a status (R568). -/
def Dev.pmcStop (d : Dev) (st : Nat) : Dev :=
  let d := d.disown (.pmc (d.rd F.PMC_RDR_IDX_PROD))
  ({ d with pmc.job := none }.wr F.PMC_RDR_STAT_STATE 0 rdStopped).wr F.PMC_RDR_STAT_STATUS 0 st

/-- EN takes a new value. -/
def Dev.pmcEnable (d : Dev) (on : Bool) : Dev :=
  if !on then
    let d := d.disown (.pmc (d.rd F.PMC_RDR_IDX_PROD))
    { d with pmc.job := none }.wr F.PMC_RDR_STAT_STATE 0 rdOff
  else if !d.isPf (d.rd F.PMC_RDR_FN_FN) then d.pmcStop Status.ARG
  else d.wr F.PMC_RDR_STAT_STATE 0 rdRun

/-- The reader's function leaves ON. -/
def Dev.pmcFnOff (d : Dev) (f : Nat) : Dev :=
  if d.rd F.PMC_RDR_STAT_STATE = rdRun && d.rd F.PMC_RDR_FN_FN = f then d.pmcStop Status.FN_OFF else d

def Dev.pmcSize (d : Dev) : Nat := 2 ^ clampTo 7 13 (d.rd F.PMC_RDR_CFG_LOG2_SIZE)
def Dev.pmcEntries (d : Dev) : Nat := 2 ^ clampTo 6 20 (d.rd F.PMC_RDR_CFG_LOG2_ENTRIES)

/-- The counters selected, in ascending order. -/
def Dev.pmcSelected (d : Dev) : List Nat :=
  (d.listed R.PMC_RDR_MASK).flatMap (fun e => ((List.range 64).filter (fun j => getBits e.2 j 1 == 1)).map (fun j => e.1 * 64 + j))

/-- The offset in the window of the entry in use. -/
def Dev.pmcOff (d : Dev) : Nat := d.rd F.PMC_RDR_IDX_PROD % d.pmcEntries * d.pmcSize

/-- A write of the record: how many of its parts wait for a translation, or its failure. -/
def Dev.pmcPut (d : Dev) (off len data : Nat) : Dev × Nat × Nat :=
  d.winWriteAll (.pmc (d.rd F.PMC_RDR_IDX_PROD)) (d.rd F.PMC_RDR_CFG_WIN) (d.pmcOff + off) len data

/-- The header is written: the record is complete. -/
def Dev.pmcDone (d : Dev) : Dev :=
  { d with pmc.job := none }.wr F.PMC_RDR_IDX_PROD 0 (d.rd F.PMC_RDR_IDX_PROD + 1)

/-- The header follows the values. -/
def Dev.pmcHeader (d : Dev) (h : Nat) : Dev :=
  let (d, k, st) := d.pmcPut 0 64 h
  if st != 0 then d.pmcStop st
  else if k != 0 then { d with pmc.job := some ([(0, h)], k, true) }
  else d.pmcDone

/-- Word of a record for counter k: its value, and OVF in bit 48 (R566). -/
def Dev.pmcWord (d : Dev) (k : Nat) : Nat := d.rd F.PMC_CTR_VAL_VALUE k + d.rd F.PMC_CTR_CFG_OVF k * 2 ^ 48

/-- The counters that fit a record, of those selected. -/
def Dev.pmcTaken (d : Dev) : List Nat := d.pmcSelected.take ((d.pmcSize - 64) / 8)

/-- The values of a record, first counter lowest. -/
def Dev.pmcValues (d : Dev) : Nat :=
  (d.pmcTaken.mapIdx (fun i k => d.pmcWord k * 2 ^ (64 * i))).foldl (· + ·) 0

/-- The header of a record (R567). -/
def Dev.pmcHead (d : Dev) : Nat :=
  d.rd F.PMC_RDR_IDX_PROD + d.pmcTaken.length * 2 ^ 32 + (if d.pmcTaken.length < d.pmcSelected.length then 2 ^ 43 else 0) +
  (if d.pmc.gap then 2 ^ 44 else 0) + d.ns * 2 ^ 64

/-- The values were handed to the window: `x` is the device, how many parts wait, and the failure; `h` the header. -/
def Dev.pmcSent (h : Nat) (x : Dev × Nat × Nat) : Dev :=
  if x.2.2 != 0 then x.1.pmcStop x.2.2
  else if x.2.1 != 0 then { x.1 with pmc.job := some ([(0, h)], x.2.1, false) }
  else x.1.pmcHeader h

/-- A latched record is written, values first (R567, R568). -/
def Dev.pmcRecord (d : Dev) (h : Nat) (n data : Nat) : Dev :=
  let (d, st) := d.winUse (d.rd F.PMC_RDR_CFG_WIN) (localPeer (d.rd F.PMC_RDR_FN_FN) false) rLW d.pmcOff (64 + 8 * n)
  if st != 0 then d.pmcStop st else Dev.pmcSent h (d.pmcPut 64 (8 * n) data)

/-- A snapshot: latched, or skipped (R566 to R568). -/
def Dev.pmcLatch (d : Dev) : Dev :=
  if d.rd F.PMC_RDR_STAT_STATE != rdRun then d
  else if d.halted || d.pmc.job.isSome || seqSub (d.rd F.PMC_RDR_IDX_PROD) (d.rd F.PMC_RDR_IDX_CONS) = d.pmcEntries then
    { d.bump F.PMC_RDR_STAT_SKIPPED with pmc.gap := true }
  else if !d.fnOn (d.rd F.PMC_RDR_FN_FN) then d.pmcStop Status.FN_OFF
  else { d with pmc.gap := false }.pmcRecord d.pmcHead d.pmcTaken.length d.pmcValues

/-- A write of the record that waited for its translation is issued, or has failed. -/
def Dev.pmcWrote (d : Dev) (ok : Bool) : Dev :=
  match d.pmc.job with
  | none => d
  | some (l, k, head) =>
    if !ok then d.pmcStop Status.WIN_XLT
    else if 1 < k then { d with pmc.job := some (l, k - 1, head) }
    else if head then d.pmcDone
    else d.pmcHeader ((l.head?.map Prod.snd).getD 0)

/-- PMC_SNAPSHOT: fabric time reaches the next multiple of the period. -/
def Dev.pmcPeriod (d : Dev) : Dev :=
  let per := max 1 (d.rd F.PMC_RDR_CFG_PERIOD_US) * 1000
  if d.dark || d.rd F.PMC_RDR_STAT_STATE != rdRun then d
  else (d.advanceToNs ((d.ns / per + 1) * per)).pmcLatch

def execPmcSnapshot (s : State) : Host.Outcome State Fault Refusal := onDev s Dev.pmcPeriod
def execPmcSnap (s : State) : Host.Outcome State Fault Refusal := onDev s (fun d => if d.dark then d else d.pmcLatch)

/-- PMC_CTR_VAL_WRITE (R562). -/
def execPmcCtrValWrite (k : Fin 1024) (v : Word) (s : State) : Host.Outcome State Fault Refusal :=
  onDev s (fun d => d.wr F.PMC_CTR_VAL_VALUE k v.toNat)

end Sys2Proof.Machine
end

