-- ==== Sys2Proof/Machine/Boot.lean ====
section
/-! DEFINITION. The boot flash and the check of what it holds (R502 to R504), Basecamp's SRAM (R520), the answer to a mailbox
request (R508), and the reads that stage an image (R509, R510). -/

namespace Sys2Proof.Machine

/-! ### The boot flash (R502) -/

/-- Sector k of the flash: bytes 4096k to 4096k + 4095, the first lowest. One that nothing has written reads 0 (log entry 7). -/
def Dev.sector (d : Dev) (k : Nat) : Nat := Tbl.get d.bcp.flash 0 k

/-- The first sector of image slot n, 0 for A and 1 for B. The board record begins in sector 0. -/
def slotSector (n : Nat) : Nat := 256 + 2048 * n

/-- The bytes of sectors k to k + n - 1. -/
def Dev.sectors (d : Dev) (k n : Nat) : Nat := (List.range n).foldl (fun v i => v + d.sector (k + i) * 2 ^ (32768 * i)) 0

/-! ### Images and the board record (R503) -/

/-- A header and the code, or the body, that follows it; byte 0 of each lowest. -/
structure Image where
  hdr : Nat
  code : Nat
deriving DecidableEq, Repr

/-- Bytes [off + n - 1 : off] of the header as a little-endian number. -/
def Image.le (x : Image) (off n : Nat) : Nat := bitsOf x.hdr (8 * off) (8 * n)

def Image.magic (x : Image) : Nat := x.le 0 4
def Image.hdrVer (x : Image) : Nat := x.le 4 2
def Image.keyIdx (x : Image) : Nat := x.le 6 1
def Image.rollback (x : Image) : Nat := x.le 7 1
def Image.version (x : Image) : Nat := x.le 8 4
def Image.codeLen (x : Image) : Nat := x.le 12 4
def Image.entry (x : Image) : Nat := x.le 16 4
def Image.codeHash (x : Image) : Nat := bigEnd x.hdr 64 48

/-- The code that CODE_LEN may give: 3 MiB of an image; of the board record what its 64 KiB leave (DEDUCED, log entry 36). -/
def codeMax (img : Bool) : Nat := if img then 3 * 2 ^ 20 else 61440

/-- CODE_LEN is within its limit. -/
def Image.lenOk (x : Image) (img : Bool) : Bool := x.codeLen % 8 == 0 && decide (x.codeLen ≤ codeMax img)

/-- The image, or the board record, whose header is sector k. -/
def Dev.imageAt (d : Dev) (k : Nat) (img : Bool) : Image :=
  let x : Image := { hdr := d.sector k, code := 0 }
  if x.lenOk img then { x with code := d.sectors (k + 1) ((x.codeLen + 4095) / 4096) % 2 ^ (8 * x.codeLen) } else x

def Dev.slotImage (d : Dev) (n : Nat) : Image := d.imageAt (slotSector n) true
def Dev.boardRecord (d : Dev) : Image := d.imageAt 0 false

/-! ### Authentication (R504) -/

/-- Check 1. -/
def Image.formOk (x : Image) (img : Bool) : Bool :=
  x.magic == (if img then 0x5746344C else 0x5242344C) && x.hdrVer == 1 && x.le 20 44 == 0 && x.le 209 47 == 0 && x.le 352 3744 == 0

/-- SHA-384 of PUBKEY. -/
def Image.keyDigest (x : Image) : Nat := sha384 (x.le 112 97) 97

/-- SIG verifies over bytes 0 to 255 with PUBKEY, which begins with 0x04. -/
def Image.sigOk (x : Image) : Bool :=
  x.le 112 1 == 4 &&
  ecdsaOk (sha384 (x.le 0 256) 256) (bigEnd x.hdr 256 48) (bigEnd x.hdr 304 48) (bigEnd x.hdr 113 48) (bigEnd x.hdr 161 48)

/-- The seven checks, the first to fail ending them; `img` for an image, whose ROLLBACK counts too. -/
def Dev.authOk (d : Dev) (x : Image) (img : Bool) : Bool :=
  x.formOk img && Tbl.get d.bcp.keyHash 0 x.keyIdx != 0 && !d.bcp.revoked.contains x.keyIdx &&
  x.keyDigest == Tbl.get d.bcp.keyHash 0 x.keyIdx && (!img || d.bcp.rollback ≤ x.rollback) && x.lenOk img &&
  sha384 x.code x.codeLen == x.codeHash && x.sigOk

/-! ### Basecamp's SRAM (R520) -/

/-- The words `l` in SRAM from byte address `a` on. -/
def Dev.sramPut (d : Dev) (a : Nat) (l : List Word) : Dev :=
  (l.mapIdx (fun i w => (i, w))).foldl (fun d e => d.setScrWord 16 (a + 8 * e.1) (mkWord e.2 0)) d

/-- An image's code is loaded into code region r, where its length allows. -/
def Dev.loadCode (d : Dev) (r : Nat) (x : Image) : Dev :=
  if x.lenOk true then
    d.sramPut (codeRegion r) ((List.range (x.codeLen / 8)).map (fun i => BitVec.ofNat 64 (bitsOf x.code (64 * i) 64)))
  else d

/-- Where the handover region begins (log entry 36). -/
abbrev handover : Nat := 7 * 2 ^ 20

/-- What firmware hands over: each mailbox's state and responses, then the exception records (R520; log entry 36). -/
def Dev.handWords (d : Dev) : List Word :=
  (List.range 8).flatMap (fun m => d.reg R.BCP_MBX_STAT m :: (List.range 16).map (fun w => d.reg R.BCP_MBX_RSP (m * 16 + w))) ++
  BitVec.ofNat 64 d.bcp.exc.length :: d.bcp.exc.flatMap (fun x => BitVec.ofNat 64 x.fn :: x.words)

def Dev.handSave (d : Dev) : Dev := d.sramPut handover d.handWords

/-- Word k of mailbox m in the handover region: its state, then its responses. -/
def Dev.handWord (d : Dev) (m k : Nat) : Word := TWord.val (d.scrWord 16 (handover + 8 * (17 * m + k)))

/-- The mailboxes' sequences and stored responses are restored. -/
def Dev.handLoad (d : Dev) : Dev :=
  (List.range 8).foldl (fun d m =>
    let w := d.handWord m 0
    let d := ((d.wr F.BCP_MBX_STAT_DONE_SEQ m (getBits w 0 16)).wr F.BCP_MBX_STAT_STATUS m (getBits w 16 16)).wr
      F.BCP_MBX_STAT_RSP_WORDS m (getBits w 33 5)
    (List.range 16).foldl (fun d k => d.setReg R.BCP_MBX_RSP (m * 16 + k) (d.handWord m (k + 1))) d) d

/-! ### Firmware, and its answer to a request (R508) -/

/-- The firmware runs, and no blackout is in progress. -/
def Dev.fwRuns (d : Dev) : Bool := !d.dark && d.rd F.BCP_FW_STAT_STATE == 2

/-- A mailbox request is answered: its words are written, DONE_SEQ and STATUS, BUSY clears, INT_NUM is raised. -/
def Dev.mbxDone (d : Dev) (m st : Nat) (rsp : List Word) : Dev :=
  let d := (rsp.mapIdx (fun i v => (i, v))).foldl (fun d e => d.setReg R.BCP_MBX_RSP (m * 16 + e.1) e.2) d
  let d := ((d.wr F.BCP_MBX_STAT_RSP_WORDS m rsp.length).wr F.BCP_MBX_STAT_STATUS m st).wr F.BCP_MBX_STAT_DONE_SEQ m
    (d.rd F.BCP_MBX_CTL_SEQ m)
  let d := d.wr F.BCP_MBX_STAT_BUSY m 0
  if d.flag F.BCP_MBX_CTL_INT_EN m then d.raise (pfOfMbx m) (d.rd F.BCP_MBX_CTL_INT_NUM m) else d

/-! ### Staging (R509, R510) -/

/-- The slot that is not running; where none runs, the one not preferred. -/
def Dev.idleSlot (d : Dev) : Nat :=
  1 - (if d.rd F.BCP_FW_STAT_STATE = 4 then d.bcp.preferred % 2 else d.rd F.BCP_FW_STAT_SLOT)

/-- An image of `len` bytes is written to the slot not running, in place of what it held, and checked under R504. -/
def Dev.stageImage (d : Dev) (len data : Nat) : Dev × Nat :=
  let n := d.idleSlot
  let k := slotSector n
  let rest := d.bcp.flash.filter (fun e => e.1 < k || k + 2048 ≤ e.1)
  let put := fun (t : Tbl Nat) (i : Nat) => Tbl.set 0 (k + i) (bitsOf (data % 2 ^ (8 * len)) (32768 * i) 32768) t
  let d := { d with bcp.flash := (List.range ((len + 4095) / 4096)).foldl put rest }
  if d.authOk (d.slotImage n) true then ({ d with bcp.staged := some n }, 0) else ({ d with bcp.staged := none }, Status.AUTH_FAIL)

/-- Staging ends, and its request is answered with `st`. -/
def Dev.stageStop (d : Dev) (st : Nat) : Dev :=
  match d.bcp.stage with
  | none => d
  | some j => { d.disown .stage with bcp.stage := none }.mbxDone j.mbx st []

/-- The next part of the image is read through the window; after the last the image is written. -/
def Dev.stageStep (d : Dev) : Dev :=
  match d.bcp.stage with
  | none => d
  | some j =>
    if j.len ≤ j.got then
      let (d, st) := d.stageImage j.len j.data
      d.stageStop st
    else
      let (d, r) := d.winRead .stage j.win (j.off + j.got) (min (4096 - d.winVa j.win (j.off + j.got) % 4096) (j.len - j.got)) j.got
      match r with
      | .fail st => d.stageStop st
      | .wait => d
      | .done => d

/-- `n` bytes of the image have been read, or none. -/
def Dev.stageGot (d : Dev) (n : Nat) (v : Option Nat) : Dev :=
  match d.bcp.stage, v with
  | some j, some v => { d with bcp.stage := some { j with got := j.got + n, data := j.data + v % 2 ^ (8 * n) * 2 ^ (8 * j.got) } }.stageStep
  | _, _ => d.stageStop Status.HOST_ERROR

end Sys2Proof.Machine
end

