-- ==== Sys2Proof/Machine/Late.lean ====
section
/-! DEFINITION. What follows a translation walk or a completion of a read, whoever waits for it; halt and eret, which may end a
wait for page state; and the exception queue (R77, R134, R429, R511, R600). -/

namespace Sys2Proof.Machine

/-! ### The owner of an access is told how it went -/

/-- DMA channels keep their own account of waits (R451). -/
def Own.channel : Own → Option Nat
  | .dmaList ch => some ch
  | .dmaRd ch => some ch
  | .dmaWr ch => some ch
  | .rx _ => none
  | .reply _ => none
  | .src _ => none
  | .getSrc _ => none
  | .amo _ => none
  | .ud _ => none
  | .rcq _ => none
  | .uxCopy _ _ => none
  | .colIn _ => none
  | .colOut _ => none
  | .pmc _ => none
  | .stage => none
  | .gone => none

/-- The access is of a channel whose cluster has stopped and issues nothing more (R453). -/
def Dev.clusterHolds (d : Dev) (o : Own) : Bool :=
  match o.channel with
  | some ch => d.flag F.DMA_CL_STAT_STOPPED (ch / 64)
  | none => false

/-- The access is a channel's read-ahead of its list (R448). -/
def Dev.readsAhead (d : Dev) (o : Own) : Bool :=
  match o with
  | .dmaList ch => (d.chan ch).ahead
  | _ => false

/-- An atomic ends with status `st` before its word is read. -/
def Dev.amoFail (d : Dev) (id st : Nat) : Dev :=
  match Tbl.find d.rma.amos id with
  | none => d
  | some j => (d.nackErr j.cell.key st).amoRun

/-- The copy of unexpected data ends with status `st`. -/
def Dev.uxFail (d : Dev) (f id st : Nat) : Dev :=
  match ((d.dom f).ux.find? (fun u => u.id == id)).bind UxMsg.matched with
  | none => d
  | some rid =>
    let d := d.disown (.uxCopy f id)
    { d with mtc.active := Tbl.upd rid (fun (a : Active) => { a with writes := 0, status := st }) d.mtc.active }

/-- The owner's access failed with status `st`. -/
def Dev.ownFail (d : Dev) (own : Own) (st : Nat) : Dev :=
  match own with
  | .rx key => d.rxFail key st
  | .reply i => d.updSlot i (fun s => { s with fail := some st })
  | .src i => d.updSlot i (fun s => { s with fail := some st })
  | .getSrc id => d.getRead id 0 0 none st
  | .amo id => d.amoFail id st
  | .ud key => d.udWrote key false
  | .rcq f => (d.rcqFail f).mtcWake f
  | .uxCopy f id => d.uxFail f id st
  | .colIn k => d.contribRead k 0 0 none st
  | .colOut n => d.colWrote n false
  | .dmaList ch =>
    if (d.chan ch).ahead then (d.aheadDrop ch).chStep ch
    else d.chStop ch (if st = Status.HOST_ERROR then Status.DMA_BUS_ERROR else st)
  | .dmaRd ch => d.chStop ch (if st = Status.HOST_ERROR then Status.DMA_BUS_ERROR else st)
  | .dmaWr ch => d.chStop ch (if st = Status.HOST_ERROR then Status.DMA_BUS_ERROR else st)
  | .pmc _ => d.pmcWrote false
  | .stage => d.stageStop st
  | .gone => d

/-- The owner's write has been issued. -/
def Dev.ownWrote (d : Dev) (own : Own) : Dev :=
  match own with
  | .rx key => d.rxWrote key true
  | .reply i => d.replyWrote i true
  | .src _ => d
  | .getSrc _ => d
  | .amo _ => d
  | .ud key => d.udWrote key true
  | .rcq _ => d
  | .uxCopy f id => d.uxWrote f id true
  | .colIn _ => d
  | .colOut n => d.colWrote n true
  | .dmaList _ => d
  | .dmaRd _ => d
  | .dmaWr _ => d
  | .pmc _ => d.pmcWrote true
  | .stage => d
  | .gone => d

/-! ### An access goes on once its translation is known -/

/-- The write of a queue's that waited goes to address a: the one that is due, or what is due now is begun afresh. -/
def Dev.qStatGo (d : Dev) (q fn a va : Nat) : Dev :=
  let x := d.queue q
  match x.wb with
  | (s, st) :: rest =>
    if va != d.ringAddr q s + 6 then d.qWriteDue q
    else ((d.hostWrite fn a 2 st).updQueue q (fun x => { x with wb := rest })).qWriteDue q
  | [] =>
    if x.recDue.isNone || va != d.rd F.WQ_CTX_STAT_ADDR q * 64 then d.qWriteDue q
    else (d.hostWrite fn a 64 (d.qRecord q)).qRecDone q

/-- The dispatch fetch of queue q, translated as `x` (R117, R118, R600). -/
def Dev.fetchGo (d : Dev) (r : XReq) (q owner : Nat) (x : XRes) : Dev :=
  match (d.queue q).fetch, d.qNext q with
  | some th, some s =>
    if d.qst q != qsRun then d.release q th
    else match x with
      | .ok a =>
        if r.va = d.ringAddr q s then d.entryAt q s th (d.asidFn r.asid) a r.va else d.release q th
      | .fault =>
        if r.va = d.ringAddr q s && !(d.queue q).fetchOld then d.fetchFail q s th tcXlt (BitVec.ofNat 64 r.va)
        else d.release q th
      | .page tv =>
        if r.va = d.ringAddr q s && !(d.queue q).fetchOld then d.pageWait r (.wqFetch q) owner tv else d.release q th
      | .wait => d
  | some th, none => d.release q th
  | none, _ => d

/-- The data cell that a write to `va` places. -/
def Dev.rxCellOf (d : Dev) (key va : Nat) : Nat :=
  match (d.rxOf key).map Rx.place with
  | some (.win h off _) => (va - (d.winOf h).base - off) / 64
  | _ => 0

/-- What waited for a translation goes on with its result `x`. -/
def Dev.resume (d : Dev) (r : XReq) (work : Work) (owner : Nat) (x : XRes) : Dev :=
  let fn := d.asidFn r.asid
  match work with
  | .ldH th => match (d.thr th).stall with
    | .walk wd va size win got data => d.loadGot th wd va size win got data x fn
    | _ => d
  | .stH th va data size win =>
    if (d.thr th).stall != .store then d
    else d.storeGot th va data size win x fn (fun d n => d.storeStep th (va + n) (data / 2 ^ (8 * n)) (size - n) win 2)
  | .imem th slot ver line => match (d.thr th).stall with
    | .imem s v l got => if s = slot && v = ver && l = line then d.lineGot th slot ver line got x else d
    | _ => d
  | .imemPre c slot ver line => if r.va = (d.linePart slot ver line 0).1 then d.aheadGo c slot ver line fn x else d
  | .table => if x = .fault then d.ev 2 5 else d
  | .wqFetch q => d.fetchGo r q owner x
  | .wqPre q s n => match x with
    | .ok a => if d.preOk q s n && r.va = d.ringAddr q s then (d.hostRead fn a (64 * n) (.wqPre q s n)).1 else d
    | .fault => d.ev 2 5
    | .page _ => d.ev 2 5
    | .wait => d
  | .wqStat q =>
    let d := d.updQueue q (fun x => { x with wbWait := false })
    match x with
    | .ok a => d.qStatGo q fn a r.va
    | .fault => (d.qStatFail q r.va).qWriteDue q
    | .page tv => (d.pageWait r work owner tv).updQueue q (fun x => { x with wbWait := true })
    | .wait => d.updQueue q (fun x => { x with wbWait := true })
  | .accR own off len =>
    if own = .gone || d.clusterHolds own then d
    else if d.readsAhead own then match own, x with
      | .dmaList ch, .ok a =>
        let (d, t) := d.hostRead fn a len (.own own off len)
        if t.isSome then d else (d.aheadDrop ch).chStep ch
      | .dmaList ch, _ => (d.aheadDrop ch).chStep ch
      | _, _ => d
    else match x with
      | .ok a => match own with
        | .amo id => d.amoAddr id x
        | _ =>
          let (d, t) := d.hostRead fn a len (.own own off len)
          if t.isSome then d else d.ownFail own Status.HOST_ERROR
      | .fault => (d.ev 2 6 none (some owner)).ownFail own Status.WIN_XLT
      | .page tv => match own.channel with
        | some ch => (d.pageWait r work owner tv).chPage ch
        | none => d.pageWait r work owner tv
      | .wait => d
  | .accW own data len ro =>
    if own = .gone || d.clusterHolds own then d
    else match x with
      | .ok a => match own with
        | .dmaWr ch => d.chPut ch fn a
        | .rcq f => (d.rcqPart f { fn := fn, addr := a, len := len, data := data,
                                   off := r.va - (d.winOf (d.rd F.MTC_FN_RCQ_WIN f)).base }).mtcWake f
        | _ => (d.hostWrite fn a len data ro (d.ownEp own)).ownWrote own
      | .fault => (d.ev 2 6 none (some owner)).ownFail own Status.WIN_XLT
      | .page tv => match own.channel, own with
        | some ch, _ => (d.pageWait r work owner tv).chPage ch
        | none, .rx key => (d.pageWait r work owner tv).rxHold key (d.rxCellOf key r.va) d.nextTag
        | none, _ => d.pageWait r work owner tv
      | .wait => d

/-- Walks that wait begin, oldest first, while fewer than 64 are in progress (R135). -/
def Dev.walksGo (d : Dev) : Nat → Dev
  | 0 => d
  | fuel + 1 =>
    if 64 ≤ d.walking then d
    else match d.xlt.walks.find? (fun e => e.2.tag.isNone) with
      | none => d
      | some (id, w) =>
        if !d.flag F.XLT_ASID_ROOT_EN w.req.asid then
          ({ d with xlt.walks := Tbl.del id d.xlt.walks }.resume w.req w.work w.owner .fault).walksGo fuel
        else match d.beginWalk id { w with stale := false } with
        | (d, .wait) => d.walksGo fuel
        | (d, x) => (d.resume w.req w.work w.owner x).walksGo fuel

/-- Addresses that accesses hold without having used them are translated afresh. -/
def Dev.renewAll (d : Dev) : Dev :=
  let d := (d.rma.amos.map Prod.fst).foldl (fun d id => d.amoRenew id) d
  (d.mtc.doms.map Prod.fst).foldl (fun d f => (d.rcqRenew f).mtcWake f) d

/-- An invalidation command is accepted (R141 to R143). -/
def Dev.invAccept (d : Dev) (p kind asid sizeLog2 : Nat) (walk : Bool) : Dev := (d.invalidate p kind asid sizeLog2 walk).renewAll

/-- A walk's read ends: the walk goes on, or the access that waits for it does (R128 to R130). Of an access that goes on with
the address of a partial walk, the invalidations wait for its reads, and an address that it only holds is translated again
(R143). -/
def Dev.walkDone (d : Dev) (id : Nat) (cpl : Cpl) : Dev :=
  match d.walkStep id cpl with
  | (d, some (w, x)) =>
    let n := d.nextTag
    let d := (d.resume w.req w.work w.owner x).invJoin w.partialOf n
    let d := (if w.partialOf.isEmpty then d else d.renewAll).tableAhead w x
    d.walksGo d.xlt.walks.length
  | (d, none) => d

/-! ### Page state: the handler has ended (R134, R451, R600) -/

/-- The channel that an access belongs to. -/
def Work.channel : Work → Option Nat
  | .accR own _ _ => own.channel
  | .accW own _ _ _ => own.channel
  | .ldH _ => none
  | .stH _ _ _ _ _ => none
  | .imem _ _ _ _ => none
  | .imemPre _ _ _ _ => none
  | .table => none
  | .wqFetch _ => none
  | .wqPre _ _ _ => none
  | .wqStat _ => none

/-- The handler ended at eret: the access is made again. -/
def Dev.retryWait (d : Dev) (id : Nat) : Dev :=
  match Tbl.find d.xlt.waits id with
  | none => d
  | some (r, work, fn, _) =>
    let d := { d with xlt.waits := Tbl.del id d.xlt.waits }
    match work.channel with
    | some ch => d.chRetry ch
    | none =>
      let (d, x) := d.xlate r work false fn
      d.resume r work fn x

/-- The access's owner takes status `st`; a message held at its receive context is answered busy where `busy` is set
(R511). -/
def Dev.waitOwnFail (d : Dev) (own : Own) (busy : Bool) : Dev :=
  match own.channel, own with
  | some ch, _ => d.chRefuse ch
  | none, .rx key =>
    if !busy then d.rxFail key Status.WIN_XLT
    else match (d.rxOf key).bind Rx.recv with
      | some rid => (d.nackBusy key Status.EXC_BUSY).recvDone rid Status.EXC_BUSY
      | none => d.nackBusy key Status.EXC_BUSY
  | none, .getSrc id => match Tbl.find d.rma.gets id with
    | some j => if busy then d.nackBusy j.cell.key Status.EXC_BUSY else d.ownFail own Status.WIN_XLT
    | none => d
  | none, .amo id => match Tbl.find d.rma.amos id with
    | some j => if busy then (d.nackBusy j.cell.key Status.EXC_BUSY).amoRun else d.ownFail own Status.WIN_XLT
    | none => d
  | none, o => d.ownFail o Status.WIN_XLT

/-- The handler ended at halt: the access fails. -/
def Dev.waitFail (d : Dev) (id : Nat) (busy : Bool) : Dev :=
  match Tbl.find d.xlt.waits id with
  | none => d
  | some (r, work, _, _) =>
    let d := { d with xlt.waits := Tbl.del id d.xlt.waits }
    match work with
    | .wqFetch q => match (d.queue q).fetch, d.qNext q with
      | some th, some s =>
        if r.va = d.ringAddr q s && !(d.queue q).fetchOld then (d.release q th).qError q qeFetch s else d.release q th
      | some th, none => d.release q th
      | none, _ => d
    | .wqStat q => ((d.updQueue q (fun x => { x with wbWait := false })).qStatFail q r.va).qWriteDue q
    | .accR own _ _ => d.waitOwnFail own busy
    | .accW own _ _ _ => d.waitOwnFail own busy
    | .wqPre _ _ _ => d
    | .ldH _ => d
    | .stH _ _ _ _ _ => d
    | .imem _ _ _ _ => d
    | .imemPre _ _ _ _ => d
    | .table => d

/-! ### halt and eret (R72, R77, R120) -/

/-- halt of a trap activation. -/
def Dev.haltTrap (d : Dev) (th : Nat) : Dev :=
  let t := d.thr th
  let w1 := TWord.val (t.reg 1)
  match t.trapEv with
  | some id => (d.idle th).waitFail id (getBits w1 0 16 == Status.EXC_BUSY)
  | none =>
    if !t.cmd || t.noEntry then d.idle th
    else if getBits w1 16 1 = 0 then d.endActivation th (getBits w1 0 16)
    else (d.idle th).entryStop t.queue t.seq qeHandlerStop

def execHalt (th : Tid) (f : FmtA) (ext : Ext) (s : State) : Host.Outcome State Fault Refusal :=
  onRma s (fun d => d.issueA 0x04 th f ext (f.wd != 0 || f.wa != 0 || f.wb != 0 || f.fn != 0) (fun d =>
    .done (if (d.thr th).inTrap then d.haltTrap th else d.endActivation th 0)))

/-- eret of a trap activation that an instruction caused: the registers come back from the save area. -/
def Dev.restore (d : Dev) (th : Nat) : Dev :=
  let t := d.thr th
  let c := clusterOf th
  let w := fun (n : Nat) => d.scrWord c (saveArea th + 8 * n)
  let s3 := TWord.val (w 3)
  let slot := (t.trapped.map Prod.fst).getD none
  let ev := (t.trapped.map Prod.snd).getD 0
  let d := (d.leaveSlot t.inSlot).updThr th (fun t =>
    { t with p := BitVec.ofNat 8 (getBits s3 1 7 * 2), priv := getBits s3 8 1 == 1, event := ev, inSlot := slot, trapped := none, lastCol := t.trapCol, trapCol := none,
             asid := getBits (TWord.val (w 4)) 0 16 })
  (List.range 7).foldl (fun d k => d.setW th (k + 1) (w (8 + k))) d

/-- An event that trapped SLOT_OFF had not entered its slot: it enters now, at the current version, or traps SLOT_OFF again
(R81, R85, R86; DESIGN CHOICE, log entry 34). -/
def Dev.reenter (d : Dev) (th : Nat) (pc : Word) : Dev :=
  let n := pcSlot pc
  let pc := mkPc (pcIndex pc) n (d.slotVer n)
  if !d.flag F.ENG_SLOT_CTL_EN n then
    (d.updThr th (fun t => { t with pc := pc, past := false })).trapHere th tcSlotOff (BitVec.ofNat 64 n)
  else (d.enterSlot n).updThr th (fun t => { t with pc := pc, past := false, inSlot := some (n, d.slotVer n) })

/-- The same, with the checks of the code address. Index 0 of a command entry, its header, traps ILLEGAL (DESIGN CHOICE, log
entry 36). -/
def Dev.eretTrap (d : Dev) (th : Nat) : IRes :=
  let t := d.thr th
  let s0 := TWord.val (d.scrWord (clusterOf th) (saveArea th))
  if getBits s0 17 19 != getBits t.tpc 17 19 then .trap tcIllegal s0
  else
    let pc := setBits t.tpc 0 17 (pcIndex s0)
    let d := d.restore th
    if !isCore th && !pcCmd pc && (d.thr th).inSlot.isNone then .done (d.reenter th pc)
    else if pcCmd pc && pcIndex pc = 0 then .done ((d.updThr th (fun t => { t with pc := pc })).trapHere th tcIllegal pc)
    else .done (d.goTo th pc)

def execEret (th : Tid) (f : FmtA) (ext : Ext) (s : State) : Host.Outcome State Fault Refusal :=
  onRma s (fun d => d.issueA 0x05 th f ext
      (f.wd != 0 || f.wa != 0 || f.wb != 0 || f.fn != 0 || !(d.thr th).inTrap) (sup := true) (noCmd := true) (fun d =>
    let t := d.thr th
    match t.trapEv, t.trapped with
      | some id, _ => .done ((d.idle th).retryWait id)
      | none, none => .done (d.idle th)
      | none, some _ => if t.noEntry then .done (d.idle th) else d.eretTrap th))

/-! ### Completions (R429, R435) -/

/-- A completion for an owner's access. -/
def Dev.ownGot (d : Dev) (o : Own) (off : Nat) (cpl : Cpl) : Dev :=
  match o.channel, o with
  | some ch, .dmaList _ => d.chListDone ch cpl
  | some ch, _ => d.chDataDone ch cpl
  | none, _ => match d.ownRead o off cpl with
    | (d, none) => d
    | (d, some (n, v)) => match o with
      | .src i => d.srcRead i off n v
      | .getSrc id => d.getRead id off n v Status.HOST_ERROR
      | .amo id => d.amoRead id v
      | .colIn k => d.contribRead k off n v Status.HOST_ERROR
      | .stage => d.stageGot n v
      | _ => d

/-- The completion of read `tag` reaches its requester, as its purpose says; in safe state it is discarded (R537). -/
def Dev.readCpl (d : Dev) (tag : Nat) (cpl : Cpl) : Dev :=
  match Tbl.find d.reads tag with
  | none => d
  | some r => if d.halted then (d.takeRead tag 0 cpl).1 else match r.why with
    | .load th win => d.loadDone th win tag cpl
    | .imem th => d.imemDone th cpl
    | .imemPre c slot ver line => d.aheadDone c slot ver line tag cpl
    | .walk id => d.walkDone id cpl
    | .wqFetch q => d.fetchDone q cpl
    | .wqPre q s _ => d.prefetchDone q s cpl
    | .own o off _ => d.ownGot o off cpl
    | .flushInv p t _ => d.invEnd p t tag cpl
    | .flushRevoke f t => d.revokeFree f t cpl
    | .flushReq key => d.durDone key cpl
    | .flushFence th => match d.takeRead tag 0 cpl with
      | (d, some _) => d.fenceRead th (cpl != .err)
      | (d, none) => d

/-- A command that ends a read: what it sets free goes on. -/
def onRead (s : State) (f : Dev → Dev) : Host.Outcome State Fault Refusal :=
  onDev s (fun d => let d := (f d).invPoll; if d.halted then d else d.rmaGo)

def execXltWalkReadDone (walk : Nat) (cpl : Cpl) (s : State) : Host.Outcome State Fault Refusal :=
  onRead s (fun d => d.walkDone walk cpl)
def execHostReadCompletion (tag : Nat) (cpl : Cpl) (s : State) : Host.Outcome State Fault Refusal :=
  onRead s (fun d => d.readCpl tag cpl)

/-- The least time, in µs, of the Completion Timeout Value `v` of Device Control 2: its default, and ranges A to D (log entry
26). -/
def ctoUs : Nat → Nat
  | 2 => 1000
  | 5 => 16000
  | 6 => 65000
  | 9 => 260000
  | 10 => 1000000
  | 13 => 4000000
  | 14 => 17000000
  | _ => 50

/-- When the completion timeout of read r expires (R429). -/
def Dev.ctoAt (d : Dev) (r : HostRd) : Nat := r.at_ + usPs (ctoUs (Tbl.get d.host.cto 0 r.fn))

/-- HOST_CPL_TIMEOUT. A read that its requester has abandoned gives up its tag. -/
def Dev.cplTimeout (d : Dev) (tag : Nat) : Dev :=
  match Tbl.find d.reads tag with
  | none => d
  | some r =>
    if Tbl.get d.host.ctoOff false r.fn then d
    else
    let d := (d.advanceTo (d.ctoAt r)).bump F.HST_PORT_ERR_CTO (r.fn / 256)
    if r.gone then { d with reads := Tbl.del tag d.reads } else d.readCpl tag .err

def execHostCplTimeout (tag : Nat) (s : State) : Host.Outcome State Fault Refusal := onRead s (fun d => d.cplTimeout tag)

/-- Read `tag` is abandoned: its requester is told at once that it failed, and its tag stays in use (R435). A channel that a
cut leaves IDLE is not told. -/
def Dev.abandon (d : Dev) (tag : Nat) : Dev :=
  match Tbl.find d.reads tag with
  | none => d
  | some r =>
    if r.gone then d
    else
      let keep := fun (d : Dev) => { d with reads := Tbl.put tag { r with gone := true } d.reads }
      match r.why with
      | .own o _ _ => match o.channel with
        | some ch => let d := keep d; if d.chSt ch = chIdle then d else d.ownFail o Status.HOST_ERROR
        | none => keep ({ d with reads := Tbl.put tag { r with failed := true } d.reads }.readCpl tag .err)
      | _ => keep ({ d with reads := Tbl.put tag { r with failed := true } d.reads }.readCpl tag .err)

/-! ### exc.fwd (R72, R511, R512) -/

/-- The records that function f has queued. -/
def Dev.excOf (d : Dev) (f : Nat) : List ExcRec := d.bcp.exc.filter (fun e => e.fn == f)

/-- A record of function f is queued, or refused: the result for wd. -/
def Dev.excPut (d : Dev) (f : Nat) (ws : List Word) : Dev × Nat :=
  if clampTo 1 32 (d.rd F.BCP_EXC_CFG_DEPTH) ≤ (d.excOf f).length || 8192 ≤ d.bcp.exc.length || d.bcp.swap.isSome then
    (d.bump F.BCP_EXC_STAT_REFUSED, Status.EXC_BUSY)
  else ({ d with bcp.exc := d.bcp.exc ++ [{ fn := f, words := ws }] }, 0)

/-- The eight words at scratch address `a` pass their gate. -/
def Dev.excScratch (d : Dev) (th a : Nat) (k : Unit → IRes) : Nat → IRes
  | 0 => k ()
  | n + 1 => d.scratchOk th (a + 8 * (7 - n)) 1 (fun _ => d.excScratch th a k n)

def execExcFwd (th : Tid) (f : FmtA) (ext : Ext) (s : State) : Host.Outcome State Fault Refusal :=
  onDev s (fun d => d.issueA 0x09 th f ext (f.wb != 0 || f.fn != 0) (sup := true) (noCmd := true) (fun d => noPoison d th [f.wa.toNat] (fun _ =>
    let t := d.thr th
    let a := (TWord.val (t.reg f.wa.toNat)).toNat
    aligned a 8 (fun _ => d.excScratch th a (fun _ =>
      let ws := (List.range 8).map (fun k => TWord.val (d.scrWord (clusterOf th) (a + 8 * k)))
      let (d, st) := d.excPut t.fn ws
      .next (d.setVal th f.wd.toNat st)) 8))))

end Sys2Proof.Machine
end

