-- ==== Sys2Proof/Machine/Drain.lean ====
section
/-! DEFINITION. The end of a window's admitted uses (R155), function states (R432 to R435, R442), host links, and the interrupt
controller's registers (R440, R441). -/

namespace Sys2Proof.Machine

/-! ### Admitted uses of a window (R155) -/

/-- An admitted use that has not ended (R155): a get counts from its issue, another segment while its source is being read. -/
inductive Use where
  | own (o : Own)
  | slot (i : Nat)
  | msg (n : Nat)
  | thread (th : Nat)

/-- Handle h names window idx in its generation. -/
def Dev.names (d : Dev) (idx h : Nat) : Bool := handleIdx h == idx && handleGen h != 0 && handleGen h == (d.win_ idx).gen

/-- Uses by messages and segments, receive contexts, gets and atomics. -/
def Dev.rmaUses (d : Dev) (idx : Nat) : List Use :=
  (d.rma.rx.filter (fun e => e.2.resp.isNone && (match e.2.place with
    | .win h _ _ => d.names idx h
    | .ux _ => false
    | .drop => false
    | .none => e.2.udStage != 0 && d.names idx (d.rd F.RMA_FN_UD_RING_WIN e.2.fn)))).map (fun e =>
      Use.own (if e.2.udStage = 0 then .rx e.1 else .ud e.1)) ++
  (d.rma.slots.filter (fun e => (e.2.st == .reading || (e.2.op == 2 && e.2.st != .quiet)) && d.names idx e.2.lwin)).map
    (fun e => Use.slot e.1) ++
  (d.rma.msgs.filter (fun e => e.2.kind == 2 && e.2.taken < e.2.segs && d.names idx e.2.lwin)).map (fun e => Use.msg e.1) ++
  (d.rma.gets.filter (fun e => d.names idx e.2.win)).map (fun e => Use.own (.getSrc e.1)) ++
  (d.rma.amos.filter (fun e => d.names idx e.2.win)).map (fun e => Use.own (.amo e.1))

/-- Uses by matching and collectives. -/
def Dev.mtcUses (d : Dev) (idx : Nat) : List Use :=
  d.mtc.doms.flatMap (fun (e : Nat × Dom) =>
    (e.2.ux.filter (fun u => u.rx.isNone && (match u.matched.bind (Tbl.find d.mtc.active) with
      | some a => a.writes != 0 && d.names idx a.recv.win
      | none => false))).map (fun u => Use.own (.uxCopy e.1 u.id)) ++
    (if e.2.writing.isSome && d.names idx (d.rd F.MTC_FN_RCQ_WIN e.1) then [Use.own (.rcq e.1)] else [])) ++
  d.col.ctxs.flatMap (fun (e : Nat × ColCtx) =>
    ((e.2.contribs ++ e.2.next).filter (fun x => x.2.reads != 0 && d.names idx x.2.win)).map (fun x =>
      Use.own (.colIn (e.1 + 4096 * x.2.id))) ++
    (if e.2.placingNow && d.names idx e.2.resWin then [Use.own (.colOut e.1)] else []))

/-- Uses by DMA channels, the telemetry reader and the staging of an image. -/
def Dev.dmaUses (d : Dev) (idx : Nat) : List Use :=
  d.dma.ch.flatMap (fun (e : Nat × Chan) =>
    let src := (e.2.elem.map Elem.srcWin).getD 0
    let dst := (e.2.elem.map Elem.dstWin).getD 0
    (if e.2.fetching && !d.flag F.DMA_CH_CFG_LIST_IN_DEPOT e.1 && d.names idx (d.rd F.DMA_CH_LIST_WIN e.1)
      then [Use.own (.dmaList e.1)] else []) ++
    (if e.2.rd.isSome && d.names idx src then [Use.own (.dmaRd e.1)] else []) ++
    (if e.2.wr.isSome && d.names idx dst then [Use.own (.dmaWr e.1)] else [])) ++
  (if d.pmc.job.isSome && d.names idx (d.rd F.PMC_RDR_CFG_WIN) then [Use.own (.pmc (d.rd F.PMC_RDR_IDX_PROD))] else []) ++
  (if d.bcp.stage.any (fun j => d.names idx j.win) then [Use.own .stage] else [])

/-- The store of thread th that waits for a walk goes through a window that `p` holds of. -/
def Dev.storeWin (d : Dev) (th : Nat) (p : Nat → Bool) : Bool :=
  d.xlt.walks.any (fun e => match e.2.work with
    | .stH t _ _ _ w => t == th && p w
    | _ => false)

/-- Uses by engine threads. -/
def Dev.engUses (d : Dev) (idx : Nat) : List Use :=
  (d.eng.th.filter (fun e => match e.2.stall with
    | .load _ _ _ _ w _ _ => d.names idx w
    | .walk _ _ _ w _ _ => d.names idx w
    | .store => d.storeWin e.1 (d.names idx)
    | _ => false)).map (fun e => Use.thread e.1)

/-- Every admitted use of window idx still open. -/
def Dev.uses (d : Dev) (idx : Nat) : List Use := d.rmaUses idx ++ d.mtcUses idx ++ d.dmaUses idx ++ d.engUses idx

/-- The segments of a message that have no slot yet fail with `st`. -/
def Dev.msgCut (d : Dev) (n st : Nat) : Dev :=
  match d.msgOf n with
  | none => d
  | some m =>
    let fail := match m.fail with
      | some x => x
      | none => (m.taken, st)
    let m := { m with taken := m.segs, done := m.done + (m.segs - m.taken), fail := some fail }
    let d := d.updMsg n (fun _ => m)
    if m.done < m.segs then d else d.finishMsg n m fail.2 0

/-- Work of thread th's load or store becomes no one's. -/
def Work.dropThread (th : Nat) : Work → Work
  | .ldH t => if t = th then .accR .gone 0 0 else .ldH t
  | .stH t va v n w => if t = th then .accR .gone 0 0 else .stH t va v n w
  | .imem t s v l => .imem t s v l
  | .imemPre c s v l => .imemPre c s v l
  | .table => .table
  | .accR o off n => .accR o off n
  | .accW o v n ro => .accW o v n ro
  | .wqFetch q => .wqFetch q
  | .wqPre q s n => .wqPre q s n
  | .wqStat q => .wqStat q

/-- The walk that thread th's load or store waits for answers no one. -/
def Dev.dropAccess (d : Dev) (th : Nat) : Dev :=
  { d with xlt.walks := d.xlt.walks.map (fun (e : Nat × Walk) => (e.1, { e.2 with work := e.2.work.dropThread th })) }

/-- A use is cancelled: its message fails with WIN_REVOKED. -/
def Dev.cancelUse (d : Dev) (idx : Nat) (u : Use) : Dev :=
  match u with
  | .slot i => d.updSlot i (fun s => { s with fail := some Status.WIN_REVOKED })
  | .msg n => d.msgCut n Status.WIN_REVOKED
  | .thread th =>
    let h := idx * 4096 + (d.win_ idx).gen
    (d.dropAccess th).stallTrap th tcWindow (BitVec.ofNat 64 (h + Status.WIN_REVOKED * 2 ^ 32))
  | .own o => match o with
    | .colOut n =>
      ((d.disown o).updCtx n (fun c => { c with placing := 0, status := Status.WIN_REVOKED })).colGo n
    | .pmc _ => d.pmcStop Status.WIN_REVOKED
    | o => d.ownFail o Status.WIN_REVOKED

/-- WIN_DRAIN_LIMIT. -/
def Dev.drainLimit (d : Dev) (f t : Nat) : Dev :=
  match (d.revokesOf f).find? (fun r => r.ticket == t) with
  | none => d
  | some r =>
    if r.done || r.cancelled then d
    else
      let d := d.advanceTo (r.start + r.limit)
      let d := (d.uses r.idx).foldl (fun d u => d.cancelUse r.idx u) d
      d.updRevoke f t (fun r => { r with cancelled := true })

def execWinDrainLimit (fn : Fid) (ticket : BitVec 32) (s : State) : Host.Outcome State Fault Refusal :=
  onRma s (fun d => d.drainLimit fn ticket.toNat)

/-- WIN_REVOKE_FLUSH. -/
def Dev.revokeOver (d : Dev) (f t : Nat) : Dev :=
  match (d.revokesOf f).find? (fun r => r.ticket == t) with
  | none => d
  | some r => d.revokeFlush f t (!(d.uses r.idx).isEmpty)

def execWinRevokeFlush (fn : Fid) (ticket : BitVec 32) (s : State) : Host.Outcome State Fault Refusal :=
  onDev s (fun d => if d.halted then d else d.revokeOver fn ticket.toNat)

/-! ### Functions (R432, R433) -/

/-- Causes of HST_FN_CTL.CAUSE. -/
abbrev dcEn : Nat := 1
abbrev dcMaster : Nat := 2
abbrev dcFlr : Nat := 3
abbrev dcVf : Nat := 4
abbrev dcLink : Nat := 5

/-- The virtual functions of physical function f that are present: VF Enable, NumVFs. -/
def Dev.vfPresent (d : Dev) (f : Nat) : Bool :=
  let p := d.pfOf f
  Tbl.get d.host.vfe false p && f - p ≤ Tbl.get d.host.numVfs 0 p

/-- R433. -/
def Dev.permitted (d : Dev) (f : Nat) : Bool :=
  d.flag F.HST_FN_CTL_EN f && Tbl.get d.host.bme false (d.pfOf f) && (d.isPf f || d.vfPresent f)

/-- The target of function f is reset (R442). -/
def Dev.resetTarget (d : Dev) (f : Nat) : Dev :=
  let d := (List.range 64).foldl (fun d w => d.setReg R.INT_TGT_EN (f * 64 + w) 0) d
  let d := ((d.setPend f []).setAct f []).wr F.INT_TGT_CFG_THRESHOLD f 0
  { d.wr F.INT_TGT_STAT_ARMED f 1 with host.msixPend := Tbl.set false f false d.host.msixPend }

/-- The threads of function f that still run. -/
def Dev.liveThreads (d : Dev) (f : Nat) : List Nat :=
  (d.eng.th.filter (fun e => e.2.active && e.2.st != .stopped && e.2.fn == f && !isCore e.1)).map Prod.fst

/-- Activations that outlive their function's cut keep its time (R435). -/
def Dev.keepCut (d : Dev) (f : Nat) : Dev :=
  let at_ := Tbl.find d.host.cutAt f
  let d := (d.liveThreads f).foldl (fun d th => d.updThr th (fun t => { t with cutAt := if t.cutAt.isSome then t.cutAt else at_ })) d
  { d with host.cutAt := Tbl.del f d.host.cutAt }

/-- OFF to ENABLING (R433, R442, R569, R599). -/
def Dev.fnEnabling (d : Dev) (f : Nat) : Dev :=
  let d := ((d.keepCut f).wr F.HST_FN_CTL_STATE f 1).wr F.HST_FN_CTL_ENABLE_LATCHED f 0
  let d := (List.range 16).foldl (fun d k => d.setReg R.PMC_FN_VAL (f * 16 + k) 0) (d.resetTarget f)
  { d with host.posted := Tbl.del (d.linkOf f * 1024 + f) d.host.posted }

/-- The conditions of the OFF rows. -/
def Dev.fnCheck (d : Dev) (f : Nat) : Dev :=
  if d.halted then d
  else if d.fnState f = 0 then
    if d.permitted f then d.fnEnabling f else d.wr F.HST_FN_CTL_ENABLE_LATCHED f 0
  else d

/-- Function f may have become permitted since `old`: a DRAINING one that has takes the latch (R433). -/
def Dev.fnAgain (old d : Dev) (f : Nat) : Dev :=
  if !d.halted && d.fnState f = 3 && d.permitted f && !old.permitted f then d.wr F.HST_FN_CTL_ENABLE_LATCHED f 1
  else d.fnCheck f

/-- The unserved exception records of a function that enters DRAINING are discarded (R512). -/
def Dev.excDrain (d : Dev) (f : Nat) : Dev := { d with bcp.exc := d.bcp.exc.filter (fun e => e.fn != f) }

/-- An access that waits for page state ends with the cut: a read fails, a write is discarded (R435). -/
def Dev.waitCut (d : Dev) (f id : Nat) (work : Work) : Dev :=
  let d := { d with xlt.waits := Tbl.del id d.xlt.waits }
  match work with
  | .accR o _ _ => d.ownFail o Status.HOST_ERROR
  | .accW o data len ro => match o with
    | .dmaWr _ => d.ownFail o Status.HOST_ERROR
    | .rcq g => (d.rcqPart g { fn := f, addr := 0, len := len, data := data }).mtcWake g
    | .gone => d
    | o => (d.hostWrite f 0 len data ro).ownWrote o
  | .wqFetch q => match (d.queue q).fetch with
    | some th => d.release q th
    | none => d
  | .wqStat q =>
    let x := d.queue q
    let d := d.bumpBy F.HST_PORT_ERR_CUT (f / 256) (x.wb.length + if x.recDue.isSome then 1 else 0)
    (d.updQueue q (fun x => { x with wbWait := false, wb := [], recDue := none })).qEnter q
  | .wqPre _ _ _ => d
  | .ldH _ => d
  | .stH _ _ _ _ _ => d
  | .imem _ _ _ _ => d
  | .imemPre _ _ _ _ => d
  | .table => d

/-- A cut event stops host access at once (R435, R466). -/
def Dev.cut (d : Dev) (f : Nat) : Dev :=
  let d := { d.wr F.HST_FN_CTL_CUT f 1 with host.cutAt := Tbl.put f d.ps d.host.cutAt }
  let d := ((d.defDrain f).chDrain f true).pitCut f
  let d := ((d.reads.filter (fun e => e.2.fn == f)).map Prod.fst).foldl (fun d t => d.abandon t) d
  (d.xlt.waits.filter (fun e => d.asidFn e.2.1.asid == f)).foldl (fun d e => d.waitCut f e.1 e.2.2.1) d

/-- The drain actions of entry to DRAINING (R103, R157, R248, R259, R242, R462, R512, R568). -/
def Dev.drainActs (d : Dev) (f : Nat) : Dev :=
  let d := (d.qFnDisable f).revokeAll f
  let d := ((d.mtcShutdown f).mtcWake f).rdvDrain f
  ((((d.colDrain f).defDrain f).chDrain f false).excDrain f).pmcFnOff f

/-- A disable event of R434. -/
def Dev.fnDisable (d : Dev) (f : Nat) (cut : Bool) (cause : Nat) : Dev :=
  let st := d.fnState f
  if d.halted || st = 0 then d
  else
    let d := d.wr F.HST_FN_CTL_CAUSE f cause
    if st = 3 then (if cut && !d.flag F.HST_FN_CTL_CUT f then d.cut f else d)
    else
      let d := { d with host.shut := Tbl.set false f (decide (st = 1)) d.host.shut }
      let d := (d.wr F.HST_FN_CTL_STATE f 3).wr F.HST_FN_CTL_CUT f 0
      (if cut then d.cut f else d).drainActs f

/-- FN_ENABLE_DONE: host access opens, and a message that became due before it leaves. -/
def Dev.fnEnableDone (d : Dev) (f : Nat) : Dev :=
  if d.halted || d.fnState f != 1 then d else (d.wr F.HST_FN_CTL_STATE f 2).settle f

/-- Every queue, window, context and channel of the function is OFF, FREE or IDLE (R433, R462); a channel that stopped on its
way is reset as a paused one is (DEDUCED, log entry 21). -/
def Dev.fnDrained (d : Dev) (f : Nat) : Bool :=
  (d.listed R.WQ_CTX_CTL).all (fun e => d.qFn e.1 != f || d.qst e.1 == qsOff) &&
  d.win.wins.all (fun e => e.2.state == .free || e.2.owner != f) && !Tbl.has d.win.busy f &&
  d.col.ctxs.all (fun e => d.cFn e.1 != f) &&
  (d.listed R.DMA_CH_CTL).all (fun e => d.chFn e.1 != f || d.chSt e.1 == chIdle || d.chSt e.1 == chStopped)

/-- The function's stopped channels become IDLE. -/
def Dev.resetStopped (d : Dev) (f : Nat) : Dev :=
  (d.listed R.DMA_CH_CTL).foldl (fun d e => if d.chFn e.1 == f && d.chSt e.1 == chStopped then d.chReset e.1 else d) d

/-- FN_DRAIN_DONE (R433, R470, R479). -/
def Dev.fnDrainDone (d : Dev) (f : Nat) : Dev :=
  if d.halted || d.fnState f != 3 || !d.fnDrained f then d
  else ((((d.resetStopped f).wr F.HST_FN_CTL_STATE f 0).pitForce f).freeForced f).fnCheck f

/-- Thread th enters STOPPED with its function's cut (R435, R78, R465). -/
def Dev.forceStop (d : Dev) (th : Nat) : Dev :=
  let t := d.thr th
  let d := d.leaveSlot t.inSlot
  let d := match t.trapped with
    | some (s, _) => d.leaveSlot s
    | none => d
  let d := d.dma.pit.foldl (fun d e => d.setPiton e.1 { d.piton e.1 with
    queue := (d.piton e.1).queue.filter (fun w => !sameHolder w.who (.thread th 0)) }) d
  let d := d.updThr th (fun t => { t with st := .stopped, stall := .none, active := false, inSlot := none, trapped := none })
  if t.cmd && !t.noEntry then d.entryStop t.queue t.seq qeDoubleTrap else d

/-- The activations of function f that keep the time of a cut that the function has left, with that time: the earliest. -/
def Dev.keptCut (d : Dev) (f : Nat) : Option (Nat × List Nat) :=
  let l := (d.liveThreads f).filterMap (fun th => (d.thr th).cutAt.map (fun t => (t, th)))
  match (l.map Prod.fst).min? with
  | none => none
  | some t => some (t, (l.filter (fun e => e.1 == t)).map Prod.snd)

/-- 10 ms after the cut of function f at `t` (R435). -/
def Dev.cutOver (d : Dev) (f t : Nat) : Dev :=
  let d := d.advanceTo (t + msPs 10)
  { d with host.cutAt := Tbl.del f d.host.cutAt }

/-- FN_FORCE_STOP: the activations that outlive the earliest cut of function f whose 10 ms have not passed. -/
def Dev.fnForceStop (d : Dev) (f : Nat) : Dev :=
  if d.halted then d
  else match d.keptCut f, Tbl.find d.host.cutAt f with
  | some (t, l), _ => (l.foldl Dev.forceStop (d.advanceTo (t + msPs 10))).fault 4
  | none, none => d
  | none, some t =>
    if ((d.cutOver f t).liveThreads f).isEmpty then d.cutOver f t
    else (((d.cutOver f t).liveThreads f).foldl Dev.forceStop (d.cutOver f t)).fault 4

/-! ### PCIe's own registers and links (R433, R434, R501, R599) -/

/-- The virtual functions of physical function p. -/
def Dev.vfsOf (d : Dev) (p : Nat) : List Nat := (List.range 256).filterMap (fun k =>
  let f := p / 256 * 256 + k
  if !d.isPf f && d.pfOf f = p then some f else none)

/-- The function, with its virtual functions where it is physical. -/
def Dev.withVfs (d : Dev) (f : Nat) : List Nat := f :: (if d.isPf f then d.vfsOf f else [])

/-- A reset of function f's own configuration registers: what PCIe resets (PRESUMED, log entry 28). -/
def Dev.cfgReset (d : Dev) (f : Nat) : Dev :=
  { d with
    host.bme := Tbl.set false f false d.host.bme
    host.vfe := Tbl.set false f false d.host.vfe
    host.numVfs := Tbl.set 0 f 0 d.host.numVfs
    host.roOff := Tbl.set false f false d.host.roOff
    host.ido := Tbl.set false f false d.host.ido
    host.cto := Tbl.set 0 f 0 d.host.cto
    host.ctoOff := Tbl.set false f false d.host.ctoOff
    host.mps := Tbl.set 0 f 0 d.host.mps
    host.mrrs := Tbl.set 2 f 2 d.host.mrrs
    host.d3 := Tbl.set false f false d.host.d3
    host.msix := Tbl.set {} f {} d.host.msix
    host.fnMask := Tbl.set false f false d.host.fnMask
    host.msixPend := Tbl.set false f false d.host.msixPend }

/-- A disable event for each of `l`. -/
def Dev.disableAll (d : Dev) (l : List Nat) (cause : Nat) : Dev := l.foldl (fun d f => d.fnDisable f true cause) d

/-- FLR. -/
def Dev.flr (d : Dev) (f : Nat) : Dev :=
  let l := d.withVfs f
  (l.foldl Dev.cfgReset d).disableAll l dcFlr

/-- BUS_MASTER_CLEAR. -/
def Dev.masterClear (d : Dev) (f : Nat) : Dev :=
  if !Tbl.get d.host.bme false f then d
  else { d with host.bme := Tbl.set false f false d.host.bme }.disableAll (d.withVfs f) dcMaster

/-- BUS_MASTER_ENABLE_SET. -/
def Dev.masterSet (d : Dev) (f : Nat) : Dev :=
  (d.withVfs f).foldl (Dev.fnAgain d) { d with host.bme := Tbl.set false f true d.host.bme }

/-- VF_ENABLE_CLEAR: VF Enable and NumVFs take lower values. -/
def Dev.vfClear (d : Dev) (f : Nat) (on : Bool) (n : Nat) : Dev :=
  if !d.isPf f || (on && (!Tbl.get d.host.vfe false f || Tbl.get d.host.numVfs 0 f < n)) then d
  else
    let was := (d.vfsOf f).filter d.vfPresent
    let d := { d with host.vfe := Tbl.set false f on d.host.vfe, host.numVfs := Tbl.set 0 f n d.host.numVfs }
    d.disableAll (was.filter (fun v => !d.vfPresent v)) dcVf

/-- TotalVFs of physical function f (R432). -/
def Dev.totalVfs (d : Dev) (f : Nat) : Nat :=
  min (d.rdF F.HST_PORT_CFG_TOTAL_VFS (f / 256)) (if d.bifurcated (f / 256) then 127 else 255)

/-- VF_ENABLE_SET. -/
def Dev.vfSet (d : Dev) (f n : Nat) : Dev :=
  if !d.isPf f || (Tbl.get d.host.vfe false f && n < Tbl.get d.host.numVfs 0 f) then d
  else
    (d.vfsOf f).foldl (Dev.fnAgain d)
      { d with host.vfe := Tbl.set false f true d.host.vfe, host.numVfs := Tbl.set 0 f (min n (d.totalVfs f)) d.host.numVfs }

/-- The functions of a link. -/
def Dev.fnsOfLink (d : Dev) (p link : Nat) : List Nat := (List.range 256).filterMap (fun k =>
  if d.linkOf (p * 256 + k) = p * 2 + link then some (p * 256 + k) else none)

/-- HST_PORT_STAT tells of a link: the links that are UP, and this one's rate, width and mode. -/
def Dev.linkStat (d : Dev) (p link up rate width flit : Nat) : Dev :=
  let d := d.wr F.HST_PORT_STAT_UP p up
  if link = 0 then ((d.wr F.HST_PORT_STAT_RATE0 p rate).wr F.HST_PORT_STAT_WIDTH0 p width).wr F.HST_PORT_STAT_FLIT0 p flit
  else ((d.wr F.HST_PORT_STAT_RATE1 p rate).wr F.HST_PORT_STAT_WIDTH1 p width).wr F.HST_PORT_STAT_FLIT1 p flit

/-- A link is down: its functions are cut, and PCIe resets their configuration. -/
def Dev.hostDown (d : Dev) (p link : Nat) : Dev :=
  let fs := d.fnsOfLink p link
  let up := d.rd F.HST_PORT_STAT_UP p
  let d := d.linkStat p link (up - if up / 2 ^ link % 2 = 1 then 2 ^ link else 0) 0 0 0
  (fs.foldl Dev.cfgReset d).disableAll fs dcLink

/-- HOST_LINK_UP: the rate, width and mode that training gives are the link's (log entry 1), within R426: at most 16 lanes, 8
of a bifurcated port, and Flit mode at 64.0 and 128.0 GT/s. -/
def Dev.hostUp (d : Dev) (p link : Nat) : Dev :=
  let up := d.rd F.HST_PORT_STAT_UP p
  if d.dark || !Tbl.get d.host.perstHigh false p || up / 2 ^ link % 2 = 1 || (link = 1 && !d.bifurcated p) then d
  else
    let (w, d) := d.freeWord
    let rate := min (getBits w 0 3) (min 6 (d.rdF F.HST_PORT_CFG_MAX_RATE p))
    let d := d.linkStat p link (up + 2 ^ link) rate (2 ^ (getBits w 3 5 % if d.bifurcated p then 4 else 5))
      (if 5 ≤ rate then 1 else getBits w 8 1)
    { d with host.posted := d.host.posted.filter (fun e => e.1 / 1024 != p * 2 + link) }

/-- HOST_PERST_ASSERT. -/
def Dev.perstAssert (d : Dev) (p : Nat) : Dev :=
  let d := { d with host.perstHigh := Tbl.set false p false d.host.perstHigh }
  (d.hostDown p 0).hostDown p 1

/-- HOST_PERST_DEASSERT: the Boundary fields of HST_PORT_CFG are taken. -/
def Dev.perstDeassert (d : Dev) (p : Nat) : Dev :=
  if Tbl.get d.host.perstHigh false p then d
  else { d.latch R.HST_PORT_CFG p with host.perstHigh := Tbl.set false p true d.host.perstHigh }

/-- An open transaction ends with its held values discarded (R519). -/
def Txn.over (x : Txn) (st : Nat) : Txn :=
  { x with phase := .none, conflict := false, full := false, status := st, begun := 0, held := [] }

/-- Open transactions of physical functions that have entered DRAINING end (R519). -/
def dropDrained (old new : Dev) (t : Tbl Txn) : Tbl Txn :=
  t.map (fun (e : Nat × Txn) =>
    if e.1 < 8 && e.2.phase == .opened && old.fnState (pfOfMbx e.1) != 3 && new.fnState (pfOfMbx e.1) == 3
    then (e.1, e.2.over Status.TXN_NONE) else e)

/-- A command that may disable functions. -/
def onDrain (s : State) (f : Dev → Dev) : Host.Outcome State Fault Refusal :=
  let d := f s.dev
  let d := if d.halted then d else d.rmaGo
  .next { s with dev := d, txns := dropDrained s.dev d s.txns }

def execHostPerstAssert (p : Hid) (s : State) : Host.Outcome State Fault Refusal := onDrain s (fun d => d.perstAssert p)
def execHostPerstDeassert (p : Hid) (s : State) : Host.Outcome State Fault Refusal := onDev s (fun d => d.perstDeassert p)
def execHostLinkDown (p : Hid) (link : Fin 2) (s : State) : Host.Outcome State Fault Refusal :=
  onDrain s (fun d => d.hostDown p link)
def execHostLinkUp (p : Hid) (link : Fin 2) (s : State) : Host.Outcome State Fault Refusal := onDev s (fun d => d.hostUp p link)
/-- A configuration request of function f: until BCP_FW_STAT.READY is 1 it is answered with Retry Status (R501). -/
def Dev.cfgRequest (d : Dev) (f : Nat) (g : Dev → Dev) : Dev :=
  if d.dark then d else if d.flag F.BCP_FW_STAT_READY then g d else d.emit (.configRetry f)

def execFlr (fn : Fid) (s : State) : Host.Outcome State Fault Refusal :=
  onDrain s (fun d => d.cfgRequest fn (fun d => d.flr fn))
def execBusMasterClear (fn : Fid) (s : State) : Host.Outcome State Fault Refusal :=
  onDrain s (fun d => d.cfgRequest fn (fun d => d.masterClear fn))
def execBusMasterEnableSet (fn : Fid) (s : State) : Host.Outcome State Fault Refusal :=
  onDev s (fun d => d.cfgRequest fn (fun d => d.masterSet fn))
def execVfEnableClear (fn : Fid) (vfEnable : Bool) (numVfs : Fin 256) (s : State) : Host.Outcome State Fault Refusal :=
  onDrain s (fun d => d.cfgRequest fn (fun d => d.vfClear fn vfEnable numVfs))
def execVfEnableSet (fn : Fid) (numVfs : Fin 256) (s : State) : Host.Outcome State Fault Refusal :=
  onDev s (fun d => d.cfgRequest fn (fun d => d.vfSet fn numVfs))

/-- FN_EN_SET: the write of EN = 1. -/
def Dev.fnEnSet (d : Dev) (f : Nat) : Dev :=
  let d := d.wr F.HST_FN_CTL_EN f 1
  if !d.halted && d.fnState f = 3 then d.wr F.HST_FN_CTL_ENABLE_LATCHED f 1 else d.fnCheck f

/-- FN_EN_CLEAR: the write of EN = 0. -/
def Dev.fnEnClear (d : Dev) (f : Nat) : Dev :=
  if !d.flag F.HST_FN_CTL_EN f then d else (d.wr F.HST_FN_CTL_EN f 0).fnDisable f false dcEn

def execFnEnSet (fn : Fid) (s : State) : Host.Outcome State Fault Refusal := onDev s (fun d => d.fnEnSet fn)
def execFnEnClear (fn : Fid) (s : State) : Host.Outcome State Fault Refusal := onDrain s (fun d => d.fnEnClear fn)
def execFnEnableDone (fn : Fid) (s : State) : Host.Outcome State Fault Refusal := onDev s (fun d => d.fnEnableDone fn)
def execFnDrainDone (fn : Fid) (s : State) : Host.Outcome State Fault Refusal := onDev s (fun d => d.fnDrainDone fn)
def execFnForceStop (fn : Fid) (s : State) : Host.Outcome State Fault Refusal := onRead s (fun d => d.fnForceStop fn)

/-! ### The interrupt controller (R440, R441) -/

/-- A read of INT_TGT_CLAIM: the value it returns. -/
def Dev.claim (d : Dev) (t : Nat) : Dev × Nat :=
  let (d, v) := match d.highest t with
    | some n => ((d.setPend t ((d.pendOf t).erase n)).setAct t (insertAsc n (d.actOf t)), n + 4096)
    | none => (d, 0)
  ((d.wr F.INT_TGT_STAT_ARMED t 1).settle t, v)

/-- A write of INT_TGT_COMPLETE. -/
def Dev.intComplete (d : Dev) (t n : Nat) : Dev :=
  if (d.actOf t).contains n then (d.setAct t ((d.actOf t).erase n)).settle t else d.bump F.INT_TGT_STAT_BAD_COMPLETE t

/-- A message held in function f's Pending Bit is sent once neither the vector nor the function is masked (R441). -/
def Dev.msixRelease (d : Dev) (f : Nat) : Dev :=
  if Tbl.get d.host.msixPend false f && d.vecOpen f && d.msixMay f then d.msixSend f else d

/-- MSIX_UNMASK: the vector's mask bit is cleared. -/
def Dev.msixUnmask (d : Dev) (f : Nat) : Dev :=
  let e := Tbl.get d.host.msix {} f
  { d with host.msix := Tbl.set {} f { e with masked := false } d.host.msix }.msixRelease f

def execIntClaim (t : Tgt) (s : State) : Host.Outcome State Fault Refusal :=
  onDev s (fun d => let (d, v) := d.claim t; d.emit (.readValue v))
def execIntComplete (t : Tgt) (n : BitVec 12) (s : State) : Host.Outcome State Fault Refusal :=
  onDev s (fun d => d.intComplete t n.toNat)
def execIntSetpend (t : Tgt) (n : BitVec 12) (s : State) : Host.Outcome State Fault Refusal :=
  onDev s (fun d => d.raise t n.toNat)
def execIntClrpend (t : Tgt) (n : BitVec 12) (s : State) : Host.Outcome State Fault Refusal :=
  onDev s (fun d => d.setPend t ((d.pendOf t).erase n.toNat))
def execMsixUnmask (fn : Fid) (s : State) : Host.Outcome State Fault Refusal := onDev s (fun d => d.msixUnmask fn)

end Sys2Proof.Machine
end

