-- ==== Sys2Proof/Machine/Queues.lean ====
section
/-! DEFINITION. The commands of queues (chapter 03), translation and windows (chapter 04), and host accesses to Pitons
(chapter 13). -/

namespace Sys2Proof.Machine

/-! ### Queues -/

/-- What offset `off` of function f's BAR2 reaches: a queue, and an offset in its 256 bytes (R94, R100, R436). -/
def Dev.bar2 (d : Dev) (f off : Nat) : Option (Nat × Nat) :=
  if !Tbl.get d.host.d3 false f && (d.isPf f || (d.vfPresent f && decide (off < 0x10000))) then
    (d.groupsOf f)[off / 4096]?.map (fun g => (16 * g + off % 4096 / 256, off % 256))
  else none

/-- A write of `size` bytes at offset o of queue q's 256 bytes: the doorbell, the push area, or reserved bytes, which discard it
(R94). The upper half of a doorbell alone is one of another size (R95). -/
def Dev.areaWrite (d : Dev) (q o size : Nat) (v : Word) : Dev :=
  if o < 8 then d.doorbell q (if o = 0 then size else 0) v
  else if 0x80 ≤ o && o < 0xC0 then
    d.pushWrite q (BitVec.ofNat 64 ((2 ^ size - 1) * 2 ^ (o - 0x80))) (BitVec.ofNat 512 (v.toNat * 2 ^ (8 * (o - 0x80))))
  else d

/-- The value that a read of BAR2 returns: PROD for 4 or 8 bytes of a doorbell, else 0 (R94, R436, R439). -/
def Dev.bar2Value (d : Dev) (f off size : Nat) : Nat :=
  match d.bar2 f off with
  | some (q, o) => if o = 0 && (size == 4 || size == 8) then d.qProd q else 0
  | none => 0

/-- A host's access of BAR2; one past the function's groups writes nothing and reads 0 (R436). -/
def Dev.bar2Access (d : Dev) (f off size : Nat) (value : Option Word) : Dev :=
  match value with
  | none => if d.dark then d else d.emit (.readValue (d.bar2Value f off size))
  | some v =>
    if d.halted then d
    else (match d.bar2 f off with
      | some (q, o) => d.areaWrite q o size v
      | none => d).rmaGo

def Dev.bar2Push (d : Dev) (f off : Nat) (mask : BitVec 64) (data : BitVec 512) : Dev :=
  match d.bar2 f off with
  | some (q, o) => if o = 0x80 then d.pushWrite q mask data else d
  | none => d

def execDoorbell (a : Bar2) (size : Nat) (value : Option Word) (s : State) : Host.Outcome State Fault Refusal :=
  onDev s (fun d => d.bar2Access a.fn a.off.toNat size value)
def execPushWrite (a : Bar2) (mask : BitVec 64) (data : BitVec 512) (s : State) :
    Host.Outcome State Fault Refusal :=
  onRma s (fun d => d.bar2Push a.fn a.off.toNat mask data)
def execPushTimeout (q : Qid) (s : State) : Host.Outcome State Fault Refusal := onRma s (fun d => d.pushTimeout q)
def execWqEnable (q : Qid) (s : State) : Host.Outcome State Fault Refusal := onDev s (fun d => d.qEnable q)
def execWqDisable (q : Qid) (s : State) : Host.Outcome State Fault Refusal := onDev s (fun d => d.qDisable q)
def execWqResume (q : Qid) (s : State) : Host.Outcome State Fault Refusal := onDev s (fun d => d.qResume q)
def execWqSkip (q : Qid) (s : State) : Host.Outcome State Fault Refusal := onDev s (fun d => d.qSkip q)
def execWqInval (q : Qid) (s : State) : Host.Outcome State Fault Refusal := onDev s (fun d => d.qInval q)
def execWqHold (q : Qid) (v : Bool) (s : State) : Host.Outcome State Fault Refusal := onDev s (fun d => d.qHold q v)
def execWqProdWrite (q : Qid) (v : BitVec 32) (s : State) : Host.Outcome State Fault Refusal :=
  onDev s (fun d => d.qProdWrite q v.toNat)
def execWqEnableDone (q : Qid) (s : State) : Host.Outcome State Fault Refusal := onDev s (fun d => d.qEnableDone q)
def execWqDrainDone (q : Qid) (s : State) : Host.Outcome State Fault Refusal := onDev s (fun d => d.qDrainDone q)
def execWqDispatch (fn : Fid) (th : Eid) (s : State) : Host.Outcome State Fault Refusal := onRma s (fun d => d.dispatch fn th)
def execWqFetchDone (q : Qid) (cpl : Cpl) (s : State) : Host.Outcome State Fault Refusal := onRead s (fun d => d.fetchDone q cpl)
def execWqPrefetch (q : Qid) (seq : BitVec 32) (n : Nat) (s : State) : Host.Outcome State Fault Refusal :=
  onDev s (fun d => d.prefetch q seq.toNat n)
def execWqPrefetchDone (q : Qid) (seq : BitVec 32) (cpl : Cpl) (s : State) : Host.Outcome State Fault Refusal :=
  onRead s (fun d => d.prefetchDone q seq.toNat cpl)
def execStatusRecordWrite (q : Qid) (s : State) : Host.Outcome State Fault Refusal := onDev s (fun d => d.recordWrite q)

/-! ### Translation -/

def execTlbAgeRelease (asid : BitVec 16) (va : BitVec 57) (walkCache : Bool) (s : State) : Host.Outcome State Fault Refusal :=
  onDev s (fun d => if d.halted then d else d.ageRelease asid.toNat va.toNat walkCache)
def execXltInvVa (p : Hid) (asid : BitVec 16) (size : BitVec 6) (walk : Bool) (s : State) : Host.Outcome State Fault Refusal :=
  onDev s (fun d => if d.halted then d else d.invAccept p 0 asid.toNat size.toNat walk)
def execXltInvAsid (p : Hid) (asid : BitVec 16) (s : State) : Host.Outcome State Fault Refusal :=
  onDev s (fun d => if d.halted then d else d.invAccept p 1 asid.toNat 12 true)
def execXltInvAll (p : Hid) (s : State) : Host.Outcome State Fault Refusal :=
  onDev s (fun d => if d.halted then d else d.invAccept p 2 0 12 true)
/-- A command of KIND 3 is discarded and takes no ticket (R141). R561 lists no event that counts it (log entry 29). -/
def Dev.invDiscard (d : Dev) (_p : Nat) : Dev := d


def execXltInvKindDiscard (p : Hid) (s : State) : Host.Outcome State Fault Refusal :=
  onDev s (fun d => d.invDiscard p)
def execXltInvFlushIssue (p : Hid) (s : State) : Host.Outcome State Fault Refusal :=
  onDev s (fun d => if d.halted then d else d.invFlush p)
def execXltInvDone (p : Hid) (link : Fin 2) (cpl : Cpl) (s : State) : Host.Outcome State Fault Refusal :=
  onDev s (fun d => d.invDone p link cpl)

/-! ### Windows -/

def execWinOpen (fn : Fid) (s : State) : Host.Outcome State Fault Refusal := onDev s (fun d => d.winOpen fn)
def execWinRevoke (fn : Fid) (handle : BitVec 32) (s : State) : Host.Outcome State Fault Refusal :=
  onDev s (fun d => d.winRevoke fn handle.toNat)
def execWinOpenDone (fn : Fid) (s : State) : Host.Outcome State Fault Refusal :=
  onDev s (fun d => if d.halted then d else d.winOpenDone fn)
def execWinRevokeFree (fn : Fid) (ticket : BitVec 32) (cpl : Cpl) (s : State) : Host.Outcome State Fault Refusal :=
  onDev s (fun d => if d.halted then d else d.revokeFree fn ticket.toNat cpl)

/-! ### Pitons through BAR0 of a physical function (R464, R466) -/

/-- An access of physical function f at register offset `a`, which target gate 1 checks (R485, R489): a read denied is
answered Unsupported Request, a write denied is discarded. `need` is 1 to read, 2 to write. -/
def Dev.hostGate (d : Dev) (f a n need : Nat) (k : Dev → Dev) : Dev :=
  match d.gateFail 1 2 (some f) a n need with
  | some b =>
    let d := d.deny 1 2 (some f) b
    if need = 1 then (d.bump F.HST_PORT_ERR_UR (f / 256)).emit .unsupported else d
  | none => k d

/-- Offset of PIT_LOCK n. -/
def pitLock (n : Nat) : Nat := 0x30000 + 8 * n

def execPitLockRead (fn : Fid) (n : BitVec 12) (s : State) : Host.Outcome State Fault Refusal :=
  onDev s (fun d =>
    if d.dark || !d.isPf fn || !d.flag F.BCP_FW_STAT_READY then d
    else d.hostGate fn (pitLock n.toNat) 8 1 (fun d => d.pitRead fn n.toNat))
def execPitLockWrite (fn : Fid) (n : BitVec 12) (s : State) : Host.Outcome State Fault Refusal :=
  onDev s (fun d =>
    if d.dark || !d.isPf fn || !d.flag F.BCP_FW_STAT_READY then d
    else d.hostGate fn (pitLock n.toNat) 8 2 (fun d => (d.pitRelease (.host fn) n.toNat).1))

end Sys2Proof.Machine
end

