-- ==== Sys2Proof/Machine/Depot.lean ====
section
/-! DEFINITION. Commands of chapter 14 (software's buffers, the access window, audits, scrubbing, arbiters) and the gating of
clusters and of the Depot (R19 to R22, R524, R526, R527). -/

namespace Sys2Proof.Machine

/-! ### Requesters of the register space (R485, R486, R595) -/

/-- Its class at a gate. -/
def reqCls : Req → Nat
  | .pf _ => 2
  | .vf _ => 2
  | .bcp => 4
  | .dbg => 5

/-- The OBJECT of its SW buffers (R479): the debug port acts as Basecamp does (PRESUMED, log entry 30). -/
def reqObj : Req → Nat
  | .pf m => pfOfMbx m
  | .vf fn => fn
  | .bcp => 1024
  | .dbg => 1024

/-- The requester reaches the register space: a physical function that exists, once the space is open (R506); Basecamp
while it has power; the debug port. -/
def Dev.reaches (d : Dev) : Req → Bool
  | .pf m => d.isPf (pfOfMbx m) && d.flag F.BCP_FW_STAT_READY && !d.dark
  | .vf fn => !d.isPf fn && d.vfPresent fn && d.flag F.BCP_FW_STAT_READY && !d.dark
  | .bcp => !d.dark
  | .dbg => !d.dark

/-- A Basecamp core's access is denied at byte b: BUS_ERROR on that core, core 0 where the command names none (R489; log entry
36). -/
def Dev.coreBus (d : Dev) (b : Nat) : Dev :=
  if (d.thr 1024).st == .ready && (d.thr 1024).active then d.trapHere 1024 tcBus (BitVec.ofNat 64 b) else d

/-- Target gate 1 before an access of `n` bytes at register offset `a` (R489); VF views are not gated. Answers whether the
access goes on. -/
def Dev.reqGate (d : Dev) (r : Req) (a n need : Nat) : Dev × Bool :=
  match r with
  | .vf _ => (d, true)
  | _ => match d.gateFail 1 (reqCls r) (reqFn r) a n need with
    | none => (d, true)
    | some b =>
      let d := d.deny 1 (reqCls r) (reqFn r) b
      match r with
      | .pf m => (if need = 1 then (d.bump F.HST_PORT_ERR_UR (m / 2)).emit .unsupported else d, false)
      | .vf _ => (d, false)
      | .bcp => (d.coreBus b, false)
      | .dbg => (d.emit .unsupported, false)

/-- A register of its own at offset `a`, read or written by requester r. -/
def Dev.regAct (d : Dev) (r : Req) (a need : Nat) (k : Dev → Dev) : Dev :=
  match r with
  | .vf _ => d
  | _ =>
    if !d.reaches r then d
    else match d.reqGate r a 8 need with
      | (d, true) => k d
      | (d, false) => d

/-! ### Software's buffers and the access window (R477, R479, R489) -/

/-- A read of DEP_BUF_ALLOC: the value returned. -/
def Dev.swAlloc (d : Dev) (r : Req) : Dev × Nat :=
  match d.alloc 4 (reqObj r) 1 with
  | (d, some (k :: _)) => (d, d.bufAddr k + 2 ^ 63)
  | (d, _) => (d, 0)

def execDepBufAlloc (r : Req) (s : State) : Host.Outcome State Fault Refusal :=
  onDev s (fun d => d.regAct r 0x1600020 1 (fun d => let (d, v) := d.swAlloc r; d.emit (.readValue v)))

def execDepBufFree (r : Req) (addr : BitVec 36) (s : State) : Host.Outcome State Fault Refusal :=
  onDev s (fun d => d.regAct r 0x1600028 2 (fun d => d.free addr.toNat 4 (reqObj r)))

/-- Gate 0 before an access through DEP_ACC_DATA (R486, R489). -/
def Dev.accGate (d : Dev) (r : Req) (need : Nat) : Dev × Bool :=
  let a := d.rd F.DEP_ACC_ADDR_ADDR * 8
  match d.gateFail 0 (reqCls r) (reqFn r) a 8 need with
  | some b => ((d.deny 0 (reqCls r) (reqFn r) b).wr F.DEP_ACC_ADDR_DENIED 0 1, false)
  | none => (d, true)

/-- A read of DEP_ACC_DATA: the value returned. -/
def Dev.accRead (d : Dev) (r : Req) (ecc : Ecc) : Dev × Nat :=
  match d.accGate r 1 with
  | (d, false) => (d, 0)
  | (d, true) =>
    let (d, w) := d.depWake.depRead (d.rd F.DEP_ACC_ADDR_ADDR * 8) ecc
    (d.wr F.DEP_ACC_ADDR_POISON 0 (if isPoison w then 1 else 0), (TWord.val w).toNat)

/-- A write of DEP_ACC_DATA: a whole word with tag 0. -/
def Dev.accWrite (d : Dev) (r : Req) (v : Word) : Dev :=
  match d.accGate r 2 with
  | (d, false) => d
  | (d, true) => (d.depWake.ev 11 1).setDepWord (d.rd F.DEP_ACC_ADDR_ADDR * 8) (mkWord v 0)

/-- A write of 4 bytes of DEP_ACC_DATA, at byte `o` of the word: a read-modify-write (R483). -/
def Dev.accPart (d : Dev) (r : Req) (o : Nat) (v : Word) : Dev :=
  match d.accGate r 2 with
  | (d, false) => d
  | (d, true) =>
    let a := d.rd F.DEP_ACC_ADDR_ADDR * 8
    let d := (d.depWake.ev 11 1).depMeet a 8
    d.setDepWord a (mergeWord (d.depWord a) (mkWord v 0) (a + o) 4)

def execDepAccRead (r : Req) (ecc : Ecc) (s : State) : Host.Outcome State Fault Refusal :=
  onDev s (fun d => d.regAct r 0x1600038 1 (fun d => let (d, v) := d.accRead r ecc; d.emit (.readValue v)))
def execDepAccWrite (r : Req) (v : Word) (s : State) : Host.Outcome State Fault Refusal :=
  onDev s (fun d => d.regAct r 0x1600038 2 (fun d => d.accWrite r v))

/-! ### The pool's audit (R478) -/

/-- Buffers ALLOC under class k, as their states say. -/
def Dev.allocOf (d : Dev) (k : Nat) : Nat := (d.dep.bufs.filter (fun e => (e.2 - 1) % 16 == k)).length
/-- FREE buffers. -/
def Dev.poolFree (d : Dev) : Nat := d.poolBufs - d.dep.bufs.length

/-- POOL_AUDIT: FREE and the classes' INUSE add up to POOL_BUFS. -/
def Dev.poolAudit (d : Dev) : Dev :=
  let d := d.advanceTo ((d.ps / usPs 1 + 1) * usPs 1)
  let inuse := (List.range 5).foldl (fun n k => n + d.rd F.DEP_POOL_CLASS_INUSE k) 0
  if d.poolFree + inuse = d.poolBufs then d else d.fault 8

/-- POOL_WALK: the counts match the states stored. -/
def Dev.poolWalk (d : Dev) : Dev :=
  if (List.range 5).all (fun k => d.rd F.DEP_POOL_CLASS_INUSE k == d.allocOf k) then d else d.fault 8

def execPoolAudit (s : State) : Host.Outcome State Fault Refusal := onDev s (fun d => if d.dark then d else d.poolAudit)
def execPoolWalk (s : State) : Host.Outcome State Fault Refusal := onDev s (fun d => if d.dark then d else d.poolWalk)

/-! ### Scrubbing (R484) -/

/-- Buffer k holds staged or unexpected data, or a collective's staging, and a word of it, `at_` bytes into the buffer, is
poisoned (R482): the staged cell there is discarded, what leaves of unexpected data is marked, the context fails. Which cell
lies where in a staging buffer is the model's order (log entry 36). -/
def Dev.bufPoison (d : Dev) (k at_ : Nat) : Dev :=
  match d.rma.rx.find? (fun e => e.2.bufs.contains k) with
  | some (key, x) => match x.staged[x.bufs.idxOf k * 32 + at_ / 64]? with
    | some (i, _) => (d.ev 4 8 none (some x.fn)).updRx key (fun x =>
        { x with staged := Tbl.del i x.staged, bitmap := x.bitmap - 2 ^ i, got := x.got - 1 })
    | none => d
  | none => match d.col.ctxs.find? (fun e => e.2.bufs.contains k) with
    | some (n, _) => if d.halted then d else d.colFail n Status.HOST_ERROR
    | none =>
      { d with mtc.doms := d.mtc.doms.map (fun (e : Nat × Dom) =>
          (e.1, { e.2 with ux := e.2.ux.map (fun u => if u.bufs.contains k then { u with bad := true } else u) })) }

/-- The scrubber moves to the next word; a pass ends after the last. -/
def Dev.scrubNext (d : Dev) : Dev :=
  let next := (d.dep.scrubAt * 8 + 8) % max 8 d.depSize
  let d := { d with dep.scrubAt := next / 8 }
  if next = 0 then (d.wr F.DEP_SCRUB_CFG_PASSES 0 (d.rd F.DEP_SCRUB_CFG_PASSES + 1)).latchField F.DEP_SCRUB_CFG_DEPOT_H else d

/-- A scrub step in the Depot (R484). -/
def Dev.scrubDepot (d : Dev) (found : Ecc) : Dev :=
  let a := d.dep.scrubAt * 8
  let d := (d.depWake.depRead a found).1
  match found with
  | .ue =>
    let d := d.wr F.DEP_ECC_ADDR_SCRUB 0 1
    (if a < d.poolBase then d else d.bufPoison ((a - d.poolBase) / 2048) ((a - d.poolBase) % 2048)).scrubNext
  | .none => d.scrubNext
  | .ce => d.scrubNext

/-- Entry k of a list that caches a copy is discarded; it is fetched again when it is next wanted (R481). -/
def dropNth {α : Type} (t : Tbl (List α)) (c k : Nat) : Tbl (List α) :=
  (t.map (fun (e : Nat × List α) => if e.1 = c then (e.1, e.2.eraseIdx k) else e)).filter (fun e => !e.2.isEmpty)

/-- Entry k of a caching memory is discarded. -/
def Dev.cacheDrop (d : Dev) (m : CacheMem) (k : Nat) : Dev :=
  match m with
  | .imem c => { d with eng.imem := dropNth d.eng.imem c k }
  | .l1i c => { d with xlt.l1i := dropNth d.xlt.l1i c k }
  | .l1d c => { d with xlt.l1d := dropNth d.xlt.l1d c k }
  | .part c => { d with xlt.part := dropNth d.xlt.part c k }
  | .l2 => { d with xlt.l2 := d.xlt.l2.eraseIdx k }
  | .walk => { d with xlt.wc := d.xlt.wc.eraseIdx k }
  | .window => { d with win.cache := d.win.cache.eraseIdx k }
  | .descriptor => { d with wq.cache := d.wq.cache.eraseIdx k }

/-- An error in an on-die memory, which has no address to latch (R481). -/
def Dev.sramEcc (d : Dev) (found : Ecc) : Dev :=
  match found with
  | .none => d
  | .ce => (d.bump F.DEP_ECC_STAT_SRAM_CE).fault 10
  | .ue => (d.bump F.DEP_ECC_STAT_SRAM_UE).fault 11

/-- A scrub step in on-die memory. -/
def Dev.scrubSram (d : Dev) (found : Ecc) (at_ : ScrubAt) : Dev :=
  match at_ with
  | .depot => d
  | .scratch c w => if c.val < 16 && 131072 ≤ w.toNat then d else (d.scrRead c (w.toNat * 8) found).1
  | .cache m k => match found with
    | .none => d
    | .ce => d.sramEcc .ce
    | .ue => (d.cacheDrop m k).sramEcc .ce
  | .other => d.sramEcc found
  | .passEnd => (d.sramEcc found).latchField F.DEP_SCRUB_CFG_SRAM_MIN

def execScrubStep (found : Ecc) (at_ : ScrubAt) (s : State) : Host.Outcome State Fault Refusal :=
  onDev s (fun d =>
    if d.dark || !d.flag F.DEP_SCRUB_CFG_EN then d
    else if at_ = .depot then d.scrubDepot found else d.scrubSram found at_)

/-! ### Arbiters (R493 to R496) -/

def arbKey (a inst : Nat) : Nat := a * 64 + inst
/-- Requesters of arbiter a, and its instances. -/
def arbReqs (a : Nat) : Nat := if a = 0 then 42 else if a = 5 then 6 else 39
def arbInsts (a : Nat) : Nat := if a = 0 then 64 else 1

def Dev.arb (d : Dev) (k : Nat) : Arb := Tbl.get d.dep.arbs {} k
def Dev.setArb (d : Dev) (k : Nat) (x : Arb) : Dev := { d with dep.arbs := Tbl.set {} k x d.dep.arbs }

/-- Requesters `l` begin to wait at time `t`, those that wait already apart. Refresh and the debug port preempt at the Depot
and do not wait (R496). -/
def Arb.arrive (x : Arb) (a t : Nat) (l : List Nat) : Arb :=
  { x with waiting := l.foldl (fun w n =>
      if w.any (fun e => e.1 == n) || arbReqs a ≤ n || (a == 0 && n < 2) then w else w ++ [(n, t)]) x.waiting }

/-- The longest waiter; ties go to the lowest number. -/
def Arb.longest (x : Arb) : Option (Nat × Nat) :=
  x.waiting.foldl (fun (b : Option (Nat × Nat)) e => match b with
    | none => some e
    | some y => if e.2 < y.2 || (e.2 == y.2 && e.1 < y.1) then some e else b) none

/-- The next waiter in ascending number after the last granted, with wrap-around. -/
def Arb.robin (x : Arb) : Option (Nat × Nat) :=
  let least := fun (l : List (Nat × Nat)) => l.foldl (fun (b : Option (Nat × Nat)) e => match b with
    | none => some e
    | some y => if e.1 < y.1 then some e else b) none
  match least (x.waiting.filter (fun e => x.last < e.1)) with
  | some e => some e
  | none => least x.waiting

/-- AGE_N, held within its bounds. -/
def Dev.ageN (d : Dev) (a : Nat) : Nat := clampTo 4 256 (d.rd F.ARB_CFG_AGE_N a)

/-- A grant (R494): a preempted grant resumes first (R496). -/
def Arb.grantNext (x : Arb) (ageN now : Nat) : Arb :=
  match x.preempted with
  | some (n, held) => { x with grant := some (n, now - held), preempted := none }
  | none =>
    let age := ageN ≤ x.count + 1
    match if age then x.longest else x.robin with
    | none => { x with grant := none }
    | some (n, t) => { x with waiting := x.waiting.erase (n, t), grant := some (n, now), last := n,
                              count := if age then 0 else x.count + 1 }

def execArbGrant (a : Fin 6) (inst : Fin 64) (arrivals : List (Fin 64)) (s : State) : Host.Outcome State Fault Refusal :=
  onDev s (fun d =>
    if d.dark || arbInsts a ≤ inst.val then d
    else
      let k := arbKey a inst
      d.setArb k (((d.arb k).arrive a d.ps (arrivals.map Fin.val)).grantNext (d.ageN a) d.ps))

/-- ARB_HOLD_CUT: the grant in progress has lasted HOLD_LIMIT. -/
def Dev.holdCut (d : Dev) (a inst : Nat) : Dev :=
  let k := arbKey a inst
  let x := d.arb k
  match x.grant with
  | none => d
  | some (n, _) =>
    if a = 0 && n < 2 then d
    else
      let d := d.setArb k { x with grant := none, waiting := x.waiting ++ [(n, d.ps)] }
      let d := d.setReg R.ARB_FLAGS a (setBits (d.reg R.ARB_FLAGS a) n 1 1)
      (d.bump F.ARB_CNT_CUTS a).fault 13

def execArbHoldCut (a : Fin 6) (inst : Fin 64) (s : State) : Host.Outcome State Fault Refusal :=
  onDev s (fun d => if d.dark then d else d.holdCut a inst)

/-- DEPOT_PREEMPT: refresh (0) or the debug port (1) takes the channel at once. -/
def Dev.preempt (d : Dev) (inst n : Nat) : Dev :=
  let x := d.arb inst
  match x.grant with
  | none => d.setArb inst { x with grant := some (n, d.ps) }
  | some (m, t) =>
    if m < 2 then d
    else (d.setArb inst { x with grant := some (n, d.ps), preempted := some (m, d.ps - t) }).bump F.ARB_CNT_PREEMPT 0

def execDepotPreempt (inst : Fin 64) (by_ : Fin 2) (s : State) : Host.Outcome State Fault Refusal :=
  onDev s (fun d => if d.dark || d.dep.selfRefresh then d else d.preempt inst by_)

/-! ### Gating (R22, R524, R526, R527) -/

/-- DEPOT_SELF_REFRESH: no request for SR_IDLE_US. -/
def Dev.depSleep (d : Dev) : Dev :=
  if d.dark || !d.flag F.PWR_POLICY_DEPOT_SR_EN || d.dep.selfRefresh || d.dep.arbs.any (fun e => e.1 < 64 && !e.2.waiting.isEmpty)
  then d
  else { (d.advance (usPs (max 10 (d.rd F.PWR_GATE_CFG_SR_IDLE_US)))).ev 11 3 with dep.selfRefresh := true }

def execDepotSelfRefresh (s : State) : Host.Outcome State Fault Refusal := onDev s Dev.depSleep

/-- A thread counts as waiting for R22: in WAIT, or stalled in ctr.wait, col.wait or pit.acq (R29). -/
def Thread.idles (t : Thread) : Bool :=
  (t.st == .wait && !t.active) || (t.st == .stall && (match t.stall with
    | .ctr _ _ => true
    | .col _ _ _ => true
    | .piton _ _ _ => true
    | _ => false))

/-- The message reader of DMA cluster c has a read to finish (R444). -/
def Dev.readerBusy (d : Dev) (c : Nat) : Bool :=
  d.rma.slots.any (fun e => e.2.st == .reading && (match (Tbl.find d.rma.msgs e.2.msg).bind Msg.queue with
    | some q => d.rd F.WQ_CTX_CFG_DMA_CLUSTER q == c
    | none => false))

/-- R22 holds of unit u: an engine cluster, or a DMA cluster as 16 + c. -/
def Dev.unitIdle (d : Dev) (u : Nat) : Bool :=
  if u < 16 then (List.range 64).all (fun t => (d.thr (u * 64 + t)).idles) && (d.pendEv u).isEmpty
  else (d.listed R.DMA_CH_CTL).all (fun e => e.1 / 64 != u - 16 || d.chSt e.1 == chIdle || d.chSt e.1 == chPaused) &&
    !Tbl.get d.dma.stopping false (u - 16) && !d.readerBusy (u - 16)

/-- The unit is kept warm (R524). -/
def Dev.unitWarm (d : Dev) (u : Nat) : Bool := getBits (d.reg R.PWR_POLICY) u 1 == 1

/-- Bit of PWR_DOM_STAT for unit u: clock-gated, or power-gated. -/
def domBit (u : Nat) (power : Bool) : Nat := (if u < 16 then u else u + 16) + (if power then 16 else 0)
def Dev.setGated (d : Dev) (u : Nat) (power : Bool) (v : Nat) : Dev :=
  d.setReg R.PWR_DOM_STAT 0 (setBits (d.reg R.PWR_DOM_STAT) (domBit u power) 1 v)
def Dev.domGated (d : Dev) (u : Nat) (power : Bool) : Bool := getBits (d.reg R.PWR_DOM_STAT) (domBit u power) 1 == 1

/-- The time since which the unit has been idle. -/
def Dev.idleFrom (d : Dev) (u : Nat) : Nat := Tbl.get d.eng.idleSince 0 u

/-- CLUSTER_CLOCK_GATE. -/
def Dev.clockGate (d : Dev) (u : Nat) : Dev :=
  if d.dark || d.unitWarm u || !d.unitIdle u || d.domGated u false || d.domGated u true || d.eng.waking.contains u then d
  else (d.advanceTo (d.idleFrom u + nsPs (clampTo 10 1000 (d.rd F.PWR_GATE_CFG_CLK_IDLE_NS)))).setGated u false 1

/-- CLUSTER_POWER_GATE: instruction lines and L1 entries are lost (R524). -/
def Dev.powerGate (d : Dev) (u : Nat) : Dev :=
  if d.dark || d.unitWarm u || !d.unitIdle u || d.domGated u true || d.eng.waking.contains u then d
  else
    let d := d.advanceTo (d.idleFrom u + usPs (max 10 (d.rd F.PWR_GATE_CFG_PWR_IDLE_US)))
    let d := (d.setGated u false 0).setGated u true 1
    if u < 16 then { d with eng.imem := Tbl.del u d.eng.imem, eng.ahead := Tbl.del u d.eng.ahead, xlt.l1i := Tbl.del u d.xlt.l1i, xlt.l1d := Tbl.del u d.xlt.l1d }
    else d

/-- UNIT_WAKE_DONE: the unit's waiting work goes on. -/
def Dev.wakeDone (d : Dev) (u : Nat) : Dev :=
  if d.dark || !d.eng.waking.contains u then d
  else
    let d := d.advance (if d.domGated u true then nsPs 1500 else nsPs 20)
    let d := (d.setGated u false 0).setGated u true 0
    let d := { d with eng.waking := d.eng.waking.erase u, eng.idleSince := Tbl.put u d.ps d.eng.idleSince }
    if u < 16 then d else d.chKick (u - 16)

def execClusterClockGate (u : Fin 32) (s : State) : Host.Outcome State Fault Refusal := onDev s (fun d => d.clockGate u)
def execClusterPowerGate (u : Fin 32) (s : State) : Host.Outcome State Fault Refusal := onDev s (fun d => d.powerGate u)
def execUnitWakeDone (u : Fin 32) (s : State) : Host.Outcome State Fault Refusal :=
  onDev s (fun d => let d := d.wakeDone u; if d.halted then d else d.rmaGo)

end Sys2Proof.Machine
end

