-- ==== Sys2Proof/Machine/Power.lean ====
section
/-! DEFINITION. Rails, resets, boot and power states (R498 to R506, R520 to R523, R528, R529), fault collection (R530 to
R536), thermal and current limits (R543 to R545), the regulators (R587, R588). -/

namespace Sys2Proof.Machine

/-! ### What a reset keeps (R500, R528) -/

/-- Bits of a register that a system reset keeps: its RWS fields, and DBG_LOCK (R492). -/
def keepMask (r : Nat) : Word :=
  if r = R.TGT_CFG then 1
  else if r = R.PWR_RAIL_FAULT then maskW 7
  else match regTable[r]? with
    | some x => x.flds.foldl (fun m f => if f.acc = .rws then m ||| (maskW f.w <<< f.lo) else m) 0
    | none => 0

/-- The registers after a system reset. -/
def keptRegs (t : Tbl Word) : Tbl Word :=
  t.foldl (fun k (e : Nat × Word) =>
    let m := keepMask (e.1 % 256)
    if m = 0 then k
    else
      let v := regReset (e.1 % 256) (e.1 / 256)
      Tbl.set v e.1 ((v &&& ~~~m) ||| (e.2 &&& m)) k) []

/-- Flash, fuses and the parameter store (R500), and the modules' own pages. -/
def BcpSt.kept (b : BcpSt) : BcpSt :=
  { flash := b.flash, keyHash := b.keyHash, revoked := b.revoked, rollback := b.rollback,
    preferred := b.preferred, params := b.params, cmis := b.cmis }

/-- The registers that the parameter store fills (R541). -/
def Dev.loadWhiteout (d : Dev) : Dev :=
  match d.pwr.woLog with
  | some (s, t) => (d.setReg R.FLT_WO_LOG 0 (BitVec.ofNat 64 (s + 64))).setReg R.FLT_WO_TIME 0 (BitVec.ofNat 64 t)
  | none => (d.setReg R.FLT_WO_LOG 0 0).setReg R.FLT_WO_TIME 0 0

/-- Everything outside the always-on domain returns to its reset value, FAULT_N with it (R579); `keep` are the registers kept
(R500). -/
def Dev.cold (d : Dev) (keep : Tbl Word) : Dev :=
  let d' : Dev := { regs := keep, ps := d.ps, fresh := d.fresh, log := d.log, pwr := d.pwr, bcp := d.bcp.kept,
                    host := { perstHigh := d.host.perstHigh } }
  let d' := d'.loadWhiteout
  let d' := if d.flag F.FLT_STAT_FAULT_OUT then d'.emit (.pin "FAULT_N" 1) else d'
  d.host.perstHigh.foldl (fun d (e : Nat × Bool) => d.latch R.HST_PORT_CFG e.1) d'

/-! ### Rails (R498, R499) -/

/-- Step 3 of the start-up: whether FAB_REFCLK[0] is in range is the board's (log entry 1). -/
def Dev.checkRef (d : Dev) : Dev :=
  let (n, d) := d.pick 2
  { d with pwr.refBad := n == 1 }

/-- RAIL_PG_RISE. -/
def Dev.railRise (d : Dev) (k : Nat) : Dev :=
  if d.pwr.down || !d.pwr.en.getLsbD k || d.pwr.pg.getLsbD k then d
  else
    let d := { d with pwr.pg := setRail d.pwr.pg k true }
    if k < 4 then (d.advance (usPs 100)).driveRail (k + 1) true else d.checkRef

/-- Rail k is the one whose fall the power-down waits for: the one above the highest still enabled. -/
def Dev.fallDue (d : Dev) (k : Nat) : Bool :=
  match topRail d.pwr.en with
  | some j => k == j + 1
  | none => k == 0

/-- RAIL_DOWN_STEP: RAIL_PG[k] is low, or 1 ms has passed since its enable fell: which of the two is the board's. -/
def Dev.railStep (d : Dev) (k : Nat) : Dev :=
  if !d.pwr.down || !d.fallDue k then d
  else
    let (n, d) := d.pick 2
    let d := if n = 1 then d.advance (msPs 1) else { d with pwr.pg := setRail d.pwr.pg k false }
    d.railsDown

/-- Entry to BIVOUAC: only the always-on domain keeps its state (R528); the rails go down. -/
def Dev.bivouac (d : Dev) : Dev :=
  let d := d.cold (keptRegs d.regs)
  { d.railsDown with pwr.state := .bivouac, pwr.refBad := false }

/-- A rail fails (R499): kind 1 RAIL_PG timeout, 2 RAIL_PG lost. -/
def Dev.railFail (d : Dev) (k kind : Nat) : Dev :=
  ((d.wr F.PWR_RAIL_FAULT_RAIL 0 (2 ^ k)).wr F.PWR_RAIL_FAULT_KIND 0 kind).bivouac

/-- The states in which R523 and R499 let a rail fail: START and RUN. -/
def Dev.railed (d : Dev) : Bool := d.pwr.state == .start || d.pwr.state == .run

/-- RAIL_PG_TIMEOUT: 10 ms after its enable. -/
def Dev.railTimeout (d : Dev) (k : Nat) : Dev :=
  if !d.railed || d.pwr.down || !d.pwr.en.getLsbD k || d.pwr.pg.getLsbD k then d
  else (d.advance (msPs 10)).railFail k 1

/-- RAIL_PG_LOST. -/
def Dev.railLost (d : Dev) (k : Nat) : Dev :=
  if !d.railed || d.pwr.down || !d.pwr.en.getLsbD k || !d.pwr.pg.getLsbD k then d
  else { d with pwr.pg := setRail d.pwr.pg k false }.railFail k 2

/-- REFCLK_RECHECK (R582). -/
def Dev.refRecheck (d : Dev) (ok : Bool) : Dev :=
  if d.pwr.state != .start || !d.pwr.refBad then d else { d.advance (msPs 1) with pwr.refBad := !ok }

/-! ### Power states (R523) -/

/-- START: the rails come up from the first. -/
def Dev.startUp (d : Dev) (cause : Nat) : Dev :=
  ({ d with pwr.state := .start, pwr.fromOff := false, pwr.inReset := false, pwr.refBad := false, pwr.down := false,
            pwr.en := 0, pwr.pg := 0 }.wr F.PWR_STATE_EXIT_CAUSE 0 cause).driveRail 0 true

/-- POWER_ON: VAON valid for 2 ms. -/
def Dev.powerOn (d : Dev) : Dev :=
  if d.pwr.state != .off then d
  else { (d.cold []).advance (msPs 2) with pwr := { d.pwr with state := .bivouac, fromOff := true } }

/-- VAON_LOSS. -/
def Dev.vaonLoss (d : Dev) : Dev :=
  { d.cold [] with pwr := { state := .off, en := 0, pg := 0, woLog := d.pwr.woLog } }

/-- SYS_RESET: SYS_RESET_N has been low for 10 µs. -/
def Dev.sysReset (d : Dev) : Dev :=
  match d.pwr.state with
  | .off => { d with pwr.inReset := true }
  | .bivouac => { d with pwr.inReset := true }
  | .whiteout => d
  | .start => { (d.advance (usPs 10)).cold (keptRegs d.regs) with pwr := { d.pwr with state := .start, inReset := true, refBad := false } }
  | .run => { (d.advance (usPs 10)).cold (keptRegs d.regs) with pwr := { d.pwr with state := .start, inReset := true, refBad := false } }
  | .safe => { (d.advance (usPs 10)).cold (keptRegs d.regs) with pwr := { d.pwr with state := .start, inReset := true, refBad := false } }

/-- SYS_RESET_RELEASE. -/
def Dev.resetRelease (d : Dev) : Dev :=
  match d.pwr.state with
  | .bivouac =>
    if d.pwr.fromOff && !d.pwr.down then d.startUp 0 else { d with pwr.inReset := false }
  | .start =>
    if !d.pwr.inReset then d
    else
      let d := { d with pwr.inReset := false }.wr F.PWR_STATE_EXIT_CAUSE 0 2
      if d.pwr.pg = 0x1F then d.checkRef else d
  | .off => { d with pwr.inReset := false }
  | .run => d
  | .safe => d
  | .whiteout => d

/-- WAKE_N low for 10 µs, with SYS_RESET_N high. -/
def Dev.wakeN (d : Dev) : Dev :=
  if d.pwr.state != .bivouac || d.pwr.fromOff || d.pwr.inReset || d.pwr.down then d
  else (d.advance (usPs 10)).startUp 1

/-- Every function is OFF and every fabric port DOWN (R529). -/
def Dev.mayBivouac (d : Dev) : Bool :=
  (d.listed R.HST_FN_CTL).all (fun e => d.fnState e.1 == 0) && allPorts.all (fun p => d.lnk p == lsDown)

/-- A write of 1 to ENTER_BIVOUAC; `false` where it is ignored. -/
def Dev.enterBivouac (d : Dev) : Dev × Bool :=
  if d.pwr.state = .run && d.mayBivouac then (d.bivouac, true) else (d, false)

/-! ### Boot (R503 to R506) -/

/-- Basecamp core k starts at instruction index `entry`; what its other registers hold is zero (log entry 31). -/
def Dev.startCore (d : Dev) (entry k : Nat) : Dev :=
  d.setThr (1024 + k) { st := .ready, active := true, priv := true, pc := mkPc entry 0 0 }

/-- BCP_FW_STAT names the image in slot n as running. -/
def Dev.runImage (d : Dev) (n : Nat) : Dev :=
  let x := d.slotImage n
  let d := ((d.wr F.BCP_FW_STAT_STATE 0 2).wr F.BCP_FW_STAT_SLOT 0 n).wr F.BCP_FW_STAT_VERSION 0 x.version
  { d with bcp.runRollback := min 63 x.rollback }

/-- Each PWR_PMB_ADDR is written from the board record, where word k + 1 of its body is rail k's (R587; log entry 31). -/
def Dev.boardRails (d : Dev) : Dev :=
  (List.range 5).foldl (fun d k =>
    d.setReg R.PWR_PMB_ADDR k (BitVec.ofNat 64 (bitsOf d.boardRecord.code (64 * (k + 1)) 16))) d

/-- The board record is checked: the Subsystem IDs are its own, in the first 4 bytes of its body (log entry 31), or 0 (R427,
R505). -/
def Dev.loadBoard (d : Dev) : Dev :=
  if d.authOk d.boardRecord false then { d.boardRails with bcp.subsys := bitsOf d.boardRecord.code 0 32 }
  else { d with bcp.subsys := 0 }.fault 24

/-- The cores `l` start slot n's code, in region r of the SRAM, at its ENTRY (R503, R520, R522). -/
def Dev.startCores (d : Dev) (n r : Nat) (l : List Nat) : Dev :=
  l.foldl (fun d k => d.startCore (d.slotImage n).entry k) { d with bcp.region := r }

/-- Firmware from slot n, loaded into region r, starts on core 0 (R503, R505). -/
def Dev.startImage (d : Dev) (n r : Nat) : Dev := (d.startCores n r [0]).runImage n

/-- FW_LOAD_DONE in START: the slot is loaded into SRAM and authenticated; a failure tries the other slot (R505). -/
def Dev.fwLoadDone (d : Dev) : Dev :=
  let st := d.rd F.BCP_FW_STAT_STATE
  if d.pwr.state != .start || d.dark || 2 ≤ st then d
  else
    let n := if st = 0 then d.bcp.preferred % 2 else d.bcp.loading
    let d := d.loadCode 0 (d.slotImage n)
    if d.authOk (d.slotImage n) true then
      ((d.startImage n 0).wr F.BCP_FW_STAT_FALLBACK 0 (if d.bcp.tried.isEmpty then 0 else 1)).loadBoard
    else if d.bcp.tried.isEmpty then
      { d.wr F.BCP_FW_STAT_STATE 0 1 with bcp.tried := [n], bcp.loading := 1 - n }
    else { d.wr F.BCP_FW_STAT_STATE 0 4 with bcp.tried := n :: d.bcp.tried }

/-- A PMBus command to rail k's regulator (R587). -/
def Dev.pmb (d : Dev) (k : Nat) (c : PmbCmd) (data : Nat) : Dev := d.emit (.pmbus k (d.rd F.PWR_PMB_ADDR_ADDR k) c data)

/-- Rail k's regulator takes the margin of SEL (R588). -/
def Dev.applyMargin (d : Dev) : Dev :=
  let d := { d with bcp.margin := false }
  (List.range 5).foldl (fun d k =>
    if !d.flag F.PWR_PMB_ADDR_EN k then d
    else
      let v := getBits (d.reg R.PWR_MARGIN) (2 * k) 2
      let d := (d.pmb k .page (d.rd F.PWR_PMB_ADDR_PAGE k)).pmb k .operation (if v = 3 then 0 else v)
      d.setReg R.PWR_MARGIN 0 (setBits (d.reg R.PWR_MARGIN) (10 + 2 * k) 2 (if v = 3 then 0 else v))) d

/-- A write of PWR_MARGIN. -/
def Dev.marginWrite (d : Dev) (v : Nat) : Dev :=
  let d := d.wr F.PWR_MARGIN_SEL 0 v
  if d.fwRuns then d.applyMargin else { d with bcp.margin := true }

/-- A module alarm that waited for the end of the blackout is served (R521). -/
def Dev.serveAlarms (d : Dev) : Dev := { d.bcp.alarms.foldl (fun d p => d.alarmAct p) d with bcp.alarms := [] }

/-! ### Activation, and the board management controller (R510, R520) -/

/-- The slot that an activation starts: the staged one, or else the one not running (log entry 31). -/
def Dev.nextSlot (d : Dev) : Nat := d.bcp.staged.getD d.idleSlot

/-- The staged slot n is loaded into the idle code region and checked (R520). -/
def Dev.loadNext (d : Dev) (n : Nat) : Dev × Bool :=
  let d := d.loadCode (1 - d.bcp.region) (d.slotImage n)
  (d, d.authOk (d.slotImage n) true)

/-- The blackout begins: firmware leaves its state in the handover region, what it was staging waits for the next firmware,
and every core starts slot n's image, in the other code region (R520). -/
def Dev.blackout (d : Dev) (n : Nat) (m : Option Nat) : Dev :=
  let d := { (d.disown .stage).handSave with bcp.stage := none }
  let d := d.startCores n (1 - d.bcp.region) (List.range 4)
  { d.wr F.BCP_FW_STAT_STATE 0 3 with bcp.swap := some (n, d.ps, m) }

/-- What monitoring and control asks for, as the device holds it: a temperature, a rail's current, the state of a port or of a
function; which it is, is the controller's choice (log entry 1). -/
def Dev.bmcValue (d : Dev) : Nat × Dev :=
  match d.pick 4 with
  | (0, d) => (d.rd F.FLT_THERM_TJ_MAX, d)
  | (1, d) =>
    let (k, d) := d.pick 5
    ((d.reg R.PWR_RAIL_MON k).toNat, d)
  | (2, d) =>
    let (p, d) := d.pick 64
    (d.rd F.RTE_PORT_STATE_STATE p, d)
  | (_, d) =>
    let (f, d) := d.pick 1024
    (d.fnState f, d)

/-- The answer goes the way the message came: by I3C, or on PCIe while link 0 of host port 0 is up. -/
def Dev.bmcAnswer (d : Dev) (v : Nat) : Dev :=
  let (t, d) := d.pick (1 + bitsOf (d.rd F.HST_PORT_STAT_UP 0) 0 1)
  d.emit (.mctp (t == 1) v)

/-- An image from the controller: its length and its bytes are the controller's (log entry 1). -/
def Dev.bmcUpdate (d : Dev) : Dev :=
  let (n, d) := d.pick (2 ^ 23 + 1)
  ({ d with fresh := d.fresh + 1 }.stageImage n (Config.bmcImage d.fresh)).1

/-- One message of the management controller (R510): which of the four kinds it is, is its sender's. -/
def Dev.pldmServe (d : Dev) : Dev :=
  match d.pick 4 with
  | (0, d) => d.bmcValue.2.bmcAnswer d.bmcValue.1
  | (1, d) => d.bmcUpdate
  | (2, d) => if (d.loadNext d.nextSlot).2 then (d.loadNext d.nextSlot).1.blackout d.nextSlot none else (d.loadNext d.nextSlot).1
  | (_, d) => d.enterBivouac.1

/-- Messages held in a blackout are served after it, until one begins another (R521). -/
def Dev.serveHeld (d : Dev) : Nat → Dev
  | 0 => d
  | n + 1 => if d.bcp.mctp = 0 || !d.fwRuns then d
    else ({ d with bcp.mctp := d.bcp.mctp - 1 }.pldmServe).serveHeld n

/-- What the firmware does once it runs again: margins, alarms, and the packets held (R521, R588). -/
def Dev.fwResume (d : Dev) : Dev :=
  let d := if d.bcp.margin then d.applyMargin else d
  d.serveAlarms.serveHeld 16

/-- FW_READY: READY is set (R506, R520). -/
def Dev.fwReady (d : Dev) : Dev :=
  if d.dark then d
  else match d.bcp.swap with
  | some (n, _, m) =>
    let kept := n == d.rd F.BCP_FW_STAT_SLOT
    let d := { d.handLoad.runImage n with bcp.swap := none }
    let d := if kept then d else { d with bcp.preferred := n, bcp.staged := none }
    let d := match m with
      | some m => d.mbxDone m Status.OK [if kept then 1 else 0]
      | none => d
    d.fwResume
  | none =>
    if d.pwr.state != .start || d.rd F.BCP_FW_STAT_STATE != 2 || d.flag F.BCP_FW_STAT_READY then d
    else
      let late := d.flt.safeStart.filter (fun s => getBits (d.reg R.FLT_STICKY) s 1 == 1)
      let d := { d.wr F.BCP_FW_STAT_READY 0 1 with pwr.state := .run, flt.safeStart := [] }
      let d := d.fwResume
      match late with
      | [] => d
      | s :: _ => d.enterSafe s

/-- FW_SWAP_TIMEOUT: the cores restart the old image (R522); FW_READY then ends the blackout. -/
def Dev.swapTimeout (d : Dev) : Dev :=
  match d.bcp.swap with
  | none => d
  | some (n, t, m) =>
    if d.dark || n = d.rd F.BCP_FW_STAT_SLOT then d
    else
      let d := (d.advanceTo (t + msPs 20)).wr F.BCP_FW_STAT_REVERTED 0 1
      let old := d.rd F.BCP_FW_STAT_SLOT
      let d := d.startCores old (1 - d.bcp.region) (List.range 4)
      { d with bcp.swap := some (old, t, m) }.fault 25

/-! ### Commands of power and boot -/

/-- Open transactions end with the device's state, with STATUS TXN_NONE after a system reset (R519). -/
def resetTxns (t : Tbl Txn) : Tbl Txn :=
  t.filterMap (fun (e : Nat × Txn) => if e.2.phase = .opened then some (e.1, { status := Status.TXN_NONE }) else none)

/-- A command that may take the device's state: transactions and the TAP follow the device. -/
def onPower (s : State) (f : Dev → Dev) : Host.Outcome State Fault Refusal :=
  let d := f s.dev
  .next { s with
    dev := d
    txns := if d.pwr.state = .bivouac || d.pwr.state = .off then [] else s.txns
    tap := if d.pwr.state = .bivouac || d.pwr.state = .off then {} else s.tap }

def execPowerOn (s : State) : Host.Outcome State Fault Refusal := onPower s Dev.powerOn
def execVaonLoss (s : State) : Host.Outcome State Fault Refusal := onPower s Dev.vaonLoss
def execSysReset (s : State) : Host.Outcome State Fault Refusal :=
  let d := s.dev.sysReset
  .next { s with dev := d, txns := if d.pwr.state = .start then resetTxns s.txns else s.txns }
def execSysResetRelease (s : State) : Host.Outcome State Fault Refusal := onDev s Dev.resetRelease
def execWakeN (s : State) : Host.Outcome State Fault Refusal := onDev s Dev.wakeN
def execRailPgRise (k : Fin 5) (s : State) : Host.Outcome State Fault Refusal := onDev s (fun d => d.railRise k)
def execRailDownStep (k : Fin 5) (s : State) : Host.Outcome State Fault Refusal := onDev s (fun d => d.railStep k)
def execRailPgTimeout (k : Fin 5) (s : State) : Host.Outcome State Fault Refusal := onPower s (fun d => d.railTimeout k)
def execRailPgLost (k : Fin 5) (s : State) : Host.Outcome State Fault Refusal := onPower s (fun d => d.railLost k)
def execRefclkRecheck (inRange : Bool) (s : State) : Host.Outcome State Fault Refusal := onDev s (fun d => d.refRecheck inRange)
def execFwLoadDone (s : State) : Host.Outcome State Fault Refusal := onDev s Dev.fwLoadDone
def execFwReady (s : State) : Host.Outcome State Fault Refusal := onPower s Dev.fwReady
def execFwSwapTimeout (s : State) : Host.Outcome State Fault Refusal := onDev s Dev.swapTimeout
def execPwrEnterBivouac (s : State) : Host.Outcome State Fault Refusal := onPower s (fun d => d.enterBivouac.1)

/-! ### The fault collector (R530 to R536, R492) -/

/-- FAULT_REPORT: the sources whose pairs report in one cycle of the collector. -/
def execFaultReport (srcs : BitVec 64) (s : State) : Host.Outcome State Fault Refusal :=
  onDev s (fun d => d.faults ((List.range 64).filter (fun k => srcs.getLsbD k)))

/-- A pair invalid for 4 cycles (R530). -/
def Dev.pairInvalid (d : Dev) (src : Nat) : Dev :=
  if !faultSource src || d.pwr.state == .off || d.pwr.state == .bivouac || d.pwr.state == .whiteout then d
  else (d.bump F.FLT_STAT_PAIR_ERRS).faults (if src = 31 then [31] else [src, 31])

def execFltPairInvalid (src : Fin 64) (s : State) : Host.Outcome State Fault Refusal := onDev s (fun d => d.pairInvalid src)

/-- A write of FLT_TEST: THERM_TRIP and reserved sources are ignored. -/
def Dev.fltTest (d : Dev) (src : Nat) : Dev := if src = 28 then d else d.fault src

def execFltTest (src : Fin 64) (s : State) : Host.Outcome State Fault Refusal := onDev s (fun d => d.fltTest src)

def Dev.fltLock (d : Dev) : Dev := d.wr F.FLT_CFG_LOCK 0 1
def execFltLock (s : State) : Host.Outcome State Fault Refusal := onDev s (fun d => if d.dark then d else d.fltLock)
def Dev.dbgLock (d : Dev) : Dev := d.wr F.TGT_CFG_DBG_LOCK 0 1
def execDbgLock (s : State) : Host.Outcome State Fault Refusal := onDev s (fun d => if d.dark then d else d.dbgLock)

/-! ### Thermal and current limits (R543 to R545) -/

/-- The highest reading, in 0.25 °C, with the lowest sensor that gives it. -/
def hottest (l : List (BitVec 11)) : Option (Int × Nat) :=
  (l.mapIdx (fun i v => (signed v.toNat 11, i))).foldl (fun (b : Option (Int × Nat)) e => match b with
    | none => some e
    | some y => if y.1 < e.1 then some e else b) none

/-- The thermal level that a temperature asks for (R544). -/
def thermLevel (t : Int) : Nat := if t < 400 then 0 else min 4 (1 + ((t - 400) / 4).toNat)

/-- The temperatures that raised the levels in force, highest level first, after a sample. -/
def thermStep (raised : List Int) (t : Int) : List Int :=
  if raised.length < thermLevel t then List.replicate (thermLevel t - raised.length) t ++ raised
  else raised.dropWhile (fun r => decide (t ≤ r - 8))

/-- The level in force is the greater of the two (R544). -/
def Dev.setLevel (d : Dev) : Dev :=
  d.wr F.FLT_THERM_LEVEL 0 (max (d.rd F.FLT_THERM_THERM_LEVEL) (d.rd F.FLT_CUR_STAT_LEVEL))

/-- The hottest reading t, of sensor k, sets the thermal level and reports THERM_GOVERN and THERM_SAFE. -/
def Dev.thermTake (d : Dev) (t : Int) (k : Nat) : Dev :=
  let old := d.flt.raised
  let new := thermStep old t
  let d := ((d.wr F.FLT_THERM_TJ_MAX 0 (unsigned t 11)).wr F.FLT_THERM_SENSOR 0 k).wr F.FLT_THERM_THERM_LEVEL 0 new.length
  let fire := d.flt.safeArmed && decide (460 ≤ t)
  let d := { d with flt.raised := new, flt.safeArmed := if fire then false else d.flt.safeArmed || decide (t < 452) }.setLevel
  d.faults ((if old.isEmpty && !new.isEmpty then [26] else []) ++ (if fire then [27] else []))

/-- THERM_SAMPLE: at the next multiple of 10 µs. -/
def Dev.thermSample (d : Dev) (l : List (BitVec 11)) : Dev :=
  match hottest (l.take 32) with
  | none => d
  | some x => if d.dark then d else (d.advanceTo ((d.ps / usPs 10 + 1) * usPs 10)).thermTake x.1 x.2

def execThermSample (temps : List (BitVec 11)) (s : State) : Host.Outcome State Fault Refusal :=
  onDev s (fun d => d.thermSample temps)

/-- LIMIT_A, held within its bounds. -/
def Dev.limitA (d : Dev) : Nat := clampTo 400 1100 (d.rd F.FLT_CUR_CFG_LIMIT_A)

/-- The current level takes a value, and CUR_GOVERN is reported where it rises from 0. -/
def Dev.curLevel (d : Dev) (n : Nat) : Dev :=
  let rise := d.rd F.FLT_CUR_STAT_LEVEL == 0 && 0 < n
  let d := (d.wr F.FLT_CUR_STAT_LEVEL 0 n).setLevel
  if rise then (d.bump F.FLT_CUR_STAT_RISES).fault 29 else d

/-- CUR_GOV_SAMPLE: at the next multiple of 2 µs. -/
def Dev.curSample (d : Dev) (a : Nat) : Dev :=
  if d.dark then d
  else
    let d := (d.advanceTo ((d.ps / usPs 2 + 1) * usPs 2)).wr F.FLT_CUR_STAT_CORE_A 0 a
    let n := d.rd F.FLT_CUR_STAT_LEVEL
    if d.limitA < a then
      let d := { d with flt.belowAt := none }
      match d.flt.excessAt with
      | none => { d with flt.excessAt := some d.ps }.curLevel (min 4 (n + 1))
      | some t => if t + usPs 5 ≤ d.ps then { d with flt.excessAt := some (t + usPs 5) }.curLevel (min 4 (n + 1)) else d
    else if a < d.limitA - 50 then
      let d := { d with flt.excessAt := none }
      match d.flt.belowAt with
      | none => { d with flt.belowAt := some d.ps }
      | some t => if t + usPs 100 ≤ d.ps then { d with flt.belowAt := some (t + usPs 100) }.curLevel (n - 1) else d
    else { d with flt.excessAt := none, flt.belowAt := none }

def execCurGovSample (amps : BitVec 11) (s : State) : Host.Outcome State Fault Refusal := onDev s (fun d => d.curSample amps.toNat)

/-! ### Regulators (R587, R588) -/

/-- Firmware reads the regulators of the rails that are enabled: what they answer is theirs (log entry 1). -/
def Dev.pmbRead (d : Dev) : Dev :=
  if !d.fwRuns then d
  else (List.range 5).foldl (fun d k =>
    if !d.flag F.PWR_PMB_ADDR_EN k then d
    else
      let (w, d) := d.freeWord
      let d := (((d.pmb k .page (d.rd F.PWR_PMB_ADDR_PAGE k)).pmb k .readVout (getBits w 0 16)).pmb k .readIout (getBits w 16 16)).pmb
        k .readTemperature (getBits w 32 8)
      (d.pmb k .statusWord (getBits w 41 1)).setReg R.PWR_RAIL_MON k (w &&& maskW 42)) d

def execPmbRefresh (s : State) : Host.Outcome State Fault Refusal :=
  onDev s (fun d => (d.advanceTo ((d.ps / msPs 10 + 1) * msPs 10)).pmbRead)
def execPmbAlert (s : State) : Host.Outcome State Fault Refusal := onDev s Dev.pmbRead
def execMarginWrite (v : Word) (s : State) : Host.Outcome State Fault Refusal :=
  onDev s (fun d => if d.dark then d else d.marginWrite v.toNat)

/-! ### Test access (R590, R591) -/

/-- The TAP has its supply VDD_IO. -/
def Dev.tapOn (d : Dev) : Bool := d.pwr.pg.getLsbD 2

/-- A JTAG instruction enters the instruction register, with what it puts out. -/
def onTap (s : State) (ir : BitVec 8) (f : Dev → Tap → Dev × Tap) : Host.Outcome State Fault Refusal :=
  if !s.dev.tapOn then .next s
  else
    let (d, t) := f s.dev { s.tap with inReset := false, ir := ir }
    .next { s with dev := d, tap := t }

/-- Boundary outputs driven from the boundary register. -/
def Dev.driveBoundary (d : Dev) (t : Tap) : Dev := d.emit (.pin "BOUNDARY" t.boundary)

def execTrstN (s : State) : Host.Outcome State Fault Refusal := .next { s with tap := {} }
def execExtest (s : State) : Host.Outcome State Fault Refusal := onTap s 0x00 (fun d t => (d.driveBoundary t, t))
/-- The identification code: the manufacturer's code is not stated (log entry 1). -/
def idcode : Nat := 1 + Config.jedecId.toNat * 2 + 0x4C40 * 2 ^ 12 + 1 * 2 ^ 28
def execIdcode (s : State) : Host.Outcome State Fault Refusal := onTap s 0x01 (fun d t => (d.emit (.readValue idcode), t))
/-- The pins are sampled: what they carry is the board's (log entry 1). -/
def execSamplePreload (s : State) : Host.Outcome State Fault Refusal := onTap s 0x02 (fun d t =>
  let (w, d) := d.freeWord
  (d, { t with boundary := w.toNat }))
def execHighz (s : State) : Host.Outcome State Fault Refusal := onTap s 0x05 (fun d t =>
  (d.emit (.pin "HIGHZ" 1), { t with bypass := false }))
def execClamp (s : State) : Host.Outcome State Fault Refusal := onTap s 0x06 (fun d t => (d.driveBoundary t, { t with bypass := false }))
def execExtestPulse (s : State) : Host.Outcome State Fault Refusal := onTap s 0x08 (fun d t => (d.driveBoundary t, t))
def execExtestTrain (s : State) : Host.Outcome State Fault Refusal := onTap s 0x09 (fun d t => (d.driveBoundary t, t))
/-- The debug port's register is selected; its accesses are the commands of requester `dbg` (log entry 32). -/
def execDbgAccess (s : State) : Host.Outcome State Fault Refusal := onTap s 0x20 (fun d t => (d, t))
def execBypass (s : State) : Host.Outcome State Fault Refusal := onTap s 0xFF (fun d t => (d, { t with bypass := false }))

end Sys2Proof.Machine
end

