-- ==== Sys2Proof/Machine/Views.lean ====
section
/-! DEFINITION. What registers read as: fields that show other state of the device, and where an offset of BAR0 or of a
virtual function's view leads (R437, R438, R593 to R597). -/

namespace Sys2Proof.Machine

/-! ### Offsets (R594, R437) -/

/-- The instance that `o` bytes above a register's base names, first index slowest. -/
def instOf : List (Nat × Nat) → Nat → Option Nat
  | [], o => if o = 0 then some 0 else none
  | (s, c) :: l, o =>
    if o / s < c then (instOf l (o % s)).map (fun i => o / s * (l.foldl (fun n e => n * e.2) 1) + i) else none

def regFind (off : Nat) : List RegInfo → Nat → Option (Nat × Nat)
  | [], _ => none
  | x :: l, k =>
    if off < x.base then regFind off l (k + 1)
    else match instOf x.dims (off - x.base) with
      | some i => some (k, i)
      | none => regFind off l (k + 1)

/-- The register and instance at an 8-byte aligned offset of BAR0; none where the offset is reserved. -/
def regAt (off : Nat) : Option (Nat × Nat) :=
  match regFind off regTable 0 with
  | none => none
  | some (r, i) =>
    if (r = R.TGT_RGN_BASE || r = R.TGT_RGN_LIMIT || r = R.TGT_RGN_RIGHTS) && gateRegions (i / 64) ≤ i % 64 then none
    else some (r, i)

/-- The same in virtual function f's view. -/
def Dev.vfAt (d : Dev) (f off : Nat) : Option (Nat × Nat) :=
  if off < 0x4000 then (d.groupsOf f)[off / 0x400]?.map (fun g => (R.WQ_CTX_RING + off % 0x40 / 8, 16 * g + off % 0x400 / 0x40))
  else if off < 0x4030 then some (R.WIN_FN_ARG0 + (off - 0x4000) / 8, f)
  else if off = 0x4040 then some (R.RMA_FN_UD_IDX, f)
  else if off = 0x4048 then some (R.RMA_FN_LASTERR, f)
  else if off = 0x4050 then some (R.MTC_FN_RCQ_IDX, f)
  else if off = 0x4058 then some (R.MTC_FN_STAT, f)
  else if off = 0x4060 then some (R.HST_FN_CTL, f)
  else if 0x5000 ≤ off && off < 0x5040 then some (R.INT_TGT_CLAIM + (off - 0x5000) / 8, f)
  else if 0x5200 ≤ off && off < 0x5400 then some (R.INT_TGT_EN, f * 64 + (off - 0x5200) / 8)
  else if 0x8000 ≤ off && off < 0x8080 then some (R.PMC_FN_VAL, f * 16 + (off - 0x8000) / 8)
  else none

/-! ### Fields that show state held elsewhere -/

/-- Fields of a register put together, lowest bit and width with each value. -/
def putAll (v : Word) (l : List (Fld × Nat)) : Word := l.foldl (fun v e => setBits v e.1.lo e.1.w e.2) v

/-- STATE of ENG_THR_CTL. -/
def Thread.stateCode (t : Thread) : Nat :=
  match t.st with
  | .wait => 0
  | .ready => if t.inTrap then 3 else 1
  | .stall => 2
  | .stopped => 4

/-- Windows OPEN or REVOKING. -/
def Dev.winsLive (d : Dev) : Tbl Win := d.win.wins.filter (fun e => e.2.state != .free)

/-- Posted receives, unexpected and held messages of function f. -/
def Dev.mtcStat (d : Dev) (f : Nat) : Nat × Nat × Nat :=
  ((d.dom f).posted.length, (d.dom f).ux.length,
   (d.mtc.orders.filter (fun e => e.1 / 2 ^ 28 == f)).foldl (fun n e => n + e.2.held.length) 0)

/-- PIT_INFO of Piton n. -/
def Dev.pitInfo (d : Dev) (n : Nat) : List (Fld × Nat) :=
  let q := d.pitQueue n
  match (d.piton n).holder with
  | none => [(F.PIT_INFO_WAITERS, q.length)]
  | some (h, p) =>
    let eff := q.foldl (fun m w => max m (d.pitEff w.who w.prio 7)) p
    let (k, f, t) := match h with
      | .thread th f => if isCore th then (3, f, th - 1024) else (1, f, th)
      | .host f => (2, f, 0)
    [(F.PIT_INFO_HELD, 1), (F.PIT_INFO_KIND, k), (F.PIT_INFO_FN, f), (F.PIT_INFO_THREAD, t), (F.PIT_INFO_BASE_PRIO, p),
     (F.PIT_INFO_EFF_PRIO, max (d.pitEff h p 8) (if d.flag F.PIT_GRP_CFG_INHERIT_EN (n / 64) then eff else p)),
     (F.PIT_INFO_WAITERS, q.length)]

/-- STATE of PWR_STATE. -/
def Power.code : Power → Nat
  | .start => 1
  | .run => 2
  | .safe => 3
  | .whiteout => 4
  | .off => 0
  | .bivouac => 0

/-- PENDING or ACTIVE bits of the 64 numbers that INT_TGT_PSEL of target t selects. -/
def Dev.pword (d : Dev) (t : Nat) : Nat :=
  let l := if d.flag F.INT_TGT_PSEL_ACTIVE t then d.actOf t else d.pendOf t
  let w := d.rd F.INT_TGT_PSEL_WORD t
  (l.filter (fun n => n / 64 == w)).foldl (fun v n => v + 2 ^ (n % 64)) 0

/-- The device number that RMA_CC_LOOKUP names. -/
def Dev.ccLooked (d : Dev) : Option CcEnt := d.ccFind (d.rd F.RMA_CC_LOOKUP_DEV)

/-- Fields of chapters 02 to 07. -/
def Dev.viewEng (d : Dev) (r i : Nat) : List (Fld × Nat) :=
  if r = R.ENG_THR_CTL then [(F.ENG_THR_CTL_STATE, (d.thr i).stateCode)]
  else if r = R.WIN_STAT then [(F.WIN_STAT_OPEN, d.winsLive.length)]
  else if r = R.WIN_TOTAL then [(F.WIN_TOTAL_BYTES, tblSum d.winsLive Win.len)]
  else if r = R.WIN_FN_QUOTA then [(F.WIN_FN_QUOTA_OPEN, (d.winsLive.filter (fun e => e.2.owner == i)).length)]
  else if r = R.RMA_STAT then [(F.RMA_STAT_SLOTS, d.rma.slots.length), (F.RMA_STAT_RX_CTX, d.rma.rx.length)]
  else if r = R.RMA_CAIRN_STAT then [(F.RMA_CAIRN_STAT_ONDIE, (d.rma.cairn.filter (fun e => !e.2.spilled)).length),
    (F.RMA_CAIRN_STAT_SPILL, (d.rma.cairn.filter (fun e => e.2.spilled)).length)]
  else if r = R.MTC_STAT then [(F.MTC_STAT_POSTED, tblSum d.mtc.doms (fun m => m.posted.length)),
    (F.MTC_STAT_UX, tblSum d.mtc.doms (fun m => m.ux.length)), (F.MTC_STAT_HELD, d.heldCount)]
  else if r = R.MTC_RDV_STAT then [(F.MTC_RDV_STAT_RDV, d.mtc.rdvs.length), (F.MTC_RDV_STAT_STREAMS, d.mtc.streams.length),
    (F.MTC_RDV_STAT_ORDER, d.mtc.orders.length)]
  else if r = R.MTC_FN_STAT then [(F.MTC_FN_STAT_POSTED, (d.mtcStat i).1), (F.MTC_FN_STAT_UX, (d.mtcStat i).2.1),
    (F.MTC_FN_STAT_HELD, (d.mtcStat i).2.2)]
  else if r = R.COL_STAT then [(F.COL_STAT_CTX, d.col.ctxs.length),
    (F.COL_STAT_STAGE_KIB, (tblSum d.col.ctxs ColCtx.stage + 1023) / 1024)]
  else if r = R.COL_CTX_STAT then [(F.COL_CTX_STAT_EPOCH, (Tbl.get d.col.ctxs {} i).epochs % 2 ^ 32)]
  else if r = R.COL_CTX_TREE then [(F.COL_CTX_TREE_UP_EPOCH, (Tbl.get d.col.ctxs {} i).ups % 2 ^ 32)]
  else []

/-- Fields of chapters 08 to 12. -/
def Dev.viewNet (d : Dev) (r i : Nat) : List (Fld × Nat) :=
  if r = R.RTE_PORT_STATE then [(F.RTE_PORT_STATE_QUEUED, min 4095 (d.portSt i).out.length)]
  else if r = R.RMA_CC_STAT then [(F.RMA_CC_STAT_ENTRIES, d.cc.ents.length),
    (F.RMA_CC_STAT_WAITING, tblSum d.cc.ents (fun e => e.waiting.length))]
  else if r = R.RMA_CC_ENTRY then (match d.ccLooked with
    | none => []
    | some e => [(F.RMA_CC_ENTRY_VALID, 1), (F.RMA_CC_ENTRY_W, e.w), (F.RMA_CC_ENTRY_SRTT, min 65535 e.srtt),
      (F.RMA_CC_ENTRY_BASE, min 65535 (d.ccBaseNow e)), (F.RMA_CC_ENTRY_SAMPLES, min 15 e.samples)])
  else if r = R.RMA_CC_ENTRY2 then (match d.ccLooked with
    | none => []
    | some e => [(F.RMA_CC_ENTRY2_CHARGE, e.charge), (F.RMA_CC_ENTRY2_WAITING, e.waiting.length)])
  else if r = R.SCH_FN_STAT then [(F.SCH_FN_STAT_TOKENS, unsigned (d.tokensOf i) 25), (F.SCH_FN_STAT_BACKLOG, d.backlog i)]
  else if r = R.PRT_LNK_STATE then [(F.PRT_LNK_STATE_UNACKED, (d.portSt i).replay.length),
    (F.PRT_LNK_STATE_POOL_FREE, poolCells - (d.portSt i).poolHeld)]
  else if r = R.TIME_NOW then [(F.TIME_NOW_NS, d.ns)]
  else if r = R.INT_TGT_STAT then [(F.INT_TGT_STAT_HIGHEST, (d.highest i).getD 0),
    (F.INT_TGT_STAT_ANY, if (d.highest i).isSome then 1 else 0), (F.INT_TGT_STAT_ACTIVE_CNT, (d.actOf i).length)]
  else if r = R.INT_TGT_PWORD then [(F.INT_TGT_PWORD_BITS, d.pword i)]
  else []

/-- Fields of chapters 13 to 16. -/
def Dev.viewMgmt (d : Dev) (r : Nat) : List (Fld × Nat) :=
  if r = R.DMA_CTR_VAL then [(F.DMA_CTR_VAL_VALUE, d.ctrVal (d.rd F.DMA_CTR_SEL_CTR))]
  else if r = R.DMA_CTR_STAT then [(F.DMA_CTR_STAT_DEFERRED, d.dma.defs.length)]
  else if r = R.PIT_INFO then d.pitInfo (d.rd F.PIT_SEL_PITON)
  else if r = R.DEP_STAT then [(F.DEP_STAT_POOL_BUFS, d.poolBufs), (F.DEP_STAT_FREE, d.poolFree)]
  else if r = R.PWR_STATE then [(F.PWR_STATE_STATE, d.pwr.state.code)]
  else if r = R.BCP_FW_STAT then [(F.BCP_FW_STAT_ROLLBACK_FUSED, d.bcp.rollback)]
  else if r = R.BCP_EXC_STAT then [(F.BCP_EXC_STAT_QUEUED, d.bcp.exc.length)]
  else if r = R.BCP_CTL_STAT then [(F.BCP_CTL_STAT_USED, d.bcp.ring.length)]
  else []

/-- Bits of a register whose fields have one of the access codes `l`. -/
def accMask (r : Nat) (l : List Acc) : Word :=
  match regTable[r]? with
  | some x => x.flds.foldl (fun m f => if l.contains f.acc then m ||| (maskW f.w <<< f.lo) else m) 0
  | none => 0

/-- What a register reads as (R3), but for those that act on a read and the transaction registers. -/
def Dev.view (d : Dev) (r i : Nat) : Word :=
  putAll (d.reg r i &&& ~~~(accMask r [.wo])) (d.viewEng r i ++ d.viewNet r i ++ d.viewMgmt r)

/-- A read's effect on its RC fields (R3, R597): the whole register's. -/
def Dev.readClears (d : Dev) (r i : Nat) : Dev :=
  let m := accMask r [.rc]
  if m = 0 then d else d.setReg r i (d.reg r i &&& ~~~m)

end Sys2Proof.Machine
end

