-- ==== Sys2Proof/Machine/Regs.lean ====
section
/-! DEFINITION. Writes and reads of registers (R3, R5, R438, R595 to R598), configuration transactions (R516 to R519), and
ld.p and st.p, by which a Basecamp core reaches the register space (R51, R595). -/

namespace Sys2Proof.Machine

/-! ### A write's bytes -/

/-- An access of `n` bytes at `a`: 4 or 8 bytes, naturally aligned (R438, R596). -/
def accessOk (a n : Nat) : Bool := (n == 4 || n == 8) && a % n == 0

/-- The bits of the register that it covers. -/
def accessMask (a n : Nat) : Word := if n = 8 then maskW 64 else if a % 8 = 4 then maskW 32 <<< 32 else maskW 32

/-- The data in its place. -/
def accessData (a n : Nat) (v : Word) : Word := if n = 8 then v else if a % 8 = 4 then v <<< 32 else v &&& maskW 32

/-- An action field takes effect on the write that covers its lowest byte (R438): its value. -/
def act (m v : Word) (f : Fld) : Option Nat := if m.getLsbD f.lo then some (getBits (v &&& m) f.lo f.w) else none

/-! ### Running blocks (R5) -/

def Dev.slotRuns (d : Dev) (n : Nat) : Bool :=
  d.rd F.ENG_SLOT_STAT_ACTIVE_NEW n != 0 || d.rd F.ENG_SLOT_STAT_ACTIVE_OLD n != 0
def Dev.xltRuns (d : Dev) : Bool :=
  (d.listed R.WQ_CTX_CTL).any (fun e => d.qst e.1 != qsOff) || d.eng.th.any (fun e => e.1 < 1024 && e.2.st != .wait)
def Dev.rmaRuns (d : Dev) : Bool := !d.rma.slots.isEmpty || !d.rma.rx.isEmpty || !d.rma.cairn.isEmpty
def Dev.mtcRuns (d : Dev) : Bool := (d.listed R.MTC_FN_CFG).any (fun e => getBits e.2 0 1 == 1)
/-- Bank b of port p is active or armed (R354). -/
def Dev.bankRuns (d : Dev) (p b : Nat) : Bool :=
  let is := fun (x : Option (Nat × Nat × Nat)) => match x with
    | some (k, _, _) => k == b
    | none => false
  is (d.gateSt p).active || is (d.gateSt p).armed

/-- Positions of a channel that may be written while it stands still in these states (DMA_CH_LPOS, DMA_CH_POS, DMA_CH_RPOS). -/
def Dev.chWritable (d : Dev) (r ch : Nat) : Bool :=
  let st := d.chSt ch
  st == chPaused || st == chStopped || (st == chIdle && r != R.DMA_CH_POS)

/-- Whether instance i of register r belongs to a block that runs, for its Quiesced fields (R5). SCH_GATE_CTL.PEND_LEN and
SCH_GATE_PBASE.BASE count as running while a list is armed (DESIGN CHOICE, log entry 36: R354 speaks of entries alone). -/
def Dev.runs (d : Dev) (r i : Nat) : Bool :=
  if r = R.ENG_SLOT_IMG || r = R.ENG_SLOT_CTL then d.slotRuns i
  else if R.WQ_CTX_RING ≤ r && r ≤ R.WQ_CTX_AUX then d.qst i != qsOff
  else if r = R.XLT_CFG then d.xltRuns
  else if r = R.RMA_CAIRN_CFG then d.rmaRuns
  else if r = R.RMA_FN_UD_RING then d.rd F.RMA_FN_UD_RING_WIN i != 0
  else if r = R.MTC_CAP then d.mtcRuns
  else if r = R.MTC_FN_RCQ then d.rd F.MTC_FN_RCQ_WIN i != 0
  else if r = R.COL_CFG then !d.col.ctxs.isEmpty
  else if r = R.RTE_PORT_CFG then d.rtState i != rsDown
  else if r = R.PRT_LNK_CFG then d.lnk i != lsDown
  else if r = R.PRT_LANE_CFG then d.trn i != tsOff
  else if r = R.SCH_GATE_CTL || r = R.SCH_GATE_PBASE then (d.gateSt i).armed.isSome
  else if r = R.SCH_GATE_ENT then d.bankRuns (i / 128) (i % 128 / 64)
  else if r = R.DMA_CH_LPOS || r = R.DMA_CH_POS || r = R.DMA_CH_RPOS then !d.chWritable r i
  else if R.DMA_CH_CFG ≤ r && r ≤ R.DMA_CH_TRIG then d.chSt i != chIdle
  else if r = R.DEP_POOL_CFG then !d.dep.bufs.isEmpty
  else d.rd F.PMC_RDR_STAT_STATE == rdRun

/-! ### Stored fields (R3, R5) -/

/-- The bits of a register that a virtual function's view does not write (R100, R437). -/
def vfFixed (r : Nat) : Word :=
  let bits := fun (l : List Fld) => l.foldl (fun m f => m ||| (maskW f.w <<< f.lo)) (0 : Word)
  if r = R.WQ_CTX_CFG then bits [F.WQ_CTX_CFG_FN, F.WQ_CTX_CFG_CLUSTER, F.WQ_CTX_CFG_DMA_CLUSTER, F.WQ_CTX_CFG_ASID]
  else if r = R.WQ_CTX_RING then bits [F.WQ_CTX_RING_PHYS]
  else if r = R.WQ_CTX_STAT then bits [F.WQ_CTX_STAT_PHYS]
  else if r = R.HST_FN_CTL then bits [F.HST_FN_CTL_EN]
  else 0

/-- Bits that hold no programmable value: THERM_TRIP and reserved sources in FLT_SEV (R533), all but LOCK once locked
(R536). -/
def Dev.fixedBits (d : Dev) (r i : Nat) : Word :=
  if r = R.FLT_SEV then
    (if d.flag F.FLT_CFG_LOCK || i = 1 then maskW 64 else maskW 2 ||| (maskW 2 <<< 56))
  else if r = R.FLT_CFG then (if d.flag F.FLT_CFG_LOCK then ~~~(1 : Word) else 0)
  else 0

/-- One field of a write: the register's new value, and whether a running block ignored a change. -/
def putField (runs : Bool) (m v : Word) (x : Word × Bool) (f : FldInfo) : Word × Bool :=
  let k := (maskW f.w <<< f.lo) &&& m
  let new := (x.1 &&& ~~~k) ||| (v &&& k)
  match f.acc with
  | .ro => x
  | .rc => x
  | .wo => x
  | .rw1c => (x.1 &&& ~~~(v &&& k), x.2)
  | .w1s => (x.1 ||| (v &&& k), x.2)
  | .rw => if f.chg = .quiesced && runs && new != x.1 then (x.1, true) else (new, x.2)
  | .rws => (new, x.2)

/-- Fields of a register. -/
def fldsOf (r : Nat) : List FldInfo := ((regTable[r]?).map RegInfo.flds).getD []

/-- Bits of a register's Staged fields. -/
def stagedMask (r : Nat) : Word :=
  (fldsOf r).foldl (fun m f => if f.chg = .staged then m ||| (maskW f.w <<< f.lo) else m) 0

/-- A write of 0 to WIN of a datagram or receive completion ring, which is accepted in every state and stops the ring. -/
def stopsRing (r : Nat) (m v : Word) : Bool :=
  (r == R.RMA_FN_UD_RING && act m v F.RMA_FN_UD_RING_WIN == some 0) ||
  (r == R.MTC_FN_RCQ && act m v F.MTC_FN_RCQ_WIN == some 0)

/-- The fields that a write covers are stored; CFG_LATE is reported where a running block ignored one. -/
def Dev.put (d : Dev) (r i : Nat) (m v : Word) : Dev :=
  let runs := d.runs r i && !stopsRing r m v
  let (w, late) := (fldsOf r).foldl (putField runs (m &&& ~~~(d.fixedBits r i)) v) (d.reg r i, false)
  let d := d.setReg r i w
  if late then d.fault 1 else d

/-! ### Actions of a write -/

/-- WQ_CTX_CTL: HOLD and CMD. A CMD of 0 is no command (DEDUCED, log entry 32). -/
def Dev.wqCtl (d : Dev) (q : Nat) (m v : Word) (held : Nat) : Dev :=
  let d := match act m v F.WQ_CTX_CTL_HOLD with
    | some h => if h = held then d else d.qHold q (h == 1)
    | none => d
  match act m v F.WQ_CTX_CTL_CMD with
  | none => d
  | some 0 => d
  | some 1 => d.qEnable q
  | some 2 => d.qDisable q
  | some 3 => d.qResume q
  | some 4 => d.qSkip q
  | some 5 => d.qInval q
  | some _ => d.qReject q

/-- DMA_CH_CTL: CMD. -/
def Dev.chCtl (d : Dev) (ch : Nat) (m v : Word) : Dev :=
  if d.halted then d
  else match act m v F.DMA_CH_CTL_CMD with
  | none => d
  | some 0 => d
  | some 1 => d.chStart ch
  | some 2 => d.chPause ch
  | some 3 => d.chResume ch
  | some 4 => d.chReset ch
  | some _ => d.chReject ch

/-- XLT_INV_CMD of port p. -/
def Dev.invCmd (d : Dev) (p : Nat) (m v : Word) : Dev :=
  if d.halted || (act m v F.XLT_INV_CMD_KIND).isNone then d
  else
    let x := v &&& m
    let kind := getBits x 22 2
    if kind = 3 then d.invDiscard p
    else d.invAccept p kind (getBits x 0 16) (if kind = 0 then getBits x 16 6 else 12) (kind != 0 || getBits x 24 1 == 1)

/-- WIN_FN_CMD of function f: a write while BUSY is discarded whole (R153); HANDLE is the one in the register. -/
def Dev.winCmd (d : Dev) (f : Nat) (m v : Word) : Dev :=
  if d.halted then d
  else if d.flag F.WIN_FN_RESULT_BUSY f then d.winBusy f
  else
    let h := maskW 32 <<< 32
    let d := d.setReg R.WIN_FN_CMD f ((d.reg R.WIN_FN_CMD f &&& ~~~(m &&& h)) ||| (v &&& m &&& h))
    match act m v F.WIN_FN_CMD_OP with
    | some 1 => d.winOpen f
    | some 2 => d.winRevoke f (d.rd F.WIN_FN_CMD_HANDLE f)
    | some _ => d
    | none => d

/-- HST_FN_CTL.EN of function f. -/
def Dev.fnCtl (d : Dev) (f : Nat) (m v : Word) : Dev :=
  match act m v F.HST_FN_CTL_EN with
  | some 0 => d.fnEnClear f
  | some _ => d.fnEnSet f
  | none => d

/-- A one-bit field has risen or fallen by the write. -/
def rose (f : Fld) (old new : Word) : Bool := getBits old f.lo 1 == 0 && getBits new f.lo 1 == 1
def fell (f : Fld) (old new : Word) : Bool := getBits old f.lo 1 == 1 && getBits new f.lo 1 == 0

/-- SCH_GATE_CTL of port p: a write of EN = 0 disables; ARM, DISARM (R354). -/
def Dev.gateCtl (d : Dev) (p : Nat) (m v : Word) : Dev :=
  let new := d.reg R.SCH_GATE_CTL p
  let d := d.setReg R.SCH_GATE_CTL p (new &&& ~~~(6 : Word))
  let d := if act m v F.SCH_GATE_CTL_EN = some 0 then d.gateDisable p else d
  let d := if getBits new 1 1 == 1 then d.gateArm p else d
  if getBits new 2 1 == 1 then d.gateDisarm p else d

/-- GO: the request is in progress (R508). -/
def Dev.mbxGo (d : Dev) (m : Nat) : Dev := (d.wr F.BCP_MBX_CTL_GO m 0).wr F.BCP_MBX_STAT_BUSY m 1

/-- A GO while BUSY is ignored, with the fields written beside it, and sets OVERRUN (R508). -/
def Dev.mbxIgnores (d : Dev) (r i : Nat) (m v : Word) : Bool :=
  r == R.BCP_MBX_CTL && act m v F.BCP_MBX_CTL_GO == some 1 && d.flag F.BCP_MBX_STAT_BUSY i

/-- A change of XLT_CFG.MODE empties the caches that serve engine accesses, whose layout it changes (DESIGN CHOICE, log
entry 11). -/
def Dev.xltMode (d : Dev) : Dev := { d with xlt.l1i := [], xlt.l1d := [], xlt.part := [], xlt.l2 := [], xlt.wc := [] }

/-- Actions of the blocks of chapters 02 to 07. -/
def Dev.actEng (d : Dev) (r i : Nat) (m v : Word) (old : Word) : Dev :=
  if r = R.ENG_THR_CTL then (if act m v F.ENG_THR_CTL_RESTART = some 1 then d.thrRestart i else d)
  else if r = R.WQ_CTX_CTL then d.wqCtl i m v (getBits old 3 1)
  else if r = R.XLT_INV_CMD then d.invCmd i m v
  else if r = R.WIN_FN_CMD then d.winCmd i m v
  else if r = R.MTC_FN_CFG then (if fell F.MTC_FN_CFG_EN old (d.reg r i) then (d.wr F.MTC_FN_CFG_EN i 1).mtcDisable i else d)
  else if r = R.XLT_CFG then (if getBits old 0 1 = getBits (d.reg r i) 0 1 then d else d.xltMode)
  else if r = R.MTC_FN_RCQ then (if d.halted then d else (d.rcqGo i).mtcWake i)
  else if r = R.MTC_FN_RCQ_IDX then (if d.halted || (act m v F.MTC_FN_RCQ_IDX_CONS).isNone then d
    else d.rcqCons i (d.rd F.MTC_FN_RCQ_IDX_CONS i))
  else if r = R.COL_CTX_CTL then
    (if act m v F.COL_CTX_CTL_ABORT = some 1 && !d.halted then d.colFail i Status.COL_MEMBER_LOST else d)
  else d

/-- Actions of the blocks of chapters 08 to 12. -/
def Dev.actNet (d : Dev) (r i : Nat) (m v : Word) (old : Word) : Dev :=
  let new := d.reg r i
  if r = R.RTE_SEED then d.seedWrite new
  else if r = R.RTE_ID then d.rediscoverAll allPorts
  else if r = R.RTE_PORT_CTL then (if act m v F.RTE_PORT_CTL_REDISCOVER = some 1 then d.rediscover i else d)
  else if r = R.SCH_FN_CFG then
    let d := if act m v F.SCH_FN_CFG_SHAPE_EN = some 1 then d.shaperEnable i else d
    if act m v F.SCH_FN_CFG_METER_EN = some 1 then d.meterEnable i else d
  else if r = R.SCH_UDP then (if act m v F.SCH_UDP_EN = some 1 then d.udpEnable i else d)
  else if r = R.SCH_GATE_CTL then d.gateCtl i m v
  else if r = R.PRT_LNK_CTL then (if act m v F.PRT_LNK_CTL_DOWN = some 1 then d.linkDownCmd i else d)
  else if r = R.PRT_LNK_CREDIT then (d.reXoff i).reEff i
  else if r = R.PRT_LNK_CFG then d.reEff i
  else if r = R.PRT_LANE_CFG then
    (if fell F.PRT_LANE_CFG_EN old new then d.laneEnClear i
    else
      let d := d.laneCfg i (getBits old 1 2 != getBits new 1 2)
      if rose F.PRT_LANE_CFG_EN old new then d.laneEnSet i else d)
  else if r = R.PRT_LANE_CTL then
    let d := if act m v F.PRT_LANE_CTL_RETRAIN = some 1 then d.laneRetrain i else d
    (if act m v F.PRT_LANE_CTL_RECAL = some 1 then
      -- Whether the inputs are quiet is the line's (log entry 1).
      let (n, d) := d.pick 32
      d.laneRecal i ⟨n / 16 == 1, BitVec.ofNat 4 n⟩
    else d)
  else if r = R.ROPE_CFG then
    let d := if fell ⟨R.ROPE_CFG, 0, 1⟩ old new then d.ropeDown 0 else d
    (if fell ⟨R.ROPE_CFG, 1, 1⟩ old new then d.ropeDown 1 else d)
  else if r = R.TIME_SET then d.timeSet (v &&& m)
  else if r = R.TIME_CFG then
    let d := if rose F.TIME_CFG_PPS_EN old new then { d with time.ppsJump := true, time.ppsLocked := false } else d
    let d := if rose F.TIME_CFG_REF10M_EN old new then { d with time.tenLocked := false } else d
    (if act m v F.TIME_CFG_SERVO_EN = some 1 then d.servoEnable else d)
  else if r = R.HST_PORT_CFG then (if Tbl.get d.host.perstHigh false i then d else d.latch R.HST_PORT_CFG i)
  else if r = R.INT_TGT_COMPLETE then (match act m v F.INT_TGT_COMPLETE_NUMBER with
    | some n => d.intComplete i n
    | none => d)
  else if r = R.INT_TGT_SETPEND then (match act m v F.INT_TGT_SETPEND_NUMBER with
    | some n => d.raise i n
    | none => d)
  else if r = R.INT_TGT_CLRPEND then (match act m v F.INT_TGT_CLRPEND_NUMBER with
    | some n => d.setPend i ((d.pendOf i).erase n)
    | none => d)
  else if r = R.INT_TGT_CFG then d.settle i
  else if r = R.INT_TGT_EN then d.settle (i / 64)
  else d

/-- Who releases a Piton by a register write (R464): the debug port has no right. -/
def pitBy (rq : Req) (core fn : Nat) : Option Holder :=
  match rq with
  | .pf m => some (.host (pfOfMbx m))
  | .vf _ => none
  | .bcp => some (.thread core fn)
  | .dbg => none

/-- Actions of the blocks of chapters 13, 14 and 18. -/
def Dev.actMem (d : Dev) (rq : Req) (core r i : Nat) (m v : Word) (old : Word) : Dev :=
  if r = R.DMA_CH_CTL then d.chCtl i m v
  else if r = R.DMA_CH_RLIM then (if d.halted then d else d.chStep i)
  else if r = R.DMA_CL_CTL then (if act m v F.DMA_CL_CTL_CLEAR = some 1 then d.clClear i else d)
  else if r = R.DMA_CTR_VAL then
    (if d.halted then d
    else
      let n := d.rd F.DMA_CTR_SEL_CTR
      d.ctrSet n ((BitVec.ofNat 64 (d.ctrVal n) &&& ~~~m) ||| (v &&& m)).toNat)
  else if r = R.DMA_CTR_ADD then d.ctrAddWrite rq (getBits (v &&& m) 0 48)
  else if r = R.DMA_CTR_ARM1 then (if m.getLsbD 0 then d.ctrArm (getBits (v &&& m) 0 48) else d)
  else if r = R.PIT_LOCK then
    (if act m v F.PIT_LOCK_RELEASE != some 1 || d.halted then d
    else match pitBy rq core (d.thr core).fn with
      | some h => (d.pitRelease h i).1
      | none => d.pitMisuse)
  else if r = R.DEP_BUF_FREE then (if m.getLsbD 0 then d.free (getBits (v &&& m) 0 36) 4 (reqObj rq) else d)
  else if r = R.DEP_ACC_DATA then
    (if m = maskW 64 then d.accWrite rq v else if m = maskW 32 then d.accPart rq 0 v else d.accPart rq 4 (v >>> 32))
  else if r = R.PMC_RDR_CFG then
    (if rose F.PMC_RDR_CFG_EN old (d.reg r i) then d.pmcEnable true
    else if fell F.PMC_RDR_CFG_EN old (d.reg r i) then d.pmcEnable false else d)
  else if r = R.PMC_RDR_TRIG then (if act m v F.PMC_RDR_TRIG_SNAP = some 1 then d.pmcLatch else d)
  else d

/-- Actions of the blocks of chapters 15, 16 and 19. -/
def Dev.actMgmt (d : Dev) (r i : Nat) (m v : Word) : Dev :=
  if r = R.PWR_STATE then
    (if act m v F.PWR_STATE_ENTER_BIVOUAC = some 1 then (d.wr F.PWR_STATE_ENTER_BIVOUAC 0 0).enterBivouac.1 else d)
  else if r = R.PWR_MARGIN then d.marginWrite (d.rd F.PWR_MARGIN_SEL)
  else if r = R.BCP_MBX_CTL then (if act m v F.BCP_MBX_CTL_GO = some 1 then d.mbxGo i else d)
  else if r = R.FLT_TEST then (match act m v F.FLT_TEST_SRC with
    | some k => d.fltTest k
    | none => d)
  else d

/-- Registers that a write of their own command sets: their fields are not stored first. -/
def selfStored (r : Nat) : Bool :=
  r == R.WQ_CTX_PROD_SEQ || r == R.HST_FN_CTL || r == R.DMA_CTR_VAL || r == R.DEP_ACC_DATA

/-- The unit whose registers these are, where it may be gated: an access wakes it (R19). -/
def unitOf (r i : Nat) : Option Nat :=
  if r = R.ENG_THR_CTL then some (i / 64)
  else if R.DMA_CH_CFG ≤ r && r ≤ R.DMA_CH_RLIM then some (16 + i / 64)
  else if r = R.DMA_CL_CTL || r = R.DMA_CL_STAT || r = R.DMA_CL_ERR then some (16 + i)
  else none

def Dev.touch (d : Dev) (r i : Nat) : Dev :=
  match unitOf r i with
  | some u => d.wake u
  | none => d

/-- A mailbox is reached by its physical function, Basecamp and the debug port (R507). -/
def mbxMay (rq : Req) (r i : Nat) : Bool :=
  let m := if r = R.BCP_MBX_REQ || r = R.BCP_MBX_RSP then i / 16 else i
  if r = R.BCP_MBX_REQ || r = R.BCP_MBX_RSP || r = R.BCP_MBX_CTL || r = R.BCP_MBX_STAT then
    (match rq with
    | .pf n => n.val == m
    | .vf _ => false
    | .bcp => true
    | .dbg => true)
  else true

/-- A write of the bits `m` of a register: fields stored, then its actions. -/
def Dev.regPut (d : Dev) (rq : Req) (core r i : Nat) (m v : Word) : Dev :=
  if !mbxMay rq r i then d
  else if d.mbxIgnores r i m v then d.wr F.BCP_MBX_STAT_OVERRUN i 1
  else
    let m := match rq with
      | .vf _ => m &&& ~~~(vfFixed r)
      | _ => m
    let d := d.touch r i
    let old := d.reg r i
    let d := if r = R.RMA_CC_BASE then d.ccTick else d
    let d := if selfStored r then d else d.put r i m v
    if r = R.WQ_CTX_PROD_SEQ then (match act m v F.WQ_CTX_PROD_SEQ_PROD with
      | some n => d.qProdWrite i n
      | none => d)
    else if r = R.HST_FN_CTL then d.fnCtl i m v
    else (((d.actEng r i m v old).actNet r i m v old).actMem rq core r i m v old).actMgmt r i m v

/-! ### Reads -/

/-- What a read answers: a value, or nothing yet (a PIT_LOCK read that waits). -/
abbrev Read : Type := Dev × Option Word

/-- A PIT_LOCK read (R464, R466): a Basecamp core that must wait stalls; the debug port has no right. -/
def Dev.pitLockRead (d : Dev) (rq : Req) (core wd n : Nat) : Read :=
  match pitBy rq core (d.thr core).fn with
  | none => (d, some (BitVec.ofNat 64 Status.PIT_RIGHTS))
  | some h => match d.pitAcquire h n 0 true with
    | (d, some st) => (d, some (BitVec.ofNat 64 st))
    | (d, none) => match h with
      | .host f =>
        if 16 ≤ d.pitHostWaits (f / 256) then (d.bump F.PIT_STAT_HOST_BUSY, some (BitVec.ofNat 64 Status.BUSY))
        else (d.pitWait h n 0 0, none)
      | .thread th _ => ((d.pitWait h n 0 wd).stall th (.piton n wd d.ps), none)

/-- A register read with its effects (R597). -/
def Dev.regRead (d : Dev) (rq : Req) (core wd r i : Nat) : Read :=
  if !mbxMay rq r i then (d, some 0)
  else
    let d := d.touch r i
    if r = R.INT_TGT_CLAIM then (let (d, v) := d.claim i; (d, some (BitVec.ofNat 64 v)))
    else if r = R.TIME_NOW then (d.wr F.TIME_FRAC_FRAC 0 (d.ns16 % 2 ^ 16), some (BitVec.ofNat 64 d.ns))
    else if r = R.PIT_LOCK then d.pitLockRead rq core wd i
    else if r = R.DEP_BUF_ALLOC then (let (d, v) := d.swAlloc rq; (d, some (BitVec.ofNat 64 v)))
    else if r = R.DEP_ACC_DATA then (let (d, v) := d.accRead rq .none; (d, some (BitVec.ofNat 64 v)))
    else (d.readClears r i, some (d.view r i))

/-! ### Configuration transactions (R516 to R519, R598) -/

/-- The transaction of a requester; a virtual function has none. -/
def txnKey : Req → Option Nat
  | .pf m => some m
  | .vf _ => none
  | .bcp => some 8
  | .dbg => some 9

def State.txn (s : State) (k : Nat) : Txn := Tbl.get s.txns {} k
def State.setTxn (s : State) (k : Nat) (x : Txn) : State := { s with txns := Tbl.set {} k x s.txns }

/-- Registers held by open transactions together. -/
def heldTotal (t : Tbl Txn) : Nat := t.foldl (fun (n : Nat) (e : Nat × Txn) => n + e.2.held.length) 0

/-- Another requester's transaction holds register key `key`. -/
def heldBy (t : Tbl Txn) (k key : Nat) : Option Nat :=
  (t.find? (fun (e : Nat × Txn) => e.1 != k && Tbl.has e.2.held key)).map Prod.fst

/-- CONFLICT, with the offset of the first (R517). -/
def Txn.clash (x : Txn) (off : Nat) : Txn :=
  if x.conflict then x else { x with conflict := true, conf := off }

/-- BEGIN. -/
def State.txnBegin (s : State) (k : Nat) : State :=
  let x := s.txn k
  match x.phase with
  | .none => s.setTxn k { x with phase := .opened, status := 0, conflict := false, full := false, held := [], begun := s.dev.ps }
  | .opened => s.setTxn k { x with status := Status.TXN_CONFLICT }
  | .committing => s

/-- COMMIT: the values are applied, or refused, at TXN_APPLIED. -/
def State.txnCommit (s : State) (k : Nat) : State :=
  let x := s.txn k
  match x.phase with
  | .none => s.setTxn k { x with status := Status.TXN_NONE }
  | .opened => s.setTxn k { x with phase := .committing }
  | .committing => s

/-- ROLLBACK. -/
def State.txnRollback (s : State) (k : Nat) : State :=
  let x := s.txn k
  match x.phase with
  | .none => s.setTxn k { x with status := Status.TXN_NONE }
  | .opened => s.setTxn k (x.over 0)
  | .committing => s

/-- Held values take effect at one instant. -/
def Dev.applyHeld (d : Dev) (t : Tbl (Word × Word)) : Dev :=
  let d := t.foldl (fun d (e : Nat × Word × Word) =>
    d.setReg (e.1 % 256) (e.1 / 256) ((d.reg (e.1 % 256) (e.1 / 256) &&& ~~~e.2.1) ||| (e.2.2 &&& e.2.1))) d
  if Tbl.has t R.RTE_ID then d.rediscoverAll allPorts else d

/-- TXN_APPLIED (R518). -/
def State.txnApplied (s : State) (k : Nat) : State :=
  let x := s.txn k
  match x.phase with
  | .none => s
  | .opened => s
  | .committing =>
    if x.conflict || x.full then s.setTxn k (x.over Status.TXN_CONFLICT)
    else { s with dev := s.dev.applyHeld x.held }.setTxn k (x.over Status.OK)

/-- When an open transaction's time limit ends: a limit of 0 acts as 1. -/
def Txn.due (x : Txn) : Nat := x.begun + msPs (max 1 x.timeoutMs)

/-- TXN_TIMEOUT. -/
def State.txnTimeout (s : State) (k : Nat) : State :=
  let x := s.txn k
  match x.phase with
  | .none => s
  | .opened => { s with dev := s.dev.advanceTo x.due }.setTxn k (x.over Status.TXN_NONE)
  | .committing => s

/-- GLB_TXN_STAT of a transaction. -/
def Txn.stat (x : Txn) : Word :=
  let st := match x.phase with
    | .none => 0
    | .opened => 1
    | .committing => 2
  putAll 0 [(F.GLB_TXN_STAT_STATE, st), (F.GLB_TXN_STAT_CONFLICT, if x.conflict then 1 else 0),
            (F.GLB_TXN_STAT_FULL, if x.full then 1 else 0), (F.GLB_TXN_STAT_STATUS, x.status),
            (F.GLB_TXN_STAT_STAGED, x.held.length)]

/-- A staged write inside its own open transaction (R516, R517). -/
def State.stage (s : State) (k key off : Nat) (m v : Word) : State :=
  let x := s.txn k
  if (heldBy s.txns k key).isSome then s.setTxn k (x.clash off)
  else match Tbl.find x.held key with
    | some (m0, v0) => s.setTxn k { x with held := Tbl.put key (m0 ||| m, (v0 &&& ~~~m) ||| (v &&& m)) x.held }
    | none =>
      if 4096 ≤ heldTotal s.txns then s.setTxn k { x with full := true }
      else s.setTxn k { x with held := Tbl.put key (m, v &&& m) x.held }

/-- A write outside any transaction marks the transactions of others that hold the register (R517). -/
def markHolders (t : Tbl Txn) (k key off : Nat) : Tbl Txn :=
  t.map (fun (e : Nat × Txn) => if e.1 != k && Tbl.has e.2.held key then (e.1, e.2.clash off) else e)

/-- A write of GLB_TXN_CTL or GLB_TXN_CFG by requester k. -/
def State.txnWrite (s : State) (k r : Nat) (m v : Word) : State :=
  if r = R.GLB_TXN_CFG then
    (match act m v F.GLB_TXN_CFG_TIMEOUT_MS with
    | some n => s.setTxn k { s.txn k with timeoutMs := n }
    | none => s)
  else if r = R.GLB_TXN_CTL then
    (match act m v F.GLB_TXN_CTL_CMD with
    | some 1 => s.txnBegin k
    | some 2 => s.txnCommit k
    | some 3 => s.txnRollback k
    | some _ => s
    | none => s)
  else s

/-! ### An access by a requester (R595 to R598) -/

def isTxnReg (r : Nat) : Bool := r == R.GLB_TXN_CTL || r == R.GLB_TXN_STAT || r == R.GLB_TXN_CONF || r == R.GLB_TXN_CFG

/-- The register that a requester's offset reaches. -/
def Dev.locate (d : Dev) (rq : Req) (a : Nat) : Option (Nat × Nat) :=
  match rq with
  | .vf f => d.vfAt f (a / 8 * 8)
  | _ => regAt (a / 8 * 8)

/-- A write that has passed its gate: `core` is the Basecamp core that makes it. -/
def State.regWrite (s : State) (rq : Req) (core a n : Nat) (v : Word) : State :=
  match s.dev.locate rq a with
  | none => s
  | some (r, i) =>
    let m := accessMask a n
    let v := accessData a n v
    match txnKey rq with
    | none => { s with dev := s.dev.regPut rq core r i m v }
    | some k =>
      if isTxnReg r then s.txnWrite k r m v
      else
        let held := stagedMask r &&& m
        if stagedMask r = 0 then { s with dev := s.dev.regPut rq core r i m v }
        else if (s.txn k).phase = .opened then
          if held = 0 && (heldBy s.txns k (i * 256 + r)).isNone then s else s.stage k (i * 256 + r) (a / 8 * 8) held v
        else { s with dev := s.dev.regPut rq core r i m v, txns := markHolders s.txns k (i * 256 + r) (a / 8 * 8) }

/-- A read that has passed its gate. -/
def State.regRead (s : State) (rq : Req) (core wd a : Nat) : Dev × Option Word :=
  match s.dev.locate rq a with
  | none => (s.dev, some 0)
  | some (r, i) =>
    match txnKey rq with
    | none => s.dev.regRead rq core wd r i
    | some k =>
      if r = R.GLB_TXN_STAT then (s.dev, some (s.txn k).stat)
      else if r = R.GLB_TXN_CONF then (s.dev, some (BitVec.ofNat 64 (s.txn k).conf))
      else if r = R.GLB_TXN_CFG then (s.dev, some (BitVec.ofNat 64 (s.txn k).timeoutMs))
      else s.dev.regRead rq core wd r i

/-- An access that is not of 4 or 8 aligned bytes (R438). -/
def Dev.badAccess (d : Dev) (rq : Req) : Dev :=
  match rq with
  | .pf m => (d.bump F.HST_PORT_ERR_UR (m / 2)).emit .unsupported
  | .vf f => (d.bump F.HST_PORT_ERR_UR (f / 256)).emit .unsupported
  | .bcp => d
  | .dbg => d.emit .unsupported

/-- The part of a register's value that a read covers. -/
def accessPart (a n : Nat) (v : Word) : Nat := if n = 8 then v.toNat else getBits v (a % 8 * 8) 32

/-- What a register access sets free goes on; transactions follow their functions, the device and its power. -/
def State.settled (old : Dev) (s : State) : State :=
  let d := s.dev.flushLost
  let d := if d.halted then d else d.rmaGo
  { s with
    dev := d
    txns := if d.pwr.state = .bivouac then [] else dropDrained old d s.txns
    tap := if d.pwr.state = .bivouac then {} else s.tap }

/-- REG_WRITE. -/
def State.write (s : State) (rq : Req) (a n : Nat) (v : Word) : State :=
  if !s.dev.reaches rq then s
  else if !accessOk a n then { s with dev := s.dev.badAccess rq }
  else match s.dev.reqGate rq a n 2 with
    | (d, false) => { s with dev := d }
    | (d, true) => State.settled s.dev ({ s with dev := d }.regWrite rq 1024 a n v)

/-- READ_CLEAR, and a read of any register. -/
def State.read (s : State) (rq : Req) (a n : Nat) : State :=
  if !s.dev.reaches rq then s
  else if !accessOk a n then { s with dev := s.dev.badAccess rq }
  else match s.dev.reqGate rq a n 1 with
    | (d, false) => { s with dev := d }
    | (d, true) =>
      let (d, v) := { s with dev := d }.regRead rq 1024 0 a
      let d := match v with
        | some v => d.emit (.readValue (accessPart a n v))
        | none => d
      State.settled s.dev { s with dev := d }

/-- A command of requester r's transaction, made through its register at offset `a`. -/
def onTxn (s : State) (r : Req) (a : Nat) (f : State → Nat → State) : Host.Outcome State Fault Refusal :=
  match txnKey r with
  | none => .next s
  | some k =>
    if !s.dev.reaches r then .next s
    else match s.dev.reqGate r a 8 2 with
      | (d, false) => .next { s with dev := d }
      | (d, true) => .next (f { s with dev := d } k)

def execTxnBegin (r : Req) (s : State) : Host.Outcome State Fault Refusal := onTxn s r 0x100 State.txnBegin
def execTxnCommit (r : Req) (s : State) : Host.Outcome State Fault Refusal := onTxn s r 0x100 State.txnCommit
def execTxnRollback (r : Req) (s : State) : Host.Outcome State Fault Refusal := onTxn s r 0x100 State.txnRollback
def execTxnApplied (r : Req) (s : State) : Host.Outcome State Fault Refusal :=
  match txnKey r with
  | none => .next s
  | some k => .next (if s.dev.dark then s else s.txnApplied k)
def execTxnTimeout (r : Req) (s : State) : Host.Outcome State Fault Refusal :=
  match txnKey r with
  | none => .next s
  | some k => .next (if s.dev.dark then s else s.txnTimeout k)

/-! ### ld.p, st.p (R51, R52, R595) -/

/-- An address of a Basecamp core that names the register space. -/
def regSpace (th a : Nat) : Bool := isCore th && a / 2 ^ 28 == 2 ^ 36 - 1

/-- The output gate before an untranslated access (R485, R489). -/
def Dev.hostOk (d : Dev) (th a need : Nat) (k : Unit → IRes) : IRes :=
  let g := 18 + (d.thr th).fn / 256
  match d.gateFail g (d.classOf th) (d.gateFn th) a 8 need with
  | some b => d.gateTrap th g b
  | none => k ()

/-- Gate 1 before a core's access of the register space. -/
def Dev.spaceOk (d : Dev) (th a need : Nat) (k : Unit → IRes) : IRes :=
  match d.gateFail 1 4 none (a % 2 ^ 28) 8 need with
  | some b => d.gateTrap th 1 b
  | none => k ()

/-- A core's read of the register space, completed or waiting for a Piton. -/
def State.coreRead (s : State) (th wd a : Nat) : IRes :=
  match s.regRead .bcp th wd (a % 2 ^ 28) with
  | (d, some v) => .next (d.setW th wd (mkWord v 0))
  | (d, none) => .done d

/-- ld.p. -/
def State.loadP (s : State) (th : Nat) (f : FmtI) (ext : Ext) (d : Dev) : IRes :=
  noPoison d th [f.wa.toNat] (fun _ =>
    let a := d.eaOf th f ext
    aligned a 8 (fun _ =>
      if regSpace th a then d.spaceOk th a 1 (fun _ => { s with dev := d }.coreRead th f.wd.toNat a)
      else d.hostOk th a 1 (fun _ =>
        let (d, tag) := d.hostRead (d.thr th).fn a 8 (.load th 0)
        match tag with
        | some tag => .done (d.stall th (.load tag f.wd.toNat a 8 0 0 0))
        | none => .trapIn d tcBus (BitVec.ofNat 64 a))))

def execLdP (th : Tid) (f : FmtI) (ext : Ext) (s : State) : Host.Outcome State Fault Refusal :=
  onDev s (fun d => d.issueI 0x38 th f ext false (s.loadP th f ext) (sup := true))

/-- The register write that a core's st.p makes, if the instruction issues and passes its checks. -/
def State.coreWrites (s : State) (th : Nat) (f : FmtI) (ext : Ext) : Option (Nat × Word) :=
  let d := s.dev
  let a := d.eaOf th f ext
  if regSpace th a && d.ready th && guardOk (d.thr th) f.guard.toNat && (d.thr th).priv &&
     ((d.thr th).poisonIn [f.wa.toNat, f.wd.toNat]).isNone && a % 8 = 0 && (d.gateFail 1 4 none (a % 2 ^ 28) 8 2).isNone
  then some (a % 2 ^ 28, TWord.val ((d.thr th).reg f.wd.toNat)) else none

/-- st.p. -/
def State.storeP (s : State) (th : Nat) (f : FmtI) (ext : Ext) (d : Dev) : IRes :=
  noPoison d th [f.wa.toNat, f.wd.toNat] (fun _ =>
    let a := d.eaOf th f ext
    aligned a 8 (fun _ =>
      if regSpace th a then d.spaceOk th a 2 (fun _ =>
        .next ({ s with dev := d }.regWrite .bcp th (a % 2 ^ 28) 8 (TWord.val ((d.thr th).reg f.wd.toNat))).dev)
      else d.hostOk th a 2 (fun _ =>
        .next (d.hostWrite (d.thr th).fn a 8 (TWord.val ((d.thr th).reg f.wd.toNat)).toNat))))

def execStP (th : Tid) (f : FmtI) (ext : Ext) (s : State) : Host.Outcome State Fault Refusal :=
  let d := s.dev.issueI 0x39 th f ext false (s.storeP th f ext) (sup := true)
  match s.coreWrites th f ext with
  | none => .next { s with dev := d }
  | some (a, v) => .next (State.settled s.dev { (s.regWrite .bcp th a 8 v) with dev := d })

end Sys2Proof.Machine
end

