-- ==== Sys2Proof/Machine/Mailbox.lean ====
section
/-! DEFINITION. The mailboxes' requests as firmware serves them (R508, R509), the board management controller (R510),
exception records (R511, R512) and the CTL ring (R513 to R515). -/

namespace Sys2Proof.Machine

/-! ### A request (R508) -/

/-- Request word w of mailbox m. -/
def Dev.mbxWord (d : Dev) (m w : Nat) : Nat := (d.reg R.BCP_MBX_REQ (m * 16 + w)).toNat

/-- Who serves opcode `op`: the running firmware, or in NO_IMAGE the boot ROM, for three opcodes (R505). -/
def Dev.serves (d : Dev) (op : Nat) : Bool :=
  d.fwRuns || (!d.dark && d.rd F.BCP_FW_STAT_STATE == 4 && (op == 1 || op == 3 || op == 4))

/-- Mailbox m holds a request of an opcode that `is` admits, and someone serves it. -/
def Dev.mbxWaits (d : Dev) (m : Nat) (is : Nat → Bool) : Bool :=
  d.flag F.BCP_MBX_STAT_BUSY m && is (d.rd F.BCP_MBX_CTL_OPCODE m) && d.serves (d.rd F.BCP_MBX_CTL_OPCODE m)

/-- The request ends without being executed. -/
def Dev.mbxEnd (d : Dev) (m : Nat) : Dev :=
  let d := d.wr F.BCP_MBX_STAT_BUSY m 0
  if d.flag F.BCP_MBX_CTL_INT_EN m then d.raise (pfOfMbx m) (d.rd F.BCP_MBX_CTL_INT_NUM m) else d

/-- How SEQ judges a request. -/
inductive Judge where | execute | repeated | wrong
deriving DecidableEq, Repr

def judgeSeq (seq done : Nat) : Judge :=
  if seq = (done + 1) % 2 ^ 16 then .execute else if seq = done then .repeated else .wrong

/-- A request judged by SEQ and, where it is new, executed. -/
def Dev.mbxServe (d : Dev) (m : Nat) (is : Nat → Bool) (f : Dev → Dev) : Dev :=
  if !d.mbxWaits m is then d
  else match judgeSeq (d.rd F.BCP_MBX_CTL_SEQ m) (d.rd F.BCP_MBX_STAT_DONE_SEQ m) with
    | .execute => f d
    | .repeated => d.mbxEnd m
    | .wrong => (d.wr F.BCP_MBX_STAT_STATUS m Status.MBX_SEQ).mbxEnd m

def onMbx (s : State) (m op : Nat) (f : Dev → Dev) : Host.Outcome State Fault Refusal :=
  onPower s (fun d => d.mbxServe m (fun o => o == op) f)

/-! ### The opcodes (R509) -/

def Dev.mbxGetInfo (d : Dev) (m : Nat) : Dev := d.mbxDone m Status.OK [d.view R.BCP_FW_STAT 0, d.view R.GLB_ID 0]
def execMbxGetInfo (m : Fin 8) (s : State) : Host.Outcome State Fault Refusal := onMbx s m 1 (fun d => d.mbxGetInfo m)

/-- Offsets that GATE_WRITE may name. -/
def gateOffset (a : Nat) : Bool :=
  (0x1700000 ≤ a && a < 0x1800000) || a == 0x1600008 || (0x1600040 ≤ a && a < 0x1600068)

/-- The offset and value pairs of a GATE_WRITE. -/
def Dev.gatePairs (d : Dev) (m : Nat) : List (Nat × Word) :=
  (List.range (min 7 (d.mbxWord m 0))).map (fun k => (d.mbxWord m (2 * k + 1), d.reg R.BCP_MBX_REQ (m * 16 + 2 * k + 2)))

/-- GATE_WRITE: a transaction of Basecamp. Firmware policy is the firmware's (log entry 31). -/
def State.mbxGateWrite (s : State) (m : Nat) : State :=
  let n := s.dev.mbxWord m 0
  let l := s.dev.gatePairs m
  let (p, d) := s.dev.pick 2
  let s := { s with dev := d }
  if n = 0 || 7 < n || l.any (fun e => !gateOffset e.1 || e.1 % 8 != 0) || p = 1 ||
     l.any (fun e => (s.dev.gateFail 1 4 none e.1 8 2).isSome) then
    { s with dev := s.dev.mbxDone m Status.ARG [] }
  else
    let s := (l.foldl (fun s (e : Nat × Word) => s.regWrite .bcp 1024 e.1 8 e.2) (s.txnBegin 8)).txnCommit 8 |>.txnApplied 8
    { s with dev := s.dev.mbxDone m (s.txn 8).status [] }

/-- A request waits while a transaction of Basecamp is open. -/
def execMbxGateWrite (m : Fin 8) (s : State) : Host.Outcome State Fault Refusal :=
  let d := s.dev
  if d.mbxWaits m (fun o => o == 2) &&
     judgeSeq (d.rd F.BCP_MBX_CTL_SEQ m) (d.rd F.BCP_MBX_STAT_DONE_SEQ m) = .execute then
    (if (s.txn 8).phase = .none then .next (State.settled s.dev (s.mbxGateWrite m)) else .next s)
  else onMbx s m 2 id

/-- FW_STAGE: the window's checks, then the image is read through it, part by part (Dev.stageStep). A request waits while
another image is being staged; the reads that safe state has discarded end it (log entry 31). -/
def Dev.mbxStage (d : Dev) (m : Nat) : Dev :=
  match d.bcp.stage with
  | some j => if j.mbx = m && d.halted then d.stageStop Status.HOST_ERROR else d
  | none =>
    if 2 ^ 23 < d.mbxWord m 2 then d.mbxDone m Status.ARG []
    else
      let (d, st) := d.winUse (d.mbxWord m 0) (localPeer (pfOfMbx m) true) rLR (d.mbxWord m 1) (d.mbxWord m 2)
      if st != 0 then d.mbxDone m st []
      else { d with bcp.stage := some { mbx := m, win := d.mbxWord m 0, off := d.mbxWord m 1, len := d.mbxWord m 2 } }.stageStep
def execMbxFwStage (m : Fin 8) (s : State) : Host.Outcome State Fault Refusal := onMbx s m 3 (fun d => d.mbxStage m)

/-- FW_ACTIVATE: answered by the firmware that follows (FW_READY); in NO_IMAGE the boot ROM starts the image (R505). -/
def Dev.mbxActivate (d : Dev) (m : Nat) : Dev :=
  let n := d.nextSlot
  let e := (d.loadNext n).1
  if !(d.loadNext n).2 then e.mbxDone m Status.AUTH_FAIL []
  else if e.rd F.BCP_FW_STAT_STATE = 4 then (e.startImage n (1 - e.bcp.region)).loadBoard.mbxDone m Status.OK [0]
  else e.blackout n (some m)
def execMbxFwActivate (m : Fin 8) (s : State) : Host.Outcome State Fault Refusal := onMbx s m 4 (fun d => d.mbxActivate m)

def Dev.mbxRollback (d : Dev) (m : Nat) : Dev :=
  { d with bcp.rollback := max d.bcp.rollback d.bcp.runRollback }.mbxDone m Status.OK []
def execMbxFuseRollback (m : Fin 8) (s : State) : Host.Outcome State Fault Refusal := onMbx s m 5 (fun d => d.mbxRollback m)

def Dev.mbxRevoke (d : Dev) (m : Nat) : Dev :=
  let k := d.mbxWord m 0
  if 3 < k || k = (d.slotImage (d.rd F.BCP_FW_STAT_SLOT)).keyIdx then d.mbxDone m Status.ARG []
  else (if d.bcp.revoked.contains k then d else { d with bcp.revoked := k :: d.bcp.revoked }).mbxDone m Status.OK []
def execMbxKeyRevoke (m : Fin 8) (s : State) : Host.Outcome State Fault Refusal := onMbx s m 6 (fun d => d.mbxRevoke m)

/-- The byte of a module's page that `key` names: what the module holds is its own until it is written (log entry 31). -/
def Dev.cmisByte (d : Dev) (key : Nat) : Nat × Dev :=
  match Tbl.find d.bcp.cmis key with
  | some b => (b, d)
  | none =>
    let (w, d) := d.freeWord
    (w.toNat % 256, d)

/-- `n` bytes from `key` on, lowest first. -/
def Dev.cmisRead (d : Dev) (key : Nat) : Nat → Nat × Dev
  | 0 => (0, d)
  | n + 1 =>
    let (v, d) := d.cmisRead key n
    let (b, d) := d.cmisByte (key + n)
    (v + b * 2 ^ (8 * n), d)

/-- MODULE_PAGE: word 0 holds port, page, bank, offset and length in its bytes from the lowest, and bit 40 the write flag;
words 1 to 8 hold 64 bytes, lowest first (log entry 31). CDB commands, module firmware update with them, are accesses of page
9Fh (R410). -/
def Dev.mbxModule (d : Dev) (m : Nat) : Dev :=
  let w := d.reg R.BCP_MBX_REQ (m * 16)
  let p := getBits w 0 8
  let off := getBits w 24 8
  let n := getBits w 32 8
  let key := p * 2 ^ 24 + getBits w 16 8 * 2 ^ 16 + getBits w 8 8 * 2 ^ 8 + off
  if !allPorts.contains p || !d.flag F.PRT_MOD_STAT_PRESENT p || n = 0 || 64 < n || 256 < off + n then d.mbxDone m Status.ARG []
  else if w.getLsbD 40 then
    let d := (List.range n).foldl (fun d i =>
      { d with bcp.cmis := Tbl.put (key + i) (bitsOf (d.mbxWord m (1 + i / 8)) (8 * (i % 8)) 8) d.bcp.cmis }) d
    let v := (List.range n).foldl (fun v i => v + bitsOf (d.mbxWord m (1 + i / 8)) (8 * (i % 8)) 8 * 2 ^ (8 * i)) 0
    (d.modXfer p true (getBits w 16 8) (getBits w 8 8) off n v).mbxDone m Status.OK []
  else
    let (v, d) := d.cmisRead key n
    let d := d.modXfer p false (getBits w 16 8) (getBits w 8 8) off n v
    d.mbxDone m Status.OK ((List.range ((n + 7) / 8)).map (fun i => BitVec.ofNat 64 (bitsOf v (64 * i) 64)))
def execMbxModulePage (m : Fin 8) (s : State) : Host.Outcome State Fault Refusal := onMbx s m 7 (fun d => d.mbxModule m)

/-- PARAM: word 0 holds the entry in [7:0] and the write flag in bit 8 (log entry 31). Entry 240 holds the last Whiteout's
source, in the form of FLT_WO_LOG, and its time; a write clears it (R541). -/
def Dev.mbxParam (d : Dev) (m : Nat) : Dev :=
  let w := d.reg R.BCP_MBX_REQ (m * 16)
  let e := getBits w 0 8
  if e = 240 then
    (if w.getLsbD 8 then { d with pwr.woLog := none, bcp.params := Tbl.del 240 d.bcp.params }.mbxDone m Status.OK []
    else match d.pwr.woLog with
      | some (src, t) => d.mbxDone m Status.OK [BitVec.ofNat 64 (src + 64), BitVec.ofNat 64 t]
      | none => d.mbxDone m Status.OK [0, 0])
  else if w.getLsbD 8 then
    { d with bcp.params := Tbl.set 0 e (d.reg R.BCP_MBX_REQ (m * 16 + 1)) d.bcp.params }.mbxDone m Status.OK []
  else d.mbxDone m Status.OK [Tbl.get d.bcp.params 0 e]
def execMbxParam (m : Fin 8) (s : State) : Host.Outcome State Fault Refusal := onMbx s m 8 (fun d => d.mbxParam m)

/-- BIVOUAC: the entry takes the mailbox with it; refused, it answers ARG (R529). -/
def Dev.mbxBivouac (d : Dev) (m : Nat) : Dev :=
  match d.enterBivouac with
  | (d, true) => d
  | (d, false) => d.mbxDone m Status.ARG []
def execMbxBivouac (m : Fin 8) (s : State) : Host.Outcome State Fault Refusal := onMbx s m 9 (fun d => d.mbxBivouac m)

/-- An opcode that R509 does not list. -/
def execMbxOtherOpcode (m : Fin 8) (s : State) : Host.Outcome State Fault Refusal :=
  onPower s (fun d => d.mbxServe m (fun o => o == 0 || decide (9 < o)) (fun d => d.mbxDone m Status.ARG []))

/-! ### The board management controller (R510, R521) -/

def Dev.pldm (d : Dev) : Dev :=
  if !d.dark && d.bcp.swap.isSome then (if d.bcp.mctp < 16 then { d with bcp.mctp := d.bcp.mctp + 1 } else d)
  else if d.fwRuns then d.pldmServe else d
def execPldmMessage (s : State) : Host.Outcome State Fault Refusal := onPower s Dev.pldm

/-- The ordering code in the fuses (log entry 7), one character a byte. -/
def orderingCode : Nat := "LU4-4-64-C-A1".toList.foldl (fun n c => n * 256 + c.toNat) 0

/-- The sideband answers whenever VAON is present. -/
def Dev.sideband (d : Dev) : Dev :=
  if d.pwr.state = .off then d else (d.emit (.board 2 (d.view R.GLB_ID 0).toNat)).emit (.board 3 orderingCode)
def execSidebandRead (s : State) : Host.Outcome State Fault Refusal := onDev s Dev.sideband

/-! ### Identification on PCIe (R426, R427) -/

/-- The identification registers of function f, and what its vendor-specific capability holds. -/
structure PciId where
  vendor : Nat
  device : Nat
  classCode : Nat
  revision : Nat
  subVendor : Nat
  subsystem : Nat
  ordering : Nat
deriving DecidableEq, Repr

def Dev.pciId (d : Dev) (f : Nat) : PciId :=
  { vendor := Config.vendorId.toNat
    device := if d.isPf f then 0x4C40 else 0x4C41
    classCode := 0x028000
    revision := d.rd F.GLB_ID_REV_LETTER * 16 + d.rd F.GLB_ID_REV_DIGIT
    subVendor := bitsOf d.bcp.subsys 0 16
    subsystem := bitsOf d.bcp.subsys 16 16
    ordering := orderingCode }

/-! ### Exception records (R512) -/

/-- The reply that a record asks for: a control-message event at its slot and entry. -/
def ExcRec.reply (x : ExcRec) (status value : Word) : Option Event :=
  let w := x.words.headD 0
  if w.getLsbD 16 then
    some { slot := getBits w 17 10, entry := getBits w 27 4, fn := x.fn, kind := 4, w1 := 0xFFFE, w2 := x.words.getD 1 0,
           w3 := status, w4 := value }
  else none

/-- Firmware serves function f's oldest record. -/
def Dev.excServe (d : Dev) (f : Nat) (status value : Word) : Dev :=
  match d.bcp.exc.find? (fun e => e.fn == f) with
  | none => d
  | some x =>
    if !d.fwRuns then d
    else
      let d := { d with bcp.exc := d.bcp.exc.erase x }
      match x.reply status value with
      | some e => d.raiseEvent e
      | none => d
def execExcServe (fn : Fid) (status value : Word) (s : State) : Host.Outcome State Fault Refusal :=
  onDev s (fun d => d.excServe fn status value)

/-! ### The CTL ring (R513 to R515) -/

/-- Word k of a cell's payload. -/
def payWord (c : Cell) (k : Nat) : Word := BitVec.ofNat 64 (bitsOf c.pay.toNat (64 * k) 64)

/-- A received cell of a function type (R514). -/
def CtlEnt.forFn (e : CtlEnt) : Bool := e.kind == 1 && 0x8000 ≤ getBits (payWord e.cell 0) 0 16

/-- The event that a cell of a function type raises. -/
def Dev.ctlEvent (d : Dev) (c : Cell) : Event :=
  let f := c.dstFn
  let ty := BitVec.ofNat 64 (getBits (payWord c 0) 0 16)
  if d.flag F.BCP_FN_CTLEV_EN f then
    { slot := d.rd F.BCP_FN_CTLEV_SLOT f, entry := d.rd F.BCP_FN_CTLEV_ENTRY f, fn := f, kind := 4, w1 := ty,
      w2 := payWord c 0, w3 := payWord c 1, w4 := payWord c 2 }
  else
    { slot := d.rd F.ENG_FN_TRAP_SLOT f, entry := 0, fn := f, kind := 5, w1 := BitVec.ofNat 64 tcCtl, w2 := ty, w3 := 0, w4 := 0 }

/-- Firmware takes entries of its own, the oldest first; how many is its choice (log entry 1). -/
def Dev.fwTake (d : Dev) : Dev :=
  if !d.fwRuns then d
  else
    let own := d.bcp.ring.filter (fun e => !e.forFn)
    let (n, d) := d.pick (own.length + 1)
    { d with bcp.ring := d.bcp.ring.filter (fun e => !(own.take n).contains e) }

/-- The dispatcher takes the oldest entry of a function type; an event for which no cluster has room waits in the ring. -/
def Dev.ctlDispatch (d : Dev) : Dev :=
  match d.bcp.ring.find? CtlEnt.forFn with
  | none => d
  | some e =>
    if d.dark then d
    else
      let freed := fun (d : Dev) => { d with bcp.ring := d.bcp.ring.erase e }
      if !d.fnOn e.cell.dstFn then (freed d).bump F.BCP_CTL_STAT_FN_DROP
      else
        let (d, ok) := d.placeEvent (d.ctlEvent e.cell)
        if ok then freed d else d
def execCtlDispatch (s : State) : Host.Outcome State Fault Refusal := onDev s (fun d => d.fwTake.ctlDispatch)

/-- Basecamp firmware sends a CTL cell, where its queue of 512 has room (R515), and the ring a reserved place for the completion
(R513; log entry 36); it enters the fabric in phase 0 with VIA_GROUP 0xFFF, HOPS and CMARK 0 (R309). -/
def Dev.ctlSend (d : Dev) (c : Cell) : Dev :=
  if !d.fwRuns || 512 ≤ d.bcp.ctlOut + (d.bcp.ring.filter (fun e => e.kind == 2)).length then d
  else
    let c := (((c.setBits 44 4 12).setBits 32 12 0xFFF).setBits 28 4 0).setBits 26 2 0
    let t : TxCell := { cell := c, fn := c.dstFn, cls := 3, retx := false, slot := none, own := true, col := none, last := true }
    { d with sch.ctl := d.sch.ctl ++ [t], bcp.ctlOut := d.bcp.ctlOut + 1 }
def execCtlSend (c : Cell) (s : State) : Host.Outcome State Fault Refusal := onDev s (fun d => d.ctlSend c)

end Sys2Proof.Machine
end

