-- ==== Sys2Proof/Machine/Host.lean ====
section
/-! DEFINITION. The configuration space and BAR4 of a function (R426, R427, R429, R430, R436, R441, R501), the debug port's
accesses of on-die memories (R485, R492), and the commands that access a register wherever it stands. -/

namespace Sys2Proof.Machine

/-! ### Configuration space -/

/-- Function f exists on PCIe (R432). -/
def Dev.fnExists (d : Dev) (f : Nat) : Bool := d.isPf f || d.vfPresent f

/-- Its extended capabilities (R426), as identifier and version, 0x80 bytes each from 0x100 on; SR-IOV on a physical function
alone. Identifiers are PCIe's; their places are the model's (log entry 37). -/
def Dev.extCaps (d : Dev) (f : Nat) : List (Nat × Nat) :=
  [(0x0001, 2), (0x000E, 1), (0x000D, 1), (0x0003, 1), (0x0019, 1), (0x0025, 1), (0x0026, 1), (0x0027, 1), (0x002A, 1), (0x0031, 1),
   (0x000B, 1)] ++ if d.isPf f then [(0x0010, 1)] else []

/-- Place of the vendor-specific capability, and of SR-IOV. -/
abbrev vsecAt : Nat := 0x100 + 0x80 * 10
abbrev sriovAt : Nat := 0x100 + 0x80 * 11

/-- Configuration words that the extended capabilities hold: their headers; ACS, which reports no peer-to-peer path;
SR-IOV's VF Enable, TotalVFs and NumVFs, First VF Offset and VF Stride (R432), VF Device ID (R427); the vendor-specific
capability's silicon revision and ordering code. -/
def Dev.extWords (d : Dev) (f : Nat) : List (Nat × Nat) :=
  let l := d.extCaps f
  ((List.range l.length).map (fun k =>
    let e := l.getD k (0, 0)
    (0x100 + 0x80 * k, e.1 + e.2 * 2 ^ 16 + (if k + 1 < l.length then 0x100 + 0x80 * (k + 1) else 0) * 2 ^ 20))) ++
  [(0x204, 0),
   (vsecAt + 4, 0x01C * 2 ^ 20), (vsecAt + 8, (d.pciId f).revision), (vsecAt + 12, bitsOf orderingCode 0 32),
   (vsecAt + 16, bitsOf orderingCode 32 32), (vsecAt + 20, bitsOf orderingCode 64 32), (vsecAt + 24, bitsOf orderingCode 96 32)] ++
  if d.isPf f then
    [(sriovAt + 8, if Tbl.get d.host.vfe false f then 1 else 0), (sriovAt + 12, d.totalVfs f * (1 + 2 ^ 16)),
     (sriovAt + 16, Tbl.get d.host.numVfs 0 f), (sriovAt + 20, 1 + 2 ^ 16), (sriovAt + 24, 0x4C41 * 2 ^ 16)]
  else []

/-- Configuration words of the header and of the capabilities below 0x100: PCI Express at 0x40, power management at 0x80,
MSI-X at 0x90 (R426, R427, R429, R430, R436, R441). -/
def Dev.cfgWords (d : Dev) (f : Nat) : List (Nat × Nat) :=
  let x := d.pciId f
  let p := f / 256
  let link := d.linkOf f % 2
  let rate := d.rd (if link = 0 then F.HST_PORT_STAT_RATE0 else F.HST_PORT_STAT_RATE1) p
  let width := d.rd (if link = 0 then F.HST_PORT_STAT_WIDTH0 else F.HST_PORT_STAT_WIDTH1) p
  let one := fun (b : Bool) (k : Nat) => if b then 2 ^ k else 0
  [(0x00, x.vendor + x.device * 2 ^ 16), (0x04, one (Tbl.get d.host.bme false f) 2 + 2 ^ 20), (0x08, x.revision + x.classCode * 2 ^ 8),
   (0x2C, x.subVendor + x.subsystem * 2 ^ 16), (0x34, 0x40), (0x3C, 0),
   (0x40, 0x0002_8010), (0x44, 2 + 2 ^ 5 + 2 ^ 15 + 2 ^ 28),
   (0x48, one (!Tbl.get d.host.roOff false f) 4 + Tbl.get d.host.mps 0 f * 2 ^ 5 + 2 ^ 8 + Tbl.get d.host.mrrs 2 f * 2 ^ 12),
   (0x4C, min 6 (d.rdF F.HST_PORT_CFG_MAX_RATE p) + 1 + (if d.bifurcated p then 8 else 16) * 2 ^ 4 + 2 * 2 ^ 10),
   (0x50, (rate + 1 + width * 2 ^ 4) * 2 ^ 16),
   (0x64, 15 + 2 ^ 4 + 2 ^ 16 + 2 ^ 17),
   (0x68, Tbl.get d.host.cto 0 f + one (Tbl.get d.host.ctoOff false f) 4 + one (Tbl.get d.host.ido false f) 8),
   (0x80, 0x0003_9001), (0x84, if Tbl.get d.host.d3 false f then 3 else 0),
   (0x90, 0x11 + one (Tbl.get d.host.fnMask false f) 30 + 2 ^ 31), (0x94, 4), (0x98, 0x804)] ++ d.extWords f

/-- A word of configuration space. What PCIe itself gives an extended capability's body is not stated in the spec: a free value
(log entry 37). -/
def Dev.cfgRead (d : Dev) (f off : Nat) : Dev :=
  match (d.cfgWords f).lookup off with
  | some v => d.emit (.readValue v)
  | none =>
    if 0x100 ≤ off && off < 0x100 + 0x80 * (d.extCaps f).length then
      let (v, d) := d.freeWord
      d.emit (.readValue (getBits v 0 32))
    else d.emit (.readValue 0)

/-- NumVFs written: lowering it removes functions, raising it adds them, while VF Enable is 1 (R434). -/
def Dev.numVfsWrite (d : Dev) (f n : Nat) : Dev :=
  if !Tbl.get d.host.vfe false f then { d with host.numVfs := Tbl.set 0 f (min n (d.totalVfs f)) d.host.numVfs }
  else if n < Tbl.get d.host.numVfs 0 f then d.vfClear f true n
  else d.vfSet f n

/-- Device Control: Enable Relaxed Ordering, the payload and read request sizes, and Initiate Function Level Reset. -/
def Dev.devCtl (d : Dev) (f v : Nat) : Dev :=
  let d := { d with
    host.roOff := Tbl.set false f (bitsOf v 4 1 == 0) d.host.roOff
    host.mps := Tbl.set 0 f (min 2 (bitsOf v 5 3)) d.host.mps
    host.mrrs := Tbl.set 2 f (min 5 (bitsOf v 12 3)) d.host.mrrs }
  if bitsOf v 15 1 = 1 then d.flr f else d

/-- Device Control 2: the completion timeout and IDO Request Enable (R429, R430). -/
def Dev.devCtl2 (d : Dev) (f v : Nat) : Dev :=
  { d with
    host.cto := Tbl.set 0 f (bitsOf v 0 4) d.host.cto
    host.ctoOff := Tbl.set false f (bitsOf v 4 1 == 1) d.host.ctoOff
    host.ido := Tbl.set false f (bitsOf v 8 1 == 1) d.host.ido }

/-- A write of a word of configuration space. -/
def Dev.cfgWrite (d : Dev) (f off v : Nat) : Dev :=
  if off = 0x04 then (if bitsOf v 2 1 = 1 then d.masterSet f else d.masterClear f)
  else if off = 0x48 then d.devCtl f v
  else if off = 0x68 then d.devCtl2 f v
  else if off = 0x84 then
    (if bitsOf v 0 2 = 0 || bitsOf v 0 2 = 3 then { d with host.d3 := Tbl.set false f (bitsOf v 0 2 == 3) d.host.d3 } else d)
  else if off = 0x90 then { d with host.fnMask := Tbl.set false f (bitsOf v 30 1 == 1) d.host.fnMask }.msixRelease f
  else if !d.isPf f then d
  else if off = sriovAt + 8 then
    (if bitsOf v 0 1 = 1 then d.vfSet f (Tbl.get d.host.numVfs 0 f) else d.vfClear f false (Tbl.get d.host.numVfs 0 f))
  else if off = sriovAt + 16 then d.numVfsWrite f (bitsOf v 0 16)
  else d

/-- A configuration request of function f, whose word it reads or writes; one to no function is answered Unsupported
Request. -/
def Dev.cfgAccess (d : Dev) (f off : Nat) (v : Option Nat) : Dev :=
  d.cfgRequest f (fun d =>
    if !d.fnExists f then d.emit .unsupported
    else match v with
      | some v => d.cfgWrite f (off / 4 * 4) v
      | none => d.cfgRead f (off / 4 * 4))

/-! ### BAR4 (R436, R441) -/

/-- Four bytes of BAR4: the MSI-X table entry, and the Pending Bit. -/
def Dev.bar4Word (d : Dev) (f off : Nat) : Nat :=
  let e := Tbl.get d.host.msix {} f
  if off = 0 then bitsOf e.addr.toNat 0 32
  else if off = 4 then bitsOf e.addr.toNat 32 32
  else if off = 8 then e.data.toNat
  else if off = 12 then (if e.masked then 1 else 0)
  else if off = 0x800 then (if Tbl.get d.host.msixPend false f then 1 else 0)
  else 0

/-- Four bytes written to an entry: address bits 1 and 0 stay 0. -/
def MsixEnt.put (e : MsixEnt) (off v : Nat) : MsixEnt :=
  if off = 0 then { e with addr := setBits e.addr 0 32 (v / 4 * 4) }
  else if off = 4 then { e with addr := setBits e.addr 32 32 v }
  else if off = 8 then { e with data := BitVec.ofNat 32 v }
  else if off = 12 then { e with masked := bitsOf v 0 1 == 1 }
  else e

/-- A write of BAR4; the Pending Bits take none. Clearing the mask bit lets a held message go. -/
def Dev.bar4Write (d : Dev) (f off n v : Nat) : Dev :=
  let e := (Tbl.get d.host.msix {} f).put off (bitsOf v 0 32)
  let e := if n = 8 then e.put (off + 4) (bitsOf v 32 32) else e
  { d with host.msix := Tbl.set {} f e d.host.msix }.msixRelease f

/-- An access of function f's BAR4, of 4 or 8 bytes as PCIe gives MSI-X; others write nothing and read 0 (log entry 37). -/
def Dev.bar4Access (d : Dev) (f off n : Nat) (v : Option Nat) : Dev :=
  if d.dark || !d.fnExists f then d
  else match v with
    | some v => if accessOk off n then d.bar4Write f off n v else d
    | none => d.emit (.readValue (if accessOk off n then d.bar4Word f off + (if n = 8 then d.bar4Word f (off + 4) else 0) * 2 ^ 32 else 0))

/-! ### On-die memories and the debug port (R485, R489, R492) -/

/-- The debug port may access `n` bytes at `a` of cluster c's scratch, by its gate; Basecamp's SRAM, as 16, has none and is
closed by DBG_LOCK alone (log entry 36). -/
def Dev.dbgGate (d : Dev) (c a n need : Nat) : Dev × Bool :=
  if c = 16 then (d, decide (a + n ≤ 2 ^ 23) && !d.flag F.TGT_CFG_DBG_LOCK)
  else match d.gateFail (c + 2) 5 none a n need with
    | some b => (d.deny (c + 2) 5 none b, false)
    | none => (d, true)

/-- The debug port reads or writes `n` bytes of memory c at `a`: whole words with tag 0, as DEP_ACC_DATA's (log entry 36). -/
def Dev.dbgMem (d : Dev) (c a n : Nat) (v : Option Word) : Dev :=
  if d.dark then d
  else if !accessOk a n then d.emit .unsupported
  else
    let d := if c = 16 then d else d.wake c
    match d.dbgGate c a n (if v.isSome then 2 else 1) with
    | (d, false) => d.emit .unsupported
    | (d, true) => match v with
      | none => d.emit (.readValue (accessPart a n (TWord.val (d.scrWord c a))))
      | some v => d.setScrWord c a (mergeWord (d.scrWord c a) (mkWord v 0) a n)

/-! ### The commands -/

/-- The function whose BAR0 a requester uses. -/
def accFn : RegAcc → Option Nat
  | .bar0 r => reqFn r
  | .bar4 f => some f
  | .cfg _ => none
  | .mem _ => none

/-- The function is in D3hot: its BARs answer nothing but Unsupported Request (PCIe; log entry 37). -/
def Dev.asleep (d : Dev) (r : RegAcc) : Bool := (accFn r).any (fun f => Tbl.get d.host.d3 false f)

/-- A write of a register. -/
def State.accWrite (s : State) (r : RegAcc) (a n : Nat) (v : Word) : State :=
  if s.dev.asleep r then { s with dev := s.dev.emit .unsupported }
  else match r with
    | .bar0 q => s.write q a n v
    | .bar4 f => State.settled s.dev { s with dev := s.dev.bar4Access f a n (some v.toNat) }
    | .cfg f => State.settled s.dev { s with dev := s.dev.cfgAccess f a (some (bitsOf v.toNat 0 32)) }
    | .mem c => State.settled s.dev { s with dev := s.dev.dbgMem c a n (some v) }

/-- A read of a register. -/
def State.accRead (s : State) (r : RegAcc) (a n : Nat) : State :=
  if s.dev.asleep r then { s with dev := s.dev.emit .unsupported }
  else match r with
    | .bar0 q => s.read q a n
    | .bar4 f => State.settled s.dev { s with dev := s.dev.bar4Access f a n none }
    | .cfg f => State.settled s.dev { s with dev := s.dev.cfgAccess f a none }
    | .mem c => State.settled s.dev { s with dev := s.dev.dbgMem c a n none }

def execRegWrite (r : RegAcc) (bar0 : BitVec 28) (size : Nat) (v : Word) (s : State) : Host.Outcome State Fault Refusal :=
  .next (s.accWrite r bar0.toNat size v)
def execReadClear (r : RegAcc) (bar0 : BitVec 28) (size : Nat) (s : State) : Host.Outcome State Fault Refusal :=
  .next (s.accRead r bar0.toNat size)

end Sys2Proof.Machine
end

