-- ==== Sys2Proof/Machine/Dispatch.lean ====
section
/-! DEFINITION. One arm per command: the direct call of its meaning. -/

namespace Sys2Proof.Machine

def exec (i : Instr) (s : State) : Host.Outcome State Fault Refusal :=
  match i with
  | .nop th f ext => Sys2Proof.Machine.execNop th f ext s
  | .trap th f ext => Sys2Proof.Machine.execTrap th f ext s
  | .yield th f ext => Sys2Proof.Machine.execYield th f ext s
  | .halt th f ext => Sys2Proof.Machine.execHalt th f ext s
  | .eret th f ext => Sys2Proof.Machine.execEret th f ext s
  | .rdc th f ext => Sys2Proof.Machine.execRdc th f ext s
  | .wrc th f ext => Sys2Proof.Machine.execWrc th f ext s
  | .progSwap th f ext => Sys2Proof.Machine.execProgSwap th f ext s
  | .excFwd th f ext => Sys2Proof.Machine.execExcFwd th f ext s
  | .alu th f ext => Sys2Proof.Machine.execAlu th f ext s
  | .addi th f ext => Sys2Proof.Machine.execAddi th f ext s
  | .andi th f ext => Sys2Proof.Machine.execAndi th f ext s
  | .ori th f ext => Sys2Proof.Machine.execOri th f ext s
  | .xori th f ext => Sys2Proof.Machine.execXori th f ext s
  | .shli th f ext => Sys2Proof.Machine.execShli th f ext s
  | .shri th f ext => Sys2Proof.Machine.execShri th f ext s
  | .srai th f ext => Sys2Proof.Machine.execSrai th f ext s
  | .movi th f ext => Sys2Proof.Machine.execMovi th f ext s
  | .movk th f ext => Sys2Proof.Machine.execMovk th f ext s
  | .bit th f ext => Sys2Proof.Machine.execBit th f ext s
  | .sel th f ext => Sys2Proof.Machine.execSel th f ext s
  | .cmp th f ext => Sys2Proof.Machine.execCmp th f ext s
  | .cmpiEq th f ext => Sys2Proof.Machine.execCmpiEq th f ext s
  | .cmpiLt th f ext => Sys2Proof.Machine.execCmpiLt th f ext s
  | .cmpiLtu th f ext => Sys2Proof.Machine.execCmpiLtu th f ext s
  | .pop th f ext => Sys2Proof.Machine.execPop th f ext s
  | .tagGet th f ext => Sys2Proof.Machine.execTagGet th f ext s
  | .tagSet th f ext => Sys2Proof.Machine.execTagSet th f ext s
  | .tagSeti th f ext => Sys2Proof.Machine.execTagSeti th f ext s
  | .tagTst th f ext => Sys2Proof.Machine.execTagTst th f ext s
  | .ldS th f ext ecc => Sys2Proof.Machine.execLdS th f ext ecc s
  | .stS th f ext => Sys2Proof.Machine.execStS th f ext s
  | .ldD th f ext ecc => Sys2Proof.Machine.execLdD th f ext ecc s
  | .stD th f ext => Sys2Proof.Machine.execStD th f ext s
  | .ldH th f ext => Sys2Proof.Machine.execLdH th f ext s
  | .stH th f ext => Sys2Proof.Machine.execStH th f ext s
  | .ldW th f ext => Sys2Proof.Machine.execLdW th f ext s
  | .stW th f ext => Sys2Proof.Machine.execStW th f ext s
  | .ldP th f ext => Sys2Proof.Machine.execLdP th f ext s
  | .stP th f ext => Sys2Proof.Machine.execStP th f ext s
  | .amoS th f ext ecc => Sys2Proof.Machine.execAmoS th f ext ecc s
  | .put th f ext => Sys2Proof.Machine.execPut th f ext s
  | .get th f ext => Sys2Proof.Machine.execGet th f ext s
  | .send th f ext => Sys2Proof.Machine.execSend th f ext s
  | .udSend th f ext => Sys2Proof.Machine.execUdSend th f ext s
  | .amo th f ext => Sys2Proof.Machine.execAmo th f ext s
  | .amoF th f ext => Sys2Proof.Machine.execAmoF th f ext s
  | .mtPost th f ext => Sys2Proof.Machine.execMtPost th f ext s
  | .mtProbe th f ext => Sys2Proof.Machine.execMtProbe th f ext s
  | .mtCancel th f ext => Sys2Proof.Machine.execMtCancel th f ext s
  | .ctrAdd th f ext => Sys2Proof.Machine.execCtrAdd th f ext s
  | .ctrWait th f ext => Sys2Proof.Machine.execCtrWait th f ext s
  | .ctrRead th f ext => Sys2Proof.Machine.execCtrRead th f ext s
  | .defer th f ext nxt nxtExt => Sys2Proof.Machine.execDefer th f ext nxt nxtExt s
  | .colStep th f ext => Sys2Proof.Machine.execColStep th f ext s
  | .colWait th f ext => Sys2Proof.Machine.execColWait th f ext s
  | .colRed th f ext => Sys2Proof.Machine.execColRed th f ext s
  | .colCtxCreate th f ext => Sys2Proof.Machine.execColCtxCreate th f ext s
  | .colCtxDestroy th f ext => Sys2Proof.Machine.execColCtxDestroy th f ext s
  | .fenceLocal th f ext => Sys2Proof.Machine.execFenceLocal th f ext s
  | .fenceRemote th f ext => Sys2Proof.Machine.execFenceRemote th f ext s
  | .fenceDurable th f ext => Sys2Proof.Machine.execFenceDurable th f ext s
  | .pitAcq th f ext => Sys2Proof.Machine.execPitAcq th f ext s
  | .pitTry th f ext => Sys2Proof.Machine.execPitTry th f ext s
  | .pitRel th f ext => Sys2Proof.Machine.execPitRel th f ext s
  | .br th f ext => Sys2Proof.Machine.execBr th f ext s
  | .call th f ext => Sys2Proof.Machine.execCall th f ext s
  | .jr th f ext => Sys2Proof.Machine.execJr th f ext s
  | .invoke th f ext => Sys2Proof.Machine.execInvoke th f ext s
  | .timerExpire th => Sys2Proof.Machine.execTimerExpire th s
  | .eventStart th => Sys2Proof.Machine.execEventStart th s
  | .imemFillDone th cpl => Sys2Proof.Machine.execImemFillDone th cpl s
  | .thrRestart th => Sys2Proof.Machine.execThrRestart th s
  | .doorbell a size value => Sys2Proof.Machine.execDoorbell a size value s
  | .pushWrite a mask data => Sys2Proof.Machine.execPushWrite a mask data s
  | .pushTimeout q => Sys2Proof.Machine.execPushTimeout q s
  | .wqEnable q => Sys2Proof.Machine.execWqEnable q s
  | .wqDisable q => Sys2Proof.Machine.execWqDisable q s
  | .wqResume q => Sys2Proof.Machine.execWqResume q s
  | .wqSkip q => Sys2Proof.Machine.execWqSkip q s
  | .wqInval q => Sys2Proof.Machine.execWqInval q s
  | .wqHold q v => Sys2Proof.Machine.execWqHold q v s
  | .wqProdWrite q v => Sys2Proof.Machine.execWqProdWrite q v s
  | .wqEnableDone q => Sys2Proof.Machine.execWqEnableDone q s
  | .wqDrainDone q => Sys2Proof.Machine.execWqDrainDone q s
  | .wqDispatch fn th => Sys2Proof.Machine.execWqDispatch fn th s
  | .wqFetchDone q cpl => Sys2Proof.Machine.execWqFetchDone q cpl s
  | .wqPrefetch q seq n => Sys2Proof.Machine.execWqPrefetch q seq n s
  | .wqPrefetchDone q seq cpl => Sys2Proof.Machine.execWqPrefetchDone q seq cpl s
  | .statusRecordWrite q => Sys2Proof.Machine.execStatusRecordWrite q s
  | .xltWalkReadDone walk cpl => Sys2Proof.Machine.execXltWalkReadDone walk cpl s
  | .tlbAgeRelease asid va walkCache => Sys2Proof.Machine.execTlbAgeRelease asid va walkCache s
  | .xltInvVa p asid size walk => Sys2Proof.Machine.execXltInvVa p asid size walk s
  | .xltInvAsid p asid => Sys2Proof.Machine.execXltInvAsid p asid s
  | .xltInvAll p => Sys2Proof.Machine.execXltInvAll p s
  | .xltInvFlushIssue p => Sys2Proof.Machine.execXltInvFlushIssue p s
  | .xltInvDone p link cpl => Sys2Proof.Machine.execXltInvDone p link cpl s
  | .winOpen fn => Sys2Proof.Machine.execWinOpen fn s
  | .winRevoke fn handle => Sys2Proof.Machine.execWinRevoke fn handle s
  | .winOpenDone fn => Sys2Proof.Machine.execWinOpenDone fn s
  | .winDrainLimit fn ticket => Sys2Proof.Machine.execWinDrainLimit fn ticket s
  | .winRevokeFlush fn ticket => Sys2Proof.Machine.execWinRevokeFlush fn ticket s
  | .winRevokeFree fn ticket cpl => Sys2Proof.Machine.execWinRevokeFree fn ticket cpl s
  | .rxPut c => Sys2Proof.Machine.execRxPut c s
  | .rxGet c => Sys2Proof.Machine.execRxGet c s
  | .rxSend c => Sys2Proof.Machine.execRxSend c s
  | .rxSendRdv c => Sys2Proof.Machine.execRxSendRdv c s
  | .rxUd c => Sys2Proof.Machine.execRxUd c s
  | .rxAmo c => Sys2Proof.Machine.execRxAmo c s
  | .rxAmoF c => Sys2Proof.Machine.execRxAmoF c s
  | .rxFlush c => Sys2Proof.Machine.execRxFlush c s
  | .rxRelease c => Sys2Proof.Machine.execRxRelease c s
  | .rxDataCell c => Sys2Proof.Machine.execRxDataCell c s
  | .rmaResponseSend src slot gen => Sys2Proof.Machine.execRmaResponseSend src slot gen s
  | .durFlushDone src slot gen cpl => Sys2Proof.Machine.execDurFlushDone src slot gen cpl s
  | .getSourceReadDone job off cpl => Sys2Proof.Machine.execGetSourceReadDone job off cpl s
  | .amoReadDone job cpl => Sys2Proof.Machine.execAmoReadDone job cpl s
  | .rxGetReply c => Sys2Proof.Machine.execRxGetReply c s
  | .rmaResponse c => Sys2Proof.Machine.execRmaResponse c s
  | .rmaRetryTimeout slot => Sys2Proof.Machine.execRmaRetryTimeout slot s
  | .slotQuietExpire slot => Sys2Proof.Machine.execSlotQuietExpire slot s
  | .rxIdleClose src slot gen => Sys2Proof.Machine.execRxIdleClose src slot gen s
  | .cairnExpire src slot gen => Sys2Proof.Machine.execCairnExpire src slot gen s
  | .getReserve slot => Sys2Proof.Machine.execGetReserve slot s
  | .msgReadDone slot off cpl => Sys2Proof.Machine.execMsgReadDone slot off cpl s
  | .ccAdmit dev => Sys2Proof.Machine.execCcAdmit dev s
  | .ccEntryIdleRelease dev => Sys2Proof.Machine.execCcEntryIdleRelease dev s
  | .ccReprobeEnd dev => Sys2Proof.Machine.execCcReprobeEnd dev s
  | .mtHoldTimeout fn src slot gen => Sys2Proof.Machine.execMtHoldTimeout fn src slot gen s
  | .orderIdleRelease fn src => Sys2Proof.Machine.execOrderIdleRelease fn src s
  | .sendStreamRelease fn dst => Sys2Proof.Machine.execSendStreamRelease fn dst s
  | .mtUxCopyDone fn id => Sys2Proof.Machine.execMtUxCopyDone fn id s
  | .rcqConsWrite fn v => Sys2Proof.Machine.execRcqConsWrite fn v s
  | .mtDomainDisable fn => Sys2Proof.Machine.execMtDomainDisable fn s
  | .rxColLink c => Sys2Proof.Machine.execRxColLink c s
  | .rxColLinkAck c => Sys2Proof.Machine.execRxColLinkAck c s
  | .rxColUp c => Sys2Proof.Machine.execRxColUp c s
  | .rxColDown c => Sys2Proof.Machine.execRxColDown c s
  | .rxColUpExp c => Sys2Proof.Machine.execRxColUpExp c s
  | .rxColDownExp c => Sys2Proof.Machine.execRxColDownExp c s
  | .rxColUpAck c => Sys2Proof.Machine.execRxColUpAck c s
  | .rxColDownAck c => Sys2Proof.Machine.execRxColDownAck c s
  | .rxColAbort c => Sys2Proof.Machine.execRxColAbort c s
  | .colLinkRepeat n => Sys2Proof.Machine.execColLinkRepeat n s
  | .colLinkTimeout n => Sys2Proof.Machine.execColLinkTimeout n s
  | .colPhaseRetry n peer => Sys2Proof.Machine.execColPhaseRetry n peer s
  | .colContribReadDone n off cpl => Sys2Proof.Machine.execColContribReadDone n off cpl s
  | .colCtxFree n => Sys2Proof.Machine.execColCtxFree n s
  | .colCtxAbort n => Sys2Proof.Machine.execColCtxAbort n s
  | .schInject room => Sys2Proof.Machine.execSchInject room s
  | .cellForward p vc => Sys2Proof.Machine.execCellForward p vc s
  | .cellResidenceExpire p vc => Sys2Proof.Machine.execCellResidenceExpire p vc s
  | .portRediscover p => Sys2Proof.Machine.execPortRediscover p s
  | .rteSeedWrite v => Sys2Proof.Machine.execRteSeedWrite v s
  | .schRefill => Sys2Proof.Machine.execSchRefill s
  | .shaperEnable fn => Sys2Proof.Machine.execShaperEnable fn s
  | .meterEnable fn => Sys2Proof.Machine.execMeterEnable fn s
  | .udpEnable q => Sys2Proof.Machine.execUdpEnable q s
  | .gateArm p => Sys2Proof.Machine.execGateArm p s
  | .gateDisarm p => Sys2Proof.Machine.execGateDisarm p s
  | .gateDisable p => Sys2Proof.Machine.execGateDisable p s
  | .gateBankActivate p => Sys2Proof.Machine.execGateBankActivate p s
  | .gateEntryAdvance p => Sys2Proof.Machine.execGateEntryAdvance p s
  | .belayFrameSend p => Sys2Proof.Machine.execBelayFrameSend p s
  | .belayDataRx p fr => Sys2Proof.Machine.execBelayDataRx p fr s
  | .belayIdleRx p hdr => Sys2Proof.Machine.execBelayIdleRx p hdr s
  | .belayInitRx p fr => Sys2Proof.Machine.execBelayInitRx p fr s
  | .belayCreditRx p fr => Sys2Proof.Machine.execBelayCreditRx p fr s
  | .belayDiscoverRx p fr => Sys2Proof.Machine.execBelayDiscoverRx p fr s
  | .belayTimeReqRx p fr => Sys2Proof.Machine.execBelayTimeReqRx p fr s
  | .belayTimeRespRx p fr => Sys2Proof.Machine.execBelayTimeRespRx p fr s
  | .parkRequestRx p fr => Sys2Proof.Machine.execParkRequestRx p fr s
  | .parkAgreeRx p fr => Sys2Proof.Machine.execParkAgreeRx p fr s
  | .parkRefuseRx p fr => Sys2Proof.Machine.execParkRefuseRx p fr s
  | .parkWakeRx p fr => Sys2Proof.Machine.execParkWakeRx p fr s
  | .belayDownRx p fr => Sys2Proof.Machine.execBelayDownRx p fr s
  | .belayAckTimer p => Sys2Proof.Machine.execBelayAckTimer p s
  | .belayReplayTimeout p => Sys2Proof.Machine.execBelayReplayTimeout p s
  | .belayFrameLife p => Sys2Proof.Machine.execBelayFrameLife p s
  | .belayCreditTimer p => Sys2Proof.Machine.execBelayCreditTimer p s
  | .belayInitRepeat p => Sys2Proof.Machine.execBelayInitRepeat p s
  | .belayDiscoverRepeat p => Sys2Proof.Machine.execBelayDiscoverRepeat p s
  | .belayLockTimeout p => Sys2Proof.Machine.execBelayLockTimeout p s
  | .belayInitTimeout p => Sys2Proof.Machine.execBelayInitTimeout p s
  | .belayRelockTimeout p => Sys2Proof.Machine.execBelayRelockTimeout p s
  | .belayFramingLoss p => Sys2Proof.Machine.execBelayFramingLoss p s
  | .belayErrDecay p => Sys2Proof.Machine.execBelayErrDecay p s
  | .belayDegradedRetrain p => Sys2Proof.Machine.execBelayDegradedRetrain p s
  | .belayCreditAudit p => Sys2Proof.Machine.execBelayCreditAudit p s
  | .linkDownCmd p => Sys2Proof.Machine.execLinkDownCmd p s
  | .laneEnSet p => Sys2Proof.Machine.execLaneEnSet p s
  | .laneEnClear p => Sys2Proof.Machine.execLaneEnClear p s
  | .laneRetrain p => Sys2Proof.Machine.execLaneRetrain p s
  | .laneRecal p cal => Sys2Proof.Machine.execLaneRecal p cal s
  | .trainDetectDone p rxOpen rxShort txOpen txShort => Sys2Proof.Machine.execTrainDetectDone p rxOpen rxShort txOpen txShort s
  | .trainCalDone p busy failed => Sys2Proof.Machine.execTrainCalDone p busy failed s
  | .trainFrameRx p lane inverted crc rx ctl => Sys2Proof.Machine.execTrainFrameRx p lane inverted crc rx ctl s
  | .trainTimeout p energy clock => Sys2Proof.Machine.execTrainTimeout p energy clock s
  | .trainAlignDone p => Sys2Proof.Machine.execTrainAlignDone p s
  | .trainAlignTimeout p => Sys2Proof.Machine.execTrainAlignTimeout p s
  | .trainRetry p => Sys2Proof.Machine.execTrainRetry p s
  | .laneLoss p lanes fault => Sys2Proof.Machine.execLaneLoss p lanes fault s
  | .serWindow p lane ser symbols => Sys2Proof.Machine.execSerWindow p lane ser symbols s
  | .modInsert p cmis => Sys2Proof.Machine.execModInsert p cmis s
  | .modReady p cmis => Sys2Proof.Machine.execModReady p cmis s
  | .modReadyTimeout p reported => Sys2Proof.Machine.execModReadyTimeout p reported s
  | .modRemove p => Sys2Proof.Machine.execModRemove p s
  | .modAlarm p => Sys2Proof.Machine.execModAlarm p s
  | .portParkRequest p => Sys2Proof.Machine.execPortParkRequest p s
  | .parkTimeout p => Sys2Proof.Machine.execParkTimeout p s
  | .parkSignalLost p => Sys2Proof.Machine.execParkSignalLost p s
  | .portWake p => Sys2Proof.Machine.execPortWake p s
  | .parkSignalDetect p => Sys2Proof.Machine.execParkSignalDetect p s
  | .parkRelockDone p ok => Sys2Proof.Machine.execParkRelockDone p ok s
  | .parkedRecal p cal => Sys2Proof.Machine.execParkedRecal p cal s
  | .ropeHelloRx r k => Sys2Proof.Machine.execRopeHelloRx r k s
  | .ropeTimeRx r k => Sys2Proof.Machine.execRopeTimeRx r k s
  | .ropeFaultRx r k => Sys2Proof.Machine.execRopeFaultRx r k s
  | .ropeMgmtRx r k => Sys2Proof.Machine.execRopeMgmtRx r k s
  | .ropeHelloTimer => Sys2Proof.Machine.execRopeHelloTimer s
  | .ropeFaultRepeat => Sys2Proof.Machine.execRopeFaultRepeat s
  | .ropeAlignRx r lane0 lane1 skew => Sys2Proof.Machine.execRopeAlignRx r lane0 lane1 skew s
  | .ropeAlignTimeout l => Sys2Proof.Machine.execRopeAlignTimeout l s
  | .timeExchangeTimer => Sys2Proof.Machine.execTimeExchangeTimer s
  | .timeSet v => Sys2Proof.Machine.execTimeSet v s
  | .servoEnable => Sys2Proof.Machine.execServoEnable s
  | .ppsEdge t16 tenOk => Sys2Proof.Machine.execPpsEdge t16 tenOk s
  | .timeNowRead => Sys2Proof.Machine.execTimeNowRead s
  | .hostPerstAssert p => Sys2Proof.Machine.execHostPerstAssert p s
  | .hostPerstDeassert p => Sys2Proof.Machine.execHostPerstDeassert p s
  | .hostLinkDown p link => Sys2Proof.Machine.execHostLinkDown p link s
  | .flr fn => Sys2Proof.Machine.execFlr fn s
  | .busMasterClear fn => Sys2Proof.Machine.execBusMasterClear fn s
  | .vfEnableClear fn vfEnable numVfs => Sys2Proof.Machine.execVfEnableClear fn vfEnable numVfs s
  | .fnEnSet fn => Sys2Proof.Machine.execFnEnSet fn s
  | .fnEnClear fn => Sys2Proof.Machine.execFnEnClear fn s
  | .fnEnableDone fn => Sys2Proof.Machine.execFnEnableDone fn s
  | .fnDrainDone fn => Sys2Proof.Machine.execFnDrainDone fn s
  | .fnForceStop fn => Sys2Proof.Machine.execFnForceStop fn s
  | .hostReadCompletion tag cpl => Sys2Proof.Machine.execHostReadCompletion tag cpl s
  | .hostCplTimeout tag => Sys2Proof.Machine.execHostCplTimeout tag s
  | .intClaim t => Sys2Proof.Machine.execIntClaim t s
  | .intComplete t n => Sys2Proof.Machine.execIntComplete t n s
  | .intSetpend t n => Sys2Proof.Machine.execIntSetpend t n s
  | .intClrpend t n => Sys2Proof.Machine.execIntClrpend t n s
  | .msixUnmask fn => Sys2Proof.Machine.execMsixUnmask fn s
  | .dmaChStart c h => Sys2Proof.Machine.execDmaChStart c h s
  | .dmaChPause c h => Sys2Proof.Machine.execDmaChPause c h s
  | .dmaChResume c h => Sys2Proof.Machine.execDmaChResume c h s
  | .dmaChReset c h => Sys2Proof.Machine.execDmaChReset c h s
  | .dmaPaused c h => Sys2Proof.Machine.execDmaPaused c h s
  | .dmaDataReadDone c h cpl => Sys2Proof.Machine.execDmaDataReadDone c h cpl s
  | .dmaListFetchDone c h cpl => Sys2Proof.Machine.execDmaListFetchDone c h cpl s
  | .dmaRlimWrite c h v => Sys2Proof.Machine.execDmaRlimWrite c h v s
  | .dmaClusterStopDone c => Sys2Proof.Machine.execDmaClusterStopDone c s
  | .dmaClClear c => Sys2Proof.Machine.execDmaClClear c s
  | .dmaCtrAddWrite v => Sys2Proof.Machine.execDmaCtrAddWrite v s
  | .dmaCtrValWrite v => Sys2Proof.Machine.execDmaCtrValWrite v s
  | .dmaCtrArm v => Sys2Proof.Machine.execDmaCtrArm v s
  | .deferFire => Sys2Proof.Machine.execDeferFire s
  | .pitLockRead fn n => Sys2Proof.Machine.execPitLockRead fn n s
  | .pitLockWrite fn n => Sys2Proof.Machine.execPitLockWrite fn n s
  | .pitHostWaitExpire fn n => Sys2Proof.Machine.execPitHostWaitExpire fn n s
  | .pitEngWaitExpire th => Sys2Proof.Machine.execPitEngWaitExpire th s
  | .depBufAlloc r => Sys2Proof.Machine.execDepBufAlloc r s
  | .depBufFree r addr => Sys2Proof.Machine.execDepBufFree r addr s
  | .depAccRead r ecc => Sys2Proof.Machine.execDepAccRead r ecc s
  | .depAccWrite r v => Sys2Proof.Machine.execDepAccWrite r v s
  | .poolAudit => Sys2Proof.Machine.execPoolAudit s
  | .poolWalk => Sys2Proof.Machine.execPoolWalk s
  | .scrubStep found sram => Sys2Proof.Machine.execScrubStep found sram s
  | .arbGrant a inst arrivals => Sys2Proof.Machine.execArbGrant a inst arrivals s
  | .arbHoldCut a inst => Sys2Proof.Machine.execArbHoldCut a inst s
  | .depotPreempt inst by_ => Sys2Proof.Machine.execDepotPreempt inst by_ s
  | .depotSelfRefresh => Sys2Proof.Machine.execDepotSelfRefresh s
  | .clusterClockGate u => Sys2Proof.Machine.execClusterClockGate u s
  | .clusterPowerGate u => Sys2Proof.Machine.execClusterPowerGate u s
  | .unitWakeDone u => Sys2Proof.Machine.execUnitWakeDone u s
  | .powerOn => Sys2Proof.Machine.execPowerOn s
  | .vaonLoss => Sys2Proof.Machine.execVaonLoss s
  | .sysReset => Sys2Proof.Machine.execSysReset s
  | .sysResetRelease => Sys2Proof.Machine.execSysResetRelease s
  | .wakeN => Sys2Proof.Machine.execWakeN s
  | .railPgRise k => Sys2Proof.Machine.execRailPgRise k s
  | .railDownStep k => Sys2Proof.Machine.execRailDownStep k s
  | .railPgTimeout k => Sys2Proof.Machine.execRailPgTimeout k s
  | .railPgLost k => Sys2Proof.Machine.execRailPgLost k s
  | .fwLoadDone => Sys2Proof.Machine.execFwLoadDone s
  | .fwReady => Sys2Proof.Machine.execFwReady s
  | .fwSwapTimeout => Sys2Proof.Machine.execFwSwapTimeout s
  | .mbxGetInfo m => Sys2Proof.Machine.execMbxGetInfo m s
  | .mbxGateWrite m => Sys2Proof.Machine.execMbxGateWrite m s
  | .mbxFwStage m => Sys2Proof.Machine.execMbxFwStage m s
  | .mbxFwActivate m => Sys2Proof.Machine.execMbxFwActivate m s
  | .mbxFuseRollback m => Sys2Proof.Machine.execMbxFuseRollback m s
  | .mbxKeyRevoke m => Sys2Proof.Machine.execMbxKeyRevoke m s
  | .mbxModulePage m => Sys2Proof.Machine.execMbxModulePage m s
  | .mbxParam m => Sys2Proof.Machine.execMbxParam m s
  | .mbxBivouac m => Sys2Proof.Machine.execMbxBivouac m s
  | .pldmMessage => Sys2Proof.Machine.execPldmMessage s
  | .sidebandRead => Sys2Proof.Machine.execSidebandRead s
  | .excServe fn status value => Sys2Proof.Machine.execExcServe fn status value s
  | .ctlDispatch => Sys2Proof.Machine.execCtlDispatch s
  | .ctlSend c => Sys2Proof.Machine.execCtlSend c s
  | .txnBegin r => Sys2Proof.Machine.execTxnBegin r s
  | .txnCommit r => Sys2Proof.Machine.execTxnCommit r s
  | .txnRollback r => Sys2Proof.Machine.execTxnRollback r s
  | .txnApplied r => Sys2Proof.Machine.execTxnApplied r s
  | .txnTimeout r => Sys2Proof.Machine.execTxnTimeout r s
  | .pwrEnterBivouac => Sys2Proof.Machine.execPwrEnterBivouac s
  | .faultReport srcs => Sys2Proof.Machine.execFaultReport srcs s
  | .fltPairInvalid src => Sys2Proof.Machine.execFltPairInvalid src s
  | .fltTest src => Sys2Proof.Machine.execFltTest src s
  | .fltLock => Sys2Proof.Machine.execFltLock s
  | .dbgLock => Sys2Proof.Machine.execDbgLock s
  | .thermSample temps => Sys2Proof.Machine.execThermSample temps s
  | .curGovSample amps => Sys2Proof.Machine.execCurGovSample amps s
  | .pmcSnapshot => Sys2Proof.Machine.execPmcSnapshot s
  | .pmcSnap => Sys2Proof.Machine.execPmcSnap s
  | .pmcCtrValWrite k v => Sys2Proof.Machine.execPmcCtrValWrite k v s
  | .pmbRefresh => Sys2Proof.Machine.execPmbRefresh s
  | .pmbAlert => Sys2Proof.Machine.execPmbAlert s
  | .marginWrite v => Sys2Proof.Machine.execMarginWrite v s
  | .trstN => Sys2Proof.Machine.execTrstN s
  | .extest => Sys2Proof.Machine.execExtest s
  | .idcode => Sys2Proof.Machine.execIdcode s
  | .samplePreload => Sys2Proof.Machine.execSamplePreload s
  | .highz => Sys2Proof.Machine.execHighz s
  | .clamp => Sys2Proof.Machine.execClamp s
  | .extestPulse => Sys2Proof.Machine.execExtestPulse s
  | .extestTrain => Sys2Proof.Machine.execExtestTrain s
  | .dbgAccess => Sys2Proof.Machine.execDbgAccess s
  | .bypass => Sys2Proof.Machine.execBypass s
  | .readClear r bar0 size => Sys2Proof.Machine.execReadClear r bar0 size s
  | .regWrite r bar0 size v => Sys2Proof.Machine.execRegWrite r bar0 size v s
  | .belayFramingError p => Sys2Proof.Machine.execBelayFramingError p s
  | .belayControlReserved p fr => Sys2Proof.Machine.execBelayControlReserved p fr s
  | .ropePacketDiscard r => Sys2Proof.Machine.execRopePacketDiscard r s
  | .rxOpReserved c => Sys2Proof.Machine.execRxOpReserved c s
  | .rxColKindReserved c => Sys2Proof.Machine.execRxColKindReserved c s
  | .colAbortRetry n peer => Sys2Proof.Machine.execColAbortRetry n peer s
  | .busMasterEnableSet fn => Sys2Proof.Machine.execBusMasterEnableSet fn s
  | .vfEnableSet fn numVfs => Sys2Proof.Machine.execVfEnableSet fn numVfs s
  | .hostLinkUp p link => Sys2Proof.Machine.execHostLinkUp p link s
  | .refclkRecheck inRange => Sys2Proof.Machine.execRefclkRecheck inRange s
  | .mbxOtherOpcode m => Sys2Proof.Machine.execMbxOtherOpcode m s
  | .xltInvKindDiscard p => Sys2Proof.Machine.execXltInvKindDiscard p s

end Sys2Proof.Machine
end

