-- ==== Sys2Proof/Safety.lean ====
section
/-! DEFINITION. What a safe step and a safe run are (neither a fault nor a refusal ends them), what an instruction may change,
and the legal tables of transactions: the terms the statements use. -/

namespace Sys2Proof.Machine

/-- The step from `s` answers a next state. -/
def Safe (s : State) : Prop := ∃ t, step s = .next t

/-- `n` steps from `s` each answer a next state. -/
def SafeRun : Nat → State → Prop
  | 0, _ => True
  | n + 1, s => ∃ t, step s = .next t ∧ SafeRun n t

/-- The instruction of thread th ended in `t` where it began: its activation goes on, and no trap began. -/
abbrev State.inPlace (s t : State) (th : Nat) : Prop :=
  (t.dev.thr th).active = true ∧ (t.dev.thr th).event = (s.dev.thr th).event

/-- Every register but the telemetry counters (R561, R569) reads as before. -/
abbrev State.sameRegs (s t : State) : Prop :=
  ∀ (g : Fld) (j : Nat), g.reg < 256 → g.reg ≠ R.PMC_CTR_VAL → g.reg ≠ R.PMC_CTR_CFG → g.reg ≠ R.PMC_FN_VAL → t.dev.rd g j = s.dev.rd g j

/-- Nothing but threads and registers differs, no thread but th, and no register but the telemetry counters. -/
abbrev State.onlyThread (s t : State) (th : Nat) : Prop :=
  t.pending = s.pending ∧ t.txns = s.txns ∧ t.tap = s.tap ∧
  { t.dev with regs := [], eng.th := [] } = { s.dev with regs := [], eng.th := [] } ∧
  (∀ o, o ≠ th → t.dev.thr o = s.dev.thr o) ∧ s.sameRegs t

/-- Of thread th only general register wd and the pc differ; `past` says that the pc has passed a full image's end (R69). -/
abbrev State.resultFrame (s t : State) (th wd : Nat) : Prop :=
  s.onlyThread t th ∧ (∃ w pc past, t.dev.thr th = { s.dev.thr th with w := w, pc := pc, past := past }) ∧
  ∀ n, n ≠ wd → (t.dev.thr th).reg n = (s.dev.thr th).reg n

/-- Of thread th only predicate wd and the pc differ. -/
abbrev State.predFrame (s t : State) (th wd : Nat) : Prop :=
  s.onlyThread t th ∧ (∃ p pc past, t.dev.thr th = { s.dev.thr th with p := p, pc := pc, past := past }) ∧
  ∀ n, n ≠ wd → (t.dev.thr th).pred n = (s.dev.thr th).pred n

/-- Of thread th only the pc differs; of the rest, only `drop` of the device and telemetry counters. -/
abbrev State.storeFrame (s t : State) (th : Nat) (drop : Dev → Dev) : Prop :=
  t.pending = s.pending ∧ t.txns = s.txns ∧ t.tap = s.tap ∧ drop { t.dev with regs := [], eng.th := [] } = drop { s.dev with regs := [], eng.th := [] } ∧
  (∀ o, o ≠ th → t.dev.thr o = s.dev.thr o) ∧ s.sameRegs t ∧ ∃ pc past, t.dev.thr th = { s.dev.thr th with pc := pc, past := past }

/-- The transactions are in canonical form, no register is held by two of them (R517), together they hold at most 4,096
(R516), and each holds a register once. -/
abbrev TxnsApart (t : Tbl Txn) : Prop :=
  Tbl.wf {} t ∧ (∀ a ∈ t, ∀ b ∈ t, ∀ key, a.1 ≠ b.1 → Tbl.has a.2.held key = true → Tbl.has b.2.held key = false) ∧
  heldTotal t ≤ 4096 ∧ ∀ e ∈ t, e.2.held.Pairwise (fun a b => a.1 < b.1)

end Sys2Proof.Machine
end

