-- ==== Sys2Proof/WellFormed.lean ====
section
/-! DEFINITION. Commands whose operands are within what the spec lets their senders say. The machine gives every command a
meaning, these or not. -/

namespace Sys2Proof

/-- A write of BAR2 is of 4 or 8 bytes (R95), and an access stays within a queue's 256 bytes (R94, R439). -/
def doorbellOk (off : BitVec 24) (size : Nat) (value : Option Word) : Bool :=
  (value.isNone || size == 4 || size == 8) && 0 < size && off.toNat % 256 + size ≤ 256
/-- Bytes of a push area (R94). -/
def pushOk (off : BitVec 24) (mask : BitVec 64) : Bool := off.toNat % 256 == 0x80 && mask != 0
/-- A prefetch reads one to four entries (R108). -/
def prefetchOk (n : Nat) : Bool := 1 ≤ n && n ≤ 4
/-- The header names kind `k` and SUB `sub` (R357, R358). -/
def FrameHdr.names (h : FrameHdr) (k sub : Nat) : Bool := h.hdr.toNat / 2 ^ 112 % 256 == k * 16 + sub
/-- A DATA frame carries one to eight cells, as many as its header says (R358). -/
def frameOk (f : DataFrame) : Bool := 1 ≤ f.cells.length && f.cells.length ≤ 8 && f.hdr.names 1 (f.cells.length - 1)
/-- A control frame of type `t` (R379) whose C0 has `op` in its `w` lowest bits (R380). -/
def ctlWf (f : CtlFrame) (t w op : Nat) : Bool := f.hdr.names 2 t && f.body.toNat % 2 ^ w == op
/-- A control frame of a reserved type (R379). -/
def ctlReserved (f : CtlFrame) : Bool := [0, 7, 8, 9, 10, 11, 12, 13, 14, 15].any (fun t => f.hdr.names 2 t)
/-- A Rope packet's body has an even length of at most 256 bytes (R415). -/
def ropeWf (k : RopeFrame) : Bool := k.len % 2 == 0 && k.len ≤ 256 && decide (k.body < 2 ^ (8 * k.len))
/-- A register access is of 4 or 8 bytes, naturally aligned (R438, R596). -/
def accessWf (a n : Nat) : Bool := (n == 4 || n == 8) && a % n == 0
/-- The data of a completion fit the read of `n` bytes. -/
def cplOk (n : Nat) : Cpl → Bool
  | .ok v _ => decide (v < 2 ^ (8 * n))
  | .err => true

def Instr.wellFormed (i : Instr) : Bool :=
  match i with
  | .nop _ _ _ => true
  | .trap _ _ _ => true
  | .yield _ _ _ => true
  | .halt _ _ _ => true
  | .eret _ _ _ => true
  | .rdc _ _ _ => true
  | .wrc _ _ _ => true
  | .progSwap _ _ _ => true
  | .excFwd _ _ _ => true
  | .alu _ _ _ => true
  | .addi _ _ _ => true
  | .andi _ _ _ => true
  | .ori _ _ _ => true
  | .xori _ _ _ => true
  | .shli _ _ _ => true
  | .shri _ _ _ => true
  | .srai _ _ _ => true
  | .movi _ _ _ => true
  | .movk _ _ _ => true
  | .bit _ _ _ => true
  | .sel _ _ _ => true
  | .cmp _ _ _ => true
  | .cmpiEq _ _ _ => true
  | .cmpiLt _ _ _ => true
  | .cmpiLtu _ _ _ => true
  | .pop _ _ _ => true
  | .tagGet _ _ _ => true
  | .tagSet _ _ _ => true
  | .tagSeti _ _ _ => true
  | .tagTst _ _ _ => true
  | .ldS _ _ _ _ => true
  | .stS _ _ _ => true
  | .ldD _ _ _ _ => true
  | .stD _ _ _ => true
  | .ldH _ _ _ => true
  | .stH _ _ _ => true
  | .ldW _ _ _ => true
  | .stW _ _ _ => true
  | .ldP _ _ _ => true
  | .stP _ _ _ => true
  | .amoS _ _ _ _ => true
  | .put _ _ _ => true
  | .get _ _ _ => true
  | .send _ _ _ => true
  | .udSend _ _ _ => true
  | .amo _ _ _ => true
  | .amoF _ _ _ => true
  | .mtPost _ _ _ => true
  | .mtProbe _ _ _ => true
  | .mtCancel _ _ _ => true
  | .ctrAdd _ _ _ => true
  | .ctrWait _ _ _ => true
  | .ctrRead _ _ _ => true
  | .defer _ _ _ _ _ => true
  | .colStep _ _ _ => true
  | .colWait _ _ _ => true
  | .colRed _ _ _ => true
  | .colCtxCreate _ _ _ => true
  | .colCtxDestroy _ _ _ => true
  | .fenceLocal _ _ _ => true
  | .fenceRemote _ _ _ => true
  | .fenceDurable _ _ _ => true
  | .pitAcq _ _ _ => true
  | .pitTry _ _ _ => true
  | .pitRel _ _ _ => true
  | .br _ _ _ => true
  | .call _ _ _ => true
  | .jr _ _ _ => true
  | .invoke _ _ _ => true
  | .timerExpire _ => true
  | .eventStart _ => true
  | .imemFillDone _ _ => true
  | .thrRestart _ => true
  | .doorbell a size value => doorbellOk a.off size value
  | .pushWrite a mask _ => pushOk a.off mask
  | .pushTimeout _ => true
  | .wqEnable _ => true
  | .wqDisable _ => true
  | .wqResume _ => true
  | .wqSkip _ => true
  | .wqInval _ => true
  | .wqHold _ _ => true
  | .wqProdWrite _ _ => true
  | .wqEnableDone _ => true
  | .wqDrainDone _ => true
  | .wqDispatch _ _ => true
  | .wqFetchDone _ c => cplOk 64 c
  | .wqPrefetch _ _ n => prefetchOk n
  | .wqPrefetchDone _ _ _ => true
  | .statusRecordWrite _ => true
  | .xltWalkReadDone _ c => cplOk 8 c
  | .tlbAgeRelease _ _ _ => true
  | .xltInvVa _ _ _ _ => true
  | .xltInvAsid _ _ => true
  | .xltInvAll _ => true
  | .xltInvFlushIssue _ => true
  | .xltInvDone _ _ _ => true
  | .winOpen _ => true
  | .winRevoke _ _ => true
  | .winOpenDone _ => true
  | .winDrainLimit _ _ => true
  | .winRevokeFlush _ _ => true
  | .winRevokeFree _ _ _ => true
  | .rxPut _ => true
  | .rxGet _ => true
  | .rxSend _ => true
  | .rxSendRdv _ => true
  | .rxUd _ => true
  | .rxAmo _ => true
  | .rxAmoF _ => true
  | .rxFlush _ => true
  | .rxRelease _ => true
  | .rxDataCell _ => true
  | .rmaResponseSend _ _ _ => true
  | .durFlushDone _ _ _ _ => true
  | .getSourceReadDone _ _ _ => true
  | .amoReadDone _ _ => true
  | .rxGetReply _ => true
  | .rmaResponse _ => true
  | .rmaRetryTimeout _ => true
  | .slotQuietExpire _ => true
  | .rxIdleClose _ _ _ => true
  | .cairnExpire _ _ _ => true
  | .getReserve _ => true
  | .msgReadDone _ _ _ => true
  | .ccAdmit _ => true
  | .ccEntryIdleRelease _ => true
  | .ccReprobeEnd _ => true
  | .mtHoldTimeout _ _ _ _ => true
  | .orderIdleRelease _ _ => true
  | .sendStreamRelease _ _ => true
  | .mtUxCopyDone _ _ => true
  | .rcqConsWrite _ _ => true
  | .mtDomainDisable _ => true
  | .rxColLink _ => true
  | .rxColLinkAck _ => true
  | .rxColUp _ => true
  | .rxColDown _ => true
  | .rxColUpExp _ => true
  | .rxColDownExp _ => true
  | .rxColUpAck _ => true
  | .rxColDownAck _ => true
  | .rxColAbort _ => true
  | .colLinkRepeat _ => true
  | .colLinkTimeout _ => true
  | .colPhaseRetry _ _ => true
  | .colContribReadDone _ _ _ => true
  | .colCtxFree _ => true
  | .colCtxAbort _ => true
  | .schInject _ => true
  | .cellForward _ _ => true
  | .cellResidenceExpire _ _ => true
  | .portRediscover _ => true
  | .rteSeedWrite _ => true
  | .schRefill => true
  | .shaperEnable _ => true
  | .meterEnable _ => true
  | .udpEnable _ => true
  | .gateArm _ => true
  | .gateDisarm _ => true
  | .gateDisable _ => true
  | .gateBankActivate _ => true
  | .gateEntryAdvance _ => true
  | .belayFrameSend _ => true
  | .belayDataRx _ fr => frameOk fr
  | .belayIdleRx _ h => h.names 0 0
  | .belayInitRx _ fr => ctlWf fr 1 0 0
  | .belayCreditRx _ fr => ctlWf fr 2 0 0
  | .belayDiscoverRx _ fr => ctlWf fr 3 0 0
  | .belayTimeReqRx _ fr => ctlWf fr 4 1 0
  | .belayTimeRespRx _ fr => ctlWf fr 4 1 1
  | .parkRequestRx _ fr => ctlWf fr 5 3 1
  | .parkAgreeRx _ fr => ctlWf fr 5 3 2
  | .parkRefuseRx _ fr => ctlWf fr 5 3 3
  | .parkWakeRx _ fr => ctlWf fr 5 3 4
  | .belayDownRx _ fr => ctlWf fr 6 0 0
  | .belayAckTimer _ => true
  | .belayReplayTimeout _ => true
  | .belayFrameLife _ => true
  | .belayCreditTimer _ => true
  | .belayInitRepeat _ => true
  | .belayDiscoverRepeat _ => true
  | .belayLockTimeout _ => true
  | .belayInitTimeout _ => true
  | .belayRelockTimeout _ => true
  | .belayFramingLoss _ => true
  | .belayErrDecay _ => true
  | .belayDegradedRetrain _ => true
  | .belayCreditAudit _ => true
  | .linkDownCmd _ => true
  | .laneEnSet _ => true
  | .laneEnClear _ => true
  | .laneRetrain _ => true
  | .laneRecal _ _ => true
  | .trainDetectDone _ _ _ _ _ => true
  | .trainCalDone _ _ _ => true
  | .trainFrameRx _ _ _ _ _ _ => true
  | .trainTimeout _ _ _ => true
  | .trainAlignDone _ => true
  | .trainAlignTimeout _ => true
  | .trainRetry _ => true
  | .laneLoss _ _ _ => true
  | .serWindow _ _ ser n => decide (ser.toNat ≤ n)
  | .modInsert _ _ => true
  | .modReady _ _ => true
  | .modReadyTimeout _ _ => true
  | .modRemove _ => true
  | .modAlarm _ => true
  | .portParkRequest _ => true
  | .parkTimeout _ => true
  | .parkSignalLost _ => true
  | .portWake _ => true
  | .parkSignalDetect _ => true
  | .parkRelockDone _ _ => true
  | .parkedRecal _ _ => true
  | .ropeHelloRx _ k => ropeWf k
  | .ropeTimeRx _ k => ropeWf k
  | .ropeFaultRx _ k => ropeWf k
  | .ropeMgmtRx _ k => ropeWf k
  | .ropeHelloTimer => true
  | .ropeFaultRepeat => true
  | .ropeAlignRx _ _ _ _ => true
  | .ropeAlignTimeout _ => true
  | .timeExchangeTimer => true
  | .timeSet _ => true
  | .servoEnable => true
  | .ppsEdge _ _ => true
  | .timeNowRead => true
  | .hostPerstAssert _ => true
  | .hostPerstDeassert _ => true
  | .hostLinkDown _ _ => true
  | .flr _ => true
  | .busMasterClear _ => true
  | .vfEnableClear _ _ _ => true
  | .fnEnSet _ => true
  | .fnEnClear _ => true
  | .fnEnableDone _ => true
  | .fnDrainDone _ => true
  | .fnForceStop _ => true
  | .hostReadCompletion _ _ => true
  | .hostCplTimeout _ => true
  | .intClaim _ => true
  | .intComplete _ _ => true
  | .intSetpend _ _ => true
  | .intClrpend _ _ => true
  | .msixUnmask _ => true
  | .dmaChStart _ _ => true
  | .dmaChPause _ _ => true
  | .dmaChResume _ _ => true
  | .dmaChReset _ _ => true
  | .dmaPaused _ _ => true
  | .dmaDataReadDone _ _ _ => true
  | .dmaListFetchDone _ _ c => cplOk 32 c
  | .dmaRlimWrite _ _ _ => true
  | .dmaClusterStopDone _ => true
  | .dmaClClear _ => true
  | .dmaCtrAddWrite _ => true
  | .dmaCtrValWrite _ => true
  | .dmaCtrArm _ => true
  | .deferFire => true
  | .pitLockRead _ _ => true
  | .pitLockWrite _ _ => true
  | .pitHostWaitExpire _ _ => true
  | .pitEngWaitExpire _ => true
  | .depBufAlloc _ => true
  | .depBufFree _ _ => true
  | .depAccRead _ _ => true
  | .depAccWrite _ _ => true
  | .poolAudit => true
  | .poolWalk => true
  | .scrubStep _ _ => true
  | .arbGrant _ _ l => decide l.Nodup
  | .arbHoldCut _ _ => true
  | .depotPreempt _ _ => true
  | .depotSelfRefresh => true
  | .clusterClockGate _ => true
  | .clusterPowerGate _ => true
  | .unitWakeDone _ => true
  | .powerOn => true
  | .vaonLoss => true
  | .sysReset => true
  | .sysResetRelease => true
  | .wakeN => true
  | .railPgRise _ => true
  | .railDownStep _ => true
  | .railPgTimeout _ => true
  | .railPgLost _ => true
  | .fwLoadDone => true
  | .fwReady => true
  | .fwSwapTimeout => true
  | .mbxGetInfo _ => true
  | .mbxGateWrite _ => true
  | .mbxFwStage _ => true
  | .mbxFwActivate _ => true
  | .mbxFuseRollback _ => true
  | .mbxKeyRevoke _ => true
  | .mbxModulePage _ => true
  | .mbxParam _ => true
  | .mbxBivouac _ => true
  | .pldmMessage => true
  | .sidebandRead => true
  | .excServe _ _ _ => true
  | .ctlDispatch => true
  | .ctlSend _ => true
  | .txnBegin _ => true
  | .txnCommit _ => true
  | .txnRollback _ => true
  | .txnApplied _ => true
  | .txnTimeout _ => true
  | .pwrEnterBivouac => true
  | .faultReport _ => true
  | .fltPairInvalid _ => true
  | .fltTest _ => true
  | .fltLock => true
  | .dbgLock => true
  | .thermSample l => l.length == 32
  | .curGovSample _ => true
  | .pmcSnapshot => true
  | .pmcSnap => true
  | .pmcCtrValWrite _ _ => true
  | .pmbRefresh => true
  | .pmbAlert => true
  | .marginWrite _ => true
  | .trstN => true
  | .extest => true
  | .idcode => true
  | .samplePreload => true
  | .highz => true
  | .clamp => true
  | .extestPulse => true
  | .extestTrain => true
  | .dbgAccess => true
  | .bypass => true
  | .readClear _ a n => accessWf a.toNat n
  | .regWrite _ a n _ => accessWf a.toNat n
  | .belayFramingError _ => true
  | .belayControlReserved _ fr => ctlReserved fr
  | .ropePacketDiscard _ => true
  | .rxOpReserved _ => true
  | .rxColKindReserved _ => true
  | .colAbortRetry _ _ => true
  | .busMasterEnableSet _ => true
  | .vfEnableSet _ _ => true
  | .hostLinkUp _ _ => true
  | .refclkRecheck _ => true
  | .mbxOtherOpcode _ => true
  | .xltInvKindDiscard _ => true

/-- The command is well formed. -/
abbrev WellFormed (i : Instr) : Prop := i.wellFormed = true

end Sys2Proof
end

