-- ==== Sys2Proof/Certificates/Slice0/Obligations.lean ====
section
/-! DEFINITION. The statements for the provers, one definition each: a conjunction of clauses, a clause for each command or case
it names. Before them, the few words they share. -/

namespace Sys2Proof.Machine

/-- General register `n` of thread `th` (R30). -/
abbrev State.w (s : State) (th n : Nat) : TWord := (s.dev.thr th).reg n

/-- Value of general register `n` of thread `th`. -/
abbrev State.v (s : State) (th n : Nat) : Word := TWord.val ((s.dev.thr th).reg n)

/-- The state with the device `d`. -/
abbrev State.on (s : State) (d : Dev) : State := { s with dev := d }

/-- A device that is not halted lets its remote access unit go on (R173). -/
abbrev Dev.goes (d : Dev) : Dev := if d.halted then d else d.rmaGo

/-- Cells that the fabric gave back reach their units, and a device that is not halted lets its remote access unit go on. -/
abbrev Dev.fab (d : Dev) : Dev := Dev.goes d.flushLost

/-- A head cell has reached its command and is counted (R172). -/
abbrev Dev.seen (d : Dev) (c : Cell) : Dev := (d.taken c).ev 4 6 none (some c.dstFn)

/-- Its receive context opens with it (R172, R174). -/
abbrev Dev.joined (d : Dev) (c : Cell) : Dev := ((d.seen c).putRx c.key { fn := c.dstFn, last := (d.seen c).ps }).headIn c

/-- The first copy of a head cell, for a function that is ON and has room for a context (R174, R175). -/
abbrev Dev.admitsHead (d : Dev) (c : Cell) : Prop :=
  (d.seen c).rxOf c.key = none ∧ (d.seen c).rxRoom c.dstFn = true ∧ (d.joined c).fnOn c.dstFn = true

/-- The request passes steps 3 and 4 of R175 and goes on in `e`. -/
abbrev Dev.rxPasses (d : Dev) (c : Cell) (right : Nat) (e : Dev) : Prop :=
  d.winCheck c.rwin (remotePeer c.srcDev c.srcFn) right (if c.len = 0 then 0 else c.roff) c.len = 0 ∧
    (d.winLook c.rwin).arrRoom c.key c = some e

/-- A scratch access of thread `th` at byte `a` passes its gate (R52, R488); Basecamp's SRAM has none. -/
abbrev Dev.scrPass (d : Dev) (th a need : Nat) : Prop :=
  (isCore th = true ∧ a < 2 ^ 23) ∨
  (isCore th = false ∧ d.gateFail (clusterOf th + 2) (d.classOf th) (d.gateFn th) a 8 need = none)

/-- A Depot access of thread `th` at byte `a` passes its gate (R52, R489). -/
abbrev Dev.depPass (d : Dev) (th a need : Nat) : Prop :=
  d.gateFail 0 (d.classOf th) (d.gateFn th) a 8 need = none

/-- A command that may disable functions leaves the device at `d`; transactions of functions that drain end (R519). -/
abbrev State.cutTo (s : State) (d : Dev) : State :=
  { s with dev := Dev.goes d, txns := dropDrained s.dev (Dev.goes d) s.txns }

/-- The state after a command that may take the device's power: transactions and the TAP go with it (R519, R528). -/
abbrev State.powered (s : State) (d : Dev) : State :=
  { s with
    dev := d
    txns := if d.pwr.state = .bivouac || d.pwr.state = .off then [] else s.txns
    tap := if d.pwr.state = .bivouac || d.pwr.state = .off then {} else s.tap }

/-- Mailbox m holds a new request of opcode `op`, and someone serves it (R508). -/
abbrev Dev.mbxNew (d : Dev) (m op : Nat) : Prop :=
  d.mbxWaits m (fun o => o == op) = true ∧ judgeSeq (d.rd F.BCP_MBX_CTL_SEQ m) (d.rd F.BCP_MBX_STAT_DONE_SEQ m) = .execute

/-- Commands that may change a configuration transaction (R516 to R519, R528). -/
abbrev mayMoveTxns (c : Instr) : Prop :=
  match c with
  | .stP _ _ _ => True
  | .hostPerstAssert _ => True
  | .hostLinkDown _ _ => True
  | .flr _ => True
  | .busMasterClear _ => True
  | .vfEnableClear _ _ _ => True
  | .fnEnClear _ => True
  | .powerOn => True
  | .vaonLoss => True
  | .sysReset => True
  | .railPgTimeout _ => True
  | .railPgLost _ => True
  | .fwReady => True
  | .mbxGetInfo _ => True
  | .mbxGateWrite _ => True
  | .mbxFwStage _ => True
  | .mbxFwActivate _ => True
  | .mbxFuseRollback _ => True
  | .mbxKeyRevoke _ => True
  | .mbxModulePage _ => True
  | .mbxParam _ => True
  | .mbxBivouac _ => True
  | .pldmMessage => True
  | .txnBegin _ => True
  | .txnCommit _ => True
  | .txnRollback _ => True
  | .txnApplied _ => True
  | .txnTimeout _ => True
  | .pwrEnterBivouac => True
  | .readClear _ _ _ => True
  | .regWrite _ _ _ _ => True
  | .mbxOtherOpcode _ => True
  | _ => False

/-- Commands that may change the TAP (R591), or take its supply. -/
abbrev mayMoveTap (c : Instr) : Prop :=
  match c with
  | .stP _ _ _ => True
  | .powerOn => True
  | .vaonLoss => True
  | .railPgTimeout _ => True
  | .railPgLost _ => True
  | .fwReady => True
  | .mbxGetInfo _ => True
  | .mbxGateWrite _ => True
  | .mbxFwStage _ => True
  | .mbxFwActivate _ => True
  | .mbxFuseRollback _ => True
  | .mbxKeyRevoke _ => True
  | .mbxModulePage _ => True
  | .mbxParam _ => True
  | .mbxBivouac _ => True
  | .pldmMessage => True
  | .pwrEnterBivouac => True
  | .readClear _ _ _ => True
  | .regWrite _ _ _ _ => True
  | .mbxOtherOpcode _ => True
  | .trstN => True
  | .extest => True
  | .idcode => True
  | .samplePreload => True
  | .highz => True
  | .clamp => True
  | .extestPulse => True
  | .extestTrain => True
  | .dbgAccess => True
  | .bypass => True
  | _ => False

end Sys2Proof.Machine

open Sys2Proof Sys2Proof.Machine

/-- Integer, bit, move and select instructions write wd as R42 to R46 say and go on; a field that must be 0 and is not traps
ILLEGAL (R42, R43, R44, R45, R46). The rounding of divs, the sign of rems and the DTYPE that movk leaves are the model's
choice: log entry 34 (notes/assumptions). -/
def Obligations.EngineIntegerResults : Prop :=
  -- ALU
  (∀ (s : State) (th : Tid) (f : FmtA) (ext : Ext),
        s.dev.atInstr th (wordA 0x10 f) ext f.guard.toNat = true →
        extBad (s.dev.thr th) ext = false →
        f.fn.toNat ≤ 0x13 →
        exec (.alu th f ext) s = .next (s.on ((s.dev.setW th f.wd.toNat (mkWord
            (aluOp f.fn.toNat (s.v th f.wa.toNat) (s.v th f.wb.toNat))
            (resultTag (tagOf (s.w th f.wa.toNat)) (isPoison (s.w th f.wa.toNat) || isPoison (s.w th f.wb.toNat))
              (f.fn.toNat ≤ 1 && tagPtr (tagOf (s.w th f.wa.toNat)) && !tagPtr (tagOf (s.w th f.wb.toNat)))))).completed th))) ∧
  -- alu table
  (∀ (a b : Word),
        aluOp 0x000 a b = a + b ∧ aluOp 0x001 a b = a - b ∧ aluOp 0x002 a b = a &&& b ∧ aluOp 0x003 a b = a ||| b ∧
          aluOp 0x004 a b = a ^^^ b ∧ aluOp 0x005 a b = a <<< (b.toNat % 64) ∧ aluOp 0x006 a b = a >>> (b.toNat % 64) ∧
          aluOp 0x007 a b = a.sshiftRight (b.toNat % 64) ∧ aluOp 0x008 a b = a * b ∧
          aluOp 0x009 a b = BitVec.ofNat 64 (a.toNat * b.toNat / 2 ^ 64) ∧
          aluOp 0x00A a b = BitVec.ofInt 64 (a.toInt * b.toInt / 2 ^ 64) ∧
          (b ≠ 0 → aluOp 0x00B a b = a / b ∧ aluOp 0x00D a b = a % b) ∧
          (b = 0 → aluOp 0x00B a b = BitVec.allOnes 64 ∧ aluOp 0x00C a b = BitVec.allOnes 64 ∧ aluOp 0x00D a b = a ∧
            aluOp 0x00E a b = a) ∧
          (b ≠ 0 → aluOp 0x00C a b = BitVec.ofInt 64 (a.toInt.tdiv b.toInt) ∧ aluOp 0x00E a b = BitVec.ofInt 64 (a.toInt.tmod b.toInt)) ∧
          aluOp 0x00F a b = (if a.slt b then a else b) ∧ aluOp 0x010 a b = (if b.slt a then a else b) ∧
          aluOp 0x011 a b = (if a.ult b then a else b) ∧ aluOp 0x012 a b = (if b.ult a then a else b) ∧
          aluOp 0x013 a b = a &&& ~~~b) ∧
  -- ADDI
  (∀ (s : State) (th : Tid) (f : FmtI) (ext : Ext),
        s.dev.atInstr th (wordI 0x11 f) ext f.guard.toNat = true →
        exec (.addi th f ext) s = .next (s.on ((s.dev.setW th f.wd.toNat (mkWord
            (s.v th f.wa.toNat + immOf (s.dev.thr th) f ext)
            (resultTag (tagOf (s.w th f.wa.toNat)) (isPoison (s.w th f.wa.toNat)) (tagPtr (tagOf (s.w th f.wa.toNat)))))).completed th))) ∧
  -- ANDI
  (∀ (s : State) (th : Tid) (f : FmtI) (ext : Ext),
        s.dev.atInstr th (wordI 0x12 f) ext f.guard.toNat = true →
        exec (.andi th f ext) s = .next (s.on ((s.dev.setW th f.wd.toNat (mkWord
            (s.v th f.wa.toNat &&& immOf (s.dev.thr th) f ext)
            (resultTag (tagOf (s.w th f.wa.toNat)) (isPoison (s.w th f.wa.toNat)) false))).completed th))) ∧
  -- ORI
  (∀ (s : State) (th : Tid) (f : FmtI) (ext : Ext),
        s.dev.atInstr th (wordI 0x13 f) ext f.guard.toNat = true →
        exec (.ori th f ext) s = .next (s.on ((s.dev.setW th f.wd.toNat (mkWord
            (s.v th f.wa.toNat ||| immOf (s.dev.thr th) f ext)
            (resultTag (tagOf (s.w th f.wa.toNat)) (isPoison (s.w th f.wa.toNat)) false))).completed th))) ∧
  -- XORI
  (∀ (s : State) (th : Tid) (f : FmtI) (ext : Ext),
        s.dev.atInstr th (wordI 0x14 f) ext f.guard.toNat = true →
        exec (.xori th f ext) s = .next (s.on ((s.dev.setW th f.wd.toNat (mkWord
            (s.v th f.wa.toNat ^^^ immOf (s.dev.thr th) f ext)
            (resultTag (tagOf (s.w th f.wa.toNat)) (isPoison (s.w th f.wa.toNat)) false))).completed th))) ∧
  -- SHLI
  (∀ (s : State) (th : Tid) (f : FmtI) (ext : Ext),
        s.dev.atInstr th (wordI 0x15 f) ext f.guard.toNat = true →
        extBad (s.dev.thr th) ext = false →
        f.imm.toNat < 64 →
        exec (.shli th f ext) s = .next (s.on ((s.dev.setW th f.wd.toNat (mkWord
            ((s.v th f.wa.toNat) <<< f.imm.toNat)
            (resultTag (tagOf (s.w th f.wa.toNat)) (isPoison (s.w th f.wa.toNat)) false))).completed th))) ∧
  -- SHRI
  (∀ (s : State) (th : Tid) (f : FmtI) (ext : Ext),
        s.dev.atInstr th (wordI 0x16 f) ext f.guard.toNat = true →
        extBad (s.dev.thr th) ext = false →
        f.imm.toNat < 64 →
        exec (.shri th f ext) s = .next (s.on ((s.dev.setW th f.wd.toNat (mkWord
            ((s.v th f.wa.toNat) >>> f.imm.toNat)
            (resultTag (tagOf (s.w th f.wa.toNat)) (isPoison (s.w th f.wa.toNat)) false))).completed th))) ∧
  -- SRAI
  (∀ (s : State) (th : Tid) (f : FmtI) (ext : Ext),
        s.dev.atInstr th (wordI 0x17 f) ext f.guard.toNat = true →
        extBad (s.dev.thr th) ext = false →
        f.imm.toNat < 64 →
        exec (.srai th f ext) s = .next (s.on ((s.dev.setW th f.wd.toNat (mkWord
            ((s.v th f.wa.toNat).sshiftRight f.imm.toNat)
            (resultTag (tagOf (s.w th f.wa.toNat)) (isPoison (s.w th f.wa.toNat)) false))).completed th))) ∧
  -- MOVI
  (∀ (s : State) (th : Tid) (f : FmtW) (ext : Ext),
        s.dev.atInstr th (wordW 0x18 f) ext 0 = true →
        exec (.movi th f ext) s = .next (s.on ((s.dev.setW th f.wd.toNat (mkWord
            (if pcCmd (s.dev.thr th).pc then BitVec.ofInt 64 (signed (ext.toNat * 2 ^ 23 + f.imm.toNat) 51)
             else BitVec.ofInt 64 (signed f.imm.toNat 23)) 0)).completed th))) ∧
  -- MOVK
  (∀ (s : State) (th : Tid) (f : FmtW) (ext : Ext),
        s.dev.atInstr th (wordW 0x19 f) ext 0 = true →
        extBad (s.dev.thr th) ext = false →
        f.imm.toNat < 2 ^ 18 →
        exec (.movk th f ext) s = .next (s.on ((s.dev.setW th f.wd.toNat (mkWord
            (setBits (s.v th f.wd.toNat) (16 * bitsOf f.imm.toNat 16 2) 16 (bitsOf f.imm.toNat 0 16))
            (tagOf (s.w th f.wd.toNat) % 32))).completed th))) ∧
  -- BIT
  (∀ (s : State) (th : Tid) (f : FmtA) (ext : Ext),
        s.dev.atInstr th (wordA 0x1A f) ext f.guard.toNat = true →
        extBad (s.dev.thr th) ext = false →
        f.fn.toNat ≤ 4 →
        f.wb = 0 →
        exec (.bit th f ext) s = .next (s.on ((s.dev.setW th f.wd.toNat (mkWord
            (BitVec.ofNat 64 (match f.fn.toNat with
              | 0 => popCount (s.v th f.wa.toNat) 64
              | 1 => clz (s.v th f.wa.toNat)
              | 2 => ctz (s.v th f.wa.toNat)
              | 3 => bswap (s.v th f.wa.toNat)
              | _ => brev (s.v th f.wa.toNat)))
            (resultTag (tagOf (s.w th f.wa.toNat)) (isPoison (s.w th f.wa.toNat)) false))).completed th))) ∧
  -- bit zero
  (      clz 0 = 64 ∧ ctz 0 = 64 ∧ popCount 0 64 = 0 ∧ popCount (BitVec.allOnes 64) 64 = 64 ∧ bswap 0x0102030405060708 = 0x0807060504030201 ∧
          brev 1 = 2 ^ 63 ∧ brev 0x8000000000000002 = 0x4000000000000001) ∧
  -- SEL
  (∀ (s : State) (th : Tid) (f : FmtA) (ext : Ext),
        s.dev.atInstr th (wordA 0x1B f) ext f.guard.toNat = true →
        extBad (s.dev.thr th) ext = false →
        f.fn.toNat < 8 →
        exec (.sel th f ext) s = .next (s.on ((s.dev.setW th f.wd.toNat
            (if (s.dev.thr th).pred f.fn.toNat then
              mkWord (s.v th f.wa.toNat) (resultTag (tagOf (s.w th f.wa.toNat)) (isPoison (s.w th f.wa.toNat)) false)
             else mkWord (s.v th f.wb.toNat) (resultTag (tagOf (s.w th f.wa.toNat)) (isPoison (s.w th f.wb.toNat)) false))).completed th))) ∧
  -- SHLI (illegal)
  (∀ (s : State) (th : Tid) (f : FmtI) (ext : Ext),
        s.dev.atInstr th (wordI 0x15 f) ext f.guard.toNat = true →
        64 ≤ f.imm.toNat →
        exec (.shli th f ext) s = .next (s.on (s.dev.trap th 1 (BitVec.ofNat 64 (wordI 0x15 f)) (s.dev.thr th).pc))) ∧
  -- SHRI (illegal)
  (∀ (s : State) (th : Tid) (f : FmtI) (ext : Ext),
        s.dev.atInstr th (wordI 0x16 f) ext f.guard.toNat = true →
        64 ≤ f.imm.toNat →
        exec (.shri th f ext) s = .next (s.on (s.dev.trap th 1 (BitVec.ofNat 64 (wordI 0x16 f)) (s.dev.thr th).pc))) ∧
  -- SRAI (illegal)
  (∀ (s : State) (th : Tid) (f : FmtI) (ext : Ext),
        s.dev.atInstr th (wordI 0x17 f) ext f.guard.toNat = true →
        64 ≤ f.imm.toNat →
        exec (.srai th f ext) s = .next (s.on (s.dev.trap th 1 (BitVec.ofNat 64 (wordI 0x17 f)) (s.dev.thr th).pc))) ∧
  -- MOVK (illegal)
  (∀ (s : State) (th : Tid) (f : FmtW) (ext : Ext),
        s.dev.atInstr th (wordW 0x19 f) ext 0 = true →
        2 ^ 18 ≤ f.imm.toNat →
        exec (.movk th f ext) s = .next (s.on (s.dev.trap th 1 (BitVec.ofNat 64 (wordW 0x19 f)) (s.dev.thr th).pc))) ∧
  -- BIT (illegal)
  (∀ (s : State) (th : Tid) (f : FmtA) (ext : Ext),
        s.dev.atInstr th (wordA 0x1A f) ext f.guard.toNat = true →
        (4 < f.fn.toNat ∨ f.wb ≠ 0) →
        exec (.bit th f ext) s = .next (s.on (s.dev.trap th 1 (BitVec.ofNat 64 (wordA 0x1A f)) (s.dev.thr th).pc))) ∧
  -- SEL (illegal)
  (∀ (s : State) (th : Tid) (f : FmtA) (ext : Ext),
        s.dev.atInstr th (wordA 0x1B f) ext f.guard.toNat = true →
        8 ≤ f.fn.toNat →
        exec (.sel th f ext) s = .next (s.on (s.dev.trap th 1 (BitVec.ofNat 64 (wordA 0x1B f)) (s.dev.thr th).pc)))

/-- Compares, pop and the tag instructions write the predicate or the tag that R47 to R49 state; a field that must be 0 and is
not traps ILLEGAL (R47, R48, R49). -/
def Obligations.EnginePredicatesAndTags : Prop :=
  -- CMP
  (∀ (s : State) (th : Tid) (f : FmtA) (ext : Ext),
        s.dev.atInstr th (wordA 0x1C f) ext f.guard.toNat = true →
        extBad (s.dev.thr th) ext = false →
        f.fn.toNat ≤ 5 →
        f.wd.toNat < 8 →
        (s.dev.thr th).poisonIn [f.wa.toNat, f.wb.toNat] = none →
        exec (.cmp th f ext) s = .next (s.on ((s.dev.setThr th ((s.dev.thr th).setPred f.wd.toNat
            (match f.fn.toNat with
              | 0 => s.v th f.wa.toNat == s.v th f.wb.toNat
              | 1 => s.v th f.wa.toNat != s.v th f.wb.toNat
              | 2 => (s.v th f.wa.toNat).slt (s.v th f.wb.toNat)
              | 3 => (s.v th f.wb.toNat).sle (s.v th f.wa.toNat)
              | 4 => (s.v th f.wa.toNat).ult (s.v th f.wb.toNat)
              | _ => (s.v th f.wb.toNat).ule (s.v th f.wa.toNat)))).completed th))) ∧
  -- CMPI_EQ
  (∀ (s : State) (th : Tid) (f : FmtI) (ext : Ext),
        s.dev.atInstr th (wordI 0x1D f) ext f.guard.toNat = true →
        f.wd.toNat < 8 →
        (s.dev.thr th).poisonIn [f.wa.toNat] = none →
        exec (.cmpiEq th f ext) s = .next (s.on ((s.dev.setThr th ((s.dev.thr th).setPred f.wd.toNat (s.v th f.wa.toNat == immOf (s.dev.thr th) f ext))).completed th))) ∧
  -- CMPI_LT
  (∀ (s : State) (th : Tid) (f : FmtI) (ext : Ext),
        s.dev.atInstr th (wordI 0x1E f) ext f.guard.toNat = true →
        f.wd.toNat < 8 →
        (s.dev.thr th).poisonIn [f.wa.toNat] = none →
        exec (.cmpiLt th f ext) s = .next (s.on ((s.dev.setThr th ((s.dev.thr th).setPred f.wd.toNat ((s.v th f.wa.toNat).slt (immOf (s.dev.thr th) f ext)))).completed th))) ∧
  -- CMPI_LTU
  (∀ (s : State) (th : Tid) (f : FmtI) (ext : Ext),
        s.dev.atInstr th (wordI 0x1F f) ext f.guard.toNat = true →
        f.wd.toNat < 8 →
        (s.dev.thr th).poisonIn [f.wa.toNat] = none →
        exec (.cmpiLtu th f ext) s = .next (s.on ((s.dev.setThr th ((s.dev.thr th).setPred f.wd.toNat ((s.v th f.wa.toNat).ult (immOf (s.dev.thr th) f ext)))).completed th))) ∧
  -- POP
  (∀ (s : State) (th : Tid) (f : FmtA) (ext : Ext),
        s.dev.atInstr th (wordA 0x20 f) ext f.guard.toNat = true →
        extBad (s.dev.thr th) ext = false →
        f.fn.toNat ≤ 3 →
        (f.wd.toNat < 8 ∧ f.wa.toNat < 8 ∧ f.wb.toNat < 8) →
        exec (.pop th f ext) s = .next (s.on ((s.dev.setThr th ((s.dev.thr th).setPred f.wd.toNat
            (match f.fn.toNat with
              | 0 => (s.dev.thr th).pred f.wa.toNat && (s.dev.thr th).pred f.wb.toNat
              | 1 => (s.dev.thr th).pred f.wa.toNat || (s.dev.thr th).pred f.wb.toNat
              | 2 => (s.dev.thr th).pred f.wa.toNat != (s.dev.thr th).pred f.wb.toNat
              | _ => (s.dev.thr th).pred f.wa.toNat && !(s.dev.thr th).pred f.wb.toNat))).completed th))) ∧
  -- TAG_GET
  (∀ (s : State) (th : Tid) (f : FmtA) (ext : Ext),
        s.dev.atInstr th (wordA 0x28 f) ext f.guard.toNat = true →
        extBad (s.dev.thr th) ext = false →
        f.fn = 0 →
        f.wb = 0 →
        exec (.tagGet th f ext) s =
            .next (s.on ((s.dev.setW th f.wd.toNat (BitVec.ofNat 72 (tagOf (s.w th f.wa.toNat)))).completed th))) ∧
  -- TAG_SET
  (∀ (s : State) (th : Tid) (f : FmtA) (ext : Ext),
        s.dev.atInstr th (wordA 0x28 f) ext f.guard.toNat = true →
        extBad (s.dev.thr th) ext = false →
        f.fn = 1 →
        ((s.dev.thr th).priv = true ∨ isPoison (s.w th f.wa.toNat) = false ∨ tagPoison ((s.v th f.wb.toNat).toNat % 256) = true) →
        exec (.tagSet th f ext) s = .next (s.on ((s.dev.setW th f.wd.toNat (mkWord (s.v th f.wa.toNat)
            ((s.v th f.wb.toNat).toNat % 64))).completed th))) ∧
  -- TAG_SETI
  (∀ (s : State) (th : Tid) (f : FmtI) (ext : Ext),
        s.dev.atInstr th (wordI 0x29 f) ext f.guard.toNat = true →
        extBad (s.dev.thr th) ext = false →
        f.imm.toNat < 256 →
        ((s.dev.thr th).priv = true ∨ isPoison (s.w th f.wa.toNat) = false ∨ tagPoison f.imm.toNat = true) →
        exec (.tagSeti th f ext) s =
            .next (s.on ((s.dev.setW th f.wd.toNat (mkWord (s.v th f.wa.toNat) (f.imm.toNat % 64))).completed th))) ∧
  -- TAG_TST
  (∀ (s : State) (th : Tid) (f : FmtI) (ext : Ext),
        s.dev.atInstr th (wordI 0x2A f) ext f.guard.toNat = true →
        extBad (s.dev.thr th) ext = false →
        f.imm.toNat < 16 →
        f.wd.toNat < 8 →
        exec (.tagTst th f ext) s = .next (s.on ((s.dev.setThr th ((s.dev.thr th).setPred f.wd.toNat
            (tagOf (s.w th f.wa.toNat) % 16 == f.imm.toNat && !isPoison (s.w th f.wa.toNat)))).completed th))) ∧
  -- CMP (illegal)
  (∀ (s : State) (th : Tid) (f : FmtA) (ext : Ext),
        s.dev.atInstr th (wordA 0x1C f) ext f.guard.toNat = true →
        (5 < f.fn.toNat ∨ 8 ≤ f.wd.toNat) →
        exec (.cmp th f ext) s = .next (s.on (s.dev.trap th 1 (BitVec.ofNat 64 (wordA 0x1C f)) (s.dev.thr th).pc))) ∧
  -- CMPI_EQ (illegal)
  (∀ (s : State) (th : Tid) (f : FmtI) (ext : Ext),
        s.dev.atInstr th (wordI 0x1D f) ext f.guard.toNat = true →
        8 ≤ f.wd.toNat →
        exec (.cmpiEq th f ext) s = .next (s.on (s.dev.trap th 1 (BitVec.ofNat 64 (wordI 0x1D f)) (s.dev.thr th).pc))) ∧
  -- CMPI_LT (illegal)
  (∀ (s : State) (th : Tid) (f : FmtI) (ext : Ext),
        s.dev.atInstr th (wordI 0x1E f) ext f.guard.toNat = true →
        8 ≤ f.wd.toNat →
        exec (.cmpiLt th f ext) s = .next (s.on (s.dev.trap th 1 (BitVec.ofNat 64 (wordI 0x1E f)) (s.dev.thr th).pc))) ∧
  -- CMPI_LTU (illegal)
  (∀ (s : State) (th : Tid) (f : FmtI) (ext : Ext),
        s.dev.atInstr th (wordI 0x1F f) ext f.guard.toNat = true →
        8 ≤ f.wd.toNat →
        exec (.cmpiLtu th f ext) s = .next (s.on (s.dev.trap th 1 (BitVec.ofNat 64 (wordI 0x1F f)) (s.dev.thr th).pc))) ∧
  -- POP (illegal)
  (∀ (s : State) (th : Tid) (f : FmtA) (ext : Ext),
        s.dev.atInstr th (wordA 0x20 f) ext f.guard.toNat = true →
        (3 < f.fn.toNat ∨ 8 ≤ f.wd.toNat ∨ 8 ≤ f.wa.toNat ∨ 8 ≤ f.wb.toNat) →
        exec (.pop th f ext) s = .next (s.on (s.dev.trap th 1 (BitVec.ofNat 64 (wordA 0x20 f)) (s.dev.thr th).pc))) ∧
  -- TAG_SETI (illegal)
  (∀ (s : State) (th : Tid) (f : FmtI) (ext : Ext),
        s.dev.atInstr th (wordI 0x29 f) ext f.guard.toNat = true →
        256 ≤ f.imm.toNat →
        exec (.tagSeti th f ext) s = .next (s.on (s.dev.trap th 1 (BitVec.ofNat 64 (wordI 0x29 f)) (s.dev.thr th).pc))) ∧
  -- TAG_TST (illegal)
  (∀ (s : State) (th : Tid) (f : FmtI) (ext : Ext),
        s.dev.atInstr th (wordI 0x2A f) ext f.guard.toNat = true →
        (16 ≤ f.imm.toNat ∨ 8 ≤ f.wd.toNat) →
        exec (.tagTst th f ext) s = .next (s.on (s.dev.trap th 1 (BitVec.ofNat 64 (wordI 0x2A f)) (s.dev.thr th).pc)))

/-- nop, yield, context registers, prog.swap, branches, calls, jumps and invoke do what R69 to R73 state (R30, R31, R69, R71,
R72, R73, R86). Where the model chose behind these rules: log entries 12, 17 (notes/assumptions). -/
def Obligations.EngineSystemAndControl : Prop :=
  -- NOP
  (∀ (s : State) (th : Tid) (f : FmtA) (ext : Ext),
        s.dev.atInstr th (wordA 0x01 f) ext f.guard.toNat = true →
        extBad (s.dev.thr th) ext = false →
        (f.wd = 0 ∧ f.wa = 0 ∧ f.wb = 0 ∧ f.fn = 0) →
        exec (.nop th f ext) s = .next (s.on ((s.dev.wasted th).goOn th))) ∧
  -- YIELD
  (∀ (s : State) (th : Tid) (f : FmtA) (ext : Ext),
        s.dev.atInstr th (wordA 0x03 f) ext f.guard.toNat = true →
        extBad (s.dev.thr th) ext = false →
        (f.wd = 0 ∧ f.wa = 0 ∧ f.wb = 0 ∧ f.fn = 0) →
        exec (.yield th f ext) s = .next (s.on ((s.dev.wasted th).goOn th))) ∧
  -- RDC
  (∀ (s : State) (th : Tid) (f : FmtA) (ext : Ext),
        s.dev.atInstr th (wordA 0x06 f) ext f.guard.toNat = true →
        extBad (s.dev.thr th) ext = false →
        (f.wb = 0 ∧ f.fn = 0) →
        ctxReserved f.wa.toNat = false →
        f.wa.toNat ≠ 15 →
        (f.wa.toNat = 8 → (s.dev.thr th).priv = true) →
        exec (.rdc th f ext) s =
            .next (s.on ((s.dev.setW th f.wd.toNat (BitVec.ofNat 72 (s.dev.ctxRead th f.wa.toNat % 2 ^ 64))).completed th))) ∧
  -- RDC (time)
  (∀ (s : State) (th : Tid) (f : FmtA) (ext : Ext),
        s.dev.atInstr th (wordA 0x06 f) ext f.guard.toNat = true →
        extBad (s.dev.thr th) ext = false →
        (f.wb = 0 ∧ f.fn = 0) →
        f.wa = 15 →
        exec (.rdc th f ext) s =
            .next (s.on (((s.dev.updThr th (fun t => { t with ftfrac := s.dev.ns16 % 2 ^ 16 })).setW th f.wd.toNat
              (BitVec.ofNat 72 (s.dev.ns % 2 ^ 64))).completed th))) ∧
  -- WRC
  (∀ (s : State) (th : Tid) (f : FmtA) (ext : Ext),
        s.dev.atInstr th (wordA 0x07 f) ext f.guard.toNat = true →
        extBad (s.dev.thr th) ext = false →
        (f.wb = 0 ∧ f.fn = 0) →
        f.wd = 20 →
        exec (.wrc th f ext) s = .next (s.on ((s.dev.updThr th (fun t =>
            { t with timer := (s.v th f.wa.toNat).toNat, timerFn := t.fn,
                     timerSlot := if pcCmd t.pc then none else some (pcSlot t.pc) })).completed th))) ∧
  -- WRC (asid)
  (∀ (s : State) (th : Tid) (f : FmtA) (ext : Ext),
        s.dev.atInstr th (wordA 0x07 f) ext f.guard.toNat = true →
        extBad (s.dev.thr th) ext = false →
        (f.wb = 0 ∧ f.fn = 0) →
        f.wd = 2 →
        (s.dev.thr th).priv = true →
        s.dev.flag F.XLT_CFG_MODE = false →
        exec (.wrc th f ext) s =
            .next (s.on ((s.dev.updThr th (fun t => { t with asid := (s.v th f.wa.toNat).toNat % 2 ^ 16 })).completed th))) ∧
  -- PROG_SWAP
  (∀ (s : State) (th : Tid) (f : FmtA) (ext : Ext),
        s.dev.atInstr th (wordA 0x08 f) ext f.guard.toNat = true →
        extBad (s.dev.thr th) ext = false →
        f.fn = 0 →
        (s.dev.thr th).priv = true →
        (s.dev.thr th).poisonIn [f.wa.toNat, f.wb.toNat] = none →
        s.dev.flag F.ENG_SLOT_STAT_DRAINING (bitsOf (s.v th f.wa.toNat).toNat 0 10) = false →
        exec (.progSwap th f ext) s = .next (s.on (((s.dev.swap (bitsOf (s.v th f.wa.toNat).toNat 0 10)
            (s.v th f.wb.toNat).toNat (bitsOf (s.v th f.wa.toNat).toNat 16 16)).1.setW th f.wd.toNat 0).completed th))) ∧
  -- PROG_SWAP (image)
  (∀ (d : Dev) (n img len : Nat),
        d.flag F.ENG_SLOT_STAT_DRAINING n = false →
        n < 1024 →
        (d.swap n img len).1.rd F.ENG_SLOT_STAT_VERSION n = (d.rd F.ENG_SLOT_STAT_VERSION n + 1) % 256 ∧
          (d.swap n img len).1.rd F.ENG_SLOT_STAT_ACTIVE_NEW n = 0 ∧
          (d.swap n img len).1.rd F.ENG_SLOT_CTL_LEN_M1 n = len % 2 ^ 16 ∧
          (d.swap n img len).1.rd F.ENG_SLOT_IMG_BASE n = img % 2 ^ 57 ∧
          (d.rd F.ENG_SLOT_STAT_ACTIVE_NEW n ≠ 0 →
            (d.swap n img len).1.rd F.ENG_SLOT_STAT_ACTIVE_OLD n = d.rd F.ENG_SLOT_STAT_ACTIVE_NEW n)) ∧
  -- BR
  (∀ (s : State) (th : Tid) (f : FmtB) (ext : Ext),
        s.dev.atInstr th (wordB 0x70 f) ext f.guard.toNat = true →
        extBad (s.dev.thr th) ext = false →
        pcCmd (s.dev.thr th).pc = false →
        s.dev.targetOk th (pcIndex (s.dev.thr th).pc + f.off.toInt) = true →
        exec (.br th f ext) s = .next (s.on ((s.dev.updThr th (fun t =>
            { t with pc := setBits (s.dev.thr th).pc 0 17 (pcIndex (s.dev.thr th).pc + f.off.toInt).toNat, past := false })).retired th))) ∧
  -- CALL
  (∀ (s : State) (th : Tid) (f : FmtB) (ext : Ext),
        s.dev.atInstr th (wordB 0x71 f) ext f.guard.toNat = true →
        extBad (s.dev.thr th) ext = false →
        pcCmd (s.dev.thr th).pc = false →
        s.dev.targetOk th (pcIndex (s.dev.thr th).pc + f.off.toInt) = true →
        exec (.call th f ext) s = .next (s.on (((s.dev.setW th 31 (mkWord (pcNext (s.dev.thr th).pc) 32)).updThr th (fun t =>
            { t with pc := setBits (s.dev.thr th).pc 0 17 (pcIndex (s.dev.thr th).pc + f.off.toInt).toNat, past := false })).retired th))) ∧
  -- JR
  (∀ (s : State) (th : Tid) (f : FmtA) (ext : Ext),
        s.dev.atInstr th (wordA 0x72 f) ext f.guard.toNat = true →
        extBad (s.dev.thr th) ext = false →
        (f.wd = 0 ∧ f.wb = 0 ∧ f.fn = 0) →
        pcCmd (s.dev.thr th).pc = false →
        getBits (s.v th f.wa.toNat) 17 19 = getBits (s.dev.thr th).pc 17 19 →
        (s.dev.thr th).poisonIn [f.wa.toNat] = none →
        s.dev.targetOk th (pcIndex (s.v th f.wa.toNat)) = true →
        exec (.jr th f ext) s = .next (s.on ((s.dev.updThr th (fun t =>
            { t with pc := setBits (s.dev.thr th).pc 0 17 (pcIndex (s.v th f.wa.toNat)), past := false })).retired th))) ∧
  -- INVOKE
  (∀ (s : State) (th : Tid) (f : FmtW) (ext : Ext),
        s.dev.atInstr th (wordW 0x73 f) ext 0 = true →
        extBad (s.dev.thr th) ext = false →
        f.imm.toNat < 2 ^ 14 →
        f.wd = 0 →
        (s.dev.rd F.ENG_SLOT_CTL_OWNER_FN (bitsOf f.imm.toNat 0 10) = (s.dev.thr th).fn ∨
          s.dev.flag F.ENG_SLOT_CTL_SHARED (bitsOf f.imm.toNat 0 10) = true) →
        (s.dev.flag F.ENG_SLOT_CTL_PRIV (bitsOf f.imm.toNat 0 10) = true → (s.dev.thr th).priv = true) →
        s.dev.flag F.ENG_SLOT_CTL_EN (bitsOf f.imm.toNat 0 10) = true →
        (s.dev.thr th).inSlot = none →
        exec (.invoke th f ext) s = .next (s.on (((s.dev.enterSlot (bitsOf f.imm.toNat 0 10)).updThr th (fun t =>
            { t with
              inSlot := some (bitsOf f.imm.toNat 0 10, s.dev.slotVer (bitsOf f.imm.toNat 0 10))
              pc := mkPc (bitsOf f.imm.toNat 10 4) (bitsOf f.imm.toNat 0 10) (s.dev.slotVer (bitsOf f.imm.toNat 0 10)) })).retired th)))

/-- A trap fills its save area, sets CAUSE, TVAL, TPC and supervisor privilege, begins entry 0 of the trap slot, and touches
nothing else (R74, R75, R76, R78). Where the model chose behind these rules: log entry 12 (notes/assumptions). -/
def Obligations.TrapEntry : Prop :=
  -- entry
  (∀ (d : Dev) (th cause : Nat) (tval tpc : Word) (n : Nat),
        (d.thr th).inTrap = false →
        d.flag F.ENG_FN_TRAP_EN (d.thr th).fn = true →
        n = d.rd F.ENG_FN_TRAP_SLOT (d.thr th).fn →
        d.flag F.ENG_SLOT_CTL_EN n = true →
        ((d.trap th cause tval tpc).thr th).cause = BitVec.ofNat 64 cause ∧
          ((d.trap th cause tval tpc).thr th).tval = tval ∧ ((d.trap th cause tval tpc).thr th).tpc = tpc ∧
          ((d.trap th cause tval tpc).thr th).priv = true ∧ ((d.trap th cause tval tpc).thr th).event = 5 ∧
          ((d.trap th cause tval tpc).thr th).st = .ready ∧ ((d.trap th cause tval tpc).thr th).pc = mkPc 0 n (d.slotVer n) ∧
          ((d.trap th cause tval tpc).thr th).reg 1 = mkWord (BitVec.ofNat 64 cause) 0 ∧
          ((d.trap th cause tval tpc).thr th).reg 2 = mkWord tval 0 ∧ ((d.trap th cause tval tpc).thr th).reg 3 = mkWord tpc 0 ∧
          (∀ k, 3 < k → ((d.trap th cause tval tpc).thr th).reg k = (d.thr th).reg k) ∧
          ((d.trap th cause tval tpc).thr th).fn = (d.thr th).fn ∧ ((d.trap th cause tval tpc).thr th).asid = (d.thr th).asid ∧
          (∀ t, t ≠ th → (d.trap th cause tval tpc).thr t = d.thr t) ∧ (d.trap th cause tval tpc).dep = d.dep) ∧
  -- saved
  (∀ (d : Dev) (th cause : Nat) (tval tpc : Word) (k : Nat),
        (d.thr th).inTrap = false →
        d.flag F.ENG_FN_TRAP_EN (d.thr th).fn = true →
        d.flag F.ENG_SLOT_CTL_EN (d.rd F.ENG_FN_TRAP_SLOT (d.thr th).fn) = true →
        k < 7 →
        (d.trap th cause tval tpc).scrWord (clusterOf th) (saveArea th) = mkWord tpc 0 ∧
          (d.trap th cause tval tpc).scrWord (clusterOf th) (saveArea th + 8) = mkWord (BitVec.ofNat 64 cause) 0 ∧
          (d.trap th cause tval tpc).scrWord (clusterOf th) (saveArea th + 16) = mkWord tval 0 ∧
          (d.trap th cause tval tpc).scrWord (clusterOf th) (saveArea th + 24) =
            mkWord (BitVec.ofNat 64 ((d.thr th).p.toNat / 2 * 2 + 1 + (if (d.thr th).priv then 256 else 0))) 0 ∧
          (d.trap th cause tval tpc).scrWord (clusterOf th) (saveArea th + 32) =
            mkWord (BitVec.ofNat 64 ((d.thr th).asid + (d.thr th).fn * 2 ^ 16)) 0 ∧
          (d.trap th cause tval tpc).scrWord (clusterOf th) (saveArea th + 40) =
            mkWord (BitVec.ofNat 64 ((d.thr th).queue + (if (d.thr th).cmd then 2 ^ 16 else 0))) 0 ∧
          (d.trap th cause tval tpc).scrWord (clusterOf th) (saveArea th + 8 * (8 + k)) = (d.thr th).reg (k + 1))

/-- trap, halt, eret and exc.fwd, and the traps that keep any instruction from taking effect (R25, R39, R41, R72, R74, R77, R78,
R111, R511). Where the model chose behind these rules: log entries 12, 17 (notes/assumptions). -/
def Obligations.EngineEndsAndTraps : Prop :=
  -- TRAP
  (∀ (s : State) (th : Tid) (f : FmtI) (ext : Ext),
        s.dev.atInstr th (wordI 0x02 f) ext f.guard.toNat = true →
        extBad (s.dev.thr th) ext = false →
        (f.wd = 0 ∧ f.wa = 0) →
        (s.dev.thr th).inTrap = false →
        s.dev.flag F.ENG_FN_TRAP_EN (s.dev.thr th).fn = true →
        s.dev.flag F.ENG_SLOT_CTL_EN (s.dev.rd F.ENG_FN_TRAP_SLOT (s.dev.thr th).fn) = true →
        exec (.trap th f ext) s = .next (s.on (s.dev.trap th 10 (f.imm.setWidth 64) (pcNext (s.dev.thr th).pc)))) ∧
  -- HALT
  (∀ (s : State) (th : Tid) (f : FmtA) (ext : Ext),
        s.dev.atInstr th (wordA 0x04 f) ext f.guard.toNat = true →
        s.dev.halted = false →
        extBad (s.dev.thr th) ext = false →
        (f.wd = 0 ∧ f.wa = 0 ∧ f.wb = 0 ∧ f.fn = 0) →
        (s.dev.thr th).inTrap = false →
        ((s.dev.thr th).cmd = true ∧ (s.dev.thr th).noEntry = false) →
        exec (.halt th f ext) s = .next (s.on ((((s.dev.idle th).entryEnd (s.dev.thr th).queue (s.dev.thr th).seq 0).retired th).rmaGo)) ∧
          (((s.dev.idle th).entryEnd (s.dev.thr th).queue (s.dev.thr th).seq 0).thr th).st = .wait ∧
          (((s.dev.idle th).entryEnd (s.dev.thr th).queue (s.dev.thr th).seq 0).thr th).active = false) ∧
  -- HALT (event)
  (∀ (s : State) (th : Tid) (f : FmtA) (ext : Ext),
        s.dev.atInstr th (wordA 0x04 f) ext f.guard.toNat = true →
        s.dev.halted = false →
        extBad (s.dev.thr th) ext = false →
        (f.wd = 0 ∧ f.wa = 0 ∧ f.wb = 0 ∧ f.fn = 0) →
        (s.dev.thr th).inTrap = false →
        (s.dev.thr th).cmd = false →
        exec (.halt th f ext) s = .next (s.on (((s.dev.idle th).retired th).rmaGo))) ∧
  -- ERET
  (∀ (s : State) (th : Tid) (f : FmtA) (ext : Ext),
        s.dev.atInstr th (wordA 0x05 f) ext f.guard.toNat = true →
        s.dev.halted = false →
        (f.wd = 0 ∧ f.wa = 0 ∧ f.wb = 0 ∧ f.fn = 0) →
        ((s.dev.thr th).inTrap = true ∧ (s.dev.thr th).priv = true ∧ pcCmd (s.dev.thr th).pc = false) →
        ((s.dev.thr th).trapEv = none ∧ (s.dev.thr th).noEntry = false ∧ (s.dev.thr th).trapped.isSome = true) →
        getBits (TWord.val (s.dev.scrWord (clusterOf th) (saveArea th))) 17 19 = getBits (s.dev.thr th).tpc 17 19 →
        pcCmd (s.dev.thr th).tpc = false →
        (isCore th = true ∨ (((s.dev.thr th).trapped.map Prod.fst).getD none).isSome = true) →
        exec (.eret th f ext) s = .next (s.on ((((s.dev.restore th).updThr th (fun t =>
            { t with pc := setBits (s.dev.thr th).tpc 0 17 (pcIndex (TWord.val (s.dev.scrWord (clusterOf th) (saveArea th)))), past := false })).retired th).rmaGo)) ∧
          ((s.dev.restore th).thr th).st = .ready ∧
          ((s.dev.restore th).thr th).priv = (getBits (TWord.val (s.dev.scrWord (clusterOf th) (saveArea th + 24))) 8 1 == 1) ∧
          ((s.dev.restore th).thr th).p =
            BitVec.ofNat 8 (getBits (TWord.val (s.dev.scrWord (clusterOf th) (saveArea th + 24))) 1 7 * 2) ∧
          ((s.dev.restore th).thr th).asid = getBits (TWord.val (s.dev.scrWord (clusterOf th) (saveArea th + 32))) 0 16 ∧
          (∀ k < 7, ((s.dev.restore th).thr th).reg (k + 1) = s.dev.scrWord (clusterOf th) (saveArea th + 8 * (8 + k)))) ∧
  -- EXC_FWD
  (∀ (s : State) (th : Tid) (f : FmtA) (ext : Ext),
        s.dev.atInstr th (wordA 0x09 f) ext f.guard.toNat = true →
        (f.wb = 0 ∧ f.fn = 0) →
        ((s.dev.thr th).priv = true ∧ pcCmd (s.dev.thr th).pc = false) →
        (s.dev.thr th).poisonIn [f.wa.toNat] = none →
        ((s.v th f.wa.toNat).toNat % 8 = 0 ∧ (s.v th f.wa.toNat).toNat + 64 ≤ 2 ^ 20) →
        (isCore th = true ∨ ∀ k < 8, s.dev.gateFail (clusterOf th + 2) (s.dev.classOf th) (s.dev.gateFn th)
            ((s.v th f.wa.toNat).toNat + 8 * k) 8 1 = none) →
        ((s.dev.excOf (s.dev.thr th).fn).length < clampTo 1 32 (s.dev.rd F.BCP_EXC_CFG_DEPTH) ∧ s.dev.bcp.exc.length < 8192 ∧ s.dev.bcp.swap = none) →
        exec (.excFwd th f ext) s = .next (s.on (({ s.dev with bcp.exc := s.dev.bcp.exc ++ [ExcRec.mk (s.dev.thr th).fn ((List.range 8).map (fun k => TWord.val (s.dev.scrWord (clusterOf th) ((s.v th f.wa.toNat).toNat + 8 * k))))] }.setW th
              f.wd.toNat 0).completed th))) ∧
  -- guard off
  (∀ (s : State) (th : Tid) (f : FmtA) (ext : Ext),
        s.dev.ready th = true →
        (isCore th = false ∧ pcCmd (s.dev.thr th).pc = true) →
        s.dev.fetched th (s.dev.thr th).pc = some (wordA 0x10 f, ext.toNat) →
        guardOk (s.dev.thr th) f.guard.toNat = false →
        exec (.alu th f ext) s = .next (s.on ((s.dev.wasted th).goOn th))) ∧
  -- illegal
  (∀ (s : State) (th : Tid) (f : FmtA) (ext : Ext),
        s.dev.atInstr th (wordA 0x10 f) ext f.guard.toNat = true →
        (extBad (s.dev.thr th) ext = true ∨ 0x13 < f.fn.toNat) →
        exec (.alu th f ext) s =
            .next (s.on (s.dev.trap th 1 (BitVec.ofNat 64 (wordA 0x10 f)) (s.dev.thr th).pc))) ∧
  -- privilege
  (∀ (s : State) (th : Tid) (f : FmtA) (ext : Ext),
        s.dev.atInstr th (wordA 0x08 f) ext f.guard.toNat = true →
        (extBad (s.dev.thr th) ext = false ∧ f.fn = 0) →
        (s.dev.thr th).priv = false →
        exec (.progSwap th f ext) s =
            .next (s.on (s.dev.trap th 2 (BitVec.ofNat 64 (wordA 0x08 f)) (s.dev.thr th).pc))) ∧
  -- poison
  (∀ (s : State) (th : Tid) (f : FmtA) (ext : Ext) (n : Nat),
        s.dev.atInstr th (wordA 0x1C f) ext f.guard.toNat = true →
        (extBad (s.dev.thr th) ext = false ∧ f.fn.toNat ≤ 5 ∧ f.wd.toNat < 8) →
        (s.dev.thr th).poisonIn [f.wa.toNat, f.wb.toNat] = some n →
        exec (.cmp th f ext) s = .next (s.on (s.dev.trap th 4 (BitVec.ofNat 64 n) (s.dev.thr th).pc))) ∧
  -- double
  (∀ (s : State) (th : Tid) (f : FmtA) (ext : Ext),
        s.dev.atInstr th (wordA 0x10 f) ext f.guard.toNat = true →
        0x13 < f.fn.toNat →
        ((s.dev.thr th).inTrap = true ∨ s.dev.flag F.ENG_FN_TRAP_EN (s.dev.thr th).fn = false) →
        ∃ d, exec (.alu th f ext) s = .next (s.on (Dev.doubleTrap d th)) ∧ d.eng = s.dev.eng ∧ d.dep = s.dev.dep)

/-- Loads, stores and amo.s of scratch and Depot move one tagged word at wa + 8 * imm, where the gate and the alignment allow it
(R51, R52, R54, R56, R60, R481). Where the model chose behind these rules: log entries 1, 9, 17 (notes/assumptions). -/
def Obligations.EngineScratchAndDepot : Prop :=
  -- LD_S
  (∀ (s : State) (th : Tid) (f : FmtI) (ext : Ext),
        s.dev.atInstr th (wordI 0x30 f) ext f.guard.toNat = true →
        (s.dev.thr th).poisonIn [f.wa.toNat] = none →
        s.dev.eaOf th f ext % 8 = 0 →
        s.dev.scrPass th (s.dev.eaOf th f ext) 1 →
        exec (.ldS th f ext .none) s =
            .next (s.on ((s.dev.setW th f.wd.toNat (s.dev.scrWord (clusterOf th) (s.dev.eaOf th f ext))).completed th))) ∧
  -- LD_S (poison)
  (∀ (s : State) (th : Tid) (f : FmtI) (ext : Ext),
        s.dev.atInstr th (wordI 0x30 f) ext f.guard.toNat = true →
        (s.dev.thr th).poisonIn [f.wa.toNat] = none →
        s.dev.eaOf th f ext % 8 = 0 →
        s.dev.scrPass th (s.dev.eaOf th f ext) 1 →
        exec (.ldS th f ext .ue) s = .next (s.on (((((s.dev.bump F.DEP_ECC_STAT_SRAM_UE).setScrWord (clusterOf th)
            (s.dev.eaOf th f ext) (poisoned (s.dev.scrWord (clusterOf th) (s.dev.eaOf th f ext)))).fault 11).setW th f.wd.toNat
              (poisoned (s.dev.scrWord (clusterOf th) (s.dev.eaOf th f ext)))).completed th))) ∧
  -- ST_S
  (∀ (s : State) (th : Tid) (f : FmtI) (ext : Ext),
        s.dev.atInstr th (wordI 0x31 f) ext f.guard.toNat = true →
        (s.dev.thr th).poisonIn [f.wa.toNat] = none →
        s.dev.eaOf th f ext % 8 = 0 →
        s.dev.scrPass th (s.dev.eaOf th f ext) 2 →
        exec (.stS th f ext) s =
            .next (s.on ((s.dev.setScrWord (clusterOf th) (s.dev.eaOf th f ext) (s.w th f.wd.toNat)).completed th))) ∧
  -- LD_D
  (∀ (s : State) (th : Tid) (f : FmtI) (ext : Ext),
        s.dev.atInstr th (wordI 0x32 f) ext f.guard.toNat = true →
        (s.dev.thr th).poisonIn [f.wa.toNat] = none →
        s.dev.eaOf th f ext % 8 = 0 →
        s.dev.depPass th (s.dev.eaOf th f ext) 1 →
        exec (.ldD th f ext .none) s =
            .next (s.on (((s.dev.depWake.ev 11 0).setW th f.wd.toNat (s.dev.depWord (s.dev.eaOf th f ext))).completed th))) ∧
  -- ST_D
  (∀ (s : State) (th : Tid) (f : FmtI) (ext : Ext),
        s.dev.atInstr th (wordI 0x33 f) ext f.guard.toNat = true →
        (s.dev.thr th).poisonIn [f.wa.toNat] = none →
        s.dev.eaOf th f ext % 8 = 0 →
        s.dev.depPass th (s.dev.eaOf th f ext) 2 →
        exec (.stD th f ext) s =
            .next (s.on (((s.dev.depWake.ev 11 1).setDepWord (s.dev.eaOf th f ext) (s.w th f.wd.toNat)).completed th))) ∧
  -- AMO_S
  (∀ (s : State) (th : Tid) (f : FmtA) (ext : Ext),
        s.dev.atInstr th (wordA 0x3A f) ext f.guard.toNat = true →
        extBad (s.dev.thr th) ext = false →
        amoLegal (f.fn.toNat / 16) (f.fn.toNat % 16) false = true →
        (s.dev.thr th).poisonIn (f.wa.toNat :: (if f.fn.toNat / 16 = 7 then [f.wd.toNat] else [])) = none →
        (s.v th f.wa.toNat).toNat % 8 = 0 →
        s.dev.scrPass th (s.v th f.wa.toNat).toNat 3 →
        exec (.amoS th f ext .none) s = .next (s.on ((({ s.dev with fresh := s.dev.fresh + 2 }.setScrWord (clusterOf th)
            (s.v th f.wa.toNat).toNat (amoWord (f.fn.toNat / 16) (f.fn.toNat % 16)
              (s.dev.scrWord (clusterOf th) (s.v th f.wa.toNat).toNat) (s.w th f.wb.toNat) (s.v th f.wd.toNat).toNat
              (Config.freeValue s.dev.fresh) (Config.freeValue (s.dev.fresh + 1)))).setW th f.wd.toNat
                (s.dev.scrWord (clusterOf th) (s.v th f.wa.toNat).toNat)).completed th))) ∧
  -- amo word
  (∀ (old opnd : TWord) (cmp : Nat) (free tag : Word),
        TWord.val (amoWord 0 4 old opnd cmp free tag) = TWord.val old + TWord.val opnd ∧
          TWord.val (amoWord 1 4 old opnd cmp free tag) = TWord.val old &&& TWord.val opnd ∧
          TWord.val (amoWord 2 4 old opnd cmp free tag) = TWord.val old ||| TWord.val opnd ∧
          TWord.val (amoWord 3 4 old opnd cmp free tag) = TWord.val old ^^^ TWord.val opnd ∧
          TWord.val (amoWord 4 4 old opnd cmp free tag) = (if (TWord.val opnd).ult (TWord.val old) then TWord.val opnd else TWord.val old) ∧
          TWord.val (amoWord 5 4 old opnd cmp free tag) = (if (TWord.val old).ult (TWord.val opnd) then TWord.val opnd else TWord.val old) ∧
          TWord.val (amoWord 6 4 old opnd cmp free tag) = TWord.val opnd ∧
          TWord.val (amoWord 7 4 old opnd cmp free tag) =
            (if (TWord.val old).toNat = cmp % 2 ^ 64 then TWord.val opnd else TWord.val old))

/-- Loads and stores of host memory, of windows and of the register space leave on the function's host port at the translated
address (R51, R52, R54, R55, R147, R148, R435, R595). Where the model chose behind these rules: log entries 5, 17, 32
(notes/assumptions). -/
def Obligations.EngineHostMemory : Prop :=
  -- LD_H
  (∀ (s : State) (th : Tid) (f : FmtI) (ext : Ext) (e : Dev) (b fn : Nat),
        s.dev.atInstr th (wordI 0x34 f) ext f.guard.toNat = true →
        (s.dev.thr th).poisonIn [f.wa.toNat] = none →
        s.dev.eaOf th f ext % 8 = 0 →
        s.dev.engAddr th (s.dev.eaOf th f ext) 8 .read 0 (.ldH th) = (e, .ok b, fn) →
        (e.halted = false ∧ e.closed fn = false) →
        exec (.ldH th f ext) s = .next (s.on ((((({ e with
              reads := Tbl.put e.nextTag { fn := fn, addr := b, why := .load th 0, at_ := e.ps } e.reads
              nextTag := e.nextTag + 1 }.ev 10 1 (some (fn / 256)) (some fn)).emit (.hostRead e.nextTag fn b 8)).stall th
            (.load e.nextTag f.wd.toNat (s.dev.eaOf th f ext) 8 0 0 0)).retired th)))) ∧
  -- ST_H
  (∀ (s : State) (th : Tid) (f : FmtI) (ext : Ext) (e : Dev) (b fn : Nat),
        s.dev.atInstr th (wordI 0x35 f) ext f.guard.toNat = true →
        (s.dev.thr th).poisonIn [f.wa.toNat, f.wd.toNat] = none →
        s.dev.eaOf th f ext % 8 = 0 →
        s.dev.engAddr th (s.dev.eaOf th f ext) 8 .write 0 (.stH th (s.dev.eaOf th f ext) (s.v th f.wd.toNat).toNat 8 0) = (e, .ok b, fn) →
        (e.halted = false ∧ e.closed fn = false) →
        exec (.stH th f ext) s = .next (s.on ((((({ e with host.posted := Tbl.put (e.linkOf fn * 1024 + fn) b e.host.posted }.ev 10 0
            (some (fn / 256)) (some fn)).emit (.hostWrite fn b 8 (s.v th f.wd.toNat).toNat false false)).updThr th
              (fun t => { t with st := .ready, stall := .none })).goOn th).retired th))) ∧
  -- LD_W
  (∀ (s : State) (th : Tid) (f : FmtA) (ext : Ext) (x e : Dev) (b fn h off size : Nat),
        s.dev.atInstr th (wordA 0x36 f) ext f.guard.toNat = true →
        (extBad (s.dev.thr th) ext = false ∧ f.fn.toNat < 4) →
        (s.dev.thr th).poisonIn [f.wa.toNat, f.wb.toNat] = none →
        (h = (s.v th f.wa.toNat).toNat % 2 ^ 32 ∧ off = (s.v th f.wb.toNat).toNat % 2 ^ 48 ∧ size = 2 ^ (f.fn.toNat % 4) ∧ x = s.dev.winLook h) →
        (off % size = 0 ∧ size ≤ 4096 - ((x.winOf h).base + off) % 4096) →
        (x.winCheck h (localPeer (s.dev.thr th).fn (s.dev.thr th).priv) rLR off size = 0 ∧ x.windowGate (x.winOf h) off size rLR = none) →
        x.engAddr th ((x.winOf h).base + off) size .read h (.ldH th) = (e, .ok b, fn) →
        (e.halted = false ∧ e.closed fn = false) →
        exec (.ldW th f ext) s = .next (s.on ((((({ e with
              reads := Tbl.put e.nextTag { fn := fn, addr := b, why := .load th h, at_ := e.ps } e.reads
              nextTag := e.nextTag + 1 }.ev 10 1 (some (fn / 256)) (some fn)).emit (.hostRead e.nextTag fn b size)).stall th
            (.load e.nextTag f.wd.toNat ((x.winOf h).base + off) size h 0 0)).retired th)))) ∧
  -- ST_W
  (∀ (s : State) (th : Tid) (f : FmtA) (ext : Ext) (x e : Dev) (b fn h off size : Nat),
        s.dev.atInstr th (wordA 0x37 f) ext f.guard.toNat = true →
        (extBad (s.dev.thr th) ext = false ∧ f.fn.toNat < 4) →
        (s.dev.thr th).poisonIn [f.wa.toNat, f.wb.toNat, f.wd.toNat] = none →
        (h = (s.v th f.wa.toNat).toNat % 2 ^ 32 ∧ off = (s.v th f.wb.toNat).toNat % 2 ^ 48 ∧ size = 2 ^ (f.fn.toNat % 4) ∧ x = s.dev.winLook h) →
        (off % size = 0 ∧ size ≤ 4096 - ((x.winOf h).base + off) % 4096) →
        (x.winCheck h (localPeer (s.dev.thr th).fn (s.dev.thr th).priv) rLW off size = 0 ∧ x.windowGate (x.winOf h) off size rLW = none) →
        x.engAddr th ((x.winOf h).base + off) size .write h (.stH th ((x.winOf h).base + off) ((s.v th f.wd.toNat).toNat % 2 ^ (8 * size)) size h) = (e, .ok b, fn) →
        (e.halted = false ∧ e.closed fn = false) →
        exec (.stW th f ext) s = .next (s.on ((((({ e with host.posted := Tbl.put (e.linkOf fn * 1024 + fn) b e.host.posted }.ev 10 0
            (some (fn / 256)) (some fn)).emit (.hostWrite fn b size ((s.v th f.wd.toNat).toNat % 2 ^ (8 * size)) false false)).updThr th
              (fun t => { t with st := .ready, stall := .none })).goOn th).retired th))) ∧
  -- LD_P (host)
  (∀ (s : State) (th : Tid) (f : FmtI) (ext : Ext),
        s.dev.atInstr th (wordI 0x38 f) ext f.guard.toNat = true →
        ((s.dev.thr th).priv = true ∧ (s.dev.thr th).poisonIn [f.wa.toNat] = none) →
        (s.dev.eaOf th f ext % 8 = 0 ∧ regSpace th (s.dev.eaOf th f ext) = false) →
        s.dev.gateFail (18 + (s.dev.thr th).fn / 256) (s.dev.classOf th) (s.dev.gateFn th) (s.dev.eaOf th f ext) 8 1 = none →
        (s.dev.halted = false ∧ s.dev.closed (s.dev.thr th).fn = false) →
        exec (.ldP th f ext) s = .next (s.on ((((({ s.dev with
              reads := Tbl.put s.dev.nextTag { fn := (s.dev.thr th).fn, addr := s.dev.eaOf th f ext, why := .load th 0, at_ := s.dev.ps } s.dev.reads
              nextTag := s.dev.nextTag + 1 }.ev 10 1 (some ((s.dev.thr th).fn / 256)) (some (s.dev.thr th).fn)).emit
                (.hostRead s.dev.nextTag (s.dev.thr th).fn (s.dev.eaOf th f ext) 8)).stall th
            (.load s.dev.nextTag f.wd.toNat (s.dev.eaOf th f ext) 8 0 0 0)).retired th)))) ∧
  -- LD_P (space)
  (∀ (s : State) (th : Tid) (f : FmtI) (ext : Ext) (d : Dev) (v : Word),
        s.dev.atInstr th (wordI 0x38 f) ext f.guard.toNat = true →
        ((s.dev.thr th).priv = true ∧ (s.dev.thr th).poisonIn [f.wa.toNat] = none) →
        (s.dev.eaOf th f ext % 8 = 0 ∧ regSpace th (s.dev.eaOf th f ext) = true) →
        s.dev.gateFail 1 4 none (s.dev.eaOf th f ext % 2 ^ 28) 8 1 = none →
        s.regRead .bcp th f.wd.toNat (s.dev.eaOf th f ext % 2 ^ 28) = (d, some v) →
        exec (.ldP th f ext) s = .next (s.on ((d.setW th f.wd.toNat (mkWord v 0)).completed th))) ∧
  -- ST_P (host)
  (∀ (s : State) (th : Tid) (f : FmtI) (ext : Ext),
        s.dev.atInstr th (wordI 0x39 f) ext f.guard.toNat = true →
        ((s.dev.thr th).priv = true ∧ (s.dev.thr th).poisonIn [f.wa.toNat, f.wd.toNat] = none) →
        (s.dev.eaOf th f ext % 8 = 0 ∧ regSpace th (s.dev.eaOf th f ext) = false) →
        s.dev.gateFail (18 + (s.dev.thr th).fn / 256) (s.dev.classOf th) (s.dev.gateFn th) (s.dev.eaOf th f ext) 8 2 = none →
        exec (.stP th f ext) s =
            .next (s.on ((s.dev.hostWrite (s.dev.thr th).fn (s.dev.eaOf th f ext) 8 (s.v th f.wd.toNat).toNat).completed th))) ∧
  -- ST_P (space)
  (∀ (s : State) (th : Tid) (f : FmtI) (ext : Ext),
        s.dev.atInstr th (wordI 0x39 f) ext f.guard.toNat = true →
        ((s.dev.thr th).priv = true ∧ (s.dev.thr th).poisonIn [f.wa.toNat, f.wd.toNat] = none) →
        (s.dev.eaOf th f ext % 8 = 0 ∧ regSpace th (s.dev.eaOf th f ext) = true) →
        s.dev.gateFail 1 4 none (s.dev.eaOf th f ext % 2 ^ 28) 8 2 = none →
        exec (.stP th f ext) s = .next (State.settled s.dev
            { (s.regWrite .bcp th (s.dev.eaOf th f ext % 2 ^ 28) 8 (s.v th f.wd.toNat)) with
              dev := (s.regWrite .bcp th (s.dev.eaOf th f ext % 2 ^ 28) 8 (s.v th f.wd.toNat)).dev.completed th }))

/-- Message and match instructions hand their operation to RMA or MTC and give wd its result (R57, R58, R59, R60, R61, R62, R66,
R162, R213, R216, R217). Where the model chose behind these rules: log entries 17, 22 (notes/assumptions). -/
def Obligations.EngineMessages : Prop :=
  -- PUT
  (∀ (s : State) (th : Tid) (f : FmtA) (ext : Ext) (e : Dev),
        s.dev.atInstr th (wordA 0x40 f) ext f.guard.toNat = true →
        (extBad (s.dev.thr th) ext = false ∧ msgBad 0x40 f.fn.toNat f.wa.toNat = false) →
        (s.dev.thr th).poisonIn (((s.dev.thr th).msgOp th 0x40 f.fn.toNat f.wd.toNat f.wa.toNat f.wb.toNat).reads f.wa.toNat f.wb.toNat) = none →
        s.dev.halted = false →
        s.dev.issueOp (some th.val) ((s.dev.thr th).msgOp th 0x40 f.fn.toNat f.wd.toNat f.wa.toNat f.wb.toNat) = (e, .taken) →
        exec (.put th f ext) s = .next (s.on ((e.setVal th f.wd.toNat 0).completed th).rmaGo)) ∧
  -- GET
  (∀ (s : State) (th : Tid) (f : FmtA) (ext : Ext) (e : Dev),
        s.dev.atInstr th (wordA 0x41 f) ext f.guard.toNat = true →
        (extBad (s.dev.thr th) ext = false ∧ msgBad 0x41 f.fn.toNat f.wa.toNat = false) →
        (s.dev.thr th).poisonIn (((s.dev.thr th).msgOp th 0x41 f.fn.toNat f.wd.toNat f.wa.toNat f.wb.toNat).reads f.wa.toNat f.wb.toNat) = none →
        s.dev.halted = false →
        s.dev.issueOp (some th.val) ((s.dev.thr th).msgOp th 0x41 f.fn.toNat f.wd.toNat f.wa.toNat f.wb.toNat) = (e, .taken) →
        exec (.get th f ext) s = .next (s.on ((e.setVal th f.wd.toNat 0).completed th).rmaGo)) ∧
  -- SEND
  (∀ (s : State) (th : Tid) (f : FmtA) (ext : Ext) (e : Dev),
        s.dev.atInstr th (wordA 0x42 f) ext f.guard.toNat = true →
        (extBad (s.dev.thr th) ext = false ∧ msgBad 0x42 f.fn.toNat f.wa.toNat = false) →
        (s.dev.thr th).poisonIn (((s.dev.thr th).msgOp th 0x42 f.fn.toNat f.wd.toNat f.wa.toNat f.wb.toNat).reads f.wa.toNat f.wb.toNat) = none →
        s.dev.halted = false →
        s.dev.issueOp (some th.val) ((s.dev.thr th).msgOp th 0x42 f.fn.toNat f.wd.toNat f.wa.toNat f.wb.toNat) = (e, .taken) →
        exec (.send th f ext) s = .next (s.on ((e.setVal th f.wd.toNat 0).completed th).rmaGo)) ∧
  -- UD_SEND
  (∀ (s : State) (th : Tid) (f : FmtA) (ext : Ext) (e : Dev),
        s.dev.atInstr th (wordA 0x43 f) ext f.guard.toNat = true →
        (extBad (s.dev.thr th) ext = false ∧ msgBad 0x43 f.fn.toNat f.wa.toNat = false) →
        (s.dev.thr th).poisonIn (((s.dev.thr th).msgOp th 0x43 f.fn.toNat f.wd.toNat f.wa.toNat f.wb.toNat).reads f.wa.toNat f.wb.toNat) = none →
        s.dev.halted = false →
        s.dev.issueOp (some th.val) ((s.dev.thr th).msgOp th 0x43 f.fn.toNat f.wd.toNat f.wa.toNat f.wb.toNat) = (e, .taken) →
        exec (.udSend th f ext) s = .next (s.on ((e.setVal th f.wd.toNat 0).completed th).rmaGo)) ∧
  -- AMO
  (∀ (s : State) (th : Tid) (f : FmtA) (ext : Ext) (e : Dev),
        s.dev.atInstr th (wordA 0x44 f) ext f.guard.toNat = true →
        (extBad (s.dev.thr th) ext = false ∧ msgBad 0x44 f.fn.toNat f.wa.toNat = false) →
        (s.dev.thr th).poisonIn (((s.dev.thr th).msgOp th 0x44 f.fn.toNat f.wd.toNat f.wa.toNat f.wb.toNat).reads f.wa.toNat f.wb.toNat) = none →
        s.dev.halted = false →
        s.dev.issueOp (some th.val) ((s.dev.thr th).msgOp th 0x44 f.fn.toNat f.wd.toNat f.wa.toNat f.wb.toNat) = (e, .taken) →
        exec (.amo th f ext) s = .next (s.on ((e.setVal th f.wd.toNat 0).completed th).rmaGo)) ∧
  -- AMO_F
  (∀ (s : State) (th : Tid) (f : FmtA) (ext : Ext) (e : Dev),
        s.dev.atInstr th (wordA 0x45 f) ext f.guard.toNat = true →
        (extBad (s.dev.thr th) ext = false ∧ msgBad 0x45 f.fn.toNat f.wa.toNat = false) →
        (s.dev.thr th).poisonIn (((s.dev.thr th).msgOp th 0x45 f.fn.toNat f.wd.toNat f.wa.toNat f.wb.toNat).reads f.wa.toNat f.wb.toNat) = none →
        s.dev.halted = false →
        s.dev.issueOp (some th.val) ((s.dev.thr th).msgOp th 0x45 f.fn.toNat f.wd.toNat f.wa.toNat f.wb.toNat) = (e, .taken) →
        exec (.amoF th f ext) s = .next (s.on (((e.stall th (.amoReply f.wd.toNat)).retired th).rmaGo))) ∧
  -- issue op (taken)
  (∀ (d : Dev) (th : Option Nat) (m : MsgOp),
        (d.localCheck m = 0 ∧ d.fencing m.scope = false) →
        (¬(d.opCode m = 2 ∧ m.len = 0)) →
        d.slotFree m.fn (d.opCode m == 5) = true →
        ((d.opCode m = 3 ∨ d.opCode m = 4) → d.streamRoom (streamKey m.fn m.dev m.dfn) = true) →
        (d.opCode m = 4 → d.mtc.rdvs.length < 65536) →
        (d.issueOp th m).2 = .taken) ∧
  -- issue op (refused)
  (∀ (d : Dev) (th : Option Nat) (m : MsgOp),
        (d.localCheck m ≠ 0 ∧ d.fencing m.scope = false) →
        (d.issueOp th m).2 = .status (d.localCheck m)) ∧
  -- issue op (fenced)
  (∀ (d : Dev) (th : Option Nat) (m : MsgOp),
        d.fencing m.scope = true →
        d.issueOp th m = (d, .wait)) ∧
  -- MT_POST
  (∀ (s : State) (th : Tid) (f : FmtA) (ext : Ext) (r : Recv) (x : Dev),
        s.dev.atInstr th (wordA 0x48 f) ext f.guard.toNat = true →
        (extBad (s.dev.thr th) ext = false ∧ groupOk f.wa.toNat = true ∧ f.fn = 0 ∧ s.dev.halted = false) →
        (s.dev.thr th).poisonIn (insertAsc f.wb.toNat [f.wa.toNat, f.wa.toNat + 1, f.wa.toNat + 2, f.wa.toNat + 3]) = none →
        (r = recvOf (s.dev.thr th).fn ((s.dev.thr th).val f.wa.toNat) ((s.dev.thr th).val (f.wa.toNat + 1)) ((s.dev.thr th).val (f.wa.toNat + 2)) ((s.dev.thr th).val (f.wa.toNat + 3)) ((s.dev.thr th).val f.wb.toNat) ∧ x = s.dev.winLook r.win) →
        s.dev.postCheck (s.dev.thr th).fn (s.dev.thr th).priv r ((s.dev.thr th).val (f.wa.toNat + 2)) ((s.dev.thr th).val f.wb.toNat) = 0 →
        x.mtcBlocked (s.dev.thr th).fn = false →
        exec (.mtPost th f ext) s = .next (s.on
            ((((((x.opStartTh (some th.val)).1.post r).1.opEndO (x.opStartTh (some th.val)).2 0).setW th f.wd.toNat
              (mkWord (BitVec.ofNat 64 ((x.opStartTh (some th.val)).1.post r).2) 0)).completed th).rmaGo))) ∧
  -- MT_PROBE
  (∀ (s : State) (th : Tid) (f : FmtA) (ext : Ext),
        s.dev.atInstr th (wordA 0x49 f) ext f.guard.toNat = true →
        (extBad (s.dev.thr th) ext = false ∧ groupOk f.wa.toNat = true ∧ f.fn = 0 ∧ s.dev.halted = false) →
        (s.dev.thr th).poisonIn (insertAsc f.wb.toNat [f.wa.toNat, f.wa.toNat + 1]) = none →
        (s.dev.flag F.MTC_FN_CFG_EN (s.dev.thr th).fn = true ∧ s.dev.mtcBlocked (s.dev.thr th).fn = false) →
        exec (.mtProbe th f ext) s = .next (s.on ((((s.dev.searchUx
            (recvOf (s.dev.thr th).fn ((s.dev.thr th).val f.wa.toNat) ((s.dev.thr th).val (f.wa.toNat + 1)) 0 0 ((s.dev.thr th).val f.wb.toNat))).setW th f.wd.toNat (mkWord (BitVec.ofNat 64 (s.dev.probe
            (recvOf (s.dev.thr th).fn ((s.dev.thr th).val f.wa.toNat) ((s.dev.thr th).val (f.wa.toNat + 1)) 0 0 ((s.dev.thr th).val f.wb.toNat)))) 0)).completed th).rmaGo))) ∧
  -- MT_CANCEL
  (∀ (s : State) (th : Tid) (f : FmtA) (ext : Ext) (r : Recv),
        s.dev.atInstr th (wordA 0x4A f) ext f.guard.toNat = true →
        (extBad (s.dev.thr th) ext = false ∧ f.wb = 0 ∧ f.fn = 0 ∧ s.dev.halted = false) →
        (s.dev.thr th).poisonIn [f.wa.toNat] = none →
        (s.dev.flag F.MTC_FN_CFG_EN (s.dev.thr th).fn = true ∧ s.dev.mtcBlocked (s.dev.thr th).fn = false) →
        (s.dev.dom (s.dev.thr th).fn).posted.find? (fun r => r.handle == getBits ((s.dev.thr th).val f.wa.toNat) 0 32) = some r →
        exec (.mtCancel th f ext) s = .next (s.on (((((s.dev.updDom (s.dev.thr th).fn (fun m =>
            { m with posted := m.posted.filter (fun x => x.psn != r.psn) })).cancelRecv r).setW th f.wd.toNat (mkWord 0 0)).completed th).rmaGo))) ∧
  -- MT_CANCEL (none)
  (∀ (s : State) (th : Tid) (f : FmtA) (ext : Ext),
        s.dev.atInstr th (wordA 0x4A f) ext f.guard.toNat = true →
        (extBad (s.dev.thr th) ext = false ∧ f.wb = 0 ∧ f.fn = 0 ∧ s.dev.halted = false) →
        (s.dev.thr th).poisonIn [f.wa.toNat] = none →
        (s.dev.flag F.MTC_FN_CFG_EN (s.dev.thr th).fn = true ∧ s.dev.mtcBlocked (s.dev.thr th).fn = false) →
        (s.dev.dom (s.dev.thr th).fn).posted.find? (fun r => r.handle == getBits ((s.dev.thr th).val f.wa.toNat) 0 32) = none →
        exec (.mtCancel th f ext) s = .next (s.on (((s.dev.setW th f.wd.toNat (mkWord (BitVec.ofNat 64 Status.MT_NOT_FOUND) 0)).completed th).rmaGo)))

/-- Counter and Piton instructions act on what they name: an advance, a wait, a read, a deferred operation, a lock or its
release (R63, R64, R67, R456, R457, R458, R464, R465, R467, R469). Where the model chose behind these rules: log entries 17,
22 (notes/assumptions). -/
def Obligations.EngineCountersAndPitons : Prop :=
  -- CTR_ADD
  (∀ (s : State) (th : Tid) (f : FmtI) (ext : Ext),
        s.dev.atInstr th (wordI 0x50 f) ext f.guard.toNat = true →
        (f.wd = 0 ∧ s.dev.ctrOwner ((s.dev.thr th).ctrOf f.wa.toNat) = some (s.dev.thr th).fn) →
        (s.dev.thr th).poisonIn [f.wa.toNat] = none →
        exec (.ctrAdd th f ext) s = .next (s.on ((s.dev.ctrSet ((s.dev.thr th).ctrOf f.wa.toNat)
            (s.dev.ctrVal ((s.dev.thr th).ctrOf f.wa.toNat) + (immZ (pcCmd (s.dev.thr th).pc) f.imm.toNat 14 ext).toNat)).completed th))) ∧
  -- CTR_WAIT (reached)
  (∀ (s : State) (th : Tid) (f : FmtA) (ext : Ext),
        s.dev.atInstr th (wordA 0x51 f) ext f.guard.toNat = true →
        (extBad (s.dev.thr th) ext = false ∧ f.wd = 0 ∧ f.fn = 0 ∧ s.dev.ctrOwner ((s.dev.thr th).ctrOf f.wa.toNat) = some (s.dev.thr th).fn) →
        (s.dev.thr th).poisonIn [f.wa.toNat, f.wb.toNat] = none →
        reaches (s.dev.ctrVal ((s.dev.thr th).ctrOf f.wa.toNat)) ((s.v th f.wb.toNat).toNat % 2 ^ 48) = true →
        exec (.ctrWait th f ext) s = .next (s.on (s.dev.completed th))) ∧
  -- CTR_WAIT (stall)
  (∀ (s : State) (th : Tid) (f : FmtA) (ext : Ext),
        s.dev.atInstr th (wordA 0x51 f) ext f.guard.toNat = true →
        (extBad (s.dev.thr th) ext = false ∧ f.wd = 0 ∧ f.fn = 0 ∧ s.dev.ctrOwner ((s.dev.thr th).ctrOf f.wa.toNat) = some (s.dev.thr th).fn) →
        (s.dev.thr th).poisonIn [f.wa.toNat, f.wb.toNat] = none →
        reaches (s.dev.ctrVal ((s.dev.thr th).ctrOf f.wa.toNat)) ((s.v th f.wb.toNat).toNat % 2 ^ 48) = false →
        exec (.ctrWait th f ext) s = .next (s.on (((s.dev.stall th
            (.ctr ((s.dev.thr th).ctrOf f.wa.toNat) ((s.v th f.wb.toNat).toNat % 2 ^ 48))).restThr th).retired th))) ∧
  -- CTR_READ
  (∀ (s : State) (th : Tid) (f : FmtA) (ext : Ext),
        s.dev.atInstr th (wordA 0x52 f) ext f.guard.toNat = true →
        (extBad (s.dev.thr th) ext = false ∧ f.wb = 0 ∧ f.fn = 0 ∧ s.dev.ctrOwner ((s.dev.thr th).ctrOf f.wa.toNat) = some (s.dev.thr th).fn) →
        (s.dev.thr th).poisonIn [f.wa.toNat] = none →
        exec (.ctrRead th f ext) s =
            .next (s.on ((s.dev.setVal th f.wd.toNat (s.dev.ctrVal ((s.dev.thr th).ctrOf f.wa.toNat))).completed th))) ∧
  -- ctr wake
  (∀ (d : Dev) (n v k th : Nat),
        d.eng.th = [(th, { d.thr th with stall := .ctr n k })] →
        reaches (v % 2 ^ 48) k = true →
        ((d.ctrSet n v).thr th).stall = .none) ∧
  -- DEFER
  (∀ (s : State) (th : Tid) (f : FmtA) (ext : Ext) (nxt : IWord) (nxtExt : Ext) (w : DefWhat) (n thresh : Nat),
        (s.dev.atInstr th (wordA 0x53 f) ext f.guard.toNat = true ∧ s.dev.halted = false) →
        (extBad (s.dev.thr th) ext = false ∧ f.fn = 0 ∧ n = (s.dev.thr th).ctrOf f.wa.toNat ∧ thresh = ((s.dev.thr th).val f.wb.toNat).toNat % 2 ^ 48) →
        (pcCmd (pcNext (s.dev.thr th).pc) = true ∧ pcIndex (pcNext (s.dev.thr th).pc) ≤ (s.dev.thr th).slots.length ∧ isCore th = false) →
        s.dev.fetched th (pcNext (s.dev.thr th).pc) = some (nxt.toNat, nxtExt.toNat) →
        s.dev.deferOf th nxt.toNat nxtExt = .what w →
        (s.dev.ctrOwner n = some (s.dev.thr th).fn ∧ (s.dev.thr th).poisonIn [f.wa.toNat, f.wb.toNat] = none) →
        (reaches (s.dev.ctrVal n) thresh = false ∧ s.dev.defRoom = true) →
        exec (.defer th f ext nxt nxtExt) s = .next (s.on (((((s.dev.defAdd n thresh (s.dev.thr th).fn w).setVal th f.wd.toNat 0).updThr th
            (fun t => { t with pc := pcNext (s.dev.thr th).pc })).completed th).rmaGo))) ∧
  -- DEFER (now)
  (∀ (s : State) (th : Tid) (f : FmtA) (ext : Ext) (nxt : IWord) (nxtExt : Ext) (w : DefWhat) (n thresh : Nat),
        (s.dev.atInstr th (wordA 0x53 f) ext f.guard.toNat = true ∧ s.dev.halted = false) →
        (extBad (s.dev.thr th) ext = false ∧ f.fn = 0 ∧ n = (s.dev.thr th).ctrOf f.wa.toNat ∧ thresh = ((s.dev.thr th).val f.wb.toNat).toNat % 2 ^ 48) →
        (pcCmd (pcNext (s.dev.thr th).pc) = true ∧ pcIndex (pcNext (s.dev.thr th).pc) ≤ (s.dev.thr th).slots.length ∧ isCore th = false) →
        s.dev.fetched th (pcNext (s.dev.thr th).pc) = some (nxt.toNat, nxtExt.toNat) →
        s.dev.deferOf th nxt.toNat nxtExt = .what w →
        (s.dev.ctrOwner n = some (s.dev.thr th).fn ∧ (s.dev.thr th).poisonIn [f.wa.toNat, f.wb.toNat] = none) →
        reaches (s.dev.ctrVal n) thresh = true →
        exec (.defer th f ext nxt nxtExt) s = .next (s.on (((((s.dev.deferIssue (s.dev.thr th).fn w).setVal th f.wd.toNat 0).updThr th
            (fun t => { t with pc := pcNext (s.dev.thr th).pc })).completed th).rmaGo))) ∧
  -- PIT_ACQ (free)
  (∀ (s : State) (th : Tid) (f : FmtA) (ext : Ext) (n : Nat),
        s.dev.atInstr th (wordA 0x68 f) ext f.guard.toNat = true →
        (extBad (s.dev.thr th) ext = false ∧ f.wb = 0 ∧ f.fn.toNat < 8 ∧ (s.dev.thr th).poisonIn [f.wa.toNat] = none) →
        (n = (s.dev.thr th).pitOf f.wa.toNat ∧ s.dev.pitRight (s.dev.pitWho th) (n / 64) false = true) →
        (s.dev.piton n).holder = none →
        exec (.pitAcq th f ext) s = .next (s.on (((s.dev.setPiton n
            { holder := some (s.dev.pitWho th, s.dev.pitPrio (s.dev.pitWho th) (n / 64) f.fn.toNat) }).setVal th f.wd.toNat 0).completed th))) ∧
  -- PIT_ACQ (waits)
  (∀ (s : State) (th : Tid) (f : FmtA) (ext : Ext) (n : Nat) (o : Holder × Nat),
        s.dev.atInstr th (wordA 0x68 f) ext f.guard.toNat = true →
        (extBad (s.dev.thr th) ext = false ∧ f.wb = 0 ∧ f.fn.toNat < 8 ∧ (s.dev.thr th).poisonIn [f.wa.toNat] = none) →
        (n = (s.dev.thr th).pitOf f.wa.toNat ∧ s.dev.pitRight (s.dev.pitWho th) (n / 64) false = true) →
        ((s.dev.piton n).holder = some o ∧ sameHolder o.1 (s.dev.pitWho th) = false) →
        exec (.pitAcq th f ext) s = .next (s.on ((((s.dev.pitWait (s.dev.pitWho th) n f.fn.toNat f.wd.toNat).stall th
            (.piton n f.wd.toNat s.dev.ps)).restThr th).retired th))) ∧
  -- PIT_ACQ (rights)
  (∀ (s : State) (th : Tid) (f : FmtA) (ext : Ext),
        s.dev.atInstr th (wordA 0x68 f) ext f.guard.toNat = true →
        (extBad (s.dev.thr th) ext = false ∧ f.wb = 0 ∧ f.fn.toNat < 8 ∧ (s.dev.thr th).poisonIn [f.wa.toNat] = none) →
        s.dev.pitRight (s.dev.pitWho th) ((s.dev.thr th).pitOf f.wa.toNat / 64) false = false →
        exec (.pitAcq th f ext) s = .next (s.on ((s.dev.setVal th f.wd.toNat Status.PIT_RIGHTS).completed th))) ∧
  -- PIT_TRY
  (∀ (s : State) (th : Tid) (f : FmtA) (ext : Ext) (n : Nat),
        s.dev.atInstr th (wordA 0x69 f) ext f.guard.toNat = true →
        (extBad (s.dev.thr th) ext = false ∧ f.wb = 0 ∧ f.fn.toNat < 8 ∧ (s.dev.thr th).poisonIn [f.wa.toNat] = none) →
        (n = (s.dev.thr th).pitOf f.wa.toNat ∧ s.dev.pitRight (s.dev.pitWho th) (n / 64) false = true) →
        exec (.pitTry th f ext) s = .next (s.on (if (s.dev.piton n).holder = none then (((s.dev.setPiton n
            { holder := some (s.dev.pitWho th, s.dev.pitPrio (s.dev.pitWho th) (n / 64) f.fn.toNat) }).setVal th f.wd.toNat 0).completed th)
            else (s.dev.setVal th f.wd.toNat Status.PIT_HELD).completed th))) ∧
  -- PIT_REL
  (∀ (s : State) (th : Tid) (f : FmtA) (ext : Ext) (n : Nat) (o : Holder × Nat),
        s.dev.atInstr th (wordA 0x6A f) ext f.guard.toNat = true →
        (extBad (s.dev.thr th) ext = false ∧ f.wb = 0 ∧ f.fn = 0 ∧ (s.dev.thr th).poisonIn [f.wa.toNat] = none) →
        (n = (s.dev.thr th).pitOf f.wa.toNat ∧ (s.dev.piton n).holder = some o) →
        s.dev.pitRight (s.dev.pitWho th) (n / 64) (!sameHolder o.1 (s.dev.pitWho th)) = true →
        exec (.pitRel th f ext) s = .next (s.on (((s.dev.pitPass n).setVal th f.wd.toNat 0).completed th)))

/-- Collective instructions contribute, wait, combine elements, make a context and destroy one (R65, R260, R254, R258, R270,
R271). Where the model chose behind these rules: log entries 17, 25 (notes/assumptions). -/
def Obligations.EngineCollectives : Prop :=
  -- COL_STEP
  (∀ (s : State) (th : Tid) (f : FmtA) (ext : Ext) (e : Dev) (k : Nat),
        (s.dev.atInstr th (wordA 0x58 f) ext f.guard.toNat = true ∧ s.dev.halted = false) →
        (extBad (s.dev.thr th) ext = false ∧ f.fn = 0 ∧ (s.dev.thr th).poisonIn [f.wa.toNat, f.wb.toNat] = none) →
        s.dev.fencing ((s.dev.thr th).scope th) = false →
        s.dev.colStep (some th.val) ((s.dev.thr th).scope th) (s.dev.thr th).fn (s.dev.thr th).priv ((s.dev.thr th).val f.wa.toNat) ((s.dev.thr th).val f.wb.toNat) = (e, 0, some k) →
        exec (.colStep th f ext) s = .next (s.on (((e.setVal th f.wd.toNat 0).completed th).rmaGo))) ∧
  -- COL_STEP (refused)
  (∀ (s : State) (th : Tid) (f : FmtA) (ext : Ext) (e : Dev) (st : Nat),
        (s.dev.atInstr th (wordA 0x58 f) ext f.guard.toNat = true ∧ s.dev.halted = false) →
        (extBad (s.dev.thr th) ext = false ∧ f.fn = 0 ∧ (s.dev.thr th).poisonIn [f.wa.toNat, f.wb.toNat] = none) →
        s.dev.fencing ((s.dev.thr th).scope th) = false →
        s.dev.colStep (some th.val) ((s.dev.thr th).scope th) (s.dev.thr th).fn (s.dev.thr th).priv ((s.dev.thr th).val f.wa.toNat) ((s.dev.thr th).val f.wb.toNat) = (e, st, none) →
        exec (.colStep th f ext) s = .next (s.on (((e.setVal th f.wd.toNat st).completed th).rmaGo))) ∧
  -- COL_WAIT (none)
  (∀ (s : State) (th : Tid) (f : FmtA) (ext : Ext),
        (s.dev.atInstr th (wordA 0x59 f) ext f.guard.toNat = true ∧ s.dev.halted = false) →
        (extBad (s.dev.thr th) ext = false ∧ f.wa = 0 ∧ f.wb = 0 ∧ f.fn = 0) →
        (s.dev.thr th).lastCol = none →
        exec (.colWait th f ext) s = .next (s.on (((s.dev.setVal th f.wd.toNat 0).completed th).rmaGo))) ∧
  -- COL_WAIT (closed)
  (∀ (s : State) (th : Tid) (f : FmtA) (ext : Ext) (n e st : Nat),
        (s.dev.atInstr th (wordA 0x59 f) ext f.guard.toNat = true ∧ s.dev.halted = false) →
        (extBad (s.dev.thr th) ext = false ∧ f.wa = 0 ∧ f.wb = 0 ∧ f.fn = 0) →
        (s.dev.thr th).lastCol = some (n, e, some st) →
        exec (.colWait th f ext) s = .next (s.on (((s.dev.setVal th f.wd.toNat st).completed th).rmaGo))) ∧
  -- COL_WAIT (open)
  (∀ (s : State) (th : Tid) (f : FmtA) (ext : Ext) (n e : Nat),
        (s.dev.atInstr th (wordA 0x59 f) ext f.guard.toNat = true ∧ s.dev.halted = false) →
        (extBad (s.dev.thr th) ext = false ∧ f.wa = 0 ∧ f.wb = 0 ∧ f.fn = 0) →
        (s.dev.thr th).lastCol = some (n, e, none) →
        exec (.colWait th f ext) s = .next (s.on ((((s.dev.stall th (.col n e f.wd.toNat)).restThr th).retired th).rmaGo))) ∧
  -- COL_RED
  (∀ (s : State) (th : Tid) (f : FmtA) (ext : Ext),
        s.dev.atInstr th (wordA 0x5A f) ext f.guard.toNat = true →
        (extBad (s.dev.thr th) ext = false ∧ opAllowed (f.fn.toNat / 16) (f.fn.toNat % 16) = true ∧ f.fn.toNat % 16 ≤ 12) →
        exec (.colRed th f ext) s = .next (s.on ((s.dev.setW th f.wd.toNat (mkWord (BitVec.ofNat 64
              (packedOp (elemOp (f.fn.toNat / 16) (f.fn.toNat % 16) false) (elemBits (f.fn.toNat % 16)) (s.v th f.wa.toNat).toNat
                (s.v th f.wb.toNat).toNat (64 / elemBits (f.fn.toNat % 16))))
            (resultTag (f.fn.toNat % 16) (isPoison (s.w th f.wa.toNat) || isPoison (s.w th f.wb.toNat)) false))).completed th))) ∧
  -- COL_CTX_CREATE
  (∀ (s : State) (th : Tid) (f : FmtA) (ext : Ext) (a nk : Nat) (e : Dev) (st : Nat) (k : Option Nat),
        (s.dev.atInstr th (wordA 0x5B f) ext f.guard.toNat = true ∧ s.dev.halted = false) →
        (extBad (s.dev.thr th) ext = false ∧ f.fn = 0 ∧ f.wb = 0 ∧ (s.dev.thr th).poisonIn [f.wa.toNat] = none) →
        (a = (s.v th f.wa.toNat).toNat ∧ a % 8 = 0) →
        (nk = min 16 (getBits (TWord.val (s.dev.scrWord (clusterOf th) a)) 40 5) ∧ ∀ j, j < 5 + nk → s.dev.scrPass th (a + 8 * j) 1) →
        s.dev.colCreate (s.dev.thr th).fn (s.dev.thr th).priv (s.dev.colWords th a (5 + nk)) = (e, st, k) →
        exec (.colCtxCreate th f ext) s = .next (s.on (((e.setW th f.wd.toNat (match k with
            | some n => mkWord (BitVec.ofNat 64 n) 0
            | none => mkWord (BitVec.ofNat 64 st) 16)).completed th).rmaGo))) ∧
  -- COL_CTX_DESTROY
  (∀ (s : State) (th : Tid) (f : FmtA) (ext : Ext) (a n : Nat),
        (s.dev.atInstr th (wordA 0x5B f) ext f.guard.toNat = true ∧ s.dev.halted = false) →
        (extBad (s.dev.thr th) ext = false ∧ f.fn = 1 ∧ f.wb = 0 ∧ (s.dev.thr th).poisonIn [f.wa.toNat] = none) →
        (a = (s.v th f.wa.toNat).toNat ∧ a % 8 = 0 ∧ n = getBits (TWord.val (s.dev.scrWord (clusterOf th) a)) 0 12) →
        (s.dev.scrPass th a 1 ∧ isPoison (s.dev.scrWord (clusterOf th) a) = false) →
        (s.dev.cSt n ≠ cFree ∧ s.dev.cSt n ≠ cDraining ∧ s.dev.cFn n = (s.dev.thr th).fn) →
        exec (.colCtxDestroy th f ext) s = .next (s.on ((((s.dev.colDestroy n).setVal th f.wd.toNat 0).completed th).rmaGo)))

/-- A fence goes on where its scope has nothing outstanding and stalls where it has; fence.durable asks its endpoints to flush
(R66, R203, R204). Where the model chose behind these rules: log entries 17, 22 (notes/assumptions). -/
def Obligations.EngineFences : Prop :=
  -- FENCE_LOCAL
  (∀ (s : State) (th : Tid) (f : FmtA) (ext : Ext),
        (s.dev.atInstr th (wordA 0x60 f) ext f.guard.toNat = true ∧ s.dev.halted = false) →
        (extBad (s.dev.thr th) ext = false ∧ bareA f = false) →
        (s.dev.stall th (.fence 0)).scopeMem ((s.dev.thr th).scope th) th = false →
        exec (.fenceLocal th f ext) s = .next (s.on (((((s.dev.stall th (.fence 0)).updThr th (fun t => { t with st := .ready, stall := .none })).goOn th).retired th).rmaGo))) ∧
  -- FENCE_LOCAL (stall)
  (∀ (s : State) (th : Tid) (f : FmtA) (ext : Ext),
        (s.dev.atInstr th (wordA 0x60 f) ext f.guard.toNat = true ∧ s.dev.halted = false) →
        (extBad (s.dev.thr th) ext = false ∧ bareA f = false) →
        (s.dev.stall th (.fence 0)).scopeMem ((s.dev.thr th).scope th) th = true →
        exec (.fenceLocal th f ext) s = .next (s.on (((s.dev.stall th (.fence 0)).retired th).rmaGo))) ∧
  -- FENCE_REMOTE
  (∀ (s : State) (th : Tid) (f : FmtA) (ext : Ext),
        (s.dev.atInstr th (wordA 0x61 f) ext f.guard.toNat = true ∧ s.dev.halted = false) →
        (extBad (s.dev.thr th) ext = false ∧ bareA f = false) →
        s.dev.scopeBusy ((s.dev.thr th).scope th) = false →
        exec (.fenceRemote th f ext) s = .next (s.on (((((s.dev.stall th (.fence 1)).updThr th (fun t => { t with st := .ready, stall := .none })).goOn th).retired th).rmaGo))) ∧
  -- FENCE_REMOTE (stall)
  (∀ (s : State) (th : Tid) (f : FmtA) (ext : Ext),
        (s.dev.atInstr th (wordA 0x61 f) ext f.guard.toNat = true ∧ s.dev.halted = false) →
        (extBad (s.dev.thr th) ext = false ∧ bareA f = false) →
        s.dev.scopeBusy ((s.dev.thr th).scope th) = true →
        exec (.fenceRemote th f ext) s = .next (s.on (((s.dev.stall th (.fence 1)).retired th).rmaGo))) ∧
  -- FENCE_DURABLE
  (∀ (s : State) (th : Tid) (f : FmtA) (ext : Ext),
        (s.dev.atInstr th (wordA 0x62 f) ext f.guard.toNat = true ∧ s.dev.halted = false) →
        (extBad (s.dev.thr th) ext = false ∧ bareA f = false) →
        s.dev.scopeBusy ((s.dev.thr th).scope th) = false →
        exec (.fenceDurable th f ext) s = .next (s.on (((if
            ((s.dev.stall th (.fence 2)).fenceFlush th).fenceOver th 3 then
              (((((s.dev.stall th (.fence 2)).fenceFlush th).updScope ((s.dev.thr th).scope th)
                (fun x => { x with durable := [], gets := false })).updThr th (fun t => { t with st := .ready, stall := .none })).goOn th).retired th
            else ((s.dev.stall th (.fence 2)).fenceFlush th).retired th)).rmaGo))) ∧
  -- FENCE_DURABLE (stall)
  (∀ (s : State) (th : Tid) (f : FmtA) (ext : Ext),
        (s.dev.atInstr th (wordA 0x62 f) ext f.guard.toNat = true ∧ s.dev.halted = false) →
        (extBad (s.dev.thr th) ext = false ∧ bareA f = false) →
        s.dev.scopeBusy ((s.dev.thr th).scope th) = true →
        exec (.fenceDurable th f ext) s = .next (s.on (((s.dev.stall th (.fence 2)).retired th).rmaGo)))

/-- A pending event begins on a waiting thread, a timer raises its event, a line filled, then or ahead, frees its thread, a
restart clears one (R25, R27, R31, R79, R80, R81, R84). Where the model chose behind these rules: log entries 17, 22
(notes/assumptions). -/
def Obligations.EngineEventsAndTimers : Prop :=
  -- TIMER_EXPIRE
  (∀ (s : State) (th : Tid),
        ((s.dev.thr th).timer ≠ 0 ∧ s.dev.halted = false) →
        exec (.timerExpire th) s = .next (s.on (((s.dev.advanceToNs (s.dev.thr th).timer).updThr th (fun t => { t with timer := 0 })).raiseEvent
            { slot := (match (s.dev.thr th).timerSlot with | some n => n | none => (s.dev.advanceToNs (s.dev.thr th).timer).rd F.ENG_FN_TRAP_SLOT (s.dev.thr th).timerFn)
              entry := 15, fn := (s.dev.thr th).timerFn, kind := 3, w1 := BitVec.ofNat 64 (s.dev.advanceToNs (s.dev.thr th).timer).ns
              w2 := BitVec.ofNat 64 (s.dev.thr th).timer, w3 := 0, w4 := 0 }))) ∧
  -- EVENT_START
  (∀ (s : State) (th : Tid) (e : Event) (l : List Event),
        ((s.dev.thr th).st = .wait ∧ (s.dev.thr th).active = false ∧ s.dev.halted = false ∧ s.dev.gated (clusterOf th) = false) →
        (s.dev.pendEv (clusterOf th) = e :: l ∧ s.dev.eng.late = []) →
        (e.kind ≠ 5 ∧ s.dev.flag F.ENG_SLOT_CTL_EN e.slot = true) →
        ∃ d, exec (.eventStart th) s = .next (s.on d) ∧ d.pendEv (clusterOf th) = l ∧
          (d.thr th).st = .ready ∧ (d.thr th).active = true ∧ (d.thr th).pc = mkPc e.entry e.slot (s.dev.slotVer e.slot) ∧
          (d.thr th).fn = e.fn ∧ (d.thr th).asid = s.dev.rd F.ENG_SLOT_CTL_ASID e.slot ∧
          (d.thr th).priv = s.dev.flag F.ENG_SLOT_CTL_PRIV e.slot ∧ (d.thr th).event = e.kind ∧
          (d.thr th).reg 1 = mkWord e.w1 0 ∧ (d.thr th).reg 2 = mkWord e.w2 0) ∧
  -- IMEM_FILL_DONE
  (∀ (s : State) (th : Tid) (v tag slot ver line : Nat) (d : Dev) (r : HostRd),
        (s.dev.findRead (.imem th) = some tag ∧ (s.dev.thr th).stall = .imem slot ver line none) →
        s.dev.takeRead tag 72 (.ok v false) = (d, some r) →
        72 ≤ 4096 - (s.dev.imgBase slot ver + 72 * line) % 4096 →
        exec (.imemFillDone th (.ok v false)) s = .next (s.on (((d.addLine (clusterOf th) ⟨slot, ver, line, v % 2 ^ 576⟩).updThr th (fun t => { t with st := .ready, stall := .none })).invPoll))) ∧
  -- ahead done
  (∀ (d e : Dev) (c slot ver line tag v : Nat) (cpl : Cpl) (r : HostRd),
        (d.takeRead tag 72 cpl = (e, some r) ∧ e.gated c = false) →
        (cpl.good = none → d.aheadDone c slot ver line tag cpl = e.ev 2 5) ∧
          (cpl.good = some v → d.aheadDone c slot ver line tag cpl =
            { e with eng.ahead := Tbl.put c { line := ⟨slot, ver, line, v % 2 ^ 576⟩, addr := r.addr } e.eng.ahead })) ∧
  -- line ahead
  (∀ (d e : Dev) (th slot ver line : Nat) (r : XReq),
        (e = (d.pick 2).2 ∧ r = e.slotReq th slot (e.linePart slot ver line 0).1) →
        d.lineAhead th slot ver line = e ∨ (16 * line < e.slotLen slot ver ∧ ∃ g, g = e.xlate r (.imemPre (clusterOf th) slot ver line) true r.asid ∧
            d.lineAhead th slot ver line = g.1.aheadGo (clusterOf th) slot ver line (g.1.asidFn r.asid) g.2)) ∧
  -- line got (ahead)
  (∀ (d : Dev) (th slot ver line a : Nat) (l : ILine),
        ((d.linePart slot ver line 0).2 = 72 ∧ (d.stall th (.imem slot ver line none)).aheadFor (clusterOf th) slot ver line a = some l) →
        ∃ e, e = d.stall th (.imem slot ver line none) ∧ d.lineGot th slot ver line none (.ok a) =
            (({ e with eng.ahead := Tbl.del (clusterOf th) e.eng.ahead }.addLine (clusterOf th) l).updThr th (fun t => { t with st := .ready, stall := .none }))) ∧
  -- THR_RESTART
  (∀ (s : State) (th : Eid),
        (s.dev.thr th).st = .stopped →
        exec (.thrRestart th) s = .next (s.on ((s.dev.wake (th.val / 64)).setThr th
            { timer := (s.dev.thr th).timer, timerSlot := (s.dev.thr th).timerSlot, timerFn := (s.dev.thr th).timerFn })))

/-- A doorbell or push announces PROD, is ignored when stale and stops the queue when it overruns; push bytes gather; BAR2 reads
PROD and its reserved bytes 0 (R89, R94, R95, R96, R97, R100, R108, R436, R439). Where the model chose behind these rules:
log entry 5 (notes/assumptions). -/
def Obligations.DoorbellsAndPushes : Prop :=
  -- DOORBELL
  (∀ (s : State) (a : Bar2) (q size : Nat) (value : Word),
        s.dev.bar2 a.fn a.off.toNat = some (q, 0) →
        (s.dev.halted = false ∧ (size = 4 ∨ (size = 8 ∧ getBits value 32 32 = 0)) ∧ qAccepts (s.dev.qst q) = true) →
        (seqSub (getBits value 0 32) (s.dev.qProd q) ≠ 0 ∧ seqSub (getBits value 0 32) (s.dev.qProd q) < 2 ^ 31) →
        seqSub (getBits value 0 32) (s.dev.qComp q) ≤ s.dev.qSize q →
        exec (.doorbell a size (some value)) s = .next (s.on ((((s.dev.ev 10 3 (some (s.dev.qFn q / 256)) (some (s.dev.qFn q))).wr F.WQ_CTX_PROD_SEQ_PROD q
            (getBits value 0 32)).qWake q).rmaGo))) ∧
  -- DOORBELL (stale)
  (∀ (s : State) (a : Bar2) (q size : Nat) (value : Word),
        s.dev.bar2 a.fn a.off.toNat = some (q, 0) →
        (s.dev.halted = false ∧ (size = 4 ∨ (size = 8 ∧ getBits value 32 32 = 0)) ∧ qAccepts (s.dev.qst q) = true) →
        2 ^ 31 ≤ seqSub (getBits value 0 32) (s.dev.qProd q) →
        exec (.doorbell a size (some value)) s = .next (s.on (((s.dev.ev 10 3 (some (s.dev.qFn q / 256)) (some (s.dev.qFn q))).ev 1 2 none (some (s.dev.qFn q))).rmaGo))) ∧
  -- DOORBELL (overrun)
  (∀ (s : State) (a : Bar2) (q size : Nat) (value : Word),
        s.dev.bar2 a.fn a.off.toNat = some (q, 0) →
        (s.dev.halted = false ∧ (size = 4 ∨ (size = 8 ∧ getBits value 32 32 = 0)) ∧ qAccepts (s.dev.qst q) = true) →
        (seqSub (getBits value 0 32) (s.dev.qProd q) ≠ 0 ∧ seqSub (getBits value 0 32) (s.dev.qProd q) < 2 ^ 31) →
        s.dev.qSize q < seqSub (getBits value 0 32) (s.dev.qComp q) →
        exec (.doorbell a size (some value)) s = .next (s.on (((s.dev.ev 10 3 (some (s.dev.qFn q / 256)) (some (s.dev.qFn q))).qError q qeOverrun (s.dev.qDisp q)).rmaGo))) ∧
  -- DOORBELL (ignored)
  (∀ (s : State) (a : Bar2) (q size : Nat) (value : Word),
        s.dev.bar2 a.fn a.off.toNat = some (q, 0) →
        (s.dev.halted = false ∧ (size = 4 ∨ (size = 8 ∧ getBits value 32 32 = 0)) ∧ qAccepts (s.dev.qst q) = false) →
        exec (.doorbell a size (some value)) s = .next (s.on ((s.dev.ev 10 3 (some (s.dev.qFn q / 256)) (some (s.dev.qFn q))).rmaGo))) ∧
  -- DOORBELL (read)
  (∀ (s : State) (a : Bar2) (q size : Nat),
        (s.dev.bar2 a.fn a.off.toNat = some (q, 0) ∧ (size = 4 ∨ size = 8)) →
        s.dev.dark = false →
        exec (.doorbell a size none) s = .next (s.on (s.dev.emit (.readValue (s.dev.qProd q))))) ∧
  -- DOORBELL (read zero)
  (∀ (s : State) (a : Bar2) (q o size : Nat),
        (s.dev.bar2 a.fn a.off.toNat = none ∨ (s.dev.bar2 a.fn a.off.toNat = some (q, o) ∧ ¬ (o = 0 ∧ (size = 4 ∨ size = 8)))) →
        s.dev.dark = false →
        exec (.doorbell a size none) s = .next (s.on (s.dev.emit (.readValue 0)))) ∧
  -- DOORBELL (reserved)
  (∀ (s : State) (a : Bar2) (q o size : Nat) (value : Word),
        (s.dev.bar2 a.fn a.off.toNat = none ∨ (s.dev.bar2 a.fn a.off.toNat = some (q, o) ∧ ((8 ≤ o ∧ o < 0x80) ∨ 0xC0 ≤ o))) →
        s.dev.halted = false →
        exec (.doorbell a size (some value)) s = .next (s.on s.dev.rmaGo)) ∧
  -- PUSH_WRITE (part)
  (∀ (s : State) (a : Bar2) (q : Nat) (mask : BitVec 64) (data : BitVec 512) (m v t : Nat),
        s.dev.bar2 a.fn a.off.toNat = some (q, 0x80) →
        (s.dev.halted = false ∧ qAccepts (s.dev.qst q) = true ∧ mask ≠ 0) →
        (((s.dev.queue q).asm).getD (0, 0, s.dev.ps) = (m, v, t) ∧ m ||| mask.toNat ≠ 2 ^ 64 - 1) →
        exec (.pushWrite a mask data) s = .next (s.on ((s.dev.updQueue q (fun x =>
            { x with asm := some (m ||| mask.toNat, mergeBytes v data.toNat mask.toNat 64, t) })).rmaGo))) ∧
  -- PUSH_WRITE (whole)
  (∀ (s : State) (a : Bar2) (q : Nat) (mask : BitVec 64) (data : BitVec 512) (m v t : Nat),
        s.dev.bar2 a.fn a.off.toNat = some (q, 0x80) →
        (s.dev.halted = false ∧ qAccepts (s.dev.qst q) = true ∧ mask ≠ 0) →
        (((s.dev.queue q).asm).getD (0, 0, s.dev.ps) = (m, v, t) ∧ m ||| mask.toNat = 2 ^ 64 - 1) →
        exec (.pushWrite a mask data) s = .next (s.on (((s.dev.updQueue q (fun x => { x with asm := none })).pushUse q (2 ^ 64 - 1)
            (mergeBytes v data.toNat mask.toNat 64)).rmaGo))) ∧
  -- push use (kept)
  (∀ (d : Dev) (q mask data : Nat),
        mask = 2 ^ 64 - 1 →
        (bitsOf data 0 32 = d.qProd q ∧ (d.queue q).push = none ∧ d.wq.cache.length < 16384) →
        seqSub (bitsOf data 0 32 + 1) (d.qComp q) ≤ d.qSize q →
        (d.pushUse q mask data).qProd q = (d.qProd q + 1) % 2 ^ 32 ∧
          Tbl.find (d.pushUse q mask data).wq.cache (lineKey q (bitsOf data 0 32)) = some data) ∧
  -- PUSH_TIMEOUT
  (∀ (s : State) (q : Qid) (m v t : Nat),
        (s.dev.halted = false ∧ (s.dev.queue q).asm = some (m, v, t) ∧ qAccepts (s.dev.qst q) = true) →
        exec (.pushTimeout q) s = .next (s.on ((((s.dev.advanceTo (t + usPs 1)).updQueue q (fun x => { x with asm := none })).pushUse q m v).rmaGo)))

/-- Each command of a queue acts in the states that accept it and sets CMD_REJ elsewhere (R5, R100, R102, R103, R104, R110,
R121). Where the model chose behind these rules: log entries 5, 12 (notes/assumptions). -/
def Obligations.QueueCommands : Prop :=
  -- WQ_ENABLE
  (∀ (s : State) (q : Qid),
        (s.dev.halted = false ∧ s.dev.qst q = qsOff ∧ s.dev.qValid q = true) →
        exec (.wqEnable q) s = .next (s.on ((s.dev.setQueue q
            { wb := (s.dev.queue q).wb, recDue := (s.dev.queue q).recDue, intReq := (s.dev.queue q).intReq,
              wbWait := (s.dev.queue q).wbWait, fetch := (s.dev.queue q).fetch, fetchOld := (s.dev.queue q).fetch.isSome }).wr
            F.WQ_CTX_CTL_STATE q qsEnabling))) ∧
  -- WQ_ENABLE (cfg)
  (∀ (s : State) (q : Qid),
        (s.dev.halted = false ∧ s.dev.qst q = qsOff ∧ s.dev.qValid q = false) →
        exec (.wqEnable q) s = .next (s.on ((s.dev.wr F.WQ_CTX_CTL_ERR_CAUSE q qeCfg).wr F.WQ_CTX_CTL_CMD_REJ q 1))) ∧
  -- WQ_ENABLE (latched)
  (∀ (s : State) (q : Qid),
        (s.dev.halted = false ∧ s.dev.qst q = qsDraining) →
        exec (.wqEnable q) s = .next (s.on (s.dev.wr F.WQ_CTX_CTL_ENABLE_LATCHED q 1))) ∧
  -- WQ_ENABLE (refused)
  (∀ (s : State) (q : Qid),
        (s.dev.halted = false ∧ s.dev.qst q ≠ qsOff ∧ s.dev.qst q ≠ qsDraining) →
        exec (.wqEnable q) s = .next (s.on (s.dev.wr F.WQ_CTX_CTL_CMD_REJ q 1))) ∧
  -- WQ_DISABLE
  (∀ (s : State) (q : Qid),
        (s.dev.halted = false ∧ (s.dev.qst q = qsRun ∨ s.dev.qst q = qsHold ∨ s.dev.qst q = qsError)) →
        exec (.wqDisable q) s = .next (s.on ((((s.dev.wr F.WQ_CTX_CTL_STATE q qsDraining).updQueue q (fun x =>
            { x with asm := none, redo := none })).qNote q).wrrEnd (s.dev.qFn q)))) ∧
  -- WQ_DISABLE (refused)
  (∀ (s : State) (q : Qid),
        (s.dev.halted = false ∧ s.dev.qst q ≠ qsRun ∧ s.dev.qst q ≠ qsHold ∧ s.dev.qst q ≠ qsError) →
        exec (.wqDisable q) s = .next (s.on (s.dev.wr F.WQ_CTX_CTL_CMD_REJ q 1))) ∧
  -- WQ_RESUME (next)
  (∀ (s : State) (q : Qid) (e : Nat),
        (s.dev.halted = false ∧ s.dev.qMayResume q = true ∧ e = s.dev.rd F.WQ_CTX_CTL_ERR_SEQ q) →
        s.dev.qDisp q = e →
        exec (.wqResume q) s = .next (s.on ((s.dev.dropEntries q e).qGo q))) ∧
  -- WQ_RESUME (again)
  (∀ (s : State) (q : Qid) (e : Nat),
        (s.dev.halted = false ∧ s.dev.qMayResume q = true ∧ e = s.dev.rd F.WQ_CTX_CTL_ERR_SEQ q) →
        (seqSub e (s.dev.qComp q) < 2 ^ 31 ∧ seqSub (s.dev.qDisp q) e - 1 < 2 ^ 31 - 1 ∧ e ≠ s.dev.qDisp q) →
        Tbl.has (s.dev.queue q).ents e = true →
        exec (.wqResume q) s = .next (s.on (((s.dev.dropEntries q e).updQueue q (fun x =>
            { x with redo := some e, ents := Tbl.del e x.ents })).qGo q))) ∧
  -- WQ_SKIP
  (∀ (s : State) (q : Qid) (e : Nat),
        (s.dev.halted = false ∧ s.dev.qMayResume q = true ∧ e = s.dev.rd F.WQ_CTX_CTL_ERR_SEQ q) →
        (s.dev.rd F.WQ_CTX_CTL_ERR_CAUSE q = qeMalformed ∨ s.dev.rd F.WQ_CTX_CTL_ERR_CAUSE q = qeFetch ∨
              s.dev.rd F.WQ_CTX_CTL_ERR_CAUSE q = qeDoubleTrap ∨ s.dev.rd F.WQ_CTX_CTL_ERR_CAUSE q = qeHandlerStop) →
        exec (.wqSkip q) s = .next (s.on (((((if s.dev.qDisp q = e then (s.dev.wr F.WQ_CTX_DISP_SEQ_DISP q (e + 1)).dropEntries q e else s.dev).updQueue q
            (fun x => { x with redo := x.redo.filter (fun n => n != e) })).updEnt q e (fun x => { x with skipped := true })).qGo q).qProgress q))) ∧
  -- WQ_RESUME (refused)
  (∀ (s : State) (q : Qid),
        (s.dev.halted = false ∧ s.dev.qMayResume q = false) →
        exec (.wqResume q) s = .next (s.on (s.dev.wr F.WQ_CTX_CTL_CMD_REJ q 1)) ∧
          exec (.wqSkip q) s = .next (s.on (s.dev.wr F.WQ_CTX_CTL_CMD_REJ q 1))) ∧
  -- WQ_INVAL
  (∀ (s : State) (q : Qid),
        (s.dev.halted = false ∧ (s.dev.qst q = qsHold ∨ s.dev.qst q = qsError)) →
        exec (.wqInval q) s = .next (s.on (s.dev.dropEntries q (s.dev.rd F.WQ_CTX_AUX_INVAL_SEQ q)))) ∧
  -- WQ_INVAL (refused)
  (∀ (s : State) (q : Qid),
        (s.dev.halted = false ∧ s.dev.qst q ≠ qsHold ∧ s.dev.qst q ≠ qsError) →
        exec (.wqInval q) s = .next (s.on (s.dev.wr F.WQ_CTX_CTL_CMD_REJ q 1))) ∧
  -- WQ_HOLD (set)
  (∀ (s : State) (q : Qid),
        (s.dev.halted = false ∧ s.dev.qst q = qsRun) →
        exec (.wqHold q true) s = .next (s.on ((((s.dev.wr F.WQ_CTX_CTL_HOLD q 1).wr F.WQ_CTX_CTL_STATE q qsHold).qNote q).wrrEnd ((s.dev.wr F.WQ_CTX_CTL_HOLD q 1).qFn q)))) ∧
  -- WQ_HOLD (clear)
  (∀ (s : State) (q : Qid),
        (s.dev.halted = false ∧ s.dev.qst q = qsHold) →
        exec (.wqHold q false) s = .next (s.on ((((s.dev.wr F.WQ_CTX_CTL_HOLD q 0).wr F.WQ_CTX_CTL_STATE q qsRun).qNote q).qWake q))) ∧
  -- WQ_PROD_WRITE (off)
  (∀ (s : State) (q : Qid) (v : BitVec 32),
        s.dev.qst q = qsOff →
        exec (.wqProdWrite q v) s = .next (s.on (((s.dev.wr F.WQ_CTX_PROD_SEQ_PROD q v.toNat).wr F.WQ_CTX_DISP_SEQ_DISP q v.toNat).wr
            F.WQ_CTX_COMP_SEQ_COMP q v.toNat))) ∧
  -- WQ_PROD_WRITE (late)
  (∀ (s : State) (q : Qid) (v : BitVec 32),
        (s.dev.qst q ≠ qsOff ∧ s.dev.qProd q ≠ v.toNat) →
        exec (.wqProdWrite q v) s = .next (s.on (s.dev.fault 1))) ∧
  -- WQ_ENABLE_DONE
  (∀ (s : State) (q : Qid) (d e : Dev),
        (s.dev.halted = false ∧ s.dev.qst q = qsEnabling ∧ (s.dev.queue q).prepared = false) →
        (d = (s.dev.dropAll q).wr F.WQ_CTX_COMP_SEQ_ERR_CNT q 0 ∧ e = d.wr F.WQ_CTX_AUX_INCARNATION q (d.rd F.WQ_CTX_AUX_INCARNATION q + 1)) →
        exec (.wqEnableDone q) s = .next (s.on ((e.updQueue q (fun x => { x with prepared := true })).qNote q))) ∧
  -- WQ_ENABLE_DONE (run)
  (∀ (d : Dev) (q : Nat),
        ((d.queue q).prepared = true ∧ (d.queue q).disEnabling = false ∧ (d.queue q).latched = false) →
        d.flag F.WQ_CTX_CTL_HOLD q = false →
        d.qEnter q = ((d.updQueue q (fun x => { x with prepared := false, disEnabling := false })).wr F.WQ_CTX_CTL_STATE q qsRun).qWake q) ∧
  -- WQ_DRAIN_DONE
  (∀ (s : State) (q : Qid),
        (s.dev.halted = false ∧ s.dev.qst q = qsDraining ∧ s.dev.queue q = {}) →
        ((s.dev.wr F.WQ_CTX_CTL_STATE q qsOff).qNote q).flag F.WQ_CTX_CTL_ENABLE_LATCHED q = false →
        exec (.wqDrainDone q) s = .next (s.on ((s.dev.wr F.WQ_CTX_CTL_STATE q qsOff).qNote q)))

/-- A grant starts the held entry of the queue that the round robin picks, or fetches it; fetched and prefetched entries come
in; records are written (R98, R105, R106, R107, R108, R114, R116, R118, R347). Where the model chose behind these rules: log
entries 1, 5 (notes/assumptions). -/
def Obligations.QueueDispatch : Prop :=
  -- WQ_DISPATCH (held)
  (∀ (s : State) (fn : Fid) (th : Eid) (q e v : Nat) (w : Wrr) (d : Dev),
        (s.dev.halted = false ∧ s.dev.gated (th.val / 64) = false ∧ (s.dev.thr th).st = .wait ∧ (s.dev.thr th).active = false) →
        (s.dev.grantee (th.val / 64) = some fn.val ∧ s.dev.wrrPick fn = some (q, w)) →
        (s.dev.qNext q = some e ∧ s.dev.held q e = some v ∧ s.dev.inHand q e = true) →
        d = { s.dev with wq.wrr := Tbl.put fn w s.dev.wq.wrr, sch.lastGrant := Tbl.put (th.val / 64) fn s.dev.sch.lastGrant } →
        exec (.wqDispatch fn th) s = .next (s.on (((d.ev 1 6 none (some fn)).startEntry q e th v).rmaGo))) ∧
  -- WQ_DISPATCH (prefetched)
  (∀ (s : State) (fn : Fid) (th : Eid) (q e v : Nat) (w : Wrr) (d : Dev),
        (s.dev.halted = false ∧ s.dev.gated (th.val / 64) = false ∧ (s.dev.thr th).st = .wait ∧ (s.dev.thr th).active = false) →
        (s.dev.grantee (th.val / 64) = some fn.val ∧ s.dev.wrrPick fn = some (q, w)) →
        (s.dev.qNext q = some e ∧ s.dev.held q e = some v ∧ s.dev.inHand q e = false) →
        d = { s.dev with wq.wrr := Tbl.put fn w s.dev.wq.wrr, sch.lastGrant := Tbl.put (th.val / 64) fn s.dev.sch.lastGrant } →
        exec (.wqDispatch fn th) s = .next (s.on (((d.ev 1 6 none (some fn)).fetchEntry q e th).rmaGo))) ∧
  -- WQ_DISPATCH (fetch)
  (∀ (s : State) (fn : Fid) (th : Eid) (q e : Nat) (w : Wrr) (d : Dev),
        (s.dev.halted = false ∧ s.dev.gated (th.val / 64) = false ∧ (s.dev.thr th).st = .wait ∧ (s.dev.thr th).active = false) →
        (s.dev.grantee (th.val / 64) = some fn.val ∧ s.dev.wrrPick fn = some (q, w)) →
        (s.dev.qNext q = some e ∧ s.dev.held q e = none) →
        d = { s.dev with wq.wrr := Tbl.put fn w s.dev.wq.wrr, sch.lastGrant := Tbl.put (th.val / 64) fn s.dev.sch.lastGrant } →
        exec (.wqDispatch fn th) s = .next (s.on (((d.ev 1 7 none (some fn)).fetchEntry q e th).rmaGo))) ∧
  -- entry at
  (∀ (d : Dev) (q e th fn a va v : Nat),
        d.held q e = some v →
        d.entryAt q e th fn a va = (if d.mustWait q e v then (d.release q th).wrrEnd (d.qFn q) else d.startEntry q e th v)) ∧
  -- wrr spend
  (∀ (d : Dev) (f q n : Nat),
        ((d.wrrOf f).begun = true ∧ (d.wrrOf f).cur = some (q, n)) →
        (((d.wrrSpend f q).wrrOf f).creditOf q = (d.wrrOf f).creditOf q - 1) ∧ ((d.wrrSpend f q).wrrOf f).last = q ∧
          ((d.wrrSpend f q).wrrOf f).cur = some (q, n + 1)) ∧
  -- WQ_FETCH_DONE
  (∀ (s : State) (q : Qid) (tag th v e : Nat) (d : Dev) (r : HostRd),
        (s.dev.findRead (.wqFetch q) = some tag ∧ (s.dev.queue q).fetch = some th) →
        (s.dev.takeRead tag 64 (.ok v false) = (d, some r) ∧ d.qNext q = some e ∧ d.qst q = qsRun) →
        ((d.queue q).fetchOld = false ∧ d.mustWait q e v = false) →
        exec (.wqFetchDone q (.ok v false)) s = .next (s.on (Dev.goes (d.startEntry q e th v).invPoll))) ∧
  -- start entry
  (∀ (d : Dev) (q e th v : Nat),
        (malformed v e = false ∧ (d.queue q).redo ≠ some e) →
        ((d.startEntry q e th v).thr th).st = .ready ∧ ((d.startEntry q e th v).thr th).cmd = true ∧
          ((d.startEntry q e th v).thr th).queue = q ∧ ((d.startEntry q e th v).thr th).seq = e ∧
          ((d.startEntry q e th v).thr th).slots = (List.range (bitsOf v 32 3)).map (fun k => BitVec.ofNat 64 (bitsOf v (64 * (k + 1)) 64)) ∧
          (d.startEntry q e th v).qDisp q = (e + 1) % 2 ^ 32) ∧
  -- WQ_PREFETCH
  (∀ (s : State) (q : Qid) (seq : BitVec 32) (n : Nat),
        (s.dev.halted = false ∧ (s.dev.qst q = qsRun ∨ s.dev.qst q = qsHold) ∧ 0 < n ∧ n ≤ 4 ∧ n ≤ 64 - seq.toNat % 64) →
        seqSub seq.toNat (s.dev.qDisp q) + n ≤ min (min (s.dev.rd F.WQ_CTX_CFG_PREFETCH q) 16) (seqSub (s.dev.qProd q) (s.dev.qDisp q)) →
        (seq.toNat % s.dev.qSize q + n ≤ s.dev.qSize q ∧ s.dev.wq.cache.length + n ≤ 16384) →
        (List.range n).any (fun i => (s.dev.held q (seq.toNat + i)).isSome) = false →
        (s.dev.flag F.WQ_CTX_RING_PHYS q = true ∧ s.dev.gateFail (18 + s.dev.qFn q / 256) 1 (some (s.dev.qFn q)) (s.dev.ringAddr q seq.toNat) (64 * n) 1 = none) →
        exec (.wqPrefetch q seq n) s = .next (s.on (s.dev.hostRead (s.dev.qFn q) (s.dev.ringAddr q seq.toNat) (64 * n) (.wqPre q seq.toNat n)).1)) ∧
  -- WQ_PREFETCH_DONE
  (∀ (s : State) (q : Qid) (seq : BitVec 32) (v tag : Nat) (r : HostRd) (d : Dev),
        s.dev.findPre q seq.toNat = some (tag, 1) →
        s.dev.takeRead tag 64 (.ok v false) = (d, some r) →
        exec (.wqPrefetchDone q seq (.ok v false)) s = .next (s.on (Dev.goes (d.cacheLine q (seq.toNat % 2 ^ 32) (bitsOf v 0 512)).invPoll))) ∧
  -- cache line
  (∀ (d : Dev) (q e v : Nat),
        (seqSub e (d.qDisp q) < seqSub (d.qProd q) (d.qDisp q) ∧ d.wq.cache.length < 16384 ∧ d.held q e = none) →
        (d.cacheLine q e v).held q e = some v) ∧
  -- STATUS_RECORD_WRITE
  (∀ (s : State) (q : Qid) (t : Nat),
        (s.dev.halted = false ∧ (s.dev.queue q).recDue = some t) →
        exec (.statusRecordWrite q) s = .next (s.on ((s.dev.advanceTo t).qWriteDue q)))

/-- A walk read that finds a leaf ends the walk and fills the caches, a table leads down, an invalid entry fails; a table may be
sought ahead; old entries go (R127, R128, R129, R130, R131, R132, R135, R136). Where the model chose behind these rules: log
entries 5, 11 (notes/assumptions). -/
def Obligations.TranslationWalks : Prop :=
  -- XLT_WALK_READ_DONE (leaf)
  (∀ (s : State) (id : Nat) (w : Walk) (tag e a : Nat) (d d1 : Dev) (r : HostRd) (l : Leaf),
        (Tbl.find s.dev.xlt.walks id = some w ∧ w.tag = some tag ∧ s.dev.takeRead tag 8 (.ok e false) = (d, some r)) →
        (e % 2 ≠ 0 ∧ bitsOf e 1 1 ≠ 0 ∧ leafOf w.req.asid w.req.va w.level (e % 2 ^ 64) d.ps = some l) →
        (Dev.judgeLeaf { d with xlt.walks := Tbl.del id d.xlt.walks } w.req l w.spec = (d1, .ok a) ∧ w.req.cluster = none ∧ w.work ≠ .table) →
        Dev.barred { d with xlt.walks := Tbl.del id d.xlt.walks } w l.va (2 ^ l.bits) = false →
        ∃ d2, d2 = ((d1.fillL2 w.req l).resume w.req w.work w.owner (.ok a)).invJoin w.partialOf (d1.fillL2 w.req l).nextTag ∧
          exec (.xltWalkReadDone id (.ok e false)) s = .next (s.on (Dev.goes
            (((if w.partialOf.isEmpty then d2 else d2.renewAll).tableAhead w (.ok a)).walksGo ((if w.partialOf.isEmpty then d2 else d2.renewAll).tableAhead w (.ok a)).xlt.walks.length).invPoll))) ∧
  -- XLT_WALK_READ_DONE (invalid)
  (∀ (s : State) (id : Nat) (w : Walk) (tag e : Nat) (d : Dev) (r : HostRd),
        (Tbl.find s.dev.xlt.walks id = some w ∧ w.tag = some tag ∧ s.dev.takeRead tag 8 (.ok e false) = (d, some r)) →
        e % 2 = 0 →
        ∃ d2, d2 = (Dev.resume { d with xlt.walks := Tbl.del id d.xlt.walks } w.req w.work w.owner .fault).invJoin w.partialOf d.nextTag ∧
          exec (.xltWalkReadDone id (.ok e false)) s = .next (s.on (Dev.goes
            ((if w.partialOf.isEmpty then d2 else d2.renewAll).walksGo (if w.partialOf.isEmpty then d2 else d2.renewAll).xlt.walks.length).invPoll))) ∧
  -- XLT_WALK_READ_DONE (table)
  (∀ (s : State) (id : Nat) (w : Walk) (tag e n : Nat) (d d1 : Dev) (r : HostRd),
        (Tbl.find s.dev.xlt.walks id = some w ∧ w.tag = some tag ∧ s.dev.takeRead tag 8 (.ok e false) = (d, some r)) →
        (e % 2 ≠ 0 ∧ bitsOf e 1 1 = 0 ∧ w.level = n + 1 ∧ w.spec = true ∧ w.work ≠ .table) →
        d.walkRead id { w with level := n, table := bitsOf e 12 52 * 2 ^ 12, tag := none } = (d1, .wait) →
        exec (.xltWalkReadDone id (.ok e false)) s = .next (s.on (Dev.goes d1.invPoll))) ∧
  -- XLT_WALK_READ_DONE (ahead)
  (∀ (s : State) (id : Nat) (w : Walk) (tag e : Nat) (d d2 : Dev) (r : HostRd),
        (Tbl.find s.dev.xlt.walks id = some w ∧ w.tag = some tag ∧ s.dev.takeRead tag 8 (.ok e false) = (d, some r)) →
        (e % 2 ≠ 0 ∧ bitsOf e 1 1 = 0 ∧ w.level = 1 ∧ w.spec = true ∧ w.work = .table ∧ w.partialOf = []) →
        d2 = (Dev.tableEntry { d with xlt.walks := Tbl.del id d.xlt.walks } w 0 (bitsOf e 12 52 * 2 ^ 12)).tableAhead w (.ok 0) →
        exec (.xltWalkReadDone id (.ok e false)) s = .next (s.on (Dev.goes (d2.walksGo d2.xlt.walks.length).invPoll))) ∧
  -- table ahead
  (∀ (d e : Dev) (w : Walk) (r : XReq),
        (e = (d.pick 2).2 ∧ r = { w.req with va := (w.req.va / 2 ^ 21 + 1) * 2 ^ 21 }) →
        d.tableAhead w .fault = d ∧ (∀ a, d.tableAhead w (.ok a) = e ∨
            (w.spec = false ∧ r.va < 2 ^ 57 ∧ e.walking < 64 ∧
              (∀ x, e.xlt.wc.contains x = true → x.asid = r.asid → x.level = 0 → x.pre ≠ vaPrefix r.va 0) ∧
              d.tableAhead w (.ok a) = (if (e.startWalk r .table true w.owner).2 = .fault then (e.startWalk r .table true w.owner).1.ev 2 5
                else (e.startWalk r .table true w.owner).1)))) ∧
  -- leaf of (page)
  (∀ (asid va e now k : Nat),
        (e < 2 ^ 64 ∧ bitsOf e 10 1 = 0 ∧ bitsOf e 9 1 = 0 ∧ e / 2 ^ 12 * 2 ^ 12 = k) →
        k % 2 ^ 12 = 0 →
        leafOf asid va 0 e now = some { asid := asid, va := va / 2 ^ 12 * 2 ^ 12, bits := 12, out := k, flags := bitsOf e 2 7, hit := now }) ∧
  -- TLB_AGE_RELEASE (leaf)
  (∀ (s : State) (asid : BitVec 16) (va : BitVec 57) (e : Leaf),
        (s.dev.halted = false ∧ s.dev.rd F.XLT_CFG_AGE_LIMIT ≠ 0) →
        oldestBy (fun x => x.2.hit) (s.dev.l2Leaves asid.toNat va.toNat) = some (none, e) →
        exec (.tlbAgeRelease asid va false) s = .next (s.on { (s.dev.advanceTo (e.hit + s.dev.ageLimit)) with
            xlt.l2 := s.dev.xlt.l2.erase e })) ∧
  -- TLB_AGE_RELEASE (table)
  (∀ (s : State) (asid : BitVec 16) (va : BitVec 57) (e : WalkEnt),
        (s.dev.halted = false ∧ s.dev.rd F.XLT_CFG_AGE_LIMIT ≠ 0) →
        oldestBy WalkEnt.hit (s.dev.xlt.wc.filter (fun x => x.asid == asid.toNat && x.pre == vaPrefix va.toNat x.level)) = some e →
        exec (.tlbAgeRelease asid va true) s = .next (s.on { (s.dev.advanceTo (e.hit + s.dev.ageLimit)) with
            xlt.wc := s.dev.xlt.wc.erase e }))

/-- An invalidation takes the next ticket and clears every cached entry within it; tickets complete in order once their flush
reads have returned (R141, R142, R143, R599). Where the model chose behind these rules: log entries 5, 11
(notes/assumptions). -/
def Obligations.TranslationInvalidation : Prop :=
  -- XLT_INV_VA
  (∀ (s : State) (p : Hid) (asid : BitVec 16) (size : BitVec 6) (walk : Bool),
        s.dev.halted = false →
        exec (.xltInvVa p asid size walk) s = .next (s.on (s.dev.invalidate p 0 asid.toNat size.toNat walk).renewAll) ∧
          exec (.xltInvAsid p asid) s = .next (s.on (s.dev.invalidate p 1 asid.toNat 12 true).renewAll) ∧
          exec (.xltInvAll p) s = .next (s.on (s.dev.invalidate p 2 0 12 true).renewAll) ∧
          exec (.xltInvKindDiscard p) s = .next s) ∧
  -- invalidate (ticket)
  (∀ (d : Dev) (p kind asid size : Nat) (walk : Bool),
        (d.invalidate p kind asid size walk).rd F.XLT_INV_STAT_ISSUED p = (d.rd F.XLT_INV_STAT_ISSUED p + 1) % 2 ^ 32) ∧
  -- clear caches
  (∀ (d : Dev) (v : Inval) (e : Leaf),
        v.hits e.asid e.va (2 ^ e.bits) = true →
        e ∉ (d.clearCaches v).xlt.l2 ∧ (∀ c, e ∉ Tbl.get (d.clearCaches v).xlt.l1d [] c) ∧ (∀ c, e ∉ Tbl.get (d.clearCaches v).xlt.l1i [] c)) ∧
  -- XLT_INV_FLUSH_ISSUE (none)
  (∀ (s : State) (p : Hid) (v : Inval),
        (s.dev.halted = false ∧ (s.dev.invals p).find? (fun x => !x.issued) = some v) →
        (s.dev.xlt.walks.any (fun e => e.2.partialOf.contains (p.val, v.ticket)) = false ∧ v.older.any s.dev.amoReads = false) →
        (s.dev.bifurcated p = false ∧ s.dev.flushAny (p.val * 2 + 0) = none) →
        exec (.xltInvFlushIssue p) s = .next (s.on ((s.dev.setInvals p ((s.dev.invals p).map (fun x =>
            if x.ticket = v.ticket then { x with issued := true, reads := [] } else x))).invRetire p
            ((s.dev.setInvals p ((s.dev.invals p).map (fun x => if x.ticket = v.ticket then { x with issued := true, reads := [] } else x))).invals p).length))) ∧
  -- XLT_INV_FLUSH_ISSUE (waits)
  (∀ (s : State) (p : Hid) (v : Inval),
        (s.dev.halted = false ∧ (s.dev.invals p).find? (fun x => !x.issued) = some v) →
        v.older.any s.dev.amoReads = true →
        exec (.xltInvFlushIssue p) s = .next s) ∧
  -- XLT_INV_FLUSH_ISSUE (read)
  (∀ (s : State) (p : Hid) (v : Inval) (f a t : Nat) (d : Dev),
        (s.dev.halted = false ∧ (s.dev.invals p).find? (fun x => !x.issued) = some v) →
        (s.dev.xlt.walks.any (fun e => e.2.partialOf.contains (p.val, v.ticket)) = false ∧ v.older.any s.dev.amoReads = false) →
        (s.dev.bifurcated p = false ∧ s.dev.flushAny (p.val * 2 + 0) = some (f, a)) →
        s.dev.hostRead f a 0 (.flushInv p v.ticket 0) = (d, some t) →
        exec (.xltInvFlushIssue p) s = .next (s.on ((d.setInvals p ((d.invals p).map (fun x =>
            if x.ticket = v.ticket then { x with issued := true, reads := [t] } else x))).invRetire p
            ((d.setInvals p ((d.invals p).map (fun x => if x.ticket = v.ticket then { x with issued := true, reads := [t] } else x))).invals p).length))) ∧
  -- XLT_INV_DONE
  (∀ (s : State) (p : Hid) (link : Fin 2) (cpl : Cpl) (tag t : Nat),
        s.dev.findFlush p link = some (tag, t) →
        exec (.xltInvDone p link cpl) s = .next (s.on (((s.dev.takeRead tag 0 cpl).1.setInvals p (((s.dev.takeRead tag 0 cpl).1.invals p).map (fun x =>
            if x.ticket = t then { x with reads := x.reads.erase tag } else x))).invRetire p
            (((s.dev.takeRead tag 0 cpl).1.setInvals p (((s.dev.takeRead tag 0 cpl).1.invals p).map (fun x =>
            if x.ticket = t then { x with reads := x.reads.erase tag } else x))).invals p).length))) ∧
  -- inv retire
  (∀ (d : Dev) (p n : Nat) (v : Inval) (l : List Inval),
        (d.invals p = v :: l ∧ v.issued = true ∧ v.reads = [] ∧ v.older.any (Tbl.has d.reads) = false) →
        d.invRetire p (n + 1) = (((d.wr F.XLT_INV_STAT_DONE p v.ticket).setInvals p l).ev 2 8).invRetire p n)

/-- An open takes the index at the head of the free list and its next generation; a revoke takes a ticket, drains, flushes and
frees the index (R145, R146, R151, R152, R153, R154, R155, R156). Where the model chose behind these rules: log entries 1,
27, 29 (notes/assumptions). -/
def Obligations.WindowCommands : Prop :=
  -- WIN_OPEN
  (∀ (s : State) (fn : Fid),
        (s.dev.halted = false ∧ s.dev.flag F.WIN_FN_RESULT_BUSY fn = false) →
        exec (.winOpen fn) s = .next (s.on (Dev.winResult { s.dev with win.busy := Tbl.put fn ((s.dev.reg R.WIN_FN_ARG0 fn).toNat, (s.dev.reg R.WIN_FN_ARG1 fn).toNat, (s.dev.reg R.WIN_FN_ARG2 fn).toNat) s.dev.win.busy } fn 1 0 0))) ∧
  -- WIN_OPEN (busy)
  (∀ (s : State) (fn : Fid) (handle : BitVec 32),
        (s.dev.halted = false ∧ s.dev.flag F.WIN_FN_RESULT_BUSY fn = true) →
        exec (.winOpen fn) s = .next (s.on (s.dev.winBusy fn)) ∧ exec (.winRevoke fn handle) s = .next (s.on (s.dev.winBusy fn))) ∧
  -- WIN_OPEN_DONE
  (∀ (s : State) (fn : Fid) (base a1 a2 idx : Nat) (d : Dev),
        (s.dev.halted = false ∧ Tbl.find s.dev.win.busy fn = some (base, a1, a2) ∧ Tbl.get s.dev.win.revokeOnOpen false fn = false) →
        s.dev.openCheck fn base (a1 % 2 ^ 48) a2 = 0 →
        Dev.takeIndex { s.dev with win.busy := Tbl.del fn s.dev.win.busy, win.revokeOnOpen := Tbl.del fn s.dev.win.revokeOnOpen } = (d, idx) →
        exec (.winOpenDone fn) s = .next (s.on (((d.setWin idx
            { state := .opened, gen := (d.win_ idx).gen % 4095 + 1, base := base, len := a1 % 2 ^ 48 + 1, phys := bitsOf a2 23 1 == 1,
              asid := bitsOf a2 0 16, owner := fn, rights := bitsOf a2 16 5, peerMode := bitsOf a2 21 2, peer := bitsOf a2 24 28 }).winResult fn 0 0
            (idx * 4096 + ((d.win_ idx).gen % 4095 + 1))).ev 3 0 none (some fn)))) ∧
  -- WIN_OPEN_DONE (fails)
  (∀ (s : State) (fn : Fid) (base a1 a2 : Nat),
        (s.dev.halted = false ∧ Tbl.find s.dev.win.busy fn = some (base, a1, a2)) →
        s.dev.openCheck fn base (a1 % 2 ^ 48) a2 ≠ 0 →
        exec (.winOpenDone fn) s = .next (s.on (Dev.winResult { s.dev with win.busy := Tbl.del fn s.dev.win.busy, win.revokeOnOpen := Tbl.del fn s.dev.win.revokeOnOpen }
            fn 0 (s.dev.openCheck fn base (a1 % 2 ^ 48) a2) 0))) ∧
  -- WIN_REVOKE
  (∀ (s : State) (fn : Fid) (handle : BitVec 32),
        (s.dev.halted = false ∧ s.dev.flag F.WIN_FN_RESULT_BUSY fn = false ∧ s.dev.winLive handle.toNat = 0 ∧ (s.dev.winOf handle.toNat).owner = fn.val) →
        exec (.winRevoke fn handle) s = .next (s.on ((s.dev.revokeIdx (handleIdx handle.toNat)).1.winResult fn 0 0 (s.dev.revokeIdx (handleIdx handle.toNat)).2))) ∧
  -- revoke idx
  (∀ (d : Dev) (i : Nat),
        ((d.revokeIdx i).1.win_ i).state = .revoking ∧
          (d.revokeIdx i).2 = (d.rd F.WIN_FN_REVOKE_ISSUED (d.win_ i).owner + 1) % 2 ^ 32) ∧
  -- WIN_REVOKE (dead)
  (∀ (s : State) (fn : Fid) (handle : BitVec 32),
        (s.dev.halted = false ∧ s.dev.flag F.WIN_FN_RESULT_BUSY fn = false ∧ s.dev.winLive handle.toNat ≠ 0) →
        exec (.winRevoke fn handle) s = .next (s.on (s.dev.winResult fn 0 (s.dev.winLive handle.toNat) 0))) ∧
  -- WIN_REVOKE (peer)
  (∀ (s : State) (fn : Fid) (handle : BitVec 32),
        (s.dev.halted = false ∧ s.dev.flag F.WIN_FN_RESULT_BUSY fn = false ∧ s.dev.winLive handle.toNat = 0 ∧ (s.dev.winOf handle.toNat).owner ≠ fn.val) →
        exec (.winRevoke fn handle) s = .next (s.on (s.dev.winResult fn 0 Status.WIN_PEER 0))) ∧
  -- WIN_DRAIN_LIMIT
  (∀ (s : State) (fn : Fid) (ticket : BitVec 32) (r : Revoke),
        (s.dev.halted = false ∧ (s.dev.revokesOf fn).find? (fun r => r.ticket == ticket.toNat) = some r ∧ r.done = false ∧ r.cancelled = false) →
        exec (.winDrainLimit fn ticket) s = .next (s.on (Dev.rmaGo ((((s.dev.advanceTo (r.start + r.limit)).uses r.idx).foldl (fun d u => d.cancelUse r.idx u)
            (s.dev.advanceTo (r.start + r.limit))).updRevoke fn ticket.toNat (fun r => { r with cancelled := true }))))) ∧
  -- WIN_REVOKE_FLUSH
  (∀ (s : State) (fn : Fid) (ticket : BitVec 32) (r : Revoke),
        (s.dev.halted = false ∧ (s.dev.revokesOf fn).find? (fun r => r.ticket == ticket.toNat) = some r ∧ r.flushed = false ∧ r.flush = none) →
        ((s.dev.uses r.idx).isEmpty = true ∧ s.dev.flushAddr fn = none) →
        exec (.winRevokeFlush fn ticket) s = .next (s.on (s.dev.updRevoke fn ticket.toNat (fun r => { r with flushed := true })))) ∧
  -- WIN_REVOKE_FLUSH (read)
  (∀ (s : State) (fn : Fid) (ticket : BitVec 32) (r : Revoke) (a t : Nat) (d : Dev),
        (s.dev.halted = false ∧ (s.dev.revokesOf fn).find? (fun r => r.ticket == ticket.toNat) = some r ∧ r.flushed = false ∧ r.flush = none) →
        ((s.dev.uses r.idx).isEmpty = true ∧ s.dev.flushAddr fn = some a ∧ s.dev.hostRead fn a 0 (.flushRevoke fn ticket.toNat) = (d, some t)) →
        exec (.winRevokeFlush fn ticket) s = .next (s.on (d.updRevoke fn ticket.toNat (fun r => { r with flush := some t })))) ∧
  -- WIN_REVOKE_FREE
  (∀ (s : State) (fn : Fid) (ticket : BitVec 32) (cpl : Cpl) (r : Revoke) (d : Dev),
        (s.dev.halted = false ∧ (s.dev.revokesOf fn).find? (fun r => r.ticket == ticket.toNat) = some r ∧ r.done = false ∧ r.flush = none ∧ r.flushed = true) →
        d = (Dev.updRevoke { (s.dev.setWin r.idx { gen := (s.dev.win_ r.idx).gen }) with
            win.freed := (s.dev.setWin r.idx { gen := (s.dev.win_ r.idx).gen }).win.freed ++ [r.idx] } fn ticket.toNat (fun r => { r with done := true, flush := none, flushed := true })) →
        exec (.winRevokeFree fn ticket cpl) s = .next (s.on (d.revokeRetire fn (d.revokesOf fn).length))) ∧
  -- revoke retire
  (∀ (d : Dev) (f n : Nat) (r : Revoke) (l : List Revoke),
        (d.revokesOf f = r :: l ∧ r.done = true) →
        d.revokeRetire f (n + 1) = ((d.wr F.WIN_FN_REVOKE_DONE f r.ticket).setRevokes f l).revokeRetire f n)

/-- A first head cell that passes its checks is placed, read, applied, ordered or answered; one that fails a check is answered
at once (R158, R172, R174, R175, R186, R190, R192, R195, R204, R188). Where the model chose behind these rules: log entries
6, 23 (notes/assumptions). -/
def Obligations.RemoteRequests : Prop :=
  -- RX_PUT
  (∀ (s : State) (c : Cell) (e : Dev),
        (s.dev.halted = false ∧ s.dev.isHead c 1 = true ∧ nonIdem c.op = false) →
        s.dev.admitsHead c →
        (s.dev.joined c).rxPasses c rRW e →
        exec (.rxPut c) s = .next (s.on (e.rxPlace c.key (.win c.rwin c.roff c.len)).rmaGo)) ∧
  -- RX_PUT (window)
  (∀ (s : State) (c : Cell) (st : Nat),
        (s.dev.halted = false ∧ s.dev.isHead c 1 = true ∧ nonIdem c.op = false) →
        s.dev.admitsHead c →
        (s.dev.joined c).winCheck c.rwin (remotePeer c.srcDev c.srcFn) rRW (if c.len = 0 then 0 else c.roff) c.len = st →
        st ≠ 0 →
        exec (.rxPut c) s = .next (s.on ((((s.dev.joined c).winLook c.rwin).ev 3 4).nackErr c.key st).rmaGo)) ∧
  -- RX_PUT (no room)
  (∀ (s : State) (c : Cell),
        (s.dev.halted = false ∧ s.dev.isHead c 1 = true ∧ c.op = 1) →
        ((s.dev.seen c).rxOf c.key = none ∧ (s.dev.seen c).rxRoom c.dstFn = false) →
        exec (.rxPut c) s = .next (s.on ((s.dev.seen c).sendRsp c c.tstamp (rspPay 2 Status.RX_BUSY false false c.cmark c.msgId 0)).rmaGo)) ∧
  -- RX_PUT (function off)
  (∀ (s : State) (c : Cell),
        (s.dev.halted = false ∧ s.dev.isHead c 1 = true ∧ c.op = 1) →
        ((s.dev.seen c).rxOf c.key = none ∧ (s.dev.seen c).rxRoom c.dstFn = true ∧ (s.dev.joined c).fnOn c.dstFn = false) →
        exec (.rxPut c) s = .next (s.on (((s.dev.joined c).refused c).rxClose c.key).rmaGo)) ∧
  -- RX_GET
  (∀ (s : State) (c : Cell) (e e1 : Dev) (n : Nat),
        (s.dev.halted = false ∧ s.dev.isHead c 2 = true ∧ nonIdem c.op = false) →
        s.dev.admitsHead c →
        (s.dev.joined c).rxPasses c rRR e →
        (Dev.updRx { e with nextTag := e.nextTag + 1, rma.gets := Tbl.put e.nextTag { cell := c, win := c.rwin } e.rma.gets } c.key
            (fun x => { x with place := .drop })).winReadAll (.getSrc e.nextTag) c.rwin c.roff c.len = (e1, n, 0) →
        n ≠ 0 →
        exec (.rxGet c) s = .next (s.on (Dev.rmaGo { e1 with rma.gets := Tbl.upd e.nextTag (fun j => { j with reads := n }) e1.rma.gets }))) ∧
  -- RX_AMO
  (∀ (s : State) (c : Cell) (e e1 : Dev),
        (s.dev.halted = false ∧ nonIdem c.op = true ∧ amoFnOk c.amoFn = true ∧ s.dev.isHead c 6 = true) →
        s.dev.admitsHead c →
        ((s.dev.joined c).cairnStep c = (e, true) ∧ e.rxPasses c rRA e1) →
        (e1.winVa c.rwin c.roff % amoSize (c.amoFn % 16) != 0) = false →
        exec (.rxAmo c) s = .next (s.on (Dev.rmaGo (Dev.amoAddr
            ((Dev.updRx { e1 with nextTag := e1.nextTag + 1, rma.amos := Tbl.put e1.nextTag { cell := c, win := c.rwin } e1.rma.amos } c.key
              (fun x => { x with place := .drop })).winAddr c.rwin c.roff (amoSize (c.amoFn % 16)) .atomic (.accR (.amo e1.nextTag) 0 (amoSize (c.amoFn % 16)))).1
            e1.nextTag
            ((Dev.updRx { e1 with nextTag := e1.nextTag + 1, rma.amos := Tbl.put e1.nextTag { cell := c, win := c.rwin } e1.rma.amos } c.key
              (fun x => { x with place := .drop })).winAddr c.rwin c.roff (amoSize (c.amoFn % 16)) .atomic (.accR (.amo e1.nextTag) 0 (amoSize (c.amoFn % 16)))).2)))) ∧
  -- RX_AMO_F
  (∀ (s : State) (c : Cell) (e e1 : Dev),
        (s.dev.halted = false ∧ nonIdem c.op = true ∧ amoFnOk c.amoFn = true ∧ s.dev.isHead c 7 = true) →
        s.dev.admitsHead c →
        ((s.dev.joined c).cairnStep c = (e, true) ∧ e.rxPasses c rRA e1) →
        (e1.winVa c.rwin c.roff % amoSize (c.amoFn % 16) != 0) = false →
        exec (.rxAmoF c) s = .next (s.on (Dev.rmaGo (Dev.amoAddr
            ((Dev.updRx { e1 with nextTag := e1.nextTag + 1, rma.amos := Tbl.put e1.nextTag { cell := c, win := c.rwin } e1.rma.amos } c.key
              (fun x => { x with place := .drop })).winAddr c.rwin c.roff (amoSize (c.amoFn % 16)) .atomic (.accR (.amo e1.nextTag) 0 (amoSize (c.amoFn % 16)))).1
            e1.nextTag
            ((Dev.updRx { e1 with nextTag := e1.nextTag + 1, rma.amos := Tbl.put e1.nextTag { cell := c, win := c.rwin } e1.rma.amos } c.key
              (fun x => { x with place := .drop })).winAddr c.rwin c.roff (amoSize (c.amoFn % 16)) .atomic (.accR (.amo e1.nextTag) 0 (amoSize (c.amoFn % 16)))).2)))) ∧
  -- RX_AMO (unaligned)
  (∀ (s : State) (c : Cell) (e e1 : Dev),
        (s.dev.halted = false ∧ nonIdem c.op = true ∧ amoFnOk c.amoFn = true ∧ s.dev.isHead c 6 = true) →
        s.dev.admitsHead c →
        ((s.dev.joined c).cairnStep c = (e, true) ∧ e.rxPasses c rRA e1) →
        (e1.winVa c.rwin c.roff % amoSize (c.amoFn % 16) != 0) = true →
        exec (.rxAmo c) s = .next (s.on (e1.nackErr c.key Status.ATOMIC_ALIGN).rmaGo)) ∧
  -- cairn step
  (∀ (d : Dev) (c : Cell),
        Tbl.find d.rma.cairn c.key = none →
        d.cairnDie < 262144 →
        d.cairnStep c = ({ d with rma.cairn := Tbl.put c.key { msgId := c.msgId, born := d.ns, life := max 1000 (d.rd F.RMA_CAIRN_CFG_LIFE_US) } d.rma.cairn }, true)) ∧
  -- RX_SEND
  (∀ (s : State) (c : Cell) (e : Dev),
        (s.dev.halted = false ∧ nonIdem c.op = true ∧ s.dev.isHead c 3 = true ∧ ¬ 16384 < c.len ∧ c.op = 3) →
        s.dev.admitsHead c →
        ((s.dev.joined c).cairnStep c = (e, true) ∧ e.flag F.MTC_FN_CFG_EN c.dstFn = true ∧ c.mseq / 2 ^ 30 = 0) →
        exec (.rxSend c) s = .next (s.on (e.orderStep c).rmaGo)) ∧
  -- RX_SEND_RDV
  (∀ (s : State) (c : Cell) (e : Dev),
        (s.dev.halted = false ∧ nonIdem c.op = true ∧ s.dev.isHead c 4 = true ∧ c.last = true ∧ c.op = 4) →
        s.dev.admitsHead c →
        ((s.dev.joined c).cairnStep c = (e, true) ∧ e.flag F.MTC_FN_CFG_EN c.dstFn = true ∧ c.mseq / 2 ^ 30 = 0) →
        exec (.rxSendRdv c) s = .next (s.on (e.orderStep c).rmaGo)) ∧
  -- RX_UD
  (∀ (s : State) (c : Cell),
        (s.dev.halted = false ∧ s.dev.isHead c 5 = true ∧ nonIdem c.op = false) →
        s.dev.admitsHead c →
        ((s.dev.joined c).rd F.RMA_FN_UD_RING_WIN c.dstFn ≠ 0 ∧ c.len + 64 ≤ 2 ^ (s.dev.joined c).rd F.RMA_FN_UD_RING_LOG2_SIZE c.dstFn) →
        exec (.rxUd c) s = .next (s.on ((s.dev.joined c).rxProgress c.key).rmaGo)) ∧
  -- RX_UD (dropped)
  (∀ (s : State) (c : Cell),
        (s.dev.halted = false ∧ s.dev.isHead c 5 = true ∧ nonIdem c.op = false) →
        s.dev.admitsHead c →
        (s.dev.joined c).rd F.RMA_FN_UD_RING_WIN c.dstFn = 0 →
        exec (.rxUd c) s = .next (s.on (((s.dev.joined c).ev 4 19 none (some c.dstFn)).rxClose c.key).rmaGo)) ∧
  -- RX_FLUSH
  (∀ (s : State) (c : Cell),
        (s.dev.halted = false ∧ s.dev.isHead c 8 = true ∧ nonIdem c.op = false) →
        s.dev.admitsHead c →
        exec (.rxFlush c) s = .next (s.on (((s.dev.joined c).updRx c.key (fun x => { x with resp := some (1, 0, 0) })).flushRx c.key 0).rmaGo)) ∧
  -- flush rx
  (∀ (d : Dev) (key r : Nat) (x : Rx),
        d.rxOf key = some x →
        (d.flushAddr x.fn = none → d.flushRx key r = d.answer key 1 0 r true) ∧
          (∀ a e t, d.flushAddr x.fn = some a → d.hostRead x.fn a 0 (.flushReq key) = (e, some t) →
            d.flushRx key r = e.updRx key (fun x => { x with flushing := true }))) ∧
  -- RX_RELEASE
  (∀ (s : State) (c : Cell) (x : Cairn) (d : Dev),
        (s.dev.halted = false ∧ s.dev.isHead c 9 = true) →
        ((s.dev.seen c).cairnLook c.key = (d, some x) ∧ x.msgId = c.msgId) →
        exec (.rxRelease c) s = .next (s.on (Dev.rmaGo { d with rma.cairn := Tbl.del c.key d.rma.cairn }))) ∧
  -- cairn look
  (∀ (d : Dev) (key : Nat) (e : Cairn),
        Tbl.find d.rma.cairn key = some e →
        d.cairnLook key = (if e.spilled then d.depWake.ev 11 0 else d, some e)) ∧
  -- RX_RELEASE (none)
  (∀ (s : State) (c : Cell),
        (s.dev.halted = false ∧ s.dev.isHead c 9 = true ∧ Tbl.find (s.dev.seen c).rma.cairn c.key = none) →
        exec (.rxRelease c) s = .next (s.on ((s.dev.seen c).ev 4 12 none (some c.dstFn)).rmaGo)) ∧
  -- RX_OP_RESERVED
  (∀ (s : State) (c : Cell),
        (s.dev.halted = false ∧ (c.cls == 0 && c.head && c.dstDev == s.dev.myDev) = true) →
        (c.op = 0 || 9 < c.op || ((c.op = 6 || c.op = 7) && !amoFnOk c.amoFn)) = true →
        exec (.rxOpReserved c) s = .next (s.on ((s.dev.seen c).ev 4 13 none (some c.dstFn)).rmaGo)) ∧
  -- rx second copy
  (∀ (d : Dev) (c : Cell) (x : Rx) (k : Dev → Dev),
        ((d.seen c).rxOf c.key = some x ∧ x.head.isSome = true ∧ (d.seen c).fnOn c.dstFn = true) →
        ((d.seen c).headAgain c).2 = false → d.rxHead c k = ((d.seen c).headAgain c).1) ∧
  -- rx window
  (∀ (d : Dev) (c : Cell) (right : Nat) (k : Dev → Dev) (e : Dev) (st : Nat),
        d.winUse c.rwin (remotePeer c.srcDev c.srcFn) right (if c.len = 0 then 0 else c.roff) c.len = (e, st) →
        (st ≠ 0 → d.rxWindow c right k = e.nackErr c.key st) ∧
          (∀ x, st = 0 → e.arrRoom c.key c = some x → d.rxWindow c right k = k x) ∧
          (st = 0 → e.arrRoom c.key c = none → d.rxWindow c right k = (e.ev 0 12 (e.slotClusters (e.rd F.RMA_FN_ARR_SLOT c.dstFn)).head? (some c.dstFn)).nackBusy c.key Status.RX_BUSY))

/-- Data cells are staged or placed once, replies and atomics follow their reads, the response goes out once, and contexts and
Cairn entries end (R166, R172, R173, R176, R177, R178, R187, R190, R192, R193). Where the model chose behind these rules:
log entries 6, 23 (notes/assumptions). -/
def Obligations.TargetProgress : Prop :=
  -- RX_DATA_CELL (placed)
  (∀ (s : State) (c : Cell) (d e : Dev) (x y : Rx) (w o l : Nat),
        (s.dev.halted = false ∧ (c.cls == 0 && !c.head && c.dstDev == s.dev.myDev) = true) →
        ((s.dev.taken c).rxJoin c = some d ∧ d.rxOf c.key = some x ∧ x.place = .win w o l) →
        (x.bitmap.testBit c.idx = false ∧ x.head.isSome = true ∧ c.idx < x.count.getD 0) →
        ((d.rxCount c.key c).placeCell c.key c.idx c.pay.toNat = e ∧ e.rxOf c.key = some y ∧ (e.rxWaits c.key).any (fun id => d.nextTag ≤ id) = false) →
        exec (.rxDataCell c) s = .next (s.on (e.rxProgress c.key).rmaGo)) ∧
  -- RX_DATA_CELL (staged)
  (∀ (s : State) (c : Cell) (d d1 : Dev) (x : Rx),
        (s.dev.halted = false ∧ (c.cls == 0 && !c.head && c.dstDev == s.dev.myDev) = true) →
        ((s.dev.taken c).rxJoin c = some d ∧ d.rxOf c.key = some x ∧ x.place = .none ∧ d.rxStage c.key x = (d1, true)) →
        (x.bitmap.testBit c.idx = false ∧ x.head = none) →
        exec (.rxDataCell c) s = .next (s.on (((d1.updRx c.key (fun x => { x with staged := Tbl.put c.idx c.pay.toNat x.staged })).rxCount c.key c).rxProgress c.key).rmaGo)) ∧
  -- RX_DATA_CELL (twice)
  (∀ (s : State) (c : Cell) (d : Dev) (x : Rx),
        (s.dev.halted = false ∧ (c.cls == 0 && !c.head && c.dstDev == s.dev.myDev) = true) →
        ((s.dev.taken c).rxJoin c = some d ∧ d.rxOf c.key = some x ∧ x.bitmap.testBit c.idx = true) →
        exec (.rxDataCell c) s = .next (s.on ((d.ev 4 7 none (some x.fn)).updRx c.key (fun x => { x with cmark := max x.cmark c.cmark })).rmaGo)) ∧
  -- place cell
  (∀ (d d1 : Dev) (key i data w o l k : Nat) (x : Rx),
        (d.rxOf key = some x ∧ x.place = .win w o l ∧ 64 * i < l) →
        d.placeAt (.rx key) x.fn w (o + 64 * i) (min 64 (l - 64 * i)) (data % 2 ^ (8 * min 64 (l - 64 * i))) = (d1, k, 0) →
        d.placeCell key i data = d1.updRx key (fun x => { x with writes := x.writes + k })) ∧
  -- RMA_RESPONSE_SEND
  (∀ (s : State) (src : DevId) (slot : Sid) (gen : BitVec 4) (x : Rx) (c : Cell) (k st r : Nat),
        (s.dev.halted = false ∧ s.dev.rxOf (keyOf src slot gen) = some x ∧ x.head = some c ∧ x.resp = some (k, st, r) ∧ x.flushing = false) →
        (x.recv = none ∧ c.dur = false) →
        exec (.rmaResponseSend src slot gen) s = .next (s.on (s.dev.answer (keyOf src slot gen) k st r false).rmaGo)) ∧
  -- RMA_RESPONSE_SEND (durable)
  (∀ (s : State) (src : DevId) (slot : Sid) (gen : BitVec 4) (x : Rx) (c : Cell) (st r w o l : Nat),
        (s.dev.halted = false ∧ s.dev.rxOf (keyOf src slot gen) = some x ∧ x.head = some c ∧ x.resp = some (1, st, r) ∧ x.flushing = false) →
        (x.recv = none ∧ c.dur = true ∧ x.place = .win w o l) →
        exec (.rmaResponseSend src slot gen) s = .next (s.on (s.dev.flushRx (keyOf src slot gen) r).rmaGo)) ∧
  -- answer
  (∀ (d : Dev) (key kind st r : Nat) (durable : Bool) (x : Rx) (c : Cell),
        (d.rxOf key = some x ∧ x.head = some c ∧ kind ≠ 1) →
        d.answer key kind st r durable = ((d.sendRsp c (x.stamp c) (rspPay kind st durable false x.cmark c.msgId r)).cairnDone c kind st r durable).rxClose key) ∧
  -- DUR_FLUSH_DONE
  (∀ (s : State) (src : DevId) (slot : Sid) (gen : BitVec 4) (cpl : Cpl) (tag k st r : Nat) (d : Dev) (h : HostRd) (x : Rx),
        (s.dev.halted = false ∧ s.dev.findRead (.flushReq (keyOf src slot gen)) = some tag ∧ s.dev.takeRead tag 0 cpl = (d, some h)) →
        (d.rxOf (keyOf src slot gen) = some x ∧ x.resp = some (k, st, r)) →
        exec (.durFlushDone src slot gen cpl) s = .next (s.on (if cpl = .err then d.answer (keyOf src slot gen) 3 Status.HOST_ERROR 0 false
            else d.answer (keyOf src slot gen) 1 0 r true).rmaGo)) ∧
  -- GET_SOURCE_READ_DONE
  (∀ (s : State) (job off n tag v : Nat) (d : Dev) (h : HostRd) (j : GetJob),
        (s.dev.halted = false ∧ s.dev.findOwn (.getSrc job) off = some (tag, n) ∧ s.dev.takeRead tag n (.ok v false) = (d, some h)) →
        (Tbl.find d.invPoll.rma.gets job = some j ∧ j.reads = 1) →
        exec (.getSourceReadDone job off (.ok v false)) s = .next (s.on (Dev.getReply { d.invPoll with
            rma.gets := Tbl.put job { j with reads := 0, data := j.data + v % 2 ^ (8 * n) * 2 ^ (8 * off) } d.invPoll.rma.gets } job).rmaGo)) ∧
  -- get reply
  (∀ (d : Dev) (job : Nat) (j : GetJob),
        Tbl.find d.rma.gets job = some j →
        d.getReply job = (Dev.arrived { d with sch.rsp := d.sch.rsp ++ (List.range ((j.cell.len + 63) / 64)).map (fun i => d.rspCell j.cell i false (i + 1 = (j.cell.len + 63) / 64) j.cell.tstamp (bitsOf j.data (512 * i) 512)) } j.cell.key j.cell).rxClose j.cell.key) ∧
  -- AMO_READ_DONE
  (∀ (s : State) (job n tag v fn a : Nat) (d e : Dev) (h : HostRd) (j : AmoJob),
        (s.dev.halted = false ∧ s.dev.findOwn (.amo job) 0 = some (tag, n) ∧ s.dev.takeRead tag n (.ok v false) = (d, some h)) →
        (Tbl.find d.invPoll.rma.amos job = some j ∧ j.addr = some (fn, a) ∧ j.cell.amoFn / 16 ≠ 7 ∧ e = { d.invPoll with rma.amos := Tbl.del job d.invPoll.rma.amos }) →
        exec (.amoReadDone job (.ok v false)) s = .next (s.on (Dev.rmaGo (Dev.amoRun ((((e.hostWrite fn a (amoBits (j.cell.amoFn % 16) / 8)
            (amoNew (j.cell.amoFn / 16) (j.cell.amoFn % 16) (v % 2 ^ amoBits (j.cell.amoFn % 16)) j.cell.a j.cell.b)).fnCount j.cell.dstFn 7 (amoBits (j.cell.amoFn % 16) / 8)).ready_ j.cell.key 1 0
            (if j.cell.op = 7 then v % 2 ^ amoBits (j.cell.amoFn % 16) else 0))))))) ∧
  -- RX_IDLE_CLOSE
  (∀ (s : State) (src : DevId) (slot : Sid) (gen : BitVec 4) (x : Rx),
        (s.dev.halted = false ∧ s.dev.rxOf (keyOf src slot gen) = some x ∧ x.held = false ∧ x.resp = none ∧ x.head = none) →
        exec (.rxIdleClose src slot gen) s = .next (s.on (((((s.dev.advanceTo (x.last + usPs (max 100 (s.dev.rd F.RMA_CFG_RX_IDLE_US)))).ev 4 9 none (some x.fn)).rxEnd
            (keyOf src slot gen)).udRun x.fn).rmaGo))) ∧
  -- CAIRN_EXPIRE
  (∀ (s : State) (src : DevId) (slot : Sid) (gen : BitVec 4) (x : Cairn),
        (s.dev.halted = false ∧ Tbl.find s.dev.rma.cairn (keyOf src slot gen) = some x) →
        exec (.cairnExpire src slot gen) s = .next (s.on (Dev.rmaGo { s.dev.advanceToNs (x.born + x.life * 1000) with
            rma.cairn := Tbl.del (keyOf src slot gen) s.dev.rma.cairn })))

/-- A reply is placed once and an answer ends its segment; a segment that is not answered is sent again or fails, and its slot
is quiet before it is free (R161, R168, R171, R178, R179, R180, R181, R183, R191, R341, R342). Where the model chose behind
these rules: log entries 3, 26, 27 (notes/assumptions). -/
def Obligations.SenderProgress : Prop :=
  -- RX_GET_REPLY
  (∀ (s : State) (c : Cell) (x : Slot) (e e1 : Dev) (k : Nat),
        (s.dev.halted = false ∧ (c.cls == 1 && !c.head && c.dstDev == s.dev.myDev) = true) →
        ((s.dev.taken c).slotOf c.slot = some x ∧ x.op = 2 ∧ x.outstanding = true ∧ (s.dev.taken c).slotGen c.slot = c.gen ∧ x.fail = none) →
        (x.bitmap.testBit c.idx = false ∧ c.idx < (x.len + 63) / 64 ∧ x.got + 1 ≠ (x.len + 63) / 64) →
        e = (s.dev.taken c).putSlot c.slot { x with bitmap := x.bitmap ||| 2 ^ c.idx, got := x.got + 1, cmark := max x.cmark c.cmark } →
        e.placeAt (.reply c.slot) x.fn x.lwin (x.loff + 64 * c.idx) (min 64 (x.len - 64 * c.idx)) (c.pay.toNat % 2 ^ (8 * min 64 (x.len - 64 * c.idx))) = (e1, k, 0) →
        exec (.rxGetReply c) s = .next (s.on ((e1.updSlot c.slot (fun x => { x with writes := x.writes + k })).replyGo c.slot).rmaGo)) ∧
  -- RX_GET_REPLY (twice)
  (∀ (s : State) (c : Cell) (x : Slot),
        (s.dev.halted = false ∧ (c.cls == 1 && !c.head && c.dstDev == s.dev.myDev) = true) →
        ((s.dev.taken c).slotOf c.slot = some x ∧ x.op = 2 ∧ x.outstanding = true ∧ (s.dev.taken c).slotGen c.slot = c.gen ∧ x.fail = none) →
        x.bitmap.testBit c.idx = true →
        exec (.rxGetReply c) s = .next (s.on ((s.dev.taken c).ev 4 7 none (some x.fn)).rmaGo)) ∧
  -- RMA_RESPONSE (ack)
  (∀ (s : State) (c : Cell) (x : Slot),
        (s.dev.halted = false ∧ (c.cls == 1 && c.head && c.dstDev == s.dev.myDev) = true ∧ c.p 0 8 = 1 ∧ c.p 24 1 = 1) →
        ((s.dev.taken c).slotOf c.slot = some x ∧ x.outstanding = true ∧ (s.dev.taken c).slotGen c.slot = c.gen ∧ x.msgId = c.p 32 32 ∧ x.op = 8 ∧ x.fail = none) →
        (((s.dev.taken c).ev 4 2 none (some x.fn)).msgOf x.msg) = none →
        exec (.rmaResponse c) s = .next (s.on (((s.dev.taken c).ev 4 2 none (some x.fn)).segEnd c.slot x 0 true (c.p 128 64)).rmaGo)) ∧
  -- RMA_RESPONSE (busy)
  (∀ (s : State) (c : Cell) (x : Slot),
        (s.dev.halted = false ∧ (c.cls == 1 && c.head && c.dstDev == s.dev.myDev) = true ∧ c.p 0 8 = 2 ∧ c.p 24 1 = 1) →
        ((s.dev.taken c).slotOf c.slot = some x ∧ x.outstanding = true ∧ (s.dev.taken c).slotGen c.slot = c.gen ∧ x.msgId = c.p 32 32 ∧ x.op ≠ 5 ∧ x.fail = none) →
        exec (.rmaResponse c) s = .next (s.on ((((s.dev.taken c).ev 4 3 none (some x.fn)).updSlot c.slot (fun x => { x with busy := if x.answers c.tstamp then some (c.p 8 16) else x.busy })).fnCount x.fn 8).rmaGo)) ∧
  -- RMA_RESPONSE (stale)
  (∀ (s : State) (c : Cell) (x : Slot),
        (s.dev.halted = false ∧ (c.cls == 1 && c.head && c.dstDev == s.dev.myDev) = true) →
        ((s.dev.taken c).slotOf c.slot = some x ∧ (s.dev.taken c).slotGen c.slot ≠ c.gen) →
        exec (.rmaResponse c) s = .next (s.on ((s.dev.taken c).ev 4 5).rmaGo)) ∧
  -- RMA_RETRY_TIMEOUT
  (∀ (s : State) (slot : Sid) (x : Slot) (t : Nat),
        (s.dev.halted = false ∧ s.dev.slotOf slot.toNat = some x ∧ x.txAt = some t ∧ x.op ≠ 5 ∧ x.st = .out) →
        exec (.rmaRetryTimeout slot) s = .next (s.on ((s.dev.advanceTo (t + nsPs (retryInterval x.base x.attempt))).attemptOver slot.toNat x
            (x.busy.getD Status.RETRY_EXHAUSTED)).rmaGo)) ∧
  -- attempt over
  (∀ (d : Dev) (i st : Nat) (x : Slot),
        (x.attempt < d.retryLimit → d.attemptOver i x st = d.retransmit i x) ∧
          (d.retryLimit ≤ x.attempt → d.attemptOver i x st = d.updSlot i (fun s => { s with fail := some st }))) ∧
  -- SLOT_QUIET_EXPIRE
  (∀ (s : State) (slot : Sid) (x : Slot),
        (s.dev.halted = false ∧ s.dev.slotOf slot.toNat = some x ∧ x.st = .quiet) →
        exec (.slotQuietExpire slot) s = .next (s.on ((s.dev.advanceTo (s.dev.quietEnd x)).freeSlot slot.toNat x).rmaGo)) ∧
  -- free slot
  (∀ (d : Dev) (i : Nat) (x : Slot),
        Tbl.find (d.freeSlot i x).rma.slots i = none ∧ (d.freeSlot i x).slotGen i = (d.slotGen i + 1) % 16) ∧
  -- GET_RESERVE
  (∀ (s : State) (slot : Sid) (x : Slot),
        (s.dev.halted = false ∧ s.dev.slotOf slot.toNat = some x ∧ x.st = .hold ∧ (s.dev.msgOf x.msg).bind Msg.queue = none) →
        exec (.getReserve slot) s = .next (s.on (s.dev.segStart slot.toNat).rmaGo)) ∧
  -- MSG_READ_DONE
  (∀ (s : State) (slot : Sid) (off n tag v : Nat) (d : Dev) (h : HostRd),
        (s.dev.halted = false ∧ s.dev.findOwn (.src slot.toNat) off = some (tag, n) ∧ s.dev.takeRead tag n (.ok v false) = (d, some h)) →
        ((d.invPoll.slotOf slot.toNat).bind (fun x => d.invPoll.msgOf x.msg)).bind Msg.queue = none →
        exec (.msgReadDone slot off (.ok v false)) s = .next (s.on ((d.invPoll.ev 9 4).srcRead slot.toNat off n (some v)).rmaGo)) ∧
  -- src read
  (∀ (d : Dev) (i off n v : Nat) (x : Slot),
        (d.slotOf i = some x ∧ x.reads ≤ 1 ∧ x.fail = none) →
        d.srcRead i off n (some v) = (d.putSlot i { x with reads := x.reads - 1, data := x.data + v % 2 ^ (8 * n) * 2 ^ (8 * off) }).segHand i) ∧
  -- CC_ADMIT
  (∀ (s : State) (dev : DevId) (e : CcEnt) (i : Nat) (x : Slot),
        (s.dev.halted = false ∧ (s.dev.ccTouch dev.toNat).ccFind dev.toNat = some e ∧ (s.dev.ccTouch dev.toNat).ccMay e = true) →
        (s.dev.ccTouch dev.toNat).ccNext e = some (i, x) →
        exec (.ccAdmit dev) s = .next (s.on (((((s.dev.ccTouch dev.toNat).ccPut dev.toNat { e with waiting := e.waiting.erase i, charge := e.charge + x.charge, lastFn := x.fn }).updSlot i (fun x => { x with charged := true })).segGo i).rmaGo))) ∧
  -- CC_ENTRY_IDLE_RELEASE
  (∀ (s : State) (dev : DevId) (e : CcEnt),
        (s.dev.halted = false ∧ s.dev.ccFind dev.toNat = some e ∧ e.charge = 0 ∧ e.waiting = []) →
        exec (.ccEntryIdleRelease dev) s = .next (s.on { s.dev.advanceTo (e.lastHit + msPs (max 1 (s.dev.rd F.RMA_CC_BASE_DST_IDLE_MS))) with
            cc.ents := Tbl.del dev.toNat (s.dev.advanceTo (e.lastHit + msPs (max 1 (s.dev.rd F.RMA_CC_BASE_DST_IDLE_MS)))).cc.ents })) ∧
  -- CC_REPROBE_END
  (∀ (s : State) (dev : DevId) (e : CcEnt) (t : Nat),
        (s.dev.halted = false ∧ s.dev.ccFind dev.toNat = some e ∧ e.reprobe = some t) →
        exec (.ccReprobeEnd dev) s = .next (s.on ((s.dev.advanceToNs t).ccUpd dev.toNat (fun e => { e with reprobe := none })))) ∧
  -- cc may
  (∀ (d : Dev) (e : CcEnt),
        e.reprobe = none →
        (d.ccMay e = true ↔ e.charge * 256 < e.w))

/-- A message is taken by the posted receive with the lowest PSN or becomes unexpected; held messages and idle records are
released in their time (R221, R223, R226, R228, R235, R236, R237, R246, R248). Where the model chose behind these rules: log
entries 1, 3, 22, 24 (notes/assumptions). -/
def Obligations.MatchingTimers : Prop :=
  -- take msg
  (∀ (d : Dev) (key : Nat) (c : Cell),
        (d.rxOf key).bind Rx.head = some c →
        (∀ r, lowestPsn c.src c.mbits ((d.searchMsg c.dstFn c.src c.mbits).dom c.dstFn).posted = some r → d.takeMsg key = (d.searchMsg c.dstFn c.src c.mbits).takeMatched key c r) ∧
          (lowestPsn c.src c.mbits ((d.searchMsg c.dstFn c.src c.mbits).dom c.dstFn).posted = none → d.takeMsg key = (d.searchMsg c.dstFn c.src c.mbits).takeUnexpected key c)) ∧
  -- take matched (busy)
  (∀ (d : Dev) (key : Nat) (c : Cell) (r : Recv),
        (c.op = 3 ∧ d.flag F.MTC_FN_ARR_EV_EN c.dstFn = true ∧ d.evRoomFor (d.rd F.MTC_FN_ARR_SLOT c.dstFn) = none) →
        d.takeMatched key c r = ((d.ev 0 12 (d.slotClusters (d.rd F.MTC_FN_ARR_SLOT c.dstFn)).head? (some c.dstFn)).nackBusy key Status.RX_BUSY, false)) ∧
  -- MT_HOLD_TIMEOUT
  (∀ (s : State) (fn : Fid) (src : DevId) (slot : Sid) (gen : BitVec 4) (k : Nat) (o : Order) (x : Nat × Nat × Nat),
        s.dev.halted = false →
        s.dev.mtc.orders.find? (fun e => e.1 / 2 ^ 28 == fn.val && e.2.held.any (fun h => h.2.1 == keyOf src slot gen)) = some (k, o) →
        o.held.find? (fun h => h.2.1 == keyOf src slot gen) = some x →
        exec (.mtHoldTimeout fn src slot gen) s = .next (s.on (((((s.dev.advanceTo x.2.2).putOrder k
            { o with held := o.held.erase x, last := (s.dev.advanceTo x.2.2).ps }).updRx (keyOf src slot gen) (fun y => { y with held := false })).nackBusy
            (keyOf src slot gen) Status.RX_BUSY).rmaGo))) ∧
  -- ORDER_IDLE_RELEASE
  (∀ (s : State) (fn : Fid) (src : Endp) (o : Order),
        (s.dev.halted = false ∧ s.dev.order (orderKey fn src.toNat) = some o ∧ o.held = []) →
        exec (.orderIdleRelease fn src) s = .next (s.on (Dev.rmaGo { s.dev.advanceTo (o.last + usPs (max 1000 (s.dev.rd F.MTC_CFG_ORDER_IDLE_US))) with
            mtc.orders := Tbl.del (orderKey fn src.toNat) s.dev.mtc.orders }))) ∧
  -- SEND_STREAM_RELEASE
  (∀ (s : State) (fn : Fid) (dst : Endp) (x : Stream),
        (s.dev.halted = false ∧ Tbl.find s.dev.mtc.streams (orderKey fn dst.toNat) = some x ∧ x.open_ = []) →
        exec (.sendStreamRelease fn dst) s = .next (s.on (Dev.rmaGo { s.dev.advanceTo (x.last + usPs (max 1100 (s.dev.rd F.MTC_CFG_SEND_IDLE_US))) with
            mtc.streams := Tbl.del (orderKey fn dst.toNat) s.dev.mtc.streams }))) ∧
  -- MT_UX_COPY_DONE
  (∀ (s : State) (fn : Fid) (id rid : Nat) (u : UxMsg) (a : Active) (d : Dev),
        (s.dev.halted = false ∧ (s.dev.dom fn).ux.find? (fun u => u.id == id) = some u ∧ u.matched = some rid ∧ u.rx = none) →
        (Tbl.find s.dev.mtc.active rid = some a ∧ a.writes = 0) →
        d = s.dev.updDom fn (fun m => { m with ux := m.ux.filter (fun x => x.id != id) }) →
        exec (.mtUxCopyDone fn id) s = .next (s.on (((((d.disown (.uxCopy fn id)).freeAll u.bufs 2 id).recvDone rid a.status).mtcWake fn).rmaGo))) ∧
  -- RCQ_CONS_WRITE
  (∀ (s : State) (fn : Fid) (v : BitVec 32),
        s.dev.halted = false →
        exec (.rcqConsWrite fn v) s = .next (s.on (((s.dev.wr F.MTC_FN_RCQ_IDX_CONS fn v.toNat).rcqGo fn).mtcWake fn).rmaGo)) ∧
  -- MT_DOMAIN_DISABLE
  (∀ (s : State) (fn : Fid),
        (s.dev.flag F.MTC_FN_CFG_EN fn = true ∧ (s.dev.wr F.MTC_FN_CFG_EN fn 0).halted = false) →
        exec (.mtDomainDisable fn) s = .next (s.on ((((s.dev.wr F.MTC_FN_CFG_EN fn 0).mtcShutdown fn).mtcWake fn).rmaGo))) ∧
  -- mtc shutdown
  (∀ (d : Dev) (f : Nat),
        ∀ k, (d.mtcShutdown f).order k ≠ none → k / 2 ^ 28 ≠ f)

/-- Of the posted receives that match a message, the one with the lowest PSN takes it; none takes it exactly where none matches
(R210). -/
def Obligations.MatchChoosesTheLowestPsn : Prop :=
  -- takes
  (∀ (r : Recv) (src bits : Nat),
        (bits < 2 ^ 64 ∧ r.bits < 2 ^ 64 ∧ r.ignore < 2 ^ 64) →
        (r.takes src bits = true ↔ (∀ i, i < 64 → bits.testBit i ≠ r.bits.testBit i → r.ignore.testBit i = true) ∧ (r.any = true ∨ r.src = src))) ∧
  -- lowest (some)
  (∀ (src bits : Nat) (l : List Recv) (r : Recv),
        lowestPsn src bits l = some r →
        r ∈ l ∧ r.takes src bits = true ∧ ∀ x ∈ l, x.takes src bits = true → r.psn ≤ x.psn) ∧
  -- lowest (none)
  (∀ (src bits : Nat) (l : List Recv),
        lowestPsn src bits l = none ↔ ∀ r ∈ l, r.takes src bits = false)

/-- A phase cell of the current epoch is kept once and drives its context on, one of the epoch before is acknowledged again, and
acknowledgements release vectors (R263, R264, R266, R282, R283, R284, R285). Where the model chose behind these rules: log
entries 5, 6, 25 (notes/assumptions). -/
def Obligations.CollectivePhases : Prop :=
  -- RX_COL_UP
  (∀ (s : State) (c : Cell) (x : ColCtx) (k : Nat) (p : ColPeer) (d : Dev),
        (s.dev.halted = false ∧ s.dev.isCol c 0 = true ∧ (s.dev.taken c).cSt (c.slot % 4096) = cActive) →
        ((s.dev.taken c).ctxOf (c.slot % 4096) = x ∧ x.from_ c.srcDev = some (k + 1, p) ∧ c.gen = (s.dev.taken c).cUp (c.slot % 4096) % 16) →
        (c.idx < x.upCells ∧ Tbl.has (x.heard (k + 1) 0 ((s.dev.taken c).cUp (c.slot % 4096))).upIn (k * 4096 + c.idx) = false) →
        d = ((s.dev.taken c).putCtx (c.slot % 4096) (x.heard (k + 1) 0 ((s.dev.taken c).cUp (c.slot % 4096)))).putCtx (c.slot % 4096)
              { x.heard (k + 1) 0 ((s.dev.taken c).cUp (c.slot % 4096)) with upIn := Tbl.put (k * 4096 + c.idx) c.pay.toNat (x.heard (k + 1) 0 ((s.dev.taken c).cUp (c.slot % 4096))).upIn } →
        exec (.rxColUp c) s = .next (s.on ((if kidCount (Tbl.put (k * 4096 + c.idx) c.pay.toNat (x.heard (k + 1) 0 ((s.dev.taken c).cUp (c.slot % 4096))).upIn) k = x.upCells
            then d.colAck (c.slot % 4096) p 4 ((s.dev.taken c).cUp (c.slot % 4096)) false c.tstamp else d).colGo (c.slot % 4096)).rmaGo)) ∧
  -- RX_COL_UP (again)
  (∀ (s : State) (c : Cell) (k : Nat) (p : ColPeer),
        (s.dev.halted = false ∧ s.dev.isCol c 0 = true ∧ (s.dev.taken c).cSt (c.slot % 4096) = cActive) →
        (((s.dev.taken c).ctxOf (c.slot % 4096)).from_ c.srcDev = some (k + 1, p) ∧ (s.dev.taken c).cUp (c.slot % 4096) ≠ 0) →
        (c.gen = ((s.dev.taken c).cUp (c.slot % 4096) - 1) % 16 ∧ c.gen ≠ (s.dev.taken c).cUp (c.slot % 4096) % 16) →
        exec (.rxColUp c) s = .next (s.on (((s.dev.taken c).colAck (c.slot % 4096) p 4 ((s.dev.taken c).cUp (c.slot % 4096) - 1) false c.tstamp).ev 6 2).rmaGo)) ∧
  -- RX_COL_UP_EXP
  (∀ (s : State) (c : Cell) (x : ColCtx) (k : Nat) (p : ColPeer) (d : Dev),
        (s.dev.halted = false ∧ s.dev.isCol c 2 = true ∧ (s.dev.taken c).cSt (c.slot % 4096) = cActive) →
        ((s.dev.taken c).ctxOf (c.slot % 4096) = x ∧ x.from_ c.srcDev = some (k + 1, p) ∧ c.gen = (s.dev.taken c).cUp (c.slot % 4096) % 16 ∧ x.twoPass = true) →
        (c.idx < x.expCells ∧ Tbl.has (x.heard (k + 1) 2 ((s.dev.taken c).cUp (c.slot % 4096))).expIn (k * 4096 + c.idx) = false) →
        d = ((s.dev.taken c).putCtx (c.slot % 4096) (x.heard (k + 1) 2 ((s.dev.taken c).cUp (c.slot % 4096)))).putCtx (c.slot % 4096)
              { x.heard (k + 1) 2 ((s.dev.taken c).cUp (c.slot % 4096)) with expIn := Tbl.put (k * 4096 + c.idx) c.pay.toNat (x.heard (k + 1) 2 ((s.dev.taken c).cUp (c.slot % 4096))).expIn } →
        exec (.rxColUpExp c) s = .next (s.on ((if kidCount (Tbl.put (k * 4096 + c.idx) c.pay.toNat (x.heard (k + 1) 2 ((s.dev.taken c).cUp (c.slot % 4096))).expIn) k = x.expCells
            then d.colAck (c.slot % 4096) p 4 ((s.dev.taken c).cUp (c.slot % 4096)) true c.tstamp else d).colGo (c.slot % 4096)).rmaGo)) ∧
  -- RX_COL_DOWN
  (∀ (s : State) (c : Cell) (x : ColCtx) (p : ColPeer) (d : Dev),
        (s.dev.halted = false ∧ s.dev.isCol c 1 = true ∧ (s.dev.taken c).cSt (c.slot % 4096) = cActive) →
        ((s.dev.taken c).ctxOf (c.slot % 4096) = x ∧ x.from_ c.srcDev = some (0, p) ∧ c.gen = (s.dev.taken c).cEpoch (c.slot % 4096) % 16) →
        (c.idx < x.downCells ∧ Tbl.has (x.heard 0 1 ((s.dev.taken c).cEpoch (c.slot % 4096))).down c.idx = false) →
        d = ((s.dev.taken c).putCtx (c.slot % 4096) (x.heard 0 1 ((s.dev.taken c).cEpoch (c.slot % 4096)))).putCtx (c.slot % 4096)
              { x.heard 0 1 ((s.dev.taken c).cEpoch (c.slot % 4096)) with down := Tbl.put c.idx c.pay.toNat (x.heard 0 1 ((s.dev.taken c).cEpoch (c.slot % 4096))).down } →
        exec (.rxColDown c) s = .next (s.on ((((if (Tbl.put c.idx c.pay.toNat (x.heard 0 1 ((s.dev.taken c).cEpoch (c.slot % 4096))).down).length = x.downCells
            then d.colAck (c.slot % 4096) p 5 ((s.dev.taken c).cEpoch (c.slot % 4096)) false c.tstamp else d).colSendDown (c.slot % 4096) 1
            ((s.dev.taken c).cEpoch (c.slot % 4096)) x.downCells c.idx c.pay.toNat).colPlace (c.slot % 4096) c.idx c.pay.toNat).colGo (c.slot % 4096)).rmaGo)) ∧
  -- RX_COL_DOWN_EXP
  (∀ (s : State) (c : Cell) (x : ColCtx) (p : ColPeer) (d : Dev),
        (s.dev.halted = false ∧ s.dev.isCol c 3 = true ∧ (s.dev.taken c).cSt (c.slot % 4096) = cActive) →
        ((s.dev.taken c).ctxOf (c.slot % 4096) = x ∧ x.from_ c.srcDev = some (0, p) ∧ c.gen = (s.dev.taken c).cEpoch (c.slot % 4096) % 16 ∧ x.twoPass = true) →
        (c.idx < x.expCells ∧ Tbl.has (x.heard 0 3 ((s.dev.taken c).cEpoch (c.slot % 4096))).expAll c.idx = false) →
        d = ((s.dev.taken c).putCtx (c.slot % 4096) (x.heard 0 3 ((s.dev.taken c).cEpoch (c.slot % 4096)))).putCtx (c.slot % 4096)
              { x.heard 0 3 ((s.dev.taken c).cEpoch (c.slot % 4096)) with expAll := Tbl.put c.idx c.pay.toNat (x.heard 0 3 ((s.dev.taken c).cEpoch (c.slot % 4096))).expAll } →
        exec (.rxColDownExp c) s = .next (s.on (((if (Tbl.put c.idx c.pay.toNat (x.heard 0 3 ((s.dev.taken c).cEpoch (c.slot % 4096))).expAll).length = x.expCells
            then d.colAck (c.slot % 4096) p 5 ((s.dev.taken c).cEpoch (c.slot % 4096)) true c.tstamp else d).colSendDown (c.slot % 4096) 3
            ((s.dev.taken c).cEpoch (c.slot % 4096)) x.expCells c.idx c.pay.toNat).colGo (c.slot % 4096)).rmaGo)) ∧
  -- RX_COL_UP_ACK
  (∀ (s : State) (c : Cell) (x : ColCtx) (p : ColPeer) (v : SentVec),
        (s.dev.halted = false ∧ s.dev.isCol c 4 = true ∧ (s.dev.taken c).ctxOf (c.slot % 4096) = x ∧ x.from_ c.srcDev = some (0, p)) →
        c.p 32 1 = 0 →
        x.sent.find? (fun v => v.peer == 0 && v.kind == 0 && v.epoch % 2 ^ 32 == c.p 0 32 && v.cells.length == v.total) = some v →
        v.first + 262144 ≤ ((s.dev.taken c).putCtx (c.slot % 4096) { x with sent := x.sent.erase v }).ns →
        exec (.rxColUpAck c) s = .next (s.on ((s.dev.taken c).putCtx (c.slot % 4096) { x with sent := x.sent.erase v }).rmaGo)) ∧
  -- RX_COL_DOWN_ACK
  (∀ (s : State) (c : Cell) (x : ColCtx) (k : Nat) (p : ColPeer) (v : SentVec),
        (s.dev.halted = false ∧ s.dev.isCol c 5 = true ∧ (s.dev.taken c).ctxOf (c.slot % 4096) = x ∧ x.from_ c.srcDev = some (k + 1, p)) →
        c.p 32 1 = 0 →
        x.sent.find? (fun v => v.peer == (k + 1) && v.kind == 1 && v.epoch % 2 ^ 32 == c.p 0 32 && v.cells.length == v.total) = some v →
        v.first + 262144 ≤ ((s.dev.taken c).putCtx (c.slot % 4096) { x with sent := x.sent.erase v }).ns →
        exec (.rxColDownAck c) s = .next (s.on ((s.dev.taken c).putCtx (c.slot % 4096) { x with sent := x.sent.erase v }).rmaGo)) ∧
  -- COL_PHASE_RETRY
  (∀ (s : State) (n : Cid) (k due : Nat) (v : SentVec) (p : ColPeer) (d e : Dev) (cs : List TxCell),
        (s.dev.halted = false ∧ (s.dev.ctxOf n.toNat).firstDue k = some (v, due) ∧ (s.dev.ctxOf n.toNat).peer k = some p) →
        (s.dev.cSt n.toNat = cActive ∧ v.attempt < d.retryLimit ∧ d = s.dev.advanceTo due) →
        cs = v.cells.map (fun (x : Nat × Nat) => d.colCell n.toNat p v.kind v.epoch x.1 (x.1 + 1 = v.total) x.2 true) →
        e = ((d.updCtx n.toNat (fun c => { c with sent := c.sent.map (fun x => if x = v then { v with attempt := v.attempt + 1, sentAt := none } else x) })).colUnsend n.toNat (fun t => t.retx && cs.any (fun s =>
              s.cell.dstDev == t.cell.dstDev && s.cell.slot == t.cell.slot && s.cell.gen == t.cell.gen))).ev 6 5 none
              (some ((d.updCtx n.toNat (fun c => { c with sent := c.sent.map (fun x => if x = v then { v with attempt := v.attempt + 1, sentAt := none } else x) })).cFn n.toNat)) →
        exec (.colPhaseRetry n k) s = .next (s.on (Dev.rmaGo (Dev.pushRetx { e with nextTag := e.nextTag + 1 } e.nextTag
            (cs.map (fun (t : TxCell) => { t with trig := e.nextTag })))))) ∧
  -- COL_PHASE_RETRY (lost)
  (∀ (s : State) (n : Cid) (k due : Nat) (v : SentVec) (p : ColPeer) (d : Dev),
        (s.dev.halted = false ∧ (s.dev.ctxOf n.toNat).firstDue k = some (v, due) ∧ (s.dev.ctxOf n.toNat).peer k = some p) →
        (s.dev.cSt n.toNat = cActive ∧ d.retryLimit ≤ v.attempt ∧ d = s.dev.advanceTo due) →
        exec (.colPhaseRetry n k) s = .next (s.on (d.colFail n.toNat Status.COL_MEMBER_LOST).rmaGo)) ∧
  -- COL_CONTRIB_READ_DONE
  (∀ (s : State) (n : Cid) (off key tag m v : Nat) (d : Dev) (h : HostRd),
        (s.dev.halted = false ∧ s.dev.findContrib n.toNat off = some key) →
        (s.dev.findOwn (.colIn key) off = some (tag, m) ∧ s.dev.takeRead tag m (.ok v false) = (d, some h)) →
        exec (.colContribReadDone n off (.ok v false)) s = .next (s.on (((d.invPoll.updCtx (key % 4096) (fun c => c.updContrib (key / 4096) (fun x =>
            { x with reads := x.reads - 1, data := x.data + v % 2 ^ (8 * m) * 2 ^ (8 * off) }))).colGo (key % 4096)).rmaGo)))

/-- A link is answered, a wrong one and a lost member fail the context, an abort is echoed and repeated, and a destroyed context
is freed when it is quiet (R257, R258, R259, R282, R287, R288, R289). Where the model chose behind these rules: log entries
3, 5, 25 (notes/assumptions). -/
def Obligations.CollectiveLinksAndAborts : Prop :=
  -- RX_COL_LINK
  (∀ (s : State) (c : Cell) (k : Nat) (p : ColPeer),
        (s.dev.halted = false ∧ s.dev.isCol c 6 = true ∧ ((s.dev.taken c).ctxOf (c.slot % 4096)).from_ c.srcDev = some (k, p)) →
        ((s.dev.taken c).cSt (c.slot % 4096) = cActive ∧ p.endp = c.p 64 28 ∧ p.ctx = c.p 92 12 ∧ (k == 0) = (c.p 104 1 == 1)) →
        (c.p 0 32 = (s.dev.taken c).rd F.COL_CTX_TREE_TREE (c.slot % 4096) ∧ c.p 32 32 = ((s.dev.taken c).ctxOf (c.slot % 4096)).fp) →
        exec (.rxColLink c) s = .next (s.on ((s.dev.taken c).colOne (c.slot % 4096) p 7 0 0).rmaGo)) ∧
  -- RX_COL_LINK (differs)
  (∀ (s : State) (c : Cell) (k : Nat) (p : ColPeer),
        (s.dev.halted = false ∧ s.dev.isCol c 6 = true ∧ ((s.dev.taken c).ctxOf (c.slot % 4096)).from_ c.srcDev = some (k, p)) →
        ((s.dev.taken c).cSt (c.slot % 4096) = cActive ∧ p.endp = c.p 64 28 ∧ p.ctx = c.p 92 12 ∧ (k == 0) = (c.p 104 1 == 1)) →
        (c.p 0 32 != (s.dev.taken c).rd F.COL_CTX_TREE_TREE (c.slot % 4096)) = true →
        exec (.rxColLink c) s = .next (s.on (((s.dev.taken c).colOne (c.slot % 4096) p 7 0 Status.COL_BAD_DESC).colFail (c.slot % 4096) Status.COL_BAD_DESC).rmaGo)) ∧
  -- RX_COL_LINK_ACK
  (∀ (s : State) (c : Cell) (k : Nat) (p : ColPeer),
        (s.dev.halted = false ∧ s.dev.isCol c 7 = true ∧ ((s.dev.taken c).ctxOf (c.slot % 4096)).from_ c.srcDev = some (k, p)) →
        ((s.dev.taken c).cSt (c.slot % 4096) = cLinking ∧ c.p 0 16 = 0) →
        exec (.rxColLinkAck c) s = .next (s.on (((s.dev.taken c).updCtx (c.slot % 4096) (fun c => c.updPeer k (fun p => { p with linked := true }))).linked (c.slot % 4096)).rmaGo)) ∧
  -- RX_COL_LINK_ACK (refused)
  (∀ (s : State) (c : Cell) (k : Nat) (p : ColPeer),
        (s.dev.halted = false ∧ s.dev.isCol c 7 = true ∧ ((s.dev.taken c).ctxOf (c.slot % 4096)).from_ c.srcDev = some (k, p)) →
        ((s.dev.taken c).cSt (c.slot % 4096) = cLinking ∧ (c.p 0 16 != 0) = true) →
        exec (.rxColLinkAck c) s = .next (s.on ((s.dev.taken c).colFail (c.slot % 4096) Status.COL_BAD_DESC).rmaGo)) ∧
  -- RX_COL_ABORT
  (∀ (s : State) (c : Cell) (k : Nat) (p : ColPeer),
        (s.dev.halted = false ∧ s.dev.isCol c 8 = true ∧ ((s.dev.taken c).ctxOf (c.slot % 4096)).from_ c.srcDev = some (k, p)) →
        (c.p 0 1 = 1 ∧ (s.dev.taken c).cSt (c.slot % 4096) ≠ cLinking ∧ (s.dev.taken c).cSt (c.slot % 4096) ≠ cActive → exec (.rxColAbort c) s = .next (s.on (((s.dev.taken c).updCtx (c.slot % 4096) (fun c => c.updPeer k (fun p =>
            { p with echo := true, aborting := false, abortAt := none }))).colUnsend (c.slot % 4096)
            (fun t => t.cell.slot / 4096 == 8 && t.cell.dstDev == c.srcDev && t.cell.p 0 1 == 0)).rmaGo)) ∧
          (c.p 0 1 = 1 ∧ ((s.dev.taken c).cSt (c.slot % 4096) = cLinking ∨ (s.dev.taken c).cSt (c.slot % 4096) = cActive) →
            exec (.rxColAbort c) s = .next (s.on (s.dev.taken c).rmaGo)) ∧
          (c.p 0 1 ≠ 1 → exec (.rxColAbort c) s = .next (s.on (((s.dev.taken c).colOne (c.slot % 4096) p 8 0 (1 + c.p 16 16 * 2 ^ 16)).colFail (c.slot % 4096)
            Status.COL_MEMBER_LOST (some k)).rmaGo))) ∧
  -- RX_COL_KIND_RESERVED
  (∀ (s : State) (c : Cell),
        (s.dev.halted = false ∧ (c.cls == 2 && c.dstDev == s.dev.myDev && decide (9 ≤ c.slot / 4096)) = true) →
        exec (.rxColKindReserved c) s = .next (s.on ((s.dev.taken c).ev 6 4).rmaGo)) ∧
  -- COL_LINK_REPEAT
  (∀ (s : State) (n : Cid) (d : Dev),
        (s.dev.halted = false ∧ s.dev.cSt n.toNat = cLinking) →
        d = (s.dev.advanceTo ((s.dev.ctxOf n.toNat).linkAt + usPs 20)).updCtx n.toNat (fun c => { c with linkAt := (s.dev.advanceTo ((s.dev.ctxOf n.toNat).linkAt + usPs 20)).ps }) →
        exec (.colLinkRepeat n) s = .next (s.on (((d.ctxOf n.toNat).peers.filter (fun e => !e.2.linked)).foldl (fun d e => d.linkTo n.toNat e.1 e.2) d).rmaGo)) ∧
  -- COL_LINK_TIMEOUT
  (∀ (s : State) (n : Cid),
        (s.dev.halted = false ∧ s.dev.cSt n.toNat = cLinking) →
        exec (.colLinkTimeout n) s = .next (s.on ((s.dev.advanceTo ((s.dev.ctxOf n.toNat).born + msPs (s.dev.ctxOf n.toNat).linkMs)).colFail n.toNat Status.COL_MEMBER_LOST).rmaGo)) ∧
  -- COL_ABORT_RETRY
  (∀ (s : State) (n : Cid) (k t : Nat) (p : ColPeer) (d : Dev),
        (s.dev.halted = false ∧ (s.dev.ctxOf n.toNat).peer k = some p ∧ p.abortAt = some t) →
        d = s.dev.advanceTo (t + nsPs (retryInterval p.base p.tries)) →
        (d.retryLimit ≤ p.tries → exec (.colAbortRetry n k) s = .next (s.on (d.updCtx n.toNat (fun c => c.updPeer k (fun p => { p with aborting := false, abortAt := none, given := true }))).rmaGo)) ∧
          (p.tries < d.retryLimit → exec (.colAbortRetry n k) s = .next (s.on (Dev.rmaGo ((d.updCtx n.toNat (fun c => c.updPeer k (fun p =>
            { p with abortAt := none, tries := p.tries + 1 }))).colOne n.toNat p 8 0
            ((d.updCtx n.toNat (fun c => c.updPeer k (fun p => { p with abortAt := none, tries := p.tries + 1 }))).rd F.COL_CTX_STAT_STATUS n.toNat * 2 ^ 16)))))) ∧
  -- COL_CTX_FREE
  (∀ (s : State) (n : Cid) (d : Dev),
        (s.dev.halted = false ∧ s.dev.cSt n.toNat = cDraining) →
        (s.dev.ctxOf n.toNat).peers.any (fun e => !e.2.echo && !e.2.given) = false →
        (Tbl.get s.dev.sch.col [] (s.dev.cFn n.toNat) ++ s.dev.sch.retx).any (fun t => t.col == some n.toNat) = false →
        d = (s.dev.advanceTo ((s.dev.ctxOf n.toNat).lastSent + s.dev.quietPs)).freeAll (s.dev.ctxOf n.toNat).bufs 3 n.toNat →
        exec (.colCtxFree n) s = .next (s.on (((Dev.setReg { d with col.ctxs := Tbl.del n.toNat (s.dev.advanceTo ((s.dev.ctxOf n.toNat).lastSent + s.dev.quietPs)).col.ctxs } R.COL_CTX_STAT n.toNat 0).setReg R.COL_CTX_TREE n.toNat 0).rmaGo))) ∧
  -- COL_CTX_ABORT
  (∀ (s : State) (n : Cid),
        (s.dev.halted = false ∧ (s.dev.cSt n.toNat = cActive ∨ s.dev.cSt n.toNat = cLinking)) →
        exec (.colCtxAbort n) s = .next (s.on ((((((s.dev.wr F.COL_CTX_STAT_STATE n.toNat cFailed).wr F.COL_CTX_STAT_STATUS n.toNat Status.COL_MEMBER_LOST).epochsEnd n.toNat
            Status.COL_MEMBER_LOST).abortAll n.toNat none)).rmaGo))) ∧
  -- COL_CTX_ABORT (ignored)
  (∀ (s : State) (n : Cid),
        (s.dev.halted = false ∧ (s.dev.cSt n.toNat != cLinking && s.dev.cSt n.toNat != cActive) = true) →
        exec (.colCtxAbort n) s = .next (s.on s.dev.rmaGo))

/-- Records and 192-bit sums of a reproducible reduction come to the same however their inputs are grouped and ordered (R276,
R279, R281). -/
def Obligations.ReproducibleCombination : Prop :=
  -- rec combine (comm)
  (∀ (x y : Nat),
        recCombine x y = recCombine y x) ∧
  -- rec combine (assoc)
  (∀ (x y z : Nat),
        recCombine (recCombine x y) z = recCombine x (recCombine y z)) ∧
  -- sum (comm)
  (∀ (x y n : Nat),
        packedOp (fun p q => p + q) 192 x y n = packedOp (fun p q => p + q) 192 y x n) ∧
  -- sum (assoc)
  (∀ (x y z n : Nat),
        packedOp (fun p q => p + q) 192 (packedOp (fun p q => p + q) 192 x y n) z n = packedOp (fun p q => p + q) 192 x (packedOp (fun p q => p + q) 192 y z n) n)

/-- A cell in transit is sent on, held for a waking port, or dropped by safe state, hop limit, missing route or residence; ports
are rediscovered (R304, R305, R306, R314, R317, R318, R325). Where the model chose behind these rules: log entries 1, 3, 26,
35 (notes/assumptions). -/
def Obligations.CellForwarding : Prop :=
  -- CELL_FORWARD (sent)
  (∀ (s : State) (p : Pid) (vc : Fin 16) (c : InCell) (d : Dev) (via q k : Nat),
        (s.dev.dark = false ∧ s.dev.inCell p vc = some c ∧ c.hold = none ∧ (s.dev.pwr.state = .run ∨ c.cell.cls = 3)) →
        (s.dev.route c.cell (some (s.dev.rd F.RTE_PORT_CFG_KIND p)) = (d, via, .port q k) ∧ ¬ d.hopLimit ≤ c.cell.hops) →
        exec (.cellForward p vc) s = .next (s.on (((d.enqueue c.tx (some (s.dev.rd F.RTE_PORT_CFG_KIND p)) via q k c.since).leaveIn p c).fab))) ∧
  -- CELL_FORWARD (held)
  (∀ (s : State) (p : Pid) (vc : Fin 16) (c : InCell) (d : Dev) (via q k : Nat),
        (s.dev.dark = false ∧ s.dev.inCell p vc = some c ∧ c.hold = none ∧ (s.dev.pwr.state = .run ∨ c.cell.cls = 3)) →
        (s.dev.route c.cell (some (s.dev.rd F.RTE_PORT_CFG_KIND p)) = (d, via, .wake q k) ∧ ¬ d.hopLimit ≤ c.cell.hops) →
        exec (.cellForward p vc) s = .next (s.on (((d.wantWake q).updPort p (fun x => { x with
            inb := x.inb.map (fun y => if y = c then { c with hold := some ⟨q, k, via⟩ } else y) })).fab))) ∧
  -- CELL_FORWARD (again)
  (∀ (s : State) (p : Pid) (vc : Fin 16) (c : InCell) (h : Hold) (via q k : Nat),
        (s.dev.dark = false ∧ s.dev.inCell p vc = some c ∧ c.hold = some h ∧ (s.dev.pwr.state = .run ∨ c.cell.cls = 3)) →
        (s.dev.reroute c.cell (some (s.dev.rd F.RTE_PORT_CFG_KIND p)) h = (via, .port q k) ∧ ¬ s.dev.hopLimit ≤ c.cell.hops) →
        exec (.cellForward p vc) s = .next (s.on (((s.dev.enqueue c.tx (some (s.dev.rd F.RTE_PORT_CFG_KIND p)) via q k c.since).leaveIn p c).fab))) ∧
  -- CELL_FORWARD (hops)
  (∀ (s : State) (p : Pid) (vc : Fin 16) (c : InCell) (d : Dev) (via : Nat) (r : RouteTo),
        (s.dev.dark = false ∧ s.dev.inCell p vc = some c ∧ c.hold = none ∧ (s.dev.pwr.state = .run ∨ c.cell.cls = 3)) →
        (s.dev.route c.cell (some (s.dev.rd F.RTE_PORT_CFG_KIND p)) = (d, via, r) ∧ r ≠ .none ∧ d.hopLimit ≤ c.cell.hops) →
        exec (.cellForward p vc) s = .next (s.on (((d.bump F.RTE_DROP_HOP).leaveIn p c).fab))) ∧
  -- CELL_FORWARD (no route)
  (∀ (s : State) (p : Pid) (vc : Fin 16) (c : InCell) (d : Dev) (via : Nat),
        (s.dev.dark = false ∧ s.dev.inCell p vc = some c ∧ c.hold = none ∧ (s.dev.pwr.state = .run ∨ c.cell.cls = 3)) →
        s.dev.route c.cell (some (s.dev.rd F.RTE_PORT_CFG_KIND p)) = (d, via, .none) →
        exec (.cellForward p vc) s = .next (s.on (((d.noRoute c.cell (some (s.dev.rd F.RTE_PORT_CFG_KIND p))).leaveIn p c).fab))) ∧
  -- CELL_FORWARD (safe)
  (∀ (s : State) (p : Pid) (vc : Fin 16) (c : InCell),
        (s.dev.dark = false ∧ s.dev.inCell p vc = some c ∧ s.dev.pwr.state = .safe ∧ (c.cell.cls != 3) = true) →
        exec (.cellForward p vc) s = .next (s.on (((s.dev.bump F.RTE_DROP2_MISROUTE).leaveIn p c).fab))) ∧
  -- CELL_FORWARD (none)
  (∀ (s : State) (p : Pid) (vc : Fin 16),
        s.dev.inCell p vc = none →
        exec (.cellForward p vc) s = .next (s.on s.dev.fab)) ∧
  -- CELL_RESIDENCE_EXPIRE
  (∀ (s : State) (p : Pid) (vc : Fin 16) (x : Stay) (d : Dev),
        (s.dev.dark = false ∧ longest (s.dev.stays p vc) = some x) →
        d = (s.dev.advanceTo (x.since + s.dev.residence)).bump F.RTE_DROP_RESIDENCE →
        exec (.cellResidenceExpire p vc) s = .next (s.on (Dev.fab (match x with
            | .inb c => d.leaveIn p c
            | .out c => (d.updPort p (fun x => { x with out := eraseFirst c x.out, again := eraseFirst c x.again })).ownGone c.t
            | .held h => ({ d with rte.held := eraseFirst h d.rte.held }).ownGone h.t)))) ∧
  -- CELL_RESIDENCE_EXPIRE (none)
  (∀ (s : State) (p : Pid) (vc : Fin 16),
        (s.dev.dark = false ∧ s.dev.stays p vc = []) →
        exec (.cellResidenceExpire p vc) s = .next (s.on s.dev.fab)) ∧
  -- PORT_REDISCOVER
  (∀ (s : State) (p : Pid),
        s.dev.dark = false →
        (s.dev.rtState p = rsParked → exec (.portRediscover p) s = .next (s.on ((s.dev.updPort p (fun x => { x with wakeWant := true, rediscover := true })).fab))) ∧
          (s.dev.rtState p = rsDown → exec (.portRediscover p) s = .next (s.on s.dev.fab)) ∧
          (s.dev.rtState p ≠ rsParked ∧ s.dev.rtState p ≠ rsDown → exec (.portRediscover p) s = .next (s.on (((s.dev.setRtState p rsDiscovering).sendDiscover p).fab))))

/-- One cell is injected at an opportunity: CTL first, then responses, retransmissions, and first transmissions; the Traverse
seed is written (R305, R306, R314, R343, R344, R345). Where the model chose behind these rules: log entries 1, 3, 26, 35
(notes/assumptions). -/
def Obligations.CellInjection : Prop :=
  -- SCH_INJECT (ctl)
  (∀ (s : State) (lanes : BitVec 4) (t : TxCell) (l : List TxCell),
        (s.dev.dark = false ∧ s.dev.injRoom lanes 3 = true ∧ s.dev.sch.ctl = t :: l) →
        exec (.schInject lanes) s = .next (s.on (Dev.fab (Dev.inject { s.dev with sch.ctl := l } t)))) ∧
  -- SCH_INJECT (rsp)
  (∀ (s : State) (lanes : BitVec 4) (t : TxCell) (l : List TxCell),
        (s.dev.dark = false ∧ s.dev.halted = false ∧ (s.dev.sch.ctl = [] ∨ s.dev.injRoom lanes 3 = false)) →
        (s.dev.injRoom lanes 1 = true ∧ s.dev.sch.rsp = t :: l) →
        exec (.schInject lanes) s = .next (s.on (Dev.fab (Dev.inject { s.dev with sch.rsp := l } t)))) ∧
  -- SCH_INJECT (retx)
  (∀ (s : State) (lanes : BitVec 4) (t : TxCell),
        (s.dev.dark = false ∧ s.dev.halted = false ∧ s.dev.sch.ctl = [] ∧ s.dev.sch.rsp = []) →
        s.dev.sch.retx.find? (fun t => s.dev.injRoom lanes t.cls) = some t →
        exec (.schInject lanes) s = .next (s.on (Dev.fab (Dev.inject { s.dev with sch.retx := s.dev.sch.retx.erase t } t)))) ∧
  -- SCH_INJECT (new)
  (∀ (s : State) (lanes : BitVec 4),
        (s.dev.dark = false ∧ s.dev.halted = false ∧ s.dev.sch.ctl = [] ∧ s.dev.sch.rsp = [] ∧ s.dev.sch.retx = []) →
        exec (.schInject lanes) s = .next (s.on (s.dev.injectNew lanes).fab)) ∧
  -- SCH_INJECT (dark)
  (∀ (s : State) (lanes : BitVec 4),
        s.dev.dark = true →
        exec (.schInject lanes) s = .next (s.on s.dev.fab)) ∧
  -- inject (refused)
  (∀ (d e : Dev) (t : TxCell) (via : Nat),
        (d.route t.cell none = (e, via, .none) ∧ (t.cell.dstDev = d.myDev → d.flag F.RTE_ID_ASSIGNED = false) ∧ t.cls ≠ 3) →
        (d.handOver t).rma.lost = e.rma.lost ++ [(t, Status.UNREACHABLE)]) ∧
  -- RTE_SEED_WRITE
  (∀ (s : State) (v : Word),
        exec (.rteSeedWrite v) s = .next (s.on { s.dev.setReg R.RTE_SEED 0 v with rte.lfsr := if v = 0 then 1 else v }))

/-- A shaper, meter or policer is enabled with its bucket full; a refill adds each rate in force to its bucket, up to its burst
(R348, R349, R350). Where the model chose behind these rules: log entries 1, 3, 26 (notes/assumptions). -/
def Obligations.TokenBuckets : Prop :=
  -- SHAPER_ENABLE
  (∀ (s : State) (fn : Fid) (d : Dev),
        d = s.dev.wr F.SCH_FN_CFG_SHAPE_EN fn 1 →
        exec (.shaperEnable fn) s = .next (s.on { d with sch.tokens := Tbl.put fn (d.burst fn : Int) d.sch.tokens })) ∧
  -- METER_ENABLE
  (∀ (s : State) (fn : Fid) (d : Dev),
        d = s.dev.wr F.SCH_FN_CFG_METER_EN fn 1 →
        exec (.meterEnable fn) s = .next (s.on { d with sch.tc := Tbl.put fn (max 1 (d.rdF F.SCH_FN_METER_CBS fn) * 256) d.sch.tc, sch.tp := Tbl.put fn (max 1 (d.rdF F.SCH_FN_METER_PBS fn) * 256) d.sch.tp })) ∧
  -- UDP_ENABLE
  (∀ (s : State) (q : Qid) (d : Dev),
        d = s.dev.wr F.SCH_UDP_EN q 1 →
        exec (.udpEnable q) s = .next (s.on { d with sch.udp := Tbl.put q (max 1 (d.rdF F.SCH_UDP_BURST q) * 256) d.sch.udp })) ∧
  -- SCH_REFILL
  (∀ (s : State),
        s.dev.dark = false →
        (s.dev.sch.tokens.Pairwise (fun a b => a.1 < b.1) ∧ s.dev.sch.udp.Pairwise (fun a b => a.1 < b.1) ∧ s.dev.sch.tp.Pairwise (fun a b => a.1 < b.1)) →
        ∃ d, exec .schRefill s = .next (s.on d) ∧
          (∀ f v, Tbl.find s.dev.sch.tokens f = some v →
            Tbl.find d.sch.tokens f = some (min (v + ((d.rdF F.SCH_FN_SHAPER_RATE f : Nat) : Int)) ((d.burst f : Nat) : Int))) ∧
          (∀ q v, Tbl.find s.dev.sch.udp q = some v →
            Tbl.find d.sch.udp q = some (min (v + d.rdF F.SCH_UDP_RATE q) (max 1 (d.rdF F.SCH_UDP_BURST q) * 256))) ∧
          (∀ f v, Tbl.find s.dev.sch.tp f = some v →
            Tbl.find d.sch.tp f = some (min (v + max (d.rdF F.SCH_FN_METER_CIR f) (d.rdF F.SCH_FN_METER_PIR f)) (max 1 (d.rdF F.SCH_FN_METER_PBS f) * 256)) ∧
            Tbl.get d.sch.tc 0 f = min (Tbl.get s.dev.sch.tc 0 f + d.rdF F.SCH_FN_METER_CIR f) (max 1 (d.rdF F.SCH_FN_METER_CBS f) * 256))) ∧
  -- SCH_REFILL (dark)
  (∀ (s : State),
        s.dev.dark = true →
        exec .schRefill s = .next s)

/-- A gate list is armed for a base at least 1000 ns ahead and open to every class, comes into force at its base, and can be
disarmed and disabled (R352, R353, R354, R355). Where the model chose behind these rules: log entries 1, 3, 26
(notes/assumptions). -/
def Obligations.TimeGates : Prop :=
  -- GATE_ARM
  (∀ (s : State) (p : Pid) (k n b : Nat),
        ((s.dev.gateSt p).armed = none ∧ k = 1 - s.dev.rd F.SCH_GATE_CTL_ACTIVE_BANK p ∧ n = clampTo 1 64 (s.dev.rd F.SCH_GATE_CTL_PEND_LEN p)) →
        (b = (s.dev.reg R.SCH_GATE_PBASE p).toNat ∧ s.dev.ns + 1000 ≤ b) →
        (∀ c, c < 3 → (List.range n).any (fun i => getBits (s.dev.reg R.SCH_GATE_ENT (p * 128 + k * 64 + i)) (24 + c) 1 == 1) = true) →
        exec (.gateArm p) s = .next (s.on (s.dev.setGate p { s.dev.gateSt p with armed := some (k, n, b) }))) ∧
  -- GATE_ARM (late)
  (∀ (s : State) (p : Pid) (k n : Nat),
        ((s.dev.gateSt p).armed = none ∧ (s.dev.reg R.SCH_GATE_PBASE p).toNat < s.dev.ns + 1000) →
        (k = 1 - s.dev.rd F.SCH_GATE_CTL_ACTIVE_BANK p ∧ n = clampTo 1 64 (s.dev.rd F.SCH_GATE_CTL_PEND_LEN p)) →
        (∀ c, c < 3 → (List.range n).any (fun i => getBits (s.dev.reg R.SCH_GATE_ENT (p * 128 + k * 64 + i)) (24 + c) 1 == 1) = true) →
        exec (.gateArm p) s = .next (s.on (s.dev.wr F.SCH_GATE_CTL_LATE p 1))) ∧
  -- GATE_ARM (never)
  (∀ (s : State) (p : Pid) (k n c : Nat),
        ((s.dev.gateSt p).armed = none ∧ s.dev.ns + 1000 ≤ (s.dev.reg R.SCH_GATE_PBASE p).toNat) →
        (k = 1 - s.dev.rd F.SCH_GATE_CTL_ACTIVE_BANK p ∧ n = clampTo 1 64 (s.dev.rd F.SCH_GATE_CTL_PEND_LEN p) ∧ c < 3) →
        (List.range n).any (fun i => getBits (s.dev.reg R.SCH_GATE_ENT (p * 128 + k * 64 + i)) (24 + c) 1 == 1) = false →
        exec (.gateArm p) s = .next (s.on (s.dev.wr F.SCH_GATE_CTL_INVALID p 1))) ∧
  -- GATE_DISARM
  (∀ (s : State) (p : Pid),
        exec (.gateDisarm p) s = .next (s.on (s.dev.setGate p { s.dev.gateSt p with armed := none })) ∧
          exec (.gateDisable p) s = .next (s.on ((s.dev.wr F.SCH_GATE_CTL_EN p 0).setGate p {}))) ∧
  -- GATE_BANK_ACTIVATE
  (∀ (s : State) (p : Pid) (k n b : Nat),
        (s.dev.dark = false ∧ (s.dev.gateSt p).armed = some (k, n, b)) →
        exec (.gateBankActivate p) s = .next (s.on ((s.dev.advanceToNs b).setGate p { active := some (k, n, b), armed := none }))) ∧
  -- GATE_ENTRY_ADVANCE
  (∀ (s : State) (p : Pid) (k n b e : Nat) (dur : Nat → Nat),
        (s.dev.dark = false ∧ (s.dev.gateSt p).active = some (k, n, b) ∧ e = s.dev.gateEntry p k n b s.dev.ns) →
        dur = (fun i => max 16 (s.dev.rd F.SCH_GATE_ENT_DURATION (p * 128 + k * 64 + i))) →
        exec (.gateEntryAdvance p) s = .next (s.on ((s.dev.advanceToNs (s.dev.ns - (s.dev.ns - b) % max 1 ((List.range n).foldl (fun s i => s + dur i) 0) +
            (List.range e).foldl (fun s i => s + dur i) 0 + dur e)).setGate p (s.dev.gateSt p)))) ∧
  -- gate open
  (∀ (d : Dev) (p cls k n b : Nat),
        (d.flag F.SCH_GATE_CTL_EN p = true ∧ (Tbl.get d.sch.gates {} p).active = some (k, n, b) ∧ cls ≠ 3) →
        d.gateOpen p cls = (getBits (d.reg R.SCH_GATE_ENT (p * 128 + k * 64 + d.gateEntry p k n b d.ns)) (24 + cls) 1 == 1))

/-- Frames received by a Belay port: what a header, a DATA frame and each control frame do, by CRC-64, sequence number and link
state (R360, R364, R365, R366, R367, R372, R374, R379, R380, R381, R383, R385). Where the model chose behind these rules:
log entries 5, 6 (notes/assumptions). -/
def Obligations.BelayReceive : Prop :=
  -- frame in (corrupt)
  (∀ (d : Dev) (p : Nat) (h : FrameHdr) (v : Crc),
        (d.dark = false ∧ d.lnk p ≠ lsDown ∧ d.lnk p ≠ lsParked ∧ h.framed = true) →
        d.frameIn p h v = (d.uncorrIn p h.uncorr).frameVerdict p h v ∧
          ∀ e : Dev, e.frameVerdict p h .corrupt = (((e.updPort p (fun x => { x with good := 0 })).bump F.PRT_LNK_ERRCNT_CRC p).linkError p, false) ∧
            e.frameVerdict p h .stomped = ((e.updPort p (fun x => { x with good := 0 })).bump F.PRT_LNK_ERRCNT2_STOMP p, false)) ∧
  -- frame in (unframed)
  (∀ (d : Dev) (p : Nat) (h : FrameHdr) (v : Crc),
        (d.dark = false ∧ d.lnk p ≠ lsDown ∧ d.lnk p ≠ lsParked ∧ h.framed = false) →
        d.frameIn p h v = ((d.uncorrIn p h.uncorr).framingError p, false)) ∧
  -- frame hdr (verdict)
  (∀ (h : FrameHdr) (body len : Nat),
        (h.uncorr = 0 ∧ h.flagged = false) →
        (h.crc = crc64 h.hdr body len → h.verdict body len = .good) ∧
          (h.crc = ~~~(crc64 h.hdr body len) → h.verdict body len = .stomped) ∧
          (h.crc ≠ crc64 h.hdr body len → h.crc ≠ ~~~(crc64 h.hdr body len) → h.verdict body len = .corrupt)) ∧
  -- frame hdr (uncorr)
  (∀ (h : FrameHdr) (body len : Nat),
        (h.flagged = true ∨ h.uncorr ≠ 0) →
        h.verdict body len = .corrupt) ∧
  -- frame in (good)
  (∀ (d : Dev) (p : Nat) (h : FrameHdr),
        (d.lnk p ≠ lsLock ∧ d.lnk p ≠ lsRelock) →
        d.frameVerdict p h .good = ((d.passed p).headerIn p h, true)) ∧
  -- frame in (lock)
  (∀ (d : Dev) (p : Nat) (h : FrameHdr),
        (d.lnk p = lsLock ∧ 2 ≤ ((d.passed p).portSt p).good) →
        d.frameVerdict p h .good = ((d.passed p).enterInit p, true)) ∧
  -- frame in (relock)
  (∀ (d : Dev) (p : Nat) (h : FrameHdr),
        (d.lnk p = lsRelock ∧ 2 ≤ (((d.passed p).headerIn p h).portSt p).good) →
        d.frameVerdict p h .good = (((d.passed p).headerIn p h).wakeComplete p, true)) ∧
  -- ack in
  (∀ (d : Dev) (p a k first : Nat) (r : RepFrame) (rest : List RepFrame),
        ((d.portSt p).replay = r :: rest ∧ first = (r.seq + 0xFFFFFF) % 2 ^ 24 ∧ k = (a + 2 ^ 24 - first) % 2 ^ 24 ∧ k ≠ 0) →
        ¬ (r :: rest).length < k →
        d.ackIn p a = d.setPort p { d.portSt p with replay := (r :: rest).drop k, replaying := min (d.portSt p).replaying ((r :: rest).drop k).length, replayEnd := if ((r :: rest).drop k).isEmpty then none else some (d.replayStart p) }) ∧
  -- BELAY_DATA_RX (accepted)
  (∀ (s : State) (p : Pid) (fr : DataFrame) (d : Dev),
        (s.dev.dark = false ∧ s.dev.lnk p ≠ lsDown ∧ s.dev.lnk p ≠ lsParked ∧ fr.hdr.framed = true ∧ s.dev.earlyCells p fr = []) →
        (d = (s.dev.frameIn p fr.hdr fr.verdict).1 ∧ d.lnk p ≠ lsLock ∧ d.lnk p ≠ lsDown) →
        (fr.verdict = .good ∧ fr.seq = d.nextRx p) →
        exec (.belayDataRx p fr) s = .next (s.on (((fr.marked.foldl (fun d c => d.cellIn p c) (d.accept p)).reXoff p).fab))) ∧
  -- BELAY_DATA_RX (duplicate)
  (∀ (s : State) (p : Pid) (fr : DataFrame) (d : Dev),
        (s.dev.dark = false ∧ s.dev.lnk p ≠ lsDown ∧ s.dev.lnk p ≠ lsParked ∧ fr.hdr.framed = true ∧ s.dev.earlyCells p fr = []) →
        (d = (s.dev.frameIn p fr.hdr fr.verdict).1 ∧ d.lnk p ≠ lsLock ∧ d.lnk p ≠ lsDown) →
        (fr.verdict = .good ∧ fr.seq ≠ d.nextRx p ∧ serialLt 24 fr.seq (d.nextRx p) = true) →
        exec (.belayDataRx p fr) s = .next (s.on (((d.bump F.PRT_LNK_ERRCNT2_DUP p).ackEvent p).fab))) ∧
  -- BELAY_DATA_RX (gap)
  (∀ (s : State) (p : Pid) (fr : DataFrame) (d : Dev),
        (s.dev.dark = false ∧ s.dev.lnk p ≠ lsDown ∧ s.dev.lnk p ≠ lsParked ∧ fr.hdr.framed = true ∧ s.dev.earlyCells p fr = []) →
        (d = (s.dev.frameIn p fr.hdr fr.verdict).1 ∧ d.lnk p ≠ lsLock ∧ d.lnk p ≠ lsDown) →
        (fr.verdict = .good ∧ fr.seq ≠ d.nextRx p ∧ serialLt 24 fr.seq (d.nextRx p) = false) →
        exec (.belayDataRx p fr) s = .next (s.on (((d.bump F.PRT_LNK_ERRCNT2_GAP p).nakEvent p).fab))) ∧
  -- BELAY_DATA_RX (corrupt)
  (∀ (s : State) (p : Pid) (fr : DataFrame) (d : Dev),
        (s.dev.dark = false ∧ s.dev.lnk p ≠ lsDown ∧ s.dev.lnk p ≠ lsParked ∧ fr.hdr.framed = true ∧ s.dev.earlyCells p fr = []) →
        (d = (s.dev.frameIn p fr.hdr fr.verdict).1 ∧ d.lnk p ≠ lsLock ∧ d.lnk p ≠ lsDown) →
        fr.verdict = .corrupt →
        exec (.belayDataRx p fr) s = .next (s.on ((d.nakEvent p).fab))) ∧
  -- BELAY_DATA_RX (stomped)
  (∀ (s : State) (p : Pid) (fr : DataFrame) (d : Dev),
        (s.dev.dark = false ∧ s.dev.lnk p ≠ lsDown ∧ s.dev.lnk p ≠ lsParked ∧ fr.hdr.framed = true ∧ s.dev.earlyCells p fr = []) →
        (d = (s.dev.frameIn p fr.hdr fr.verdict).1 ∧ d.lnk p ≠ lsLock ∧ d.lnk p ≠ lsDown) →
        fr.verdict = .stomped →
        exec (.belayDataRx p fr) s = .next (s.on d.fab)) ∧
  -- BELAY_DATA_RX (early)
  (∀ (s : State) (p : Pid) (fr : DataFrame) (l : List Cell),
        (s.dev.earlyCells p fr = l ∧ l.isEmpty = false) →
        exec (.belayDataRx p fr) s = .next (s.on (if fr.verdict = .good then (((s.dev.dataIn p fr).ev 8 4 (some p.val) none l.length).cutGood p l).fab else (((s.dev.dataIn p fr).ev 8 4 (some p.val) none l.length).cutBad p l).fab))) ∧
  -- accept
  (∀ (d : Dev) (p : Nat) (e : Dev),
        (e = d.wr F.PRT_LNK_SEQ_NEXT_RX p ((d.nextRx p + 1) % 2 ^ 24) ∧ (e.portSt p).accepted < 31) →
        d.accept p = e.updPort p (fun x => { x with nakRaised := false, accepted := x.accepted + 1, ackAt := some (x.ackAt.getD e.ps) })) ∧
  -- BELAY_IDLE_RX
  (∀ (s : State) (p : Pid) (hdr : FrameHdr),
        exec (.belayIdleRx p hdr) s = .next (s.on ((s.dev.frameIn p hdr (hdr.verdict 0 0)).1.fab))) ∧
  -- BELAY_INIT_RX (valid)
  (∀ (s : State) (p : Pid) (fr : CtlFrame) (d : Dev),
        (s.dev.frameIn p fr.hdr fr.verdict = (d, true) ∧ d.lnk p = lsInit ∧ bitsOf (ctlWord fr.body 0) 0 8 = 1 ∧ bitsOf (ctlWord fr.body 0) 16 8 ≠ 0) →
        exec (.belayInitRx p fr) s = .next (s.on ((d.peerInit p fr).fab))) ∧
  -- BELAY_INIT_RX (invalid)
  (∀ (s : State) (p : Pid) (fr : CtlFrame) (d : Dev),
        (s.dev.frameIn p fr.hdr fr.verdict = (d, true) ∧ d.lnk p = lsInit ∧ bitsOf (ctlWord fr.body 0) 16 8 = 0) →
        exec (.belayInitRx p fr) s = .next (s.on ((d.linkDown p 8).fab))) ∧
  -- BELAY_CREDIT_RX
  (∀ (s : State) (p : Pid) (fr : CtlFrame) (d : Dev),
        (s.dev.frameIn p fr.hdr fr.verdict = (d, true) ∧ d.running p = true) →
        exec (.belayCreditRx p fr) s = .next (s.on ((d.updPort p (fun x => { x with
            limitIn := (List.range 16).foldl (fun t v => Tbl.put v (bitsOf fr.body.toNat (16 * v) 16) t) x.limitIn })).fab))) ∧
  -- BELAY_DISCOVER_RX
  (∀ (s : State) (p : Pid) (fr : CtlFrame) (d : Dev),
        (s.dev.frameIn p fr.hdr fr.verdict = (d, true) ∧ d.running p = true) →
        exec (.belayDiscoverRx p fr) s = .next (s.on ((d.identityIn p (ctlWord fr.body 0)).fab))) ∧
  -- BELAY_TIME_REQ_RX
  (∀ (s : State) (p : Pid) (fr : CtlFrame) (d : Dev),
        s.dev.frameIn p fr.hdr fr.verdict = (d, true) →
        exec (.belayTimeReqRx p fr) s = .next (s.on ((d.answerTime p fr).fab))) ∧
  -- BELAY_TIME_RESP_RX
  (∀ (s : State) (p : Pid) (fr : CtlFrame) (d : Dev) (e : Nat × Nat),
        (s.dev.frameIn p fr.hdr fr.verdict = (d, true) ∧ d.lnk p ≠ lsLock ∧ (d.portSt p).exch.find? (fun e => e.1 == bitsOf fr.body.toNat 8 8) = some e) →
        exec (.belayTimeRespRx p fr) s = .next (s.on ((d.timeAnswer p fr e).fab))) ∧
  -- BELAY_DOWN_RX
  (∀ (s : State) (p : Pid) (fr : CtlFrame) (d : Dev),
        s.dev.frameIn p fr.hdr fr.verdict = (d, true) →
        exec (.belayDownRx p fr) s = .next (s.on ((d.linkDown p 5).fab))) ∧
  -- BELAY_CONTROL_RESERVED
  (∀ (s : State) (p : Pid) (fr : CtlFrame) (d : Dev),
        s.dev.frameIn p fr.hdr fr.verdict = (d, true) →
        exec (.belayControlReserved p fr) s = .next (s.on ((d.bump F.PRT_LNK_DROP_CTRL_UNKNOWN p).fab))) ∧
  -- BELAY_FRAMING_ERROR
  (∀ (s : State) (p : Pid),
        (s.dev.dark = false ∧ s.dev.lnk p ≠ lsDown ∧ s.dev.lnk p ≠ lsParked) →
        exec (.belayFramingError p) s = .next (s.on ((((s.dev.updPort p (fun x => { x with good := 0 })).bump F.PRT_LNK_ERRCNT_FRAMING p).linkError p).fab))) ∧
  -- link error
  (∀ (d : Dev) (p : Nat) (e : Dev),
        e = d.bump F.PRT_LNK_STATE_LEVEL p →
        (e.lnk p ≠ lsUp → d.linkError p = e) ∧ (e.lnk p = lsUp → max 1 (e.rd F.PRT_LNK_ERR_ERR_LIMIT p) ≤ e.rd F.PRT_LNK_STATE_LEVEL p →
            d.linkError p = ((e.setLnk p lsDegraded).updPort p (fun x => { x with
              out := x.out.map (fun c => { c with deg := c.t.cell.cls == 3 }), again := x.again.map (fun c => { c with deg := c.t.cell.cls == 3 }) })).fault 15))

/-- Frames sent by a Belay port: control before replay before new DATA before IDLE, numbering and replay, and what entering DOWN
does (R351, R362, R363, R367, R381, R388). Where the model chose behind these rules: log entries 3, 5, 6
(notes/assumptions). -/
def Obligations.BelaySend : Prop :=
  -- BELAY_FRAME_SEND (control)
  (∀ (s : State) (p : Pid) (d : Dev) (k body : Nat) (l : List (Nat × Nat)),
        (s.dev.dark = false ∧ (s.dev.lnk p == lsDown) = false ∧ (s.dev.lnk p == lsParked) = false ∧ d = (s.dev.parkWork p).dropStale p) →
        ((d.portSt p).ctl = (k, body) :: l ∧ ((d.portSt p).lastCtl = false ∨ d.frameWaits p = false)) →
        exec (.belayFrameSend p) s = .next (s.on ((d.sendCtl p k body).fab))) ∧
  -- BELAY_FRAME_SEND (second)
  (∀ (s : State) (p : Pid) (d : Dev) (k body : Nat) (l : List (Nat × Nat)),
        (s.dev.dark = false ∧ (s.dev.lnk p == lsDown) = false ∧ (s.dev.lnk p == lsParked) = false ∧ d = (s.dev.parkWork p).dropStale p) →
        ((d.portSt p).ctl = (k, body) :: l ∧ (d.portSt p).lastCtl = true ∧ d.frameWaits p = true) →
        exec (.belayFrameSend p) s = .next (s.on ((d.sendOther p).fab))) ∧
  -- park work
  (∀ (d : Dev) (p : Nat),
        ((d.portSt p).out.isEmpty = true ∨ (d.portSt p).parkReq = none → d.parkWork p = d) ∧
          (∀ id t e, (d.portSt p).out.isEmpty = false → (d.portSt p).parkReq = some (id, t) →
            e = d.updPort p (fun x => { x with parkReq := none, ctl := x.ctl.filter (fun e => !(parkIs 1 e && bitsOf e.2 8 8 == id)) }) →
            d.parkWork p = if (d.portSt p).ctl.any (fun e => parkIs 1 e && bitsOf e.2 8 8 == id) then e else e.queuePark p 4 id)) ∧
  -- send ctl
  (∀ (d : Dev) (p k body : Nat),
        (k ≠ 4 ∧ k ≠ 5) →
        d.sendCtl p k body = (d.updPort p (fun x => { x with ctl := x.ctl.tail })).putFrame p 2 k 0 0 (ctlBits (BitVec.ofNat 512 body)) 64 0 false) ∧
  -- send ctl (time)
  (∀ (d e : Dev) (p body : Nat),
        e = d.updPort p (fun x => { x with ctl := x.ctl.tail }) →
        d.sendCtl p 4 body = (e.stampTime p body).1.putFrame p 2 4 0 0 (ctlBits (BitVec.ofNat 512 (e.stampTime p body).2)) 64 0 false) ∧
  -- BELAY_FRAME_SEND (replay)
  (∀ (s : State) (p : Pid) (d : Dev) (r : RepFrame),
        (s.dev.dark = false ∧ (s.dev.lnk p == lsDown) = false ∧ (s.dev.lnk p == lsParked) = false ∧ d = (s.dev.parkWork p).dropStale p) →
        ((d.portSt p).ctl = [] ∧ d.replays p = true ∧ (d.portSt p).nextReplay = some r) →
        exec (.belayFrameSend p) s = .next (s.on (((d.updPort p (fun x => { x with replaying := x.replaying - 1 })).putFrame p 1 (r.cells.length - 1) r.seq
            (sharedMask r.cells) (cellsBits (r.cells.map Prod.fst)) (80 * r.cells.length) 0 false).fab))) ∧
  -- BELAY_FRAME_SEND (data)
  (∀ (s : State) (p : Pid) (d e : Dev) (l : List (OutCell × Bool)),
        (s.dev.dark = false ∧ (s.dev.lnk p == lsDown) = false ∧ (s.dev.lnk p == lsParked) = false ∧ d = (s.dev.parkWork p).dropStale p) →
        ((d.portSt p).ctl = [] ∧ d.replays p = false ∧ d.mayData p = true ∧ d.takeCells p = (e, l) ∧ l.isEmpty = false) →
        exec (.belayFrameSend p) s = .next (s.on ((e.sendData p (plain l) 0).fab))) ∧
  -- send data
  (∀ (d : Dev) (p : Nat) (l : List (Cell × Bool)) (n : Nat) (e : Dev),
        e = d.wr F.PRT_LNK_SEQ_TX_NEXT p ((d.txNext p + 1) % 2 ^ 24) →
        d.sendData p l n = (e.updPort p (fun x => { x with replay := x.replay ++ [⟨d.txNext p, l, e.ps⟩], replayEnd := some (x.replayEnd.getD (e.replayStart p)) })).putFrame p 1 (l.length - 1) (d.txNext p) (sharedMask l) (cellsBits (l.map Prod.fst)) (80 * l.length) n false) ∧
  -- BELAY_FRAME_SEND (idle)
  (∀ (s : State) (p : Pid) (d : Dev),
        (s.dev.dark = false ∧ (s.dev.lnk p == lsDown) = false ∧ (s.dev.lnk p == lsParked) = false ∧ d = (s.dev.parkWork p).dropStale p) →
        ((d.portSt p).ctl = [] ∧ d.replays p = false ∧ d.mayData p = false) →
        exec (.belayFrameSend p) s = .next (s.on ((d.putFrame p 0 0 0 0 0 0 0 false).fab))) ∧
  -- put frame
  (∀ (d : Dev) (p kind sub seq shared body len holds : Nat) (stomp : Bool) (f : Frame) (e : Dev),
        f = mkFrame (frameHdr kind sub seq (d.portSt p).ackSeq (d.portSt p).xoffOut shared (d.portSt p).nakNext) body len holds stomp →
        e = (d.toLanes p f).updPort p (fun x => { x with nakNext := false, lastCtl := kind == 2 }) →
        d.putFrame p kind sub seq shared body len holds stomp = if kind = 0 then (e.ev 8 3 (some p)).ev 8 2 (some p) else e.ev 8 2 (some p)) ∧
  -- mk frame
  (∀ (hdr : BitVec 128) (body len holds : Nat),
        (mkFrame hdr body len holds false).crc = crc64 hdr body len ∧ (mkFrame hdr body len holds true).crc = ~~~(crc64 hdr body len)) ∧
  -- to lanes
  (∀ (d e : Dev) (p : Nat) (f : Frame),
        e = d.emit (.frame p f) →
        (e.txLanes p = [] → d.toLanes p f = e) ∧ (e.txLanes p ≠ [] →
            d.toLanes p f = (e.updPort p (fun x => { x with units := x.units ++ f.words })).drainUnits p (79 * (e.txLanes p).length) 4)) ∧
  -- link down
  (∀ (d : Dev) (p r : Nat) (e : Dev),
        (d.lnk p ≠ lsDown ∧ e = ((d.setLnk p lsDown).wr F.PRT_LNK_STATE_REASON p r).bumpBy F.PRT_LNK_DROP_LINKDOWN p (d.portSt p).out.length) →
        d.linkDown p r = (((((({ e with rma.lost := e.rma.lost ++ ((d.portSt p).out.filter (fun c => c.t.own)).map (fun c => (c.t, Status.LINK_DOWN)), time.nbr := Tbl.del p e.time.nbr } : Dev).setPort p {
            inb := (d.portSt p).inb, lanes := (d.portSt p).lanes, trnAt := (d.portSt p).trnAt, trainMs := (d.portSt p).trainMs, stage := (d.portSt p).stage, modAt := (d.portSt p).modAt, recalAt := (d.portSt p).recalAt, since := e.ps, exId := (d.portSt p).exId, parkId := (d.portSt p).parkId, ackSeq := (d.portSt p).ackSeq, cellAt := (d.portSt p).cellAt,
            decayAt := (d.portSt p).decayAt, txIdle := (d.portSt p).txIdle,
            exEnd := if (d.portSt p).exch.isEmpty && !(d.portSt p).ctl.any (fun e => e.1 == 4 && e.2 % 2 == 0) then (d.portSt p).exEnd else Status.LINK_DOWN,
            parkEnd := if (d.portSt p).parkReq.isNone && (d.portSt p).parkAgree.isNone then (d.portSt p).parkEnd else Status.LINK_DOWN }).reXoff p).setReg
            R.RTE_PORT_NBR p 0).setRtState p rsDown).freeHeld p).fault 16) ∧
  -- LINK_DOWN_CMD
  (∀ (s : State) (p : Pid),
        (s.dev.dark = false ∧ s.dev.lnk p ≠ lsDown) →
        exec (.linkDownCmd p) s = .next (s.on (((s.dev.sendDownFrames p 1).linkDown p 1).fab)))

/-- The timers of a Belay port act at their due time: acknowledgement, replay, frame life, credit, INIT and DISCOVER repeats,
limits and decay (R365, R368, R369, R375, R378, R379, R383, R385, R387). Where the model chose behind these rules: log
entries 3, 5, 6 (notes/assumptions). -/
def Obligations.BelayTimers : Prop :=
  -- BELAY_ACK_TIMER
  (∀ (s : State) (p : Pid) (t : Nat),
        (s.dev.dark = false ∧ (s.dev.portSt p).ackAt = some t) →
        exec (.belayAckTimer p) s = .next (s.on (((s.dev.advanceTo (t + nsPs (s.dev.ackTimer p))).ackEvent p).fab))) ∧
  -- ack event
  (∀ (d : Dev) (p : Nat),
        (d.ackEvent p).portSt p = { d.portSt p with ackSeq := (d.nextRx p + 0xFFFFFF) % 2 ^ 24, accepted := 0, ackAt := none }) ∧
  -- nak event
  (∀ (d : Dev) (p : Nat),
        (d.portSt p).nakRaised = false →
        d.nakEvent p = (d.ackEvent p).updPort p (fun x => { x with nakNext := true, nakRaised := true })) ∧
  -- BELAY_REPLAY_TIMEOUT
  (∀ (s : State) (p : Pid) (t : Nat × Nat) (d : Dev),
        (s.dev.dark = false ∧ (s.dev.portSt p).replayEnd = some t ∧ (s.dev.portSt p).replay.isEmpty = false) →
        d = s.dev.advanceTo (s.dev.replayDue p t) →
        exec (.belayReplayTimeout p) s = .next (s.on ((((d.bump F.PRT_LNK_ERRCNT_REPLAY p).linkError p).startReplay p).fab))) ∧
  -- replay due
  (∀ (d : Dev) (p : Nat),
        d.replayDue p (d.replayStart p) = d.ps + nsPs (max (d.rd F.PRT_LNK_CFG_REPLAY_NS p) (d.rd F.PRT_LNK_RTT_RTT_NS p + d.ackTimer p + 200))) ∧
  -- start replay
  (∀ (d : Dev) (p : Nat) (r : RepFrame) (l : List RepFrame),
        (d.portSt p).replay = r :: l →
        (d.startReplay p).portSt p = { d.portSt p with replaying := (d.portSt p).replay.length, replayEnd := some (d.replayStart p), replayFrom := some (r.seq, d.ps) }) ∧
  -- BELAY_FRAME_LIFE
  (∀ (s : State) (p : Pid) (r : RepFrame) (l : List RepFrame),
        (s.dev.dark = false ∧ (s.dev.portSt p).replay = r :: l) →
        exec (.belayFrameLife p) s = .next (s.on (((s.dev.advanceTo (r.firstTx + usPs (s.dev.frameLife p))).linkDown p 3).fab))) ∧
  -- BELAY_CREDIT_TIMER
  (∀ (s : State) (p : Pid) (t : Nat),
        (s.dev.running p = true ∧ (s.dev.portSt p).freedAt = some t ∧ ¬ 8 ≤ (s.dev.portSt p).freed) →
        exec (.belayCreditTimer p) s = .next (s.on (((s.dev.advanceTo (min ((s.dev.portSt p).creditAt + usPs 1) (t + nsPs (clampTo 10 1000 (s.dev.rd F.PRT_LNK_CFG_CREDIT_NS p))))).sendCredit p).fab))) ∧
  -- BELAY_INIT_REPEAT
  (∀ (s : State) (p : Pid) (d : Dev),
        (s.dev.dark = false ∧ (s.dev.lnk p != lsInit) = false ∧ d = s.dev.advanceTo ((s.dev.portSt p).discAt + usPs 1)) →
        exec (.belayInitRepeat p) s = .next (s.on (((d.sendInit p).updPort p (fun x => { x with discAt := d.ps })).fab))) ∧
  -- BELAY_DISCOVER_REPEAT
  (∀ (s : State) (p : Pid),
        (s.dev.dark = false ∧ s.dev.rtState p ≠ rsDown ∧ s.dev.lnk p ≠ lsParked) →
        exec (.belayDiscoverRepeat p) s = .next (s.on (((s.dev.advanceTo ((s.dev.portSt p).discAt + usPs 100)).sendDiscover p).fab))) ∧
  -- BELAY_LOCK_TIMEOUT
  (∀ (s : State) (p : Pid),
        (s.dev.dark = false ∧ (s.dev.lnk p != lsLock) = false) →
        exec (.belayLockTimeout p) s = .next (s.on (((s.dev.advanceTo ((s.dev.portSt p).since + usPs 20)).linkDown p 4).fab))) ∧
  -- BELAY_INIT_TIMEOUT
  (∀ (s : State) (p : Pid),
        (s.dev.dark = false ∧ (s.dev.lnk p != lsInit) = false) →
        exec (.belayInitTimeout p) s = .next (s.on (((s.dev.advanceTo ((s.dev.portSt p).since + msPs 1)).linkDown p 7).fab))) ∧
  -- BELAY_RELOCK_TIMEOUT
  (∀ (s : State) (p : Pid),
        (s.dev.dark = false ∧ (s.dev.lnk p != lsRelock) = false) →
        exec (.belayRelockTimeout p) s = .next (s.on ((((s.dev.advanceTo ((s.dev.portSt p).since + usPs 2)).linkDown p 11).enterDetect p).fab))) ∧
  -- BELAY_FRAMING_LOSS
  (∀ (s : State) (p : Pid),
        (s.dev.dark = false ∧ s.dev.running p = true) →
        exec (.belayFramingLoss p) s = .next (s.on (((s.dev.advanceTo ((s.dev.portSt p).lastGood + usPs 1)).linkDown p 4).fab))) ∧
  -- BELAY_ERR_DECAY
  (∀ (s : State) (p : Pid) (d e : Dev),
        (s.dev.dark = false ∧ d = s.dev.advanceTo ((s.dev.portSt p).decayAt + usPs (max 1 (s.dev.rd F.PRT_LNK_ERR_ERR_DECAY_US p)))) →
        e = (d.wr F.PRT_LNK_STATE_LEVEL p (d.rd F.PRT_LNK_STATE_LEVEL p - 1)).updPort p (fun x => { x with decayAt := (d.wr F.PRT_LNK_STATE_LEVEL p (d.rd F.PRT_LNK_STATE_LEVEL p - 1)).ps }) →
        exec (.belayErrDecay p) s = .next (s.on (Dev.fab (if e.lnk p = lsDegraded && !e.flag F.PRT_LNK_ERR_RETRAIN_EN p && e.rd F.PRT_LNK_STATE_LEVEL p = 0 then ((e.setLnk p lsUp).fault 15).sendCredit p else e)))) ∧
  -- BELAY_DEGRADED_RETRAIN
  (∀ (s : State) (p : Pid) (d : Dev),
        (s.dev.dark = false ∧ (s.dev.lnk p != lsDegraded) = false ∧ s.dev.flag F.PRT_LNK_ERR_RETRAIN_EN p = true) →
        d = (if (s.dev.portSt p).out.any OutCell.deg then s.dev.advanceTo ((s.dev.portSt p).since + usPs 10) else s.dev) →
        exec (.belayDegradedRetrain p) s = .next (s.on ((((d.sendDownFrames p 2).linkDown p 2).enterDetect p).fab))) ∧
  -- BELAY_CREDIT_AUDIT
  (∀ (s : State) (p : Pid),
        (s.dev.dark = false ∧ s.dev.lnk p ≠ lsDown ∧ s.dev.lnk p ≠ lsLock ∧ s.dev.lnk p ≠ lsInit) →
        (List.range 16).any (fun v => (s.dev.portSt p).dedHeld v + ((s.dev.portSt p).limOut v + 65536 - (s.dev.portSt p).gotOf v) % 65536 != dedCells || (s.dev.portSt p).peerDed < ((s.dev.portSt p).limIn v + 65536 - (s.dev.portSt p).usedOf v) % 65536) = true →
        exec (.belayCreditAudit p) s = .next (s.on ((s.dev.fault 9).fab)))

/-- Lanes: enable, disable, retrain, recalibrate, each stage of training and its limits, lane loss, symbol errors; modules come,
go, alarm (R396, R398, R401, R402, R404, R409, R410, R411). Where the model chose behind these rules: log entries 1, 3, 5, 6
(notes/assumptions). -/
def Obligations.LanesAndModules : Prop :=
  -- LANE_EN_SET
  (∀ (s : State) (p : Pid) (d : Dev),
        d = s.dev.wr F.PRT_LANE_CFG_EN p 1 →
        exec (.laneEnSet p) s = .next (s.on (((d.updPort p (fun x => { x with modAt := s.dev.ps })).tryTrain p).fab))) ∧
  -- try train
  (∀ (d : Dev) (p : Nat),
        (d.trn p = tsOff ∧ d.flag F.PRT_LANE_CFG_EN p = true ∧ d.moduleOk p = true ∧ d.dark = false) →
        d.tryTrain p = d.enterDetect p) ∧
  -- LANE_EN_CLEAR
  (∀ (s : State) (p : Pid),
        exec (.laneEnClear p) s = .next (s.on ((((s.dev.wr F.PRT_LANE_CFG_EN p 0).linkDownCmd p).laneOff p).fab))) ∧
  -- lane off
  (∀ (d : Dev) (p : Nat),
        d.laneOff p = ((d.setTrn p tsOff).updPort p (fun x => { x with trained := false })).clearLanes p true) ∧
  -- clear lanes
  (∀ (d : Dev) (p : Nat) (ser : Bool),
        d.clearLanes p ser = lanes4.foldl (fun d l =>
            (if ser || d.laneFault p l != 5 then d.setLaneFault p l 0 else d).wr F.PRT_LANE_STAT_ACTIVE (laneIx p l) 0) d) ∧
  -- LANE_RETRAIN
  (∀ (s : State) (p : Pid),
        (s.dev.dark = false ∧ s.dev.trn p ≠ tsOff) →
        exec (.laneRetrain p) s = .next (s.on (((s.dev.linkDownCmd p).enterDetect p).fab))) ∧
  -- LANE_RECAL
  (∀ (s : State) (p : Pid) (cal : CalIn),
        s.dev.dark = false →
        exec (.laneRecal p cal) s = .next (s.on ((lanes4.foldl (fun d l => d.calLane p l (d.trn p = tsTrained || !cal.quiet) (cal.failed.getLsbD l)) s.dev).fab))) ∧
  -- cal lane
  (∀ (d : Dev) (p l : Nat),
        (∀ f, d.calLane p l true f = d.wr F.PRT_LANE_STAT_CAL_STATUS (laneIx p l) Status.CAL_INPUT_BUSY) ∧
          d.calLane p l false true = (d.wr F.PRT_LANE_STAT_CAL_STATUS (laneIx p l) 0).markRx p l 6 ∧
          d.calLane p l false false = (d.wr F.PRT_LANE_STAT_CAL_STATUS (laneIx p l) 0).updLane p l (fun x => { x with hasCal := true })) ∧
  -- mark rx
  (∀ (d : Dev) (p l v : Nat),
        d.rxBad p l = false →
        d.markRx p l v = d.setLaneFault p l v) ∧
  -- TRAIN_DETECT_DONE
  (∀ (s : State) (p : Pid) (a b c e : BitVec 4),
        (s.dev.trn p != tsDetect) = false →
        exec (.trainDetectDone p a b c e) s = .next (s.on (((lanes4.foldl (fun d l =>
            (d.markRx p l (if (if b.getLsbD l then 2 else if a.getLsbD l then 1 else 0) = 0 then (if e.getLsbD l then 2 else if c.getLsbD l then 1 else 0)
              else (if b.getLsbD l then 2 else if a.getLsbD l then 1 else 0))).updLane p l
              (fun x => { x with txFault := if e.getLsbD l then 2 else if c.getLsbD l then 1 else 0
                                 rxMark := (if b.getLsbD l then 2 else if a.getLsbD l then 1 else 0) != 0 })) s.dev).setTrn p tsCal).fab))) ∧
  -- TRAIN_CAL_DONE
  (∀ (s : State) (p : Pid) (busy failed : BitVec 4),
        (s.dev.trn p != tsCal) = false →
        exec (.trainCalDone p busy failed) s = .next (s.on ((s.dev.calibrated p busy failed).fab))) ∧
  -- TRAIN_FRAME_RX
  (∀ (s : State) (p : Pid) (l : Fin 4) (inv : Bool) (rx : TrainRx) (crc : BitVec 16) (ctl : BitVec 112) (c : Nat),
        (s.dev.trn p != tsTrain) = false →
        (crc ++ ctl).toNat = c →
        (trainCrcOk c = true → exec (.trainFrameRx p l inv crc rx ctl) s = .next (s.on ((((s.dev.frameHeard p l inv rx.met c).settleMode p c).trainDone p c
            { rx with energy := rx.energy ||| 1#4 <<< l.val, clock := rx.clock ||| 1#4 <<< l.val }).fab))) ∧
          (trainCrcOk c = false → exec (.trainFrameRx p l inv crc rx ctl) s = .next (s.on s.dev.fab))) ∧
  -- settle mode
  (∀ (d : Dev) (p c : Nat),
        ((d.portSt p).modeSet = false ∧ d.capOf p &&& bitsOf c 4 2 = 0) →
        d.settleMode p c = d) ∧
  -- frame heard
  (∀ (d : Dev) (p l c : Nat) (inv met : Bool) (e : Dev),
        e = (d.wr F.PRT_LANE_STAT_LOGICAL (laneIx p l) (bitsOf c 0 2)).wr F.PRT_LANE_STAT_POL_INV (laneIx p l) (if inv then 1 else 0) →
        d.frameHeard p l inv met c = e.updLane p l (fun x => { x with heard := true, cap := bitsOf c 4 2, stage := bitsOf c 6 2, usable := bitsOf c 8 4, spareOk := bitsOf c 17 1 == 1, peerReady := bitsOf c 16 1 == 1, ready := met, pre := tapStep x.pre (bitsOf c 12 2), post := tapStep x.post (bitsOf c 14 2) })) ∧
  -- train done
  (∀ (d : Dev) (p c rx tx : Nat) (e : Dev) (r : TrainRx),
        e = (if bitsOf c 6 2 = 2 then d.updPort p (fun x => { x with doneSeen := true }) else d).sendTraining p →
        (e.resolve p = none → d.trainDone p c r = e) ∧
          (e.resolve p = some (rx, tx) → d.trainDone p c r = if (e.portSt p).stage = 2 && (e.portSt p).doneSeen then
            (((List.range (16 - (e.portSt p).doneSent)).foldl (fun d _ => d.sendTraining p) e).markUnheard p r.energy r.clock).enterAlign p rx tx else e)) ∧
  -- enter align
  (∀ (d : Dev) (p rx tx : Nat) (e : Dev),
        e = (lanes4.foldl (fun d l => d.wr F.PRT_LANE_STAT_ACTIVE (laneIx p l)
            (if ((d.portSt p).lane l).heard && !d.rxBad p l && ((d.portSt p).lane l).ready then rx / 2 ^ d.rd F.PRT_LANE_STAT_LOGICAL (laneIx p l) % 2 else 0)) (((d.setTrn p tsAlign).wr F.PRT_TRN_STAT_RX_MAP p rx).wr F.PRT_TRN_STAT_TX_MAP p tx)).startPath p →
        d.enterAlign p rx tx = if rx != 15 || tx != 15 then e.fault 18 else e) ∧
  -- TRAIN_TIMEOUT
  (∀ (s : State) (p : Pid) (energy clock : BitVec 4),
        (s.dev.trn p != tsTrain) = false →
        exec (.trainTimeout p energy clock) s = .next (s.on ((((s.dev.advanceTo ((s.dev.portSt p).trnAt + msPs (s.dev.portSt p).trainMs)).markUnheard p energy clock).trainOver p (s.dev.portSt p)).fab))) ∧
  -- mark unheard
  (∀ (d : Dev) (p : Nat) (energy clock : BitVec 4),
        d.markUnheard p energy clock = lanes4.foldl (fun d l =>
            if !energy.getLsbD l then d.markRx p l 3 else if !clock.getLsbD l then d.markRx p l 4 else d) d) ∧
  -- TRAIN_ALIGN_DONE
  (∀ (s : State) (p : Pid),
        (s.dev.trn p != tsAlign) = false →
        exec (.trainAlignDone p) s = .next (s.on ((((s.dev.setTrn p tsTrained).updPort p (fun x => { x with trained := true })).tryLock p).fab))) ∧
  -- TRAIN_ALIGN_TIMEOUT
  (∀ (s : State) (p : Pid),
        (s.dev.trn p != tsAlign) = false →
        exec (.trainAlignTimeout p) s = .next (s.on (((s.dev.advanceTo ((s.dev.portSt p).trnAt + msPs 1)).trainFail p 4).fab))) ∧
  -- train fail
  (∀ (d : Dev) (p r : Nat),
        d.trainFail p r = ((d.setTrn p tsFailed).wr F.PRT_TRN_STAT_FAIL_REASON p r).fault 17) ∧
  -- TRAIN_RETRY
  (∀ (s : State) (p : Pid) (d : Dev),
        ((s.dev.trn p != tsFailed) = false ∧ s.dev.flag F.PRT_LANE_CFG_AUTO_RETRY p = true) →
        (d = s.dev.advanceTo ((s.dev.portSt p).trnAt + msPs (max 1 (s.dev.rd F.PRT_LANE_CFG_RETRY_MS p))) ∧ d.rd F.PRT_TRN_STAT_FAIL_REASON p ≠ 5) →
        exec (.trainRetry p) s = .next (s.on ((d.enterDetect p).fab))) ∧
  -- LANE_LOSS
  (∀ (s : State) (p : Pid) (ls : BitVec 4) (why : Fin 3),
        ((s.dev.trn p != tsTrained) = false ∧ lanes4.any (fun l => ls.getLsbD l && s.dev.flag F.PRT_LANE_STAT_ACTIVE (laneIx p l)) = true) →
        exec (.laneLoss p ls why) s = .next (s.on ((lanes4.foldl (fun d l => if ls.getLsbD l && why.val < 2 then d.setLaneFault p l (3 + why.val) else d) ((s.dev.linkDown p 6).enterDetect p)).fab))) ∧
  -- SER_WINDOW (three)
  (∀ (s : State) (p : Pid) (l : Fin 4) (ser : BitVec 24) (symbols : Nat) (d e : Dev),
        ((s.dev.trn p != tsTrained) = false ∧ symbols < ser.toNat * 10000 ∧ d = s.dev.wr F.PRT_LANE_STAT_SER (laneIx p l) (min ser.toNat (2 ^ 24 - 1))) →
        (((d.portSt p).lane l).hits = 2 ∧ e = d.updLane p l (fun x => { x with hits := 3 }) ∧ e.rxBad p l = false) →
        exec (.serWindow p l ser symbols) s = .next (s.on (((e.setLaneFault p l 5).fault 19).fab))) ∧
  -- MOD_INSERT
  (∀ (s : State) (p : Pid) (cmis : BitVec 8) (d : Dev),
        d = ((s.dev.wr F.PRT_MOD_STAT_PRESENT p 1).wr F.PRT_MOD_STAT_READY p 0).wr F.PRT_MOD_STAT_CMIS_STATE p cmis.toNat →
        exec (.modInsert p cmis) s = .next (s.on (((d.updPort p (fun x => { x with modAt := s.dev.ps })).modStart p).fab))) ∧
  -- MOD_READY
  (∀ (s : State) (p : Pid) (cmis : BitVec 8),
        s.dev.flag F.PRT_MOD_STAT_PRESENT p = true →
        exec (.modReady p cmis) s = .next (s.on (((((s.dev.setMod p { (s.dev.modSt p) with path := 2 }).wr F.PRT_MOD_STAT_READY p 1).wr F.PRT_MOD_STAT_CMIS_STATE p cmis.toNat).tryTrain p).fab))) ∧
  -- MOD_READY_TIMEOUT
  (∀ (s : State) (p : Pid) (r : Bool),
        ((s.dev.trn p != tsOff) = false ∧ s.dev.flag F.PRT_LANE_CFG_EN p = true ∧ s.dev.moduleOk p = false ∧ s.dev.flag F.PRT_MOD_STAT_PRESENT p = true) →
        exec (.modReadyTimeout p r) s = .next (s.on (((if r then s.dev else s.dev.advanceTo ((s.dev.portSt p).modAt + msPs 2000)).trainFail p 5).fab))) ∧
  -- MOD_REMOVE
  (∀ (s : State) (p : Pid),
        exec (.modRemove p) s = .next (s.on ((((((((s.dev.wr F.PRT_MOD_STAT_PRESENT p 0).wr F.PRT_MOD_STAT_READY p 0).wr F.PRT_MOD_STAT_ALARM p 0).setMod p {}).linkDown p 6).laneOff p).fault 20).fab))) ∧
  -- MOD_ALARM
  (∀ (s : State) (p : Pid) (d : Dev),
        d = (s.dev.wr F.PRT_MOD_STAT_ALARM p 1).fault 20 →
        (d.rd F.BCP_FW_STAT_STATE = 3 → exec (.modAlarm p) s = .next (s.on (Dev.fab { d with bcp.alarms := d.bcp.alarms ++ [p.val] }))) ∧
          (d.rd F.BCP_FW_STAT_STATE ≠ 3 → d.flag F.PRT_MOD_CFG_ALARM_ACT p = false → exec (.modAlarm p) s = .next (s.on d.fab)) ∧
          (d.rd F.BCP_FW_STAT_STATE ≠ 3 → d.flag F.PRT_MOD_CFG_ALARM_ACT p = true →
            exec (.modAlarm p) s = .next (s.on ((((d.linkDownCmd p).laneOff p).modLow p).fab))))

/-- Parking: request, answer, crossing requests, withdrawal, entry to PARKED, wake by router or signal, relock and recalibration
while parked (R382, R405, R406, R407, R408, R525). Where the model chose behind these rules: log entries 3, 5, 6
(notes/assumptions). -/
def Obligations.PortParking : Prop :=
  -- PORT_PARK_REQUEST
  (∀ (s : State) (p : Pid) (d : Dev) (id : Nat),
        (s.dev.mayPark p = true ∧ s.dev.halted = false ∧ (s.dev.portSt p).parkReq = none ∧ (s.dev.portSt p).parkAgree = none) →
        (d = s.dev.advanceTo ((s.dev.portSt p).cellAt + usPs (max 1 (s.dev.rd F.PRT_PARK_CFG_IDLE_US p))) ∧ id = ((s.dev.portSt p).parkId + 1) % 256) →
        exec (.portParkRequest p) s = .next (s.on (((d.updPort p (fun x => { x with parkId := id, parkReq := some (id, d.ps), parkEnd := 0 })).queuePark p 1 id).fab))) ∧
  -- may park
  (∀ (d : Dev) (p : Nat),
        d.mayPark p = true →
        d.flag F.PRT_PARK_CFG_EN p = true ∧ d.trn p = tsTrained ∧ d.lnk p = lsUp ∧ (d.portSt p).replay = [] ∧ (d.portSt p).out = [] ∧
            (d.portSt p).ackAt = none ∧ d.rd F.TIME_STAT_PARENT ≠ p ∧
            d.rd F.PWR_POLICY_MIN_PORTS ≤ (allPorts.filter (fun q => q != p && (d.lnk q == lsUp || d.lnk q == lsDegraded) &&
              (d.portSt q).parkReq.isNone && (d.portSt q).parkAgree.isNone)).length) ∧
  -- queue park
  (∀ (d : Dev) (p op id : Nat),
        (d.queuePark p op id).portSt p = { d.portSt p with ctl := (d.portSt p).ctl ++ [(5, op + id % 256 * 2 ^ 8)] }) ∧
  -- PARK_REQUEST_RX (agree)
  (∀ (s : State) (p : Pid) (fr : CtlFrame) (d : Dev) (id : Nat),
        (s.dev.frameIn p fr.hdr fr.verdict = (d, true) ∧ d.running p = true ∧ (d.portSt p).parkReq = none) →
        (d.mayPark p = true ∧ d.halted = false ∧ id = bitsOf fr.body.toNat 8 8) →
        exec (.parkRequestRx p fr) s = .next (s.on (((d.updPort p (fun x => { x with parkAgree := some (id, d.ps) })).queuePark p 2 id).fab))) ∧
  -- PARK_REQUEST_RX (refuse)
  (∀ (s : State) (p : Pid) (fr : CtlFrame) (d : Dev),
        (s.dev.frameIn p fr.hdr fr.verdict = (d, true) ∧ d.running p = true ∧ (d.portSt p).parkReq = none ∧ d.mayPark p = false) →
        exec (.parkRequestRx p fr) s = .next (s.on ((d.queuePark p 3 (bitsOf fr.body.toNat 8 8)).fab))) ∧
  -- PARK_REQUEST_RX (crossing)
  (∀ (s : State) (p : Pid) (fr : CtlFrame) (d : Dev),
        (s.dev.frameIn p fr.hdr fr.verdict = (d, true) ∧ d.running p = true ∧ (d.portSt p).parkReq.isSome = true ∧ d.greater p = true) →
        exec (.parkRequestRx p fr) s = .next (s.on ((d.queuePark p 3 (bitsOf fr.body.toNat 8 8)).fab))) ∧
  -- PARK_AGREE_RX
  (∀ (s : State) (p : Pid) (fr : CtlFrame) (d e : Dev) (id t : Nat),
        (s.dev.frameIn p fr.hdr fr.verdict = (d, true) ∧ d.parkWork p = e) →
        ((e.portSt p).parkReq = some (id, t) ∧ e.lnk p = lsUp ∧ bitsOf fr.body.toNat 8 8 = id) →
        (e.rd F.PWR_POLICY_MIN_PORTS ≤ e.stayUp p → exec (.parkAgreeRx p fr) s = .next (s.on ((e.enterParked p).fab))) ∧
          (¬ e.rd F.PWR_POLICY_MIN_PORTS ≤ e.stayUp p → exec (.parkAgreeRx p fr) s = .next (s.on ((e.parkWithdraw p).fab)))) ∧
  -- PARK_REFUSE_RX
  (∀ (s : State) (p : Pid) (fr : CtlFrame) (d : Dev) (id t : Nat),
        (s.dev.frameIn p fr.hdr fr.verdict = (d, true) ∧ (d.portSt p).parkReq = some (id, t) ∧ bitsOf fr.body.toNat 8 8 = id) →
        exec (.parkRefuseRx p fr) s = .next (s.on ((d.updPort p (fun x => { x with parkReq := none })).fab))) ∧
  -- PARK_WAKE_RX
  (∀ (s : State) (p : Pid) (fr : CtlFrame) (d : Dev) (id t : Nat),
        (s.dev.frameIn p fr.hdr fr.verdict = (d, true) ∧ (d.portSt p).parkAgree = some (id, t) ∧ bitsOf fr.body.toNat 8 8 = id) →
        exec (.parkWakeRx p fr) s = .next (s.on ((d.updPort p (fun x => { x with parkAgree := none })).fab))) ∧
  -- PARK_TIMEOUT (request)
  (∀ (s : State) (p : Pid) (id t : Nat) (d : Dev),
        ((s.dev.portSt p).parkReq = some (id, t) ∧ (s.dev.portSt p).out.isEmpty = true) →
        d = s.dev.advanceTo (t + usPs 2) →
        exec (.parkTimeout p) s = .next (s.on ((d.parkWithdraw p).fab))) ∧
  -- PARK_TIMEOUT (agree)
  (∀ (s : State) (p : Pid) (id t : Nat) (d : Dev),
        ((s.dev.portSt p).parkReq = none ∧ (s.dev.portSt p).parkAgree = some (id, t)) →
        d = s.dev.advanceTo (t + usPs 2) →
        exec (.parkTimeout p) s = .next (s.on (((d.updPort p (fun x => { x with parkAgree := none })).ev 8 10 (some p)).fab))) ∧
  -- PARK_SIGNAL_LOST
  (∀ (s : State) (p : Pid) (id t : Nat),
        ((s.dev.portSt p).parkAgree = some (id, t) ∧ s.dev.lnk p = lsUp ∧ s.dev.ps ≤ t + usPs 2) →
        exec (.parkSignalLost p) s = .next (s.on ((s.dev.enterParked p).fab))) ∧
  -- enter parked
  (∀ (d : Dev) (p : Nat) (e f : Dev),
        (e = (((d.setLnk p lsParked).setTrn p tsParked).updPort p (fun x => { x with txIdle := true })).emit (.txIdle p true) ∧ f = (if e.rtState p = rsUp then e.setRtState p rsParked else e)) →
        d.enterParked p = (f.updPort p (fun x => { x with parkReq := none, parkAgree := none, recalAt := f.ps })).ev 8 8 (some p)) ∧
  -- PORT_WAKE
  (∀ (s : State) (p : Pid),
        (s.dev.lnk p = lsParked ∧ s.dev.dark = false ∧ (s.dev.portSt p).waking = false ∧ (s.dev.portSt p).wakeWant = true) →
        exec (.portWake p) s = .next (s.on (((s.dev.setIdle p false).updPort p (fun x => { x with waking := true })).fab))) ∧
  -- PARK_SIGNAL_DETECT
  (∀ (s : State) (p : Pid),
        (s.dev.lnk p = lsParked ∧ s.dev.dark = false ∧ (s.dev.portSt p).waking = false) →
        exec (.parkSignalDetect p) s = .next (s.on (((s.dev.setIdle p false).updPort p (fun x => { x with waking := true })).fab))) ∧
  -- PARK_RELOCK_DONE
  (∀ (s : State) (p : Pid),
        (s.dev.lnk p = lsParked ∧ (s.dev.portSt p).waking = true) →
        exec (.parkRelockDone p true) s = .next (s.on (((s.dev.setLnk p lsRelock).startPath p).fab)) ∧
          exec (.parkRelockDone p false) s = .next (s.on (((s.dev.linkDown p 11).enterDetect p).fab))) ∧
  -- PARKED_RECAL
  (∀ (s : State) (p : Pid) (cal : CalIn) (d : Dev),
        (s.dev.trn p = tsParked ∧ s.dev.flag F.PRT_PARK_CFG_RECAL_PARKED p = true ∧ (s.dev.portSt p).waking = false) →
        d = lanes4.foldl (fun d l => d.calLane p l (!cal.quiet) (cal.failed.getLsbD l)) (s.dev.advanceTo ((s.dev.portSt p).recalAt + msPs 100)) →
        exec (.parkedRecal p cal) s = .next (s.on ((d.updPort p (fun x => { x with recalAt := d.ps })).fab)))

/-- Rope: a packet is delivered, forwarded once less its TTL, or discarded; HELLO tells the neighbour, FAULT and MGMT reach
Basecamp; alignment (R412, R414, R415, R416, R417). Where the model chose behind these rules: log entries 3, 6, 13, 14
(notes/assumptions). -/
def Obligations.RopeRing : Prop :=
  -- rope in (for me)
  (∀ (d : Dev) (r kind : Nat) (k : RopeFrame),
        (d.ropeUp r = true ∧ d.flag F.RTE_ID_ASSIGNED = true ∧ k.dst.getLsbD 31 = false ∧ bitsOf k.dst.toNat 0 18 = d.myDev) →
        (k.src.getLsbD 18 = false ∧ k.abort = false) →
        k.crc.toNat = crc32 (rxPkt k kind).raw →
        d.ropeIn r kind k = (d, true)) ∧
  -- rope in (forward)
  (∀ (d : Dev) (r kind : Nat) (k : RopeFrame),
        (d.ropeUp r = true ∧ d.flag F.RTE_ID_ASSIGNED = true ∧ k.dst.getLsbD 31 = false ∧ bitsOf k.dst.toNat 0 18 ≠ d.myDev) →
        (k.src.getLsbD 18 = false ∧ 1 < k.ttl.toNat ∧ k.abort = false) →
        k.crc.toNat = crc32 (rxPkt k kind).raw →
        d.ropeIn r kind k = (d.ropeSend (1 - r) ⟨kind, k.ttl.toNat - 1, k.src.toNat, k.dst.toNat, k.len, k.body⟩, false)) ∧
  -- rope in (bad crc)
  (∀ (d : Dev) (r kind : Nat) (k : RopeFrame),
        (d.ropeUp r = true ∧ k.abort = false ∧ (k.crc.toNat != crc32 (rxPkt k kind).raw) = true) →
        d.ropeIn r kind k = (d.bump F.ROPE_PORT_STAT_CRC_ERR r, false)) ∧
  -- rope in (down)
  (∀ (d : Dev) (r kind : Nat) (k : RopeFrame),
        d.ropeUp r = false →
        d.ropeIn r kind k = (d, false)) ∧
  -- rope send
  (∀ (d : Dev) (r : Nat) (k : RopePkt),
        (getBits (d.reg R.ROPE_CFG) r 1 ≠ 0 ∧ (d.rd F.ROPE_PORT_STAT_STATE r != 2) = false ∧ d.ropePower = true) →
        (8 ≤ (d.ropeSt r).q.length → d.ropeSend r k = d.bump F.ROPE_PORT_STAT_DROPS r) ∧
          ((d.ropeSt r).q.length < 8 → d.ropeSend r k = d.updRope r (fun x => { x with q := x.q ++ [k] }))) ∧
  -- ROPE_HELLO_RX (good)
  (∀ (s : State) (r : Fin 2) (k : RopeFrame) (d : Dev),
        (s.dev.ropeIn r 1 k = (d, true) ∧ bitsOf k.body 16 1 ≠ r) →
        exec (.ropeHelloRx r k) s = .next (s.on ((d.ropeNbr r k).wr F.ROPE_PORT_STAT_SWAPPED r 0))) ∧
  -- ROPE_HELLO_RX (swapped)
  (∀ (s : State) (r : Fin 2) (k : RopeFrame) (d : Dev),
        (s.dev.ropeIn r 1 k = (d, true) ∧ bitsOf k.body 16 1 = r) →
        exec (.ropeHelloRx r k) s = .next (s.on (((d.ropeNbr r k).wr F.ROPE_PORT_STAT_SWAPPED r 1).fault 21))) ∧
  -- rope nbr
  (∀ (d : Dev) (r : Nat) (k : RopeFrame),
        d.ropeNbr r k = (((((d.wr F.ROPE_PORT_NBR_DEV_ID r k.src.toNat).wr F.ROPE_PORT_NBR_ASSIGNED r (bitsOf k.src.toNat 18 1)).wr F.ROPE_PORT_NBR_SYSTEM_ID r k.body).wr F.ROPE_PORT_NBR_PORT r (k.body / 2 ^ 16)).wr F.ROPE_PORT_NBR_POSITION r (k.body / 2 ^ 17))) ∧
  -- ROPE_FAULT_RX
  (∀ (s : State) (r : Fin 2) (k : RopeFrame) (d : Dev),
        s.dev.ropeIn r 3 k = (d, true) →
        exec (.ropeFaultRx r k) s = .next (s.on (d.fault 22))) ∧
  -- ROPE_MGMT_RX
  (∀ (s : State) (r : Fin 2) (k : RopeFrame) (d : Dev),
        s.dev.ropeIn r 4 k = (d, true) →
        exec (.ropeMgmtRx r k) s = .next (s.on (Dev.mgmtAnswer { d with bcp.ropeIn := d.bcp.ropeIn ++ [(k.src.toNat, k.body)] } r k))) ∧
  -- ROPE_PACKET_DISCARD
  (∀ (s : State) (r : Fin 2),
        s.dev.ropeUp r = true →
        exec (.ropePacketDiscard r) s = .next (s.on (s.dev.bump F.ROPE_PORT_STAT_CRC_ERR r))) ∧
  -- ROPE_HELLO_TIMER
  (∀ (s : State) (d : Dev),
        (s.dev.ropePower = true ∧ d = { s.dev.advanceTo (s.dev.time.helloAt + usPs 100) with time.helloAt := (s.dev.advanceTo (s.dev.time.helloAt + usPs 100)).ps }) →
        exec .ropeHelloTimer s = .next (s.on ([0, 1].foldl (fun d r =>
              d.ropeSend r ⟨1, 1, d.ropeSrc, 2 ^ 31, 6, d.rd F.RTE_ID_SYSTEM_ID + r * 2 ^ 16 + d.rd F.ROPE_CFG_POSITION * 2 ^ 17⟩) d))) ∧
  -- ROPE_FAULT_REPEAT
  (∀ (s : State),
        s.dev.ropePower = true →
        (s.dev.pwr.state = .safe → exec .ropeFaultRepeat s = .next (s.on ((s.dev.advanceTo (s.dev.flt.faultAt + usPs 10)).ropeFault 1))) ∧
          (s.dev.pwr.state = .whiteout → exec .ropeFaultRepeat s = .next (s.on ((s.dev.advanceTo (s.dev.flt.faultAt + usPs 10)).ropeFault 2)))) ∧
  -- ROPE_FAULT_REPEAT (dark)
  (∀ (s : State),
        s.dev.ropePower = false →
        exec .ropeFaultRepeat s = .next s) ∧
  -- ROPE_ALIGN_RX (good)
  (∀ (s : State) (r : Fin 2) (l0 l1 : BitVec 24) (skew inv : Nat) (sw : Bool) (d : Dev),
        (s.dev.ropePower = true ∧ getBits (s.dev.reg R.ROPE_CFG) r 1 ≠ 0 ∧ alignGood l0 l1 skew = some (inv, sw)) →
        d = (((s.dev.updRope r (fun x => { x with heardAt := s.dev.ps })).wr F.ROPE_PORT_STAT_POL_INV r inv).wr F.ROPE_PORT_STAT_LANES_SWAPPED r (if sw then 1 else 0)).updRope r (fun x => { x with good := min 4 (x.good + 1) }) →
        d.rd F.ROPE_PORT_STAT_STATE r ≠ 2 →
        exec (.ropeAlignRx r l0 l1 skew) s = .next (s.on (d.wr F.ROPE_PORT_STAT_STATE r (if (d.ropeSt r).good = 4 then 2 else 1)))) ∧
  -- ROPE_ALIGN_RX (bad)
  (∀ (s : State) (r : Fin 2) (l0 l1 : BitVec 24) (skew : Nat),
        (s.dev.ropePower = true ∧ getBits (s.dev.reg R.ROPE_CFG) r 1 ≠ 0 ∧ alignGood l0 l1 skew = none) →
        exec (.ropeAlignRx r l0 l1 skew) s = .next (s.on ((s.dev.updRope r (fun x => { x with heardAt := s.dev.ps })).updRope r (fun x => { x with good := 0 })))) ∧
  -- rope align (sets)
  (∀ (skew : Nat),
        skew ≤ 16 →
        alignGood 0xB560B5 0xB561B5 skew = some (0, false) ∧ alignGood 0xB561B5 0xB560B5 skew = some (0, true) ∧
          alignGood 0x4A604A 0xB561B5 skew = some (1, false) ∧ alignGood 0xB560B5 0xB560B5 skew = none) ∧
  -- ROPE_ALIGN_TIMEOUT
  (∀ (s : State) (l : RopeLoss),
        exec (.ropeAlignTimeout l) s = .next (s.on (match l.errs with
            | none => (s.dev.advanceTo ((s.dev.ropeSt l.r).heardAt + 4096 * 3200)).ropeDown l.r
            | some e => if 4 ≤ onesOf 32 e.toNat then s.dev.ropeDown l.r else s.dev))) ∧
  -- rope down
  (∀ (d e : Dev) (r : Nat),
        e = (d.wr F.ROPE_PORT_STAT_STATE r 0).updRope r (fun x => { x with good := 0, exch := [] }) →
        d.ropeDown r = { e with time.nbr := Tbl.del (64 + r) d.time.nbr })

/-- Fabric time: reads latch the fraction, sets, exchanges, the offset and its use, enabling the servo, the choice of parent and
a PPS edge (R418, R419, R420, R421, R422, R423, R424). Where the model chose behind these rules: log entries 3, 6, 13, 14
(notes/assumptions). -/
def Obligations.FabricTime : Prop :=
  -- TIME_NOW_READ
  (∀ (s : State),
        exec .timeNowRead s = .next (s.on ((s.dev.wr F.TIME_FRAC_FRAC 0 (s.dev.ns16 % 2 ^ 16)).emit (.readValue s.dev.ns)))) ∧
  -- TIME_SET
  (∀ (s : State) (v : Word) (d : Dev),
        (s.dev.dark = false ∧ s.dev.flag F.TIME_CFG_SERVO_EN = false ∧ d = s.dev.jump ((v.toNat * 2 ^ 16 : Nat) : Int)) →
        exec (.timeSet v) s = .next (s.on { d with time.ppsJump := true })) ∧
  -- jump
  (∀ (d : Dev) (t : Int),
        d.jump t = (({ d with ft := t.toNat * 2 ^ 32 } : Dev).wr F.TIME_STAT_JUMPS 0 ((({ d with ft := t.toNat * 2 ^ 32 } : Dev).rd F.TIME_STAT_JUMPS + 1) % 2 ^ 16)).gatesJump) ∧
  -- SERVO_ENABLE
  (∀ (s : State) (d : Dev),
        (d = s.dev.wr F.TIME_CFG_SERVO_EN 0 1 ∧ d.dark = false) →
        exec .servoEnable s = .next (s.on { d.setLocked false with time.thetas := [], time.losses := 0 })) ∧
  -- TIME_EXCHANGE_TIMER
  (∀ (s : State) (d e : Dev),
        (s.dev.dark = false ∧ d = s.dev.advanceTo (s.dev.time.exAt + usPs s.dev.period)) →
        e = Dev.chooseParent { d with time.exAt := d.ps, time.ticks := (d.time.ticks + 1) % 8 } →
        exec .timeExchangeTimer s = .next (s.on ((List.range 66).foldl (fun x src => if src = x.parent || d.time.ticks = 0 then x.timeReq src else x) e))) ∧
  -- ROPE_TIME_RX (req)
  (∀ (s : State) (r : Fin 2) (k : RopeFrame) (d e : Dev),
        (s.dev.ropeIn r 2 k = (d, true) ∧ k.body % 2 = 0 ∧ e = d.noteNbr (64 + r) (bitsOf k.body 0 64)) →
        exec (.ropeTimeRx r k) s = .next (s.on (e.ropeTime r (1 + bitsOf k.body 8 8 * 2 ^ 8 + e.timeHead + bitsOf k.body 64 64 * 2 ^ 64 + e.ns16 / 2 ^ 16 * 2 ^ 128 +
            bitsOf k.body 256 16 * 2 ^ 256 + e.ns16 % 2 ^ 16 * 2 ^ 272)))) ∧
  -- ROPE_TIME_RX (resp)
  (∀ (s : State) (r : Fin 2) (k : RopeFrame) (d e : Dev) (id t1 : Nat),
        (s.dev.ropeIn r 2 k = (d, true) ∧ k.body % 2 ≠ 0 ∧ e = d.noteNbr (64 + r) (bitsOf k.body 0 64)) →
        (e.ropeSt r).exch.find? (fun x => x.1 == bitsOf k.body 8 8) = some (id, t1) →
        exec (.ropeTimeRx r k) s = .next (s.on ((e.updRope r (fun x => { x with exch := x.exch.filter (fun x => x.1 != id) })).exchange (64 + r) t1 (stampOf k.body 1) (stampOf k.body 2) e.ns16))) ∧
  -- exchange
  (∀ (d : Dev) (src t1 t2 t3 t4 : Nat) (rtt theta : Int) (e : Dev),
        (src = d.parent ∧ d.flag F.TIME_CFG_GM = false ∧ rtt = (t4 - t1 : Int) - (t3 - t2 : Int) ∧ theta = ((t2 - t1 : Int) - (t4 - t3 : Int)) / 2 - d.asym src) →
        e = ({ d with time.rtts := (rtt.toNat :: d.time.rtts).take 16 } : Dev).wr F.TIME_STAT_OFFSET_NS 0 (unsigned (saturate 32 (theta / 65536)) 32) →
        (¬ 1500 * 65536 < rtt ∧ ¬ ((20 * 65536 + ((rtt.toNat :: d.time.rtts).take 16).foldl min rtt.toNat : Nat) : Int) < rtt ∧ e.flag F.TIME_CFG_SERVO_EN = true) →
        d.exchange src t1 t2 t3 t4 = if e.locked then e.servoLocked theta else e.servoUnlocked theta) ∧
  -- servo locked
  (∀ (d : Dev) (theta : Int),
        ¬ d.rd F.TIME_CFG_LOSS_NS * 65536 < theta.natAbs →
        d.servoLocked theta = ({ d with time.integ := d.time.integ + theta * 250000 / (16 * d.period * 65536 : Nat), time.losses := 0 } : Dev).setFreq (d.time.integ + theta * 250000 / (16 * d.period * 65536 : Nat) + theta * 250000 / (d.period * 65536 : Nat))) ∧
  -- servo locked (loss)
  (∀ (d : Dev) (theta : Int),
        d.rd F.TIME_CFG_LOSS_NS * 65536 < theta.natAbs →
        (2 ≤ d.time.losses → d.servoLocked theta = d.servoReset) ∧
          (d.time.losses < 2 → d.servoLocked theta = { d with time.losses := d.time.losses + 1 })) ∧
  -- choose parent
  (∀ (d : Dev) (p n q m : Nat),
        (d.flag F.TIME_CFG_GM = false ∧ bestParent d.candidates = some (p, n) ∧ d.candidates.find? (fun e => e.1 == d.parent) = some (q, m)) →
        (n < m → d.chooseParent = d.setParent p) ∧ (m ≤ n → d.chooseParent = d.setLocked d.locked)) ∧
  -- PPS_EDGE
  (∀ (s : State) (t16 : BitVec 80) (ok : Bool) (d : Dev),
        (s.dev.dark = false ∧ s.dev.flag F.TIME_CFG_GM = true) →
        d = (Dev.ppsStep { s.dev.advanceToNs (t16.toNat / 65536) with time.tenLocked := ok }) →
        exec (.ppsEdge t16 ok) s = .next (s.on (d.setLocked d.gmLocked))) ∧
  -- pps step
  (∀ (d : Dev) (near : Nat),
        (d.flag F.TIME_CFG_PPS_EN = true ∧ near = (d.ns16 + 1000000000 * 65536 / 2) / (1000000000 * 65536) * (1000000000 * 65536)) →
        (d.time.ppsJump = true → d.ppsStep = { d.jump near with time.ppsJump := false, time.ppsLocked := true, time.integ := d.freq }) ∧
          (d.time.ppsJump = false → d.ppsStep = d.steer ((near : Int) - d.ns16)))

/-- A function is enabled when permitted, disabled by EN, Bus Master, FLR, VF count, link or reset, drained, forced to stop; a
cut ends its reads (R432, R433, R434, R435, R442). Where the model chose behind these rules: log entries 1, 3, 10, 26, 28
(notes/assumptions). -/
def Obligations.FunctionStates : Prop :=
  -- FN_EN_SET (off)
  (∀ (s : State) (fn : Fid) (d : Dev),
        (d = s.dev.wr F.HST_FN_CTL_EN fn 1 ∧ d.halted = false ∧ d.fnState fn = 0) →
        (d.permitted fn = true → exec (.fnEnSet fn) s = .next (s.on (d.fnEnabling fn))) ∧
          (d.permitted fn = false → exec (.fnEnSet fn) s = .next (s.on (d.wr F.HST_FN_CTL_ENABLE_LATCHED fn 0)))) ∧
  -- FN_EN_SET (draining)
  (∀ (s : State) (fn : Fid) (d : Dev),
        (d = s.dev.wr F.HST_FN_CTL_EN fn 1 ∧ d.halted = false ∧ d.fnState fn = 3) →
        exec (.fnEnSet fn) s = .next (s.on (d.wr F.HST_FN_CTL_ENABLE_LATCHED fn 1))) ∧
  -- permitted
  (∀ (d : Dev) (f : Nat),
        (d.permitted f = true) = (d.flag F.HST_FN_CTL_EN f = true ∧ Tbl.get d.host.bme false (d.pfOf f) = true ∧ (d.isPf f = true ∨ d.vfPresent f = true))) ∧
  -- fn enabling
  (∀ (d : Dev) (f : Nat) (e : Dev),
        e = (List.range 16).foldl (fun d k => d.setReg R.PMC_FN_VAL (f * 16 + k) 0) ((((d.keepCut f).wr F.HST_FN_CTL_STATE f 1).wr F.HST_FN_CTL_ENABLE_LATCHED f 0).resetTarget f) →
        d.fnEnabling f = { e with host.posted := Tbl.del (e.linkOf f * 1024 + f) e.host.posted }) ∧
  -- FN_EN_CLEAR
  (∀ (s : State) (fn : Fid) (d : Dev),
        (s.dev.flag F.HST_FN_CTL_EN fn = true ∧ d = s.dev.wr F.HST_FN_CTL_EN fn 0) →
        exec (.fnEnClear fn) s = .next (s.cutTo (d.fnDisable fn false dcEn))) ∧
  -- fn disable (cut)
  (∀ (d : Dev) (f cause : Nat) (e : Dev),
        (d.halted = false ∧ d.fnState f ≠ 0 ∧ d.fnState f ≠ 3) →
        e = { d.wr F.HST_FN_CTL_CAUSE f cause with host.shut := Tbl.set false f (decide (d.fnState f = 1)) (d.wr F.HST_FN_CTL_CAUSE f cause).host.shut } →
        d.fnDisable f true cause = (((e.wr F.HST_FN_CTL_STATE f 3).wr F.HST_FN_CTL_CUT f 0).cut f).drainActs f) ∧
  -- fn disable (grace)
  (∀ (d : Dev) (f cause : Nat) (e : Dev),
        (d.halted = false ∧ d.fnState f ≠ 0 ∧ d.fnState f ≠ 3) →
        e = { d.wr F.HST_FN_CTL_CAUSE f cause with host.shut := Tbl.set false f (decide (d.fnState f = 1)) (d.wr F.HST_FN_CTL_CAUSE f cause).host.shut } →
        d.fnDisable f false cause = ((e.wr F.HST_FN_CTL_STATE f 3).wr F.HST_FN_CTL_CUT f 0).drainActs f) ∧
  -- fn disable (again)
  (∀ (d : Dev) (f cause : Nat) (e : Dev),
        (d.halted = false ∧ d.fnState f = 3 ∧ e = d.wr F.HST_FN_CTL_CAUSE f cause) →
        d.fnDisable f true cause = (if e.flag F.HST_FN_CTL_CUT f then e else e.cut f) ∧ d.fnDisable f false cause = e) ∧
  -- drain acts
  (∀ (d : Dev) (f : Nat) (e : Dev),
        e = ((((d.qFnDisable f).revokeAll f).mtcShutdown f).mtcWake f).rdvDrain f →
        d.drainActs f = ((((e.colDrain f).defDrain f).chDrain f false).excDrain f).pmcFnOff f) ∧
  -- FN_ENABLE_DONE
  (∀ (s : State) (fn : Fid),
        (s.dev.halted = false ∧ (s.dev.fnState fn != 1) = false) →
        exec (.fnEnableDone fn) s = .next (s.on ((s.dev.wr F.HST_FN_CTL_STATE fn 2).settle fn))) ∧
  -- FN_DRAIN_DONE
  (∀ (s : State) (fn : Fid),
        (s.dev.halted = false ∧ (s.dev.fnState fn != 3) = false ∧ s.dev.fnDrained fn = true) →
        exec (.fnDrainDone fn) s = .next (s.on (((((s.dev.resetStopped fn).wr F.HST_FN_CTL_STATE fn 0).pitForce fn).freeForced fn).fnCheck fn))) ∧
  -- FN_FORCE_STOP
  (∀ (s : State) (fn : Fid) (t : Nat) (d : Dev),
        (s.dev.halted = false ∧ s.dev.keptCut fn = none) →
        (Tbl.find s.dev.host.cutAt fn = some t ∧ d = s.dev.cutOver fn t ∧ (d.liveThreads fn).isEmpty = false) →
        exec (.fnForceStop fn) s = .next (s.on ((((d.liveThreads fn).foldl Dev.forceStop d).fault 4).invPoll.goes))) ∧
  -- FN_FORCE_STOP (kept)
  (∀ (s : State) (fn : Fid) (t : Nat) (l : List Nat),
        (s.dev.halted = false ∧ s.dev.keptCut fn = some (t, l)) →
        exec (.fnForceStop fn) s = .next (s.on (((l.foldl Dev.forceStop (s.dev.advanceTo (t + msPs 10))).fault 4).invPoll.goes))) ∧
  -- FLR
  (∀ (s : State) (fn : Fid),
        (s.dev.dark = false ∧ s.dev.flag F.BCP_FW_STAT_READY = true) →
        exec (.flr fn) s = .next (s.cutTo (((s.dev.withVfs fn).foldl Dev.cfgReset s.dev).disableAll (s.dev.withVfs fn) dcFlr))) ∧
  -- cfg request (retry)
  (∀ (s : State) (fn : Fid) (on : Bool) (n : Fin 256),
        (s.dev.dark = false ∧ s.dev.flag F.BCP_FW_STAT_READY = false) →
        exec (.flr fn) s = .next (s.cutTo (s.dev.emit (.configRetry fn))) ∧ exec (.busMasterClear fn) s = .next (s.cutTo (s.dev.emit (.configRetry fn))) ∧
          exec (.busMasterEnableSet fn) s = .next (s.on (s.dev.emit (.configRetry fn))) ∧
          exec (.vfEnableClear fn on n) s = .next (s.cutTo (s.dev.emit (.configRetry fn))) ∧
          exec (.vfEnableSet fn n) s = .next (s.on (s.dev.emit (.configRetry fn)))) ∧
  -- disable all
  (∀ (d : Dev) (f : Nat) (l : List Nat) (cause : Nat),
        d.disableAll (f :: l) cause = (d.fnDisable f true cause).disableAll l cause ∧ d.disableAll [] cause = d) ∧
  -- BUS_MASTER_CLEAR
  (∀ (s : State) (fn : Fid) (d : Dev),
        (s.dev.dark = false ∧ s.dev.flag F.BCP_FW_STAT_READY = true) →
        (Tbl.get s.dev.host.bme false fn = true ∧ d = { s.dev with host.bme := Tbl.set false fn false s.dev.host.bme }) →
        exec (.busMasterClear fn) s = .next (s.cutTo (d.disableAll (s.dev.withVfs fn) dcMaster))) ∧
  -- BUS_MASTER_ENABLE_SET
  (∀ (s : State) (fn : Fid),
        (s.dev.dark = false ∧ s.dev.flag F.BCP_FW_STAT_READY = true) →
        exec (.busMasterEnableSet fn) s = .next (s.on ((s.dev.withVfs fn).foldl (Dev.fnAgain s.dev) { s.dev with host.bme := Tbl.set false fn true s.dev.host.bme }))) ∧
  -- fn again
  (∀ (o d : Dev) (f : Nat),
        d.halted = false →
        (d.fnState f = 3 → d.permitted f = true → o.permitted f = false → Dev.fnAgain o d f = d.wr F.HST_FN_CTL_ENABLE_LATCHED f 1) ∧
          (d.fnState f ≠ 3 → Dev.fnAgain o d f = d.fnCheck f)) ∧
  -- VF_ENABLE_CLEAR
  (∀ (s : State) (fn : Fid) (n : Fin 256) (d : Dev),
        (s.dev.dark = false ∧ s.dev.flag F.BCP_FW_STAT_READY = true) →
        (s.dev.isPf fn = true ∧ d = { s.dev with host.vfe := Tbl.set false fn false s.dev.host.vfe, host.numVfs := Tbl.set 0 fn n.val s.dev.host.numVfs }) →
        exec (.vfEnableClear fn false n) s = .next (s.cutTo (d.disableAll (((s.dev.vfsOf fn).filter s.dev.vfPresent).filter (fun v => !d.vfPresent v)) dcVf))) ∧
  -- VF_ENABLE_SET
  (∀ (s : State) (fn : Fid) (n : Fin 256) (d : Dev),
        (s.dev.dark = false ∧ s.dev.flag F.BCP_FW_STAT_READY = true ∧ s.dev.isPf fn = true ∧ Tbl.get s.dev.host.vfe false fn = false) →
        d = { s.dev with host.vfe := Tbl.set false fn true s.dev.host.vfe, host.numVfs := Tbl.set 0 fn (min n.val (s.dev.totalVfs fn)) s.dev.host.numVfs } →
        exec (.vfEnableSet fn n) s = .next (s.on ((s.dev.vfsOf fn).foldl (Dev.fnAgain s.dev) d))) ∧
  -- cut
  (∀ (d : Dev) (f : Nat) (e g : Dev),
        e = { d.wr F.HST_FN_CTL_CUT f 1 with host.cutAt := Tbl.put f (d.wr F.HST_FN_CTL_CUT f 1).ps (d.wr F.HST_FN_CTL_CUT f 1).host.cutAt } →
        g = ((((e.defDrain f).chDrain f true).pitCut f).reads.filter (fun r => r.2.fn == f)).foldl (fun x r => x.abandon r.1) (((e.defDrain f).chDrain f true).pitCut f) →
        d.cut f = (g.xlt.waits.filter (fun w => g.asidFn w.2.1.asid == f)).foldl (fun x w => x.waitCut f w.1 w.2.2.1) g)

/-- Host links and resets, host read completions and their timeout, and the interrupt controller: claim, complete, set and clear
pending, unmask (R429, R432, R434, R435, R440, R441, R442). Where the model chose behind these rules: log entries 1, 3, 10,
26, 28 (notes/assumptions). -/
def Obligations.HostPorts : Prop :=
  -- HOST_PERST_ASSERT
  (∀ (s : State) (p : Hid),
        exec (.hostPerstAssert p) s = .next (s.cutTo ((Dev.hostDown { s.dev with host.perstHigh := Tbl.set false p false s.dev.host.perstHigh } p 0).hostDown p 1))) ∧
  -- HOST_PERST_DEASSERT
  (∀ (s : State) (p : Hid),
        Tbl.get s.dev.host.perstHigh false p = false →
        exec (.hostPerstDeassert p) s = .next (s.on { s.dev.latch R.HST_PORT_CFG p with host.perstHigh := Tbl.set false p true (s.dev.latch R.HST_PORT_CFG p).host.perstHigh })) ∧
  -- HOST_LINK_DOWN
  (∀ (s : State) (p : Hid) (d : Dev),
        d = s.dev.linkStat p 0 ((s.dev.rd F.HST_PORT_STAT_UP p) - if s.dev.rd F.HST_PORT_STAT_UP p / 2 ^ 0 % 2 = 1 then 2 ^ 0 else 0) 0 0 0 →
        exec (.hostLinkDown p 0) s = .next (s.cutTo (((s.dev.fnsOfLink p 0).foldl Dev.cfgReset d).disableAll (s.dev.fnsOfLink p 0) dcLink))) ∧
  -- link stat
  (∀ (d : Dev) (p up rate width flit : Nat),
        d.linkStat p 0 up rate width flit = (((d.wr F.HST_PORT_STAT_UP p up).wr F.HST_PORT_STAT_RATE0 p rate).wr F.HST_PORT_STAT_WIDTH0 p width).wr F.HST_PORT_STAT_FLIT0 p flit ∧
          d.linkStat p 1 up rate width flit = (((d.wr F.HST_PORT_STAT_UP p up).wr F.HST_PORT_STAT_RATE1 p rate).wr F.HST_PORT_STAT_WIDTH1 p width).wr F.HST_PORT_STAT_FLIT1 p flit) ∧
  -- HOST_LINK_UP
  (∀ (s : State) (p : Hid) (up : Nat) (x : Word) (d e : Dev),
        (s.dev.dark = false ∧ Tbl.get s.dev.host.perstHigh false p = true ∧ up = s.dev.rd F.HST_PORT_STAT_UP p ∧ up / 2 ^ 0 % 2 ≠ 1 ∧ s.dev.freeWord = (x, d)) →
        e = d.linkStat p 0 (up + 2 ^ 0) (min (getBits x 0 3) (min 6 (d.rdF F.HST_PORT_CFG_MAX_RATE p)))
            (2 ^ (getBits x 3 5 % if d.bifurcated p then 4 else 5))
            (if 5 ≤ min (getBits x 0 3) (min 6 (d.rdF F.HST_PORT_CFG_MAX_RATE p)) then 1 else getBits x 8 1) →
        exec (.hostLinkUp p 0) s = .next (s.on { e with host.posted := e.host.posted.filter (fun r => r.1 / 1024 != p.val * 2 + 0) })) ∧
  -- HOST_READ_COMPLETION (unknown)
  (∀ (s : State) (tag : Nat) (cpl : Cpl),
        Tbl.find s.dev.reads tag = none →
        exec (.hostReadCompletion tag cpl) s = .next (s.on s.dev.invPoll.goes)) ∧
  -- HOST_READ_COMPLETION
  (∀ (s : State) (tag : Nat) (cpl : Cpl) (r : HostRd),
        (Tbl.find s.dev.reads tag = some r ∧ s.dev.halted = false) →
        (∀ th win, r.why = .load th win → exec (.hostReadCompletion tag cpl) s = .next (s.on ((s.dev.loadDone th win tag cpl).invPoll.goes))) ∧
          (∀ th, r.why = .imem th → exec (.hostReadCompletion tag cpl) s = .next (s.on ((s.dev.imemDone th cpl).invPoll.goes))) ∧
          (∀ c n v l, r.why = .imemPre c n v l → exec (.hostReadCompletion tag cpl) s = .next (s.on ((s.dev.aheadDone c n v l tag cpl).invPoll.goes))) ∧
          (∀ id, r.why = .walk id → exec (.hostReadCompletion tag cpl) s = .next (s.on ((s.dev.walkDone id cpl).invPoll.goes))) ∧
          (∀ q, r.why = .wqFetch q → exec (.hostReadCompletion tag cpl) s = .next (s.on ((s.dev.fetchDone q cpl).invPoll.goes))) ∧
          (∀ o off len, r.why = .own o off len → exec (.hostReadCompletion tag cpl) s = .next (s.on ((s.dev.ownGot o off cpl).invPoll.goes))) ∧
          (∀ key, r.why = .flushReq key → exec (.hostReadCompletion tag cpl) s = .next (s.on ((s.dev.durDone key cpl).invPoll.goes)))) ∧
  -- HOST_CPL_TIMEOUT
  (∀ (s : State) (tag : Nat) (r : HostRd) (d : Dev),
        (Tbl.find s.dev.reads tag = some r ∧ Tbl.get s.dev.host.ctoOff false r.fn = false ∧ d = (s.dev.advanceTo (s.dev.ctoAt r)).bump F.HST_PORT_ERR_CTO (r.fn / 256)) →
        (r.gone = true → exec (.hostCplTimeout tag) s = .next (s.on (Dev.goes (Dev.invPoll { d with reads := Tbl.del tag d.reads })))) ∧
          (r.gone = false → exec (.hostCplTimeout tag) s = .next (s.on ((d.readCpl tag .err).invPoll.goes)))) ∧
  -- HOST_CPL_TIMEOUT (off)
  (∀ (s : State) (tag : Nat) (r : HostRd),
        (Tbl.find s.dev.reads tag = some r ∧ Tbl.get s.dev.host.ctoOff false r.fn = true) →
        exec (.hostCplTimeout tag) s = .next (s.on s.dev.invPoll.goes)) ∧
  -- INT_CLAIM
  (∀ (s : State) (t : Tgt) (n : Nat) (d : Dev),
        (s.dev.highest t = some n ∧ d = (s.dev.setPend t ((s.dev.pendOf t).erase n)).setAct t (insertAsc n ((s.dev.setPend t ((s.dev.pendOf t).erase n)).actOf t))) →
        exec (.intClaim t) s = .next (s.on (((d.wr F.INT_TGT_STAT_ARMED t 1).settle t).emit (.readValue (n + 4096))))) ∧
  -- INT_CLAIM (none)
  (∀ (s : State) (t : Tgt),
        s.dev.highest t = none →
        exec (.intClaim t) s = .next (s.on (((s.dev.wr F.INT_TGT_STAT_ARMED t 1).settle t).emit (.readValue 0)))) ∧
  -- INT_COMPLETE
  (∀ (s : State) (t : Tgt) (n : BitVec 12),
        ((s.dev.actOf t).contains n.toNat = true → exec (.intComplete t n) s = .next (s.on ((s.dev.setAct t ((s.dev.actOf t).erase n.toNat)).settle t))) ∧
          ((s.dev.actOf t).contains n.toNat = false → exec (.intComplete t n) s = .next (s.on (s.dev.bump F.INT_TGT_STAT_BAD_COMPLETE t)))) ∧
  -- INT_SETPEND
  (∀ (s : State) (t : Tgt) (n : BitVec 12),
        exec (.intSetpend t n) s = .next (s.on ((s.dev.setPend t (insertAsc n.toNat (s.dev.pendOf t))).settle t)) ∧
          exec (.intClrpend t n) s = .next (s.on (s.dev.setPend t ((s.dev.pendOf t).erase n.toNat)))) ∧
  -- settle
  (∀ (d : Dev) (t n : Nat),
        (d.flag F.INT_TGT_STAT_ARMED t = true ∧ d.highest t = some n ∧ t ≠ 1024 ∧ d.msixMay t = true) →
        (d.vecOpen t = true → d.settle t = d.msixSend t) ∧
          (d.vecOpen t = false → d.settle t = { d with host.msixPend := Tbl.set false t true d.host.msixPend })) ∧
  -- settle (cores)
  (∀ (d : Dev) (n : Nat),
        (d.flag F.INT_TGT_STAT_ARMED 1024 = true ∧ d.highest 1024 = some n) →
        d.settle 1024 = (d.wr F.INT_TGT_STAT_ARMED 1024 0).emit .coreSignal) ∧
  -- msix send
  (∀ (d : Dev) (f : Nat) (e : MsixEnt),
        e = Tbl.get d.host.msix {} f →
        d.msixSend f = ((Dev.wr { d with host.msixPend := Tbl.set false f false d.host.msixPend } F.INT_TGT_STAT_ARMED f 0).emit (.msix f e.addr.toNat e.data.toNat))) ∧
  -- MSIX_UNMASK
  (∀ (s : State) (fn : Fid) (d : Dev),
        d = { s.dev with host.msix := Tbl.set {} fn { (Tbl.get s.dev.host.msix {} fn) with masked := false } s.dev.host.msix } →
        (Tbl.get d.host.msixPend false fn = true ∧ d.vecOpen fn = true ∧ d.msixMay fn = true → exec (.msixUnmask fn) s = .next (s.on (d.msixSend fn))) ∧
          ((Tbl.get d.host.msixPend false fn && d.vecOpen fn && d.msixMay fn) = false → exec (.msixUnmask fn) s = .next (s.on d)))

/-- DMA channels: START, PAUSE, RESUME and RESET by state, what a list element and a data read do, the ring limit, cluster stop
and its clear (R446, R447, R448, R449, R450, R451, R453, R454, R462). Where the model chose behind these rules: log entries
1, 5, 21 (notes/assumptions). -/
def Obligations.DmaChannels : Prop :=
  -- DMA_CH_START (run)
  (∀ (s : State) (c : Clu) (h : Fin 64) (ch : Nat) (d : Dev) (b : Dev),
        (ch = c.val * 64 + h.val ∧ s.dev.halted = false ∧ (b.chSt ch != chIdle) = false ∧ b.chValid ch = true) →
        d = (((b.wr F.DMA_CH_CTL_STATUS ch 0).setChan ch {}).wr F.DMA_CH_POS_DONE ch 0).wake (16 + ch / 64) →
        b = s.dev.wake (16 + c.val) →
        (d.flag F.DMA_CH_CFG_TRIG_EN ch = false → exec (.dmaChStart c h) s = .next (s.on ((d.chGo ch chRun).chStep ch))) ∧
          (d.flag F.DMA_CH_CFG_TRIG_EN ch = true → exec (.dmaChStart c h) s = .next (s.on ((d.chGo ch chTrig).defAdd (d.rd F.DMA_CH_TRIG_TCTR ch) (d.rd F.DMA_CH_TRIG_THRESH ch) (d.chFn ch) (.chan ch))))) ∧
  -- DMA_CH_START (invalid)
  (∀ (s : State) (c : Clu) (h : Fin 64) (ch : Nat) (b : Dev),
        (ch = c.val * 64 + h.val ∧ s.dev.halted = false ∧ (b.chSt ch != chIdle) = false ∧ b.chValid ch = false) →
        b = s.dev.wake (16 + c.val) →
        exec (.dmaChStart c h) s = .next (s.on ((b.wr F.DMA_CH_CTL_STATUS ch Status.ARG).wr F.DMA_CH_CTL_CMD_REJ ch 1))) ∧
  -- DMA_CH_PAUSE
  (∀ (s : State) (c : Clu) (h : Fin 64) (ch : Nat) (b : Dev),
        (ch = c.val * 64 + h.val ∧ s.dev.halted = false) →
        b = s.dev.wake (16 + c.val) →
        (b.chSt ch = chRun → exec (.dmaChPause c h) s = .next (s.on (b.chGo ch chPausing))) ∧
          (b.chSt ch = chTrig → exec (.dmaChPause c h) s = .next (s.on ((b.chGo ch chPaused).wr F.DMA_CH_CTL_TRIG_PEND ch 1))) ∧
          (b.chSt ch = chXlt → exec (.dmaChPause c h) s = .next (s.on (b.updChan ch (fun x => { x with pauseReq := true })))) ∧
          (b.chSt ch = chIdle ∨ b.chSt ch = chPaused ∨ b.chSt ch = chStopped → exec (.dmaChPause c h) s = .next (s.on (b.wr F.DMA_CH_CTL_CMD_REJ ch 1)))) ∧
  -- DMA_CH_RESUME
  (∀ (s : State) (c : Clu) (h : Fin 64) (ch : Nat) (b : Dev),
        (ch = c.val * 64 + h.val ∧ s.dev.halted = false) →
        b = s.dev.wake (16 + c.val) →
        (b.chSt ch = chPaused → b.flag F.DMA_CH_CTL_TRIG_PEND ch = false → exec (.dmaChResume c h) s = .next (s.on (b.chRerun ch))) ∧
          (b.chSt ch = chPaused → b.flag F.DMA_CH_CTL_TRIG_PEND ch = true → exec (.dmaChResume c h) s = .next (s.on ((b.wr F.DMA_CH_CTL_TRIG_PEND ch 0).chGo ch chTrig))) ∧
          (b.chSt ch = chStopped → b.flag F.DMA_CL_STAT_STOPPED (ch / 64) = false → exec (.dmaChResume c h) s = .next (s.on (b.chRerun ch))) ∧
          (b.chSt ch = chStopped → b.flag F.DMA_CL_STAT_STOPPED (ch / 64) = true → exec (.dmaChResume c h) s = .next (s.on (b.wr F.DMA_CH_CTL_CMD_REJ ch 1)))) ∧
  -- ch rerun
  (∀ (d : Dev) (ch : Nat),
        d.chRerun ch = (((d.setChan ch {}).chGo ch chRun).wake (16 + ch / 64)).chStep ch) ∧
  -- DMA_CH_RESET
  (∀ (s : State) (c : Clu) (h : Fin 64) (ch : Nat) (b : Dev),
        (ch = c.val * 64 + h.val ∧ s.dev.halted = false ∧ (b.chSt ch = chPaused ∨ b.chSt ch = chStopped)) →
        b = s.dev.wake (16 + c.val) →
        exec (.dmaChReset c h) s = .next (s.on ((b.chStop ch (b.rd F.DMA_CH_CTL_STATUS ch)).chGo ch chIdle))) ∧
  -- ch stop
  (∀ (d : Dev) (ch st : Nat) (e : Dev),
        e = ((d.disown (.dmaList ch)).disown (.dmaRd ch)).disown (.dmaWr ch) →
        d.chStop ch st = ((Dev.wr { e with dma.ch := Tbl.del ch e.dma.ch, dma.defs := e.dma.defs.filter (fun x => x.what != DefWhat.chan ch) } F.DMA_CH_CTL_STATE ch 6).wr F.DMA_CH_CTL_STATUS ch st).wr F.DMA_CH_CTL_TRIG_PEND ch 0) ∧
  -- DMA_PAUSED
  (∀ (s : State) (c : Clu) (h : Fin 64) (ch : Nat) (d : Dev),
        (ch = c.val * 64 + h.val ∧ s.dev.halted = false ∧ (s.dev.chSt ch != chPausing) = false ∧ (s.dev.chan ch).rd = none ∧ (s.dev.chan ch).wr = none) →
        (d = ((s.dev.disown (.dmaList ch)).setChan ch {}).chGo ch chPaused ∧ d.fnState (d.chFn ch) ≠ 3) →
        exec (.dmaPaused c h) s = .next (s.on d)) ∧
  -- DMA_RLIM_WRITE
  (∀ (s : State) (c : Clu) (h : Fin 64) (v : Word) (ch : Nat) (b : Dev),
        (ch = c.val * 64 + h.val ∧ s.dev.halted = false) →
        b = s.dev.wake (16 + c.val) →
        exec (.dmaRlimWrite c h v) s = .next (s.on ((b.setReg R.DMA_CH_RLIM ch v).chStep ch))) ∧
  -- DMA_DATA_READ_DONE (host)
  (∀ (s : State) (c : Clu) (h : Fin 64) (ch v tag : Nat) (p : Bool) (r r0 : HostRd) (d : Dev),
        (ch = c.val * 64 + h.val ∧ s.dev.dataRead ch = some (tag, r0) ∧ s.dev.takeRead tag r0.part.2 (.ok v p) = (d, some r)) →
        (d.flag F.DMA_CL_STAT_STOPPED (ch / 64) = false ∧ (d.chan ch).rd.isSome = true ∧ d.chSt ch = chRun) →
        exec (.dmaDataReadDone c h (.ok v p)) s = .next (s.on (d.chData ch r0.part.2 (v % 2 ^ (8 * r0.part.2)) (if p then 2 ^ r0.part.2 - 1 else 0)).invPoll)) ∧
  -- DMA_DATA_READ_DONE (error)
  (∀ (s : State) (c : Clu) (h : Fin 64) (ch tag : Nat) (r r0 : HostRd) (d : Dev),
        (ch = c.val * 64 + h.val ∧ s.dev.dataRead ch = some (tag, r0) ∧ s.dev.takeRead tag r0.part.2 .err = (d, some r)) →
        exec (.dmaDataReadDone c h .err) s = .next (s.on (d.clusterFail (ch / 64) r.addr).invPoll)) ∧
  -- DMA_DATA_READ_DONE (depot)
  (∀ (s : State) (c : Clu) (h : Fin 64) (ch n : Nat) (cpl : Cpl) (e : Elem) (d : Dev),
        (ch = c.val * 64 + h.val ∧ s.dev.dataRead ch = none ∧ (s.dev.chan ch).elem = some e ∧ (s.dev.chan ch).rd = some n) →
        ((e.srcWin != 0) = false ∧ s.dev.halted = false ∧ s.dev.flag F.DMA_CL_STAT_STOPPED (ch / 64) = false) →
        d = (s.dev.depWake.ev 11 0).depMeet (s.dev.chSrc ch e) n →
        exec (.dmaDataReadDone c h cpl) s = .next (s.on (d.chData ch n (d.depBytes (d.chSrc ch e) n).1 (d.depBytes (d.chSrc ch e) n).2).invPoll)) ∧
  -- ch data
  (∀ (d : Dev) (ch n v mask : Nat),
        d.chData ch n v mask = ((d.ev 9 0 (some (ch / 64)) (some (d.chFn ch)) n).updChan ch (fun x => { x with rd := none, wr := some (v, n, mask) })).chWrite ch) ∧
  -- DMA_LIST_FETCH_DONE (depot)
  (∀ (s : State) (c : Clu) (h : Fin 64) (ch : Nat) (cpl : Cpl) (d : Dev),
        (ch = c.val * 64 + h.val ∧ s.dev.listRead ch = none ∧ (s.dev.chan ch).fetching = true ∧ ((s.dev.chan ch).parts != 0) = false ∧ s.dev.halted = false) →
        (s.dev.flag F.DMA_CL_STAT_STOPPED (ch / 64) = false ∧ s.dev.flag F.DMA_CH_CFG_LIST_IN_DEPOT ch = true) →
        d = (s.dev.depWake.ev 11 0).depMeet (s.dev.rd F.DMA_CH_LPOS_LPOS ch) 32 →
        ((d.depBytes (d.rd F.DMA_CH_LPOS_LPOS ch) 32).2 = 0 → exec (.dmaListFetchDone c h cpl) s = .next (s.on (d.chElem ch (d.depBytes (d.rd F.DMA_CH_LPOS_LPOS ch) 32).1).invPoll)) ∧
          ((d.depBytes (d.rd F.DMA_CH_LPOS_LPOS ch) 32).2 ≠ 0 → exec (.dmaListFetchDone c h cpl) s = .next (s.on (d.chStop ch Status.DMA_BUS_ERROR).invPoll))) ∧
  -- DMA_LIST_FETCH_DONE (ahead)
  (∀ (s : State) (c : Clu) (h : Fin 64) (ch : Nat) (cpl : Cpl),
        (ch = c.val * 64 + h.val ∧ s.dev.listRead ch = none ∧ (s.dev.chan ch).fetching = true ∧ ((s.dev.chan ch).parts != 0) = false ∧ s.dev.halted = false) →
        (s.dev.flag F.DMA_CL_STAT_STOPPED (ch / 64) = false ∧ s.dev.flag F.DMA_CH_CFG_LIST_IN_DEPOT ch = false) →
        exec (.dmaListFetchDone c h cpl) s = .next (s.on (s.dev.chElem ch (s.dev.chan ch).buf).invPoll)) ∧
  -- DMA_LIST_FETCH_DONE (host)
  (∀ (s : State) (c : Clu) (h : Fin 64) (ch v tag : Nat) (r r0 : HostRd) (d e : Dev),
        (ch = c.val * 64 + h.val ∧ s.dev.listRead ch = some (tag, r0) ∧ s.dev.takeRead tag r0.part.2 (.ok v false) = (d, some r)) →
        ((d.chan ch).fetching = true ∧ d.flag F.DMA_CL_STAT_STOPPED (ch / 64) = false ∧ (d.chan ch).ahead = false) →
        (e = d.updChan ch (fun x => { x with parts := x.parts - 1, buf := x.buf + v % 2 ^ (8 * r0.part.2) * 2 ^ (8 * r0.part.1) }) ∧ (e.chan ch).parts = 0) →
        exec (.dmaListFetchDone c h (.ok v false)) s = .next (s.on (e.chElem ch (e.chan ch).buf).invPoll)) ∧
  -- DMA_LIST_FETCH_DONE (error)
  (∀ (s : State) (c : Clu) (h : Fin 64) (ch tag : Nat) (r r0 : HostRd) (d : Dev),
        (ch = c.val * 64 + h.val ∧ s.dev.listRead ch = some (tag, r0) ∧ s.dev.takeRead tag r0.part.2 .err = (d, some r)) →
        ((d.chan ch).fetching = true ∧ d.flag F.DMA_CL_STAT_STOPPED (ch / 64) = false) →
        ((d.chan ch).ahead = false → exec (.dmaListFetchDone c h .err) s = .next (s.on (d.chStop ch Status.DMA_BUS_ERROR).invPoll)) ∧
          ((d.chan ch).ahead = true → exec (.dmaListFetchDone c h .err) s = .next (s.on ((d.aheadDrop ch).chStep ch).invPoll))) ∧
  -- ch elem
  (∀ (d : Dev) (ch v : Nat) (e : Dev),
        e = d.updChan ch (fun x => { x with fetching := false, parts := 0, buf := 0 }) →
        (elemOf v = none → d.chElem ch v = e.chStop ch Status.ARG) ∧
          (∀ x n, elemOf v = some (x, some n) → d.chElem ch v = (e.chEnd ch x n).chStep ch) ∧
          (∀ x, elemOf v = some (x, none) → e.chExtents ch x = 0 → d.chElem ch v = (((e.chLook x).updChan ch (fun y => { y with elem := some x })).chAhead ch x).chStep ch) ∧
          (∀ x, elemOf v = some (x, none) → e.chExtents ch x ≠ 0 → d.chElem ch v = ((e.chLook x).winFail (e.chExtents ch x)).chStop ch (e.chExtents ch x))) ∧
  -- ch end (last)
  (∀ (d : Dev) (ch next : Nat) (x : Elem) (e : Dev),
        e = ((d.updChan ch (fun x => { x with elem := none })).wr F.DMA_CH_POS_DONE ch 0).ev 9 2 (some (ch / 64)) (some (((d.updChan ch (fun x => { x with elem := none })).wr F.DMA_CH_POS_DONE ch 0).chFn ch)) →
        (x.last = true ∧ e.flag F.DMA_CH_CFG_CTR_EN ch = true) →
        d.chEnd ch x next = ((e.ctrAdd (e.rd F.DMA_CH_CFG_CTR ch) 1 (e.chFn ch)).chGo ch chIdle).setChan ch {}) ∧
  -- DMA_CLUSTER_STOP_DONE
  (∀ (s : State) (c : Clu),
        (s.dev.halted = false ∧ Tbl.get s.dev.dma.stopping false c = true ∧ (s.dev.clusterReads c != 0) = false) →
        exec (.dmaClusterStopDone c) s = .next (s.on { s.dev.stopCluster c with dma.stopping := Tbl.del c s.dev.dma.stopping })) ∧
  -- cluster fail
  (∀ (d : Dev) (c a : Nat) (e : Dev),
        (d.flag F.DMA_CL_STAT_STOPPED c = false ∧ e = ((d.wr F.DMA_CL_STAT_STOPPED c 1).bump F.DMA_CL_STAT_STOPS c).setReg R.DMA_CL_ERR c (BitVec.ofNat 64 a)) →
        d.clusterFail c a = Dev.fault { e with dma.stopping := Tbl.put c true e.dma.stopping } 5) ∧
  -- DMA_CL_CLEAR
  (∀ (s : State) (c : Clu) (b : Dev),
        (b = s.dev.wake (16 + c.val) ∧ b.halted = false ∧ Tbl.get b.dma.stopping false c = false ∧ b.flag F.DMA_CL_STAT_STOPPED c = true) →
        exec (.dmaClClear c) s = .next (s.on ((b.wr F.DMA_CL_STAT_STOPPED c 0).chKick c)))

/-- Counter writes and arming, the deferred entry that fires, and Pitons taken, refused, waited for and released through the
host port (R456, R457, R458, R460, R461, R464, R465, R466, R467, R469). Where the model chose behind these rules: log
entries 3, 20, 22, 32 (notes/assumptions). -/
def Obligations.CountersAndHostPitons : Prop :=
  -- DMA_CTR_ADD_WRITE
  (∀ (s : State) (v : BitVec 48) (q : Req),
        s.dev.halted = false →
        (reqFn q = none → exec (.dmaCtrAddWrite { rq := q, value := v }) s = .next (s.on (s.dev.ctrSet (s.dev.rd F.DMA_CTR_SEL_CTR) (s.dev.ctrVal (s.dev.rd F.DMA_CTR_SEL_CTR) + v.toNat)))) ∧
          (∀ f, reqFn q = some f → exec (.dmaCtrAddWrite { rq := q, value := v }) s = .next (s.on (s.dev.ctrAdd (s.dev.rd F.DMA_CTR_SEL_CTR) v.toNat f))) ∧
          exec (.dmaCtrValWrite v) s = .next (s.on (s.dev.ctrSet (s.dev.rd F.DMA_CTR_SEL_CTR) v.toNat))) ∧
  -- CTR_ADD (foreign)
  (∀ (d : Dev) (n k fn : Nat),
        d.ctrOwner n ≠ some fn →
        d.ctrAdd n k fn = d.bump F.DMA_CTR_STAT_FOREIGN) ∧
  -- ctr set
  (∀ (d : Dev) (n v : Nat),
        (d.ctrPut n v).ctrVal n = v % 2 ^ 48 ∧ (∀ m, m ≠ n → (d.ctrPut n v).ctrVal m = d.ctrVal m) ∧ d.ctrSet n v = (d.ctrPut n v).ctrRelease n) ∧
  -- DMA_CTR_ARM
  (∀ (s : State) (v : BitVec 48) (fn : Nat),
        (s.dev.halted = false ∧ s.dev.ctrOwner (s.dev.rd F.DMA_CTR_ARM0_CTR) = some fn ∧ s.dev.defRoom = true) →
        exec (.dmaCtrArm v) s = .next (s.on (s.dev.defAdd (s.dev.rd F.DMA_CTR_ARM0_CTR) v.toNat fn (.event (s.dev.rd F.DMA_CTR_ARM0_SLOT) (s.dev.rd F.DMA_CTR_ARM0_ENTRY))))) ∧
  -- DMA_CTR_ARM (refused)
  (∀ (s : State) (v : BitVec 48),
        s.dev.halted = false →
        (s.dev.ctrOwner (s.dev.rd F.DMA_CTR_ARM0_CTR) = none → exec (.dmaCtrArm v) s = .next (s.on (s.dev.bump F.DMA_CTR_STAT_FOREIGN))) ∧
          (∀ fn, s.dev.ctrOwner (s.dev.rd F.DMA_CTR_ARM0_CTR) = some fn → s.dev.defRoom = false → exec (.dmaCtrArm v) s = .next (s.on (s.dev.wr F.DMA_CTR_STAT_ARM_FULL 0 1)))) ∧
  -- def add
  (∀ (d : Dev) (ctr thresh fn : Nat) (what : DefWhat),
        (d.defAdd ctr thresh fn what).dma.defs = d.dma.defs ++ [{ id := d.nextTag, ctr := ctr, thresh := thresh, fn := fn, what := what, ripe := if reaches (d.ctrVal ctr) thresh then some d.nextTag else none }]) ∧
  -- DEFER_FIRE (event)
  (∀ (s : State) (e : DefEnt) (slot entry : Nat),
        (s.dev.halted = false ∧ s.dev.defNext = some e ∧ e.what = .event slot entry) →
        exec .deferFire s = .next (s.on (((s.dev.defDel e.id).ctrEvent e slot entry).rmaGo))) ∧
  -- DEFER_FIRE (chan)
  (∀ (s : State) (e : DefEnt) (ch : Nat),
        (s.dev.halted = false ∧ s.dev.defNext = some e ∧ e.what = .chan ch) →
        exec .deferFire s = .next (s.on (((s.dev.defDel e.id).chTrigger ch).rmaGo))) ∧
  -- def next
  (∀ (d : Dev) (e : DefEnt),
        d.defNext = some e →
        e ∈ d.dma.defs ∧ e.ripe.isSome = true ∧ ∀ x ∈ d.dma.defs, ∀ k, x.ripe = some k → e.ripe.getD 0 ≤ k) ∧
  -- PIT_LOCK_READ (free)
  (∀ (s : State) (fn : Fid) (n : BitVec 12),
        (s.dev.dark = false ∧ s.dev.isPf fn = true ∧ s.dev.flag F.BCP_FW_STAT_READY = true ∧ s.dev.gateFail 1 2 (some fn.val) (pitLock n.toNat) 8 1 = none) →
        (s.dev.pitRight (.host fn) (n.toNat / 64) false = true ∧ (s.dev.piton n.toNat).holder = none) →
        exec (.pitLockRead fn n) s = .next (s.on ((s.dev.setPiton n.toNat { holder := some (.host fn, s.dev.rd F.PIT_GRP_CFG_HOST_PRIO (n.toNat / 64)) }).emit (.readValue 0)))) ∧
  -- PIT_LOCK_READ (rights)
  (∀ (s : State) (fn : Fid) (n : BitVec 12),
        (s.dev.dark = false ∧ s.dev.isPf fn = true ∧ s.dev.flag F.BCP_FW_STAT_READY = true ∧ s.dev.gateFail 1 2 (some fn.val) (pitLock n.toNat) 8 1 = none) →
        s.dev.pitRight (.host fn) (n.toNat / 64) false = false →
        exec (.pitLockRead fn n) s = .next (s.on (s.dev.emit (.readValue Status.PIT_RIGHTS)))) ∧
  -- PIT_LOCK_READ (held)
  (∀ (s : State) (fn : Fid) (n : BitVec 12) (x : Holder) (k : Nat),
        (s.dev.dark = false ∧ s.dev.isPf fn = true ∧ s.dev.flag F.BCP_FW_STAT_READY = true ∧ s.dev.gateFail 1 2 (some fn.val) (pitLock n.toNat) 8 1 = none) →
        (s.dev.pitRight (.host fn) (n.toNat / 64) false = true ∧ (s.dev.piton n.toNat).holder = some (x, k)) →
        (sameHolder x (.host fn) = true → exec (.pitLockRead fn n) s = .next (s.on (s.dev.emit (.readValue Status.PIT_HELD)))) ∧
          (sameHolder x (.host fn) = false → s.dev.pitHostWaits (fn.val / 256) < 16 → exec (.pitLockRead fn n) s = .next (s.on (s.dev.pitWait (.host fn) n.toNat 0 0))) ∧
          (sameHolder x (.host fn) = false → 16 ≤ s.dev.pitHostWaits (fn.val / 256) → exec (.pitLockRead fn n) s = .next (s.on ((s.dev.bump F.PIT_STAT_HOST_BUSY).emit (.readValue Status.BUSY))))) ∧
  -- PIT_LOCK_WRITE (release)
  (∀ (s : State) (fn : Fid) (n : BitVec 12) (k : Nat),
        (s.dev.dark = false ∧ s.dev.isPf fn = true ∧ s.dev.flag F.BCP_FW_STAT_READY = true ∧ s.dev.gateFail 1 2 (some fn.val) (pitLock n.toNat) 8 2 = none) →
        (s.dev.pitRight (.host fn) (n.toNat / 64) false = true ∧ (s.dev.piton n.toNat).holder = some (.host fn, k)) →
        exec (.pitLockWrite fn n) s = .next (s.on (s.dev.pitPass n.toNat))) ∧
  -- PIT_LOCK_WRITE (misuse)
  (∀ (s : State) (fn : Fid) (n : BitVec 12),
        (s.dev.dark = false ∧ s.dev.isPf fn = true ∧ s.dev.flag F.BCP_FW_STAT_READY = true ∧ s.dev.gateFail 1 2 (some fn.val) (pitLock n.toNat) 8 2 = none) →
        (s.dev.piton n.toNat).holder = none →
        exec (.pitLockWrite fn n) s = .next (s.on ((s.dev.bump F.PIT_STAT_BAD_REL).fault 6))) ∧
  -- pit pass
  (∀ (d : Dev) (n : Nat),
        (d.pitFirst n = none → d.pitPass n = d.setPiton n {}) ∧
          (∀ w, d.pitFirst n = some w → d.pitPass n = (d.setPiton n { holder := some (w.who, w.prio), queue := (d.pitQueue n).erase w }).pitAnswer w 0)) ∧
  -- PIT_HOST_WAIT_EXPIRE
  (∀ (s : State) (fn : Fid) (n : BitVec 12) (x : Waiter) (d : Dev),
        (s.dev.halted = false ∧ (s.dev.piton n.toNat).hostWaiter fn = some x ∧ d = s.dev.advanceTo (x.since + nsPs s.dev.hostWait)) →
        exec (.pitHostWaitExpire fn n) s = .next (s.on ((d.setPiton n.toNat { d.piton n.toNat with queue := (d.piton n.toNat).queue.erase x }).pitAnswer x Status.BUSY))) ∧
  -- PIT_ENG_WAIT_EXPIRE
  (∀ (s : State) (th : Tid) (n wd since us : Nat) (d : Dev),
        (s.dev.halted = false ∧ (s.dev.thr th).stall = .piton n wd since ∧ s.dev.rd F.PIT_CFG_ENG_WAIT_US = us ∧ us ≠ 0 ∧ d = s.dev.advanceTo (since + usPs us)) →
        exec (.pitEngWaitExpire th) s = .next (s.on ((d.setPiton n { d.piton n with queue := (d.pitQueue n).filter (fun w => !sameHolder w.who (.thread th 0)) }).finish th wd (mkWord (BitVec.ofNat 64 Status.BUSY) 0) |>.wakeThr th))) ∧
  -- reaches
  (∀ (v t : Nat),
        (v < 2 ^ 48 ∧ t < 2 ^ 48) →
        (reaches v t = true ↔ ((t ≤ v ∧ v - t < 2 ^ 47) ∨ (v < t ∧ v + 2 ^ 48 - t < 2 ^ 47))))

/-- Software's buffers are allocated and freed by owner, the access window reads and writes whole words through its gate; audits
and scrubbing (R477, R478, R479, R481, R483, R484, R489, R490). Where the model chose behind these rules: log entries 1, 16,
30 (notes/assumptions). -/
def Obligations.DepotSoftware : Prop :=
  -- DEP_BUF_ALLOC (got)
  (∀ (s : State) (r : Req) (d e : Dev) (k : Nat) (l : List Nat),
        (s.dev.reaches r = true ∧ s.dev.reqGate r 0x1600020 8 1 = (d, true) ∧ d.alloc 4 (reqObj r) 1 = (e, some (k :: l))) →
        (∀ fn, r ≠ .vf fn) →
        exec (.depBufAlloc r) s = .next (s.on (e.emit (.readValue (e.bufAddr k + 2 ^ 63))))) ∧
  -- DEP_BUF_ALLOC (none)
  (∀ (s : State) (r : Req) (d e : Dev),
        (s.dev.reaches r = true ∧ s.dev.reqGate r 0x1600020 8 1 = (d, true) ∧ d.alloc 4 (reqObj r) 1 = (e, none)) →
        (∀ fn, r ≠ .vf fn) →
        exec (.depBufAlloc r) s = .next (s.on (e.emit (.readValue 0)))) ∧
  -- DEP_BUF_FREE
  (∀ (s : State) (r : Req) (addr : BitVec 36) (d : Dev),
        (s.dev.reaches r = true ∧ s.dev.reqGate r 0x1600028 8 2 = (d, true)) →
        (∀ fn, r ≠ .vf fn) →
        exec (.depBufFree r addr) s = .next (s.on (d.free addr.toNat 4 (reqObj r)))) ∧
  -- free
  (∀ (d : Dev) (addr k cls obj : Nat) (e : Dev),
        (addr = d.poolBase + k * 2048 ∧ k < d.poolBufs ∧ e = { d with dep.bufs := Tbl.del k d.dep.bufs }) →
        (Tbl.find d.dep.bufs k = some (poolTag cls obj + 1) → d.free addr cls obj = e.wr F.DEP_POOL_CLASS_INUSE cls (e.rd F.DEP_POOL_CLASS_INUSE cls - 1)) ∧
          (Tbl.find d.dep.bufs k ≠ some (poolTag cls obj + 1) → d.free addr cls obj = d.freeMisuse k cls)) ∧
  -- DEP_ACC_READ
  (∀ (s : State) (r : Req) (ecc : Ecc) (d e g : Dev) (x : TWord),
        (s.dev.reaches r = true ∧ s.dev.reqGate r 0x1600038 8 1 = (d, true) ∧ d.accGate r 1 = (e, true) ∧ e.depWake.depRead (e.rd F.DEP_ACC_ADDR_ADDR * 8) ecc = (g, x)) →
        (∀ fn, r ≠ .vf fn) →
        exec (.depAccRead r ecc) s = .next (s.on ((g.wr F.DEP_ACC_ADDR_POISON 0 (if isPoison x then 1 else 0)).emit (.readValue (TWord.val x).toNat)))) ∧
  -- DEP_ACC_WRITE
  (∀ (s : State) (r : Req) (v : Word) (d e : Dev),
        (s.dev.reaches r = true ∧ s.dev.reqGate r 0x1600038 8 2 = (d, true) ∧ d.accGate r 2 = (e, true)) →
        (∀ fn, r ≠ .vf fn) →
        exec (.depAccWrite r v) s = .next (s.on ((e.depWake.ev 11 1).setDepWord (e.rd F.DEP_ACC_ADDR_ADDR * 8) (mkWord v 0)))) ∧
  -- vf view
  (∀ (s : State) (fn : Fid) (a : BitVec 36) (ecc : Ecc) (x : Word),
        exec (.depBufAlloc (.vf fn)) s = .next s ∧ exec (.depBufFree (.vf fn) a) s = .next s ∧ exec (.depAccRead (.vf fn) ecc) s = .next s ∧
          exec (.depAccWrite (.vf fn) x) s = .next s) ∧
  -- acc gate
  (∀ (d : Dev) (r : Req) (need b : Nat),
        d.gateFail 0 (reqCls r) (reqFn r) (d.rd F.DEP_ACC_ADDR_ADDR * 8) 8 need = some b →
        d.accGate r need = ((d.deny 0 (reqCls r) (reqFn r) b).wr F.DEP_ACC_ADDR_DENIED 0 1, false)) ∧
  -- req gate
  (∀ (d : Dev) (r : Req) (a n need b : Nat),
        d.gateFail 1 (reqCls r) (reqFn r) a n need = some b →
        (∀ m, r = .pf m → d.reqGate r a n need = (if need = 1 then ((d.deny 1 (reqCls r) (reqFn r) b).bump F.HST_PORT_ERR_UR (m / 2)).emit .unsupported else d.deny 1 (reqCls r) (reqFn r) b, false)) ∧
          (r = .bcp → d.reqGate r a n need = ((d.deny 1 (reqCls r) (reqFn r) b).coreBus b, false)) ∧
          (r = .dbg → d.reqGate r a n need = ((d.deny 1 (reqCls r) (reqFn r) b).emit .unsupported, false))) ∧
  -- dep read
  (∀ (d : Dev) (a : Nat),
        d.depRead a .none = (d.ev 11 0, d.depWord a) ∧ d.depRead a .ce = (((d.ev 11 0).bump F.DEP_ECC_STAT_DEPOT_CE).fault 10, d.depWord a) ∧
          (∀ e : Dev, e = (((d.ev 11 0).bump F.DEP_ECC_STAT_DEPOT_UE).wr F.DEP_ECC_ADDR_ADDR 0 (a / 8 * 8)).wr F.DEP_ECC_ADDR_SCRUB 0 0 → d.depRead a .ue = ((e.setDepWord a (poisoned (e.depWord a))).fault 11, poisoned (d.depWord a)))) ∧
  -- POOL_AUDIT
  (∀ (s : State) (d : Dev),
        (s.dev.dark = false ∧ d = s.dev.advanceTo ((s.dev.ps / usPs 1 + 1) * usPs 1)) →
        exec .poolAudit s = .next (s.on (if d.poolFree + (List.range 5).foldl (fun n k => n + d.rd F.DEP_POOL_CLASS_INUSE k) 0 = d.poolBufs then d else d.fault 8))) ∧
  -- POOL_WALK
  (∀ (s : State),
        s.dev.dark = false →
        exec .poolWalk s = .next (s.on (if (List.range 5).all (fun k => s.dev.rd F.DEP_POOL_CLASS_INUSE k == s.dev.allocOf k) then s.dev else s.dev.fault 8))) ∧
  -- SCRUB_STEP (depot)
  (∀ (s : State),
        (s.dev.dark = false ∧ s.dev.flag F.DEP_SCRUB_CFG_EN = true) →
        exec (.scrubStep .none .depot) s = .next (s.on ((s.dev.depWake.depRead (s.dev.dep.scrubAt * 8) .none).1.scrubNext)) ∧
          exec (.scrubStep .ce .depot) s = .next (s.on ((s.dev.depWake.depRead (s.dev.dep.scrubAt * 8) .ce).1.scrubNext)) ∧
          (∀ (a : Nat) (e : Dev), a = s.dev.dep.scrubAt * 8 → e = (s.dev.depWake.depRead a .ue).1.wr F.DEP_ECC_ADDR_SCRUB 0 1 →
            (a < e.poolBase → exec (.scrubStep .ue .depot) s = .next (s.on e.scrubNext)) ∧
            (e.poolBase ≤ a → exec (.scrubStep .ue .depot) s = .next (s.on (e.bufPoison ((a - e.poolBase) / 2048) ((a - e.poolBase) % 2048)).scrubNext)))) ∧
  -- SCRUB_STEP (scratch)
  (∀ (s : State) (found : Ecc) (c : Fin 17) (w : BitVec 20),
        (s.dev.dark = false ∧ s.dev.flag F.DEP_SCRUB_CFG_EN = true) →
        (c.val = 16 ∨ w.toNat < 131072 → exec (.scrubStep found (.scratch c w)) s = .next (s.on (s.dev.scrRead c (w.toNat * 8) found).1)) ∧
          (c.val < 16 → 131072 ≤ w.toNat → exec (.scrubStep found (.scratch c w)) s = .next s)) ∧
  -- SCRUB_STEP (cache)
  (∀ (s : State) (m : CacheMem) (k : Nat),
        (s.dev.dark = false ∧ s.dev.flag F.DEP_SCRUB_CFG_EN = true) →
        exec (.scrubStep .none (.cache m k)) s = .next s ∧ exec (.scrubStep .ce (.cache m k)) s = .next (s.on ((s.dev.bump F.DEP_ECC_STAT_SRAM_CE).fault 10)) ∧
          exec (.scrubStep .ue (.cache m k)) s = .next (s.on (((s.dev.cacheDrop m k).bump F.DEP_ECC_STAT_SRAM_CE).fault 10))) ∧
  -- SCRUB_STEP (pass end)
  (∀ (s : State) (found : Ecc),
        (s.dev.dark = false ∧ s.dev.flag F.DEP_SCRUB_CFG_EN = true) →
        exec (.scrubStep found .other) s = .next (s.on (s.dev.sramEcc found)) ∧
          exec (.scrubStep found .passEnd) s = .next (s.on ((s.dev.sramEcc found).latchField F.DEP_SCRUB_CFG_SRAM_MIN)))

/-- Arbiters grant round robin with an age grant, cut long holds and resume what was preempted; clusters and the Depot are gated
and woken (R22, R494, R495, R496, R524, R526, R527). Where the model chose behind these rules: log entries 1, 16, 30
(notes/assumptions). -/
def Obligations.ArbitersAndGating : Prop :=
  -- ARB_GRANT
  (∀ (s : State) (a : Fin 6) (inst : Fin 64) (l : List (Fin 64)) (k : Nat),
        (s.dev.dark = false ∧ ¬ arbInsts a ≤ inst.val ∧ k = arbKey a inst) →
        exec (.arbGrant a inst l) s = .next (s.on (s.dev.setArb k (((s.dev.arb k).arrive a s.dev.ps (l.map Fin.val)).grantNext (s.dev.ageN a) s.dev.ps)))) ∧
  -- grant next
  (∀ (x : Arb) (ageN now : Nat),
        (∀ n held, x.preempted = some (n, held) → x.grantNext ageN now = { x with grant := some (n, now - held), preempted := none }) ∧
          (∀ n t, x.preempted = none → ageN ≤ x.count + 1 → x.longest = some (n, t) → x.grantNext ageN now = { x with waiting := x.waiting.erase (n, t), grant := some (n, now), last := n, count := 0 }) ∧
          (∀ n t, x.preempted = none → x.count + 1 < ageN → x.robin = some (n, t) → x.grantNext ageN now = { x with waiting := x.waiting.erase (n, t), grant := some (n, now), last := n, count := x.count + 1 })) ∧
  -- longest
  (∀ (x : Arb) (n t : Nat),
        x.longest = some (n, t) →
        (n, t) ∈ x.waiting ∧ ∀ e ∈ x.waiting, t < e.2 ∨ (t = e.2 ∧ n ≤ e.1)) ∧
  -- ARB_HOLD_CUT
  (∀ (s : State) (a : Fin 6) (inst : Fin 64) (k n t : Nat) (d e : Dev),
        (s.dev.dark = false ∧ k = arbKey a inst ∧ (s.dev.arb k).grant = some (n, t) ∧ ¬ n < 2) →
        (d = s.dev.setArb k { s.dev.arb k with grant := none, waiting := (s.dev.arb k).waiting ++ [(n, s.dev.ps)] } ∧ e = d.setReg R.ARB_FLAGS a (setBits (d.reg R.ARB_FLAGS a) n 1 1)) →
        exec (.arbHoldCut a inst) s = .next (s.on ((e.bump F.ARB_CNT_CUTS a).fault 13))) ∧
  -- DEPOT_PREEMPT
  (∀ (s : State) (inst : Fin 64) (by_ : Fin 2) (m t : Nat),
        (s.dev.dark = false ∧ s.dev.dep.selfRefresh = false ∧ (s.dev.arb inst).grant = some (m, t) ∧ ¬ m < 2) →
        exec (.depotPreempt inst by_) s = .next (s.on ((s.dev.setArb inst { s.dev.arb inst with grant := some (by_.val, s.dev.ps), preempted := some (m, s.dev.ps - t) }).bump F.ARB_CNT_PREEMPT 0))) ∧
  -- DEPOT_SELF_REFRESH
  (∀ (s : State) (d : Dev),
        (s.dev.dark = false ∧ s.dev.flag F.PWR_POLICY_DEPOT_SR_EN = true ∧ s.dev.dep.selfRefresh = false ∧ s.dev.dep.arbs.any (fun e => e.1 < 64 && !e.2.waiting.isEmpty) = false) →
        d = (s.dev.advance (usPs (max 10 (s.dev.rd F.PWR_GATE_CFG_SR_IDLE_US)))).ev 11 3 →
        exec .depotSelfRefresh s = .next (s.on { d with dep.selfRefresh := true })) ∧
  -- CLUSTER_CLOCK_GATE
  (∀ (s : State) (u : Fin 32),
        (s.dev.dark = false ∧ s.dev.unitWarm u = false ∧ s.dev.unitIdle u = true ∧ s.dev.domGated u false = false ∧ s.dev.domGated u true = false ∧ s.dev.eng.waking.contains u.val = false) →
        exec (.clusterClockGate u) s = .next (s.on ((s.dev.advanceTo (s.dev.idleFrom u + nsPs (clampTo 10 1000 (s.dev.rd F.PWR_GATE_CFG_CLK_IDLE_NS)))).setGated u false 1))) ∧
  -- CLUSTER_POWER_GATE
  (∀ (s : State) (u : Fin 32) (d : Dev),
        (s.dev.dark = false ∧ s.dev.unitWarm u = false ∧ s.dev.unitIdle u = true ∧ s.dev.domGated u true = false ∧ s.dev.eng.waking.contains u.val = false) →
        (u.val < 16 ∧ d = ((s.dev.advanceTo (s.dev.idleFrom u + usPs (max 10 (s.dev.rd F.PWR_GATE_CFG_PWR_IDLE_US)))).setGated u false 0).setGated u true 1) →
        exec (.clusterPowerGate u) s = .next (s.on { d with eng.imem := Tbl.del u.val d.eng.imem, eng.ahead := Tbl.del u.val d.eng.ahead, xlt.l1i := Tbl.del u.val d.xlt.l1i, xlt.l1d := Tbl.del u.val d.xlt.l1d })) ∧
  -- UNIT_WAKE_DONE
  (∀ (s : State) (u : Fin 32) (d e : Dev),
        (s.dev.dark = false ∧ s.dev.eng.waking.contains u.val = true) →
        d = ((s.dev.advance (if s.dev.domGated u true then nsPs 1500 else nsPs 20)).setGated u false 0).setGated u true 0 →
        e = { d with eng.waking := d.eng.waking.erase u.val, eng.idleSince := Tbl.put u.val d.ps d.eng.idleSince } →
        (u.val < 16 → exec (.unitWakeDone u) s = .next (s.on (if e.halted then e else e.rmaGo))) ∧
          (16 ≤ u.val → ∀ g, g = e.chKick (u.val - 16) → exec (.unitWakeDone u) s = .next (s.on (if g.halted then g else g.rmaGo))))

/-- Rails rise and fall in order, a rail that fails or BIVOUAC leaves the always-on domain alone, and a system reset keeps only
what R500 names (R498, R499, R500, R523, R528, R529, R582). Where the model chose behind these rules: log entries 1, 3, 19,
31 (notes/assumptions). -/
def Obligations.PowerStates : Prop :=
  -- POWER_ON
  (∀ (s : State),
        s.dev.pwr.state = .off →
        exec .powerOn s = .next { s with dev := { (s.dev.cold []).advance (msPs 2) with pwr := { s.dev.pwr with state := .bivouac, fromOff := true } }, txns := [], tap := {} }) ∧
  -- VAON_LOSS
  (∀ (s : State),
        exec .vaonLoss s = .next { s with dev := { s.dev.cold [] with pwr := { state := .off, en := 0, pg := 0, woLog := s.dev.pwr.woLog } }, txns := [], tap := {} }) ∧
  -- cold
  (∀ (d : Dev) (keep : Tbl Word) (e : Dev),
        (d.host.perstHigh = [] ∧ e = Dev.loadWhiteout { regs := keep, ps := d.ps, fresh := d.fresh, log := d.log, pwr := d.pwr, bcp := d.bcp.kept, host := {} }) →
        d.cold keep = if d.flag F.FLT_STAT_FAULT_OUT then e.emit (.pin "FAULT_N" 1) else e) ∧
  -- SYS_RESET
  (∀ (s : State) (d : Dev),
        (s.dev.pwr.state = .start ∨ s.dev.pwr.state = .run ∨ s.dev.pwr.state = .safe) →
        d = (s.dev.advance (usPs 10)).cold (keptRegs s.dev.regs) →
        exec .sysReset s = .next { s with dev := { d with pwr := { s.dev.pwr with state := .start, inReset := true, refBad := false } }, txns := resetTxns s.txns }) ∧
  -- reset txns
  (∀ (t : Tbl Txn),
        ∀ e ∈ resetTxns t, e.2 = { status := Status.TXN_NONE }) ∧
  -- SYS_RESET (low)
  (∀ (s : State),
        (s.dev.pwr.state = .off ∨ s.dev.pwr.state = .bivouac) →
        exec .sysReset s = .next (s.on { s.dev with pwr.inReset := true })) ∧
  -- SYS_RESET (whiteout)
  (∀ (s : State),
        s.dev.pwr.state = .whiteout →
        exec .sysReset s = .next s) ∧
  -- SYS_RESET_RELEASE (up)
  (∀ (s : State),
        (s.dev.pwr.state = .bivouac ∧ s.dev.pwr.fromOff = true ∧ s.dev.pwr.down = false) →
        exec .sysResetRelease s = .next (s.on (s.dev.startUp 0))) ∧
  -- SYS_RESET_RELEASE (start)
  (∀ (s : State) (d : Dev),
        (s.dev.pwr.state = .start ∧ s.dev.pwr.inReset = true) →
        d = Dev.wr { s.dev with pwr.inReset := false } F.PWR_STATE_EXIT_CAUSE 0 2 →
        exec .sysResetRelease s = .next (s.on (if d.pwr.pg = 0x1F then d.checkRef else d))) ∧
  -- start up
  (∀ (d : Dev) (cause : Nat),
        d.startUp cause = (Dev.wr { d with pwr.state := .start, pwr.fromOff := false, pwr.inReset := false, pwr.refBad := false, pwr.down := false, pwr.en := 0, pwr.pg := 0 } F.PWR_STATE_EXIT_CAUSE 0 cause).driveRail 0 true) ∧
  -- WAKE_N
  (∀ (s : State),
        (s.dev.pwr.state = .bivouac ∧ s.dev.pwr.fromOff = false ∧ s.dev.pwr.inReset = false ∧ s.dev.pwr.down = false) →
        exec .wakeN s = .next (s.on ((s.dev.advance (usPs 10)).startUp 1))) ∧
  -- RAIL_PG_RISE
  (∀ (s : State) (k : Fin 5) (d : Dev),
        (s.dev.pwr.down = false ∧ s.dev.pwr.en.getLsbD k = true ∧ s.dev.pwr.pg.getLsbD k = false) →
        d = { s.dev with pwr.pg := setRail s.dev.pwr.pg k true } →
        exec (.railPgRise k) s = .next (s.on (if k.val < 4 then (d.advance (usPs 100)).driveRail (k + 1) true else d.checkRef))) ∧
  -- check ref
  (∀ (d e : Dev) (n : Nat),
        d.pick 2 = (n, e) →
        d.checkRef = { e with pwr.refBad := n == 1 }) ∧
  -- RAIL_DOWN_STEP
  (∀ (s : State) (k : Fin 5) (n : Nat) (d : Dev),
        (s.dev.pwr.down = true ∧ s.dev.fallDue k = true ∧ s.dev.pick 2 = (n, d)) →
        exec (.railDownStep k) s = .next (s.on (if n = 1 then (d.advance (msPs 1)).railsDown else Dev.railsDown { d with pwr.pg := setRail d.pwr.pg k false }))) ∧
  -- fall due
  (∀ (d : Dev) (k : Nat),
        (d.fallDue (k + 1) = true ↔ topRail d.pwr.en = some k) ∧ (d.fallDue 0 = true ↔ topRail d.pwr.en = none)) ∧
  -- rails down
  (∀ (d : Dev),
        (topRail d.pwr.en = none → d.railsDown = { d with pwr.down := false, pwr.pg := 0 }) ∧
          (∀ k, topRail d.pwr.en = some k → d.railsDown = { d.driveRail k false with pwr.down := true })) ∧
  -- RAIL_PG_TIMEOUT
  (∀ (s : State) (k : Fin 5),
        (s.dev.railed = true ∧ s.dev.pwr.down = false ∧ s.dev.pwr.en.getLsbD k = true ∧ s.dev.pwr.pg.getLsbD k = false) →
        exec (.railPgTimeout k) s = .next { s with dev := (s.dev.advance (msPs 10)).railFail k 1, txns := [], tap := {} }) ∧
  -- RAIL_PG_LOST
  (∀ (s : State) (k : Fin 5),
        (s.dev.railed = true ∧ s.dev.pwr.down = false ∧ s.dev.pwr.en.getLsbD k = true ∧ s.dev.pwr.pg.getLsbD k = true) →
        exec (.railPgLost k) s = .next { s with dev := Dev.railFail { s.dev with pwr.pg := setRail s.dev.pwr.pg k false } k 2, txns := [], tap := {} }) ∧
  -- rail fail
  (∀ (d e : Dev) (k kind : Nat),
        e = (d.wr F.PWR_RAIL_FAULT_RAIL 0 (2 ^ k)).wr F.PWR_RAIL_FAULT_KIND 0 kind →
        d.railFail k kind = { (e.cold (keptRegs e.regs)).railsDown with pwr.state := .bivouac, pwr.refBad := false }) ∧
  -- REFCLK_RECHECK
  (∀ (s : State) (ok : Bool),
        (s.dev.pwr.state = .start ∧ s.dev.pwr.refBad = true) →
        exec (.refclkRecheck ok) s = .next (s.on { s.dev.advance (msPs 1) with pwr.refBad := !ok })) ∧
  -- PWR_ENTER_BIVOUAC
  (∀ (s : State),
        (s.dev.pwr.state = .run ∧ s.dev.mayBivouac = true) →
        exec .pwrEnterBivouac s = .next { s with dev := s.dev.bivouac, txns := [], tap := {} }) ∧
  -- PWR_ENTER_BIVOUAC (ignored)
  (∀ (s : State),
        (s.dev.pwr.state = .run ∧ s.dev.mayBivouac = false) →
        exec .pwrEnterBivouac s = .next s) ∧
  -- may bivouac
  (∀ (d : Dev),
        d.mayBivouac = true →
        ∀ p ∈ allPorts, d.lnk p = lsDown)

/-- The image that passes R504 runs, the other slot is tried once, READY ends START, and an activation swaps the firmware or
reverts (R503, R504, R505, R506, R509, R510, R520, R521, R522, R537). Where the model chose behind these rules: log entries
1, 3, 7, 31 (notes/assumptions). -/
def Obligations.BootAndFirmware : Prop :=
  -- FW_LOAD_DONE (ok)
  (∀ (s : State) (n : Nat) (l d e : Dev),
        (s.dev.pwr.state = .start ∧ s.dev.dark = false ∧ s.dev.rd F.BCP_FW_STAT_STATE = 0 ∧ n = s.dev.bcp.preferred % 2 ∧ l = s.dev.loadCode 0 (s.dev.slotImage n)) →
        (l.authOk (l.slotImage n) true = true ∧ d = l.startImage n 0 ∧ e = d.wr F.BCP_FW_STAT_FALLBACK 0 (if l.bcp.tried.isEmpty then 0 else 1)) →
        exec .fwLoadDone s = .next (s.on e.loadBoard)) ∧
  -- load board
  (∀ (d : Dev),
        (d.authOk d.boardRecord false = true → d.loadBoard = { d.boardRails with bcp.subsys := bitsOf d.boardRecord.code 0 32 }) ∧
          (d.authOk d.boardRecord false = false → d.loadBoard = Dev.fault { d with bcp.subsys := 0 } 24)) ∧
  -- board rails
  (∀ (d : Dev),
        d.boardRails = (List.range 5).foldl (fun e k => e.setReg R.PWR_PMB_ADDR k (BitVec.ofNat 64 (bitsOf e.boardRecord.code (64 * (k + 1)) 16))) d) ∧
  -- FW_LOAD_DONE (next)
  (∀ (s : State) (n : Nat) (l : Dev),
        (s.dev.pwr.state = .start ∧ s.dev.dark = false ∧ s.dev.rd F.BCP_FW_STAT_STATE = 0 ∧ n = s.dev.bcp.preferred % 2 ∧ l = s.dev.loadCode 0 (s.dev.slotImage n)) →
        (l.authOk (l.slotImage n) true = false ∧ l.bcp.tried = []) →
        exec .fwLoadDone s = .next (s.on { l.wr F.BCP_FW_STAT_STATE 0 1 with bcp.tried := [n], bcp.loading := 1 - n })) ∧
  -- FW_LOAD_DONE (no image)
  (∀ (s : State) (n : Nat) (l : Dev),
        (s.dev.pwr.state = .start ∧ s.dev.dark = false ∧ s.dev.rd F.BCP_FW_STAT_STATE = 1 ∧ n = s.dev.bcp.loading ∧ l = s.dev.loadCode 0 (s.dev.slotImage n)) →
        (l.authOk (l.slotImage n) true = false ∧ l.bcp.tried.isEmpty = false) →
        exec .fwLoadDone s = .next (s.on { l.wr F.BCP_FW_STAT_STATE 0 4 with bcp.tried := n :: l.bcp.tried })) ∧
  -- auth ok
  (∀ (d : Dev) (x : Image) (img : Bool),
        d.authOk x img = true ↔ x.formOk img = true ∧ Tbl.get d.bcp.keyHash 0 x.keyIdx ≠ 0 ∧ x.keyIdx ∉ d.bcp.revoked ∧ x.keyDigest = Tbl.get d.bcp.keyHash 0 x.keyIdx ∧ (img = true → d.bcp.rollback ≤ x.rollback) ∧ x.lenOk img = true ∧ sha384 x.code x.codeLen = x.codeHash ∧ x.sigOk = true) ∧
  -- form ok
  (∀ (x : Image) (img : Bool),
        (x.formOk img = true ↔ x.le 0 4 = (if img then 0x5746344C else 0x5242344C) ∧ x.le 4 2 = 1 ∧ x.le 20 44 = 0 ∧ x.le 209 47 = 0 ∧ x.le 352 3744 = 0) ∧
          (x.lenOk img = true ↔ x.le 12 4 % 8 = 0 ∧ x.le 12 4 ≤ codeMax img) ∧ x.keyDigest = sha384 (x.le 112 97) 97) ∧
  -- sig ok
  (∀ (x : Image),
        x.sigOk = true ↔ x.le 112 1 = 4 ∧ ecdsaOk (sha384 (x.le 0 256) 256) (bigEnd x.hdr 256 48) (bigEnd x.hdr 304 48) (bigEnd x.hdr 113 48) (bigEnd x.hdr 161 48) = true) ∧
  -- load code
  (∀ (d : Dev) (r : Nat) (x : Image),
        (x.lenOk true = true → d.loadCode r x = d.sramPut (codeRegion r) ((List.range (x.codeLen / 8)).map (fun i => BitVec.ofNat 64 (bitsOf x.code (64 * i) 64)))) ∧
          (x.lenOk true = false → d.loadCode r x = d)) ∧
  -- start image
  (∀ (d : Dev) (n r : Nat) (e : Dev),
        e = { d with bcp.region := r } →
        d.startImage n r = (e.startCore (e.slotImage n).entry 0).runImage n) ∧
  -- start core
  (∀ (d : Dev) (entry k : Nat),
        d.startCore entry k = d.setThr (1024 + k) { st := .ready, active := true, priv := true, pc := mkPc entry 0 0 }) ∧
  -- FW_READY (boot)
  (∀ (s : State) (d : Dev),
        (s.dev.bcp.swap = none ∧ s.dev.pwr.state = .start ∧ s.dev.dark = false ∧ s.dev.rd F.BCP_FW_STAT_STATE = 2 ∧ s.dev.flag F.BCP_FW_STAT_READY 0 = false) →
        (s.dev.flt.safeStart.filter (fun k => getBits (s.dev.reg R.FLT_STICKY) k 1 == 1) = [] ∧ d = { s.dev.wr F.BCP_FW_STAT_READY 0 1 with pwr.state := .run, flt.safeStart := [] }) →
        exec .fwReady s = .next (s.powered d.fwResume)) ∧
  -- FW_READY (safe)
  (∀ (s : State) (d : Dev) (k : Nat) (l : List Nat),
        (s.dev.bcp.swap = none ∧ s.dev.pwr.state = .start ∧ s.dev.dark = false ∧ s.dev.rd F.BCP_FW_STAT_STATE = 2 ∧ s.dev.flag F.BCP_FW_STAT_READY 0 = false) →
        (s.dev.flt.safeStart.filter (fun k => getBits (s.dev.reg R.FLT_STICKY) k 1 == 1) = k :: l ∧ d = { s.dev.wr F.BCP_FW_STAT_READY 0 1 with pwr.state := .run, flt.safeStart := [] }) →
        exec .fwReady s = .next (s.powered (d.fwResume.enterSafe k))) ∧
  -- FW_READY (swapped)
  (∀ (s : State) (n t m : Nat) (d : Dev),
        (s.dev.dark = false ∧ s.dev.bcp.swap = some (n, t, some m) ∧ (n == s.dev.rd F.BCP_FW_STAT_SLOT) = false) →
        d = { s.dev.handLoad.runImage n with bcp.swap := none, bcp.preferred := n, bcp.staged := none } →
        exec .fwReady s = .next (s.powered (d.mbxDone m Status.OK [0]).fwResume)) ∧
  -- FW_READY (kept)
  (∀ (s : State) (n t m : Nat) (d : Dev),
        (s.dev.dark = false ∧ s.dev.bcp.swap = some (n, t, some m) ∧ (n == s.dev.rd F.BCP_FW_STAT_SLOT) = true) →
        d = { s.dev.handLoad.runImage n with bcp.swap := none } →
        exec .fwReady s = .next (s.powered (d.mbxDone m Status.OK [1]).fwResume)) ∧
  -- fw resume
  (∀ (d e : Dev),
        e = (if d.bcp.margin then d.applyMargin else d) →
        d.fwResume = (Dev.serveHeld { e.bcp.alarms.foldl (fun d p => d.alarmAct p) e with bcp.alarms := [] } 16)) ∧
  -- FW_SWAP_TIMEOUT
  (∀ (s : State) (n t : Nat) (m : Option Nat) (d : Dev),
        (s.dev.bcp.swap = some (n, t, m) ∧ s.dev.dark = false ∧ ¬ n = s.dev.rd F.BCP_FW_STAT_SLOT) →
        d = (s.dev.advanceTo (t + msPs 20)).wr F.BCP_FW_STAT_REVERTED 0 1 →
        exec .fwSwapTimeout s = .next (s.on (Dev.fault { d.startCores (d.rd F.BCP_FW_STAT_SLOT) (1 - d.bcp.region) (List.range 4) with bcp.swap := some (d.rd F.BCP_FW_STAT_SLOT, t, m) } 25))) ∧
  -- MBX_FW_STAGE
  (∀ (s : State) (m : Fin 8),
        (s.dev.mbxNew m 3 ∧ s.dev.bcp.stage = none) →
        (2 ^ 23 < s.dev.mbxWord m 2 → exec (.mbxFwStage m) s = .next (s.powered (s.dev.mbxDone m Status.ARG []))) ∧
          (∀ e st, s.dev.mbxWord m 2 ≤ 2 ^ 23 → s.dev.winUse (s.dev.mbxWord m 0) (localPeer (pfOfMbx m) true) rLR (s.dev.mbxWord m 1) (s.dev.mbxWord m 2) = (e, st) → st ≠ 0 →
            exec (.mbxFwStage m) s = .next (s.powered (e.mbxDone m st []))) ∧
          (∀ e g : Dev, s.dev.mbxWord m 2 ≤ 2 ^ 23 → s.dev.winUse (s.dev.mbxWord m 0) (localPeer (pfOfMbx m) true) rLR (s.dev.mbxWord m 1) (s.dev.mbxWord m 2) = (e, 0) →
            g = { e with bcp.stage := some { mbx := m, win := e.mbxWord m 0, off := e.mbxWord m 1, len := e.mbxWord m 2 } } →
            exec (.mbxFwStage m) s = .next (s.powered g.stageStep))) ∧
  -- MBX_FW_STAGE (waits)
  (∀ (s : State) (m : Fin 8) (j : Stage),
        (s.dev.mbxNew m 3 ∧ s.dev.bcp.stage = some j) →
        ((j.mbx ≠ m ∨ s.dev.halted = false) → exec (.mbxFwStage m) s = .next (s.powered s.dev)) ∧
          (j.mbx = m → s.dev.halted = true → exec (.mbxFwStage m) s = .next (s.powered (s.dev.stageStop Status.HOST_ERROR)))) ∧
  -- stage step
  (∀ (d : Dev) (j : Stage) (k : Nat),
        (d.bcp.stage = some j ∧ k = min (4096 - d.winVa j.win (j.off + j.got) % 4096) (j.len - j.got)) →
        (j.len ≤ j.got → d.stageStep = (d.stageImage j.len j.data).1.stageStop (d.stageImage j.len j.data).2) ∧
          (j.got < j.len → ∀ e st, d.winRead .stage j.win (j.off + j.got) k j.got = (e, .fail st) → d.stageStep = e.stageStop st) ∧
          (j.got < j.len → ∀ e, d.winRead .stage j.win (j.off + j.got) k j.got = (e, .wait) ∨ d.winRead .stage j.win (j.off + j.got) k j.got = (e, .done) → d.stageStep = e)) ∧
  -- stage stop
  (∀ (d : Dev) (j : Stage) (st : Nat),
        d.bcp.stage = some j →
        d.stageStop st = Dev.mbxDone { d.disown .stage with bcp.stage := none } j.mbx st []) ∧
  -- stage image
  (∀ (d : Dev) (len data : Nat) (g : Dev) (n : Nat),
        (n = d.idleSlot ∧ g = { d with bcp.flash := (List.range ((len + 4095) / 4096)).foldl (fun t i => Tbl.set 0 (256 + 2048 * n + i) (bitsOf (data % 2 ^ (8 * len)) (32768 * i) 32768) t) (d.bcp.flash.filter (fun e => e.1 < 256 + 2048 * n || 256 + 2048 * n + 2048 ≤ e.1)) }) →
        (g.authOk (g.slotImage n) true = true → d.stageImage len data = ({ g with bcp.staged := some n }, 0)) ∧
          (g.authOk (g.slotImage n) true = false → d.stageImage len data = ({ g with bcp.staged := none }, Status.AUTH_FAIL))) ∧
  -- MBX_FW_ACTIVATE (swap)
  (∀ (s : State) (m : Fin 8) (l : Dev),
        (s.dev.mbxNew m 4 ∧ s.dev.loadNext s.dev.nextSlot = (l, true) ∧ ¬ l.rd F.BCP_FW_STAT_STATE = 4) →
        exec (.mbxFwActivate m) s = .next (s.powered (l.blackout s.dev.nextSlot (some m)))) ∧
  -- MBX_FW_ACTIVATE (fail)
  (∀ (s : State) (m : Fin 8) (l : Dev),
        (s.dev.mbxNew m 4 ∧ s.dev.loadNext s.dev.nextSlot = (l, false)) →
        exec (.mbxFwActivate m) s = .next (s.powered (l.mbxDone m Status.AUTH_FAIL []))) ∧
  -- load next
  (∀ (d : Dev) (n : Nat) (l : Dev),
        l = d.loadCode (1 - d.bcp.region) (d.slotImage n) →
        d.loadNext n = (l, l.authOk (l.slotImage n) true)) ∧
  -- MBX_FW_ACTIVATE (no image)
  (∀ (s : State) (m : Fin 8) (l d : Dev),
        (s.dev.mbxNew m 4 ∧ s.dev.loadNext s.dev.nextSlot = (l, true) ∧ l.rd F.BCP_FW_STAT_STATE = 4) →
        d = l.startImage s.dev.nextSlot (1 - l.bcp.region) →
        exec (.mbxFwActivate m) s = .next (s.powered (d.loadBoard.mbxDone m Status.OK [0]))) ∧
  -- blackout
  (∀ (d : Dev) (n : Nat) (m : Option Nat) (e g : Dev),
        (e = { (d.disown .stage).handSave with bcp.stage := none } ∧ g = e.startCores n (1 - e.bcp.region) (List.range 4)) →
        d.blackout n m = { g.wr F.BCP_FW_STAT_STATE 0 3 with bcp.swap := some (n, g.ps, m) }) ∧
  -- start cores
  (∀ (d : Dev) (n r : Nat) (l : List Nat),
        d.startCores n r l = l.foldl (fun e k => e.startCore (e.slotImage n).entry k) { d with bcp.region := r }) ∧
  -- PLDM_MESSAGE
  (∀ (s : State),
        (s.dev.dark = false ∧ s.dev.bcp.swap = none ∧ s.dev.rd F.BCP_FW_STAT_STATE = 2) →
        exec .pldmMessage s = .next (s.powered s.dev.pldmServe)) ∧
  -- PLDM_MESSAGE (held)
  (∀ (s : State) (x : Nat × Nat × Option Nat),
        (s.dev.dark = false ∧ s.dev.bcp.swap = some x) →
        exec .pldmMessage s = .next (s.powered (if s.dev.bcp.mctp < 16 then { s.dev with bcp.mctp := s.dev.bcp.mctp + 1 } else s.dev))) ∧
  -- SIDEBAND_READ
  (∀ (s : State),
        ¬ s.dev.pwr.state = .off →
        exec .sidebandRead s = .next (s.on ((s.dev.emit (.board 2 (s.dev.view R.GLB_ID 0).toNat)).emit (.board 3 orderingCode))))

/-- A mailbox request is judged by SEQ, runs its opcode and answers; exception records and CTL entries are served in order of
arrival (R508, R509, R511, R512, R513, R514, R515, R529, R541). Where the model chose behind these rules: log entries 1, 5,
31 (notes/assumptions). -/
def Obligations.MailboxesAndManagement : Prop :=
  -- mbx serve
  (∀ (d : Dev) (m : Nat) (is : Nat → Bool) (f : Dev → Dev),
        (d.mbxWaits m is = false → d.mbxServe m is f = d) ∧
          (d.mbxWaits m is = true → d.rd F.BCP_MBX_CTL_SEQ m = (d.rd F.BCP_MBX_STAT_DONE_SEQ m + 1) % 2 ^ 16 → d.mbxServe m is f = f d) ∧
          (d.mbxWaits m is = true → d.rd F.BCP_MBX_CTL_SEQ m ≠ (d.rd F.BCP_MBX_STAT_DONE_SEQ m + 1) % 2 ^ 16 → d.rd F.BCP_MBX_CTL_SEQ m = d.rd F.BCP_MBX_STAT_DONE_SEQ m → d.mbxServe m is f = d.mbxEnd m) ∧
          (d.mbxWaits m is = true → d.rd F.BCP_MBX_CTL_SEQ m ≠ (d.rd F.BCP_MBX_STAT_DONE_SEQ m + 1) % 2 ^ 16 → d.rd F.BCP_MBX_CTL_SEQ m ≠ d.rd F.BCP_MBX_STAT_DONE_SEQ m → d.mbxServe m is f = (d.wr F.BCP_MBX_STAT_STATUS m Status.MBX_SEQ).mbxEnd m)) ∧
  -- mbx waits
  (∀ (d : Dev) (m op : Nat),
        d.mbxWaits m (fun o => o == op) = true ↔ d.flag F.BCP_MBX_STAT_BUSY m = true ∧ d.rd F.BCP_MBX_CTL_OPCODE m = op ∧ (d.fwRuns = true ∨ (d.dark = false ∧ d.rd F.BCP_FW_STAT_STATE = 4 ∧ (op = 1 ∨ op = 3 ∨ op = 4)))) ∧
  -- mbx done
  (∀ (d e g : Dev) (m st : Nat) (rsp : List Word),
        e = (rsp.mapIdx (fun i v => (i, v))).foldl (fun d x => d.setReg R.BCP_MBX_RSP (m * 16 + x.1) x.2) d →
        g = (((e.wr F.BCP_MBX_STAT_RSP_WORDS m rsp.length).wr F.BCP_MBX_STAT_STATUS m st).wr F.BCP_MBX_STAT_DONE_SEQ m (e.rd F.BCP_MBX_CTL_SEQ m)).wr F.BCP_MBX_STAT_BUSY m 0 →
        (g.flag F.BCP_MBX_CTL_INT_EN m = true → d.mbxDone m st rsp = g.raise (pfOfMbx m) (g.rd F.BCP_MBX_CTL_INT_NUM m)) ∧
          (g.flag F.BCP_MBX_CTL_INT_EN m = false → d.mbxDone m st rsp = g)) ∧
  -- MBX_GET_INFO
  (∀ (s : State) (m : Fin 8),
        s.dev.mbxNew m 1 →
        exec (.mbxGetInfo m) s = .next (s.powered (s.dev.mbxDone m Status.OK [s.dev.view R.BCP_FW_STAT 0, s.dev.view R.GLB_ID 0]))) ∧
  -- MBX_GATE_WRITE
  (∀ (s : State) (m : Fin 8) (p : Nat) (d : Dev) (t : State),
        (s.dev.mbxNew m 2 ∧ (s.txn 8).phase = .none ∧ s.dev.mbxWord m 0 ≠ 0 ∧ s.dev.mbxWord m 0 ≤ 7 ∧ s.dev.pick 2 = (p, d)) →
        ((s.dev.gatePairs m).any (fun e => !gateOffset e.1 || e.1 % 8 != 0) = false ∧ (s.dev.gatePairs m).any (fun e => (d.gateFail 1 4 none e.1 8 2).isSome) = false) →
        t = (((s.dev.gatePairs m).foldl (fun s (e : Nat × Word) => s.regWrite .bcp 1024 e.1 8 e.2) ((s.on d).txnBegin 8)).txnCommit 8).txnApplied 8 →
        exec (.mbxGateWrite m) s = .next (State.settled s.dev (if p = 1 then s.on (d.mbxDone m Status.ARG []) else t.on (t.dev.mbxDone m (t.txn 8).status [])))) ∧
  -- MBX_FUSE_ROLLBACK
  (∀ (s : State) (m : Fin 8),
        s.dev.mbxNew m 5 →
        exec (.mbxFuseRollback m) s = .next (s.powered (Dev.mbxDone { s.dev with bcp.rollback := max s.dev.bcp.rollback s.dev.bcp.runRollback } m Status.OK []))) ∧
  -- MBX_KEY_REVOKE
  (∀ (s : State) (m : Fin 8) (k : Nat),
        (s.dev.mbxNew m 6 ∧ k = s.dev.mbxWord m 0) →
        exec (.mbxKeyRevoke m) s = .next (s.powered (if 3 < k || k = (s.dev.slotImage (s.dev.rd F.BCP_FW_STAT_SLOT)).keyIdx then s.dev.mbxDone m Status.ARG [] else Dev.mbxDone (if s.dev.bcp.revoked.contains k then s.dev else { s.dev with bcp.revoked := k :: s.dev.bcp.revoked }) m Status.OK []))) ∧
  -- MBX_MODULE_PAGE (read)
  (∀ (s : State) (m : Fin 8) (w : Word) (p n v : Nat) (d : Dev),
        (s.dev.mbxNew m 7 ∧ w = s.dev.reg R.BCP_MBX_REQ (m * 16) ∧ p = getBits w 0 8 ∧ n = getBits w 32 8) →
        (allPorts.contains p = true ∧ s.dev.flag F.PRT_MOD_STAT_PRESENT p = true ∧ ¬ n = 0 ∧ ¬ 64 < n ∧ ¬ 256 < getBits w 24 8 + n ∧ w.getLsbD 40 = false) →
        s.dev.cmisRead (p * 2 ^ 24 + getBits w 16 8 * 2 ^ 16 + getBits w 8 8 * 2 ^ 8 + getBits w 24 8) n = (v, d) →
        exec (.mbxModulePage m) s = .next (s.powered ((d.modXfer p false (getBits w 16 8) (getBits w 8 8) (getBits w 24 8) n v).mbxDone m Status.OK ((List.range ((n + 7) / 8)).map (fun i => BitVec.ofNat 64 (bitsOf v (64 * i) 64)))))) ∧
  -- MBX_MODULE_PAGE (write)
  (∀ (s : State) (m : Fin 8) (w : Word) (p n key x : Nat) (d : Dev),
        (s.dev.mbxNew m 7 ∧ w = s.dev.reg R.BCP_MBX_REQ (m * 16) ∧ p = getBits w 0 8 ∧ n = getBits w 32 8) →
        (allPorts.contains p = true ∧ s.dev.flag F.PRT_MOD_STAT_PRESENT p = true ∧ ¬ n = 0 ∧ ¬ 64 < n ∧ ¬ 256 < getBits w 24 8 + n ∧ w.getLsbD 40 = true) →
        key = p * 2 ^ 24 + getBits w 16 8 * 2 ^ 16 + getBits w 8 8 * 2 ^ 8 + getBits w 24 8 →
        d = (List.range n).foldl (fun d i => { d with bcp.cmis := Tbl.put (key + i) (bitsOf (d.mbxWord m (1 + i / 8)) (8 * (i % 8)) 8) d.bcp.cmis }) s.dev →
        x = (List.range n).foldl (fun v i => v + bitsOf (d.mbxWord m (1 + i / 8)) (8 * (i % 8)) 8 * 2 ^ (8 * i)) 0 →
        exec (.mbxModulePage m) s = .next (s.powered (Dev.mbxDone (d.modXfer p true (getBits w 16 8) (getBits w 8 8) (getBits w 24 8) n x) m Status.OK []))) ∧
  -- MBX_PARAM
  (∀ (s : State) (m : Fin 8) (w : Word) (e : Nat),
        (s.dev.mbxNew m 8 ∧ w = s.dev.reg R.BCP_MBX_REQ (m * 16) ∧ e = getBits w 0 8 ∧ e ≠ 240) →
        exec (.mbxParam m) s = .next (s.powered (if w.getLsbD 8 then Dev.mbxDone { s.dev with bcp.params := Tbl.set 0 e (s.dev.reg R.BCP_MBX_REQ (m * 16 + 1)) s.dev.bcp.params } m Status.OK [] else s.dev.mbxDone m Status.OK [Tbl.get s.dev.bcp.params 0 e]))) ∧
  -- MBX_PARAM (whiteout)
  (∀ (s : State) (m : Fin 8) (w : Word) (src t : Nat),
        (s.dev.mbxNew m 8 ∧ w = s.dev.reg R.BCP_MBX_REQ (m * 16) ∧ getBits w 0 8 = 240 ∧ s.dev.pwr.woLog = some (src, t)) →
        exec (.mbxParam m) s = .next (s.powered (if w.getLsbD 8 then Dev.mbxDone { s.dev with pwr.woLog := none, bcp.params := Tbl.del 240 s.dev.bcp.params } m Status.OK [] else s.dev.mbxDone m Status.OK [BitVec.ofNat 64 (src + 64), BitVec.ofNat 64 t]))) ∧
  -- MBX_BIVOUAC
  (∀ (s : State) (m : Fin 8),
        s.dev.mbxNew m 9 →
        exec (.mbxBivouac m) s = .next (s.powered (if s.dev.pwr.state = .run && s.dev.mayBivouac then s.dev.bivouac else s.dev.mbxDone m Status.ARG []))) ∧
  -- MBX_OTHER_OPCODE
  (∀ (s : State) (m : Fin 8),
        (s.dev.mbxWaits m (fun o => o == 0 || decide (9 < o)) = true ∧ judgeSeq (s.dev.rd F.BCP_MBX_CTL_SEQ m) (s.dev.rd F.BCP_MBX_STAT_DONE_SEQ m) = .execute) →
        exec (.mbxOtherOpcode m) s = .next (s.powered (s.dev.mbxDone m Status.ARG []))) ∧
  -- EXC_SERVE
  (∀ (s : State) (f : Fid) (st v : Word) (x : ExcRec) (d : Dev),
        (s.dev.bcp.exc.find? (fun e => e.fn == f.val) = some x ∧ s.dev.fwRuns = true ∧ d = { s.dev with bcp.exc := s.dev.bcp.exc.erase x }) →
        ((x.words.headD 0).getLsbD 16 = true → exec (.excServe f st v) s = .next (s.on (d.raiseEvent { slot := getBits (x.words.headD 0) 17 10, entry := getBits (x.words.headD 0) 27 4, fn := x.fn, kind := 4, w1 := 0xFFFE, w2 := x.words.getD 1 0, w3 := st, w4 := v }))) ∧
          ((x.words.headD 0).getLsbD 16 = false → exec (.excServe f st v) s = .next (s.on d))) ∧
  -- CTL_DISPATCH
  (∀ (s : State) (e : CtlEnt) (g d : Dev),
        g = s.dev.fwTake →
        (g.bcp.ring.find? CtlEnt.forFn = some e ∧ g.dark = false ∧ g.fnOn e.cell.dstFn = true ∧ g.placeEvent (g.ctlEvent e.cell) = (d, true)) →
        exec .ctlDispatch s = .next (s.on { d with bcp := { d.bcp with ring := d.bcp.ring.erase e } })) ∧
  -- fw take
  (∀ (d : Dev),
        (d.fwRuns = false → d.fwTake = d) ∧
          (∀ own n e, d.fwRuns = true → own = d.bcp.ring.filter (fun x => !x.forFn) → d.pick (own.length + 1) = (n, e) →
            d.fwTake = { e with bcp.ring := e.bcp.ring.filter (fun x => !(own.take n).contains x) })) ∧
  -- CTL_DISPATCH (off)
  (∀ (s : State) (e : CtlEnt) (g : Dev),
        g = s.dev.fwTake →
        (g.bcp.ring.find? CtlEnt.forFn = some e ∧ g.dark = false ∧ g.fnOn e.cell.dstFn = false) →
        exec .ctlDispatch s = .next (s.on (Dev.bump { g with bcp := { g.bcp with ring := g.bcp.ring.erase e } } F.BCP_CTL_STAT_FN_DROP))) ∧
  -- CTL_SEND
  (∀ (s : State) (c x : Cell),
        (s.dev.fwRuns = true ∧ ¬ 512 ≤ s.dev.bcp.ctlOut + (s.dev.bcp.ring.filter (fun e => e.kind == 2)).length ∧ x = (((c.setBits 44 4 12).setBits 32 12 0xFFF).setBits 28 4 0).setBits 26 2 0) →
        exec (.ctlSend c) s = .next (s.on { s.dev with sch.ctl := s.dev.sch.ctl ++ [{ cell := x, fn := x.dstFn, cls := 3, retx := false, slot := none, own := true, col := none, last := true }], bcp.ctlOut := s.dev.bcp.ctlOut + 1 }))

/-- Register accesses pass their gate and reach the register of their offset; staged fields are held, marked, applied at one
instant or dropped (R3, R5, R438, R516, R517, R518, R519, R595, R596, R597, R598). Where the model chose behind these rules:
log entry 32 (notes/assumptions). -/
def Obligations.TransactionsAndRegisterAccess : Prop :=
  -- txn commands
  (∀ (s : State) (r : Req) (k : Nat) (d : Dev),
        (txnKey r = some k ∧ s.dev.reaches r = true ∧ s.dev.reqGate r 0x100 8 2 = (d, true)) →
        exec (.txnBegin r) s = .next ((s.on d).txnBegin k) ∧ exec (.txnCommit r) s = .next ((s.on d).txnCommit k) ∧
          exec (.txnRollback r) s = .next ((s.on d).txnRollback k)) ∧
  -- TXN_APPLIED
  (∀ (s : State) (r : Req) (k : Nat),
        (txnKey r = some k ∧ s.dev.dark = false) →
        exec (.txnApplied r) s = .next (s.txnApplied k)) ∧
  -- TXN_TIMEOUT
  (∀ (s : State) (r : Req) (k : Nat),
        (txnKey r = some k ∧ s.dev.dark = false) →
        exec (.txnTimeout r) s = .next (s.txnTimeout k)) ∧
  -- txn none
  (∀ (s : State) (k : Nat) (x : Txn),
        (x = s.txn k ∧ x.phase = .none) →
        s.txnBegin k = s.setTxn k { x with phase := .opened, status := 0, conflict := false, full := false, held := [], begun := s.dev.ps } ∧
          s.txnCommit k = s.setTxn k { x with status := Status.TXN_NONE } ∧ s.txnRollback k = s.setTxn k { x with status := Status.TXN_NONE } ∧
          s.txnApplied k = s ∧ s.txnTimeout k = s) ∧
  -- txn opened
  (∀ (s : State) (k : Nat) (x : Txn),
        (x = s.txn k ∧ x.phase = .opened) →
        s.txnBegin k = s.setTxn k { x with status := Status.TXN_CONFLICT } ∧
          s.txnCommit k = s.setTxn k { x with phase := .committing } ∧ s.txnRollback k = s.setTxn k (x.over 0) ∧
          s.txnApplied k = s ∧ s.txnTimeout k = (s.on (s.dev.advanceTo x.due)).setTxn k (x.over Status.TXN_NONE)) ∧
  -- due
  (∀ (x : Txn),
        x.due = x.begun + msPs (max 1 x.timeoutMs)) ∧
  -- txn committing
  (∀ (s : State) (k : Nat) (x : Txn),
        (x = s.txn k ∧ x.phase = .committing) →
        ((x.conflict = true ∨ x.full = true) → s.txnApplied k = s.setTxn k (x.over Status.TXN_CONFLICT)) ∧
          (x.conflict = false → x.full = false → s.txnApplied k = (s.on (s.dev.applyHeld x.held)).setTxn k (x.over Status.OK)) ∧
          s.txnBegin k = s ∧ s.txnCommit k = s ∧ s.txnRollback k = s ∧ s.txnTimeout k = s) ∧
  -- stage
  (∀ (s : State) (k key off : Nat) (m v : Word) (x : Txn),
        x = s.txn k →
        ((heldBy s.txns k key).isSome = true → s.stage k key off m v = s.setTxn k (x.clash off)) ∧
          (∀ m0 v0, (heldBy s.txns k key).isSome = false → Tbl.find x.held key = some (m0, v0) → s.stage k key off m v = s.setTxn k { x with held := Tbl.put key (m0 ||| m, (v0 &&& ~~~m) ||| (v &&& m)) x.held }) ∧
          ((heldBy s.txns k key).isSome = false → Tbl.find x.held key = none → 4096 ≤ heldTotal s.txns → s.stage k key off m v = s.setTxn k { x with full := true }) ∧
          ((heldBy s.txns k key).isSome = false → Tbl.find x.held key = none → heldTotal s.txns < 4096 → s.stage k key off m v = s.setTxn k { x with held := Tbl.put key (m, v &&& m) x.held })) ∧
  -- REG_WRITE
  (∀ (s : State) (r : Req) (a : BitVec 28) (n : Nat) (v : Word) (d : Dev),
        (s.dev.asleep (.bar0 r) = false ∧ s.dev.reaches r = true ∧ accessOk a.toNat n = true ∧ s.dev.reqGate r a.toNat n 2 = (d, true)) →
        exec (.regWrite (.bar0 r) a n v) s = .next (State.settled s.dev ((s.on d).regWrite r 1024 a.toNat n v))) ∧
  -- REG_WRITE (unsupported)
  (∀ (s : State) (r : Req) (a : BitVec 28) (n : Nat) (v : Word),
        (s.dev.asleep (.bar0 r) = false ∧ s.dev.reaches r = true ∧ accessOk a.toNat n = false) →
        exec (.regWrite (.bar0 r) a n v) s = .next (s.on (s.dev.badAccess r))) ∧
  -- REG_WRITE (denied)
  (∀ (s : State) (r : Req) (a : BitVec 28) (n : Nat) (v : Word) (d : Dev),
        (s.dev.asleep (.bar0 r) = false ∧ s.dev.reaches r = true ∧ accessOk a.toNat n = true ∧ s.dev.reqGate r a.toNat n 2 = (d, false)) →
        exec (.regWrite (.bar0 r) a n v) s = .next (s.on d)) ∧
  -- REG_WRITE (places)
  (∀ (s : State) (fn : Fid) (m : Fin 17) (a : BitVec 28) (n : Nat) (v : Word),
        (∀ r, s.dev.asleep r = true → exec (.regWrite r a n v) s = .next (s.on (s.dev.emit .unsupported)) ∧ exec (.readClear r a n) s = .next (s.on (s.dev.emit .unsupported))) ∧
          (s.dev.asleep (.bar4 fn) = false → exec (.regWrite (.bar4 fn) a n v) s = .next (State.settled s.dev (s.on (s.dev.bar4Access fn a.toNat n (some v.toNat)))) ∧
            exec (.readClear (.bar4 fn) a n) s = .next (State.settled s.dev (s.on (s.dev.bar4Access fn a.toNat n none)))) ∧
          exec (.regWrite (.cfg fn) a n v) s = .next (State.settled s.dev (s.on (s.dev.cfgAccess fn a.toNat (some (bitsOf v.toNat 0 32))))) ∧
          exec (.readClear (.cfg fn) a n) s = .next (State.settled s.dev (s.on (s.dev.cfgAccess fn a.toNat none))) ∧
          exec (.regWrite (.mem m) a n v) s = .next (State.settled s.dev (s.on (s.dev.dbgMem m a.toNat n (some v)))) ∧
          exec (.readClear (.mem m) a n) s = .next (State.settled s.dev (s.on (s.dev.dbgMem m a.toNat n none)))) ∧
  -- cfg access
  (∀ (d : Dev) (f off : Nat) (x : Nat),
        (d.dark = false ∧ d.flag F.BCP_FW_STAT_READY = true) →
        (d.fnExists f = false → d.cfgAccess f off (some x) = d.emit .unsupported ∧ d.cfgAccess f off none = d.emit .unsupported) ∧
          (d.fnExists f = true → d.cfgAccess f off (some x) = d.cfgWrite f (off / 4 * 4) x ∧ d.cfgAccess f off none = d.cfgRead f (off / 4 * 4))) ∧
  -- cfg write
  (∀ (d : Dev) (f v : Nat),
        (bitsOf v 2 1 = 1 → d.cfgWrite f 0x04 v = d.masterSet f) ∧ (bitsOf v 2 1 ≠ 1 → d.cfgWrite f 0x04 v = d.masterClear f) ∧
          d.cfgWrite f 0x48 v = d.devCtl f v ∧ d.cfgWrite f 0x68 v = d.devCtl2 f v ∧
          d.cfgWrite f 0x90 v = Dev.msixRelease { d with host.fnMask := Tbl.set false f (bitsOf v 30 1 == 1) d.host.fnMask } f) ∧
  -- dev ctl
  (∀ (d e : Dev) (f v : Nat),
        e = { d with host.roOff := Tbl.set false f (bitsOf v 4 1 == 0) d.host.roOff, host.mps := Tbl.set 0 f (min 2 (bitsOf v 5 3)) d.host.mps, host.mrrs := Tbl.set 2 f (min 5 (bitsOf v 12 3)) d.host.mrrs } →
        (bitsOf v 15 1 = 1 → d.devCtl f v = e.flr f) ∧ (bitsOf v 15 1 ≠ 1 → d.devCtl f v = e) ∧
          d.devCtl2 f v = { d with host.cto := Tbl.set 0 f (bitsOf v 0 4) d.host.cto, host.ctoOff := Tbl.set false f (bitsOf v 4 1 == 1) d.host.ctoOff, host.ido := Tbl.set false f (bitsOf v 8 1 == 1) d.host.ido }) ∧
  -- bar4 access
  (∀ (d : Dev) (f off n v : Nat),
        (d.dark = false ∧ d.fnExists f = true ∧ accessOk off n = true) →
        d.bar4Access f off n (some v) = d.bar4Write f off n v ∧
          d.bar4Access f off n none = d.emit (.readValue (d.bar4Word f off + (if n = 8 then d.bar4Word f (off + 4) else 0) * 2 ^ 32))) ∧
  -- bar4 word
  (∀ (d : Dev) (f : Nat) (e : MsixEnt),
        e = Tbl.get d.host.msix {} f →
        d.bar4Word f 0 = bitsOf e.addr.toNat 0 32 ∧ d.bar4Word f 4 = bitsOf e.addr.toNat 32 32 ∧ d.bar4Word f 8 = e.data.toNat ∧
          d.bar4Word f 12 = (if e.masked then 1 else 0) ∧ d.bar4Word f 0x800 = (if Tbl.get d.host.msixPend false f then 1 else 0)) ∧
  -- bar4 write
  (∀ (d : Dev) (f off v : Nat),
        d.bar4Write f off 4 v = Dev.msixRelease { d with host.msix := Tbl.set {} f ((Tbl.get d.host.msix {} f).put off (bitsOf v 0 32)) d.host.msix } f ∧
          d.bar4Write f off 8 v = Dev.msixRelease { d with host.msix := Tbl.set {} f (((Tbl.get d.host.msix {} f).put off (bitsOf v 0 32)).put (off + 4) (bitsOf v 32 32)) d.host.msix } f) ∧
  -- dbg mem
  (∀ (d e g : Dev) (m : Fin 17) (a n : Nat) (x : Word),
        (d.dark = false ∧ accessOk a n = true ∧ e = (if m.val = 16 then d else d.wake m)) →
        (e.dbgGate m a n 2 = (g, true) → d.dbgMem m a n (some x) = g.setScrWord m a (mergeWord (g.scrWord m a) (mkWord x 0) a n)) ∧
          (e.dbgGate m a n 1 = (g, true) → d.dbgMem m a n none = g.emit (.readValue (accessPart a n (TWord.val (g.scrWord m a))))) ∧
          (e.dbgGate m a n 2 = (g, false) → d.dbgMem m a n (some x) = g.emit .unsupported) ∧
          (e.dbgGate m a n 1 = (g, false) → d.dbgMem m a n none = g.emit .unsupported)) ∧
  -- dbg gate
  (∀ (d : Dev) (c a n need : Nat),
        d.dbgGate 16 a n need = (d, decide (a + n ≤ 2 ^ 23) && !d.flag F.TGT_CFG_DBG_LOCK) ∧
          (∀ b, c ≠ 16 → d.gateFail (c + 2) 5 none a n need = some b → d.dbgGate c a n need = (d.deny (c + 2) 5 none b, false)) ∧
          (c ≠ 16 → d.gateFail (c + 2) 5 none a n need = none → d.dbgGate c a n need = (d, true))) ∧
  -- REG_WRITE (reserved)
  (∀ (s : State) (r : Req) (core a n : Nat) (v : Word),
        s.dev.locate r a = none →
        s.regWrite r core a n v = s ∧ s.regRead r core 0 a = (s.dev, some 0)) ∧
  -- REG_WRITE (plain)
  (∀ (s : State) (r : Req) (core a n k reg i : Nat) (v : Word),
        (s.dev.locate r a = some (reg, i) ∧ txnKey r = some k ∧ isTxnReg reg = false ∧ stagedMask reg = 0) →
        s.regWrite r core a n v = s.on (s.dev.regPut r core reg i (accessMask a n) (accessData a n v))) ∧
  -- REG_WRITE (staged)
  (∀ (s : State) (r : Req) (core a n k reg i : Nat) (v held : Word),
        (s.dev.locate r a = some (reg, i) ∧ txnKey r = some k ∧ isTxnReg reg = false ∧ held = stagedMask reg &&& accessMask a n ∧ ¬ held = 0 ∧ ¬ stagedMask reg = 0) →
        ((s.txn k).phase = .opened → s.regWrite r core a n v = s.stage k (i * 256 + reg) (a / 8 * 8) held (accessData a n v)) ∧
          ((s.txn k).phase ≠ .opened → s.regWrite r core a n v = { s with dev := s.dev.regPut r core reg i (accessMask a n) (accessData a n v), txns := markHolders s.txns k (i * 256 + reg) (a / 8 * 8) })) ∧
  -- REG_WRITE (none)
  (∀ (s : State) (r : Req) (core a n k reg i : Nat) (v : Word),
        (s.dev.locate r a = some (reg, i) ∧ txnKey r = some k ∧ isTxnReg reg = false ∧ stagedMask reg &&& accessMask a n = 0 ∧ ¬ stagedMask reg = 0 ∧ (s.txn k).phase = .opened) →
        (heldBy s.txns k (i * 256 + reg) = none → s.regWrite r core a n v = s) ∧
          (heldBy s.txns k (i * 256 + reg) ≠ none → s.regWrite r core a n v = s.stage k (i * 256 + reg) (a / 8 * 8) 0 (accessData a n v))) ∧
  -- READ_CLEAR
  (∀ (s : State) (r : Req) (a : BitVec 28) (n : Nat) (v : Word) (d e : Dev),
        (s.dev.asleep (.bar0 r) = false ∧ s.dev.reaches r = true ∧ accessOk a.toNat n = true ∧ s.dev.reqGate r a.toNat n 1 = (d, true) ∧ (s.on d).regRead r 1024 0 a.toNat = (e, some v)) →
        exec (.readClear (.bar0 r) a n) s = .next (State.settled s.dev (s.on (e.emit (.readValue (accessPart a.toNat n v)))))) ∧
  -- read clears
  (∀ (d : Dev) (r i : Nat),
        ¬ accMask r [.rc] = 0 →
        (d.readClears r i).reg r i = d.reg r i &&& ~~~(accMask r [.rc])) ∧
  -- put field
  (∀ (runs : Bool) (m v w : Word) (f : FldInfo) (k : Word),
        k = (maskW f.w <<< f.lo) &&& m →
        (f.acc = .ro → putField runs m v (w, false) f = (w, false)) ∧ (f.acc = .wo → putField runs m v (w, false) f = (w, false)) ∧
          (f.acc = .rc → putField runs m v (w, false) f = (w, false)) ∧
          (f.acc = .rw1c → putField runs m v (w, false) f = (w &&& ~~~(v &&& k), false)) ∧
          (f.acc = .w1s → putField runs m v (w, false) f = (w ||| (v &&& k), false)) ∧
          (f.acc = .rws → putField runs m v (w, false) f = ((w &&& ~~~k) ||| (v &&& k), false)) ∧
          (f.acc = .rw → (f.chg = .quiesced → runs = false) → putField runs m v (w, false) f = ((w &&& ~~~k) ||| (v &&& k), false)) ∧
          (f.acc = .rw → f.chg = .quiesced → runs = true → ((w &&& ~~~k) ||| (v &&& k)) ≠ w → putField runs m v (w, false) f = (w, true)))

/-- Reports set their sticky bits and act by the highest severity; temperature and current set the throttle level; margins and
readings (R492, R530, R531, R532, R533, R536, R543, R544, R545, R587, R588). Where the model chose behind these rules: log
entries 1, 3, 6 (notes/assumptions). -/
def Obligations.FaultsAndLimits : Prop :=
  -- FAULT_REPORT
  (∀ (s : State) (x : BitVec 64),
        exec (.faultReport x) s = .next (s.on (s.dev.faults ((List.range 64).filter (fun k => x.getLsbD k))))) ∧
  -- faults
  (∀ (d e g : Dev) (l : List Nat) (last sev cause : Nat),
        (d.pwr.state = .run ∧ (l.filter faultSource).getLast? = some last) →
        e = Dev.bumpBy (((l.filter faultSource).foldl (fun d s => d.setReg R.FLT_STICKY 0 (setBits (d.reg R.FLT_STICKY) s 1 1)) d).wr F.FLT_STAT_LAST_SRC 0 last) F.FLT_STAT_REPORTS 0 (l.filter faultSource).length →
        (sev = ((l.filter faultSource).map e.severity).foldl max 0 ∧ cause = ((l.filter faultSource).filter (fun s => e.severity s == sev)).foldl min 63) →
        g = e.raise 1024 (e.rd F.FLT_CFG_BCP_INT) →
        (sev = 0 → e.pwr.state = .run → d.faults l = e) ∧
          (sev = 1 → g.flag F.FLT_CFG_FN_EN 0 = false → g.pwr.state = .run → d.faults l = g) ∧
          (sev = 2 → g.flag F.FLT_CFG_FN_EN 0 = false → g.pwr.state = .run → d.faults l = g.enterSafe cause) ∧
          (sev = 3 → g.flag F.FLT_CFG_FN_EN 0 = false → d.faults l = g.enterWhiteout cause)) ∧
  -- severity
  (∀ (d : Dev) (k : Nat),
        (k = 28 → d.severity k = 3) ∧ (k ≠ 28 → d.severity k = getBits (d.reg R.FLT_SEV (k / 32)) (2 * (k % 32)) 2)) ∧
  -- enter safe
  (∀ (d e : Dev) (k : Nat),
        e = (d.writeCause k 1).setReg R.FLT_SNAP 0 ((d.writeCause k 1).reg R.FLT_STICKY) →
        d.enterSafe k = (allPorts.foldl Dev.safePort (Dev.stopAllChannels { e with pwr.state := .safe, reads := e.reads.map (fun (x : Nat × HostRd) => (x.1, { x.2 with gone := true })) }).safeHeld).ropeFault 1) ∧
  -- enter whiteout
  (∀ (d e g : Dev) (k : Nat),
        e = d.writeCause k 2 →
        g = Dev.linksOff (Dev.ropeFault { e with pwr.woLog := some (k, (e.reg R.FLT_CAUSE_TIME).toNat), bcp.params := Tbl.put 240 (BitVec.ofNat 64 (k + 64)) e.bcp.params } 2) →
        d.enterWhiteout k = (Dev.advance { g with pwr.state := .whiteout, ports := [], rte.held := [], reads := [] } (usPs 100)).railsDown) ∧
  -- links off
  (∀ (d : Dev),
        d.linksOff = (List.range 4).foldl (fun e p => e.setReg R.HST_PORT_STAT p 0) ((d.ports.map Prod.fst).foldl (fun e p => e.emit (.txIdle p true)) d)) ∧
  -- FLT_PAIR_INVALID
  (∀ (s : State) (k : Fin 64),
        (faultSource k = true ∧ s.dev.pwr.state = .run) →
        exec (.fltPairInvalid k) s = .next (s.on ((s.dev.bump F.FLT_STAT_PAIR_ERRS).faults (if k.val = 31 then [31] else [k.val, 31])))) ∧
  -- FLT_TEST
  (∀ (s : State) (k : Fin 64),
        exec (.fltTest k) s = .next (s.on (if k.val = 28 then s.dev else s.dev.fault k))) ∧
  -- locks
  (∀ (s : State),
        s.dev.dark = false →
        exec .fltLock s = .next (s.on (s.dev.wr F.FLT_CFG_LOCK 0 1)) ∧ exec .dbgLock s = .next (s.on (s.dev.wr F.TGT_CFG_DBG_LOCK 0 1))) ∧
  -- THERM_SAMPLE
  (∀ (s : State) (l : List (BitVec 11)) (t : Int) (k : Nat),
        (hottest (l.take 32) = some (t, k) ∧ s.dev.dark = false) →
        exec (.thermSample l) s = .next (s.on ((s.dev.advanceTo ((s.dev.ps / usPs 10 + 1) * usPs 10)).thermTake t k))) ∧
  -- therm take
  (∀ (d e : Dev) (t : Int) (k : Nat) (new : List Int) (fire : Bool),
        (new = thermStep d.flt.raised t ∧ fire = (d.flt.safeArmed && decide (460 ≤ t))) →
        e = ((d.wr F.FLT_THERM_TJ_MAX 0 (unsigned t 11)).wr F.FLT_THERM_SENSOR 0 k).wr F.FLT_THERM_THERM_LEVEL 0 new.length →
        d.thermTake t k = Dev.faults (Dev.setLevel { e with flt.raised := new, flt.safeArmed := if fire then false else e.flt.safeArmed || decide (t < 452) }) ((if d.flt.raised.isEmpty && !new.isEmpty then [26] else []) ++ (if fire then [27] else []))) ∧
  -- therm level
  (∀ (t : Int),
        (t < 400 → thermLevel t = 0) ∧ (400 ≤ t → t < 404 → thermLevel t = 1) ∧ (404 ≤ t → t < 408 → thermLevel t = 2) ∧ (408 ≤ t → t < 412 → thermLevel t = 3) ∧ (412 ≤ t → thermLevel t = 4)) ∧
  -- therm step
  (∀ (l : List Int) (t : Int),
        (l.length < thermLevel t → (thermStep l t).length = thermLevel t) ∧ (¬ l.length < thermLevel t → thermStep l t = l.dropWhile (fun r => decide (t ≤ r - 8)))) ∧
  -- CUR_GOV_SAMPLE (over)
  (∀ (s : State) (a : BitVec 11) (d : Dev) (n : Nat),
        (s.dev.dark = false ∧ d = (s.dev.advanceTo ((s.dev.ps / usPs 2 + 1) * usPs 2)).wr F.FLT_CUR_STAT_CORE_A 0 a.toNat ∧ n = d.rd F.FLT_CUR_STAT_LEVEL) →
        d.limitA < a.toNat →
        (d.flt.excessAt = none → exec (.curGovSample a) s = .next (s.on (Dev.curLevel { d with flt.belowAt := none, flt.excessAt := some d.ps } (min 4 (n + 1))))) ∧
          (∀ t, d.flt.excessAt = some t → exec (.curGovSample a) s = .next (s.on (if t + usPs 5 ≤ d.ps then Dev.curLevel { d with flt.belowAt := none, flt.excessAt := some (t + usPs 5) } (min 4 (n + 1)) else { d with flt.belowAt := none })))) ∧
  -- CUR_GOV_SAMPLE (under)
  (∀ (s : State) (a : BitVec 11) (d : Dev) (n : Nat),
        (s.dev.dark = false ∧ d = (s.dev.advanceTo ((s.dev.ps / usPs 2 + 1) * usPs 2)).wr F.FLT_CUR_STAT_CORE_A 0 a.toNat ∧ n = d.rd F.FLT_CUR_STAT_LEVEL) →
        (¬ d.limitA < a.toNat ∧ a.toNat < d.limitA - 50) →
        (d.flt.belowAt = none → exec (.curGovSample a) s = .next (s.on { d with flt.excessAt := none, flt.belowAt := some d.ps })) ∧
          (∀ t, d.flt.belowAt = some t → exec (.curGovSample a) s = .next (s.on (if t + usPs 100 ≤ d.ps then Dev.curLevel { d with flt.excessAt := none, flt.belowAt := some (t + usPs 100) } (n - 1) else { d with flt.excessAt := none })))) ∧
  -- cur level
  (∀ (d e : Dev) (n : Nat),
        e = (d.wr F.FLT_CUR_STAT_LEVEL 0 n).setLevel →
        d.curLevel n = (if d.rd F.FLT_CUR_STAT_LEVEL == 0 && 0 < n then (e.bump F.FLT_CUR_STAT_RISES).fault 29 else e)) ∧
  -- PMB_REFRESH
  (∀ (s : State) (d : Dev),
        d = s.dev.advanceTo ((s.dev.ps / msPs 10 + 1) * msPs 10) →
        exec .pmbRefresh s = .next (s.on d.pmbRead)) ∧
  -- PMB_ALERT
  (∀ (s : State),
        exec .pmbAlert s = .next (s.on s.dev.pmbRead)) ∧
  -- MARGIN_WRITE
  (∀ (s : State) (v : Word) (d : Dev),
        (s.dev.dark = false ∧ d = s.dev.wr F.PWR_MARGIN_SEL 0 v.toNat) →
        exec (.marginWrite v) s = .next (s.on (if d.fwRuns then d.applyMargin else { d with bcp.margin := true })))

/-- A snapshot is skipped, stops the reader or writes a record, values before header; its failure stops the reader; software
sets counters (R562, R566, R567, R568). Where the model chose behind these rules: log entries 3, 15 (notes/assumptions). -/
def Obligations.TelemetryReader : Prop :=
  -- PMC_SNAPSHOT
  (∀ (s : State) (per : Nat),
        (s.dev.dark = false ∧ s.dev.rd F.PMC_RDR_STAT_STATE = rdRun ∧ per = max 1 (s.dev.rd F.PMC_RDR_CFG_PERIOD_US) * 1000) →
        exec .pmcSnapshot s = .next (s.on ((s.dev.advanceToNs ((s.dev.ns / per + 1) * per)).pmcLatch))) ∧
  -- PMC_SNAP
  (∀ (s : State),
        s.dev.dark = false →
        exec .pmcSnap s = .next (s.on s.dev.pmcLatch)) ∧
  -- PMC_CTR_VAL_WRITE
  (∀ (s : State) (k : Fin 1024) (v : Word) (d : Dev),
        d = s.dev.wr F.PMC_CTR_VAL_VALUE k v.toNat →
        exec (.pmcCtrValWrite k v) s = .next (s.on d) ∧ d.rd F.PMC_CTR_VAL_VALUE k = v.toNat % 2 ^ 48) ∧
  -- pmc latch (skip)
  (∀ (d : Dev),
        d.rd F.PMC_RDR_STAT_STATE = rdRun →
        (d.halted = true ∨ d.pmc.job.isSome = true ∨ seqSub (d.rd F.PMC_RDR_IDX_PROD) (d.rd F.PMC_RDR_IDX_CONS) = d.pmcEntries) →
        d.pmcLatch = { d.bump F.PMC_RDR_STAT_SKIPPED with pmc.gap := true }) ∧
  -- pmc latch (off)
  (∀ (d : Dev),
        (d.rd F.PMC_RDR_STAT_STATE = rdRun ∧ d.fnOn (d.rd F.PMC_RDR_FN_FN) = false) →
        (d.halted = false ∧ d.pmc.job = none ∧ ¬ seqSub (d.rd F.PMC_RDR_IDX_PROD) (d.rd F.PMC_RDR_IDX_CONS) = d.pmcEntries) →
        d.pmcLatch = d.pmcStop Status.FN_OFF) ∧
  -- pmc latch (record)
  (∀ (d e : Dev),
        (d.rd F.PMC_RDR_STAT_STATE = rdRun ∧ d.fnOn (d.rd F.PMC_RDR_FN_FN) = true) →
        (d.halted = false ∧ d.pmc.job = none ∧ ¬ seqSub (d.rd F.PMC_RDR_IDX_PROD) (d.rd F.PMC_RDR_IDX_CONS) = d.pmcEntries) →
        e = { d with pmc.gap := false } →
        d.pmcLatch = e.pmcRecord d.pmcHead d.pmcTaken.length d.pmcValues) ∧
  -- pmc record
  (∀ (d g e : Dev) (h n data k st : Nat),
        d.winUse (d.rd F.PMC_RDR_CFG_WIN) (localPeer (d.rd F.PMC_RDR_FN_FN) false) rLW d.pmcOff (64 + 8 * n) = (g, 0) →
        g.pmcPut 64 (8 * n) data = (e, k, st) →
        (st ≠ 0 → d.pmcRecord h n data = e.pmcStop st) ∧ (st = 0 → k ≠ 0 → d.pmcRecord h n data = { e with pmc.job := some ([(0, h)], k, false) }) ∧
          (st = 0 → k = 0 → d.pmcRecord h n data = e.pmcHeader h)) ∧
  -- pmc header
  (∀ (d e : Dev) (h k st : Nat),
        d.pmcPut 0 64 h = (e, k, st) →
        (st ≠ 0 → d.pmcHeader h = e.pmcStop st) ∧ (st = 0 → k ≠ 0 → d.pmcHeader h = { e with pmc.job := some ([(0, h)], k, true) }) ∧
          (st = 0 → k = 0 → d.pmcHeader h = Dev.wr { e with pmc.job := none } F.PMC_RDR_IDX_PROD 0 (e.rd F.PMC_RDR_IDX_PROD + 1))) ∧
  -- pmc stop
  (∀ (d e : Dev) (st : Nat),
        e = d.disown (.pmc (d.rd F.PMC_RDR_IDX_PROD)) →
        d.pmcStop st = (Dev.wr { e with pmc.job := none } F.PMC_RDR_STAT_STATE 0 rdStopped).wr F.PMC_RDR_STAT_STATUS 0 st) ∧
  -- pmc enable
  (∀ (d : Dev),
        (d.isPf (d.rd F.PMC_RDR_FN_FN) = true → d.pmcEnable true = d.wr F.PMC_RDR_STAT_STATE 0 rdRun) ∧
          (d.isPf (d.rd F.PMC_RDR_FN_FN) = false → d.pmcEnable true = d.pmcStop Status.ARG))

/-- TRST_N resets the TAP, an instruction with its supply present enters the instruction register and has its effect, and
without it does nothing (R590, R591). Where the model chose behind these rules: log entries 3, 15 (notes/assumptions). -/
def Obligations.TestAccess : Prop :=
  -- TRST_N
  (∀ (s : State),
        exec .trstN s = .next { s with tap := { inReset := true, ir := 0x01, bypass := false, boundary := 0 } }) ∧
  -- tap
  (∀ (s : State),
        s.dev.tapOn = true →
        exec .extest s = .next { s with dev := s.dev.emit (.pin "BOUNDARY" s.tap.boundary), tap := { s.tap with inReset := false, ir := 0x00 } } ∧
          exec .clamp s = .next { s with dev := s.dev.emit (.pin "BOUNDARY" s.tap.boundary), tap := { s.tap with inReset := false, ir := 0x06, bypass := false } } ∧
          exec .extestPulse s = .next { s with dev := s.dev.emit (.pin "BOUNDARY" s.tap.boundary), tap := { s.tap with inReset := false, ir := 0x08 } } ∧
          exec .extestTrain s = .next { s with dev := s.dev.emit (.pin "BOUNDARY" s.tap.boundary), tap := { s.tap with inReset := false, ir := 0x09 } } ∧
          exec .idcode s = .next { s with dev := s.dev.emit (.readValue idcode), tap := { s.tap with inReset := false, ir := 0x01 } } ∧
          exec .highz s = .next { s with dev := s.dev.emit (.pin "HIGHZ" 1), tap := { s.tap with inReset := false, ir := 0x05, bypass := false } } ∧
          exec .dbgAccess s = .next { s with tap := { s.tap with inReset := false, ir := 0x20 } } ∧
          exec .bypass s = .next { s with tap := { s.tap with inReset := false, ir := 0xFF, bypass := false } }) ∧
  -- SAMPLE_PRELOAD
  (∀ (s : State) (w : Word) (d : Dev),
        (s.dev.tapOn = true ∧ s.dev.freeWord = (w, d)) →
        exec .samplePreload s = .next { s with dev := d, tap := { s.tap with inReset := false, ir := 0x02, boundary := w.toNat } }) ∧
  -- tap off
  (∀ (s : State),
        s.dev.tapOn = false →
        exec .extest s = .next s ∧ exec .idcode s = .next s ∧ exec .samplePreload s = .next s ∧ exec .highz s = .next s ∧ exec .clamp s = .next s ∧ exec .extestPulse s = .next s ∧ exec .extestTrain s = .next s ∧ exec .dbgAccess s = .next s ∧ exec .bypass s = .next s)

/-- A register-only instruction that goes on changes one register or one predicate of its thread, its pc and the telemetry
counters, and nothing else (R28, R30, R42, R43, R44, R45, R46, R47, R48, R49, R50, R69). Where the model chose behind these
rules: log entry 17 (notes/assumptions). -/
def Obligations.EngineResultFrames : Prop :=
  -- ALU
  (∀ (s t : State) (th : Tid) (f : FmtA) (ext : Ext),
        s.dev.atInstr th (wordA 0x10 f) ext f.guard.toNat = true →
        (exec (.alu th f ext) s = .next t ∧ s.inPlace t th) →
        s.resultFrame t th f.wd.toNat) ∧
  -- BIT
  (∀ (s t : State) (th : Tid) (f : FmtA) (ext : Ext),
        s.dev.atInstr th (wordA 0x1a f) ext f.guard.toNat = true →
        (exec (.bit th f ext) s = .next t ∧ s.inPlace t th) →
        s.resultFrame t th f.wd.toNat) ∧
  -- SEL
  (∀ (s t : State) (th : Tid) (f : FmtA) (ext : Ext),
        s.dev.atInstr th (wordA 0x1b f) ext f.guard.toNat = true →
        (exec (.sel th f ext) s = .next t ∧ s.inPlace t th) →
        s.resultFrame t th f.wd.toNat) ∧
  -- TAG_GET
  (∀ (s t : State) (th : Tid) (f : FmtA) (ext : Ext),
        s.dev.atInstr th (wordA 0x28 f) ext f.guard.toNat = true →
        (exec (.tagGet th f ext) s = .next t ∧ s.inPlace t th) →
        s.resultFrame t th f.wd.toNat) ∧
  -- TAG_SET
  (∀ (s t : State) (th : Tid) (f : FmtA) (ext : Ext),
        s.dev.atInstr th (wordA 0x28 f) ext f.guard.toNat = true →
        (exec (.tagSet th f ext) s = .next t ∧ s.inPlace t th) →
        s.resultFrame t th f.wd.toNat) ∧
  -- ADDI
  (∀ (s t : State) (th : Tid) (f : FmtI) (ext : Ext),
        s.dev.atInstr th (wordI 0x11 f) ext f.guard.toNat = true →
        (exec (.addi th f ext) s = .next t ∧ s.inPlace t th) →
        s.resultFrame t th f.wd.toNat) ∧
  -- ANDI
  (∀ (s t : State) (th : Tid) (f : FmtI) (ext : Ext),
        s.dev.atInstr th (wordI 0x12 f) ext f.guard.toNat = true →
        (exec (.andi th f ext) s = .next t ∧ s.inPlace t th) →
        s.resultFrame t th f.wd.toNat) ∧
  -- ORI
  (∀ (s t : State) (th : Tid) (f : FmtI) (ext : Ext),
        s.dev.atInstr th (wordI 0x13 f) ext f.guard.toNat = true →
        (exec (.ori th f ext) s = .next t ∧ s.inPlace t th) →
        s.resultFrame t th f.wd.toNat) ∧
  -- XORI
  (∀ (s t : State) (th : Tid) (f : FmtI) (ext : Ext),
        s.dev.atInstr th (wordI 0x14 f) ext f.guard.toNat = true →
        (exec (.xori th f ext) s = .next t ∧ s.inPlace t th) →
        s.resultFrame t th f.wd.toNat) ∧
  -- SHLI
  (∀ (s t : State) (th : Tid) (f : FmtI) (ext : Ext),
        s.dev.atInstr th (wordI 0x15 f) ext f.guard.toNat = true →
        (exec (.shli th f ext) s = .next t ∧ s.inPlace t th) →
        s.resultFrame t th f.wd.toNat) ∧
  -- SHRI
  (∀ (s t : State) (th : Tid) (f : FmtI) (ext : Ext),
        s.dev.atInstr th (wordI 0x16 f) ext f.guard.toNat = true →
        (exec (.shri th f ext) s = .next t ∧ s.inPlace t th) →
        s.resultFrame t th f.wd.toNat) ∧
  -- SRAI
  (∀ (s t : State) (th : Tid) (f : FmtI) (ext : Ext),
        s.dev.atInstr th (wordI 0x17 f) ext f.guard.toNat = true →
        (exec (.srai th f ext) s = .next t ∧ s.inPlace t th) →
        s.resultFrame t th f.wd.toNat) ∧
  -- TAG_SETI
  (∀ (s t : State) (th : Tid) (f : FmtI) (ext : Ext),
        s.dev.atInstr th (wordI 0x29 f) ext f.guard.toNat = true →
        (exec (.tagSeti th f ext) s = .next t ∧ s.inPlace t th) →
        s.resultFrame t th f.wd.toNat) ∧
  -- MOVI
  (∀ (s t : State) (th : Tid) (f : FmtW) (ext : Ext),
        s.dev.atInstr th (wordW 0x18 f) ext 0 = true →
        (exec (.movi th f ext) s = .next t ∧ s.inPlace t th) →
        s.resultFrame t th f.wd.toNat) ∧
  -- MOVK
  (∀ (s t : State) (th : Tid) (f : FmtW) (ext : Ext),
        s.dev.atInstr th (wordW 0x19 f) ext 0 = true →
        (exec (.movk th f ext) s = .next t ∧ s.inPlace t th) →
        s.resultFrame t th f.wd.toNat) ∧
  -- CMP
  (∀ (s t : State) (th : Tid) (f : FmtA) (ext : Ext),
        s.dev.atInstr th (wordA 0x1c f) ext f.guard.toNat = true →
        (exec (.cmp th f ext) s = .next t ∧ s.inPlace t th) →
        s.predFrame t th f.wd.toNat) ∧
  -- POP
  (∀ (s t : State) (th : Tid) (f : FmtA) (ext : Ext),
        s.dev.atInstr th (wordA 0x20 f) ext f.guard.toNat = true →
        (exec (.pop th f ext) s = .next t ∧ s.inPlace t th) →
        s.predFrame t th f.wd.toNat) ∧
  -- CMPI_EQ
  (∀ (s t : State) (th : Tid) (f : FmtI) (ext : Ext),
        s.dev.atInstr th (wordI 0x1d f) ext f.guard.toNat = true →
        (exec (.cmpiEq th f ext) s = .next t ∧ s.inPlace t th) →
        s.predFrame t th f.wd.toNat) ∧
  -- CMPI_LT
  (∀ (s t : State) (th : Tid) (f : FmtI) (ext : Ext),
        s.dev.atInstr th (wordI 0x1e f) ext f.guard.toNat = true →
        (exec (.cmpiLt th f ext) s = .next t ∧ s.inPlace t th) →
        s.predFrame t th f.wd.toNat) ∧
  -- CMPI_LTU
  (∀ (s t : State) (th : Tid) (f : FmtI) (ext : Ext),
        s.dev.atInstr th (wordI 0x1f f) ext f.guard.toNat = true →
        (exec (.cmpiLtu th f ext) s = .next t ∧ s.inPlace t th) →
        s.predFrame t th f.wd.toNat) ∧
  -- TAG_TST
  (∀ (s t : State) (th : Tid) (f : FmtI) (ext : Ext),
        s.dev.atInstr th (wordI 0x2a f) ext f.guard.toNat = true →
        (exec (.tagTst th f ext) s = .next t ∧ s.inPlace t th) →
        s.predFrame t th f.wd.toNat)

/-- A load or store of scratch or Depot that goes on changes its one register or its one word, its pc and telemetry counters,
and nothing else (R51, R52, R54, R481). Where the model chose behind these rules: log entries 9, 17 (notes/assumptions). -/
def Obligations.EngineScratchAndDepotFrames : Prop :=
  -- LD_S
  (∀ (s t : State) (th : Tid) (f : FmtI) (ext : Ext),
        s.dev.atInstr th (wordI 0x30 f) ext f.guard.toNat = true →
        (exec (.ldS th f ext .none) s = .next t ∧ s.inPlace t th) →
        s.resultFrame t th f.wd.toNat) ∧
  -- ST_S
  (∀ (s t : State) (th : Tid) (f : FmtI) (ext : Ext),
        s.dev.atInstr th (wordI 0x31 f) ext f.guard.toNat = true →
        (exec (.stS th f ext) s = .next t ∧ s.inPlace t th) →
        s.storeFrame t th (fun d => { d with eng.scratch := [] }) ∧
          (∀ c a, c * 131072 + a / 8 ≠ clusterOf th * 131072 + s.dev.eaOf th f ext / 8 → t.dev.scrWord c a = s.dev.scrWord c a)) ∧
  -- ST_D
  (∀ (s t : State) (th : Tid) (f : FmtI) (ext : Ext),
        s.dev.atInstr th (wordI 0x33 f) ext f.guard.toNat = true →
        (exec (.stD th f ext) s = .next t ∧ s.inPlace t th) →
        s.storeFrame t th (fun d => { d with dep.mem := [], dep.selfRefresh := false }) ∧
          (∀ a, a / 8 ≠ s.dev.eaOf th f ext / 8 → t.dev.depWord a = s.dev.depWord a)) ∧
  -- LD_D
  (∀ (s t : State) (th : Tid) (f : FmtI) (ext : Ext),
        s.dev.atInstr th (wordI 0x32 f) ext f.guard.toNat = true →
        (exec (.ldD th f ext .none) s = .next t ∧ s.inPlace t th) →
        { t.dev with regs := [], eng.th := [] } = { s.dev with regs := [], eng.th := [], dep.selfRefresh := false } ∧ (∀ o, o ≠ th.val → t.dev.thr o = s.dev.thr o) ∧ s.sameRegs t ∧
          (∃ w pc past, t.dev.thr th = { s.dev.thr th with w := w, pc := pc, past := past }) ∧ (∀ n, n ≠ f.wd.toNat → (t.dev.thr th).reg n = (s.dev.thr th).reg n))

/-- A step runs the command at the front of the queue on the state with the rest of it; on an empty queue one reference clock
passes (R418, R415, R561, R564, R565). Where the model chose behind these rules: log entries 2, 4 (notes/assumptions). -/
def Obligations.StepRunsTheFrontCommand : Prop :=
  -- front
  (∀ (s : State) (c : Instr) (rest : List Instr),
        s.pending = c :: rest →
        step s = exec c { s with pending := rest }) ∧
  -- empty
  (∀ (s : State),
        s.pending = [] →
        step s = .next { s with dev := s.dev.tick }) ∧
  -- tick
  (∀ (d : Dev),
        (d.dark = false → d.tick = (((((d.slotTime d.refPeriod).queueTime d.refPeriod).advance d.refPeriod).tenLock.ropeDrain 0).ropeDrain 1)) ∧
          (d.dark = true → d.tick = ((d.advance d.refPeriod).tenLock.ropeDrain 0).ropeDrain 1)) ∧
  -- slot time
  (∀ (d : Dev) (n : Nat),
        d.slotTime n = ((List.range 16).filter (fun c => !d.gated c)).foldl (fun e c => (List.range 16).foldl (fun x k => x.coreSlots c k ((d.ps + n) / 625 - d.ps / 625)) e) d ∧
          d.queueTime n = (d.ports.map Prod.fst).foldl (fun e p => e.ev 8 11 (some p) none (e.load p * ((d.ps + n) / 500 - d.ps / 500))) d) ∧
  -- core slots
  (∀ (d : Dev) (c k n : Nat) (l : List Thread) (t : Thread),
        l = (List.range 4).map (fun j => d.thr (64 * c + 4 * k + j)) →
        (l.find? (fun t => t.st == .ready && t.active) = some t → d.rd F.FLT_THERM_LEVEL = 0 → d.coreSlots c k n = d) ∧
          (l.find? (fun t => t.st == .ready && t.active) = some t → d.rd F.FLT_THERM_LEVEL ≠ 0 → d.coreSlots c k n = d.slotCount c 4 9 (some t.fn) (n - n / 2 ^ d.rd F.FLT_THERM_LEVEL)) ∧
          (l.find? (fun t => t.st == .ready && t.active) = none →
            (l.find? (fun t => t.st == .stall && stallEvent t.stall == some 7) = some t → d.coreSlots c k n = d.slotCount c 4 7 (some t.fn) n) ∧
            (l.find? (fun t => t.st == .stall && stallEvent t.stall == some 7) = none → l.find? (fun t => t.st == .stall && stallEvent t.stall == some 8) = some t → d.coreSlots c k n = d.slotCount c 4 8 (some t.fn) n) ∧
            (l.find? (fun t => t.st == .stall && stallEvent t.stall == some 7) = none → l.find? (fun t => t.st == .stall && stallEvent t.stall == some 8) = none → l.find? (fun t => t.st == .stall && stallEvent t.stall == some 6) = some t →
              d.coreSlots c k n = d.slotCount c 3 6 (some t.fn) n) ∧
            (l.find? (fun t => t.st == .stall && stallEvent t.stall == some 7) = none → l.find? (fun t => t.st == .stall && stallEvent t.stall == some 8) = none → l.find? (fun t => t.st == .stall && stallEvent t.stall == some 6) = none →
              d.coreSlots c k n = d.slotCount c 3 5 none n))) ∧
  -- advance
  (∀ (d : Dev) (n : Nat),
        (d.dark = false → d.advance n = { d with ps := d.ps + n, ft := d.ft + n * 2 ^ 48 * d.rate / (1000 * 1000000000) }) ∧
          (d.dark = true → d.advance n = { d with ps := d.ps + n })) ∧
  -- ten lock
  (∀ (d : Dev),
        (d.dark = true ∨ d.flag F.TIME_CFG_REF10M_EN = false ∨ d.time.tenLocked = true → d.tenLock = d) ∧
          (∀ e, d.dark = false → d.flag F.TIME_CFG_REF10M_EN = true → d.time.tenLocked = false → e = { d with time.tenLocked := true } →
            (e.flag F.TIME_CFG_GM = true → d.tenLock = e.setLocked e.gmLocked) ∧ (e.flag F.TIME_CFG_GM = false → d.tenLock = e)))

/-- Every command, whatever its operands and in every state, answers a next state, and leaves the queue of waiting commands as
it was (R1, R3, R5). Where the model chose behind these rules: log entry 5 (notes/assumptions). -/
def Obligations.EveryCommandCompletes : Prop :=
  -- all
  (∀ (c : Instr) (s : State),
        ∃ t, exec c s = .next t ∧ t.pending = s.pending) ∧
  -- step
  (∀ (s : State),
        ∃ t, step s = .next t ∧ t.pending = s.pending.tail)

/-- Only the commands named here change a configuration transaction or the TAP; a TAP instruction changes only the TAP, outputs
and free values (R516, R519, R528, R591). Where the model chose behind these rules: log entry 32 (notes/assumptions). -/
def Obligations.CommandReach : Prop :=
  -- txns
  (∀ (c : Instr) (s t : State),
        (exec c s = .next t ∧ ¬ mayMoveTxns c) →
        t.txns = s.txns) ∧
  -- tap
  (∀ (c : Instr) (s t : State),
        (exec c s = .next t ∧ ¬ mayMoveTap c) →
        t.tap = s.tap) ∧
  -- tap device
  (∀ (c : Instr) (s t : State),
        exec c s = .next t →
        (c = .trstN ∨ c = .extest ∨ c = .idcode ∨ c = .samplePreload ∨ c = .highz ∨ c = .clamp ∨ c = .extestPulse ∨ c = .extestTrain ∨ c = .dbgAccess ∨ c = .bypass) →
        { t.dev with log := [], fresh := 0 } = { s.dev with log := [], fresh := 0 } ∧ t.txns = s.txns ∧ t.pending = s.pending)

/-- Through every step, from every state where it holds: no register is held by two transactions, and together they hold at most
4,096 (R516, R517, R518, R519). Where the model chose behind these rules: log entry 32 (notes/assumptions). -/
def Obligations.TransactionsStayApart : Prop :=
  -- step
  (∀ (s t : State),
        (TxnsApart s.txns ∧ step s = .next t) →
        TxnsApart t.txns)

/-- The transactions of the state after reset are apart: there are none (R516, R519). Where the model chose behind these rules:
log entry 19 (notes/assumptions). -/
def Obligations.TransactionsAtReset : Prop :=
  -- reset
  (      TxnsApart State.reset.txns ∧ ∀ k, (State.reset.txn k).phase = .none ∧ (State.reset.txn k).held = [])

/-- A cell sealed with HCHK passes its check, and any one wrong bit of a header that passes makes it fail (R294, R296). -/
def Obligations.HeaderCheckSeesEveryBit : Prop :=
  -- flip
  (∀ (c : Cell) (i : Nat),
        (i < 128 ∧ c.hchkOk = true) →
        ({ c with hdr := c.hdr ^^^ BitVec.ofNat 128 (2 ^ i) } : Cell).hchkOk = false) ∧
  -- sealed
  (∀ (c : Cell),
        c.sealed.hchkOk = true ∧ c.sealed.hdr.toNat / 256 = c.hdr.toNat / 256 ∧ c.sealed.pay = c.pay)

/-- Every header field of a cell built from its fields reads back what was put there, at every value the field holds (R294,
R309). -/
def Obligations.CellFieldsReadBack : Prop :=
  -- fields
  (∀ (dstDev dstFn srcDev slot gen idx : Nat) (head last : Bool) (cls pay : Nat) (c : Cell),
        (c = mkCell dstDev dstFn srcDev slot gen idx head last cls pay ∧ cls < 4) →
        c.dstDev = dstDev % 2 ^ 18 ∧ c.dstFn = dstFn % 2 ^ 10 ∧ c.srcDev = srcDev % 2 ^ 18 ∧ c.slot = slot % 2 ^ 16 ∧ c.gen = gen % 16 ∧ c.idx = idx % 4096 ∧ c.head = head ∧ c.last = last ∧ c.cls = cls ∧ c.phase = 0 ∧ c.via = 0xFFF ∧ c.hops = 0 ∧ c.cmark = 0 ∧ c.color = 0 ∧ c.tstamp = 0) ∧
  -- set bits
  (∀ (c : Cell) (lo w v : Nat),
        lo + w ≤ 128 →
        (c.setBits lo w v).bits lo w = v % 2 ^ w ∧ (∀ lo' w', lo' + w' ≤ lo ∨ lo + w ≤ lo' → (c.setBits lo w v).bits lo' w' = c.bits lo' w') ∧ (c.setBits lo w v).pay = c.pay)

/-- After reset every register reads its reset value, nothing runs, is queued, held or in flight, READY is 0 and the device is
in START (R3, R418, R500, R502, R506, R523, R528, R591). Where the model chose behind these rules: log entries 7, 8, 9, 19
(notes/assumptions). -/
def Obligations.ResetState : Prop :=
  -- registers
  (∀ (r i : Nat),
        r < 256 →
        State.reset.dev.reg r i = regReset r i ∧ State.reset.dev.dark = false ∧ State.reset.dev.pwr.state = .start ∧ State.reset.dev.flag F.BCP_FW_STAT_READY 0 = false) ∧
  -- units
  (∀ (n f p q : Nat),
        (p < 64 ∧ f < 1024) →
        (State.reset.dev.thr n).st = .wait ∧ (State.reset.dev.thr n).active = false ∧ State.reset.dev.fnState f = 0 ∧ State.reset.dev.lnk p = lsDown ∧
          State.reset.dev.qst q = qsOff ∧ (∀ m, (State.reset.dev.thr n).reg m = 0) ∧ (∀ a, State.reset.dev.depWord a = 0) ∧ (∀ c a, State.reset.dev.scrWord c a = 0)) ∧
  -- empty
  (      State.reset.pending = [] ∧ State.reset.txns = [] ∧ State.reset.tap = { inReset := true, ir := 0x01, bypass := false, boundary := 0 } ∧
          State.reset.dev.log = [] ∧ State.reset.dev.reads = [] ∧ State.reset.dev.rma = {} ∧ State.reset.dev.mtc = {} ∧ State.reset.dev.col = {} ∧
          State.reset.dev.sch = {} ∧ State.reset.dev.ports = [] ∧ State.reset.dev.dma = {} ∧ State.reset.dev.xlt = {} ∧ State.reset.dev.win = {} ∧
          State.reset.dev.wq = {} ∧ State.reset.dev.int = {} ∧ State.reset.dev.eng = {} ∧ State.reset.dev.dep = {})
end

