-- ==== Sys2Proof/Laws/Issue.lean ====
section
/-! SUPPORT. What the issue of an instruction does, said once: with the instruction at the thread's pc and its guard
satisfied it traps or runs its body; with its guard off it only goes on. -/

namespace Sys2Proof.Machine

theorem Dev.ready_of_atInstr {d : Dev} {th word : Nat} {ext : Ext} {g : Nat} (h : d.atInstr th word ext g = true) :
    d.ready th = true := by
  simp only [Dev.atInstr, Bool.and_eq_true] at h
  exact h.1.1

theorem Dev.guard_of_atInstr {d : Dev} {th word : Nat} {ext : Ext} {g : Nat} (h : d.atInstr th word ext g = true) :
    guardOk (d.thr th) g = true := by
  simp only [Dev.atInstr, Bool.and_eq_true] at h
  exact h.1.2

theorem Dev.st_of_ready {d : Dev} {th : Nat} (h : d.ready th = true) : (d.thr th).st = .ready := by
  simp only [Dev.ready, Bool.and_eq_true] at h
  exact eq_of_beq h.1.1

theorem Dev.st_of_atInstr {d : Dev} {th word : Nat} {ext : Ext} {g : Nat} (h : d.atInstr th word ext g = true) :
    (d.thr th).st = .ready := Dev.st_of_ready (Dev.ready_of_atInstr h)

/-- An instruction that is at the pc with its guard satisfied: the checks of R38 to R41, then its body. -/
theorem Dev.issue_at {d : Dev} {th word : Nat} {ext : Ext} {g : Nat} (h : d.atInstr th word ext g = true)
    (bad sup noCmd : Bool) (body : Dev → IRes) :
    d.issue th word ext g bad sup noCmd body =
      if bad || (noCmd && pcCmd (d.thr th).pc) then d.trapHere th tcIllegal (BitVec.ofNat 64 word)
      else if sup && !(d.thr th).priv then d.trapHere th tcPrivilege (BitVec.ofNat 64 word)
      else match body d with
        | .next d => d.completed th
        | .idle d => (d.wasted th).goOn th
        | .done e => if (e.thr th).inTrap && !(d.thr th).inTrap || (e.thr th).st == .stopped then e else e.retired th
        | .trap c v => d.trapHere th c v
        | .trapIn d c v => d.trapHere th c v := by
  have hr := Dev.ready_of_atInstr h
  have hg := Dev.guard_of_atInstr h
  simp only [Dev.atInstr, Bool.and_eq_true, Bool.or_eq_true] at h
  unfold Dev.issue
  obtain ⟨⟨ho, hi⟩, hf⟩ := h.2
  have hf' := eq_of_beq hf
  have hl : d.illegalHere th = none := by
    simp only [Dev.illegalHere, hf', ho, if_true]
  have hp : (!isCore th && !pcCmd (d.thr th).pc && ((d.thr th).past ||
      decide (d.slotLen (pcSlot (d.thr th).pc) (pcVer (d.thr th).pc) ≤ pcIndex (d.thr th).pc))) = false := by
    rcases hi with (hi | hi) | hi
    · simp [hi]
    · simp [hi]
    · simp only [Bool.not_eq_true', decide_eq_true_eq] at hi
      simp [hi.1, Nat.not_le.mpr hi.2]
  simp only [hr, hg, hf', hl, hp, Bool.not_true, Bool.false_eq_true, if_false, Option.isNone_some, Option.isSome_none,
    bne_self_eq_false]
  all_goals rfl

/-- A guarded-off instruction uses its slot and does nothing else (R39). -/
theorem Dev.issue_off {d : Dev} {th word : Nat} {ext : Ext} {g : Nat} (hr : d.ready th = true) (hc : isCore th = true)
    (ho : opListed word = true) (hf : d.fetched th (d.thr th).pc = some (word, if pcCmd (d.thr th).pc then ext.toNat else 0))
    (hg : guardOk (d.thr th) g = false) (bad sup noCmd : Bool) (body : Dev → IRes) :
    d.issue th word ext g bad sup noCmd body = (d.wasted th).goOn th := by
  have hl : d.illegalHere th = none := by simp only [Dev.illegalHere, hf, ho, if_true]
  unfold Dev.issue
  simp [hr, hc, hg, hl, hf]

end Sys2Proof.Machine
end

