-- ==== Sys2Proof/Laws/Queues.lean ====
section
/-! SUPPORT. Queues and clusters: waking a unit touches nothing but the list of units that wake. -/

namespace Sys2Proof.Machine

/-- A wake changes only the list of waking units (R19). -/
theorem Dev.wake_eq (d : Dev) (u : Nat) : ∃ l, d.wake u = { d with eng.waking := l } := by
  unfold Dev.wake
  generalize (if u < 16 then d.gated u else d.dmaGated (u - 16)) = g
  simp only []
  split
  · exact ⟨_, rfl⟩
  · exact ⟨d.eng.waking, rfl⟩

@[simp] theorem Dev.wake_rd (d : Dev) (u : Nat) (f : Fld) (i : Nat) : (d.wake u).rd f i = d.rd f i := by
  obtain ⟨l, h⟩ := d.wake_eq u
  rw [h]
  rfl

/-- The same, of a queue's wake (R105). -/
theorem Dev.qWake_eq (d : Dev) (q : Nat) : ∃ l, d.qWake q = { d with eng.waking := l } := by
  unfold Dev.qWake
  split
  · exact d.wake_eq _
  · exact ⟨d.eng.waking, rfl⟩

@[simp] theorem Dev.qWake_rd (d : Dev) (q : Nat) (f : Fld) (i : Nat) : (d.qWake q).rd f i = d.rd f i := by
  obtain ⟨l, h⟩ := d.qWake_eq q
  rw [h]
  rfl

@[simp] theorem Dev.qWake_wq (d : Dev) (q : Nat) : (d.qWake q).wq = d.wq := by
  obtain ⟨l, h⟩ := d.qWake_eq q
  rw [h]

@[simp] theorem Dev.thr_wake (d : Dev) (u n : Nat) : (d.wake u).thr n = d.thr n := by
  obtain ⟨l, h⟩ := d.wake_eq u
  rw [h]
  rfl

@[simp] theorem Dev.thr_rest (d : Dev) (u n : Nat) : (d.rest u).thr n = d.thr n := rfl

@[simp] theorem Dev.thr_restThr (d : Dev) (th n : Nat) : (d.restThr th).thr n = d.thr n := by
  unfold Dev.restThr
  split
  · rfl
  · rw [Dev.thr_rest]

@[simp] theorem Dev.thr_wakeThr (d : Dev) (th n : Nat) : (d.wakeThr th).thr n = d.thr n := by
  unfold Dev.wakeThr
  split
  · rfl
  · rw [Dev.thr_wake]

@[simp] theorem Dev.thr_qWake (d : Dev) (q n : Nat) : (d.qWake q).thr n = d.thr n := by
  obtain ⟨l, h⟩ := d.qWake_eq q
  rw [h]
  rfl

end Sys2Proof.Machine
end

