-- ==== Sys2Proof/Laws/State.lean ====
section
/-! SUPPORT. One lemma for each field of the device and each update of it that leaves the field alone, so that no proof
unfolds a record update. -/

namespace Sys2Proof.Machine

variable (d : Dev)

@[simp] theorem Dev.setReg_force (r i : Nat) (v : Word) : (d.setReg r i v).force = d.force := rfl
@[simp] theorem Dev.setReg_ps (r i : Nat) (v : Word) : (d.setReg r i v).ps = d.ps := rfl
@[simp] theorem Dev.setReg_ft (r i : Nat) (v : Word) : (d.setReg r i v).ft = d.ft := rfl
@[simp] theorem Dev.setReg_fresh (r i : Nat) (v : Word) : (d.setReg r i v).fresh = d.fresh := rfl
@[simp] theorem Dev.setReg_log (r i : Nat) (v : Word) : (d.setReg r i v).log = d.log := rfl
@[simp] theorem Dev.setReg_pwr (r i : Nat) (v : Word) : (d.setReg r i v).pwr = d.pwr := rfl
@[simp] theorem Dev.setReg_host (r i : Nat) (v : Word) : (d.setReg r i v).host = d.host := rfl
@[simp] theorem Dev.setReg_reads (r i : Nat) (v : Word) : (d.setReg r i v).reads = d.reads := rfl
@[simp] theorem Dev.setReg_nextTag (r i : Nat) (v : Word) : (d.setReg r i v).nextTag = d.nextTag := rfl
@[simp] theorem Dev.setReg_int (r i : Nat) (v : Word) : (d.setReg r i v).int = d.int := rfl
@[simp] theorem Dev.setReg_dep (r i : Nat) (v : Word) : (d.setReg r i v).dep = d.dep := rfl
@[simp] theorem Dev.setReg_eng (r i : Nat) (v : Word) : (d.setReg r i v).eng = d.eng := rfl
@[simp] theorem Dev.setReg_wq (r i : Nat) (v : Word) : (d.setReg r i v).wq = d.wq := rfl
@[simp] theorem Dev.setReg_xlt (r i : Nat) (v : Word) : (d.setReg r i v).xlt = d.xlt := rfl
@[simp] theorem Dev.setReg_win (r i : Nat) (v : Word) : (d.setReg r i v).win = d.win := rfl
@[simp] theorem Dev.setReg_dma (r i : Nat) (v : Word) : (d.setReg r i v).dma = d.dma := rfl
@[simp] theorem Dev.setReg_rma (r i : Nat) (v : Word) : (d.setReg r i v).rma = d.rma := rfl
@[simp] theorem Dev.setReg_cc (r i : Nat) (v : Word) : (d.setReg r i v).cc = d.cc := rfl
@[simp] theorem Dev.setReg_mtc (r i : Nat) (v : Word) : (d.setReg r i v).mtc = d.mtc := rfl
@[simp] theorem Dev.setReg_col (r i : Nat) (v : Word) : (d.setReg r i v).col = d.col := rfl
@[simp] theorem Dev.setReg_ports (r i : Nat) (v : Word) : (d.setReg r i v).ports = d.ports := rfl
@[simp] theorem Dev.setReg_sch (r i : Nat) (v : Word) : (d.setReg r i v).sch = d.sch := rfl
@[simp] theorem Dev.setReg_rte (r i : Nat) (v : Word) : (d.setReg r i v).rte = d.rte := rfl
@[simp] theorem Dev.setReg_ropes (r i : Nat) (v : Word) : (d.setReg r i v).ropes = d.ropes := rfl
@[simp] theorem Dev.setReg_time (r i : Nat) (v : Word) : (d.setReg r i v).time = d.time := rfl
@[simp] theorem Dev.setReg_bcp (r i : Nat) (v : Word) : (d.setReg r i v).bcp = d.bcp := rfl
@[simp] theorem Dev.setReg_flt (r i : Nat) (v : Word) : (d.setReg r i v).flt = d.flt := rfl
@[simp] theorem Dev.setReg_pmc (r i : Nat) (v : Word) : (d.setReg r i v).pmc = d.pmc := rfl

@[simp] theorem Dev.wr_force (f : Fld) (i v : Nat) : (d.wr f i v).force = d.force := rfl
@[simp] theorem Dev.wr_ps (f : Fld) (i v : Nat) : (d.wr f i v).ps = d.ps := rfl
@[simp] theorem Dev.wr_ft (f : Fld) (i v : Nat) : (d.wr f i v).ft = d.ft := rfl
@[simp] theorem Dev.wr_fresh (f : Fld) (i v : Nat) : (d.wr f i v).fresh = d.fresh := rfl
@[simp] theorem Dev.wr_log (f : Fld) (i v : Nat) : (d.wr f i v).log = d.log := rfl
@[simp] theorem Dev.wr_pwr (f : Fld) (i v : Nat) : (d.wr f i v).pwr = d.pwr := rfl
@[simp] theorem Dev.wr_host (f : Fld) (i v : Nat) : (d.wr f i v).host = d.host := rfl
@[simp] theorem Dev.wr_reads (f : Fld) (i v : Nat) : (d.wr f i v).reads = d.reads := rfl
@[simp] theorem Dev.wr_nextTag (f : Fld) (i v : Nat) : (d.wr f i v).nextTag = d.nextTag := rfl
@[simp] theorem Dev.wr_int (f : Fld) (i v : Nat) : (d.wr f i v).int = d.int := rfl
@[simp] theorem Dev.wr_dep (f : Fld) (i v : Nat) : (d.wr f i v).dep = d.dep := rfl
@[simp] theorem Dev.wr_eng (f : Fld) (i v : Nat) : (d.wr f i v).eng = d.eng := rfl
@[simp] theorem Dev.wr_wq (f : Fld) (i v : Nat) : (d.wr f i v).wq = d.wq := rfl
@[simp] theorem Dev.wr_xlt (f : Fld) (i v : Nat) : (d.wr f i v).xlt = d.xlt := rfl
@[simp] theorem Dev.wr_win (f : Fld) (i v : Nat) : (d.wr f i v).win = d.win := rfl
@[simp] theorem Dev.wr_dma (f : Fld) (i v : Nat) : (d.wr f i v).dma = d.dma := rfl
@[simp] theorem Dev.wr_rma (f : Fld) (i v : Nat) : (d.wr f i v).rma = d.rma := rfl
@[simp] theorem Dev.wr_cc (f : Fld) (i v : Nat) : (d.wr f i v).cc = d.cc := rfl
@[simp] theorem Dev.wr_mtc (f : Fld) (i v : Nat) : (d.wr f i v).mtc = d.mtc := rfl
@[simp] theorem Dev.wr_col (f : Fld) (i v : Nat) : (d.wr f i v).col = d.col := rfl
@[simp] theorem Dev.wr_ports (f : Fld) (i v : Nat) : (d.wr f i v).ports = d.ports := rfl
@[simp] theorem Dev.wr_sch (f : Fld) (i v : Nat) : (d.wr f i v).sch = d.sch := rfl
@[simp] theorem Dev.wr_rte (f : Fld) (i v : Nat) : (d.wr f i v).rte = d.rte := rfl
@[simp] theorem Dev.wr_ropes (f : Fld) (i v : Nat) : (d.wr f i v).ropes = d.ropes := rfl
@[simp] theorem Dev.wr_time (f : Fld) (i v : Nat) : (d.wr f i v).time = d.time := rfl
@[simp] theorem Dev.wr_bcp (f : Fld) (i v : Nat) : (d.wr f i v).bcp = d.bcp := rfl
@[simp] theorem Dev.wr_flt (f : Fld) (i v : Nat) : (d.wr f i v).flt = d.flt := rfl
@[simp] theorem Dev.wr_pmc (f : Fld) (i v : Nat) : (d.wr f i v).pmc = d.pmc := rfl

@[simp] theorem Dev.bumpBy_force (f : Fld) (i n : Nat) : (d.bumpBy f i n).force = d.force := rfl
@[simp] theorem Dev.bumpBy_ps (f : Fld) (i n : Nat) : (d.bumpBy f i n).ps = d.ps := rfl
@[simp] theorem Dev.bumpBy_ft (f : Fld) (i n : Nat) : (d.bumpBy f i n).ft = d.ft := rfl
@[simp] theorem Dev.bumpBy_fresh (f : Fld) (i n : Nat) : (d.bumpBy f i n).fresh = d.fresh := rfl
@[simp] theorem Dev.bumpBy_log (f : Fld) (i n : Nat) : (d.bumpBy f i n).log = d.log := rfl
@[simp] theorem Dev.bumpBy_pwr (f : Fld) (i n : Nat) : (d.bumpBy f i n).pwr = d.pwr := rfl
@[simp] theorem Dev.bumpBy_host (f : Fld) (i n : Nat) : (d.bumpBy f i n).host = d.host := rfl
@[simp] theorem Dev.bumpBy_reads (f : Fld) (i n : Nat) : (d.bumpBy f i n).reads = d.reads := rfl
@[simp] theorem Dev.bumpBy_nextTag (f : Fld) (i n : Nat) : (d.bumpBy f i n).nextTag = d.nextTag := rfl
@[simp] theorem Dev.bumpBy_int (f : Fld) (i n : Nat) : (d.bumpBy f i n).int = d.int := rfl
@[simp] theorem Dev.bumpBy_dep (f : Fld) (i n : Nat) : (d.bumpBy f i n).dep = d.dep := rfl
@[simp] theorem Dev.bumpBy_eng (f : Fld) (i n : Nat) : (d.bumpBy f i n).eng = d.eng := rfl
@[simp] theorem Dev.bumpBy_wq (f : Fld) (i n : Nat) : (d.bumpBy f i n).wq = d.wq := rfl
@[simp] theorem Dev.bumpBy_xlt (f : Fld) (i n : Nat) : (d.bumpBy f i n).xlt = d.xlt := rfl
@[simp] theorem Dev.bumpBy_win (f : Fld) (i n : Nat) : (d.bumpBy f i n).win = d.win := rfl
@[simp] theorem Dev.bumpBy_dma (f : Fld) (i n : Nat) : (d.bumpBy f i n).dma = d.dma := rfl
@[simp] theorem Dev.bumpBy_rma (f : Fld) (i n : Nat) : (d.bumpBy f i n).rma = d.rma := rfl
@[simp] theorem Dev.bumpBy_cc (f : Fld) (i n : Nat) : (d.bumpBy f i n).cc = d.cc := rfl
@[simp] theorem Dev.bumpBy_mtc (f : Fld) (i n : Nat) : (d.bumpBy f i n).mtc = d.mtc := rfl
@[simp] theorem Dev.bumpBy_col (f : Fld) (i n : Nat) : (d.bumpBy f i n).col = d.col := rfl
@[simp] theorem Dev.bumpBy_ports (f : Fld) (i n : Nat) : (d.bumpBy f i n).ports = d.ports := rfl
@[simp] theorem Dev.bumpBy_sch (f : Fld) (i n : Nat) : (d.bumpBy f i n).sch = d.sch := rfl
@[simp] theorem Dev.bumpBy_rte (f : Fld) (i n : Nat) : (d.bumpBy f i n).rte = d.rte := rfl
@[simp] theorem Dev.bumpBy_ropes (f : Fld) (i n : Nat) : (d.bumpBy f i n).ropes = d.ropes := rfl
@[simp] theorem Dev.bumpBy_time (f : Fld) (i n : Nat) : (d.bumpBy f i n).time = d.time := rfl
@[simp] theorem Dev.bumpBy_bcp (f : Fld) (i n : Nat) : (d.bumpBy f i n).bcp = d.bcp := rfl
@[simp] theorem Dev.bumpBy_flt (f : Fld) (i n : Nat) : (d.bumpBy f i n).flt = d.flt := rfl
@[simp] theorem Dev.bumpBy_pmc (f : Fld) (i n : Nat) : (d.bumpBy f i n).pmc = d.pmc := rfl

@[simp] theorem Dev.bump_force (f : Fld) (i : Nat) : (d.bump f i).force = d.force := rfl
@[simp] theorem Dev.bump_ps (f : Fld) (i : Nat) : (d.bump f i).ps = d.ps := rfl
@[simp] theorem Dev.bump_ft (f : Fld) (i : Nat) : (d.bump f i).ft = d.ft := rfl
@[simp] theorem Dev.bump_fresh (f : Fld) (i : Nat) : (d.bump f i).fresh = d.fresh := rfl
@[simp] theorem Dev.bump_log (f : Fld) (i : Nat) : (d.bump f i).log = d.log := rfl
@[simp] theorem Dev.bump_pwr (f : Fld) (i : Nat) : (d.bump f i).pwr = d.pwr := rfl
@[simp] theorem Dev.bump_host (f : Fld) (i : Nat) : (d.bump f i).host = d.host := rfl
@[simp] theorem Dev.bump_reads (f : Fld) (i : Nat) : (d.bump f i).reads = d.reads := rfl
@[simp] theorem Dev.bump_nextTag (f : Fld) (i : Nat) : (d.bump f i).nextTag = d.nextTag := rfl
@[simp] theorem Dev.bump_int (f : Fld) (i : Nat) : (d.bump f i).int = d.int := rfl
@[simp] theorem Dev.bump_dep (f : Fld) (i : Nat) : (d.bump f i).dep = d.dep := rfl
@[simp] theorem Dev.bump_eng (f : Fld) (i : Nat) : (d.bump f i).eng = d.eng := rfl
@[simp] theorem Dev.bump_wq (f : Fld) (i : Nat) : (d.bump f i).wq = d.wq := rfl
@[simp] theorem Dev.bump_xlt (f : Fld) (i : Nat) : (d.bump f i).xlt = d.xlt := rfl
@[simp] theorem Dev.bump_win (f : Fld) (i : Nat) : (d.bump f i).win = d.win := rfl
@[simp] theorem Dev.bump_dma (f : Fld) (i : Nat) : (d.bump f i).dma = d.dma := rfl
@[simp] theorem Dev.bump_rma (f : Fld) (i : Nat) : (d.bump f i).rma = d.rma := rfl
@[simp] theorem Dev.bump_cc (f : Fld) (i : Nat) : (d.bump f i).cc = d.cc := rfl
@[simp] theorem Dev.bump_mtc (f : Fld) (i : Nat) : (d.bump f i).mtc = d.mtc := rfl
@[simp] theorem Dev.bump_col (f : Fld) (i : Nat) : (d.bump f i).col = d.col := rfl
@[simp] theorem Dev.bump_ports (f : Fld) (i : Nat) : (d.bump f i).ports = d.ports := rfl
@[simp] theorem Dev.bump_sch (f : Fld) (i : Nat) : (d.bump f i).sch = d.sch := rfl
@[simp] theorem Dev.bump_rte (f : Fld) (i : Nat) : (d.bump f i).rte = d.rte := rfl
@[simp] theorem Dev.bump_ropes (f : Fld) (i : Nat) : (d.bump f i).ropes = d.ropes := rfl
@[simp] theorem Dev.bump_time (f : Fld) (i : Nat) : (d.bump f i).time = d.time := rfl
@[simp] theorem Dev.bump_bcp (f : Fld) (i : Nat) : (d.bump f i).bcp = d.bcp := rfl
@[simp] theorem Dev.bump_flt (f : Fld) (i : Nat) : (d.bump f i).flt = d.flt := rfl
@[simp] theorem Dev.bump_pmc (f : Fld) (i : Nat) : (d.bump f i).pmc = d.pmc := rfl

@[simp] theorem Dev.latch_regs (r i : Nat) : (d.latch r i).regs = d.regs := rfl
@[simp] theorem Dev.latch_ps (r i : Nat) : (d.latch r i).ps = d.ps := rfl
@[simp] theorem Dev.latch_ft (r i : Nat) : (d.latch r i).ft = d.ft := rfl
@[simp] theorem Dev.latch_fresh (r i : Nat) : (d.latch r i).fresh = d.fresh := rfl
@[simp] theorem Dev.latch_log (r i : Nat) : (d.latch r i).log = d.log := rfl
@[simp] theorem Dev.latch_pwr (r i : Nat) : (d.latch r i).pwr = d.pwr := rfl
@[simp] theorem Dev.latch_host (r i : Nat) : (d.latch r i).host = d.host := rfl
@[simp] theorem Dev.latch_reads (r i : Nat) : (d.latch r i).reads = d.reads := rfl
@[simp] theorem Dev.latch_nextTag (r i : Nat) : (d.latch r i).nextTag = d.nextTag := rfl
@[simp] theorem Dev.latch_int (r i : Nat) : (d.latch r i).int = d.int := rfl
@[simp] theorem Dev.latch_dep (r i : Nat) : (d.latch r i).dep = d.dep := rfl
@[simp] theorem Dev.latch_eng (r i : Nat) : (d.latch r i).eng = d.eng := rfl
@[simp] theorem Dev.latch_wq (r i : Nat) : (d.latch r i).wq = d.wq := rfl
@[simp] theorem Dev.latch_xlt (r i : Nat) : (d.latch r i).xlt = d.xlt := rfl
@[simp] theorem Dev.latch_win (r i : Nat) : (d.latch r i).win = d.win := rfl
@[simp] theorem Dev.latch_dma (r i : Nat) : (d.latch r i).dma = d.dma := rfl
@[simp] theorem Dev.latch_rma (r i : Nat) : (d.latch r i).rma = d.rma := rfl
@[simp] theorem Dev.latch_cc (r i : Nat) : (d.latch r i).cc = d.cc := rfl
@[simp] theorem Dev.latch_mtc (r i : Nat) : (d.latch r i).mtc = d.mtc := rfl
@[simp] theorem Dev.latch_col (r i : Nat) : (d.latch r i).col = d.col := rfl
@[simp] theorem Dev.latch_ports (r i : Nat) : (d.latch r i).ports = d.ports := rfl
@[simp] theorem Dev.latch_sch (r i : Nat) : (d.latch r i).sch = d.sch := rfl
@[simp] theorem Dev.latch_rte (r i : Nat) : (d.latch r i).rte = d.rte := rfl
@[simp] theorem Dev.latch_ropes (r i : Nat) : (d.latch r i).ropes = d.ropes := rfl
@[simp] theorem Dev.latch_time (r i : Nat) : (d.latch r i).time = d.time := rfl
@[simp] theorem Dev.latch_bcp (r i : Nat) : (d.latch r i).bcp = d.bcp := rfl
@[simp] theorem Dev.latch_flt (r i : Nat) : (d.latch r i).flt = d.flt := rfl
@[simp] theorem Dev.latch_pmc (r i : Nat) : (d.latch r i).pmc = d.pmc := rfl

@[simp] theorem Dev.emit_regs (o : Out) : (d.emit o).regs = d.regs := rfl
@[simp] theorem Dev.emit_force (o : Out) : (d.emit o).force = d.force := rfl
@[simp] theorem Dev.emit_ps (o : Out) : (d.emit o).ps = d.ps := rfl
@[simp] theorem Dev.emit_ft (o : Out) : (d.emit o).ft = d.ft := rfl
@[simp] theorem Dev.emit_fresh (o : Out) : (d.emit o).fresh = d.fresh := rfl
@[simp] theorem Dev.emit_pwr (o : Out) : (d.emit o).pwr = d.pwr := rfl
@[simp] theorem Dev.emit_host (o : Out) : (d.emit o).host = d.host := rfl
@[simp] theorem Dev.emit_reads (o : Out) : (d.emit o).reads = d.reads := rfl
@[simp] theorem Dev.emit_nextTag (o : Out) : (d.emit o).nextTag = d.nextTag := rfl
@[simp] theorem Dev.emit_int (o : Out) : (d.emit o).int = d.int := rfl
@[simp] theorem Dev.emit_dep (o : Out) : (d.emit o).dep = d.dep := rfl
@[simp] theorem Dev.emit_eng (o : Out) : (d.emit o).eng = d.eng := rfl
@[simp] theorem Dev.emit_wq (o : Out) : (d.emit o).wq = d.wq := rfl
@[simp] theorem Dev.emit_xlt (o : Out) : (d.emit o).xlt = d.xlt := rfl
@[simp] theorem Dev.emit_win (o : Out) : (d.emit o).win = d.win := rfl
@[simp] theorem Dev.emit_dma (o : Out) : (d.emit o).dma = d.dma := rfl
@[simp] theorem Dev.emit_rma (o : Out) : (d.emit o).rma = d.rma := rfl
@[simp] theorem Dev.emit_cc (o : Out) : (d.emit o).cc = d.cc := rfl
@[simp] theorem Dev.emit_mtc (o : Out) : (d.emit o).mtc = d.mtc := rfl
@[simp] theorem Dev.emit_col (o : Out) : (d.emit o).col = d.col := rfl
@[simp] theorem Dev.emit_ports (o : Out) : (d.emit o).ports = d.ports := rfl
@[simp] theorem Dev.emit_sch (o : Out) : (d.emit o).sch = d.sch := rfl
@[simp] theorem Dev.emit_rte (o : Out) : (d.emit o).rte = d.rte := rfl
@[simp] theorem Dev.emit_ropes (o : Out) : (d.emit o).ropes = d.ropes := rfl
@[simp] theorem Dev.emit_time (o : Out) : (d.emit o).time = d.time := rfl
@[simp] theorem Dev.emit_bcp (o : Out) : (d.emit o).bcp = d.bcp := rfl
@[simp] theorem Dev.emit_flt (o : Out) : (d.emit o).flt = d.flt := rfl
@[simp] theorem Dev.emit_pmc (o : Out) : (d.emit o).pmc = d.pmc := rfl

@[simp] theorem Dev.setThr_regs (th : Nat) (t : Thread) : (d.setThr th t).regs = d.regs := rfl
@[simp] theorem Dev.setThr_force (th : Nat) (t : Thread) : (d.setThr th t).force = d.force := rfl
@[simp] theorem Dev.setThr_ps (th : Nat) (t : Thread) : (d.setThr th t).ps = d.ps := rfl
@[simp] theorem Dev.setThr_ft (th : Nat) (t : Thread) : (d.setThr th t).ft = d.ft := rfl
@[simp] theorem Dev.setThr_fresh (th : Nat) (t : Thread) : (d.setThr th t).fresh = d.fresh := rfl
@[simp] theorem Dev.setThr_log (th : Nat) (t : Thread) : (d.setThr th t).log = d.log := rfl
@[simp] theorem Dev.setThr_pwr (th : Nat) (t : Thread) : (d.setThr th t).pwr = d.pwr := rfl
@[simp] theorem Dev.setThr_host (th : Nat) (t : Thread) : (d.setThr th t).host = d.host := rfl
@[simp] theorem Dev.setThr_reads (th : Nat) (t : Thread) : (d.setThr th t).reads = d.reads := rfl
@[simp] theorem Dev.setThr_nextTag (th : Nat) (t : Thread) : (d.setThr th t).nextTag = d.nextTag := rfl
@[simp] theorem Dev.setThr_int (th : Nat) (t : Thread) : (d.setThr th t).int = d.int := rfl
@[simp] theorem Dev.setThr_dep (th : Nat) (t : Thread) : (d.setThr th t).dep = d.dep := rfl
@[simp] theorem Dev.setThr_wq (th : Nat) (t : Thread) : (d.setThr th t).wq = d.wq := rfl
@[simp] theorem Dev.setThr_xlt (th : Nat) (t : Thread) : (d.setThr th t).xlt = d.xlt := rfl
@[simp] theorem Dev.setThr_win (th : Nat) (t : Thread) : (d.setThr th t).win = d.win := rfl
@[simp] theorem Dev.setThr_dma (th : Nat) (t : Thread) : (d.setThr th t).dma = d.dma := rfl
@[simp] theorem Dev.setThr_rma (th : Nat) (t : Thread) : (d.setThr th t).rma = d.rma := rfl
@[simp] theorem Dev.setThr_cc (th : Nat) (t : Thread) : (d.setThr th t).cc = d.cc := rfl
@[simp] theorem Dev.setThr_mtc (th : Nat) (t : Thread) : (d.setThr th t).mtc = d.mtc := rfl
@[simp] theorem Dev.setThr_col (th : Nat) (t : Thread) : (d.setThr th t).col = d.col := rfl
@[simp] theorem Dev.setThr_ports (th : Nat) (t : Thread) : (d.setThr th t).ports = d.ports := rfl
@[simp] theorem Dev.setThr_sch (th : Nat) (t : Thread) : (d.setThr th t).sch = d.sch := rfl
@[simp] theorem Dev.setThr_rte (th : Nat) (t : Thread) : (d.setThr th t).rte = d.rte := rfl
@[simp] theorem Dev.setThr_ropes (th : Nat) (t : Thread) : (d.setThr th t).ropes = d.ropes := rfl
@[simp] theorem Dev.setThr_time (th : Nat) (t : Thread) : (d.setThr th t).time = d.time := rfl
@[simp] theorem Dev.setThr_bcp (th : Nat) (t : Thread) : (d.setThr th t).bcp = d.bcp := rfl
@[simp] theorem Dev.setThr_flt (th : Nat) (t : Thread) : (d.setThr th t).flt = d.flt := rfl
@[simp] theorem Dev.setThr_pmc (th : Nat) (t : Thread) : (d.setThr th t).pmc = d.pmc := rfl
@[simp] theorem Dev.setThr_eng_scratch (th : Nat) (t : Thread) : (d.setThr th t).eng.scratch = d.eng.scratch := rfl
@[simp] theorem Dev.setThr_eng_pend (th : Nat) (t : Thread) : (d.setThr th t).eng.pend = d.eng.pend := rfl
@[simp] theorem Dev.setThr_eng_late (th : Nat) (t : Thread) : (d.setThr th t).eng.late = d.eng.late := rfl
@[simp] theorem Dev.setThr_eng_imem (th : Nat) (t : Thread) : (d.setThr th t).eng.imem = d.eng.imem := rfl
@[simp] theorem Dev.setThr_eng_oldImg (th : Nat) (t : Thread) : (d.setThr th t).eng.oldImg = d.eng.oldImg := rfl
@[simp] theorem Dev.setThr_eng_u3asid (th : Nat) (t : Thread) : (d.setThr th t).eng.u3asid = d.eng.u3asid := rfl
@[simp] theorem Dev.setThr_eng_waking (th : Nat) (t : Thread) : (d.setThr th t).eng.waking = d.eng.waking := rfl
@[simp] theorem Dev.setThr_eng_idleSince (th : Nat) (t : Thread) : (d.setThr th t).eng.idleSince = d.eng.idleSince := rfl

@[simp] theorem Dev.updThr_regs (th : Nat) (g : Thread → Thread) : (d.updThr th g).regs = d.regs := rfl
@[simp] theorem Dev.updThr_force (th : Nat) (g : Thread → Thread) : (d.updThr th g).force = d.force := rfl
@[simp] theorem Dev.updThr_ps (th : Nat) (g : Thread → Thread) : (d.updThr th g).ps = d.ps := rfl
@[simp] theorem Dev.updThr_ft (th : Nat) (g : Thread → Thread) : (d.updThr th g).ft = d.ft := rfl
@[simp] theorem Dev.updThr_fresh (th : Nat) (g : Thread → Thread) : (d.updThr th g).fresh = d.fresh := rfl
@[simp] theorem Dev.updThr_log (th : Nat) (g : Thread → Thread) : (d.updThr th g).log = d.log := rfl
@[simp] theorem Dev.updThr_pwr (th : Nat) (g : Thread → Thread) : (d.updThr th g).pwr = d.pwr := rfl
@[simp] theorem Dev.updThr_host (th : Nat) (g : Thread → Thread) : (d.updThr th g).host = d.host := rfl
@[simp] theorem Dev.updThr_reads (th : Nat) (g : Thread → Thread) : (d.updThr th g).reads = d.reads := rfl
@[simp] theorem Dev.updThr_nextTag (th : Nat) (g : Thread → Thread) : (d.updThr th g).nextTag = d.nextTag := rfl
@[simp] theorem Dev.updThr_int (th : Nat) (g : Thread → Thread) : (d.updThr th g).int = d.int := rfl
@[simp] theorem Dev.updThr_dep (th : Nat) (g : Thread → Thread) : (d.updThr th g).dep = d.dep := rfl
@[simp] theorem Dev.updThr_wq (th : Nat) (g : Thread → Thread) : (d.updThr th g).wq = d.wq := rfl
@[simp] theorem Dev.updThr_xlt (th : Nat) (g : Thread → Thread) : (d.updThr th g).xlt = d.xlt := rfl
@[simp] theorem Dev.updThr_win (th : Nat) (g : Thread → Thread) : (d.updThr th g).win = d.win := rfl
@[simp] theorem Dev.updThr_dma (th : Nat) (g : Thread → Thread) : (d.updThr th g).dma = d.dma := rfl
@[simp] theorem Dev.updThr_rma (th : Nat) (g : Thread → Thread) : (d.updThr th g).rma = d.rma := rfl
@[simp] theorem Dev.updThr_cc (th : Nat) (g : Thread → Thread) : (d.updThr th g).cc = d.cc := rfl
@[simp] theorem Dev.updThr_mtc (th : Nat) (g : Thread → Thread) : (d.updThr th g).mtc = d.mtc := rfl
@[simp] theorem Dev.updThr_col (th : Nat) (g : Thread → Thread) : (d.updThr th g).col = d.col := rfl
@[simp] theorem Dev.updThr_ports (th : Nat) (g : Thread → Thread) : (d.updThr th g).ports = d.ports := rfl
@[simp] theorem Dev.updThr_sch (th : Nat) (g : Thread → Thread) : (d.updThr th g).sch = d.sch := rfl
@[simp] theorem Dev.updThr_rte (th : Nat) (g : Thread → Thread) : (d.updThr th g).rte = d.rte := rfl
@[simp] theorem Dev.updThr_ropes (th : Nat) (g : Thread → Thread) : (d.updThr th g).ropes = d.ropes := rfl
@[simp] theorem Dev.updThr_time (th : Nat) (g : Thread → Thread) : (d.updThr th g).time = d.time := rfl
@[simp] theorem Dev.updThr_bcp (th : Nat) (g : Thread → Thread) : (d.updThr th g).bcp = d.bcp := rfl
@[simp] theorem Dev.updThr_flt (th : Nat) (g : Thread → Thread) : (d.updThr th g).flt = d.flt := rfl
@[simp] theorem Dev.updThr_pmc (th : Nat) (g : Thread → Thread) : (d.updThr th g).pmc = d.pmc := rfl
@[simp] theorem Dev.updThr_eng_scratch (th : Nat) (g : Thread → Thread) : (d.updThr th g).eng.scratch = d.eng.scratch := rfl
@[simp] theorem Dev.updThr_eng_pend (th : Nat) (g : Thread → Thread) : (d.updThr th g).eng.pend = d.eng.pend := rfl
@[simp] theorem Dev.updThr_eng_late (th : Nat) (g : Thread → Thread) : (d.updThr th g).eng.late = d.eng.late := rfl
@[simp] theorem Dev.updThr_eng_imem (th : Nat) (g : Thread → Thread) : (d.updThr th g).eng.imem = d.eng.imem := rfl
@[simp] theorem Dev.updThr_eng_oldImg (th : Nat) (g : Thread → Thread) : (d.updThr th g).eng.oldImg = d.eng.oldImg := rfl
@[simp] theorem Dev.updThr_eng_u3asid (th : Nat) (g : Thread → Thread) : (d.updThr th g).eng.u3asid = d.eng.u3asid := rfl
@[simp] theorem Dev.updThr_eng_waking (th : Nat) (g : Thread → Thread) : (d.updThr th g).eng.waking = d.eng.waking := rfl
@[simp] theorem Dev.updThr_eng_idleSince (th : Nat) (g : Thread → Thread) : (d.updThr th g).eng.idleSince = d.eng.idleSince := rfl

@[simp] theorem Dev.setW_regs (th n : Nat) (v : TWord) : (d.setW th n v).regs = d.regs := rfl
@[simp] theorem Dev.setW_force (th n : Nat) (v : TWord) : (d.setW th n v).force = d.force := rfl
@[simp] theorem Dev.setW_ps (th n : Nat) (v : TWord) : (d.setW th n v).ps = d.ps := rfl
@[simp] theorem Dev.setW_ft (th n : Nat) (v : TWord) : (d.setW th n v).ft = d.ft := rfl
@[simp] theorem Dev.setW_fresh (th n : Nat) (v : TWord) : (d.setW th n v).fresh = d.fresh := rfl
@[simp] theorem Dev.setW_log (th n : Nat) (v : TWord) : (d.setW th n v).log = d.log := rfl
@[simp] theorem Dev.setW_pwr (th n : Nat) (v : TWord) : (d.setW th n v).pwr = d.pwr := rfl
@[simp] theorem Dev.setW_host (th n : Nat) (v : TWord) : (d.setW th n v).host = d.host := rfl
@[simp] theorem Dev.setW_reads (th n : Nat) (v : TWord) : (d.setW th n v).reads = d.reads := rfl
@[simp] theorem Dev.setW_nextTag (th n : Nat) (v : TWord) : (d.setW th n v).nextTag = d.nextTag := rfl
@[simp] theorem Dev.setW_int (th n : Nat) (v : TWord) : (d.setW th n v).int = d.int := rfl
@[simp] theorem Dev.setW_dep (th n : Nat) (v : TWord) : (d.setW th n v).dep = d.dep := rfl
@[simp] theorem Dev.setW_wq (th n : Nat) (v : TWord) : (d.setW th n v).wq = d.wq := rfl
@[simp] theorem Dev.setW_xlt (th n : Nat) (v : TWord) : (d.setW th n v).xlt = d.xlt := rfl
@[simp] theorem Dev.setW_win (th n : Nat) (v : TWord) : (d.setW th n v).win = d.win := rfl
@[simp] theorem Dev.setW_dma (th n : Nat) (v : TWord) : (d.setW th n v).dma = d.dma := rfl
@[simp] theorem Dev.setW_rma (th n : Nat) (v : TWord) : (d.setW th n v).rma = d.rma := rfl
@[simp] theorem Dev.setW_cc (th n : Nat) (v : TWord) : (d.setW th n v).cc = d.cc := rfl
@[simp] theorem Dev.setW_mtc (th n : Nat) (v : TWord) : (d.setW th n v).mtc = d.mtc := rfl
@[simp] theorem Dev.setW_col (th n : Nat) (v : TWord) : (d.setW th n v).col = d.col := rfl
@[simp] theorem Dev.setW_ports (th n : Nat) (v : TWord) : (d.setW th n v).ports = d.ports := rfl
@[simp] theorem Dev.setW_sch (th n : Nat) (v : TWord) : (d.setW th n v).sch = d.sch := rfl
@[simp] theorem Dev.setW_rte (th n : Nat) (v : TWord) : (d.setW th n v).rte = d.rte := rfl
@[simp] theorem Dev.setW_ropes (th n : Nat) (v : TWord) : (d.setW th n v).ropes = d.ropes := rfl
@[simp] theorem Dev.setW_time (th n : Nat) (v : TWord) : (d.setW th n v).time = d.time := rfl
@[simp] theorem Dev.setW_bcp (th n : Nat) (v : TWord) : (d.setW th n v).bcp = d.bcp := rfl
@[simp] theorem Dev.setW_flt (th n : Nat) (v : TWord) : (d.setW th n v).flt = d.flt := rfl
@[simp] theorem Dev.setW_pmc (th n : Nat) (v : TWord) : (d.setW th n v).pmc = d.pmc := rfl
@[simp] theorem Dev.setW_eng_scratch (th n : Nat) (v : TWord) : (d.setW th n v).eng.scratch = d.eng.scratch := rfl
@[simp] theorem Dev.setW_eng_pend (th n : Nat) (v : TWord) : (d.setW th n v).eng.pend = d.eng.pend := rfl
@[simp] theorem Dev.setW_eng_late (th n : Nat) (v : TWord) : (d.setW th n v).eng.late = d.eng.late := rfl
@[simp] theorem Dev.setW_eng_imem (th n : Nat) (v : TWord) : (d.setW th n v).eng.imem = d.eng.imem := rfl
@[simp] theorem Dev.setW_eng_oldImg (th n : Nat) (v : TWord) : (d.setW th n v).eng.oldImg = d.eng.oldImg := rfl
@[simp] theorem Dev.setW_eng_u3asid (th n : Nat) (v : TWord) : (d.setW th n v).eng.u3asid = d.eng.u3asid := rfl
@[simp] theorem Dev.setW_eng_waking (th n : Nat) (v : TWord) : (d.setW th n v).eng.waking = d.eng.waking := rfl
@[simp] theorem Dev.setW_eng_idleSince (th n : Nat) (v : TWord) : (d.setW th n v).eng.idleSince = d.eng.idleSince := rfl

@[simp] theorem Dev.setVal_regs (th n v : Nat) : (d.setVal th n v).regs = d.regs := rfl
@[simp] theorem Dev.setVal_force (th n v : Nat) : (d.setVal th n v).force = d.force := rfl
@[simp] theorem Dev.setVal_ps (th n v : Nat) : (d.setVal th n v).ps = d.ps := rfl
@[simp] theorem Dev.setVal_ft (th n v : Nat) : (d.setVal th n v).ft = d.ft := rfl
@[simp] theorem Dev.setVal_fresh (th n v : Nat) : (d.setVal th n v).fresh = d.fresh := rfl
@[simp] theorem Dev.setVal_log (th n v : Nat) : (d.setVal th n v).log = d.log := rfl
@[simp] theorem Dev.setVal_pwr (th n v : Nat) : (d.setVal th n v).pwr = d.pwr := rfl
@[simp] theorem Dev.setVal_host (th n v : Nat) : (d.setVal th n v).host = d.host := rfl
@[simp] theorem Dev.setVal_reads (th n v : Nat) : (d.setVal th n v).reads = d.reads := rfl
@[simp] theorem Dev.setVal_nextTag (th n v : Nat) : (d.setVal th n v).nextTag = d.nextTag := rfl
@[simp] theorem Dev.setVal_int (th n v : Nat) : (d.setVal th n v).int = d.int := rfl
@[simp] theorem Dev.setVal_dep (th n v : Nat) : (d.setVal th n v).dep = d.dep := rfl
@[simp] theorem Dev.setVal_wq (th n v : Nat) : (d.setVal th n v).wq = d.wq := rfl
@[simp] theorem Dev.setVal_xlt (th n v : Nat) : (d.setVal th n v).xlt = d.xlt := rfl
@[simp] theorem Dev.setVal_win (th n v : Nat) : (d.setVal th n v).win = d.win := rfl
@[simp] theorem Dev.setVal_dma (th n v : Nat) : (d.setVal th n v).dma = d.dma := rfl
@[simp] theorem Dev.setVal_rma (th n v : Nat) : (d.setVal th n v).rma = d.rma := rfl
@[simp] theorem Dev.setVal_cc (th n v : Nat) : (d.setVal th n v).cc = d.cc := rfl
@[simp] theorem Dev.setVal_mtc (th n v : Nat) : (d.setVal th n v).mtc = d.mtc := rfl
@[simp] theorem Dev.setVal_col (th n v : Nat) : (d.setVal th n v).col = d.col := rfl
@[simp] theorem Dev.setVal_ports (th n v : Nat) : (d.setVal th n v).ports = d.ports := rfl
@[simp] theorem Dev.setVal_sch (th n v : Nat) : (d.setVal th n v).sch = d.sch := rfl
@[simp] theorem Dev.setVal_rte (th n v : Nat) : (d.setVal th n v).rte = d.rte := rfl
@[simp] theorem Dev.setVal_ropes (th n v : Nat) : (d.setVal th n v).ropes = d.ropes := rfl
@[simp] theorem Dev.setVal_time (th n v : Nat) : (d.setVal th n v).time = d.time := rfl
@[simp] theorem Dev.setVal_bcp (th n v : Nat) : (d.setVal th n v).bcp = d.bcp := rfl
@[simp] theorem Dev.setVal_flt (th n v : Nat) : (d.setVal th n v).flt = d.flt := rfl
@[simp] theorem Dev.setVal_pmc (th n v : Nat) : (d.setVal th n v).pmc = d.pmc := rfl
@[simp] theorem Dev.setVal_eng_scratch (th n v : Nat) : (d.setVal th n v).eng.scratch = d.eng.scratch := rfl
@[simp] theorem Dev.setVal_eng_pend (th n v : Nat) : (d.setVal th n v).eng.pend = d.eng.pend := rfl
@[simp] theorem Dev.setVal_eng_late (th n v : Nat) : (d.setVal th n v).eng.late = d.eng.late := rfl
@[simp] theorem Dev.setVal_eng_imem (th n v : Nat) : (d.setVal th n v).eng.imem = d.eng.imem := rfl
@[simp] theorem Dev.setVal_eng_oldImg (th n v : Nat) : (d.setVal th n v).eng.oldImg = d.eng.oldImg := rfl
@[simp] theorem Dev.setVal_eng_u3asid (th n v : Nat) : (d.setVal th n v).eng.u3asid = d.eng.u3asid := rfl
@[simp] theorem Dev.setVal_eng_waking (th n v : Nat) : (d.setVal th n v).eng.waking = d.eng.waking := rfl
@[simp] theorem Dev.setVal_eng_idleSince (th n v : Nat) : (d.setVal th n v).eng.idleSince = d.eng.idleSince := rfl

@[simp] theorem Dev.setDepWord_regs (a : Nat) (w : TWord) : (d.setDepWord a w).regs = d.regs := rfl
@[simp] theorem Dev.setDepWord_force (a : Nat) (w : TWord) : (d.setDepWord a w).force = d.force := rfl
@[simp] theorem Dev.setDepWord_ps (a : Nat) (w : TWord) : (d.setDepWord a w).ps = d.ps := rfl
@[simp] theorem Dev.setDepWord_ft (a : Nat) (w : TWord) : (d.setDepWord a w).ft = d.ft := rfl
@[simp] theorem Dev.setDepWord_fresh (a : Nat) (w : TWord) : (d.setDepWord a w).fresh = d.fresh := rfl
@[simp] theorem Dev.setDepWord_log (a : Nat) (w : TWord) : (d.setDepWord a w).log = d.log := rfl
@[simp] theorem Dev.setDepWord_pwr (a : Nat) (w : TWord) : (d.setDepWord a w).pwr = d.pwr := rfl
@[simp] theorem Dev.setDepWord_host (a : Nat) (w : TWord) : (d.setDepWord a w).host = d.host := rfl
@[simp] theorem Dev.setDepWord_reads (a : Nat) (w : TWord) : (d.setDepWord a w).reads = d.reads := rfl
@[simp] theorem Dev.setDepWord_nextTag (a : Nat) (w : TWord) : (d.setDepWord a w).nextTag = d.nextTag := rfl
@[simp] theorem Dev.setDepWord_int (a : Nat) (w : TWord) : (d.setDepWord a w).int = d.int := rfl
@[simp] theorem Dev.setDepWord_eng (a : Nat) (w : TWord) : (d.setDepWord a w).eng = d.eng := rfl
@[simp] theorem Dev.setDepWord_wq (a : Nat) (w : TWord) : (d.setDepWord a w).wq = d.wq := rfl
@[simp] theorem Dev.setDepWord_xlt (a : Nat) (w : TWord) : (d.setDepWord a w).xlt = d.xlt := rfl
@[simp] theorem Dev.setDepWord_win (a : Nat) (w : TWord) : (d.setDepWord a w).win = d.win := rfl
@[simp] theorem Dev.setDepWord_dma (a : Nat) (w : TWord) : (d.setDepWord a w).dma = d.dma := rfl
@[simp] theorem Dev.setDepWord_rma (a : Nat) (w : TWord) : (d.setDepWord a w).rma = d.rma := rfl
@[simp] theorem Dev.setDepWord_cc (a : Nat) (w : TWord) : (d.setDepWord a w).cc = d.cc := rfl
@[simp] theorem Dev.setDepWord_mtc (a : Nat) (w : TWord) : (d.setDepWord a w).mtc = d.mtc := rfl
@[simp] theorem Dev.setDepWord_col (a : Nat) (w : TWord) : (d.setDepWord a w).col = d.col := rfl
@[simp] theorem Dev.setDepWord_ports (a : Nat) (w : TWord) : (d.setDepWord a w).ports = d.ports := rfl
@[simp] theorem Dev.setDepWord_sch (a : Nat) (w : TWord) : (d.setDepWord a w).sch = d.sch := rfl
@[simp] theorem Dev.setDepWord_rte (a : Nat) (w : TWord) : (d.setDepWord a w).rte = d.rte := rfl
@[simp] theorem Dev.setDepWord_ropes (a : Nat) (w : TWord) : (d.setDepWord a w).ropes = d.ropes := rfl
@[simp] theorem Dev.setDepWord_time (a : Nat) (w : TWord) : (d.setDepWord a w).time = d.time := rfl
@[simp] theorem Dev.setDepWord_bcp (a : Nat) (w : TWord) : (d.setDepWord a w).bcp = d.bcp := rfl
@[simp] theorem Dev.setDepWord_flt (a : Nat) (w : TWord) : (d.setDepWord a w).flt = d.flt := rfl
@[simp] theorem Dev.setDepWord_pmc (a : Nat) (w : TWord) : (d.setDepWord a w).pmc = d.pmc := rfl
@[simp] theorem Dev.setDepWord_dep_bufs (a : Nat) (w : TWord) : (d.setDepWord a w).dep.bufs = d.dep.bufs := rfl
@[simp] theorem Dev.setDepWord_dep_arbs (a : Nat) (w : TWord) : (d.setDepWord a w).dep.arbs = d.dep.arbs := rfl
@[simp] theorem Dev.setDepWord_dep_selfRefresh (a : Nat) (w : TWord) : (d.setDepWord a w).dep.selfRefresh = d.dep.selfRefresh := rfl
@[simp] theorem Dev.setDepWord_dep_scrubAt (a : Nat) (w : TWord) : (d.setDepWord a w).dep.scrubAt = d.dep.scrubAt := rfl

@[simp] theorem Dev.setScrWord_regs (c a : Nat) (w : TWord) : (d.setScrWord c a w).regs = d.regs := rfl
@[simp] theorem Dev.setScrWord_force (c a : Nat) (w : TWord) : (d.setScrWord c a w).force = d.force := rfl
@[simp] theorem Dev.setScrWord_ps (c a : Nat) (w : TWord) : (d.setScrWord c a w).ps = d.ps := rfl
@[simp] theorem Dev.setScrWord_ft (c a : Nat) (w : TWord) : (d.setScrWord c a w).ft = d.ft := rfl
@[simp] theorem Dev.setScrWord_fresh (c a : Nat) (w : TWord) : (d.setScrWord c a w).fresh = d.fresh := rfl
@[simp] theorem Dev.setScrWord_log (c a : Nat) (w : TWord) : (d.setScrWord c a w).log = d.log := rfl
@[simp] theorem Dev.setScrWord_pwr (c a : Nat) (w : TWord) : (d.setScrWord c a w).pwr = d.pwr := rfl
@[simp] theorem Dev.setScrWord_host (c a : Nat) (w : TWord) : (d.setScrWord c a w).host = d.host := rfl
@[simp] theorem Dev.setScrWord_reads (c a : Nat) (w : TWord) : (d.setScrWord c a w).reads = d.reads := rfl
@[simp] theorem Dev.setScrWord_nextTag (c a : Nat) (w : TWord) : (d.setScrWord c a w).nextTag = d.nextTag := rfl
@[simp] theorem Dev.setScrWord_int (c a : Nat) (w : TWord) : (d.setScrWord c a w).int = d.int := rfl
@[simp] theorem Dev.setScrWord_dep (c a : Nat) (w : TWord) : (d.setScrWord c a w).dep = d.dep := rfl
@[simp] theorem Dev.setScrWord_wq (c a : Nat) (w : TWord) : (d.setScrWord c a w).wq = d.wq := rfl
@[simp] theorem Dev.setScrWord_xlt (c a : Nat) (w : TWord) : (d.setScrWord c a w).xlt = d.xlt := rfl
@[simp] theorem Dev.setScrWord_win (c a : Nat) (w : TWord) : (d.setScrWord c a w).win = d.win := rfl
@[simp] theorem Dev.setScrWord_dma (c a : Nat) (w : TWord) : (d.setScrWord c a w).dma = d.dma := rfl
@[simp] theorem Dev.setScrWord_rma (c a : Nat) (w : TWord) : (d.setScrWord c a w).rma = d.rma := rfl
@[simp] theorem Dev.setScrWord_cc (c a : Nat) (w : TWord) : (d.setScrWord c a w).cc = d.cc := rfl
@[simp] theorem Dev.setScrWord_mtc (c a : Nat) (w : TWord) : (d.setScrWord c a w).mtc = d.mtc := rfl
@[simp] theorem Dev.setScrWord_col (c a : Nat) (w : TWord) : (d.setScrWord c a w).col = d.col := rfl
@[simp] theorem Dev.setScrWord_ports (c a : Nat) (w : TWord) : (d.setScrWord c a w).ports = d.ports := rfl
@[simp] theorem Dev.setScrWord_sch (c a : Nat) (w : TWord) : (d.setScrWord c a w).sch = d.sch := rfl
@[simp] theorem Dev.setScrWord_rte (c a : Nat) (w : TWord) : (d.setScrWord c a w).rte = d.rte := rfl
@[simp] theorem Dev.setScrWord_ropes (c a : Nat) (w : TWord) : (d.setScrWord c a w).ropes = d.ropes := rfl
@[simp] theorem Dev.setScrWord_time (c a : Nat) (w : TWord) : (d.setScrWord c a w).time = d.time := rfl
@[simp] theorem Dev.setScrWord_bcp (c a : Nat) (w : TWord) : (d.setScrWord c a w).bcp = d.bcp := rfl
@[simp] theorem Dev.setScrWord_flt (c a : Nat) (w : TWord) : (d.setScrWord c a w).flt = d.flt := rfl
@[simp] theorem Dev.setScrWord_pmc (c a : Nat) (w : TWord) : (d.setScrWord c a w).pmc = d.pmc := rfl
@[simp] theorem Dev.setScrWord_eng_th (c a : Nat) (w : TWord) : (d.setScrWord c a w).eng.th = d.eng.th := rfl
@[simp] theorem Dev.setScrWord_eng_pend (c a : Nat) (w : TWord) : (d.setScrWord c a w).eng.pend = d.eng.pend := rfl
@[simp] theorem Dev.setScrWord_eng_late (c a : Nat) (w : TWord) : (d.setScrWord c a w).eng.late = d.eng.late := rfl
@[simp] theorem Dev.setScrWord_eng_imem (c a : Nat) (w : TWord) : (d.setScrWord c a w).eng.imem = d.eng.imem := rfl
@[simp] theorem Dev.setScrWord_eng_oldImg (c a : Nat) (w : TWord) : (d.setScrWord c a w).eng.oldImg = d.eng.oldImg := rfl
@[simp] theorem Dev.setScrWord_eng_u3asid (c a : Nat) (w : TWord) : (d.setScrWord c a w).eng.u3asid = d.eng.u3asid := rfl
@[simp] theorem Dev.setScrWord_eng_waking (c a : Nat) (w : TWord) : (d.setScrWord c a w).eng.waking = d.eng.waking := rfl
@[simp] theorem Dev.setScrWord_eng_idleSince (c a : Nat) (w : TWord) : (d.setScrWord c a w).eng.idleSince = d.eng.idleSince := rfl

@[simp] theorem Dev.setPend_regs (t : Nat) (l : List Nat) : (d.setPend t l).regs = d.regs := rfl
@[simp] theorem Dev.setPend_force (t : Nat) (l : List Nat) : (d.setPend t l).force = d.force := rfl
@[simp] theorem Dev.setPend_ps (t : Nat) (l : List Nat) : (d.setPend t l).ps = d.ps := rfl
@[simp] theorem Dev.setPend_ft (t : Nat) (l : List Nat) : (d.setPend t l).ft = d.ft := rfl
@[simp] theorem Dev.setPend_fresh (t : Nat) (l : List Nat) : (d.setPend t l).fresh = d.fresh := rfl
@[simp] theorem Dev.setPend_log (t : Nat) (l : List Nat) : (d.setPend t l).log = d.log := rfl
@[simp] theorem Dev.setPend_pwr (t : Nat) (l : List Nat) : (d.setPend t l).pwr = d.pwr := rfl
@[simp] theorem Dev.setPend_host (t : Nat) (l : List Nat) : (d.setPend t l).host = d.host := rfl
@[simp] theorem Dev.setPend_reads (t : Nat) (l : List Nat) : (d.setPend t l).reads = d.reads := rfl
@[simp] theorem Dev.setPend_nextTag (t : Nat) (l : List Nat) : (d.setPend t l).nextTag = d.nextTag := rfl
@[simp] theorem Dev.setPend_dep (t : Nat) (l : List Nat) : (d.setPend t l).dep = d.dep := rfl
@[simp] theorem Dev.setPend_eng (t : Nat) (l : List Nat) : (d.setPend t l).eng = d.eng := rfl
@[simp] theorem Dev.setPend_wq (t : Nat) (l : List Nat) : (d.setPend t l).wq = d.wq := rfl
@[simp] theorem Dev.setPend_xlt (t : Nat) (l : List Nat) : (d.setPend t l).xlt = d.xlt := rfl
@[simp] theorem Dev.setPend_win (t : Nat) (l : List Nat) : (d.setPend t l).win = d.win := rfl
@[simp] theorem Dev.setPend_dma (t : Nat) (l : List Nat) : (d.setPend t l).dma = d.dma := rfl
@[simp] theorem Dev.setPend_rma (t : Nat) (l : List Nat) : (d.setPend t l).rma = d.rma := rfl
@[simp] theorem Dev.setPend_cc (t : Nat) (l : List Nat) : (d.setPend t l).cc = d.cc := rfl
@[simp] theorem Dev.setPend_mtc (t : Nat) (l : List Nat) : (d.setPend t l).mtc = d.mtc := rfl
@[simp] theorem Dev.setPend_col (t : Nat) (l : List Nat) : (d.setPend t l).col = d.col := rfl
@[simp] theorem Dev.setPend_ports (t : Nat) (l : List Nat) : (d.setPend t l).ports = d.ports := rfl
@[simp] theorem Dev.setPend_sch (t : Nat) (l : List Nat) : (d.setPend t l).sch = d.sch := rfl
@[simp] theorem Dev.setPend_rte (t : Nat) (l : List Nat) : (d.setPend t l).rte = d.rte := rfl
@[simp] theorem Dev.setPend_ropes (t : Nat) (l : List Nat) : (d.setPend t l).ropes = d.ropes := rfl
@[simp] theorem Dev.setPend_time (t : Nat) (l : List Nat) : (d.setPend t l).time = d.time := rfl
@[simp] theorem Dev.setPend_bcp (t : Nat) (l : List Nat) : (d.setPend t l).bcp = d.bcp := rfl
@[simp] theorem Dev.setPend_flt (t : Nat) (l : List Nat) : (d.setPend t l).flt = d.flt := rfl
@[simp] theorem Dev.setPend_pmc (t : Nat) (l : List Nat) : (d.setPend t l).pmc = d.pmc := rfl

@[simp] theorem Dev.setAct_regs (t : Nat) (l : List Nat) : (d.setAct t l).regs = d.regs := rfl
@[simp] theorem Dev.setAct_force (t : Nat) (l : List Nat) : (d.setAct t l).force = d.force := rfl
@[simp] theorem Dev.setAct_ps (t : Nat) (l : List Nat) : (d.setAct t l).ps = d.ps := rfl
@[simp] theorem Dev.setAct_ft (t : Nat) (l : List Nat) : (d.setAct t l).ft = d.ft := rfl
@[simp] theorem Dev.setAct_fresh (t : Nat) (l : List Nat) : (d.setAct t l).fresh = d.fresh := rfl
@[simp] theorem Dev.setAct_log (t : Nat) (l : List Nat) : (d.setAct t l).log = d.log := rfl
@[simp] theorem Dev.setAct_pwr (t : Nat) (l : List Nat) : (d.setAct t l).pwr = d.pwr := rfl
@[simp] theorem Dev.setAct_host (t : Nat) (l : List Nat) : (d.setAct t l).host = d.host := rfl
@[simp] theorem Dev.setAct_reads (t : Nat) (l : List Nat) : (d.setAct t l).reads = d.reads := rfl
@[simp] theorem Dev.setAct_nextTag (t : Nat) (l : List Nat) : (d.setAct t l).nextTag = d.nextTag := rfl
@[simp] theorem Dev.setAct_dep (t : Nat) (l : List Nat) : (d.setAct t l).dep = d.dep := rfl
@[simp] theorem Dev.setAct_eng (t : Nat) (l : List Nat) : (d.setAct t l).eng = d.eng := rfl
@[simp] theorem Dev.setAct_wq (t : Nat) (l : List Nat) : (d.setAct t l).wq = d.wq := rfl
@[simp] theorem Dev.setAct_xlt (t : Nat) (l : List Nat) : (d.setAct t l).xlt = d.xlt := rfl
@[simp] theorem Dev.setAct_win (t : Nat) (l : List Nat) : (d.setAct t l).win = d.win := rfl
@[simp] theorem Dev.setAct_dma (t : Nat) (l : List Nat) : (d.setAct t l).dma = d.dma := rfl
@[simp] theorem Dev.setAct_rma (t : Nat) (l : List Nat) : (d.setAct t l).rma = d.rma := rfl
@[simp] theorem Dev.setAct_cc (t : Nat) (l : List Nat) : (d.setAct t l).cc = d.cc := rfl
@[simp] theorem Dev.setAct_mtc (t : Nat) (l : List Nat) : (d.setAct t l).mtc = d.mtc := rfl
@[simp] theorem Dev.setAct_col (t : Nat) (l : List Nat) : (d.setAct t l).col = d.col := rfl
@[simp] theorem Dev.setAct_ports (t : Nat) (l : List Nat) : (d.setAct t l).ports = d.ports := rfl
@[simp] theorem Dev.setAct_sch (t : Nat) (l : List Nat) : (d.setAct t l).sch = d.sch := rfl
@[simp] theorem Dev.setAct_rte (t : Nat) (l : List Nat) : (d.setAct t l).rte = d.rte := rfl
@[simp] theorem Dev.setAct_ropes (t : Nat) (l : List Nat) : (d.setAct t l).ropes = d.ropes := rfl
@[simp] theorem Dev.setAct_time (t : Nat) (l : List Nat) : (d.setAct t l).time = d.time := rfl
@[simp] theorem Dev.setAct_bcp (t : Nat) (l : List Nat) : (d.setAct t l).bcp = d.bcp := rfl
@[simp] theorem Dev.setAct_flt (t : Nat) (l : List Nat) : (d.setAct t l).flt = d.flt := rfl
@[simp] theorem Dev.setAct_pmc (t : Nat) (l : List Nat) : (d.setAct t l).pmc = d.pmc := rfl

@[simp] theorem Dev.setPort_regs (p : Nat) (v : Port) : (d.setPort p v).regs = d.regs := rfl
@[simp] theorem Dev.setPort_force (p : Nat) (v : Port) : (d.setPort p v).force = d.force := rfl
@[simp] theorem Dev.setPort_ps (p : Nat) (v : Port) : (d.setPort p v).ps = d.ps := rfl
@[simp] theorem Dev.setPort_ft (p : Nat) (v : Port) : (d.setPort p v).ft = d.ft := rfl
@[simp] theorem Dev.setPort_fresh (p : Nat) (v : Port) : (d.setPort p v).fresh = d.fresh := rfl
@[simp] theorem Dev.setPort_log (p : Nat) (v : Port) : (d.setPort p v).log = d.log := rfl
@[simp] theorem Dev.setPort_pwr (p : Nat) (v : Port) : (d.setPort p v).pwr = d.pwr := rfl
@[simp] theorem Dev.setPort_host (p : Nat) (v : Port) : (d.setPort p v).host = d.host := rfl
@[simp] theorem Dev.setPort_reads (p : Nat) (v : Port) : (d.setPort p v).reads = d.reads := rfl
@[simp] theorem Dev.setPort_nextTag (p : Nat) (v : Port) : (d.setPort p v).nextTag = d.nextTag := rfl
@[simp] theorem Dev.setPort_int (p : Nat) (v : Port) : (d.setPort p v).int = d.int := rfl
@[simp] theorem Dev.setPort_dep (p : Nat) (v : Port) : (d.setPort p v).dep = d.dep := rfl
@[simp] theorem Dev.setPort_eng (p : Nat) (v : Port) : (d.setPort p v).eng = d.eng := rfl
@[simp] theorem Dev.setPort_wq (p : Nat) (v : Port) : (d.setPort p v).wq = d.wq := rfl
@[simp] theorem Dev.setPort_xlt (p : Nat) (v : Port) : (d.setPort p v).xlt = d.xlt := rfl
@[simp] theorem Dev.setPort_win (p : Nat) (v : Port) : (d.setPort p v).win = d.win := rfl
@[simp] theorem Dev.setPort_dma (p : Nat) (v : Port) : (d.setPort p v).dma = d.dma := rfl
@[simp] theorem Dev.setPort_rma (p : Nat) (v : Port) : (d.setPort p v).rma = d.rma := rfl
@[simp] theorem Dev.setPort_cc (p : Nat) (v : Port) : (d.setPort p v).cc = d.cc := rfl
@[simp] theorem Dev.setPort_mtc (p : Nat) (v : Port) : (d.setPort p v).mtc = d.mtc := rfl
@[simp] theorem Dev.setPort_col (p : Nat) (v : Port) : (d.setPort p v).col = d.col := rfl
@[simp] theorem Dev.setPort_sch (p : Nat) (v : Port) : (d.setPort p v).sch = d.sch := rfl
@[simp] theorem Dev.setPort_rte (p : Nat) (v : Port) : (d.setPort p v).rte = d.rte := rfl
@[simp] theorem Dev.setPort_ropes (p : Nat) (v : Port) : (d.setPort p v).ropes = d.ropes := rfl
@[simp] theorem Dev.setPort_time (p : Nat) (v : Port) : (d.setPort p v).time = d.time := rfl
@[simp] theorem Dev.setPort_bcp (p : Nat) (v : Port) : (d.setPort p v).bcp = d.bcp := rfl
@[simp] theorem Dev.setPort_flt (p : Nat) (v : Port) : (d.setPort p v).flt = d.flt := rfl
@[simp] theorem Dev.setPort_pmc (p : Nat) (v : Port) : (d.setPort p v).pmc = d.pmc := rfl

@[simp] theorem Dev.updPort_regs (p : Nat) (g : Port → Port) : (d.updPort p g).regs = d.regs := rfl
@[simp] theorem Dev.updPort_force (p : Nat) (g : Port → Port) : (d.updPort p g).force = d.force := rfl
@[simp] theorem Dev.updPort_ps (p : Nat) (g : Port → Port) : (d.updPort p g).ps = d.ps := rfl
@[simp] theorem Dev.updPort_ft (p : Nat) (g : Port → Port) : (d.updPort p g).ft = d.ft := rfl
@[simp] theorem Dev.updPort_fresh (p : Nat) (g : Port → Port) : (d.updPort p g).fresh = d.fresh := rfl
@[simp] theorem Dev.updPort_log (p : Nat) (g : Port → Port) : (d.updPort p g).log = d.log := rfl
@[simp] theorem Dev.updPort_pwr (p : Nat) (g : Port → Port) : (d.updPort p g).pwr = d.pwr := rfl
@[simp] theorem Dev.updPort_host (p : Nat) (g : Port → Port) : (d.updPort p g).host = d.host := rfl
@[simp] theorem Dev.updPort_reads (p : Nat) (g : Port → Port) : (d.updPort p g).reads = d.reads := rfl
@[simp] theorem Dev.updPort_nextTag (p : Nat) (g : Port → Port) : (d.updPort p g).nextTag = d.nextTag := rfl
@[simp] theorem Dev.updPort_int (p : Nat) (g : Port → Port) : (d.updPort p g).int = d.int := rfl
@[simp] theorem Dev.updPort_dep (p : Nat) (g : Port → Port) : (d.updPort p g).dep = d.dep := rfl
@[simp] theorem Dev.updPort_eng (p : Nat) (g : Port → Port) : (d.updPort p g).eng = d.eng := rfl
@[simp] theorem Dev.updPort_wq (p : Nat) (g : Port → Port) : (d.updPort p g).wq = d.wq := rfl
@[simp] theorem Dev.updPort_xlt (p : Nat) (g : Port → Port) : (d.updPort p g).xlt = d.xlt := rfl
@[simp] theorem Dev.updPort_win (p : Nat) (g : Port → Port) : (d.updPort p g).win = d.win := rfl
@[simp] theorem Dev.updPort_dma (p : Nat) (g : Port → Port) : (d.updPort p g).dma = d.dma := rfl
@[simp] theorem Dev.updPort_rma (p : Nat) (g : Port → Port) : (d.updPort p g).rma = d.rma := rfl
@[simp] theorem Dev.updPort_cc (p : Nat) (g : Port → Port) : (d.updPort p g).cc = d.cc := rfl
@[simp] theorem Dev.updPort_mtc (p : Nat) (g : Port → Port) : (d.updPort p g).mtc = d.mtc := rfl
@[simp] theorem Dev.updPort_col (p : Nat) (g : Port → Port) : (d.updPort p g).col = d.col := rfl
@[simp] theorem Dev.updPort_sch (p : Nat) (g : Port → Port) : (d.updPort p g).sch = d.sch := rfl
@[simp] theorem Dev.updPort_rte (p : Nat) (g : Port → Port) : (d.updPort p g).rte = d.rte := rfl
@[simp] theorem Dev.updPort_ropes (p : Nat) (g : Port → Port) : (d.updPort p g).ropes = d.ropes := rfl
@[simp] theorem Dev.updPort_time (p : Nat) (g : Port → Port) : (d.updPort p g).time = d.time := rfl
@[simp] theorem Dev.updPort_bcp (p : Nat) (g : Port → Port) : (d.updPort p g).bcp = d.bcp := rfl
@[simp] theorem Dev.updPort_flt (p : Nat) (g : Port → Port) : (d.updPort p g).flt = d.flt := rfl
@[simp] theorem Dev.updPort_pmc (p : Nat) (g : Port → Port) : (d.updPort p g).pmc = d.pmc := rfl

@[simp] theorem Dev.setQueue_regs (q : Nat) (x : Queue) : (d.setQueue q x).regs = d.regs := rfl
@[simp] theorem Dev.setQueue_force (q : Nat) (x : Queue) : (d.setQueue q x).force = d.force := rfl
@[simp] theorem Dev.setQueue_ps (q : Nat) (x : Queue) : (d.setQueue q x).ps = d.ps := rfl
@[simp] theorem Dev.setQueue_ft (q : Nat) (x : Queue) : (d.setQueue q x).ft = d.ft := rfl
@[simp] theorem Dev.setQueue_fresh (q : Nat) (x : Queue) : (d.setQueue q x).fresh = d.fresh := rfl
@[simp] theorem Dev.setQueue_log (q : Nat) (x : Queue) : (d.setQueue q x).log = d.log := rfl
@[simp] theorem Dev.setQueue_pwr (q : Nat) (x : Queue) : (d.setQueue q x).pwr = d.pwr := rfl
@[simp] theorem Dev.setQueue_host (q : Nat) (x : Queue) : (d.setQueue q x).host = d.host := rfl
@[simp] theorem Dev.setQueue_reads (q : Nat) (x : Queue) : (d.setQueue q x).reads = d.reads := rfl
@[simp] theorem Dev.setQueue_nextTag (q : Nat) (x : Queue) : (d.setQueue q x).nextTag = d.nextTag := rfl
@[simp] theorem Dev.setQueue_int (q : Nat) (x : Queue) : (d.setQueue q x).int = d.int := rfl
@[simp] theorem Dev.setQueue_dep (q : Nat) (x : Queue) : (d.setQueue q x).dep = d.dep := rfl
@[simp] theorem Dev.setQueue_eng (q : Nat) (x : Queue) : (d.setQueue q x).eng = d.eng := rfl
@[simp] theorem Dev.setQueue_xlt (q : Nat) (x : Queue) : (d.setQueue q x).xlt = d.xlt := rfl
@[simp] theorem Dev.setQueue_win (q : Nat) (x : Queue) : (d.setQueue q x).win = d.win := rfl
@[simp] theorem Dev.setQueue_dma (q : Nat) (x : Queue) : (d.setQueue q x).dma = d.dma := rfl
@[simp] theorem Dev.setQueue_rma (q : Nat) (x : Queue) : (d.setQueue q x).rma = d.rma := rfl
@[simp] theorem Dev.setQueue_cc (q : Nat) (x : Queue) : (d.setQueue q x).cc = d.cc := rfl
@[simp] theorem Dev.setQueue_mtc (q : Nat) (x : Queue) : (d.setQueue q x).mtc = d.mtc := rfl
@[simp] theorem Dev.setQueue_col (q : Nat) (x : Queue) : (d.setQueue q x).col = d.col := rfl
@[simp] theorem Dev.setQueue_ports (q : Nat) (x : Queue) : (d.setQueue q x).ports = d.ports := rfl
@[simp] theorem Dev.setQueue_sch (q : Nat) (x : Queue) : (d.setQueue q x).sch = d.sch := rfl
@[simp] theorem Dev.setQueue_rte (q : Nat) (x : Queue) : (d.setQueue q x).rte = d.rte := rfl
@[simp] theorem Dev.setQueue_ropes (q : Nat) (x : Queue) : (d.setQueue q x).ropes = d.ropes := rfl
@[simp] theorem Dev.setQueue_time (q : Nat) (x : Queue) : (d.setQueue q x).time = d.time := rfl
@[simp] theorem Dev.setQueue_bcp (q : Nat) (x : Queue) : (d.setQueue q x).bcp = d.bcp := rfl
@[simp] theorem Dev.setQueue_flt (q : Nat) (x : Queue) : (d.setQueue q x).flt = d.flt := rfl
@[simp] theorem Dev.setQueue_pmc (q : Nat) (x : Queue) : (d.setQueue q x).pmc = d.pmc := rfl

@[simp] theorem Dev.updQueue_regs (q : Nat) (g : Queue → Queue) : (d.updQueue q g).regs = d.regs := rfl
@[simp] theorem Dev.updQueue_force (q : Nat) (g : Queue → Queue) : (d.updQueue q g).force = d.force := rfl
@[simp] theorem Dev.updQueue_ps (q : Nat) (g : Queue → Queue) : (d.updQueue q g).ps = d.ps := rfl
@[simp] theorem Dev.updQueue_ft (q : Nat) (g : Queue → Queue) : (d.updQueue q g).ft = d.ft := rfl
@[simp] theorem Dev.updQueue_fresh (q : Nat) (g : Queue → Queue) : (d.updQueue q g).fresh = d.fresh := rfl
@[simp] theorem Dev.updQueue_log (q : Nat) (g : Queue → Queue) : (d.updQueue q g).log = d.log := rfl
@[simp] theorem Dev.updQueue_pwr (q : Nat) (g : Queue → Queue) : (d.updQueue q g).pwr = d.pwr := rfl
@[simp] theorem Dev.updQueue_host (q : Nat) (g : Queue → Queue) : (d.updQueue q g).host = d.host := rfl
@[simp] theorem Dev.updQueue_reads (q : Nat) (g : Queue → Queue) : (d.updQueue q g).reads = d.reads := rfl
@[simp] theorem Dev.updQueue_nextTag (q : Nat) (g : Queue → Queue) : (d.updQueue q g).nextTag = d.nextTag := rfl
@[simp] theorem Dev.updQueue_int (q : Nat) (g : Queue → Queue) : (d.updQueue q g).int = d.int := rfl
@[simp] theorem Dev.updQueue_dep (q : Nat) (g : Queue → Queue) : (d.updQueue q g).dep = d.dep := rfl
@[simp] theorem Dev.updQueue_eng (q : Nat) (g : Queue → Queue) : (d.updQueue q g).eng = d.eng := rfl
@[simp] theorem Dev.updQueue_xlt (q : Nat) (g : Queue → Queue) : (d.updQueue q g).xlt = d.xlt := rfl
@[simp] theorem Dev.updQueue_win (q : Nat) (g : Queue → Queue) : (d.updQueue q g).win = d.win := rfl
@[simp] theorem Dev.updQueue_dma (q : Nat) (g : Queue → Queue) : (d.updQueue q g).dma = d.dma := rfl
@[simp] theorem Dev.updQueue_rma (q : Nat) (g : Queue → Queue) : (d.updQueue q g).rma = d.rma := rfl
@[simp] theorem Dev.updQueue_cc (q : Nat) (g : Queue → Queue) : (d.updQueue q g).cc = d.cc := rfl
@[simp] theorem Dev.updQueue_mtc (q : Nat) (g : Queue → Queue) : (d.updQueue q g).mtc = d.mtc := rfl
@[simp] theorem Dev.updQueue_col (q : Nat) (g : Queue → Queue) : (d.updQueue q g).col = d.col := rfl
@[simp] theorem Dev.updQueue_ports (q : Nat) (g : Queue → Queue) : (d.updQueue q g).ports = d.ports := rfl
@[simp] theorem Dev.updQueue_sch (q : Nat) (g : Queue → Queue) : (d.updQueue q g).sch = d.sch := rfl
@[simp] theorem Dev.updQueue_rte (q : Nat) (g : Queue → Queue) : (d.updQueue q g).rte = d.rte := rfl
@[simp] theorem Dev.updQueue_ropes (q : Nat) (g : Queue → Queue) : (d.updQueue q g).ropes = d.ropes := rfl
@[simp] theorem Dev.updQueue_time (q : Nat) (g : Queue → Queue) : (d.updQueue q g).time = d.time := rfl
@[simp] theorem Dev.updQueue_bcp (q : Nat) (g : Queue → Queue) : (d.updQueue q g).bcp = d.bcp := rfl
@[simp] theorem Dev.updQueue_flt (q : Nat) (g : Queue → Queue) : (d.updQueue q g).flt = d.flt := rfl
@[simp] theorem Dev.updQueue_pmc (q : Nat) (g : Queue → Queue) : (d.updQueue q g).pmc = d.pmc := rfl

@[simp] theorem Dev.updEnt_regs (q s : Nat) (g : Entry → Entry) : (d.updEnt q s g).regs = d.regs := rfl
@[simp] theorem Dev.updEnt_force (q s : Nat) (g : Entry → Entry) : (d.updEnt q s g).force = d.force := rfl
@[simp] theorem Dev.updEnt_ps (q s : Nat) (g : Entry → Entry) : (d.updEnt q s g).ps = d.ps := rfl
@[simp] theorem Dev.updEnt_ft (q s : Nat) (g : Entry → Entry) : (d.updEnt q s g).ft = d.ft := rfl
@[simp] theorem Dev.updEnt_fresh (q s : Nat) (g : Entry → Entry) : (d.updEnt q s g).fresh = d.fresh := rfl
@[simp] theorem Dev.updEnt_log (q s : Nat) (g : Entry → Entry) : (d.updEnt q s g).log = d.log := rfl
@[simp] theorem Dev.updEnt_pwr (q s : Nat) (g : Entry → Entry) : (d.updEnt q s g).pwr = d.pwr := rfl
@[simp] theorem Dev.updEnt_host (q s : Nat) (g : Entry → Entry) : (d.updEnt q s g).host = d.host := rfl
@[simp] theorem Dev.updEnt_reads (q s : Nat) (g : Entry → Entry) : (d.updEnt q s g).reads = d.reads := rfl
@[simp] theorem Dev.updEnt_nextTag (q s : Nat) (g : Entry → Entry) : (d.updEnt q s g).nextTag = d.nextTag := rfl
@[simp] theorem Dev.updEnt_int (q s : Nat) (g : Entry → Entry) : (d.updEnt q s g).int = d.int := rfl
@[simp] theorem Dev.updEnt_dep (q s : Nat) (g : Entry → Entry) : (d.updEnt q s g).dep = d.dep := rfl
@[simp] theorem Dev.updEnt_eng (q s : Nat) (g : Entry → Entry) : (d.updEnt q s g).eng = d.eng := rfl
@[simp] theorem Dev.updEnt_xlt (q s : Nat) (g : Entry → Entry) : (d.updEnt q s g).xlt = d.xlt := rfl
@[simp] theorem Dev.updEnt_win (q s : Nat) (g : Entry → Entry) : (d.updEnt q s g).win = d.win := rfl
@[simp] theorem Dev.updEnt_dma (q s : Nat) (g : Entry → Entry) : (d.updEnt q s g).dma = d.dma := rfl
@[simp] theorem Dev.updEnt_rma (q s : Nat) (g : Entry → Entry) : (d.updEnt q s g).rma = d.rma := rfl
@[simp] theorem Dev.updEnt_cc (q s : Nat) (g : Entry → Entry) : (d.updEnt q s g).cc = d.cc := rfl
@[simp] theorem Dev.updEnt_mtc (q s : Nat) (g : Entry → Entry) : (d.updEnt q s g).mtc = d.mtc := rfl
@[simp] theorem Dev.updEnt_col (q s : Nat) (g : Entry → Entry) : (d.updEnt q s g).col = d.col := rfl
@[simp] theorem Dev.updEnt_ports (q s : Nat) (g : Entry → Entry) : (d.updEnt q s g).ports = d.ports := rfl
@[simp] theorem Dev.updEnt_sch (q s : Nat) (g : Entry → Entry) : (d.updEnt q s g).sch = d.sch := rfl
@[simp] theorem Dev.updEnt_rte (q s : Nat) (g : Entry → Entry) : (d.updEnt q s g).rte = d.rte := rfl
@[simp] theorem Dev.updEnt_ropes (q s : Nat) (g : Entry → Entry) : (d.updEnt q s g).ropes = d.ropes := rfl
@[simp] theorem Dev.updEnt_time (q s : Nat) (g : Entry → Entry) : (d.updEnt q s g).time = d.time := rfl
@[simp] theorem Dev.updEnt_bcp (q s : Nat) (g : Entry → Entry) : (d.updEnt q s g).bcp = d.bcp := rfl
@[simp] theorem Dev.updEnt_flt (q s : Nat) (g : Entry → Entry) : (d.updEnt q s g).flt = d.flt := rfl
@[simp] theorem Dev.updEnt_pmc (q s : Nat) (g : Entry → Entry) : (d.updEnt q s g).pmc = d.pmc := rfl

@[simp] theorem Dev.setWin_regs (i : Nat) (w : Win) : (d.setWin i w).regs = d.regs := rfl
@[simp] theorem Dev.setWin_force (i : Nat) (w : Win) : (d.setWin i w).force = d.force := rfl
@[simp] theorem Dev.setWin_ps (i : Nat) (w : Win) : (d.setWin i w).ps = d.ps := rfl
@[simp] theorem Dev.setWin_ft (i : Nat) (w : Win) : (d.setWin i w).ft = d.ft := rfl
@[simp] theorem Dev.setWin_fresh (i : Nat) (w : Win) : (d.setWin i w).fresh = d.fresh := rfl
@[simp] theorem Dev.setWin_log (i : Nat) (w : Win) : (d.setWin i w).log = d.log := rfl
@[simp] theorem Dev.setWin_pwr (i : Nat) (w : Win) : (d.setWin i w).pwr = d.pwr := rfl
@[simp] theorem Dev.setWin_host (i : Nat) (w : Win) : (d.setWin i w).host = d.host := rfl
@[simp] theorem Dev.setWin_reads (i : Nat) (w : Win) : (d.setWin i w).reads = d.reads := rfl
@[simp] theorem Dev.setWin_nextTag (i : Nat) (w : Win) : (d.setWin i w).nextTag = d.nextTag := rfl
@[simp] theorem Dev.setWin_int (i : Nat) (w : Win) : (d.setWin i w).int = d.int := rfl
@[simp] theorem Dev.setWin_dep (i : Nat) (w : Win) : (d.setWin i w).dep = d.dep := rfl
@[simp] theorem Dev.setWin_eng (i : Nat) (w : Win) : (d.setWin i w).eng = d.eng := rfl
@[simp] theorem Dev.setWin_wq (i : Nat) (w : Win) : (d.setWin i w).wq = d.wq := rfl
@[simp] theorem Dev.setWin_xlt (i : Nat) (w : Win) : (d.setWin i w).xlt = d.xlt := rfl
@[simp] theorem Dev.setWin_dma (i : Nat) (w : Win) : (d.setWin i w).dma = d.dma := rfl
@[simp] theorem Dev.setWin_rma (i : Nat) (w : Win) : (d.setWin i w).rma = d.rma := rfl
@[simp] theorem Dev.setWin_cc (i : Nat) (w : Win) : (d.setWin i w).cc = d.cc := rfl
@[simp] theorem Dev.setWin_mtc (i : Nat) (w : Win) : (d.setWin i w).mtc = d.mtc := rfl
@[simp] theorem Dev.setWin_col (i : Nat) (w : Win) : (d.setWin i w).col = d.col := rfl
@[simp] theorem Dev.setWin_ports (i : Nat) (w : Win) : (d.setWin i w).ports = d.ports := rfl
@[simp] theorem Dev.setWin_sch (i : Nat) (w : Win) : (d.setWin i w).sch = d.sch := rfl
@[simp] theorem Dev.setWin_rte (i : Nat) (w : Win) : (d.setWin i w).rte = d.rte := rfl
@[simp] theorem Dev.setWin_ropes (i : Nat) (w : Win) : (d.setWin i w).ropes = d.ropes := rfl
@[simp] theorem Dev.setWin_time (i : Nat) (w : Win) : (d.setWin i w).time = d.time := rfl
@[simp] theorem Dev.setWin_bcp (i : Nat) (w : Win) : (d.setWin i w).bcp = d.bcp := rfl
@[simp] theorem Dev.setWin_flt (i : Nat) (w : Win) : (d.setWin i w).flt = d.flt := rfl
@[simp] theorem Dev.setWin_pmc (i : Nat) (w : Win) : (d.setWin i w).pmc = d.pmc := rfl

@[simp] theorem Dev.setRevokes_regs (f : Nat) (l : List Revoke) : (d.setRevokes f l).regs = d.regs := rfl
@[simp] theorem Dev.setRevokes_force (f : Nat) (l : List Revoke) : (d.setRevokes f l).force = d.force := rfl
@[simp] theorem Dev.setRevokes_ps (f : Nat) (l : List Revoke) : (d.setRevokes f l).ps = d.ps := rfl
@[simp] theorem Dev.setRevokes_ft (f : Nat) (l : List Revoke) : (d.setRevokes f l).ft = d.ft := rfl
@[simp] theorem Dev.setRevokes_fresh (f : Nat) (l : List Revoke) : (d.setRevokes f l).fresh = d.fresh := rfl
@[simp] theorem Dev.setRevokes_log (f : Nat) (l : List Revoke) : (d.setRevokes f l).log = d.log := rfl
@[simp] theorem Dev.setRevokes_pwr (f : Nat) (l : List Revoke) : (d.setRevokes f l).pwr = d.pwr := rfl
@[simp] theorem Dev.setRevokes_host (f : Nat) (l : List Revoke) : (d.setRevokes f l).host = d.host := rfl
@[simp] theorem Dev.setRevokes_reads (f : Nat) (l : List Revoke) : (d.setRevokes f l).reads = d.reads := rfl
@[simp] theorem Dev.setRevokes_nextTag (f : Nat) (l : List Revoke) : (d.setRevokes f l).nextTag = d.nextTag := rfl
@[simp] theorem Dev.setRevokes_int (f : Nat) (l : List Revoke) : (d.setRevokes f l).int = d.int := rfl
@[simp] theorem Dev.setRevokes_dep (f : Nat) (l : List Revoke) : (d.setRevokes f l).dep = d.dep := rfl
@[simp] theorem Dev.setRevokes_eng (f : Nat) (l : List Revoke) : (d.setRevokes f l).eng = d.eng := rfl
@[simp] theorem Dev.setRevokes_wq (f : Nat) (l : List Revoke) : (d.setRevokes f l).wq = d.wq := rfl
@[simp] theorem Dev.setRevokes_xlt (f : Nat) (l : List Revoke) : (d.setRevokes f l).xlt = d.xlt := rfl
@[simp] theorem Dev.setRevokes_dma (f : Nat) (l : List Revoke) : (d.setRevokes f l).dma = d.dma := rfl
@[simp] theorem Dev.setRevokes_rma (f : Nat) (l : List Revoke) : (d.setRevokes f l).rma = d.rma := rfl
@[simp] theorem Dev.setRevokes_cc (f : Nat) (l : List Revoke) : (d.setRevokes f l).cc = d.cc := rfl
@[simp] theorem Dev.setRevokes_mtc (f : Nat) (l : List Revoke) : (d.setRevokes f l).mtc = d.mtc := rfl
@[simp] theorem Dev.setRevokes_col (f : Nat) (l : List Revoke) : (d.setRevokes f l).col = d.col := rfl
@[simp] theorem Dev.setRevokes_ports (f : Nat) (l : List Revoke) : (d.setRevokes f l).ports = d.ports := rfl
@[simp] theorem Dev.setRevokes_sch (f : Nat) (l : List Revoke) : (d.setRevokes f l).sch = d.sch := rfl
@[simp] theorem Dev.setRevokes_rte (f : Nat) (l : List Revoke) : (d.setRevokes f l).rte = d.rte := rfl
@[simp] theorem Dev.setRevokes_ropes (f : Nat) (l : List Revoke) : (d.setRevokes f l).ropes = d.ropes := rfl
@[simp] theorem Dev.setRevokes_time (f : Nat) (l : List Revoke) : (d.setRevokes f l).time = d.time := rfl
@[simp] theorem Dev.setRevokes_bcp (f : Nat) (l : List Revoke) : (d.setRevokes f l).bcp = d.bcp := rfl
@[simp] theorem Dev.setRevokes_flt (f : Nat) (l : List Revoke) : (d.setRevokes f l).flt = d.flt := rfl
@[simp] theorem Dev.setRevokes_pmc (f : Nat) (l : List Revoke) : (d.setRevokes f l).pmc = d.pmc := rfl

@[simp] theorem Dev.setInvals_regs (p : Nat) (l : List Inval) : (d.setInvals p l).regs = d.regs := rfl
@[simp] theorem Dev.setInvals_force (p : Nat) (l : List Inval) : (d.setInvals p l).force = d.force := rfl
@[simp] theorem Dev.setInvals_ps (p : Nat) (l : List Inval) : (d.setInvals p l).ps = d.ps := rfl
@[simp] theorem Dev.setInvals_ft (p : Nat) (l : List Inval) : (d.setInvals p l).ft = d.ft := rfl
@[simp] theorem Dev.setInvals_fresh (p : Nat) (l : List Inval) : (d.setInvals p l).fresh = d.fresh := rfl
@[simp] theorem Dev.setInvals_log (p : Nat) (l : List Inval) : (d.setInvals p l).log = d.log := rfl
@[simp] theorem Dev.setInvals_pwr (p : Nat) (l : List Inval) : (d.setInvals p l).pwr = d.pwr := rfl
@[simp] theorem Dev.setInvals_host (p : Nat) (l : List Inval) : (d.setInvals p l).host = d.host := rfl
@[simp] theorem Dev.setInvals_reads (p : Nat) (l : List Inval) : (d.setInvals p l).reads = d.reads := rfl
@[simp] theorem Dev.setInvals_nextTag (p : Nat) (l : List Inval) : (d.setInvals p l).nextTag = d.nextTag := rfl
@[simp] theorem Dev.setInvals_int (p : Nat) (l : List Inval) : (d.setInvals p l).int = d.int := rfl
@[simp] theorem Dev.setInvals_dep (p : Nat) (l : List Inval) : (d.setInvals p l).dep = d.dep := rfl
@[simp] theorem Dev.setInvals_eng (p : Nat) (l : List Inval) : (d.setInvals p l).eng = d.eng := rfl
@[simp] theorem Dev.setInvals_wq (p : Nat) (l : List Inval) : (d.setInvals p l).wq = d.wq := rfl
@[simp] theorem Dev.setInvals_win (p : Nat) (l : List Inval) : (d.setInvals p l).win = d.win := rfl
@[simp] theorem Dev.setInvals_dma (p : Nat) (l : List Inval) : (d.setInvals p l).dma = d.dma := rfl
@[simp] theorem Dev.setInvals_rma (p : Nat) (l : List Inval) : (d.setInvals p l).rma = d.rma := rfl
@[simp] theorem Dev.setInvals_cc (p : Nat) (l : List Inval) : (d.setInvals p l).cc = d.cc := rfl
@[simp] theorem Dev.setInvals_mtc (p : Nat) (l : List Inval) : (d.setInvals p l).mtc = d.mtc := rfl
@[simp] theorem Dev.setInvals_col (p : Nat) (l : List Inval) : (d.setInvals p l).col = d.col := rfl
@[simp] theorem Dev.setInvals_ports (p : Nat) (l : List Inval) : (d.setInvals p l).ports = d.ports := rfl
@[simp] theorem Dev.setInvals_sch (p : Nat) (l : List Inval) : (d.setInvals p l).sch = d.sch := rfl
@[simp] theorem Dev.setInvals_rte (p : Nat) (l : List Inval) : (d.setInvals p l).rte = d.rte := rfl
@[simp] theorem Dev.setInvals_ropes (p : Nat) (l : List Inval) : (d.setInvals p l).ropes = d.ropes := rfl
@[simp] theorem Dev.setInvals_time (p : Nat) (l : List Inval) : (d.setInvals p l).time = d.time := rfl
@[simp] theorem Dev.setInvals_bcp (p : Nat) (l : List Inval) : (d.setInvals p l).bcp = d.bcp := rfl
@[simp] theorem Dev.setInvals_flt (p : Nat) (l : List Inval) : (d.setInvals p l).flt = d.flt := rfl
@[simp] theorem Dev.setInvals_pmc (p : Nat) (l : List Inval) : (d.setInvals p l).pmc = d.pmc := rfl

@[simp] theorem Dev.putSlot_regs (i : Nat) (s : Slot) : (d.putSlot i s).regs = d.regs := rfl
@[simp] theorem Dev.putSlot_force (i : Nat) (s : Slot) : (d.putSlot i s).force = d.force := rfl
@[simp] theorem Dev.putSlot_ps (i : Nat) (s : Slot) : (d.putSlot i s).ps = d.ps := rfl
@[simp] theorem Dev.putSlot_ft (i : Nat) (s : Slot) : (d.putSlot i s).ft = d.ft := rfl
@[simp] theorem Dev.putSlot_fresh (i : Nat) (s : Slot) : (d.putSlot i s).fresh = d.fresh := rfl
@[simp] theorem Dev.putSlot_log (i : Nat) (s : Slot) : (d.putSlot i s).log = d.log := rfl
@[simp] theorem Dev.putSlot_pwr (i : Nat) (s : Slot) : (d.putSlot i s).pwr = d.pwr := rfl
@[simp] theorem Dev.putSlot_host (i : Nat) (s : Slot) : (d.putSlot i s).host = d.host := rfl
@[simp] theorem Dev.putSlot_reads (i : Nat) (s : Slot) : (d.putSlot i s).reads = d.reads := rfl
@[simp] theorem Dev.putSlot_nextTag (i : Nat) (s : Slot) : (d.putSlot i s).nextTag = d.nextTag := rfl
@[simp] theorem Dev.putSlot_int (i : Nat) (s : Slot) : (d.putSlot i s).int = d.int := rfl
@[simp] theorem Dev.putSlot_dep (i : Nat) (s : Slot) : (d.putSlot i s).dep = d.dep := rfl
@[simp] theorem Dev.putSlot_eng (i : Nat) (s : Slot) : (d.putSlot i s).eng = d.eng := rfl
@[simp] theorem Dev.putSlot_wq (i : Nat) (s : Slot) : (d.putSlot i s).wq = d.wq := rfl
@[simp] theorem Dev.putSlot_xlt (i : Nat) (s : Slot) : (d.putSlot i s).xlt = d.xlt := rfl
@[simp] theorem Dev.putSlot_win (i : Nat) (s : Slot) : (d.putSlot i s).win = d.win := rfl
@[simp] theorem Dev.putSlot_dma (i : Nat) (s : Slot) : (d.putSlot i s).dma = d.dma := rfl
@[simp] theorem Dev.putSlot_cc (i : Nat) (s : Slot) : (d.putSlot i s).cc = d.cc := rfl
@[simp] theorem Dev.putSlot_mtc (i : Nat) (s : Slot) : (d.putSlot i s).mtc = d.mtc := rfl
@[simp] theorem Dev.putSlot_col (i : Nat) (s : Slot) : (d.putSlot i s).col = d.col := rfl
@[simp] theorem Dev.putSlot_ports (i : Nat) (s : Slot) : (d.putSlot i s).ports = d.ports := rfl
@[simp] theorem Dev.putSlot_sch (i : Nat) (s : Slot) : (d.putSlot i s).sch = d.sch := rfl
@[simp] theorem Dev.putSlot_rte (i : Nat) (s : Slot) : (d.putSlot i s).rte = d.rte := rfl
@[simp] theorem Dev.putSlot_ropes (i : Nat) (s : Slot) : (d.putSlot i s).ropes = d.ropes := rfl
@[simp] theorem Dev.putSlot_time (i : Nat) (s : Slot) : (d.putSlot i s).time = d.time := rfl
@[simp] theorem Dev.putSlot_bcp (i : Nat) (s : Slot) : (d.putSlot i s).bcp = d.bcp := rfl
@[simp] theorem Dev.putSlot_flt (i : Nat) (s : Slot) : (d.putSlot i s).flt = d.flt := rfl
@[simp] theorem Dev.putSlot_pmc (i : Nat) (s : Slot) : (d.putSlot i s).pmc = d.pmc := rfl

@[simp] theorem Dev.updSlot_regs (i : Nat) (g : Slot → Slot) : (d.updSlot i g).regs = d.regs := rfl
@[simp] theorem Dev.updSlot_force (i : Nat) (g : Slot → Slot) : (d.updSlot i g).force = d.force := rfl
@[simp] theorem Dev.updSlot_ps (i : Nat) (g : Slot → Slot) : (d.updSlot i g).ps = d.ps := rfl
@[simp] theorem Dev.updSlot_ft (i : Nat) (g : Slot → Slot) : (d.updSlot i g).ft = d.ft := rfl
@[simp] theorem Dev.updSlot_fresh (i : Nat) (g : Slot → Slot) : (d.updSlot i g).fresh = d.fresh := rfl
@[simp] theorem Dev.updSlot_log (i : Nat) (g : Slot → Slot) : (d.updSlot i g).log = d.log := rfl
@[simp] theorem Dev.updSlot_pwr (i : Nat) (g : Slot → Slot) : (d.updSlot i g).pwr = d.pwr := rfl
@[simp] theorem Dev.updSlot_host (i : Nat) (g : Slot → Slot) : (d.updSlot i g).host = d.host := rfl
@[simp] theorem Dev.updSlot_reads (i : Nat) (g : Slot → Slot) : (d.updSlot i g).reads = d.reads := rfl
@[simp] theorem Dev.updSlot_nextTag (i : Nat) (g : Slot → Slot) : (d.updSlot i g).nextTag = d.nextTag := rfl
@[simp] theorem Dev.updSlot_int (i : Nat) (g : Slot → Slot) : (d.updSlot i g).int = d.int := rfl
@[simp] theorem Dev.updSlot_dep (i : Nat) (g : Slot → Slot) : (d.updSlot i g).dep = d.dep := rfl
@[simp] theorem Dev.updSlot_eng (i : Nat) (g : Slot → Slot) : (d.updSlot i g).eng = d.eng := rfl
@[simp] theorem Dev.updSlot_wq (i : Nat) (g : Slot → Slot) : (d.updSlot i g).wq = d.wq := rfl
@[simp] theorem Dev.updSlot_xlt (i : Nat) (g : Slot → Slot) : (d.updSlot i g).xlt = d.xlt := rfl
@[simp] theorem Dev.updSlot_win (i : Nat) (g : Slot → Slot) : (d.updSlot i g).win = d.win := rfl
@[simp] theorem Dev.updSlot_dma (i : Nat) (g : Slot → Slot) : (d.updSlot i g).dma = d.dma := rfl
@[simp] theorem Dev.updSlot_cc (i : Nat) (g : Slot → Slot) : (d.updSlot i g).cc = d.cc := rfl
@[simp] theorem Dev.updSlot_mtc (i : Nat) (g : Slot → Slot) : (d.updSlot i g).mtc = d.mtc := rfl
@[simp] theorem Dev.updSlot_col (i : Nat) (g : Slot → Slot) : (d.updSlot i g).col = d.col := rfl
@[simp] theorem Dev.updSlot_ports (i : Nat) (g : Slot → Slot) : (d.updSlot i g).ports = d.ports := rfl
@[simp] theorem Dev.updSlot_sch (i : Nat) (g : Slot → Slot) : (d.updSlot i g).sch = d.sch := rfl
@[simp] theorem Dev.updSlot_rte (i : Nat) (g : Slot → Slot) : (d.updSlot i g).rte = d.rte := rfl
@[simp] theorem Dev.updSlot_ropes (i : Nat) (g : Slot → Slot) : (d.updSlot i g).ropes = d.ropes := rfl
@[simp] theorem Dev.updSlot_time (i : Nat) (g : Slot → Slot) : (d.updSlot i g).time = d.time := rfl
@[simp] theorem Dev.updSlot_bcp (i : Nat) (g : Slot → Slot) : (d.updSlot i g).bcp = d.bcp := rfl
@[simp] theorem Dev.updSlot_flt (i : Nat) (g : Slot → Slot) : (d.updSlot i g).flt = d.flt := rfl
@[simp] theorem Dev.updSlot_pmc (i : Nat) (g : Slot → Slot) : (d.updSlot i g).pmc = d.pmc := rfl

@[simp] theorem Dev.updMsg_regs (n : Nat) (g : Msg → Msg) : (d.updMsg n g).regs = d.regs := rfl
@[simp] theorem Dev.updMsg_force (n : Nat) (g : Msg → Msg) : (d.updMsg n g).force = d.force := rfl
@[simp] theorem Dev.updMsg_ps (n : Nat) (g : Msg → Msg) : (d.updMsg n g).ps = d.ps := rfl
@[simp] theorem Dev.updMsg_ft (n : Nat) (g : Msg → Msg) : (d.updMsg n g).ft = d.ft := rfl
@[simp] theorem Dev.updMsg_fresh (n : Nat) (g : Msg → Msg) : (d.updMsg n g).fresh = d.fresh := rfl
@[simp] theorem Dev.updMsg_log (n : Nat) (g : Msg → Msg) : (d.updMsg n g).log = d.log := rfl
@[simp] theorem Dev.updMsg_pwr (n : Nat) (g : Msg → Msg) : (d.updMsg n g).pwr = d.pwr := rfl
@[simp] theorem Dev.updMsg_host (n : Nat) (g : Msg → Msg) : (d.updMsg n g).host = d.host := rfl
@[simp] theorem Dev.updMsg_reads (n : Nat) (g : Msg → Msg) : (d.updMsg n g).reads = d.reads := rfl
@[simp] theorem Dev.updMsg_nextTag (n : Nat) (g : Msg → Msg) : (d.updMsg n g).nextTag = d.nextTag := rfl
@[simp] theorem Dev.updMsg_int (n : Nat) (g : Msg → Msg) : (d.updMsg n g).int = d.int := rfl
@[simp] theorem Dev.updMsg_dep (n : Nat) (g : Msg → Msg) : (d.updMsg n g).dep = d.dep := rfl
@[simp] theorem Dev.updMsg_eng (n : Nat) (g : Msg → Msg) : (d.updMsg n g).eng = d.eng := rfl
@[simp] theorem Dev.updMsg_wq (n : Nat) (g : Msg → Msg) : (d.updMsg n g).wq = d.wq := rfl
@[simp] theorem Dev.updMsg_xlt (n : Nat) (g : Msg → Msg) : (d.updMsg n g).xlt = d.xlt := rfl
@[simp] theorem Dev.updMsg_win (n : Nat) (g : Msg → Msg) : (d.updMsg n g).win = d.win := rfl
@[simp] theorem Dev.updMsg_dma (n : Nat) (g : Msg → Msg) : (d.updMsg n g).dma = d.dma := rfl
@[simp] theorem Dev.updMsg_cc (n : Nat) (g : Msg → Msg) : (d.updMsg n g).cc = d.cc := rfl
@[simp] theorem Dev.updMsg_mtc (n : Nat) (g : Msg → Msg) : (d.updMsg n g).mtc = d.mtc := rfl
@[simp] theorem Dev.updMsg_col (n : Nat) (g : Msg → Msg) : (d.updMsg n g).col = d.col := rfl
@[simp] theorem Dev.updMsg_ports (n : Nat) (g : Msg → Msg) : (d.updMsg n g).ports = d.ports := rfl
@[simp] theorem Dev.updMsg_sch (n : Nat) (g : Msg → Msg) : (d.updMsg n g).sch = d.sch := rfl
@[simp] theorem Dev.updMsg_rte (n : Nat) (g : Msg → Msg) : (d.updMsg n g).rte = d.rte := rfl
@[simp] theorem Dev.updMsg_ropes (n : Nat) (g : Msg → Msg) : (d.updMsg n g).ropes = d.ropes := rfl
@[simp] theorem Dev.updMsg_time (n : Nat) (g : Msg → Msg) : (d.updMsg n g).time = d.time := rfl
@[simp] theorem Dev.updMsg_bcp (n : Nat) (g : Msg → Msg) : (d.updMsg n g).bcp = d.bcp := rfl
@[simp] theorem Dev.updMsg_flt (n : Nat) (g : Msg → Msg) : (d.updMsg n g).flt = d.flt := rfl
@[simp] theorem Dev.updMsg_pmc (n : Nat) (g : Msg → Msg) : (d.updMsg n g).pmc = d.pmc := rfl

@[simp] theorem Dev.putRx_regs (k : Nat) (x : Rx) : (d.putRx k x).regs = d.regs := rfl
@[simp] theorem Dev.putRx_force (k : Nat) (x : Rx) : (d.putRx k x).force = d.force := rfl
@[simp] theorem Dev.putRx_ps (k : Nat) (x : Rx) : (d.putRx k x).ps = d.ps := rfl
@[simp] theorem Dev.putRx_ft (k : Nat) (x : Rx) : (d.putRx k x).ft = d.ft := rfl
@[simp] theorem Dev.putRx_fresh (k : Nat) (x : Rx) : (d.putRx k x).fresh = d.fresh := rfl
@[simp] theorem Dev.putRx_log (k : Nat) (x : Rx) : (d.putRx k x).log = d.log := rfl
@[simp] theorem Dev.putRx_pwr (k : Nat) (x : Rx) : (d.putRx k x).pwr = d.pwr := rfl
@[simp] theorem Dev.putRx_host (k : Nat) (x : Rx) : (d.putRx k x).host = d.host := rfl
@[simp] theorem Dev.putRx_reads (k : Nat) (x : Rx) : (d.putRx k x).reads = d.reads := rfl
@[simp] theorem Dev.putRx_nextTag (k : Nat) (x : Rx) : (d.putRx k x).nextTag = d.nextTag := rfl
@[simp] theorem Dev.putRx_int (k : Nat) (x : Rx) : (d.putRx k x).int = d.int := rfl
@[simp] theorem Dev.putRx_dep (k : Nat) (x : Rx) : (d.putRx k x).dep = d.dep := rfl
@[simp] theorem Dev.putRx_eng (k : Nat) (x : Rx) : (d.putRx k x).eng = d.eng := rfl
@[simp] theorem Dev.putRx_wq (k : Nat) (x : Rx) : (d.putRx k x).wq = d.wq := rfl
@[simp] theorem Dev.putRx_xlt (k : Nat) (x : Rx) : (d.putRx k x).xlt = d.xlt := rfl
@[simp] theorem Dev.putRx_win (k : Nat) (x : Rx) : (d.putRx k x).win = d.win := rfl
@[simp] theorem Dev.putRx_dma (k : Nat) (x : Rx) : (d.putRx k x).dma = d.dma := rfl
@[simp] theorem Dev.putRx_cc (k : Nat) (x : Rx) : (d.putRx k x).cc = d.cc := rfl
@[simp] theorem Dev.putRx_mtc (k : Nat) (x : Rx) : (d.putRx k x).mtc = d.mtc := rfl
@[simp] theorem Dev.putRx_col (k : Nat) (x : Rx) : (d.putRx k x).col = d.col := rfl
@[simp] theorem Dev.putRx_ports (k : Nat) (x : Rx) : (d.putRx k x).ports = d.ports := rfl
@[simp] theorem Dev.putRx_sch (k : Nat) (x : Rx) : (d.putRx k x).sch = d.sch := rfl
@[simp] theorem Dev.putRx_rte (k : Nat) (x : Rx) : (d.putRx k x).rte = d.rte := rfl
@[simp] theorem Dev.putRx_ropes (k : Nat) (x : Rx) : (d.putRx k x).ropes = d.ropes := rfl
@[simp] theorem Dev.putRx_time (k : Nat) (x : Rx) : (d.putRx k x).time = d.time := rfl
@[simp] theorem Dev.putRx_bcp (k : Nat) (x : Rx) : (d.putRx k x).bcp = d.bcp := rfl
@[simp] theorem Dev.putRx_flt (k : Nat) (x : Rx) : (d.putRx k x).flt = d.flt := rfl
@[simp] theorem Dev.putRx_pmc (k : Nat) (x : Rx) : (d.putRx k x).pmc = d.pmc := rfl

@[simp] theorem Dev.updRx_regs (k : Nat) (g : Rx → Rx) : (d.updRx k g).regs = d.regs := rfl
@[simp] theorem Dev.updRx_force (k : Nat) (g : Rx → Rx) : (d.updRx k g).force = d.force := rfl
@[simp] theorem Dev.updRx_ps (k : Nat) (g : Rx → Rx) : (d.updRx k g).ps = d.ps := rfl
@[simp] theorem Dev.updRx_ft (k : Nat) (g : Rx → Rx) : (d.updRx k g).ft = d.ft := rfl
@[simp] theorem Dev.updRx_fresh (k : Nat) (g : Rx → Rx) : (d.updRx k g).fresh = d.fresh := rfl
@[simp] theorem Dev.updRx_log (k : Nat) (g : Rx → Rx) : (d.updRx k g).log = d.log := rfl
@[simp] theorem Dev.updRx_pwr (k : Nat) (g : Rx → Rx) : (d.updRx k g).pwr = d.pwr := rfl
@[simp] theorem Dev.updRx_host (k : Nat) (g : Rx → Rx) : (d.updRx k g).host = d.host := rfl
@[simp] theorem Dev.updRx_reads (k : Nat) (g : Rx → Rx) : (d.updRx k g).reads = d.reads := rfl
@[simp] theorem Dev.updRx_nextTag (k : Nat) (g : Rx → Rx) : (d.updRx k g).nextTag = d.nextTag := rfl
@[simp] theorem Dev.updRx_int (k : Nat) (g : Rx → Rx) : (d.updRx k g).int = d.int := rfl
@[simp] theorem Dev.updRx_dep (k : Nat) (g : Rx → Rx) : (d.updRx k g).dep = d.dep := rfl
@[simp] theorem Dev.updRx_eng (k : Nat) (g : Rx → Rx) : (d.updRx k g).eng = d.eng := rfl
@[simp] theorem Dev.updRx_wq (k : Nat) (g : Rx → Rx) : (d.updRx k g).wq = d.wq := rfl
@[simp] theorem Dev.updRx_xlt (k : Nat) (g : Rx → Rx) : (d.updRx k g).xlt = d.xlt := rfl
@[simp] theorem Dev.updRx_win (k : Nat) (g : Rx → Rx) : (d.updRx k g).win = d.win := rfl
@[simp] theorem Dev.updRx_dma (k : Nat) (g : Rx → Rx) : (d.updRx k g).dma = d.dma := rfl
@[simp] theorem Dev.updRx_cc (k : Nat) (g : Rx → Rx) : (d.updRx k g).cc = d.cc := rfl
@[simp] theorem Dev.updRx_mtc (k : Nat) (g : Rx → Rx) : (d.updRx k g).mtc = d.mtc := rfl
@[simp] theorem Dev.updRx_col (k : Nat) (g : Rx → Rx) : (d.updRx k g).col = d.col := rfl
@[simp] theorem Dev.updRx_ports (k : Nat) (g : Rx → Rx) : (d.updRx k g).ports = d.ports := rfl
@[simp] theorem Dev.updRx_sch (k : Nat) (g : Rx → Rx) : (d.updRx k g).sch = d.sch := rfl
@[simp] theorem Dev.updRx_rte (k : Nat) (g : Rx → Rx) : (d.updRx k g).rte = d.rte := rfl
@[simp] theorem Dev.updRx_ropes (k : Nat) (g : Rx → Rx) : (d.updRx k g).ropes = d.ropes := rfl
@[simp] theorem Dev.updRx_time (k : Nat) (g : Rx → Rx) : (d.updRx k g).time = d.time := rfl
@[simp] theorem Dev.updRx_bcp (k : Nat) (g : Rx → Rx) : (d.updRx k g).bcp = d.bcp := rfl
@[simp] theorem Dev.updRx_flt (k : Nat) (g : Rx → Rx) : (d.updRx k g).flt = d.flt := rfl
@[simp] theorem Dev.updRx_pmc (k : Nat) (g : Rx → Rx) : (d.updRx k g).pmc = d.pmc := rfl

@[simp] theorem Dev.setDom_regs (f : Nat) (x : Dom) : (d.setDom f x).regs = d.regs := rfl
@[simp] theorem Dev.setDom_force (f : Nat) (x : Dom) : (d.setDom f x).force = d.force := rfl
@[simp] theorem Dev.setDom_ps (f : Nat) (x : Dom) : (d.setDom f x).ps = d.ps := rfl
@[simp] theorem Dev.setDom_ft (f : Nat) (x : Dom) : (d.setDom f x).ft = d.ft := rfl
@[simp] theorem Dev.setDom_fresh (f : Nat) (x : Dom) : (d.setDom f x).fresh = d.fresh := rfl
@[simp] theorem Dev.setDom_log (f : Nat) (x : Dom) : (d.setDom f x).log = d.log := rfl
@[simp] theorem Dev.setDom_pwr (f : Nat) (x : Dom) : (d.setDom f x).pwr = d.pwr := rfl
@[simp] theorem Dev.setDom_host (f : Nat) (x : Dom) : (d.setDom f x).host = d.host := rfl
@[simp] theorem Dev.setDom_reads (f : Nat) (x : Dom) : (d.setDom f x).reads = d.reads := rfl
@[simp] theorem Dev.setDom_nextTag (f : Nat) (x : Dom) : (d.setDom f x).nextTag = d.nextTag := rfl
@[simp] theorem Dev.setDom_int (f : Nat) (x : Dom) : (d.setDom f x).int = d.int := rfl
@[simp] theorem Dev.setDom_dep (f : Nat) (x : Dom) : (d.setDom f x).dep = d.dep := rfl
@[simp] theorem Dev.setDom_eng (f : Nat) (x : Dom) : (d.setDom f x).eng = d.eng := rfl
@[simp] theorem Dev.setDom_wq (f : Nat) (x : Dom) : (d.setDom f x).wq = d.wq := rfl
@[simp] theorem Dev.setDom_xlt (f : Nat) (x : Dom) : (d.setDom f x).xlt = d.xlt := rfl
@[simp] theorem Dev.setDom_win (f : Nat) (x : Dom) : (d.setDom f x).win = d.win := rfl
@[simp] theorem Dev.setDom_dma (f : Nat) (x : Dom) : (d.setDom f x).dma = d.dma := rfl
@[simp] theorem Dev.setDom_rma (f : Nat) (x : Dom) : (d.setDom f x).rma = d.rma := rfl
@[simp] theorem Dev.setDom_cc (f : Nat) (x : Dom) : (d.setDom f x).cc = d.cc := rfl
@[simp] theorem Dev.setDom_col (f : Nat) (x : Dom) : (d.setDom f x).col = d.col := rfl
@[simp] theorem Dev.setDom_ports (f : Nat) (x : Dom) : (d.setDom f x).ports = d.ports := rfl
@[simp] theorem Dev.setDom_sch (f : Nat) (x : Dom) : (d.setDom f x).sch = d.sch := rfl
@[simp] theorem Dev.setDom_rte (f : Nat) (x : Dom) : (d.setDom f x).rte = d.rte := rfl
@[simp] theorem Dev.setDom_ropes (f : Nat) (x : Dom) : (d.setDom f x).ropes = d.ropes := rfl
@[simp] theorem Dev.setDom_time (f : Nat) (x : Dom) : (d.setDom f x).time = d.time := rfl
@[simp] theorem Dev.setDom_bcp (f : Nat) (x : Dom) : (d.setDom f x).bcp = d.bcp := rfl
@[simp] theorem Dev.setDom_flt (f : Nat) (x : Dom) : (d.setDom f x).flt = d.flt := rfl
@[simp] theorem Dev.setDom_pmc (f : Nat) (x : Dom) : (d.setDom f x).pmc = d.pmc := rfl

@[simp] theorem Dev.updDom_regs (f : Nat) (g : Dom → Dom) : (d.updDom f g).regs = d.regs := rfl
@[simp] theorem Dev.updDom_force (f : Nat) (g : Dom → Dom) : (d.updDom f g).force = d.force := rfl
@[simp] theorem Dev.updDom_ps (f : Nat) (g : Dom → Dom) : (d.updDom f g).ps = d.ps := rfl
@[simp] theorem Dev.updDom_ft (f : Nat) (g : Dom → Dom) : (d.updDom f g).ft = d.ft := rfl
@[simp] theorem Dev.updDom_fresh (f : Nat) (g : Dom → Dom) : (d.updDom f g).fresh = d.fresh := rfl
@[simp] theorem Dev.updDom_log (f : Nat) (g : Dom → Dom) : (d.updDom f g).log = d.log := rfl
@[simp] theorem Dev.updDom_pwr (f : Nat) (g : Dom → Dom) : (d.updDom f g).pwr = d.pwr := rfl
@[simp] theorem Dev.updDom_host (f : Nat) (g : Dom → Dom) : (d.updDom f g).host = d.host := rfl
@[simp] theorem Dev.updDom_reads (f : Nat) (g : Dom → Dom) : (d.updDom f g).reads = d.reads := rfl
@[simp] theorem Dev.updDom_nextTag (f : Nat) (g : Dom → Dom) : (d.updDom f g).nextTag = d.nextTag := rfl
@[simp] theorem Dev.updDom_int (f : Nat) (g : Dom → Dom) : (d.updDom f g).int = d.int := rfl
@[simp] theorem Dev.updDom_dep (f : Nat) (g : Dom → Dom) : (d.updDom f g).dep = d.dep := rfl
@[simp] theorem Dev.updDom_eng (f : Nat) (g : Dom → Dom) : (d.updDom f g).eng = d.eng := rfl
@[simp] theorem Dev.updDom_wq (f : Nat) (g : Dom → Dom) : (d.updDom f g).wq = d.wq := rfl
@[simp] theorem Dev.updDom_xlt (f : Nat) (g : Dom → Dom) : (d.updDom f g).xlt = d.xlt := rfl
@[simp] theorem Dev.updDom_win (f : Nat) (g : Dom → Dom) : (d.updDom f g).win = d.win := rfl
@[simp] theorem Dev.updDom_dma (f : Nat) (g : Dom → Dom) : (d.updDom f g).dma = d.dma := rfl
@[simp] theorem Dev.updDom_rma (f : Nat) (g : Dom → Dom) : (d.updDom f g).rma = d.rma := rfl
@[simp] theorem Dev.updDom_cc (f : Nat) (g : Dom → Dom) : (d.updDom f g).cc = d.cc := rfl
@[simp] theorem Dev.updDom_col (f : Nat) (g : Dom → Dom) : (d.updDom f g).col = d.col := rfl
@[simp] theorem Dev.updDom_ports (f : Nat) (g : Dom → Dom) : (d.updDom f g).ports = d.ports := rfl
@[simp] theorem Dev.updDom_sch (f : Nat) (g : Dom → Dom) : (d.updDom f g).sch = d.sch := rfl
@[simp] theorem Dev.updDom_rte (f : Nat) (g : Dom → Dom) : (d.updDom f g).rte = d.rte := rfl
@[simp] theorem Dev.updDom_ropes (f : Nat) (g : Dom → Dom) : (d.updDom f g).ropes = d.ropes := rfl
@[simp] theorem Dev.updDom_time (f : Nat) (g : Dom → Dom) : (d.updDom f g).time = d.time := rfl
@[simp] theorem Dev.updDom_bcp (f : Nat) (g : Dom → Dom) : (d.updDom f g).bcp = d.bcp := rfl
@[simp] theorem Dev.updDom_flt (f : Nat) (g : Dom → Dom) : (d.updDom f g).flt = d.flt := rfl
@[simp] theorem Dev.updDom_pmc (f : Nat) (g : Dom → Dom) : (d.updDom f g).pmc = d.pmc := rfl

@[simp] theorem Dev.putOrder_regs (k : Nat) (o : Order) : (d.putOrder k o).regs = d.regs := rfl
@[simp] theorem Dev.putOrder_force (k : Nat) (o : Order) : (d.putOrder k o).force = d.force := rfl
@[simp] theorem Dev.putOrder_ps (k : Nat) (o : Order) : (d.putOrder k o).ps = d.ps := rfl
@[simp] theorem Dev.putOrder_ft (k : Nat) (o : Order) : (d.putOrder k o).ft = d.ft := rfl
@[simp] theorem Dev.putOrder_fresh (k : Nat) (o : Order) : (d.putOrder k o).fresh = d.fresh := rfl
@[simp] theorem Dev.putOrder_log (k : Nat) (o : Order) : (d.putOrder k o).log = d.log := rfl
@[simp] theorem Dev.putOrder_pwr (k : Nat) (o : Order) : (d.putOrder k o).pwr = d.pwr := rfl
@[simp] theorem Dev.putOrder_host (k : Nat) (o : Order) : (d.putOrder k o).host = d.host := rfl
@[simp] theorem Dev.putOrder_reads (k : Nat) (o : Order) : (d.putOrder k o).reads = d.reads := rfl
@[simp] theorem Dev.putOrder_nextTag (k : Nat) (o : Order) : (d.putOrder k o).nextTag = d.nextTag := rfl
@[simp] theorem Dev.putOrder_int (k : Nat) (o : Order) : (d.putOrder k o).int = d.int := rfl
@[simp] theorem Dev.putOrder_dep (k : Nat) (o : Order) : (d.putOrder k o).dep = d.dep := rfl
@[simp] theorem Dev.putOrder_eng (k : Nat) (o : Order) : (d.putOrder k o).eng = d.eng := rfl
@[simp] theorem Dev.putOrder_wq (k : Nat) (o : Order) : (d.putOrder k o).wq = d.wq := rfl
@[simp] theorem Dev.putOrder_xlt (k : Nat) (o : Order) : (d.putOrder k o).xlt = d.xlt := rfl
@[simp] theorem Dev.putOrder_win (k : Nat) (o : Order) : (d.putOrder k o).win = d.win := rfl
@[simp] theorem Dev.putOrder_dma (k : Nat) (o : Order) : (d.putOrder k o).dma = d.dma := rfl
@[simp] theorem Dev.putOrder_rma (k : Nat) (o : Order) : (d.putOrder k o).rma = d.rma := rfl
@[simp] theorem Dev.putOrder_cc (k : Nat) (o : Order) : (d.putOrder k o).cc = d.cc := rfl
@[simp] theorem Dev.putOrder_col (k : Nat) (o : Order) : (d.putOrder k o).col = d.col := rfl
@[simp] theorem Dev.putOrder_ports (k : Nat) (o : Order) : (d.putOrder k o).ports = d.ports := rfl
@[simp] theorem Dev.putOrder_sch (k : Nat) (o : Order) : (d.putOrder k o).sch = d.sch := rfl
@[simp] theorem Dev.putOrder_rte (k : Nat) (o : Order) : (d.putOrder k o).rte = d.rte := rfl
@[simp] theorem Dev.putOrder_ropes (k : Nat) (o : Order) : (d.putOrder k o).ropes = d.ropes := rfl
@[simp] theorem Dev.putOrder_time (k : Nat) (o : Order) : (d.putOrder k o).time = d.time := rfl
@[simp] theorem Dev.putOrder_bcp (k : Nat) (o : Order) : (d.putOrder k o).bcp = d.bcp := rfl
@[simp] theorem Dev.putOrder_flt (k : Nat) (o : Order) : (d.putOrder k o).flt = d.flt := rfl
@[simp] theorem Dev.putOrder_pmc (k : Nat) (o : Order) : (d.putOrder k o).pmc = d.pmc := rfl

@[simp] theorem Dev.putCtx_regs (n : Nat) (c : ColCtx) : (d.putCtx n c).regs = d.regs := rfl
@[simp] theorem Dev.putCtx_force (n : Nat) (c : ColCtx) : (d.putCtx n c).force = d.force := rfl
@[simp] theorem Dev.putCtx_ps (n : Nat) (c : ColCtx) : (d.putCtx n c).ps = d.ps := rfl
@[simp] theorem Dev.putCtx_ft (n : Nat) (c : ColCtx) : (d.putCtx n c).ft = d.ft := rfl
@[simp] theorem Dev.putCtx_fresh (n : Nat) (c : ColCtx) : (d.putCtx n c).fresh = d.fresh := rfl
@[simp] theorem Dev.putCtx_log (n : Nat) (c : ColCtx) : (d.putCtx n c).log = d.log := rfl
@[simp] theorem Dev.putCtx_pwr (n : Nat) (c : ColCtx) : (d.putCtx n c).pwr = d.pwr := rfl
@[simp] theorem Dev.putCtx_host (n : Nat) (c : ColCtx) : (d.putCtx n c).host = d.host := rfl
@[simp] theorem Dev.putCtx_reads (n : Nat) (c : ColCtx) : (d.putCtx n c).reads = d.reads := rfl
@[simp] theorem Dev.putCtx_nextTag (n : Nat) (c : ColCtx) : (d.putCtx n c).nextTag = d.nextTag := rfl
@[simp] theorem Dev.putCtx_int (n : Nat) (c : ColCtx) : (d.putCtx n c).int = d.int := rfl
@[simp] theorem Dev.putCtx_dep (n : Nat) (c : ColCtx) : (d.putCtx n c).dep = d.dep := rfl
@[simp] theorem Dev.putCtx_eng (n : Nat) (c : ColCtx) : (d.putCtx n c).eng = d.eng := rfl
@[simp] theorem Dev.putCtx_wq (n : Nat) (c : ColCtx) : (d.putCtx n c).wq = d.wq := rfl
@[simp] theorem Dev.putCtx_xlt (n : Nat) (c : ColCtx) : (d.putCtx n c).xlt = d.xlt := rfl
@[simp] theorem Dev.putCtx_win (n : Nat) (c : ColCtx) : (d.putCtx n c).win = d.win := rfl
@[simp] theorem Dev.putCtx_dma (n : Nat) (c : ColCtx) : (d.putCtx n c).dma = d.dma := rfl
@[simp] theorem Dev.putCtx_rma (n : Nat) (c : ColCtx) : (d.putCtx n c).rma = d.rma := rfl
@[simp] theorem Dev.putCtx_cc (n : Nat) (c : ColCtx) : (d.putCtx n c).cc = d.cc := rfl
@[simp] theorem Dev.putCtx_mtc (n : Nat) (c : ColCtx) : (d.putCtx n c).mtc = d.mtc := rfl
@[simp] theorem Dev.putCtx_ports (n : Nat) (c : ColCtx) : (d.putCtx n c).ports = d.ports := rfl
@[simp] theorem Dev.putCtx_sch (n : Nat) (c : ColCtx) : (d.putCtx n c).sch = d.sch := rfl
@[simp] theorem Dev.putCtx_rte (n : Nat) (c : ColCtx) : (d.putCtx n c).rte = d.rte := rfl
@[simp] theorem Dev.putCtx_ropes (n : Nat) (c : ColCtx) : (d.putCtx n c).ropes = d.ropes := rfl
@[simp] theorem Dev.putCtx_time (n : Nat) (c : ColCtx) : (d.putCtx n c).time = d.time := rfl
@[simp] theorem Dev.putCtx_bcp (n : Nat) (c : ColCtx) : (d.putCtx n c).bcp = d.bcp := rfl
@[simp] theorem Dev.putCtx_flt (n : Nat) (c : ColCtx) : (d.putCtx n c).flt = d.flt := rfl
@[simp] theorem Dev.putCtx_pmc (n : Nat) (c : ColCtx) : (d.putCtx n c).pmc = d.pmc := rfl

@[simp] theorem Dev.updCtx_regs (n : Nat) (g : ColCtx → ColCtx) : (d.updCtx n g).regs = d.regs := rfl
@[simp] theorem Dev.updCtx_force (n : Nat) (g : ColCtx → ColCtx) : (d.updCtx n g).force = d.force := rfl
@[simp] theorem Dev.updCtx_ps (n : Nat) (g : ColCtx → ColCtx) : (d.updCtx n g).ps = d.ps := rfl
@[simp] theorem Dev.updCtx_ft (n : Nat) (g : ColCtx → ColCtx) : (d.updCtx n g).ft = d.ft := rfl
@[simp] theorem Dev.updCtx_fresh (n : Nat) (g : ColCtx → ColCtx) : (d.updCtx n g).fresh = d.fresh := rfl
@[simp] theorem Dev.updCtx_log (n : Nat) (g : ColCtx → ColCtx) : (d.updCtx n g).log = d.log := rfl
@[simp] theorem Dev.updCtx_pwr (n : Nat) (g : ColCtx → ColCtx) : (d.updCtx n g).pwr = d.pwr := rfl
@[simp] theorem Dev.updCtx_host (n : Nat) (g : ColCtx → ColCtx) : (d.updCtx n g).host = d.host := rfl
@[simp] theorem Dev.updCtx_reads (n : Nat) (g : ColCtx → ColCtx) : (d.updCtx n g).reads = d.reads := rfl
@[simp] theorem Dev.updCtx_nextTag (n : Nat) (g : ColCtx → ColCtx) : (d.updCtx n g).nextTag = d.nextTag := rfl
@[simp] theorem Dev.updCtx_int (n : Nat) (g : ColCtx → ColCtx) : (d.updCtx n g).int = d.int := rfl
@[simp] theorem Dev.updCtx_dep (n : Nat) (g : ColCtx → ColCtx) : (d.updCtx n g).dep = d.dep := rfl
@[simp] theorem Dev.updCtx_eng (n : Nat) (g : ColCtx → ColCtx) : (d.updCtx n g).eng = d.eng := rfl
@[simp] theorem Dev.updCtx_wq (n : Nat) (g : ColCtx → ColCtx) : (d.updCtx n g).wq = d.wq := rfl
@[simp] theorem Dev.updCtx_xlt (n : Nat) (g : ColCtx → ColCtx) : (d.updCtx n g).xlt = d.xlt := rfl
@[simp] theorem Dev.updCtx_win (n : Nat) (g : ColCtx → ColCtx) : (d.updCtx n g).win = d.win := rfl
@[simp] theorem Dev.updCtx_dma (n : Nat) (g : ColCtx → ColCtx) : (d.updCtx n g).dma = d.dma := rfl
@[simp] theorem Dev.updCtx_rma (n : Nat) (g : ColCtx → ColCtx) : (d.updCtx n g).rma = d.rma := rfl
@[simp] theorem Dev.updCtx_cc (n : Nat) (g : ColCtx → ColCtx) : (d.updCtx n g).cc = d.cc := rfl
@[simp] theorem Dev.updCtx_mtc (n : Nat) (g : ColCtx → ColCtx) : (d.updCtx n g).mtc = d.mtc := rfl
@[simp] theorem Dev.updCtx_ports (n : Nat) (g : ColCtx → ColCtx) : (d.updCtx n g).ports = d.ports := rfl
@[simp] theorem Dev.updCtx_sch (n : Nat) (g : ColCtx → ColCtx) : (d.updCtx n g).sch = d.sch := rfl
@[simp] theorem Dev.updCtx_rte (n : Nat) (g : ColCtx → ColCtx) : (d.updCtx n g).rte = d.rte := rfl
@[simp] theorem Dev.updCtx_ropes (n : Nat) (g : ColCtx → ColCtx) : (d.updCtx n g).ropes = d.ropes := rfl
@[simp] theorem Dev.updCtx_time (n : Nat) (g : ColCtx → ColCtx) : (d.updCtx n g).time = d.time := rfl
@[simp] theorem Dev.updCtx_bcp (n : Nat) (g : ColCtx → ColCtx) : (d.updCtx n g).bcp = d.bcp := rfl
@[simp] theorem Dev.updCtx_flt (n : Nat) (g : ColCtx → ColCtx) : (d.updCtx n g).flt = d.flt := rfl
@[simp] theorem Dev.updCtx_pmc (n : Nat) (g : ColCtx → ColCtx) : (d.updCtx n g).pmc = d.pmc := rfl

@[simp] theorem Dev.setChan_regs (c : Nat) (x : Chan) : (d.setChan c x).regs = d.regs := rfl
@[simp] theorem Dev.setChan_force (c : Nat) (x : Chan) : (d.setChan c x).force = d.force := rfl
@[simp] theorem Dev.setChan_ps (c : Nat) (x : Chan) : (d.setChan c x).ps = d.ps := rfl
@[simp] theorem Dev.setChan_ft (c : Nat) (x : Chan) : (d.setChan c x).ft = d.ft := rfl
@[simp] theorem Dev.setChan_fresh (c : Nat) (x : Chan) : (d.setChan c x).fresh = d.fresh := rfl
@[simp] theorem Dev.setChan_log (c : Nat) (x : Chan) : (d.setChan c x).log = d.log := rfl
@[simp] theorem Dev.setChan_pwr (c : Nat) (x : Chan) : (d.setChan c x).pwr = d.pwr := rfl
@[simp] theorem Dev.setChan_host (c : Nat) (x : Chan) : (d.setChan c x).host = d.host := rfl
@[simp] theorem Dev.setChan_reads (c : Nat) (x : Chan) : (d.setChan c x).reads = d.reads := rfl
@[simp] theorem Dev.setChan_nextTag (c : Nat) (x : Chan) : (d.setChan c x).nextTag = d.nextTag := rfl
@[simp] theorem Dev.setChan_int (c : Nat) (x : Chan) : (d.setChan c x).int = d.int := rfl
@[simp] theorem Dev.setChan_dep (c : Nat) (x : Chan) : (d.setChan c x).dep = d.dep := rfl
@[simp] theorem Dev.setChan_eng (c : Nat) (x : Chan) : (d.setChan c x).eng = d.eng := rfl
@[simp] theorem Dev.setChan_wq (c : Nat) (x : Chan) : (d.setChan c x).wq = d.wq := rfl
@[simp] theorem Dev.setChan_xlt (c : Nat) (x : Chan) : (d.setChan c x).xlt = d.xlt := rfl
@[simp] theorem Dev.setChan_win (c : Nat) (x : Chan) : (d.setChan c x).win = d.win := rfl
@[simp] theorem Dev.setChan_rma (c : Nat) (x : Chan) : (d.setChan c x).rma = d.rma := rfl
@[simp] theorem Dev.setChan_cc (c : Nat) (x : Chan) : (d.setChan c x).cc = d.cc := rfl
@[simp] theorem Dev.setChan_mtc (c : Nat) (x : Chan) : (d.setChan c x).mtc = d.mtc := rfl
@[simp] theorem Dev.setChan_col (c : Nat) (x : Chan) : (d.setChan c x).col = d.col := rfl
@[simp] theorem Dev.setChan_ports (c : Nat) (x : Chan) : (d.setChan c x).ports = d.ports := rfl
@[simp] theorem Dev.setChan_sch (c : Nat) (x : Chan) : (d.setChan c x).sch = d.sch := rfl
@[simp] theorem Dev.setChan_rte (c : Nat) (x : Chan) : (d.setChan c x).rte = d.rte := rfl
@[simp] theorem Dev.setChan_ropes (c : Nat) (x : Chan) : (d.setChan c x).ropes = d.ropes := rfl
@[simp] theorem Dev.setChan_time (c : Nat) (x : Chan) : (d.setChan c x).time = d.time := rfl
@[simp] theorem Dev.setChan_bcp (c : Nat) (x : Chan) : (d.setChan c x).bcp = d.bcp := rfl
@[simp] theorem Dev.setChan_flt (c : Nat) (x : Chan) : (d.setChan c x).flt = d.flt := rfl
@[simp] theorem Dev.setChan_pmc (c : Nat) (x : Chan) : (d.setChan c x).pmc = d.pmc := rfl

@[simp] theorem Dev.updChan_regs (c : Nat) (g : Chan → Chan) : (d.updChan c g).regs = d.regs := rfl
@[simp] theorem Dev.updChan_force (c : Nat) (g : Chan → Chan) : (d.updChan c g).force = d.force := rfl
@[simp] theorem Dev.updChan_ps (c : Nat) (g : Chan → Chan) : (d.updChan c g).ps = d.ps := rfl
@[simp] theorem Dev.updChan_ft (c : Nat) (g : Chan → Chan) : (d.updChan c g).ft = d.ft := rfl
@[simp] theorem Dev.updChan_fresh (c : Nat) (g : Chan → Chan) : (d.updChan c g).fresh = d.fresh := rfl
@[simp] theorem Dev.updChan_log (c : Nat) (g : Chan → Chan) : (d.updChan c g).log = d.log := rfl
@[simp] theorem Dev.updChan_pwr (c : Nat) (g : Chan → Chan) : (d.updChan c g).pwr = d.pwr := rfl
@[simp] theorem Dev.updChan_host (c : Nat) (g : Chan → Chan) : (d.updChan c g).host = d.host := rfl
@[simp] theorem Dev.updChan_reads (c : Nat) (g : Chan → Chan) : (d.updChan c g).reads = d.reads := rfl
@[simp] theorem Dev.updChan_nextTag (c : Nat) (g : Chan → Chan) : (d.updChan c g).nextTag = d.nextTag := rfl
@[simp] theorem Dev.updChan_int (c : Nat) (g : Chan → Chan) : (d.updChan c g).int = d.int := rfl
@[simp] theorem Dev.updChan_dep (c : Nat) (g : Chan → Chan) : (d.updChan c g).dep = d.dep := rfl
@[simp] theorem Dev.updChan_eng (c : Nat) (g : Chan → Chan) : (d.updChan c g).eng = d.eng := rfl
@[simp] theorem Dev.updChan_wq (c : Nat) (g : Chan → Chan) : (d.updChan c g).wq = d.wq := rfl
@[simp] theorem Dev.updChan_xlt (c : Nat) (g : Chan → Chan) : (d.updChan c g).xlt = d.xlt := rfl
@[simp] theorem Dev.updChan_win (c : Nat) (g : Chan → Chan) : (d.updChan c g).win = d.win := rfl
@[simp] theorem Dev.updChan_rma (c : Nat) (g : Chan → Chan) : (d.updChan c g).rma = d.rma := rfl
@[simp] theorem Dev.updChan_cc (c : Nat) (g : Chan → Chan) : (d.updChan c g).cc = d.cc := rfl
@[simp] theorem Dev.updChan_mtc (c : Nat) (g : Chan → Chan) : (d.updChan c g).mtc = d.mtc := rfl
@[simp] theorem Dev.updChan_col (c : Nat) (g : Chan → Chan) : (d.updChan c g).col = d.col := rfl
@[simp] theorem Dev.updChan_ports (c : Nat) (g : Chan → Chan) : (d.updChan c g).ports = d.ports := rfl
@[simp] theorem Dev.updChan_sch (c : Nat) (g : Chan → Chan) : (d.updChan c g).sch = d.sch := rfl
@[simp] theorem Dev.updChan_rte (c : Nat) (g : Chan → Chan) : (d.updChan c g).rte = d.rte := rfl
@[simp] theorem Dev.updChan_ropes (c : Nat) (g : Chan → Chan) : (d.updChan c g).ropes = d.ropes := rfl
@[simp] theorem Dev.updChan_time (c : Nat) (g : Chan → Chan) : (d.updChan c g).time = d.time := rfl
@[simp] theorem Dev.updChan_bcp (c : Nat) (g : Chan → Chan) : (d.updChan c g).bcp = d.bcp := rfl
@[simp] theorem Dev.updChan_flt (c : Nat) (g : Chan → Chan) : (d.updChan c g).flt = d.flt := rfl
@[simp] theorem Dev.updChan_pmc (c : Nat) (g : Chan → Chan) : (d.updChan c g).pmc = d.pmc := rfl

@[simp] theorem Dev.setPiton_regs (n : Nat) (p : Piton) : (d.setPiton n p).regs = d.regs := rfl
@[simp] theorem Dev.setPiton_force (n : Nat) (p : Piton) : (d.setPiton n p).force = d.force := rfl
@[simp] theorem Dev.setPiton_ps (n : Nat) (p : Piton) : (d.setPiton n p).ps = d.ps := rfl
@[simp] theorem Dev.setPiton_ft (n : Nat) (p : Piton) : (d.setPiton n p).ft = d.ft := rfl
@[simp] theorem Dev.setPiton_fresh (n : Nat) (p : Piton) : (d.setPiton n p).fresh = d.fresh := rfl
@[simp] theorem Dev.setPiton_log (n : Nat) (p : Piton) : (d.setPiton n p).log = d.log := rfl
@[simp] theorem Dev.setPiton_pwr (n : Nat) (p : Piton) : (d.setPiton n p).pwr = d.pwr := rfl
@[simp] theorem Dev.setPiton_host (n : Nat) (p : Piton) : (d.setPiton n p).host = d.host := rfl
@[simp] theorem Dev.setPiton_reads (n : Nat) (p : Piton) : (d.setPiton n p).reads = d.reads := rfl
@[simp] theorem Dev.setPiton_nextTag (n : Nat) (p : Piton) : (d.setPiton n p).nextTag = d.nextTag := rfl
@[simp] theorem Dev.setPiton_int (n : Nat) (p : Piton) : (d.setPiton n p).int = d.int := rfl
@[simp] theorem Dev.setPiton_dep (n : Nat) (p : Piton) : (d.setPiton n p).dep = d.dep := rfl
@[simp] theorem Dev.setPiton_eng (n : Nat) (p : Piton) : (d.setPiton n p).eng = d.eng := rfl
@[simp] theorem Dev.setPiton_wq (n : Nat) (p : Piton) : (d.setPiton n p).wq = d.wq := rfl
@[simp] theorem Dev.setPiton_xlt (n : Nat) (p : Piton) : (d.setPiton n p).xlt = d.xlt := rfl
@[simp] theorem Dev.setPiton_win (n : Nat) (p : Piton) : (d.setPiton n p).win = d.win := rfl
@[simp] theorem Dev.setPiton_rma (n : Nat) (p : Piton) : (d.setPiton n p).rma = d.rma := rfl
@[simp] theorem Dev.setPiton_cc (n : Nat) (p : Piton) : (d.setPiton n p).cc = d.cc := rfl
@[simp] theorem Dev.setPiton_mtc (n : Nat) (p : Piton) : (d.setPiton n p).mtc = d.mtc := rfl
@[simp] theorem Dev.setPiton_col (n : Nat) (p : Piton) : (d.setPiton n p).col = d.col := rfl
@[simp] theorem Dev.setPiton_ports (n : Nat) (p : Piton) : (d.setPiton n p).ports = d.ports := rfl
@[simp] theorem Dev.setPiton_sch (n : Nat) (p : Piton) : (d.setPiton n p).sch = d.sch := rfl
@[simp] theorem Dev.setPiton_rte (n : Nat) (p : Piton) : (d.setPiton n p).rte = d.rte := rfl
@[simp] theorem Dev.setPiton_ropes (n : Nat) (p : Piton) : (d.setPiton n p).ropes = d.ropes := rfl
@[simp] theorem Dev.setPiton_time (n : Nat) (p : Piton) : (d.setPiton n p).time = d.time := rfl
@[simp] theorem Dev.setPiton_bcp (n : Nat) (p : Piton) : (d.setPiton n p).bcp = d.bcp := rfl
@[simp] theorem Dev.setPiton_flt (n : Nat) (p : Piton) : (d.setPiton n p).flt = d.flt := rfl
@[simp] theorem Dev.setPiton_pmc (n : Nat) (p : Piton) : (d.setPiton n p).pmc = d.pmc := rfl

@[simp] theorem Dev.setArb_regs (k : Nat) (x : Arb) : (d.setArb k x).regs = d.regs := rfl
@[simp] theorem Dev.setArb_force (k : Nat) (x : Arb) : (d.setArb k x).force = d.force := rfl
@[simp] theorem Dev.setArb_ps (k : Nat) (x : Arb) : (d.setArb k x).ps = d.ps := rfl
@[simp] theorem Dev.setArb_ft (k : Nat) (x : Arb) : (d.setArb k x).ft = d.ft := rfl
@[simp] theorem Dev.setArb_fresh (k : Nat) (x : Arb) : (d.setArb k x).fresh = d.fresh := rfl
@[simp] theorem Dev.setArb_log (k : Nat) (x : Arb) : (d.setArb k x).log = d.log := rfl
@[simp] theorem Dev.setArb_pwr (k : Nat) (x : Arb) : (d.setArb k x).pwr = d.pwr := rfl
@[simp] theorem Dev.setArb_host (k : Nat) (x : Arb) : (d.setArb k x).host = d.host := rfl
@[simp] theorem Dev.setArb_reads (k : Nat) (x : Arb) : (d.setArb k x).reads = d.reads := rfl
@[simp] theorem Dev.setArb_nextTag (k : Nat) (x : Arb) : (d.setArb k x).nextTag = d.nextTag := rfl
@[simp] theorem Dev.setArb_int (k : Nat) (x : Arb) : (d.setArb k x).int = d.int := rfl
@[simp] theorem Dev.setArb_eng (k : Nat) (x : Arb) : (d.setArb k x).eng = d.eng := rfl
@[simp] theorem Dev.setArb_wq (k : Nat) (x : Arb) : (d.setArb k x).wq = d.wq := rfl
@[simp] theorem Dev.setArb_xlt (k : Nat) (x : Arb) : (d.setArb k x).xlt = d.xlt := rfl
@[simp] theorem Dev.setArb_win (k : Nat) (x : Arb) : (d.setArb k x).win = d.win := rfl
@[simp] theorem Dev.setArb_dma (k : Nat) (x : Arb) : (d.setArb k x).dma = d.dma := rfl
@[simp] theorem Dev.setArb_rma (k : Nat) (x : Arb) : (d.setArb k x).rma = d.rma := rfl
@[simp] theorem Dev.setArb_cc (k : Nat) (x : Arb) : (d.setArb k x).cc = d.cc := rfl
@[simp] theorem Dev.setArb_mtc (k : Nat) (x : Arb) : (d.setArb k x).mtc = d.mtc := rfl
@[simp] theorem Dev.setArb_col (k : Nat) (x : Arb) : (d.setArb k x).col = d.col := rfl
@[simp] theorem Dev.setArb_ports (k : Nat) (x : Arb) : (d.setArb k x).ports = d.ports := rfl
@[simp] theorem Dev.setArb_sch (k : Nat) (x : Arb) : (d.setArb k x).sch = d.sch := rfl
@[simp] theorem Dev.setArb_rte (k : Nat) (x : Arb) : (d.setArb k x).rte = d.rte := rfl
@[simp] theorem Dev.setArb_ropes (k : Nat) (x : Arb) : (d.setArb k x).ropes = d.ropes := rfl
@[simp] theorem Dev.setArb_time (k : Nat) (x : Arb) : (d.setArb k x).time = d.time := rfl
@[simp] theorem Dev.setArb_bcp (k : Nat) (x : Arb) : (d.setArb k x).bcp = d.bcp := rfl
@[simp] theorem Dev.setArb_flt (k : Nat) (x : Arb) : (d.setArb k x).flt = d.flt := rfl
@[simp] theorem Dev.setArb_pmc (k : Nat) (x : Arb) : (d.setArb k x).pmc = d.pmc := rfl
@[simp] theorem Dev.setArb_dep_mem (k : Nat) (x : Arb) : (d.setArb k x).dep.mem = d.dep.mem := rfl
@[simp] theorem Dev.setArb_dep_bufs (k : Nat) (x : Arb) : (d.setArb k x).dep.bufs = d.dep.bufs := rfl
@[simp] theorem Dev.setArb_dep_selfRefresh (k : Nat) (x : Arb) : (d.setArb k x).dep.selfRefresh = d.dep.selfRefresh := rfl
@[simp] theorem Dev.setArb_dep_scrubAt (k : Nat) (x : Arb) : (d.setArb k x).dep.scrubAt = d.dep.scrubAt := rfl

@[simp] theorem Dev.updRope_regs (r : Nat) (g : Rope → Rope) : (d.updRope r g).regs = d.regs := rfl
@[simp] theorem Dev.updRope_force (r : Nat) (g : Rope → Rope) : (d.updRope r g).force = d.force := rfl
@[simp] theorem Dev.updRope_ps (r : Nat) (g : Rope → Rope) : (d.updRope r g).ps = d.ps := rfl
@[simp] theorem Dev.updRope_ft (r : Nat) (g : Rope → Rope) : (d.updRope r g).ft = d.ft := rfl
@[simp] theorem Dev.updRope_fresh (r : Nat) (g : Rope → Rope) : (d.updRope r g).fresh = d.fresh := rfl
@[simp] theorem Dev.updRope_log (r : Nat) (g : Rope → Rope) : (d.updRope r g).log = d.log := rfl
@[simp] theorem Dev.updRope_pwr (r : Nat) (g : Rope → Rope) : (d.updRope r g).pwr = d.pwr := rfl
@[simp] theorem Dev.updRope_host (r : Nat) (g : Rope → Rope) : (d.updRope r g).host = d.host := rfl
@[simp] theorem Dev.updRope_reads (r : Nat) (g : Rope → Rope) : (d.updRope r g).reads = d.reads := rfl
@[simp] theorem Dev.updRope_nextTag (r : Nat) (g : Rope → Rope) : (d.updRope r g).nextTag = d.nextTag := rfl
@[simp] theorem Dev.updRope_int (r : Nat) (g : Rope → Rope) : (d.updRope r g).int = d.int := rfl
@[simp] theorem Dev.updRope_dep (r : Nat) (g : Rope → Rope) : (d.updRope r g).dep = d.dep := rfl
@[simp] theorem Dev.updRope_eng (r : Nat) (g : Rope → Rope) : (d.updRope r g).eng = d.eng := rfl
@[simp] theorem Dev.updRope_wq (r : Nat) (g : Rope → Rope) : (d.updRope r g).wq = d.wq := rfl
@[simp] theorem Dev.updRope_xlt (r : Nat) (g : Rope → Rope) : (d.updRope r g).xlt = d.xlt := rfl
@[simp] theorem Dev.updRope_win (r : Nat) (g : Rope → Rope) : (d.updRope r g).win = d.win := rfl
@[simp] theorem Dev.updRope_dma (r : Nat) (g : Rope → Rope) : (d.updRope r g).dma = d.dma := rfl
@[simp] theorem Dev.updRope_rma (r : Nat) (g : Rope → Rope) : (d.updRope r g).rma = d.rma := rfl
@[simp] theorem Dev.updRope_cc (r : Nat) (g : Rope → Rope) : (d.updRope r g).cc = d.cc := rfl
@[simp] theorem Dev.updRope_mtc (r : Nat) (g : Rope → Rope) : (d.updRope r g).mtc = d.mtc := rfl
@[simp] theorem Dev.updRope_col (r : Nat) (g : Rope → Rope) : (d.updRope r g).col = d.col := rfl
@[simp] theorem Dev.updRope_ports (r : Nat) (g : Rope → Rope) : (d.updRope r g).ports = d.ports := rfl
@[simp] theorem Dev.updRope_sch (r : Nat) (g : Rope → Rope) : (d.updRope r g).sch = d.sch := rfl
@[simp] theorem Dev.updRope_rte (r : Nat) (g : Rope → Rope) : (d.updRope r g).rte = d.rte := rfl
@[simp] theorem Dev.updRope_time (r : Nat) (g : Rope → Rope) : (d.updRope r g).time = d.time := rfl
@[simp] theorem Dev.updRope_bcp (r : Nat) (g : Rope → Rope) : (d.updRope r g).bcp = d.bcp := rfl
@[simp] theorem Dev.updRope_flt (r : Nat) (g : Rope → Rope) : (d.updRope r g).flt = d.flt := rfl
@[simp] theorem Dev.updRope_pmc (r : Nat) (g : Rope → Rope) : (d.updRope r g).pmc = d.pmc := rfl

end Sys2Proof.Machine
end

