-- ==== Sys2Proof/Laws/Reads.lean ====
section
/-! SUPPORT. What an update leaves alone, said of the functions that read the device: registers, threads, flags, and whether
its units act. -/

namespace Sys2Proof.Machine

variable (d : Dev)

@[simp] theorem Dev.thr_setReg (r i : Nat) (v : Word) (thn : Nat) : (d.setReg r i v).thr thn = d.thr thn := rfl
@[simp] theorem Dev.halted_setReg (r i : Nat) (v : Word) : (d.setReg r i v).halted = d.halted := rfl
@[simp] theorem Dev.dark_setReg (r i : Nat) (v : Word) : (d.setReg r i v).dark = d.dark := rfl

@[simp] theorem Dev.thr_wr (f : Fld) (i v : Nat) (thn : Nat) : (d.wr f i v).thr thn = d.thr thn := rfl
@[simp] theorem Dev.halted_wr (f : Fld) (i v : Nat) : (d.wr f i v).halted = d.halted := rfl
@[simp] theorem Dev.dark_wr (f : Fld) (i v : Nat) : (d.wr f i v).dark = d.dark := rfl

@[simp] theorem Dev.thr_bumpBy (f : Fld) (i n : Nat) (thn : Nat) : (d.bumpBy f i n).thr thn = d.thr thn := rfl
@[simp] theorem Dev.halted_bumpBy (f : Fld) (i n : Nat) : (d.bumpBy f i n).halted = d.halted := rfl
@[simp] theorem Dev.dark_bumpBy (f : Fld) (i n : Nat) : (d.bumpBy f i n).dark = d.dark := rfl

@[simp] theorem Dev.thr_bump (f : Fld) (i : Nat) (thn : Nat) : (d.bump f i).thr thn = d.thr thn := rfl
@[simp] theorem Dev.halted_bump (f : Fld) (i : Nat) : (d.bump f i).halted = d.halted := rfl
@[simp] theorem Dev.dark_bump (f : Fld) (i : Nat) : (d.bump f i).dark = d.dark := rfl

@[simp] theorem Dev.rd_latch (r i : Nat) (fld : Fld) (ins : Nat) : (d.latch r i).rd fld ins = d.rd fld ins := rfl
@[simp] theorem Dev.flag_latch (r i : Nat) (fld : Fld) (ins : Nat) : (d.latch r i).flag fld ins = d.flag fld ins := rfl
@[simp] theorem Dev.reg_latch (r i : Nat) (reg_ ins : Nat) : (d.latch r i).reg reg_ ins = d.reg reg_ ins := rfl
@[simp] theorem Dev.thr_latch (r i : Nat) (thn : Nat) : (d.latch r i).thr thn = d.thr thn := rfl
@[simp] theorem Dev.halted_latch (r i : Nat) : (d.latch r i).halted = d.halted := rfl
@[simp] theorem Dev.dark_latch (r i : Nat) : (d.latch r i).dark = d.dark := rfl

@[simp] theorem Dev.rd_emit (o : Out) (fld : Fld) (ins : Nat) : (d.emit o).rd fld ins = d.rd fld ins := rfl
@[simp] theorem Dev.flag_emit (o : Out) (fld : Fld) (ins : Nat) : (d.emit o).flag fld ins = d.flag fld ins := rfl
@[simp] theorem Dev.reg_emit (o : Out) (reg_ ins : Nat) : (d.emit o).reg reg_ ins = d.reg reg_ ins := rfl
@[simp] theorem Dev.thr_emit (o : Out) (thn : Nat) : (d.emit o).thr thn = d.thr thn := rfl
@[simp] theorem Dev.halted_emit (o : Out) : (d.emit o).halted = d.halted := rfl
@[simp] theorem Dev.dark_emit (o : Out) : (d.emit o).dark = d.dark := rfl

@[simp] theorem Dev.rd_setThr (th : Nat) (t : Thread) (fld : Fld) (ins : Nat) : (d.setThr th t).rd fld ins = d.rd fld ins := rfl
@[simp] theorem Dev.flag_setThr (th : Nat) (t : Thread) (fld : Fld) (ins : Nat) : (d.setThr th t).flag fld ins = d.flag fld ins := rfl
@[simp] theorem Dev.reg_setThr (th : Nat) (t : Thread) (reg_ ins : Nat) : (d.setThr th t).reg reg_ ins = d.reg reg_ ins := rfl
@[simp] theorem Dev.halted_setThr (th : Nat) (t : Thread) : (d.setThr th t).halted = d.halted := rfl
@[simp] theorem Dev.dark_setThr (th : Nat) (t : Thread) : (d.setThr th t).dark = d.dark := rfl

@[simp] theorem Dev.rd_updThr (th : Nat) (g : Thread → Thread) (fld : Fld) (ins : Nat) : (d.updThr th g).rd fld ins = d.rd fld ins := rfl
@[simp] theorem Dev.flag_updThr (th : Nat) (g : Thread → Thread) (fld : Fld) (ins : Nat) : (d.updThr th g).flag fld ins = d.flag fld ins := rfl
@[simp] theorem Dev.reg_updThr (th : Nat) (g : Thread → Thread) (reg_ ins : Nat) : (d.updThr th g).reg reg_ ins = d.reg reg_ ins := rfl
@[simp] theorem Dev.halted_updThr (th : Nat) (g : Thread → Thread) : (d.updThr th g).halted = d.halted := rfl
@[simp] theorem Dev.dark_updThr (th : Nat) (g : Thread → Thread) : (d.updThr th g).dark = d.dark := rfl

@[simp] theorem Dev.rd_setW (th n : Nat) (v : TWord) (fld : Fld) (ins : Nat) : (d.setW th n v).rd fld ins = d.rd fld ins := rfl
@[simp] theorem Dev.flag_setW (th n : Nat) (v : TWord) (fld : Fld) (ins : Nat) : (d.setW th n v).flag fld ins = d.flag fld ins := rfl
@[simp] theorem Dev.reg_setW (th n : Nat) (v : TWord) (reg_ ins : Nat) : (d.setW th n v).reg reg_ ins = d.reg reg_ ins := rfl
@[simp] theorem Dev.halted_setW (th n : Nat) (v : TWord) : (d.setW th n v).halted = d.halted := rfl
@[simp] theorem Dev.dark_setW (th n : Nat) (v : TWord) : (d.setW th n v).dark = d.dark := rfl

@[simp] theorem Dev.rd_setVal (th n v : Nat) (fld : Fld) (ins : Nat) : (d.setVal th n v).rd fld ins = d.rd fld ins := rfl
@[simp] theorem Dev.flag_setVal (th n v : Nat) (fld : Fld) (ins : Nat) : (d.setVal th n v).flag fld ins = d.flag fld ins := rfl
@[simp] theorem Dev.reg_setVal (th n v : Nat) (reg_ ins : Nat) : (d.setVal th n v).reg reg_ ins = d.reg reg_ ins := rfl
@[simp] theorem Dev.halted_setVal (th n v : Nat) : (d.setVal th n v).halted = d.halted := rfl
@[simp] theorem Dev.dark_setVal (th n v : Nat) : (d.setVal th n v).dark = d.dark := rfl

@[simp] theorem Dev.rd_setDepWord (a : Nat) (w : TWord) (fld : Fld) (ins : Nat) : (d.setDepWord a w).rd fld ins = d.rd fld ins := rfl
@[simp] theorem Dev.flag_setDepWord (a : Nat) (w : TWord) (fld : Fld) (ins : Nat) : (d.setDepWord a w).flag fld ins = d.flag fld ins := rfl
@[simp] theorem Dev.reg_setDepWord (a : Nat) (w : TWord) (reg_ ins : Nat) : (d.setDepWord a w).reg reg_ ins = d.reg reg_ ins := rfl
@[simp] theorem Dev.thr_setDepWord (a : Nat) (w : TWord) (thn : Nat) : (d.setDepWord a w).thr thn = d.thr thn := rfl
@[simp] theorem Dev.halted_setDepWord (a : Nat) (w : TWord) : (d.setDepWord a w).halted = d.halted := rfl
@[simp] theorem Dev.dark_setDepWord (a : Nat) (w : TWord) : (d.setDepWord a w).dark = d.dark := rfl

@[simp] theorem Dev.rd_setScrWord (c a : Nat) (w : TWord) (fld : Fld) (ins : Nat) : (d.setScrWord c a w).rd fld ins = d.rd fld ins := rfl
@[simp] theorem Dev.flag_setScrWord (c a : Nat) (w : TWord) (fld : Fld) (ins : Nat) : (d.setScrWord c a w).flag fld ins = d.flag fld ins := rfl
@[simp] theorem Dev.reg_setScrWord (c a : Nat) (w : TWord) (reg_ ins : Nat) : (d.setScrWord c a w).reg reg_ ins = d.reg reg_ ins := rfl
@[simp] theorem Dev.halted_setScrWord (c a : Nat) (w : TWord) : (d.setScrWord c a w).halted = d.halted := rfl
@[simp] theorem Dev.dark_setScrWord (c a : Nat) (w : TWord) : (d.setScrWord c a w).dark = d.dark := rfl

@[simp] theorem Dev.rd_setPend (t : Nat) (l : List Nat) (fld : Fld) (ins : Nat) : (d.setPend t l).rd fld ins = d.rd fld ins := rfl
@[simp] theorem Dev.flag_setPend (t : Nat) (l : List Nat) (fld : Fld) (ins : Nat) : (d.setPend t l).flag fld ins = d.flag fld ins := rfl
@[simp] theorem Dev.reg_setPend (t : Nat) (l : List Nat) (reg_ ins : Nat) : (d.setPend t l).reg reg_ ins = d.reg reg_ ins := rfl
@[simp] theorem Dev.thr_setPend (t : Nat) (l : List Nat) (thn : Nat) : (d.setPend t l).thr thn = d.thr thn := rfl
@[simp] theorem Dev.halted_setPend (t : Nat) (l : List Nat) : (d.setPend t l).halted = d.halted := rfl
@[simp] theorem Dev.dark_setPend (t : Nat) (l : List Nat) : (d.setPend t l).dark = d.dark := rfl

@[simp] theorem Dev.rd_setAct (t : Nat) (l : List Nat) (fld : Fld) (ins : Nat) : (d.setAct t l).rd fld ins = d.rd fld ins := rfl
@[simp] theorem Dev.flag_setAct (t : Nat) (l : List Nat) (fld : Fld) (ins : Nat) : (d.setAct t l).flag fld ins = d.flag fld ins := rfl
@[simp] theorem Dev.reg_setAct (t : Nat) (l : List Nat) (reg_ ins : Nat) : (d.setAct t l).reg reg_ ins = d.reg reg_ ins := rfl
@[simp] theorem Dev.thr_setAct (t : Nat) (l : List Nat) (thn : Nat) : (d.setAct t l).thr thn = d.thr thn := rfl
@[simp] theorem Dev.halted_setAct (t : Nat) (l : List Nat) : (d.setAct t l).halted = d.halted := rfl
@[simp] theorem Dev.dark_setAct (t : Nat) (l : List Nat) : (d.setAct t l).dark = d.dark := rfl

@[simp] theorem Dev.rd_setPort (p : Nat) (v : Port) (fld : Fld) (ins : Nat) : (d.setPort p v).rd fld ins = d.rd fld ins := rfl
@[simp] theorem Dev.flag_setPort (p : Nat) (v : Port) (fld : Fld) (ins : Nat) : (d.setPort p v).flag fld ins = d.flag fld ins := rfl
@[simp] theorem Dev.reg_setPort (p : Nat) (v : Port) (reg_ ins : Nat) : (d.setPort p v).reg reg_ ins = d.reg reg_ ins := rfl
@[simp] theorem Dev.thr_setPort (p : Nat) (v : Port) (thn : Nat) : (d.setPort p v).thr thn = d.thr thn := rfl
@[simp] theorem Dev.halted_setPort (p : Nat) (v : Port) : (d.setPort p v).halted = d.halted := rfl
@[simp] theorem Dev.dark_setPort (p : Nat) (v : Port) : (d.setPort p v).dark = d.dark := rfl

@[simp] theorem Dev.rd_updPort (p : Nat) (g : Port → Port) (fld : Fld) (ins : Nat) : (d.updPort p g).rd fld ins = d.rd fld ins := rfl
@[simp] theorem Dev.flag_updPort (p : Nat) (g : Port → Port) (fld : Fld) (ins : Nat) : (d.updPort p g).flag fld ins = d.flag fld ins := rfl
@[simp] theorem Dev.reg_updPort (p : Nat) (g : Port → Port) (reg_ ins : Nat) : (d.updPort p g).reg reg_ ins = d.reg reg_ ins := rfl
@[simp] theorem Dev.thr_updPort (p : Nat) (g : Port → Port) (thn : Nat) : (d.updPort p g).thr thn = d.thr thn := rfl
@[simp] theorem Dev.halted_updPort (p : Nat) (g : Port → Port) : (d.updPort p g).halted = d.halted := rfl
@[simp] theorem Dev.dark_updPort (p : Nat) (g : Port → Port) : (d.updPort p g).dark = d.dark := rfl

@[simp] theorem Dev.rd_setQueue (q : Nat) (x : Queue) (fld : Fld) (ins : Nat) : (d.setQueue q x).rd fld ins = d.rd fld ins := rfl
@[simp] theorem Dev.flag_setQueue (q : Nat) (x : Queue) (fld : Fld) (ins : Nat) : (d.setQueue q x).flag fld ins = d.flag fld ins := rfl
@[simp] theorem Dev.reg_setQueue (q : Nat) (x : Queue) (reg_ ins : Nat) : (d.setQueue q x).reg reg_ ins = d.reg reg_ ins := rfl
@[simp] theorem Dev.thr_setQueue (q : Nat) (x : Queue) (thn : Nat) : (d.setQueue q x).thr thn = d.thr thn := rfl
@[simp] theorem Dev.halted_setQueue (q : Nat) (x : Queue) : (d.setQueue q x).halted = d.halted := rfl
@[simp] theorem Dev.dark_setQueue (q : Nat) (x : Queue) : (d.setQueue q x).dark = d.dark := rfl

@[simp] theorem Dev.rd_updQueue (q : Nat) (g : Queue → Queue) (fld : Fld) (ins : Nat) : (d.updQueue q g).rd fld ins = d.rd fld ins := rfl
@[simp] theorem Dev.flag_updQueue (q : Nat) (g : Queue → Queue) (fld : Fld) (ins : Nat) : (d.updQueue q g).flag fld ins = d.flag fld ins := rfl
@[simp] theorem Dev.reg_updQueue (q : Nat) (g : Queue → Queue) (reg_ ins : Nat) : (d.updQueue q g).reg reg_ ins = d.reg reg_ ins := rfl
@[simp] theorem Dev.thr_updQueue (q : Nat) (g : Queue → Queue) (thn : Nat) : (d.updQueue q g).thr thn = d.thr thn := rfl
@[simp] theorem Dev.halted_updQueue (q : Nat) (g : Queue → Queue) : (d.updQueue q g).halted = d.halted := rfl
@[simp] theorem Dev.dark_updQueue (q : Nat) (g : Queue → Queue) : (d.updQueue q g).dark = d.dark := rfl

@[simp] theorem Dev.rd_updEnt (q s : Nat) (g : Entry → Entry) (fld : Fld) (ins : Nat) : (d.updEnt q s g).rd fld ins = d.rd fld ins := rfl
@[simp] theorem Dev.flag_updEnt (q s : Nat) (g : Entry → Entry) (fld : Fld) (ins : Nat) : (d.updEnt q s g).flag fld ins = d.flag fld ins := rfl
@[simp] theorem Dev.reg_updEnt (q s : Nat) (g : Entry → Entry) (reg_ ins : Nat) : (d.updEnt q s g).reg reg_ ins = d.reg reg_ ins := rfl
@[simp] theorem Dev.thr_updEnt (q s : Nat) (g : Entry → Entry) (thn : Nat) : (d.updEnt q s g).thr thn = d.thr thn := rfl
@[simp] theorem Dev.halted_updEnt (q s : Nat) (g : Entry → Entry) : (d.updEnt q s g).halted = d.halted := rfl
@[simp] theorem Dev.dark_updEnt (q s : Nat) (g : Entry → Entry) : (d.updEnt q s g).dark = d.dark := rfl

@[simp] theorem Dev.rd_setWin (i : Nat) (w : Win) (fld : Fld) (ins : Nat) : (d.setWin i w).rd fld ins = d.rd fld ins := rfl
@[simp] theorem Dev.flag_setWin (i : Nat) (w : Win) (fld : Fld) (ins : Nat) : (d.setWin i w).flag fld ins = d.flag fld ins := rfl
@[simp] theorem Dev.reg_setWin (i : Nat) (w : Win) (reg_ ins : Nat) : (d.setWin i w).reg reg_ ins = d.reg reg_ ins := rfl
@[simp] theorem Dev.thr_setWin (i : Nat) (w : Win) (thn : Nat) : (d.setWin i w).thr thn = d.thr thn := rfl
@[simp] theorem Dev.halted_setWin (i : Nat) (w : Win) : (d.setWin i w).halted = d.halted := rfl
@[simp] theorem Dev.dark_setWin (i : Nat) (w : Win) : (d.setWin i w).dark = d.dark := rfl

@[simp] theorem Dev.rd_setRevokes (f : Nat) (l : List Revoke) (fld : Fld) (ins : Nat) : (d.setRevokes f l).rd fld ins = d.rd fld ins := rfl
@[simp] theorem Dev.flag_setRevokes (f : Nat) (l : List Revoke) (fld : Fld) (ins : Nat) : (d.setRevokes f l).flag fld ins = d.flag fld ins := rfl
@[simp] theorem Dev.reg_setRevokes (f : Nat) (l : List Revoke) (reg_ ins : Nat) : (d.setRevokes f l).reg reg_ ins = d.reg reg_ ins := rfl
@[simp] theorem Dev.thr_setRevokes (f : Nat) (l : List Revoke) (thn : Nat) : (d.setRevokes f l).thr thn = d.thr thn := rfl
@[simp] theorem Dev.halted_setRevokes (f : Nat) (l : List Revoke) : (d.setRevokes f l).halted = d.halted := rfl
@[simp] theorem Dev.dark_setRevokes (f : Nat) (l : List Revoke) : (d.setRevokes f l).dark = d.dark := rfl

@[simp] theorem Dev.rd_setInvals (p : Nat) (l : List Inval) (fld : Fld) (ins : Nat) : (d.setInvals p l).rd fld ins = d.rd fld ins := rfl
@[simp] theorem Dev.flag_setInvals (p : Nat) (l : List Inval) (fld : Fld) (ins : Nat) : (d.setInvals p l).flag fld ins = d.flag fld ins := rfl
@[simp] theorem Dev.reg_setInvals (p : Nat) (l : List Inval) (reg_ ins : Nat) : (d.setInvals p l).reg reg_ ins = d.reg reg_ ins := rfl
@[simp] theorem Dev.thr_setInvals (p : Nat) (l : List Inval) (thn : Nat) : (d.setInvals p l).thr thn = d.thr thn := rfl
@[simp] theorem Dev.halted_setInvals (p : Nat) (l : List Inval) : (d.setInvals p l).halted = d.halted := rfl
@[simp] theorem Dev.dark_setInvals (p : Nat) (l : List Inval) : (d.setInvals p l).dark = d.dark := rfl

@[simp] theorem Dev.rd_putSlot (i : Nat) (s : Slot) (fld : Fld) (ins : Nat) : (d.putSlot i s).rd fld ins = d.rd fld ins := rfl
@[simp] theorem Dev.flag_putSlot (i : Nat) (s : Slot) (fld : Fld) (ins : Nat) : (d.putSlot i s).flag fld ins = d.flag fld ins := rfl
@[simp] theorem Dev.reg_putSlot (i : Nat) (s : Slot) (reg_ ins : Nat) : (d.putSlot i s).reg reg_ ins = d.reg reg_ ins := rfl
@[simp] theorem Dev.thr_putSlot (i : Nat) (s : Slot) (thn : Nat) : (d.putSlot i s).thr thn = d.thr thn := rfl
@[simp] theorem Dev.halted_putSlot (i : Nat) (s : Slot) : (d.putSlot i s).halted = d.halted := rfl
@[simp] theorem Dev.dark_putSlot (i : Nat) (s : Slot) : (d.putSlot i s).dark = d.dark := rfl

@[simp] theorem Dev.rd_updSlot (i : Nat) (g : Slot → Slot) (fld : Fld) (ins : Nat) : (d.updSlot i g).rd fld ins = d.rd fld ins := rfl
@[simp] theorem Dev.flag_updSlot (i : Nat) (g : Slot → Slot) (fld : Fld) (ins : Nat) : (d.updSlot i g).flag fld ins = d.flag fld ins := rfl
@[simp] theorem Dev.reg_updSlot (i : Nat) (g : Slot → Slot) (reg_ ins : Nat) : (d.updSlot i g).reg reg_ ins = d.reg reg_ ins := rfl
@[simp] theorem Dev.thr_updSlot (i : Nat) (g : Slot → Slot) (thn : Nat) : (d.updSlot i g).thr thn = d.thr thn := rfl
@[simp] theorem Dev.halted_updSlot (i : Nat) (g : Slot → Slot) : (d.updSlot i g).halted = d.halted := rfl
@[simp] theorem Dev.dark_updSlot (i : Nat) (g : Slot → Slot) : (d.updSlot i g).dark = d.dark := rfl

@[simp] theorem Dev.rd_updMsg (n : Nat) (g : Msg → Msg) (fld : Fld) (ins : Nat) : (d.updMsg n g).rd fld ins = d.rd fld ins := rfl
@[simp] theorem Dev.flag_updMsg (n : Nat) (g : Msg → Msg) (fld : Fld) (ins : Nat) : (d.updMsg n g).flag fld ins = d.flag fld ins := rfl
@[simp] theorem Dev.reg_updMsg (n : Nat) (g : Msg → Msg) (reg_ ins : Nat) : (d.updMsg n g).reg reg_ ins = d.reg reg_ ins := rfl
@[simp] theorem Dev.thr_updMsg (n : Nat) (g : Msg → Msg) (thn : Nat) : (d.updMsg n g).thr thn = d.thr thn := rfl
@[simp] theorem Dev.halted_updMsg (n : Nat) (g : Msg → Msg) : (d.updMsg n g).halted = d.halted := rfl
@[simp] theorem Dev.dark_updMsg (n : Nat) (g : Msg → Msg) : (d.updMsg n g).dark = d.dark := rfl

@[simp] theorem Dev.rd_putRx (k : Nat) (x : Rx) (fld : Fld) (ins : Nat) : (d.putRx k x).rd fld ins = d.rd fld ins := rfl
@[simp] theorem Dev.flag_putRx (k : Nat) (x : Rx) (fld : Fld) (ins : Nat) : (d.putRx k x).flag fld ins = d.flag fld ins := rfl
@[simp] theorem Dev.reg_putRx (k : Nat) (x : Rx) (reg_ ins : Nat) : (d.putRx k x).reg reg_ ins = d.reg reg_ ins := rfl
@[simp] theorem Dev.thr_putRx (k : Nat) (x : Rx) (thn : Nat) : (d.putRx k x).thr thn = d.thr thn := rfl
@[simp] theorem Dev.halted_putRx (k : Nat) (x : Rx) : (d.putRx k x).halted = d.halted := rfl
@[simp] theorem Dev.dark_putRx (k : Nat) (x : Rx) : (d.putRx k x).dark = d.dark := rfl

@[simp] theorem Dev.rd_updRx (k : Nat) (g : Rx → Rx) (fld : Fld) (ins : Nat) : (d.updRx k g).rd fld ins = d.rd fld ins := rfl
@[simp] theorem Dev.flag_updRx (k : Nat) (g : Rx → Rx) (fld : Fld) (ins : Nat) : (d.updRx k g).flag fld ins = d.flag fld ins := rfl
@[simp] theorem Dev.reg_updRx (k : Nat) (g : Rx → Rx) (reg_ ins : Nat) : (d.updRx k g).reg reg_ ins = d.reg reg_ ins := rfl
@[simp] theorem Dev.thr_updRx (k : Nat) (g : Rx → Rx) (thn : Nat) : (d.updRx k g).thr thn = d.thr thn := rfl
@[simp] theorem Dev.halted_updRx (k : Nat) (g : Rx → Rx) : (d.updRx k g).halted = d.halted := rfl
@[simp] theorem Dev.dark_updRx (k : Nat) (g : Rx → Rx) : (d.updRx k g).dark = d.dark := rfl

@[simp] theorem Dev.rd_setDom (f : Nat) (x : Dom) (fld : Fld) (ins : Nat) : (d.setDom f x).rd fld ins = d.rd fld ins := rfl
@[simp] theorem Dev.flag_setDom (f : Nat) (x : Dom) (fld : Fld) (ins : Nat) : (d.setDom f x).flag fld ins = d.flag fld ins := rfl
@[simp] theorem Dev.reg_setDom (f : Nat) (x : Dom) (reg_ ins : Nat) : (d.setDom f x).reg reg_ ins = d.reg reg_ ins := rfl
@[simp] theorem Dev.thr_setDom (f : Nat) (x : Dom) (thn : Nat) : (d.setDom f x).thr thn = d.thr thn := rfl
@[simp] theorem Dev.halted_setDom (f : Nat) (x : Dom) : (d.setDom f x).halted = d.halted := rfl
@[simp] theorem Dev.dark_setDom (f : Nat) (x : Dom) : (d.setDom f x).dark = d.dark := rfl

@[simp] theorem Dev.rd_updDom (f : Nat) (g : Dom → Dom) (fld : Fld) (ins : Nat) : (d.updDom f g).rd fld ins = d.rd fld ins := rfl
@[simp] theorem Dev.flag_updDom (f : Nat) (g : Dom → Dom) (fld : Fld) (ins : Nat) : (d.updDom f g).flag fld ins = d.flag fld ins := rfl
@[simp] theorem Dev.reg_updDom (f : Nat) (g : Dom → Dom) (reg_ ins : Nat) : (d.updDom f g).reg reg_ ins = d.reg reg_ ins := rfl
@[simp] theorem Dev.thr_updDom (f : Nat) (g : Dom → Dom) (thn : Nat) : (d.updDom f g).thr thn = d.thr thn := rfl
@[simp] theorem Dev.halted_updDom (f : Nat) (g : Dom → Dom) : (d.updDom f g).halted = d.halted := rfl
@[simp] theorem Dev.dark_updDom (f : Nat) (g : Dom → Dom) : (d.updDom f g).dark = d.dark := rfl

@[simp] theorem Dev.rd_putOrder (k : Nat) (o : Order) (fld : Fld) (ins : Nat) : (d.putOrder k o).rd fld ins = d.rd fld ins := rfl
@[simp] theorem Dev.flag_putOrder (k : Nat) (o : Order) (fld : Fld) (ins : Nat) : (d.putOrder k o).flag fld ins = d.flag fld ins := rfl
@[simp] theorem Dev.reg_putOrder (k : Nat) (o : Order) (reg_ ins : Nat) : (d.putOrder k o).reg reg_ ins = d.reg reg_ ins := rfl
@[simp] theorem Dev.thr_putOrder (k : Nat) (o : Order) (thn : Nat) : (d.putOrder k o).thr thn = d.thr thn := rfl
@[simp] theorem Dev.halted_putOrder (k : Nat) (o : Order) : (d.putOrder k o).halted = d.halted := rfl
@[simp] theorem Dev.dark_putOrder (k : Nat) (o : Order) : (d.putOrder k o).dark = d.dark := rfl

@[simp] theorem Dev.rd_putCtx (n : Nat) (c : ColCtx) (fld : Fld) (ins : Nat) : (d.putCtx n c).rd fld ins = d.rd fld ins := rfl
@[simp] theorem Dev.flag_putCtx (n : Nat) (c : ColCtx) (fld : Fld) (ins : Nat) : (d.putCtx n c).flag fld ins = d.flag fld ins := rfl
@[simp] theorem Dev.reg_putCtx (n : Nat) (c : ColCtx) (reg_ ins : Nat) : (d.putCtx n c).reg reg_ ins = d.reg reg_ ins := rfl
@[simp] theorem Dev.thr_putCtx (n : Nat) (c : ColCtx) (thn : Nat) : (d.putCtx n c).thr thn = d.thr thn := rfl
@[simp] theorem Dev.halted_putCtx (n : Nat) (c : ColCtx) : (d.putCtx n c).halted = d.halted := rfl
@[simp] theorem Dev.dark_putCtx (n : Nat) (c : ColCtx) : (d.putCtx n c).dark = d.dark := rfl

@[simp] theorem Dev.rd_updCtx (n : Nat) (g : ColCtx → ColCtx) (fld : Fld) (ins : Nat) : (d.updCtx n g).rd fld ins = d.rd fld ins := rfl
@[simp] theorem Dev.flag_updCtx (n : Nat) (g : ColCtx → ColCtx) (fld : Fld) (ins : Nat) : (d.updCtx n g).flag fld ins = d.flag fld ins := rfl
@[simp] theorem Dev.reg_updCtx (n : Nat) (g : ColCtx → ColCtx) (reg_ ins : Nat) : (d.updCtx n g).reg reg_ ins = d.reg reg_ ins := rfl
@[simp] theorem Dev.thr_updCtx (n : Nat) (g : ColCtx → ColCtx) (thn : Nat) : (d.updCtx n g).thr thn = d.thr thn := rfl
@[simp] theorem Dev.halted_updCtx (n : Nat) (g : ColCtx → ColCtx) : (d.updCtx n g).halted = d.halted := rfl
@[simp] theorem Dev.dark_updCtx (n : Nat) (g : ColCtx → ColCtx) : (d.updCtx n g).dark = d.dark := rfl

@[simp] theorem Dev.rd_setChan (c : Nat) (x : Chan) (fld : Fld) (ins : Nat) : (d.setChan c x).rd fld ins = d.rd fld ins := rfl
@[simp] theorem Dev.flag_setChan (c : Nat) (x : Chan) (fld : Fld) (ins : Nat) : (d.setChan c x).flag fld ins = d.flag fld ins := rfl
@[simp] theorem Dev.reg_setChan (c : Nat) (x : Chan) (reg_ ins : Nat) : (d.setChan c x).reg reg_ ins = d.reg reg_ ins := rfl
@[simp] theorem Dev.thr_setChan (c : Nat) (x : Chan) (thn : Nat) : (d.setChan c x).thr thn = d.thr thn := rfl
@[simp] theorem Dev.halted_setChan (c : Nat) (x : Chan) : (d.setChan c x).halted = d.halted := rfl
@[simp] theorem Dev.dark_setChan (c : Nat) (x : Chan) : (d.setChan c x).dark = d.dark := rfl

@[simp] theorem Dev.rd_updChan (c : Nat) (g : Chan → Chan) (fld : Fld) (ins : Nat) : (d.updChan c g).rd fld ins = d.rd fld ins := rfl
@[simp] theorem Dev.flag_updChan (c : Nat) (g : Chan → Chan) (fld : Fld) (ins : Nat) : (d.updChan c g).flag fld ins = d.flag fld ins := rfl
@[simp] theorem Dev.reg_updChan (c : Nat) (g : Chan → Chan) (reg_ ins : Nat) : (d.updChan c g).reg reg_ ins = d.reg reg_ ins := rfl
@[simp] theorem Dev.thr_updChan (c : Nat) (g : Chan → Chan) (thn : Nat) : (d.updChan c g).thr thn = d.thr thn := rfl
@[simp] theorem Dev.halted_updChan (c : Nat) (g : Chan → Chan) : (d.updChan c g).halted = d.halted := rfl
@[simp] theorem Dev.dark_updChan (c : Nat) (g : Chan → Chan) : (d.updChan c g).dark = d.dark := rfl

@[simp] theorem Dev.rd_setPiton (n : Nat) (p : Piton) (fld : Fld) (ins : Nat) : (d.setPiton n p).rd fld ins = d.rd fld ins := rfl
@[simp] theorem Dev.flag_setPiton (n : Nat) (p : Piton) (fld : Fld) (ins : Nat) : (d.setPiton n p).flag fld ins = d.flag fld ins := rfl
@[simp] theorem Dev.reg_setPiton (n : Nat) (p : Piton) (reg_ ins : Nat) : (d.setPiton n p).reg reg_ ins = d.reg reg_ ins := rfl
@[simp] theorem Dev.thr_setPiton (n : Nat) (p : Piton) (thn : Nat) : (d.setPiton n p).thr thn = d.thr thn := rfl
@[simp] theorem Dev.halted_setPiton (n : Nat) (p : Piton) : (d.setPiton n p).halted = d.halted := rfl
@[simp] theorem Dev.dark_setPiton (n : Nat) (p : Piton) : (d.setPiton n p).dark = d.dark := rfl

@[simp] theorem Dev.rd_setArb (k : Nat) (x : Arb) (fld : Fld) (ins : Nat) : (d.setArb k x).rd fld ins = d.rd fld ins := rfl
@[simp] theorem Dev.flag_setArb (k : Nat) (x : Arb) (fld : Fld) (ins : Nat) : (d.setArb k x).flag fld ins = d.flag fld ins := rfl
@[simp] theorem Dev.reg_setArb (k : Nat) (x : Arb) (reg_ ins : Nat) : (d.setArb k x).reg reg_ ins = d.reg reg_ ins := rfl
@[simp] theorem Dev.thr_setArb (k : Nat) (x : Arb) (thn : Nat) : (d.setArb k x).thr thn = d.thr thn := rfl
@[simp] theorem Dev.halted_setArb (k : Nat) (x : Arb) : (d.setArb k x).halted = d.halted := rfl
@[simp] theorem Dev.dark_setArb (k : Nat) (x : Arb) : (d.setArb k x).dark = d.dark := rfl

@[simp] theorem Dev.rd_updRope (r : Nat) (g : Rope → Rope) (fld : Fld) (ins : Nat) : (d.updRope r g).rd fld ins = d.rd fld ins := rfl
@[simp] theorem Dev.flag_updRope (r : Nat) (g : Rope → Rope) (fld : Fld) (ins : Nat) : (d.updRope r g).flag fld ins = d.flag fld ins := rfl
@[simp] theorem Dev.reg_updRope (r : Nat) (g : Rope → Rope) (reg_ ins : Nat) : (d.updRope r g).reg reg_ ins = d.reg reg_ ins := rfl
@[simp] theorem Dev.thr_updRope (r : Nat) (g : Rope → Rope) (thn : Nat) : (d.updRope r g).thr thn = d.thr thn := rfl
@[simp] theorem Dev.halted_updRope (r : Nat) (g : Rope → Rope) : (d.updRope r g).halted = d.halted := rfl
@[simp] theorem Dev.dark_updRope (r : Nat) (g : Rope → Rope) : (d.updRope r g).dark = d.dark := rfl

end Sys2Proof.Machine
end

