-- ==== Sys2Proof/Laws/Tbl.lean ====
section
/-! SUPPORT. Sparse tables: a read after a write, and the canonical form under every table operation. -/

namespace Sys2Proof.Machine

variable {α : Type}

theorem Tbl.find_put_self (k : Nat) (v : α) (t : Tbl α) : Tbl.find (Tbl.put k v t) k = some v := by
  induction t with
  | nil => simp [Tbl.put, Tbl.find]
  | cons e t ih =>
    obtain ⟨j, u⟩ := e
    unfold Tbl.put
    split
    · simp [Tbl.find]
    · split
      · simp [Tbl.find]
      · rename_i h
        simp [Tbl.find, h, ih]

theorem Tbl.find_put_ne {k n : Nat} (v : α) (t : Tbl α) (h : n ≠ k) :
    Tbl.find (Tbl.put k v t) n = Tbl.find t n := by
  induction t with
  | nil => simp [Tbl.put, Tbl.find, h.symm]
  | cons e t ih =>
    obtain ⟨j, u⟩ := e
    unfold Tbl.put
    split
    · simp [Tbl.find, h.symm]
    · split
      · rename_i hj
        subst hj
        simp [Tbl.find, h.symm]
      · simp [Tbl.find, ih]

theorem Tbl.find_del_self (k : Nat) (t : Tbl α) : Tbl.find (Tbl.del k t) k = none := by
  induction t with
  | nil => rfl
  | cons e t ih =>
    obtain ⟨j, u⟩ := e
    by_cases h : j = k
    · simpa [Tbl.del, h] using ih
    · simpa [Tbl.del, Tbl.find, h] using ih

theorem Tbl.find_del_ne {k n : Nat} (t : Tbl α) (h : n ≠ k) : Tbl.find (Tbl.del k t) n = Tbl.find t n := by
  induction t with
  | nil => rfl
  | cons e t ih =>
    obtain ⟨j, u⟩ := e
    by_cases hj : j = k
    · subst hj
      simpa [Tbl.del, Tbl.find, h.symm] using ih
    · by_cases hn : j = n
      · simp [Tbl.del, Tbl.find, hn, h]
      · simpa [Tbl.del, Tbl.find, hj, hn] using ih

@[simp] theorem Tbl.get_put_self (d v : α) (k : Nat) (t : Tbl α) : Tbl.get (Tbl.put k v t) d k = v := by
  simp [Tbl.get, Tbl.find_put_self]

/-- A read after a write of the same key gives the value written. -/
@[simp] theorem Tbl.get_set_self [DecidableEq α] (d v : α) (k : Nat) (t : Tbl α) : Tbl.get (Tbl.set d k v t) d k = v := by
  unfold Tbl.set Tbl.get
  split
  · rename_i h
    simp [Tbl.find_del_self, h]
  · simp [Tbl.find_put_self]

/-- A write leaves every other key alone. -/
@[simp] theorem Tbl.get_set_ne [DecidableEq α] (d v : α) {k n : Nat} (t : Tbl α) (h : n ≠ k) :
    Tbl.get (Tbl.set d k v t) d n = Tbl.get t d n := by
  unfold Tbl.set Tbl.get
  split
  · rw [Tbl.find_del_ne t h]
  · rw [Tbl.find_put_ne v t h]

theorem Tbl.mem_put {k : Nat} {v : α} {t : Tbl α} {e : Nat × α} (h : e ∈ Tbl.put k v t) : e = (k, v) ∨ e ∈ t := by
  induction t with
  | nil => simpa [Tbl.put] using h
  | cons x t ih =>
    obtain ⟨j, u⟩ := x
    unfold Tbl.put at h
    split at h
    · simpa using h
    · split at h
      · rcases List.mem_cons.mp h with h | h
        · exact .inl h
        · exact .inr (List.mem_cons_of_mem _ h)
      · rcases List.mem_cons.mp h with h | h
        · exact .inr (by simp [h])
        · exact (ih h).imp id (List.mem_cons_of_mem _)

/-- Keys stay strictly rising under an insertion. -/
theorem Tbl.pairwise_put (k : Nat) (v : α) (t : Tbl α) (h : t.Pairwise (fun a b => a.1 < b.1)) :
    (Tbl.put k v t).Pairwise (fun a b => a.1 < b.1) := by
  induction t with
  | nil => simp [Tbl.put]
  | cons x t ih =>
    obtain ⟨j, u⟩ := x
    have ht := List.pairwise_cons.mp h
    unfold Tbl.put
    split
    · rename_i hk
      refine List.pairwise_cons.mpr ⟨?_, h⟩
      intro e he
      rcases List.mem_cons.mp he with rfl | he
      · exact hk
      · exact lt_trans hk (ht.1 e he)
    · split
      · rename_i hj
        subst hj
        exact List.pairwise_cons.mpr ⟨fun e he => ht.1 e he, ht.2⟩
      · rename_i h1 h2
        refine List.pairwise_cons.mpr ⟨?_, ih ht.2⟩
        intro e he
        rcases Tbl.mem_put he with rfl | he
        · show j < k
          omega
        · exact ht.1 e he

theorem Tbl.pairwise_del (k : Nat) (t : Tbl α) (h : t.Pairwise (fun a b => a.1 < b.1)) :
    (Tbl.del k t).Pairwise (fun a b => a.1 < b.1) := h.filter _

/-- Every write keeps the canonical form. -/
theorem Tbl.wf_set [DecidableEq α] (d v : α) (k : Nat) (t : Tbl α) (h : Tbl.wf d t) : Tbl.wf d (Tbl.set d k v t) := by
  unfold Tbl.set
  split
  · exact ⟨Tbl.pairwise_del k t h.1, fun e he => h.2 e (List.mem_filter.mp he).1⟩
  · rename_i hv
    refine ⟨Tbl.pairwise_put k v t h.1, fun e he => ?_⟩
    rcases Tbl.mem_put he with rfl | he
    · exact hv
    · exact h.2 e he

end Sys2Proof.Machine
end

