-- ==== Sys2Proof/Laws/Regs.lean ====
section
/-! SUPPORT. Bit fields and registers: a field reads what was written to it, and nothing else changes. -/

namespace Sys2Proof.Machine

theorem maskW_getLsbD (w i : Nat) : (maskW w).getLsbD i = (decide (i < 64) && decide (i < w)) := by
  rw [maskW, BitVec.getLsbD_ofNat, Nat.testBit_two_pow_sub_one]

theorem getBits_eq_extract (x : Word) (lo w : Nat) : getBits x lo w = (x.extractLsb' lo w).toNat := by
  simp [getBits, BitVec.extractLsb'_toNat, Nat.shiftRight_eq_div_pow]

theorem setBits_getLsbD (x : Word) (lo w v i : Nat) :
    (setBits x lo w v).getLsbD i =
      if lo ≤ i ∧ i < lo + w ∧ i < 64 then v.testBit (i - lo) else x.getLsbD i := by
  unfold setBits
  by_cases hi : i < 64
  · by_cases hl : lo ≤ i
    · by_cases hw : i < lo + w
      · have h1 : i - lo < w := by omega
        have h2 : i - lo < 64 := by omega
        have h3 : ¬ i < lo := by omega
        simp [-BitVec.getLsbD_eq_getElem, BitVec.getLsbD_ofNat, hi, hl, hw, maskW_getLsbD, h1, h2, h3, Nat.testBit_mod_two_pow]
      · have h1 : ¬ i - lo < w := by omega
        have h3 : ¬ i < lo := by omega
        simp [-BitVec.getLsbD_eq_getElem, BitVec.getLsbD_ofNat, hi, hl, hw, maskW_getLsbD, h1, h3, Nat.testBit_mod_two_pow]
    · have h3 : i < lo := by omega
      simp [-BitVec.getLsbD_eq_getElem, hi, hl, maskW_getLsbD, h3]
  · have h0 : x.getLsbD i = false := BitVec.getLsbD_of_ge _ _ (by omega)
    simp [-BitVec.getLsbD_eq_getElem, hi, h0]

/-- A field reads what was written to it. -/
theorem getBits_setBits_self (x : Word) {lo w : Nat} (v : Nat) (h : lo + w ≤ 64) :
    getBits (setBits x lo w v) lo w = v % 2 ^ w := by
  rw [getBits_eq_extract]
  have : (setBits x lo w v).extractLsb' lo w = BitVec.ofNat w v := by
    apply BitVec.eq_of_getLsbD_eq
    intro i hi
    rw [BitVec.getLsbD_extractLsb', setBits_getLsbD]
    have h1 : lo + i < 64 := by omega
    simp [-BitVec.getLsbD_eq_getElem, BitVec.getLsbD_ofNat, hi, h1]
  rw [this, BitVec.toNat_ofNat]

/-- A field that does not overlap the one written is unchanged. -/
theorem getBits_setBits_disjoint (x : Word) {lo w lo' w' : Nat} (v : Nat) (h : lo' + w' ≤ lo ∨ lo + w ≤ lo') :
    getBits (setBits x lo w v) lo' w' = getBits x lo' w' := by
  rw [getBits_eq_extract, getBits_eq_extract]
  congr 1
  apply BitVec.eq_of_getLsbD_eq
  intro i hi
  rw [BitVec.getLsbD_extractLsb', BitVec.getLsbD_extractLsb', setBits_getLsbD]
  have : ¬ (lo ≤ lo' + i ∧ lo' + i < lo + w ∧ lo' + i < 64) := by omega
  simp [this]

/-! ### Registers -/

@[simp] theorem Dev.reg_setReg_self (d : Dev) (r i : Nat) (v : Word) : (d.setReg r i v).reg r i = v := by
  simp [Dev.reg, Dev.setReg]

theorem Dev.reg_setReg_ne (d : Dev) {r i r' i' : Nat} (v : Word) (h : i' * 256 + r' ≠ i * 256 + r) :
    (d.setReg r i v).reg r' i' = d.reg r' i' := by
  simp [Dev.reg, Dev.setReg, Tbl.get_set_ne _ _ _ h, h]
  unfold Tbl.set Tbl.get
  split
  · rw [Tbl.find_del_ne _ h]
  · rw [Tbl.find_put_ne _ _ h]

/-- A field of a register reads what was written to it. -/
theorem Dev.rd_wr_self (d : Dev) (f : Fld) (i v : Nat) (h : f.lo + f.w ≤ 64) : (d.wr f i v).rd f i = v % 2 ^ f.w := by
  simp only [Dev.rd, Dev.wr, Dev.reg_setReg_self]
  exact getBits_setBits_self _ v h

/-- A field of another register is unchanged. -/
theorem Dev.rd_wr_reg (d : Dev) (f g : Fld) (i j v : Nat) (h : j * 256 + g.reg ≠ i * 256 + f.reg) :
    (d.wr f i v).rd g j = d.rd g j := by
  simp only [Dev.rd, Dev.wr]
  rw [Dev.reg_setReg_ne _ _ h]

/-- A field of another register is unchanged, whichever the instances. -/
theorem Dev.rd_wr_other (d : Dev) (f g : Fld) (i j v : Nat) (h : g.reg ≠ f.reg ∧ g.reg < 256 ∧ f.reg < 256) :
    (d.wr f i v).rd g j = d.rd g j := Dev.rd_wr_reg d f g i j v (by omega)

/-- A field of another instance is unchanged. -/
theorem Dev.rd_wr_inst (d : Dev) (f g : Fld) {i j : Nat} (v : Nat) (hi : j ≠ i) (h : g.reg < 256 ∧ f.reg < 256) :
    (d.wr f i v).rd g j = d.rd g j := Dev.rd_wr_reg d f g i j v (by omega)

theorem Dev.reg_wr_other (d : Dev) (f : Fld) (r i j v : Nat) (h : r ≠ f.reg ∧ r < 256 ∧ f.reg < 256) :
    (d.wr f i v).reg r j = d.reg r j := by
  unfold Dev.wr
  exact Dev.reg_setReg_ne d _ (by omega)

theorem Dev.rd_setReg_other (d : Dev) (f : Fld) (r i j : Nat) (v : Word) (h : f.reg ≠ r ∧ f.reg < 256 ∧ r < 256) :
    (d.setReg r i v).rd f j = d.rd f j := by
  unfold Dev.rd
  rw [Dev.reg_setReg_ne d v (by omega)]

/-- Another field of the same register is unchanged. -/
theorem Dev.rd_wr_fld (d : Dev) (f g : Fld) (i v : Nat) (hr : g.reg = f.reg) (h : g.lo + g.w ≤ f.lo ∨ f.lo + f.w ≤ g.lo) :
    (d.wr f i v).rd g i = d.rd g i := by
  simp only [Dev.rd, Dev.wr, hr, Dev.reg_setReg_self]
  exact getBits_setBits_disjoint _ v h

/-- A field of an update that leaves the registers alone. -/
theorem Dev.rd_congr {d e : Dev} (h : d.regs = e.regs) (f : Fld) (i : Nat) : d.rd f i = e.rd f i := by
  simp [Dev.rd, Dev.reg, h]

end Sys2Proof.Machine
end

