-- ==== Sys2Proof/Laws/Telemetry.lean ====
section
/-! SUPPORT. Telemetry counts change the counters of the PMC block and nothing else. -/

namespace Sys2Proof.Machine

variable (d : Dev)

/-- What every advance of a counter keeps, an occurrence of an event keeps. -/
theorem Dev.ev_inv {α : Type} (P : Dev → α) (h : ∀ d k n, P (Dev.pmcAdd d k n) = P d) (block ev : Nat) (inst fn : Option Nat)
    (n : Nat) : P (d.ev block ev inst fn n) = P d := by
  unfold Dev.ev
  generalize d.listed R.PMC_CTR_CFG = l
  induction l generalizing d with
  | nil => rfl
  | cons e l ih =>
    rw [List.foldl_cons, ih]
    split
    · exact h _ _ _
    · rfl

@[simp] theorem Dev.pmcAdd_force (k n : Nat) : (d.pmcAdd k n).force = d.force := by
  unfold Dev.pmcAdd; simp only []; split <;> rfl
@[simp] theorem Dev.pmcAdd_ps (k n : Nat) : (d.pmcAdd k n).ps = d.ps := by
  unfold Dev.pmcAdd; simp only []; split <;> rfl
@[simp] theorem Dev.pmcAdd_ft (k n : Nat) : (d.pmcAdd k n).ft = d.ft := by
  unfold Dev.pmcAdd; simp only []; split <;> rfl
@[simp] theorem Dev.pmcAdd_fresh (k n : Nat) : (d.pmcAdd k n).fresh = d.fresh := by
  unfold Dev.pmcAdd; simp only []; split <;> rfl
@[simp] theorem Dev.pmcAdd_log (k n : Nat) : (d.pmcAdd k n).log = d.log := by
  unfold Dev.pmcAdd; simp only []; split <;> rfl
@[simp] theorem Dev.pmcAdd_pwr (k n : Nat) : (d.pmcAdd k n).pwr = d.pwr := by
  unfold Dev.pmcAdd; simp only []; split <;> rfl
@[simp] theorem Dev.pmcAdd_host (k n : Nat) : (d.pmcAdd k n).host = d.host := by
  unfold Dev.pmcAdd; simp only []; split <;> rfl
@[simp] theorem Dev.pmcAdd_reads (k n : Nat) : (d.pmcAdd k n).reads = d.reads := by
  unfold Dev.pmcAdd; simp only []; split <;> rfl
@[simp] theorem Dev.pmcAdd_nextTag (k n : Nat) : (d.pmcAdd k n).nextTag = d.nextTag := by
  unfold Dev.pmcAdd; simp only []; split <;> rfl
@[simp] theorem Dev.pmcAdd_int (k n : Nat) : (d.pmcAdd k n).int = d.int := by
  unfold Dev.pmcAdd; simp only []; split <;> rfl
@[simp] theorem Dev.pmcAdd_dep (k n : Nat) : (d.pmcAdd k n).dep = d.dep := by
  unfold Dev.pmcAdd; simp only []; split <;> rfl
@[simp] theorem Dev.pmcAdd_eng (k n : Nat) : (d.pmcAdd k n).eng = d.eng := by
  unfold Dev.pmcAdd; simp only []; split <;> rfl
@[simp] theorem Dev.pmcAdd_wq (k n : Nat) : (d.pmcAdd k n).wq = d.wq := by
  unfold Dev.pmcAdd; simp only []; split <;> rfl
@[simp] theorem Dev.pmcAdd_xlt (k n : Nat) : (d.pmcAdd k n).xlt = d.xlt := by
  unfold Dev.pmcAdd; simp only []; split <;> rfl
@[simp] theorem Dev.pmcAdd_win (k n : Nat) : (d.pmcAdd k n).win = d.win := by
  unfold Dev.pmcAdd; simp only []; split <;> rfl
@[simp] theorem Dev.pmcAdd_dma (k n : Nat) : (d.pmcAdd k n).dma = d.dma := by
  unfold Dev.pmcAdd; simp only []; split <;> rfl
@[simp] theorem Dev.pmcAdd_rma (k n : Nat) : (d.pmcAdd k n).rma = d.rma := by
  unfold Dev.pmcAdd; simp only []; split <;> rfl
@[simp] theorem Dev.pmcAdd_cc (k n : Nat) : (d.pmcAdd k n).cc = d.cc := by
  unfold Dev.pmcAdd; simp only []; split <;> rfl
@[simp] theorem Dev.pmcAdd_mtc (k n : Nat) : (d.pmcAdd k n).mtc = d.mtc := by
  unfold Dev.pmcAdd; simp only []; split <;> rfl
@[simp] theorem Dev.pmcAdd_col (k n : Nat) : (d.pmcAdd k n).col = d.col := by
  unfold Dev.pmcAdd; simp only []; split <;> rfl
@[simp] theorem Dev.pmcAdd_ports (k n : Nat) : (d.pmcAdd k n).ports = d.ports := by
  unfold Dev.pmcAdd; simp only []; split <;> rfl
@[simp] theorem Dev.pmcAdd_sch (k n : Nat) : (d.pmcAdd k n).sch = d.sch := by
  unfold Dev.pmcAdd; simp only []; split <;> rfl
@[simp] theorem Dev.pmcAdd_rte (k n : Nat) : (d.pmcAdd k n).rte = d.rte := by
  unfold Dev.pmcAdd; simp only []; split <;> rfl
@[simp] theorem Dev.pmcAdd_ropes (k n : Nat) : (d.pmcAdd k n).ropes = d.ropes := by
  unfold Dev.pmcAdd; simp only []; split <;> rfl
@[simp] theorem Dev.pmcAdd_time (k n : Nat) : (d.pmcAdd k n).time = d.time := by
  unfold Dev.pmcAdd; simp only []; split <;> rfl
@[simp] theorem Dev.pmcAdd_bcp (k n : Nat) : (d.pmcAdd k n).bcp = d.bcp := by
  unfold Dev.pmcAdd; simp only []; split <;> rfl
@[simp] theorem Dev.pmcAdd_flt (k n : Nat) : (d.pmcAdd k n).flt = d.flt := by
  unfold Dev.pmcAdd; simp only []; split <;> rfl
@[simp] theorem Dev.pmcAdd_pmc (k n : Nat) : (d.pmcAdd k n).pmc = d.pmc := by
  unfold Dev.pmcAdd; simp only []; split <;> rfl

@[simp] theorem Dev.ev_force (b e : Nat) (i g : Option Nat) (n : Nat) : (d.ev b e i g n).force = d.force := by
  exact Dev.ev_inv d (fun d => d.force) (fun d k n => Dev.pmcAdd_force d k n) b e i g n
@[simp] theorem Dev.ev_ps (b e : Nat) (i g : Option Nat) (n : Nat) : (d.ev b e i g n).ps = d.ps := by
  exact Dev.ev_inv d (fun d => d.ps) (fun d k n => Dev.pmcAdd_ps d k n) b e i g n
@[simp] theorem Dev.ev_ft (b e : Nat) (i g : Option Nat) (n : Nat) : (d.ev b e i g n).ft = d.ft := by
  exact Dev.ev_inv d (fun d => d.ft) (fun d k n => Dev.pmcAdd_ft d k n) b e i g n
@[simp] theorem Dev.ev_fresh (b e : Nat) (i g : Option Nat) (n : Nat) : (d.ev b e i g n).fresh = d.fresh := by
  exact Dev.ev_inv d (fun d => d.fresh) (fun d k n => Dev.pmcAdd_fresh d k n) b e i g n
@[simp] theorem Dev.ev_log (b e : Nat) (i g : Option Nat) (n : Nat) : (d.ev b e i g n).log = d.log := by
  exact Dev.ev_inv d (fun d => d.log) (fun d k n => Dev.pmcAdd_log d k n) b e i g n
@[simp] theorem Dev.ev_pwr (b e : Nat) (i g : Option Nat) (n : Nat) : (d.ev b e i g n).pwr = d.pwr := by
  exact Dev.ev_inv d (fun d => d.pwr) (fun d k n => Dev.pmcAdd_pwr d k n) b e i g n
@[simp] theorem Dev.ev_host (b e : Nat) (i g : Option Nat) (n : Nat) : (d.ev b e i g n).host = d.host := by
  exact Dev.ev_inv d (fun d => d.host) (fun d k n => Dev.pmcAdd_host d k n) b e i g n
@[simp] theorem Dev.ev_reads (b e : Nat) (i g : Option Nat) (n : Nat) : (d.ev b e i g n).reads = d.reads := by
  exact Dev.ev_inv d (fun d => d.reads) (fun d k n => Dev.pmcAdd_reads d k n) b e i g n
@[simp] theorem Dev.ev_nextTag (b e : Nat) (i g : Option Nat) (n : Nat) : (d.ev b e i g n).nextTag = d.nextTag := by
  exact Dev.ev_inv d (fun d => d.nextTag) (fun d k n => Dev.pmcAdd_nextTag d k n) b e i g n
@[simp] theorem Dev.ev_int (b e : Nat) (i g : Option Nat) (n : Nat) : (d.ev b e i g n).int = d.int := by
  exact Dev.ev_inv d (fun d => d.int) (fun d k n => Dev.pmcAdd_int d k n) b e i g n
@[simp] theorem Dev.ev_dep (b e : Nat) (i g : Option Nat) (n : Nat) : (d.ev b e i g n).dep = d.dep := by
  exact Dev.ev_inv d (fun d => d.dep) (fun d k n => Dev.pmcAdd_dep d k n) b e i g n
@[simp] theorem Dev.ev_eng (b e : Nat) (i g : Option Nat) (n : Nat) : (d.ev b e i g n).eng = d.eng := by
  exact Dev.ev_inv d (fun d => d.eng) (fun d k n => Dev.pmcAdd_eng d k n) b e i g n
@[simp] theorem Dev.ev_wq (b e : Nat) (i g : Option Nat) (n : Nat) : (d.ev b e i g n).wq = d.wq := by
  exact Dev.ev_inv d (fun d => d.wq) (fun d k n => Dev.pmcAdd_wq d k n) b e i g n
@[simp] theorem Dev.ev_xlt (b e : Nat) (i g : Option Nat) (n : Nat) : (d.ev b e i g n).xlt = d.xlt := by
  exact Dev.ev_inv d (fun d => d.xlt) (fun d k n => Dev.pmcAdd_xlt d k n) b e i g n
@[simp] theorem Dev.ev_win (b e : Nat) (i g : Option Nat) (n : Nat) : (d.ev b e i g n).win = d.win := by
  exact Dev.ev_inv d (fun d => d.win) (fun d k n => Dev.pmcAdd_win d k n) b e i g n
@[simp] theorem Dev.ev_dma (b e : Nat) (i g : Option Nat) (n : Nat) : (d.ev b e i g n).dma = d.dma := by
  exact Dev.ev_inv d (fun d => d.dma) (fun d k n => Dev.pmcAdd_dma d k n) b e i g n
@[simp] theorem Dev.ev_rma (b e : Nat) (i g : Option Nat) (n : Nat) : (d.ev b e i g n).rma = d.rma := by
  exact Dev.ev_inv d (fun d => d.rma) (fun d k n => Dev.pmcAdd_rma d k n) b e i g n
@[simp] theorem Dev.ev_cc (b e : Nat) (i g : Option Nat) (n : Nat) : (d.ev b e i g n).cc = d.cc := by
  exact Dev.ev_inv d (fun d => d.cc) (fun d k n => Dev.pmcAdd_cc d k n) b e i g n
@[simp] theorem Dev.ev_mtc (b e : Nat) (i g : Option Nat) (n : Nat) : (d.ev b e i g n).mtc = d.mtc := by
  exact Dev.ev_inv d (fun d => d.mtc) (fun d k n => Dev.pmcAdd_mtc d k n) b e i g n
@[simp] theorem Dev.ev_col (b e : Nat) (i g : Option Nat) (n : Nat) : (d.ev b e i g n).col = d.col := by
  exact Dev.ev_inv d (fun d => d.col) (fun d k n => Dev.pmcAdd_col d k n) b e i g n
@[simp] theorem Dev.ev_ports (b e : Nat) (i g : Option Nat) (n : Nat) : (d.ev b e i g n).ports = d.ports := by
  exact Dev.ev_inv d (fun d => d.ports) (fun d k n => Dev.pmcAdd_ports d k n) b e i g n
@[simp] theorem Dev.ev_sch (b e : Nat) (i g : Option Nat) (n : Nat) : (d.ev b e i g n).sch = d.sch := by
  exact Dev.ev_inv d (fun d => d.sch) (fun d k n => Dev.pmcAdd_sch d k n) b e i g n
@[simp] theorem Dev.ev_rte (b e : Nat) (i g : Option Nat) (n : Nat) : (d.ev b e i g n).rte = d.rte := by
  exact Dev.ev_inv d (fun d => d.rte) (fun d k n => Dev.pmcAdd_rte d k n) b e i g n
@[simp] theorem Dev.ev_ropes (b e : Nat) (i g : Option Nat) (n : Nat) : (d.ev b e i g n).ropes = d.ropes := by
  exact Dev.ev_inv d (fun d => d.ropes) (fun d k n => Dev.pmcAdd_ropes d k n) b e i g n
@[simp] theorem Dev.ev_time (b e : Nat) (i g : Option Nat) (n : Nat) : (d.ev b e i g n).time = d.time := by
  exact Dev.ev_inv d (fun d => d.time) (fun d k n => Dev.pmcAdd_time d k n) b e i g n
@[simp] theorem Dev.ev_bcp (b e : Nat) (i g : Option Nat) (n : Nat) : (d.ev b e i g n).bcp = d.bcp := by
  exact Dev.ev_inv d (fun d => d.bcp) (fun d k n => Dev.pmcAdd_bcp d k n) b e i g n
@[simp] theorem Dev.ev_flt (b e : Nat) (i g : Option Nat) (n : Nat) : (d.ev b e i g n).flt = d.flt := by
  exact Dev.ev_inv d (fun d => d.flt) (fun d k n => Dev.pmcAdd_flt d k n) b e i g n
@[simp] theorem Dev.ev_pmc (b e : Nat) (i g : Option Nat) (n : Nat) : (d.ev b e i g n).pmc = d.pmc := by
  exact Dev.ev_inv d (fun d => d.pmc) (fun d k n => Dev.pmcAdd_pmc d k n) b e i g n

@[simp] theorem Dev.fnCount_force (g i n : Nat) : (d.fnCount g i n).force = d.force := by
  unfold Dev.fnCount; simp only []; split <;> rfl
@[simp] theorem Dev.fnCount_ps (g i n : Nat) : (d.fnCount g i n).ps = d.ps := by
  unfold Dev.fnCount; simp only []; split <;> rfl
@[simp] theorem Dev.fnCount_ft (g i n : Nat) : (d.fnCount g i n).ft = d.ft := by
  unfold Dev.fnCount; simp only []; split <;> rfl
@[simp] theorem Dev.fnCount_fresh (g i n : Nat) : (d.fnCount g i n).fresh = d.fresh := by
  unfold Dev.fnCount; simp only []; split <;> rfl
@[simp] theorem Dev.fnCount_log (g i n : Nat) : (d.fnCount g i n).log = d.log := by
  unfold Dev.fnCount; simp only []; split <;> rfl
@[simp] theorem Dev.fnCount_pwr (g i n : Nat) : (d.fnCount g i n).pwr = d.pwr := by
  unfold Dev.fnCount; simp only []; split <;> rfl
@[simp] theorem Dev.fnCount_host (g i n : Nat) : (d.fnCount g i n).host = d.host := by
  unfold Dev.fnCount; simp only []; split <;> rfl
@[simp] theorem Dev.fnCount_reads (g i n : Nat) : (d.fnCount g i n).reads = d.reads := by
  unfold Dev.fnCount; simp only []; split <;> rfl
@[simp] theorem Dev.fnCount_nextTag (g i n : Nat) : (d.fnCount g i n).nextTag = d.nextTag := by
  unfold Dev.fnCount; simp only []; split <;> rfl
@[simp] theorem Dev.fnCount_int (g i n : Nat) : (d.fnCount g i n).int = d.int := by
  unfold Dev.fnCount; simp only []; split <;> rfl
@[simp] theorem Dev.fnCount_dep (g i n : Nat) : (d.fnCount g i n).dep = d.dep := by
  unfold Dev.fnCount; simp only []; split <;> rfl
@[simp] theorem Dev.fnCount_eng (g i n : Nat) : (d.fnCount g i n).eng = d.eng := by
  unfold Dev.fnCount; simp only []; split <;> rfl
@[simp] theorem Dev.fnCount_wq (g i n : Nat) : (d.fnCount g i n).wq = d.wq := by
  unfold Dev.fnCount; simp only []; split <;> rfl
@[simp] theorem Dev.fnCount_xlt (g i n : Nat) : (d.fnCount g i n).xlt = d.xlt := by
  unfold Dev.fnCount; simp only []; split <;> rfl
@[simp] theorem Dev.fnCount_win (g i n : Nat) : (d.fnCount g i n).win = d.win := by
  unfold Dev.fnCount; simp only []; split <;> rfl
@[simp] theorem Dev.fnCount_dma (g i n : Nat) : (d.fnCount g i n).dma = d.dma := by
  unfold Dev.fnCount; simp only []; split <;> rfl
@[simp] theorem Dev.fnCount_rma (g i n : Nat) : (d.fnCount g i n).rma = d.rma := by
  unfold Dev.fnCount; simp only []; split <;> rfl
@[simp] theorem Dev.fnCount_cc (g i n : Nat) : (d.fnCount g i n).cc = d.cc := by
  unfold Dev.fnCount; simp only []; split <;> rfl
@[simp] theorem Dev.fnCount_mtc (g i n : Nat) : (d.fnCount g i n).mtc = d.mtc := by
  unfold Dev.fnCount; simp only []; split <;> rfl
@[simp] theorem Dev.fnCount_col (g i n : Nat) : (d.fnCount g i n).col = d.col := by
  unfold Dev.fnCount; simp only []; split <;> rfl
@[simp] theorem Dev.fnCount_ports (g i n : Nat) : (d.fnCount g i n).ports = d.ports := by
  unfold Dev.fnCount; simp only []; split <;> rfl
@[simp] theorem Dev.fnCount_sch (g i n : Nat) : (d.fnCount g i n).sch = d.sch := by
  unfold Dev.fnCount; simp only []; split <;> rfl
@[simp] theorem Dev.fnCount_rte (g i n : Nat) : (d.fnCount g i n).rte = d.rte := by
  unfold Dev.fnCount; simp only []; split <;> rfl
@[simp] theorem Dev.fnCount_ropes (g i n : Nat) : (d.fnCount g i n).ropes = d.ropes := by
  unfold Dev.fnCount; simp only []; split <;> rfl
@[simp] theorem Dev.fnCount_time (g i n : Nat) : (d.fnCount g i n).time = d.time := by
  unfold Dev.fnCount; simp only []; split <;> rfl
@[simp] theorem Dev.fnCount_bcp (g i n : Nat) : (d.fnCount g i n).bcp = d.bcp := by
  unfold Dev.fnCount; simp only []; split <;> rfl
@[simp] theorem Dev.fnCount_flt (g i n : Nat) : (d.fnCount g i n).flt = d.flt := by
  unfold Dev.fnCount; simp only []; split <;> rfl
@[simp] theorem Dev.fnCount_pmc (g i n : Nat) : (d.fnCount g i n).pmc = d.pmc := by
  unfold Dev.fnCount; simp only []; split <;> rfl

@[simp] theorem Dev.retired_force (th : Nat) : (d.retired th).force = d.force := by
  unfold Dev.retired; split <;> simp
@[simp] theorem Dev.retired_ps (th : Nat) : (d.retired th).ps = d.ps := by
  unfold Dev.retired; split <;> simp
@[simp] theorem Dev.retired_ft (th : Nat) : (d.retired th).ft = d.ft := by
  unfold Dev.retired; split <;> simp
@[simp] theorem Dev.retired_fresh (th : Nat) : (d.retired th).fresh = d.fresh := by
  unfold Dev.retired; split <;> simp
@[simp] theorem Dev.retired_log (th : Nat) : (d.retired th).log = d.log := by
  unfold Dev.retired; split <;> simp
@[simp] theorem Dev.retired_pwr (th : Nat) : (d.retired th).pwr = d.pwr := by
  unfold Dev.retired; split <;> simp
@[simp] theorem Dev.retired_host (th : Nat) : (d.retired th).host = d.host := by
  unfold Dev.retired; split <;> simp
@[simp] theorem Dev.retired_reads (th : Nat) : (d.retired th).reads = d.reads := by
  unfold Dev.retired; split <;> simp
@[simp] theorem Dev.retired_nextTag (th : Nat) : (d.retired th).nextTag = d.nextTag := by
  unfold Dev.retired; split <;> simp
@[simp] theorem Dev.retired_int (th : Nat) : (d.retired th).int = d.int := by
  unfold Dev.retired; split <;> simp
@[simp] theorem Dev.retired_dep (th : Nat) : (d.retired th).dep = d.dep := by
  unfold Dev.retired; split <;> simp
@[simp] theorem Dev.retired_eng (th : Nat) : (d.retired th).eng = d.eng := by
  unfold Dev.retired; split <;> simp
@[simp] theorem Dev.retired_wq (th : Nat) : (d.retired th).wq = d.wq := by
  unfold Dev.retired; split <;> simp
@[simp] theorem Dev.retired_xlt (th : Nat) : (d.retired th).xlt = d.xlt := by
  unfold Dev.retired; split <;> simp
@[simp] theorem Dev.retired_win (th : Nat) : (d.retired th).win = d.win := by
  unfold Dev.retired; split <;> simp
@[simp] theorem Dev.retired_dma (th : Nat) : (d.retired th).dma = d.dma := by
  unfold Dev.retired; split <;> simp
@[simp] theorem Dev.retired_rma (th : Nat) : (d.retired th).rma = d.rma := by
  unfold Dev.retired; split <;> simp
@[simp] theorem Dev.retired_cc (th : Nat) : (d.retired th).cc = d.cc := by
  unfold Dev.retired; split <;> simp
@[simp] theorem Dev.retired_mtc (th : Nat) : (d.retired th).mtc = d.mtc := by
  unfold Dev.retired; split <;> simp
@[simp] theorem Dev.retired_col (th : Nat) : (d.retired th).col = d.col := by
  unfold Dev.retired; split <;> simp
@[simp] theorem Dev.retired_ports (th : Nat) : (d.retired th).ports = d.ports := by
  unfold Dev.retired; split <;> simp
@[simp] theorem Dev.retired_sch (th : Nat) : (d.retired th).sch = d.sch := by
  unfold Dev.retired; split <;> simp
@[simp] theorem Dev.retired_rte (th : Nat) : (d.retired th).rte = d.rte := by
  unfold Dev.retired; split <;> simp
@[simp] theorem Dev.retired_ropes (th : Nat) : (d.retired th).ropes = d.ropes := by
  unfold Dev.retired; split <;> simp
@[simp] theorem Dev.retired_time (th : Nat) : (d.retired th).time = d.time := by
  unfold Dev.retired; split <;> simp
@[simp] theorem Dev.retired_bcp (th : Nat) : (d.retired th).bcp = d.bcp := by
  unfold Dev.retired; split <;> simp
@[simp] theorem Dev.retired_flt (th : Nat) : (d.retired th).flt = d.flt := by
  unfold Dev.retired; split <;> simp
@[simp] theorem Dev.retired_pmc (th : Nat) : (d.retired th).pmc = d.pmc := by
  unfold Dev.retired; split <;> simp

@[simp] theorem Dev.wasted_force (th : Nat) : (d.wasted th).force = d.force := by
  unfold Dev.wasted; split <;> simp
@[simp] theorem Dev.wasted_ps (th : Nat) : (d.wasted th).ps = d.ps := by
  unfold Dev.wasted; split <;> simp
@[simp] theorem Dev.wasted_ft (th : Nat) : (d.wasted th).ft = d.ft := by
  unfold Dev.wasted; split <;> simp
@[simp] theorem Dev.wasted_fresh (th : Nat) : (d.wasted th).fresh = d.fresh := by
  unfold Dev.wasted; split <;> simp
@[simp] theorem Dev.wasted_log (th : Nat) : (d.wasted th).log = d.log := by
  unfold Dev.wasted; split <;> simp
@[simp] theorem Dev.wasted_pwr (th : Nat) : (d.wasted th).pwr = d.pwr := by
  unfold Dev.wasted; split <;> simp
@[simp] theorem Dev.wasted_host (th : Nat) : (d.wasted th).host = d.host := by
  unfold Dev.wasted; split <;> simp
@[simp] theorem Dev.wasted_reads (th : Nat) : (d.wasted th).reads = d.reads := by
  unfold Dev.wasted; split <;> simp
@[simp] theorem Dev.wasted_nextTag (th : Nat) : (d.wasted th).nextTag = d.nextTag := by
  unfold Dev.wasted; split <;> simp
@[simp] theorem Dev.wasted_int (th : Nat) : (d.wasted th).int = d.int := by
  unfold Dev.wasted; split <;> simp
@[simp] theorem Dev.wasted_dep (th : Nat) : (d.wasted th).dep = d.dep := by
  unfold Dev.wasted; split <;> simp
@[simp] theorem Dev.wasted_eng (th : Nat) : (d.wasted th).eng = d.eng := by
  unfold Dev.wasted; split <;> simp
@[simp] theorem Dev.wasted_wq (th : Nat) : (d.wasted th).wq = d.wq := by
  unfold Dev.wasted; split <;> simp
@[simp] theorem Dev.wasted_xlt (th : Nat) : (d.wasted th).xlt = d.xlt := by
  unfold Dev.wasted; split <;> simp
@[simp] theorem Dev.wasted_win (th : Nat) : (d.wasted th).win = d.win := by
  unfold Dev.wasted; split <;> simp
@[simp] theorem Dev.wasted_dma (th : Nat) : (d.wasted th).dma = d.dma := by
  unfold Dev.wasted; split <;> simp
@[simp] theorem Dev.wasted_rma (th : Nat) : (d.wasted th).rma = d.rma := by
  unfold Dev.wasted; split <;> simp
@[simp] theorem Dev.wasted_cc (th : Nat) : (d.wasted th).cc = d.cc := by
  unfold Dev.wasted; split <;> simp
@[simp] theorem Dev.wasted_mtc (th : Nat) : (d.wasted th).mtc = d.mtc := by
  unfold Dev.wasted; split <;> simp
@[simp] theorem Dev.wasted_col (th : Nat) : (d.wasted th).col = d.col := by
  unfold Dev.wasted; split <;> simp
@[simp] theorem Dev.wasted_ports (th : Nat) : (d.wasted th).ports = d.ports := by
  unfold Dev.wasted; split <;> simp
@[simp] theorem Dev.wasted_sch (th : Nat) : (d.wasted th).sch = d.sch := by
  unfold Dev.wasted; split <;> simp
@[simp] theorem Dev.wasted_rte (th : Nat) : (d.wasted th).rte = d.rte := by
  unfold Dev.wasted; split <;> simp
@[simp] theorem Dev.wasted_ropes (th : Nat) : (d.wasted th).ropes = d.ropes := by
  unfold Dev.wasted; split <;> simp
@[simp] theorem Dev.wasted_time (th : Nat) : (d.wasted th).time = d.time := by
  unfold Dev.wasted; split <;> simp
@[simp] theorem Dev.wasted_bcp (th : Nat) : (d.wasted th).bcp = d.bcp := by
  unfold Dev.wasted; split <;> simp
@[simp] theorem Dev.wasted_flt (th : Nat) : (d.wasted th).flt = d.flt := by
  unfold Dev.wasted; split <;> simp
@[simp] theorem Dev.wasted_pmc (th : Nat) : (d.wasted th).pmc = d.pmc := by
  unfold Dev.wasted; split <;> simp

/-- The register is one of the counters of R563 and R569. -/
abbrev pmcReg (r : Nat) : Prop := r = R.PMC_CTR_VAL ∨ r = R.PMC_CTR_CFG ∨ r = R.PMC_FN_VAL ∨ 256 ≤ r

theorem Dev.pmcAdd_rd (k n : Nat) (g : Fld) (j : Nat) (h : ¬ pmcReg g.reg) : (d.pmcAdd k n).rd g j = d.rd g j := by
  have h1 : g.reg ≠ R.PMC_CTR_VAL ∧ g.reg < 256 ∧ R.PMC_CTR_VAL < 256 := ⟨fun e => h (.inl e), by simp [pmcReg] at h; omega, by decide⟩
  have h2 : g.reg ≠ R.PMC_CTR_CFG ∧ g.reg < 256 ∧ R.PMC_CTR_CFG < 256 := ⟨fun e => h (.inr (.inl e)), h1.2.1, by decide⟩
  unfold Dev.pmcAdd
  simp only []
  split
  · rw [Dev.rd_wr_other _ _ _ _ _ _ h2, Dev.rd_wr_other _ _ _ _ _ _ h1]
  · rw [Dev.rd_wr_other _ _ _ _ _ _ h1]

theorem Dev.ev_rd (b e : Nat) (i f : Option Nat) (n : Nat) (g : Fld) (j : Nat) (h : ¬ pmcReg g.reg) :
    (d.ev b e i f n).rd g j = d.rd g j := Dev.ev_inv d (fun d => d.rd g j) (fun d k n => Dev.pmcAdd_rd d k n g j h) b e i f n

theorem Dev.fnCount_rd (f i n : Nat) (g : Fld) (j : Nat) (h : ¬ pmcReg g.reg) : (d.fnCount f i n).rd g j = d.rd g j := by
  have h1 : g.reg ≠ R.PMC_FN_VAL ∧ g.reg < 256 ∧ R.PMC_FN_VAL < 256 :=
    ⟨fun e => h (.inr (.inr (.inl e))), by simp [pmcReg] at h; omega, by decide⟩
  unfold Dev.fnCount
  simp only []
  split
  · rw [Dev.rd_wr_other _ _ _ _ _ _ h1, Dev.rd_wr_other _ _ _ _ _ _ h1]
  · rw [Dev.rd_wr_other _ _ _ _ _ _ h1]

theorem Dev.retired_rd (th : Nat) (g : Fld) (j : Nat) (h : ¬ pmcReg g.reg) : (d.retired th).rd g j = d.rd g j := by
  unfold Dev.retired
  split
  · rfl
  · rw [Dev.fnCount_rd _ _ _ _ _ _ h, Dev.ev_rd _ _ _ _ _ _ _ _ h, Dev.ev_rd _ _ _ _ _ _ _ _ h]

theorem Dev.wasted_rd (th : Nat) (g : Fld) (j : Nat) (h : ¬ pmcReg g.reg) : (d.wasted th).rd g j = d.rd g j := by
  unfold Dev.wasted
  split
  · rfl
  · rw [Dev.fnCount_rd _ _ _ _ _ _ h, Dev.ev_rd _ _ _ _ _ _ _ _ h, Dev.ev_rd _ _ _ _ _ _ _ _ h]

@[simp] theorem Dev.thr_pmcAdd (k n : Nat) (th : Nat) : (d.pmcAdd k n).thr th = d.thr th := by
  simp [Dev.thr]
@[simp] theorem Dev.thr_ev (b e : Nat) (i g : Option Nat) (n : Nat) (th : Nat) : (d.ev b e i g n).thr th = d.thr th := by
  simp [Dev.thr]
@[simp] theorem Dev.thr_fnCount (g i n : Nat) (th : Nat) : (d.fnCount g i n).thr th = d.thr th := by
  simp [Dev.thr]
@[simp] theorem Dev.thr_retired (t : Nat) (th : Nat) : (d.retired t).thr th = d.thr th := by
  simp [Dev.thr]
@[simp] theorem Dev.thr_wasted (t : Nat) (th : Nat) : (d.wasted t).thr th = d.thr th := by
  simp [Dev.thr]

end Sys2Proof.Machine
end

