-- ==== Sys2Proof/Laws/Threads.lean ====
section
/-! SUPPORT. Threads, scratch and Depot words: reads after writes, the canonical form of memory, code addresses. -/

namespace Sys2Proof.Machine

@[simp] theorem Dev.thr_setThr_self (d : Dev) (th : Nat) (t : Thread) : (d.setThr th t).thr th = t := by
  simp [Dev.thr, Dev.setThr]

theorem Dev.thr_setThr_ne (d : Dev) {th n : Nat} (t : Thread) (h : n ≠ th) : (d.setThr th t).thr n = d.thr n := by
  simp [Dev.thr, Dev.setThr, h]

@[simp] theorem Dev.thr_updThr_self (d : Dev) (th : Nat) (g : Thread → Thread) : (d.updThr th g).thr th = g (d.thr th) := by
  simp [Dev.updThr]

theorem Dev.thr_updThr_ne (d : Dev) {th n : Nat} (g : Thread → Thread) (h : n ≠ th) : (d.updThr th g).thr n = d.thr n :=
  Dev.thr_setThr_ne d _ h

/-- w0 reads as zero and discards writes (R30). -/
@[simp] theorem Thread.reg_zero (t : Thread) : t.reg 0 = 0 := rfl
@[simp] theorem Thread.setReg_zero (t : Thread) (v : TWord) : t.setReg 0 v = t := rfl

theorem Thread.reg_setReg_self (t : Thread) {n : Nat} (v : TWord) (h : n ≠ 0) : (t.setReg n v).reg n = v := by
  simp [Thread.reg, Thread.setReg, h]

theorem Thread.reg_setReg_ne (t : Thread) {n m : Nat} (v : TWord) (h : m ≠ n) : (t.setReg n v).reg m = t.reg m := by
  unfold Thread.reg Thread.setReg
  by_cases hm : m = 0
  · simp [hm]
  · by_cases hn : n = 0
    · simp [hn]
    · simp [hm, hn, h]

/-- A scratch word reads what was stored to it. -/
@[simp] theorem Dev.scrWord_setScrWord_self (d : Dev) (c a : Nat) (w : TWord) : (d.setScrWord c a w).scrWord c a = w := by
  simp [Dev.scrWord, Dev.setScrWord]

theorem Dev.scrWord_setScrWord_ne (d : Dev) {c a c' a' : Nat} (w : TWord) (h : c' * 131072 + a' / 8 ≠ c * 131072 + a / 8) :
    (d.setScrWord c a w).scrWord c' a' = d.scrWord c' a' := by
  simp [Dev.scrWord, Dev.setScrWord, h]

/-- A Depot word reads what was stored to it. -/
@[simp] theorem Dev.depWord_setDepWord_self (d : Dev) (a : Nat) (w : TWord) : (d.setDepWord a w).depWord a = w := by
  simp [Dev.depWord, Dev.setDepWord]

theorem Dev.depWord_setDepWord_ne (d : Dev) {a b : Nat} (w : TWord) (h : b / 8 ≠ a / 8) :
    (d.setDepWord a w).depWord b = d.depWord b := by
  simp [Dev.depWord, Dev.setDepWord, h]

/-- Stores keep memory in its canonical form, and memory has it at reset. -/
theorem Memory.wf_setDepWord (d : Dev) (a : Nat) (w : TWord) (h : Memory.wf d) : Memory.wf (d.setDepWord a w) :=
  ⟨Tbl.wf_set _ _ _ _ h.1, h.2⟩

theorem Memory.wf_setScrWord (d : Dev) (c a : Nat) (w : TWord) (h : Memory.wf d) : Memory.wf (d.setScrWord c a w) :=
  ⟨h.1, Tbl.wf_set _ _ _ _ h.2⟩

theorem Memory.wf_reset : Memory.wf State.reset.dev := by decide

/-- A transfer within the running code changes only the index. -/
theorem pcCmd_pcAt (pc : Word) (i : Nat) : pcCmd (setBits pc 0 17 i) = pcCmd pc := by
  simp only [pcCmd]
  rw [getBits_setBits_disjoint _ _ (by omega)]

theorem Dev.goTo_slot {d : Dev} {th : Nat} {pc : Word} (h : pcCmd pc = false) :
    d.goTo th pc = d.updThr th (fun t => { t with pc := pc, past := false }) := by
  simp [Dev.goTo, h]

end Sys2Proof.Machine
end

