-- ==== Sys2Proof/Laws/Traps.lean ====
section
/-! SUPPORT. Taking a trap: what the save area receives, what the thread holds, and what stays (R75, R76). -/

namespace Sys2Proof.Machine

variable (d : Dev) (th : Nat) (t : Thread) (tpc cause tval : Word)

/-- The save area is written word by word, lowest first (R75). -/
theorem Dev.saveWords_eq : d.saveWords th t tpc cause tval =
    [(0, mkWord tpc 0), (1, mkWord cause 0), (2, mkWord tval 0),
     (3, mkWord (BitVec.ofNat 64 (t.p.toNat / 2 * 2 + 1 + (if t.priv then 256 else 0))) 0),
     (4, mkWord (BitVec.ofNat 64 (t.asid + t.fn * 2 ^ 16)) 0),
     (5, mkWord (BitVec.ofNat 64 (t.queue + (if t.cmd then 2 ^ 16 else 0))) 0),
     (8, t.reg 1), (9, t.reg 2), (10, t.reg 3), (11, t.reg 4), (12, t.reg 5), (13, t.reg 6), (14, t.reg 7)].foldl
      (fun (d : Dev) (x : Nat × TWord) => d.setScrWord (clusterOf th) (saveArea th + 8 * x.1) x.2) d := by
  have h : List.range 7 = [0, 1, 2, 3, 4, 5, 6] := rfl
  simp only [Dev.saveWords, h, List.foldl_cons, List.foldl_nil]

/-- What a scratch store keeps, a list of them keeps. -/
theorem Dev.foldl_scr {α : Type} (P : Dev → α) (c a : Nat) (l : List (Nat × TWord))
    (h : ∀ d n w, P (Dev.setScrWord d c n w) = P d) (d : Dev) :
    P (l.foldl (fun (d : Dev) (x : Nat × TWord) => d.setScrWord c (a + 8 * x.1) x.2) d) = P d := by
  induction l generalizing d with
  | nil => rfl
  | cons x l ih => rw [List.foldl_cons, ih, h]

/-- A scratch word after a list of stores at rising offsets of a double-word base. -/
theorem Dev.foldl_scr_get (c a n : Nat) (w : TWord) (l : List (Nat × TWord)) (hl : (l.map Prod.fst).Nodup) (hw : (n, w) ∈ l)
    (d : Dev) (ha : a % 8 = 0) :
    (l.foldl (fun (d : Dev) (x : Nat × TWord) => d.setScrWord c (a + 8 * x.1) x.2) d).scrWord c (a + 8 * n) = w := by
  induction l generalizing d with
  | nil => cases hw
  | cons x l ih =>
    rw [List.map_cons, List.nodup_cons] at hl
    rw [List.foldl_cons]
    rcases List.mem_cons.mp hw with rfl | hw
    · have keep : ∀ (l : List (Nat × TWord)) (d : Dev), n ∉ l.map Prod.fst →
          (l.foldl (fun (d : Dev) (x : Nat × TWord) => d.setScrWord c (a + 8 * x.1) x.2) d).scrWord c (a + 8 * n) =
            d.scrWord c (a + 8 * n) := by
        intro l
        induction l with
        | nil => intro d _; rfl
        | cons y l ih =>
          intro d hy
          rw [List.map_cons, List.mem_cons, not_or] at hy
          rw [List.foldl_cons, ih _ hy.2, Dev.scrWord_setScrWord_ne]
          have := hy.1
          omega
      rw [keep l _ hl.1, Dev.scrWord_setScrWord_self]
    · exact ih hl.2 hw _

@[simp] theorem Dev.saveWords_regs : (d.saveWords th t tpc cause tval).regs = d.regs := by
  rw [Dev.saveWords_eq]; exact Dev.foldl_scr (fun d => d.regs) _ _ _ (fun _ _ _ => rfl) d
@[simp] theorem Dev.saveWords_force : (d.saveWords th t tpc cause tval).force = d.force := by
  rw [Dev.saveWords_eq]; exact Dev.foldl_scr (fun d => d.force) _ _ _ (fun _ _ _ => rfl) d
@[simp] theorem Dev.saveWords_ps : (d.saveWords th t tpc cause tval).ps = d.ps := by
  rw [Dev.saveWords_eq]; exact Dev.foldl_scr (fun d => d.ps) _ _ _ (fun _ _ _ => rfl) d
@[simp] theorem Dev.saveWords_ft : (d.saveWords th t tpc cause tval).ft = d.ft := by
  rw [Dev.saveWords_eq]; exact Dev.foldl_scr (fun d => d.ft) _ _ _ (fun _ _ _ => rfl) d
@[simp] theorem Dev.saveWords_fresh : (d.saveWords th t tpc cause tval).fresh = d.fresh := by
  rw [Dev.saveWords_eq]; exact Dev.foldl_scr (fun d => d.fresh) _ _ _ (fun _ _ _ => rfl) d
@[simp] theorem Dev.saveWords_log : (d.saveWords th t tpc cause tval).log = d.log := by
  rw [Dev.saveWords_eq]; exact Dev.foldl_scr (fun d => d.log) _ _ _ (fun _ _ _ => rfl) d
@[simp] theorem Dev.saveWords_pwr : (d.saveWords th t tpc cause tval).pwr = d.pwr := by
  rw [Dev.saveWords_eq]; exact Dev.foldl_scr (fun d => d.pwr) _ _ _ (fun _ _ _ => rfl) d
@[simp] theorem Dev.saveWords_host : (d.saveWords th t tpc cause tval).host = d.host := by
  rw [Dev.saveWords_eq]; exact Dev.foldl_scr (fun d => d.host) _ _ _ (fun _ _ _ => rfl) d
@[simp] theorem Dev.saveWords_reads : (d.saveWords th t tpc cause tval).reads = d.reads := by
  rw [Dev.saveWords_eq]; exact Dev.foldl_scr (fun d => d.reads) _ _ _ (fun _ _ _ => rfl) d
@[simp] theorem Dev.saveWords_nextTag : (d.saveWords th t tpc cause tval).nextTag = d.nextTag := by
  rw [Dev.saveWords_eq]; exact Dev.foldl_scr (fun d => d.nextTag) _ _ _ (fun _ _ _ => rfl) d
@[simp] theorem Dev.saveWords_int : (d.saveWords th t tpc cause tval).int = d.int := by
  rw [Dev.saveWords_eq]; exact Dev.foldl_scr (fun d => d.int) _ _ _ (fun _ _ _ => rfl) d
@[simp] theorem Dev.saveWords_dep : (d.saveWords th t tpc cause tval).dep = d.dep := by
  rw [Dev.saveWords_eq]; exact Dev.foldl_scr (fun d => d.dep) _ _ _ (fun _ _ _ => rfl) d
@[simp] theorem Dev.saveWords_wq : (d.saveWords th t tpc cause tval).wq = d.wq := by
  rw [Dev.saveWords_eq]; exact Dev.foldl_scr (fun d => d.wq) _ _ _ (fun _ _ _ => rfl) d
@[simp] theorem Dev.saveWords_xlt : (d.saveWords th t tpc cause tval).xlt = d.xlt := by
  rw [Dev.saveWords_eq]; exact Dev.foldl_scr (fun d => d.xlt) _ _ _ (fun _ _ _ => rfl) d
@[simp] theorem Dev.saveWords_win : (d.saveWords th t tpc cause tval).win = d.win := by
  rw [Dev.saveWords_eq]; exact Dev.foldl_scr (fun d => d.win) _ _ _ (fun _ _ _ => rfl) d
@[simp] theorem Dev.saveWords_dma : (d.saveWords th t tpc cause tval).dma = d.dma := by
  rw [Dev.saveWords_eq]; exact Dev.foldl_scr (fun d => d.dma) _ _ _ (fun _ _ _ => rfl) d
@[simp] theorem Dev.saveWords_rma : (d.saveWords th t tpc cause tval).rma = d.rma := by
  rw [Dev.saveWords_eq]; exact Dev.foldl_scr (fun d => d.rma) _ _ _ (fun _ _ _ => rfl) d
@[simp] theorem Dev.saveWords_cc : (d.saveWords th t tpc cause tval).cc = d.cc := by
  rw [Dev.saveWords_eq]; exact Dev.foldl_scr (fun d => d.cc) _ _ _ (fun _ _ _ => rfl) d
@[simp] theorem Dev.saveWords_mtc : (d.saveWords th t tpc cause tval).mtc = d.mtc := by
  rw [Dev.saveWords_eq]; exact Dev.foldl_scr (fun d => d.mtc) _ _ _ (fun _ _ _ => rfl) d
@[simp] theorem Dev.saveWords_col : (d.saveWords th t tpc cause tval).col = d.col := by
  rw [Dev.saveWords_eq]; exact Dev.foldl_scr (fun d => d.col) _ _ _ (fun _ _ _ => rfl) d
@[simp] theorem Dev.saveWords_ports : (d.saveWords th t tpc cause tval).ports = d.ports := by
  rw [Dev.saveWords_eq]; exact Dev.foldl_scr (fun d => d.ports) _ _ _ (fun _ _ _ => rfl) d
@[simp] theorem Dev.saveWords_sch : (d.saveWords th t tpc cause tval).sch = d.sch := by
  rw [Dev.saveWords_eq]; exact Dev.foldl_scr (fun d => d.sch) _ _ _ (fun _ _ _ => rfl) d
@[simp] theorem Dev.saveWords_rte : (d.saveWords th t tpc cause tval).rte = d.rte := by
  rw [Dev.saveWords_eq]; exact Dev.foldl_scr (fun d => d.rte) _ _ _ (fun _ _ _ => rfl) d
@[simp] theorem Dev.saveWords_ropes : (d.saveWords th t tpc cause tval).ropes = d.ropes := by
  rw [Dev.saveWords_eq]; exact Dev.foldl_scr (fun d => d.ropes) _ _ _ (fun _ _ _ => rfl) d
@[simp] theorem Dev.saveWords_time : (d.saveWords th t tpc cause tval).time = d.time := by
  rw [Dev.saveWords_eq]; exact Dev.foldl_scr (fun d => d.time) _ _ _ (fun _ _ _ => rfl) d
@[simp] theorem Dev.saveWords_bcp : (d.saveWords th t tpc cause tval).bcp = d.bcp := by
  rw [Dev.saveWords_eq]; exact Dev.foldl_scr (fun d => d.bcp) _ _ _ (fun _ _ _ => rfl) d
@[simp] theorem Dev.saveWords_flt : (d.saveWords th t tpc cause tval).flt = d.flt := by
  rw [Dev.saveWords_eq]; exact Dev.foldl_scr (fun d => d.flt) _ _ _ (fun _ _ _ => rfl) d
@[simp] theorem Dev.saveWords_pmc : (d.saveWords th t tpc cause tval).pmc = d.pmc := by
  rw [Dev.saveWords_eq]; exact Dev.foldl_scr (fun d => d.pmc) _ _ _ (fun _ _ _ => rfl) d
@[simp] theorem Dev.saveWords_thr (n : Nat) : (d.saveWords th t tpc cause tval).thr n = d.thr n := by
  rw [Dev.saveWords_eq]; exact Dev.foldl_scr (fun d => d.thr n) _ _ _ (fun _ _ _ => rfl) d
@[simp] theorem Dev.saveWords_rd (g : Fld) (j : Nat) : (d.saveWords th t tpc cause tval).rd g j = d.rd g j :=
  Dev.rd_congr (Dev.saveWords_regs d th t tpc cause tval) g j
@[simp] theorem Dev.saveWords_flag (g : Fld) (j : Nat) : (d.saveWords th t tpc cause tval).flag g j = d.flag g j := by
  simp [Dev.flag]

theorem saveArea_aligned : saveArea th % 8 = 0 := by
  unfold saveArea
  split <;> omega

/-- A trap that is no double trap, said once. -/
theorem Dev.trap_eq (c : Nat) (h0 : (d.thr th).inTrap = false) (h1 : d.flag F.ENG_FN_TRAP_EN (d.thr th).fn = true) :
    ∃ e : Dev, (∀ g j, ¬ pmcReg (Fld.reg g) → e.rd g j = d.rd g j) ∧ e.eng = d.eng ∧ e.dep = d.dep ∧ (∀ n, e.thr n = d.thr n) ∧
      d.trap th c tval tpc =
        ((e.saveWords th (d.thr th) tpc (BitVec.ofNat 64 c) tval).updThr th (fun t =>
          ({ t with cause := BitVec.ofNat 64 c, tval := tval, tpc := tpc, priv := true, event := 5,
                    trapped := some (t.inSlot, t.event), trapCol := t.lastCol, lastCol := none, inSlot := none }.setReg 1 (mkWord (BitVec.ofNat 64 c) 0)).setReg 2
            (mkWord tval 0) |>.setReg 3 (mkWord tpc 0))).trapBegin th (d.rd F.ENG_FN_TRAP_SLOT (d.thr th).fn) := by
  refine ⟨(if isCore th then d else d.ev 0 10 (some (clusterOf th)) (some (d.thr th).fn)).wasted th, ?_, ?_, ?_, ?_, ?_⟩
  · intro g j hg
    rw [Dev.wasted_rd _ _ _ _ hg]
    split
    · rfl
    · exact Dev.ev_rd _ _ _ _ _ _ _ _ hg
  · rw [Dev.wasted_eng]; split <;> simp
  · rw [Dev.wasted_dep]; split <;> simp
  · intro n; rw [Dev.thr_wasted]; split <;> simp
  · have hf : ∀ (e : Dev), (∀ g j, ¬ pmcReg (Fld.reg g) → e.rd g j = d.rd g j) →
        e.flag F.ENG_FN_TRAP_EN (d.thr th).fn = true := by
      intro e he
      simpa [Dev.flag, he _ _ (show ¬ pmcReg F.ENG_FN_TRAP_EN.reg by decide)] using h1
    have hfl := hf ((if isCore th then d else d.ev 0 10 (some (clusterOf th)) (some (d.thr th).fn)).wasted th) (by
      intro g j hg
      rw [Dev.wasted_rd _ _ _ _ hg]
      split
      · rfl
      · exact Dev.ev_rd _ _ _ _ _ _ _ _ hg)
    unfold Dev.trap
    simp only [h0, hfl, Bool.not_true, Bool.or_self, Bool.false_eq_true, if_false]
    congr 1
    have : ∀ (e : Dev) (g : Thread → Thread), (e.updThr th g).rd F.ENG_FN_TRAP_SLOT (d.thr th).fn =
      e.rd F.ENG_FN_TRAP_SLOT (d.thr th).fn := fun _ _ => rfl
    rw [this, Dev.saveWords_rd, Dev.wasted_rd _ _ _ _ (by decide)]
    split
    · rfl
    · exact Dev.ev_rd _ _ _ _ _ _ _ _ (by decide)

/-! ### The end of an activation -/

@[simp] theorem Dev.qAdvance_eng (d : Dev) (q n : Nat) : (d.qAdvance q n).eng = d.eng := by
  induction n generalizing d with
  | zero => rfl
  | succ n ih =>
    unfold Dev.qAdvance
    simp only []
    split
    · rfl
    · rw [ih]
      simp only [Dev.fnCount_eng, Dev.ev_eng, Dev.wr_eng]
      split <;> rfl

/-- Progress of a queue leaves every thread as it is. -/
@[simp] theorem Dev.thr_qProgress (d : Dev) (q n : Nat) : (d.qProgress q).thr n = d.thr n := by
  unfold Dev.qProgress
  rw [Dev.thr_qWake]
  simp only [Dev.thr, Dev.qAdvance_eng]

@[simp] theorem Dev.thr_entryEnd (d : Dev) (q s st n : Nat) : (d.entryEnd q s st).thr n = d.thr n := by
  unfold Dev.entryEnd
  rw [Dev.thr_qProgress]
  rfl

@[simp] theorem Dev.thr_leaveSlot (d : Dev) (e : Option (Nat × Nat)) (th : Nat) : (d.leaveSlot e).thr th = d.thr th := by
  unfold Dev.leaveSlot
  split
  · rfl
  · split
    · rfl
    · simp only []
      split <;> rfl

/-- The thread of an activation that ends: waiting, with its registers (R25). -/
theorem Dev.thr_idle (d : Dev) (th : Nat) : (d.idle th).thr th =
    { d.thr th with st := .wait, stall := .none, active := false, inSlot := none, trapped := none, trapEv := none, queue := 0,
                    cmd := false, seq := 0, event := 0, slots := [] } := by
  unfold Dev.idle
  simp only []
  rw [Dev.thr_rest, Dev.thr_updThr_self]
  split <;> simp

end Sys2Proof.Machine
end

