-- ==== Sys2Proof/Laws/Returns.lean ====
section
/-! SUPPORT. What eret brings back (R77). -/

namespace Sys2Proof.Machine

/-- The thread that eret restores: predicates, privilege, ASID and w1 to w7 from its save area (R77). -/
theorem Dev.thr_restore (d : Dev) (th : Nat) : (d.restore th).thr th =
    (List.range 7).foldl (fun (t : Thread) k => t.setReg (k + 1) (d.scrWord (clusterOf th) (saveArea th + 8 * (8 + k))))
      { d.thr th with
        p := BitVec.ofNat 8 (getBits (TWord.val (d.scrWord (clusterOf th) (saveArea th + 24))) 1 7 * 2)
        priv := getBits (TWord.val (d.scrWord (clusterOf th) (saveArea th + 24))) 8 1 == 1
        event := ((d.thr th).trapped.map Prod.snd).getD 0
        inSlot := ((d.thr th).trapped.map Prod.fst).getD none
        trapped := none
        lastCol := (d.thr th).trapCol
        trapCol := none
        asid := getBits (TWord.val (d.scrWord (clusterOf th) (saveArea th + 32))) 0 16 } := by
  have hf : ∀ (l : List Nat) (e : Dev), (l.foldl (fun (d' : Dev) k => d'.setW th (k + 1)
      (d.scrWord (clusterOf th) (saveArea th + 8 * (8 + k)))) e).thr th =
      l.foldl (fun (t : Thread) k => t.setReg (k + 1) (d.scrWord (clusterOf th) (saveArea th + 8 * (8 + k)))) (e.thr th) := by
    intro l
    induction l with
    | nil => intro e; rfl
    | cons k l ih => intro e; rw [List.foldl_cons, List.foldl_cons, ih]; simp [Dev.setW]
  unfold Dev.restore
  simp only []
  rw [hf]
  simp only [Dev.thr_updThr_self, Dev.thr_leaveSlot]

end Sys2Proof.Machine
end

