-- ==== Sys2Proof/Laws/Access.lean ====
section
/-! SUPPORT. Accesses of host memory: what a read or a write on a host port does, and that translation leaves the threads
alone. -/

namespace Sys2Proof.Machine

/-- Open host access lets every read out (R433). -/
theorem Dev.noRead_of_open {d : Dev} {f : Nat} (hc : d.closed f = false) (why : Purpose) : d.noRead f why = false := by
  unfold Dev.noRead
  split
  · unfold Dev.closed at hc
    unfold Dev.isCut
    cases h2 : d.fnState f == 2 <;> cases h3 : d.fnState f == 3 <;> simp_all
  · exact hc

/-- A read that the device may issue (R429, R435): it takes the next tag, is remembered with its purpose, and leaves. -/
theorem Dev.hostRead_ok (d : Dev) (f addr len : Nat) (why : Purpose) (h : d.halted = false) (hc : d.closed f = false) :
    d.hostRead f addr len why =
      ((({ d with reads := Tbl.put d.nextTag { fn := f, addr := addr, why := why, at_ := d.ps } d.reads,
                  nextTag := d.nextTag + 1 }.ev 10 1 (some (f / 256)) (some f)).emit
          (.hostRead d.nextTag f addr len (d.idoOf f why))), some d.nextTag) := by
  simp [Dev.hostRead, Dev.idoOf, h, Dev.noRead_of_open hc]

/-- A posted write that the device may issue. -/
theorem Dev.hostWrite_ok (d : Dev) (f addr len data : Nat) (ro ep : Bool) (h : d.halted = false) (hc : d.closed f = false) :
    d.hostWrite f addr len data ro ep =
      ({ d with host.posted := Tbl.put (d.linkOf f * 1024 + f) addr d.host.posted }.ev 10 0 (some (f / 256)) (some f)).emit
        (.hostWrite f addr len data (ro && !Tbl.get d.host.roOff false f) ep) := by
  simp [Dev.hostWrite, h, hc]

@[simp] theorem Dev.thr_hostRead (d : Dev) (f addr len : Nat) (why : Purpose) (n : Nat) :
    (d.hostRead f addr len why).1.thr n = d.thr n := by
  unfold Dev.hostRead
  split
  · rfl
  · simp [Dev.thr]

@[simp] theorem Dev.thr_hostWrite (d : Dev) (f addr len data : Nat) (ro ep : Bool) (n : Nat) :
    (d.hostWrite f addr len data ro ep).thr n = d.thr n := by
  unfold Dev.hostWrite
  split
  · rfl
  · split
    · split <;> rfl
    · simp [Dev.thr]

@[simp] theorem Dev.thr_setL1 (d : Dev) (r : XReq) (c : Nat) (l : List Leaf) (n : Nat) : (d.setL1 r c l).thr n = d.thr n := by
  unfold Dev.setL1
  split <;> rfl

@[simp] theorem Dev.thr_u3Switch (d : Dev) (c a n : Nat) : (d.u3Switch c a).thr n = d.thr n := by
  unfold Dev.u3Switch
  split <;> rfl

@[simp] theorem Dev.thr_setL2 (d : Dev) (r : XReq) (l : List Leaf) (n : Nat) : (d.setL2 r l).thr n = d.thr n := by
  unfold Dev.setL2
  split
  · split <;> rfl
  · rfl

theorem Dev.thr_lookup (d : Dev) (r : XReq) (n : Nat) : (d.lookup r).1.thr n = d.thr n := by
  have h2 : ∀ e : Dev, (match hitLeaf r.asid r.va e.ps (e.l2Of r) with
      | some (x, l) => ((e.setL2 r l).ev 2 2, some x)
      | none => (e.ev 2 3, none)).1.thr n = e.thr n := by
    intro e
    split <;> simp
  unfold Dev.lookup
  simp only []
  split
  · exact h2 d
  · split
    · simp
    · split
      · refine (h2 _).trans ?_
        split <;> simp
      · rw [Dev.fillL1, Dev.thr_setL1]
        refine (h2 _).trans ?_
        split <;> simp

/-- A look-up of a window reaches the window cache and the Depot, no engine. -/
@[simp] theorem Dev.eng_winLook (d : Dev) (h : Nat) : (d.winLook h).eng = d.eng := by
  unfold Dev.winLook Dev.depWake Dev.pick
  simp only []
  split
  · rfl
  · split <;> simp

@[simp] theorem Dev.eng_winFail (d : Dev) (st : Nat) : (d.winFail st).eng = d.eng := by
  unfold Dev.winFail
  split
  · rfl
  · simp

@[simp] theorem Dev.thr_winLook (d : Dev) (h n : Nat) : (d.winLook h).thr n = d.thr n := by simp [Dev.thr]
@[simp] theorem Dev.thr_winFail (d : Dev) (st n : Nat) : (d.winFail st).thr n = d.thr n := by simp [Dev.thr]
@[simp] theorem Dev.thr_winUse (d : Dev) (h : Nat) (p : Win → Bool) (r o l n : Nat) : (d.winUse h p r o l).1.thr n = d.thr n := by
  simp [Dev.winUse]

theorem Dev.thr_judgeLeaf (d : Dev) (r : XReq) (e : Leaf) (spec : Bool) (n : Nat) :
    (d.judgeLeaf r e spec).1.thr n = d.thr n := by
  have h : (d.dropLeaf r e).thr n = d.thr n := by
    unfold Dev.dropLeaf
    simp only []
    split <;> simp
  unfold Dev.judgeLeaf
  split
  · rfl
  · simp only []
    split
    · rfl
    · cases spec <;> simp [h]

theorem Dev.thr_startWalk (d : Dev) (r : XReq) (w : Work) (s : Bool) (o n : Nat) : (d.startWalk r w s o).1.thr n = d.thr n := by
  have hw : ∀ (e : Dev) (id : Nat) (x : Walk), (e.walkRead id x).1.thr n = e.thr n := by
    intro e id x
    have := Dev.thr_hostRead e x.fn (x.table + 8 * vaIndex x.req.va x.level) 8 (.walk id) n
    unfold Dev.walkRead
    simp only []
    split
    · exact this
    · simpa [Dev.thr] using this
  have hb : ∀ (e : Dev) (id : Nat) (x : Walk), (e.beginWalk id x).1.thr n = e.thr n := by
    intro e id x
    unfold Dev.beginWalk
    split
    · rw [hw]
      rfl
    · exact hw _ _ _
  unfold Dev.startWalk
  split
  · rfl
  · simp only []
    split
    · exact hb _ _ _
    · rfl

/-- A translation changes no thread. -/
@[simp] theorem Dev.thr_xlate (d : Dev) (r : XReq) (w : Work) (s : Bool) (o n : Nat) : (d.xlate r w s o).1.thr n = d.thr n := by
  unfold Dev.xlate
  split
  · rfl
  · simp only []
    have h0 : ∀ e : Dev, (match (e.lookup r).2 with
        | some x => (e.lookup r).1.judgeLeaf r x s
        | none => (e.lookup r).1.startWalk r w s o).1.thr n = e.thr n := by
      intro e
      split
      · rw [Dev.thr_judgeLeaf, Dev.thr_lookup]
      · rw [Dev.thr_startWalk, Dev.thr_lookup]
    refine (h0 _).trans ?_
    split
    · split <;> simp
    · rfl

/-- A thread that stalls or goes on counts its instruction as retired. -/
theorem Dev.stall_thr (d : Dev) (th : Nat) (x : Stall) :
    (d.stall th x).thr th = { d.thr th with st := .stall, stall := x } := by
  simp [Dev.stall]

/-- An engine access that has its address has changed no thread. -/
theorem Dev.thr_engAddr {d e : Dev} {th va n : Nat} {k : Kind} {win : Nat} {w : Work} {b fn : Nat}
    (h : d.engAddr th va n k win w = (e, .ok b, fn)) (m : Nat) : e.thr m = d.thr m := by
  unfold Dev.engAddr at h
  simp only [] at h
  split at h
  · split at h
    · cases h
    · cases h
      rfl
  · have h1 := congrArg Prod.fst h
    dsimp only at h1
    rw [← h1, Dev.thr_xlate]

/-- An instruction that has set its thread's place itself counts as retired, unless it trapped (R28). -/
theorem Dev.done_retired {d e : Dev} {th : Nat} (h1 : (e.thr th).st ≠ .stopped)
    (h2 : (e.thr th).event = 5 → (d.thr th).event = 5) :
    (if (e.thr th).inTrap && !(d.thr th).inTrap || (e.thr th).st == .stopped then e else e.retired th) = e.retired th := by
  rw [if_neg]
  simp only [Thread.inTrap, Bool.or_eq_true, Bool.and_eq_true, beq_iff_eq, Bool.not_eq_true', beq_eq_false_iff_ne, not_or, not_and,
    not_not]
  exact ⟨h2, h1⟩

/-- The same, of an instruction that stalls. -/
theorem Dev.stall_retired {d e : Dev} {th : Nat} (x : Stall) (h : e.thr th = d.thr th) :
    (if ((e.stall th x).thr th).inTrap && !(d.thr th).inTrap || ((e.stall th x).thr th).st == .stopped then e.stall th x
      else (e.stall th x).retired th) = (e.stall th x).retired th := by
  refine Dev.done_retired ?_ ?_
  · rw [Dev.stall_thr]
    simp
  · rw [Dev.stall_thr, h]
    exact id

/-- The same, of a stall that leaves the thread's cluster with nothing to do (R22). -/
theorem Dev.stall_rest_retired {d e : Dev} {th : Nat} (x : Stall) (h : e.thr th = d.thr th) :
    (if (((e.stall th x).restThr th).thr th).inTrap && !(d.thr th).inTrap || (((e.stall th x).restThr th).thr th).st == .stopped
      then (e.stall th x).restThr th else ((e.stall th x).restThr th).retired th) = ((e.stall th x).restThr th).retired th := by
  refine Dev.done_retired ?_ ?_
  · rw [Dev.thr_restThr, Dev.stall_thr]
    simp
  · rw [Dev.thr_restThr, Dev.stall_thr, h]
    exact id

/-- Going on ends no thread's trap and stops none. -/
theorem Dev.goOn_thr (d : Dev) (th : Nat) : (((d.goOn th).thr th).st = (d.thr th).st ∨ ((d.goOn th).thr th).st = .wait) ∧
    (((d.goOn th).thr th).event = (d.thr th).event ∨ ((d.goOn th).thr th).event = 0) := by
  unfold Dev.goOn Dev.goTo
  split
  · have h : ((d.endActivation th 0).thr th) = (d.idle th).thr th := by
      unfold Dev.endActivation
      simp only []
      split
      · rw [Dev.thr_entryEnd]
      · rfl
    rw [h, Dev.thr_idle]
    simp
  · simp

/-- The same, of an instruction that went on. -/
theorem Dev.goOn_retired {d e : Dev} {th : Nat} (h1 : (e.thr th).st ≠ .stopped)
    (h2 : (e.thr th).event = 5 → (d.thr th).event = 5) :
    (if ((e.goOn th).thr th).inTrap && !(d.thr th).inTrap || ((e.goOn th).thr th).st == .stopped then e.goOn th
      else (e.goOn th).retired th) = (e.goOn th).retired th := by
  have h := Dev.goOn_thr e th
  refine Dev.done_retired ?_ ?_
  · rcases h.1 with h | h <;> rw [h]
    · exact h1
    · simp
  · rcases h.2 with h | h <;> rw [h]
    · exact h2
    · simp

end Sys2Proof.Machine
end

