-- ==== Sys2Proof/Laws/Cells.lean ====
section
/-! SUPPORT. Bit fields of a header, and the linearity of its check (R294, R296). -/

namespace Sys2Proof.Machine

theorem fieldOf (hi m lo w : Nat) (L : Nat) (hl : L < 2 ^ lo) (hm : m < 2 ^ w) : (hi * 2 ^ (lo + w) + m * 2 ^ lo + L) / 2 ^ lo % 2 ^ w = m := by
  have h1 : hi * 2 ^ (lo + w) + m * 2 ^ lo + L = (hi * 2 ^ w + m) * 2 ^ lo + L := by rw [pow_add]; ring
  rw [h1, Nat.mul_comm, Nat.mul_add_div (Nat.two_pow_pos lo), Nat.div_eq_of_lt hl, Nat.add_zero, Nat.mul_comm hi, Nat.mul_add_mod, Nat.mod_eq_of_lt hm]

theorem crcBit_xor (a b : Nat) (p q : Bool) : crcBit 8 7 (a ^^^ b) (p != q) = crcBit 8 7 a p ^^^ crcBit 8 7 b q := by
  have h1 : (a ^^^ b) * 2 % 2 ^ 8 = (a * 2 % 2 ^ 8) ^^^ (b * 2 % 2 ^ 8) := by
    rw [← Nat.xor_mod_two_pow]
    congr 1
    have := Nat.shiftLeft_xor_distrib (a := a) (b := b) (i := 1)
    simpa [Nat.shiftLeft_eq] using this
  have h2 : ((a ^^^ b) / 2 ^ 7 % 2 == 1) = ((a / 2 ^ 7 % 2 == 1) != (b / 2 ^ 7 % 2 == 1)) := by
    have h : ∀ x : Nat, (x / 2 ^ 7 % 2 == 1) = x.testBit 7 := by
      intro x; rw [Nat.testBit_eq_decide_div_mod_eq]; rfl
    rw [h, h, h, Nat.testBit_xor]
  unfold crcBit
  simp only [h1, show 8 - 1 = 7 from rfl, h2]
  generalize a * 2 % 2 ^ 8 = x
  generalize b * 2 % 2 ^ 8 = y
  generalize (a / 2 ^ 7 % 2 == 1) = u
  generalize (b / 2 ^ 7 % 2 == 1) = v
  cases u <;> cases v <;> cases p <;> cases q <;> simp [Nat.xor_assoc, Nat.xor_comm, Nat.xor_left_comm]

theorem crc_xor (x y : Nat) (n : Nat) : crcOf 8 7 0 (x ^^^ y) n = crcOf 8 7 0 x n ^^^ crcOf 8 7 0 y n := by
  induction n generalizing x y with
  | zero => simp [crcOf]
  | succ n ih =>
    unfold crcOf
    have h1 : (x ^^^ y) / 2 = (x / 2) ^^^ (y / 2) := by
      have := Nat.shiftRight_xor_distrib (a := x) (b := y) (i := 1)
      simpa [Nat.shiftRight_eq_div_pow] using this
    have h2 : ((x ^^^ y) % 2 == 1) = ((x % 2 == 1) != (y % 2 == 1)) := by
      have h : ∀ x : Nat, (x % 2 == 1) = x.testBit 0 := by
        intro x; rw [Nat.testBit_zero]; rfl
      rw [h, h, h, Nat.testBit_xor]
    rw [h1, ih, h2, crcBit_xor]

theorem crc_pow : ∀ j, j < 120 → crcOf 8 7 0 (2 ^ j) 120 ≠ 0 := by decide +kernel

theorem Cell.setBits_toNat (c : Cell) (lo w v : Nat) (h : lo + w ≤ 128) :
    (c.setBits lo w v).hdr.toNat = c.hdr.toNat / 2 ^ (lo + w) * 2 ^ (lo + w) + v % 2 ^ w * 2 ^ lo + c.hdr.toNat % 2 ^ lo := by
  unfold Cell.setBits Cell.bits
  simp only [BitVec.toNat_ofNat]
  have hx := c.hdr.isLt
  generalize c.hdr.toNat = x at *
  have e1 : x = x / 2 ^ (lo + w) * 2 ^ (lo + w) + x / 2 ^ lo % 2 ^ w * 2 ^ lo + x % 2 ^ lo := by
    have a := Nat.div_add_mod x (2 ^ lo)
    have b := Nat.div_add_mod (x / 2 ^ lo) (2 ^ w)
    rw [Nat.div_div_eq_div_mul, ← pow_add] at b
    have c : x / 2 ^ (lo + w) * 2 ^ (lo + w) + x / 2 ^ lo % 2 ^ w * 2 ^ lo = (2 ^ w * (x / 2 ^ (lo + w)) + x / 2 ^ lo % 2 ^ w) * 2 ^ lo := by
      rw [pow_add]; ring
    rw [c, b, Nat.mul_comm]; omega
  have e2 : x - x / 2 ^ lo % 2 ^ w * 2 ^ lo + v % 2 ^ w * 2 ^ lo =
      x / 2 ^ (lo + w) * 2 ^ (lo + w) + v % 2 ^ w * 2 ^ lo + x % 2 ^ lo := by omega
  rw [e2]
  apply Nat.mod_eq_of_lt
  have h1 : x / 2 ^ (lo + w) < 2 ^ (128 - (lo + w)) := by
    rw [Nat.div_lt_iff_lt_mul (Nat.two_pow_pos _), ← pow_add]
    rw [show 128 - (lo + w) + (lo + w) = 128 by omega]; exact hx
  have h2 : v % 2 ^ w * 2 ^ lo + x % 2 ^ lo < 2 ^ (lo + w) := by
    have a := Nat.mod_lt v (Nat.two_pow_pos w)
    have b := Nat.mod_lt x (Nat.two_pow_pos lo)
    have c : (v % 2 ^ w + 1) * 2 ^ lo ≤ 2 ^ w * 2 ^ lo := Nat.mul_le_mul_right _ a
    rw [← pow_add, Nat.add_comm w lo, Nat.add_mul] at c
    omega
  have h3 : (x / 2 ^ (lo + w) + 1) * 2 ^ (lo + w) ≤ 2 ^ (128 - (lo + w)) * 2 ^ (lo + w) := Nat.mul_le_mul_right _ h1
  rw [← pow_add, show 128 - (lo + w) + (lo + w) = 128 by omega, Nat.add_mul] at h3
  omega

theorem crcOf_lt (x n : Nat) : crcOf 8 7 0 x n < 256 := by
  induction n generalizing x with
  | zero => simp [crcOf]
  | succ n ih =>
    unfold crcOf crcBit
    have h1 : crcOf 8 7 0 (x / 2) n * 2 % 2 ^ 8 < 2 ^ 8 := Nat.mod_lt _ (by norm_num)
    simp only []
    split
    · exact Nat.xor_lt_two_pow h1 (by norm_num)
    · exact h1

end Sys2Proof.Machine
end

