-- ==== Sys2Proof/Laws/Dispatch.lean ====
section
/-! SUPPORT. The arm of each command: `exec` on a constructor is its meaning. -/

namespace Sys2Proof.Machine

theorem exec_nop (th : Tid) (f : FmtA) (ext : Ext) (s : State) :
    exec (.nop th f ext) s = execNop th f ext s := rfl
theorem exec_trap (th : Tid) (f : FmtI) (ext : Ext) (s : State) :
    exec (.trap th f ext) s = execTrap th f ext s := rfl
theorem exec_yield (th : Tid) (f : FmtA) (ext : Ext) (s : State) :
    exec (.yield th f ext) s = execYield th f ext s := rfl
theorem exec_halt (th : Tid) (f : FmtA) (ext : Ext) (s : State) :
    exec (.halt th f ext) s = execHalt th f ext s := rfl
theorem exec_eret (th : Tid) (f : FmtA) (ext : Ext) (s : State) :
    exec (.eret th f ext) s = execEret th f ext s := rfl
theorem exec_rdc (th : Tid) (f : FmtA) (ext : Ext) (s : State) :
    exec (.rdc th f ext) s = execRdc th f ext s := rfl
theorem exec_wrc (th : Tid) (f : FmtA) (ext : Ext) (s : State) :
    exec (.wrc th f ext) s = execWrc th f ext s := rfl
theorem exec_progSwap (th : Tid) (f : FmtA) (ext : Ext) (s : State) :
    exec (.progSwap th f ext) s = execProgSwap th f ext s := rfl
theorem exec_excFwd (th : Tid) (f : FmtA) (ext : Ext) (s : State) :
    exec (.excFwd th f ext) s = execExcFwd th f ext s := rfl
theorem exec_alu (th : Tid) (f : FmtA) (ext : Ext) (s : State) :
    exec (.alu th f ext) s = execAlu th f ext s := rfl
theorem exec_addi (th : Tid) (f : FmtI) (ext : Ext) (s : State) :
    exec (.addi th f ext) s = execAddi th f ext s := rfl
theorem exec_andi (th : Tid) (f : FmtI) (ext : Ext) (s : State) :
    exec (.andi th f ext) s = execAndi th f ext s := rfl
theorem exec_ori (th : Tid) (f : FmtI) (ext : Ext) (s : State) :
    exec (.ori th f ext) s = execOri th f ext s := rfl
theorem exec_xori (th : Tid) (f : FmtI) (ext : Ext) (s : State) :
    exec (.xori th f ext) s = execXori th f ext s := rfl
theorem exec_shli (th : Tid) (f : FmtI) (ext : Ext) (s : State) :
    exec (.shli th f ext) s = execShli th f ext s := rfl
theorem exec_shri (th : Tid) (f : FmtI) (ext : Ext) (s : State) :
    exec (.shri th f ext) s = execShri th f ext s := rfl
theorem exec_srai (th : Tid) (f : FmtI) (ext : Ext) (s : State) :
    exec (.srai th f ext) s = execSrai th f ext s := rfl
theorem exec_movi (th : Tid) (f : FmtW) (ext : Ext) (s : State) :
    exec (.movi th f ext) s = execMovi th f ext s := rfl
theorem exec_movk (th : Tid) (f : FmtW) (ext : Ext) (s : State) :
    exec (.movk th f ext) s = execMovk th f ext s := rfl
theorem exec_bit (th : Tid) (f : FmtA) (ext : Ext) (s : State) :
    exec (.bit th f ext) s = execBit th f ext s := rfl
theorem exec_sel (th : Tid) (f : FmtA) (ext : Ext) (s : State) :
    exec (.sel th f ext) s = execSel th f ext s := rfl
theorem exec_cmp (th : Tid) (f : FmtA) (ext : Ext) (s : State) :
    exec (.cmp th f ext) s = execCmp th f ext s := rfl
theorem exec_cmpiEq (th : Tid) (f : FmtI) (ext : Ext) (s : State) :
    exec (.cmpiEq th f ext) s = execCmpiEq th f ext s := rfl
theorem exec_cmpiLt (th : Tid) (f : FmtI) (ext : Ext) (s : State) :
    exec (.cmpiLt th f ext) s = execCmpiLt th f ext s := rfl
theorem exec_cmpiLtu (th : Tid) (f : FmtI) (ext : Ext) (s : State) :
    exec (.cmpiLtu th f ext) s = execCmpiLtu th f ext s := rfl
theorem exec_pop (th : Tid) (f : FmtA) (ext : Ext) (s : State) :
    exec (.pop th f ext) s = execPop th f ext s := rfl
theorem exec_tagGet (th : Tid) (f : FmtA) (ext : Ext) (s : State) :
    exec (.tagGet th f ext) s = execTagGet th f ext s := rfl
theorem exec_tagSet (th : Tid) (f : FmtA) (ext : Ext) (s : State) :
    exec (.tagSet th f ext) s = execTagSet th f ext s := rfl
theorem exec_tagSeti (th : Tid) (f : FmtI) (ext : Ext) (s : State) :
    exec (.tagSeti th f ext) s = execTagSeti th f ext s := rfl
theorem exec_tagTst (th : Tid) (f : FmtI) (ext : Ext) (s : State) :
    exec (.tagTst th f ext) s = execTagTst th f ext s := rfl
theorem exec_ldS (th : Tid) (f : FmtI) (ext : Ext) (ecc : Ecc) (s : State) :
    exec (.ldS th f ext ecc) s = execLdS th f ext ecc s := rfl
theorem exec_stS (th : Tid) (f : FmtI) (ext : Ext) (s : State) :
    exec (.stS th f ext) s = execStS th f ext s := rfl
theorem exec_ldD (th : Tid) (f : FmtI) (ext : Ext) (ecc : Ecc) (s : State) :
    exec (.ldD th f ext ecc) s = execLdD th f ext ecc s := rfl
theorem exec_stD (th : Tid) (f : FmtI) (ext : Ext) (s : State) :
    exec (.stD th f ext) s = execStD th f ext s := rfl
theorem exec_ldH (th : Tid) (f : FmtI) (ext : Ext) (s : State) :
    exec (.ldH th f ext) s = execLdH th f ext s := rfl
theorem exec_stH (th : Tid) (f : FmtI) (ext : Ext) (s : State) :
    exec (.stH th f ext) s = execStH th f ext s := rfl
theorem exec_ldW (th : Tid) (f : FmtA) (ext : Ext) (s : State) :
    exec (.ldW th f ext) s = execLdW th f ext s := rfl
theorem exec_stW (th : Tid) (f : FmtA) (ext : Ext) (s : State) :
    exec (.stW th f ext) s = execStW th f ext s := rfl
theorem exec_ldP (th : Tid) (f : FmtI) (ext : Ext) (s : State) :
    exec (.ldP th f ext) s = execLdP th f ext s := rfl
theorem exec_stP (th : Tid) (f : FmtI) (ext : Ext) (s : State) :
    exec (.stP th f ext) s = execStP th f ext s := rfl
theorem exec_amoS (th : Tid) (f : FmtA) (ext : Ext) (ecc : Ecc) (s : State) :
    exec (.amoS th f ext ecc) s = execAmoS th f ext ecc s := rfl
theorem exec_put (th : Tid) (f : FmtA) (ext : Ext) (s : State) :
    exec (.put th f ext) s = execPut th f ext s := rfl
theorem exec_get (th : Tid) (f : FmtA) (ext : Ext) (s : State) :
    exec (.get th f ext) s = execGet th f ext s := rfl
theorem exec_send (th : Tid) (f : FmtA) (ext : Ext) (s : State) :
    exec (.send th f ext) s = execSend th f ext s := rfl
theorem exec_udSend (th : Tid) (f : FmtA) (ext : Ext) (s : State) :
    exec (.udSend th f ext) s = execUdSend th f ext s := rfl
theorem exec_amo (th : Tid) (f : FmtA) (ext : Ext) (s : State) :
    exec (.amo th f ext) s = execAmo th f ext s := rfl
theorem exec_amoF (th : Tid) (f : FmtA) (ext : Ext) (s : State) :
    exec (.amoF th f ext) s = execAmoF th f ext s := rfl
theorem exec_mtPost (th : Tid) (f : FmtA) (ext : Ext) (s : State) :
    exec (.mtPost th f ext) s = execMtPost th f ext s := rfl
theorem exec_mtProbe (th : Tid) (f : FmtA) (ext : Ext) (s : State) :
    exec (.mtProbe th f ext) s = execMtProbe th f ext s := rfl
theorem exec_mtCancel (th : Tid) (f : FmtA) (ext : Ext) (s : State) :
    exec (.mtCancel th f ext) s = execMtCancel th f ext s := rfl
theorem exec_ctrAdd (th : Tid) (f : FmtI) (ext : Ext) (s : State) :
    exec (.ctrAdd th f ext) s = execCtrAdd th f ext s := rfl
theorem exec_ctrWait (th : Tid) (f : FmtA) (ext : Ext) (s : State) :
    exec (.ctrWait th f ext) s = execCtrWait th f ext s := rfl
theorem exec_ctrRead (th : Tid) (f : FmtA) (ext : Ext) (s : State) :
    exec (.ctrRead th f ext) s = execCtrRead th f ext s := rfl
theorem exec_defer (th : Tid) (f : FmtA) (ext : Ext) (nxt : IWord) (nxtExt : Ext) (s : State) :
    exec (.defer th f ext nxt nxtExt) s = execDefer th f ext nxt nxtExt s := rfl
theorem exec_colStep (th : Tid) (f : FmtA) (ext : Ext) (s : State) :
    exec (.colStep th f ext) s = execColStep th f ext s := rfl
theorem exec_colWait (th : Tid) (f : FmtA) (ext : Ext) (s : State) :
    exec (.colWait th f ext) s = execColWait th f ext s := rfl
theorem exec_colRed (th : Tid) (f : FmtA) (ext : Ext) (s : State) :
    exec (.colRed th f ext) s = execColRed th f ext s := rfl
theorem exec_colCtxCreate (th : Tid) (f : FmtA) (ext : Ext) (s : State) :
    exec (.colCtxCreate th f ext) s = execColCtxCreate th f ext s := rfl
theorem exec_colCtxDestroy (th : Tid) (f : FmtA) (ext : Ext) (s : State) :
    exec (.colCtxDestroy th f ext) s = execColCtxDestroy th f ext s := rfl
theorem exec_fenceLocal (th : Tid) (f : FmtA) (ext : Ext) (s : State) :
    exec (.fenceLocal th f ext) s = execFenceLocal th f ext s := rfl
theorem exec_fenceRemote (th : Tid) (f : FmtA) (ext : Ext) (s : State) :
    exec (.fenceRemote th f ext) s = execFenceRemote th f ext s := rfl
theorem exec_fenceDurable (th : Tid) (f : FmtA) (ext : Ext) (s : State) :
    exec (.fenceDurable th f ext) s = execFenceDurable th f ext s := rfl
theorem exec_pitAcq (th : Tid) (f : FmtA) (ext : Ext) (s : State) :
    exec (.pitAcq th f ext) s = execPitAcq th f ext s := rfl
theorem exec_pitTry (th : Tid) (f : FmtA) (ext : Ext) (s : State) :
    exec (.pitTry th f ext) s = execPitTry th f ext s := rfl
theorem exec_pitRel (th : Tid) (f : FmtA) (ext : Ext) (s : State) :
    exec (.pitRel th f ext) s = execPitRel th f ext s := rfl
theorem exec_br (th : Tid) (f : FmtB) (ext : Ext) (s : State) :
    exec (.br th f ext) s = execBr th f ext s := rfl
theorem exec_call (th : Tid) (f : FmtB) (ext : Ext) (s : State) :
    exec (.call th f ext) s = execCall th f ext s := rfl
theorem exec_jr (th : Tid) (f : FmtA) (ext : Ext) (s : State) :
    exec (.jr th f ext) s = execJr th f ext s := rfl
theorem exec_invoke (th : Tid) (f : FmtW) (ext : Ext) (s : State) :
    exec (.invoke th f ext) s = execInvoke th f ext s := rfl
theorem exec_timerExpire (th : Tid) (s : State) :
    exec (.timerExpire th) s = execTimerExpire th s := rfl
theorem exec_eventStart (th : Tid) (s : State) :
    exec (.eventStart th) s = execEventStart th s := rfl
theorem exec_imemFillDone (th : Tid) (cpl : Cpl) (s : State) :
    exec (.imemFillDone th cpl) s = execImemFillDone th cpl s := rfl
theorem exec_thrRestart (th : Eid) (s : State) :
    exec (.thrRestart th) s = execThrRestart th s := rfl
theorem exec_doorbell (a : Bar2) (size : Nat) (value : Option Word) (s : State) :
    exec (.doorbell a size value) s = execDoorbell a size value s := rfl
theorem exec_pushWrite (a : Bar2) (mask : BitVec 64) (data : BitVec 512) (s : State) :
    exec (.pushWrite a mask data) s = execPushWrite a mask data s := rfl
theorem exec_pushTimeout (q : Qid) (s : State) :
    exec (.pushTimeout q) s = execPushTimeout q s := rfl
theorem exec_wqEnable (q : Qid) (s : State) :
    exec (.wqEnable q) s = execWqEnable q s := rfl
theorem exec_wqDisable (q : Qid) (s : State) :
    exec (.wqDisable q) s = execWqDisable q s := rfl
theorem exec_wqResume (q : Qid) (s : State) :
    exec (.wqResume q) s = execWqResume q s := rfl
theorem exec_wqSkip (q : Qid) (s : State) :
    exec (.wqSkip q) s = execWqSkip q s := rfl
theorem exec_wqInval (q : Qid) (s : State) :
    exec (.wqInval q) s = execWqInval q s := rfl
theorem exec_wqHold (q : Qid) (v : Bool) (s : State) :
    exec (.wqHold q v) s = execWqHold q v s := rfl
theorem exec_wqProdWrite (q : Qid) (v : BitVec 32) (s : State) :
    exec (.wqProdWrite q v) s = execWqProdWrite q v s := rfl
theorem exec_wqEnableDone (q : Qid) (s : State) :
    exec (.wqEnableDone q) s = execWqEnableDone q s := rfl
theorem exec_wqDrainDone (q : Qid) (s : State) :
    exec (.wqDrainDone q) s = execWqDrainDone q s := rfl
theorem exec_wqDispatch (fn : Fid) (th : Eid) (s : State) :
    exec (.wqDispatch fn th) s = execWqDispatch fn th s := rfl
theorem exec_wqFetchDone (q : Qid) (cpl : Cpl) (s : State) :
    exec (.wqFetchDone q cpl) s = execWqFetchDone q cpl s := rfl
theorem exec_wqPrefetch (q : Qid) (seq : BitVec 32) (n : Nat) (s : State) :
    exec (.wqPrefetch q seq n) s = execWqPrefetch q seq n s := rfl
theorem exec_wqPrefetchDone (q : Qid) (seq : BitVec 32) (cpl : Cpl) (s : State) :
    exec (.wqPrefetchDone q seq cpl) s = execWqPrefetchDone q seq cpl s := rfl
theorem exec_statusRecordWrite (q : Qid) (s : State) :
    exec (.statusRecordWrite q) s = execStatusRecordWrite q s := rfl
theorem exec_xltWalkReadDone (walk : Nat) (cpl : Cpl) (s : State) :
    exec (.xltWalkReadDone walk cpl) s = execXltWalkReadDone walk cpl s := rfl
theorem exec_tlbAgeRelease (asid : BitVec 16) (va : BitVec 57) (walkCache : Bool) (s : State) :
    exec (.tlbAgeRelease asid va walkCache) s = execTlbAgeRelease asid va walkCache s := rfl
theorem exec_xltInvVa (p : Hid) (asid : BitVec 16) (size : BitVec 6) (walk : Bool) (s : State) :
    exec (.xltInvVa p asid size walk) s = execXltInvVa p asid size walk s := rfl
theorem exec_xltInvAsid (p : Hid) (asid : BitVec 16) (s : State) :
    exec (.xltInvAsid p asid) s = execXltInvAsid p asid s := rfl
theorem exec_xltInvAll (p : Hid) (s : State) :
    exec (.xltInvAll p) s = execXltInvAll p s := rfl
theorem exec_xltInvFlushIssue (p : Hid) (s : State) :
    exec (.xltInvFlushIssue p) s = execXltInvFlushIssue p s := rfl
theorem exec_xltInvDone (p : Hid) (link : Fin 2) (cpl : Cpl) (s : State) :
    exec (.xltInvDone p link cpl) s = execXltInvDone p link cpl s := rfl
theorem exec_winOpen (fn : Fid) (s : State) :
    exec (.winOpen fn) s = execWinOpen fn s := rfl
theorem exec_winRevoke (fn : Fid) (handle : BitVec 32) (s : State) :
    exec (.winRevoke fn handle) s = execWinRevoke fn handle s := rfl
theorem exec_winOpenDone (fn : Fid) (s : State) :
    exec (.winOpenDone fn) s = execWinOpenDone fn s := rfl
theorem exec_winDrainLimit (fn : Fid) (ticket : BitVec 32) (s : State) :
    exec (.winDrainLimit fn ticket) s = execWinDrainLimit fn ticket s := rfl
theorem exec_winRevokeFlush (fn : Fid) (ticket : BitVec 32) (s : State) :
    exec (.winRevokeFlush fn ticket) s = execWinRevokeFlush fn ticket s := rfl
theorem exec_winRevokeFree (fn : Fid) (ticket : BitVec 32) (cpl : Cpl) (s : State) :
    exec (.winRevokeFree fn ticket cpl) s = execWinRevokeFree fn ticket cpl s := rfl
theorem exec_rxPut (c : Cell) (s : State) :
    exec (.rxPut c) s = execRxPut c s := rfl
theorem exec_rxGet (c : Cell) (s : State) :
    exec (.rxGet c) s = execRxGet c s := rfl
theorem exec_rxSend (c : Cell) (s : State) :
    exec (.rxSend c) s = execRxSend c s := rfl
theorem exec_rxSendRdv (c : Cell) (s : State) :
    exec (.rxSendRdv c) s = execRxSendRdv c s := rfl
theorem exec_rxUd (c : Cell) (s : State) :
    exec (.rxUd c) s = execRxUd c s := rfl
theorem exec_rxAmo (c : Cell) (s : State) :
    exec (.rxAmo c) s = execRxAmo c s := rfl
theorem exec_rxAmoF (c : Cell) (s : State) :
    exec (.rxAmoF c) s = execRxAmoF c s := rfl
theorem exec_rxFlush (c : Cell) (s : State) :
    exec (.rxFlush c) s = execRxFlush c s := rfl
theorem exec_rxRelease (c : Cell) (s : State) :
    exec (.rxRelease c) s = execRxRelease c s := rfl
theorem exec_rxDataCell (c : Cell) (s : State) :
    exec (.rxDataCell c) s = execRxDataCell c s := rfl
theorem exec_rmaResponseSend (src : DevId) (slot : Sid) (gen : BitVec 4) (s : State) :
    exec (.rmaResponseSend src slot gen) s = execRmaResponseSend src slot gen s := rfl
theorem exec_durFlushDone (src : DevId) (slot : Sid) (gen : BitVec 4) (cpl : Cpl) (s : State) :
    exec (.durFlushDone src slot gen cpl) s = execDurFlushDone src slot gen cpl s := rfl
theorem exec_getSourceReadDone (job : Nat) (off : Nat) (cpl : Cpl) (s : State) :
    exec (.getSourceReadDone job off cpl) s = execGetSourceReadDone job off cpl s := rfl
theorem exec_amoReadDone (job : Nat) (cpl : Cpl) (s : State) :
    exec (.amoReadDone job cpl) s = execAmoReadDone job cpl s := rfl
theorem exec_rxGetReply (c : Cell) (s : State) :
    exec (.rxGetReply c) s = execRxGetReply c s := rfl
theorem exec_rmaResponse (c : Cell) (s : State) :
    exec (.rmaResponse c) s = execRmaResponse c s := rfl
theorem exec_rmaRetryTimeout (slot : Sid) (s : State) :
    exec (.rmaRetryTimeout slot) s = execRmaRetryTimeout slot s := rfl
theorem exec_slotQuietExpire (slot : Sid) (s : State) :
    exec (.slotQuietExpire slot) s = execSlotQuietExpire slot s := rfl
theorem exec_rxIdleClose (src : DevId) (slot : Sid) (gen : BitVec 4) (s : State) :
    exec (.rxIdleClose src slot gen) s = execRxIdleClose src slot gen s := rfl
theorem exec_cairnExpire (src : DevId) (slot : Sid) (gen : BitVec 4) (s : State) :
    exec (.cairnExpire src slot gen) s = execCairnExpire src slot gen s := rfl
theorem exec_getReserve (slot : Sid) (s : State) :
    exec (.getReserve slot) s = execGetReserve slot s := rfl
theorem exec_msgReadDone (slot : Sid) (off : Nat) (cpl : Cpl) (s : State) :
    exec (.msgReadDone slot off cpl) s = execMsgReadDone slot off cpl s := rfl
theorem exec_ccAdmit (dev : DevId) (s : State) :
    exec (.ccAdmit dev) s = execCcAdmit dev s := rfl
theorem exec_ccEntryIdleRelease (dev : DevId) (s : State) :
    exec (.ccEntryIdleRelease dev) s = execCcEntryIdleRelease dev s := rfl
theorem exec_ccReprobeEnd (dev : DevId) (s : State) :
    exec (.ccReprobeEnd dev) s = execCcReprobeEnd dev s := rfl
theorem exec_mtHoldTimeout (fn : Fid) (src : DevId) (slot : Sid) (gen : BitVec 4) (s : State) :
    exec (.mtHoldTimeout fn src slot gen) s = execMtHoldTimeout fn src slot gen s := rfl
theorem exec_orderIdleRelease (fn : Fid) (src : Endp) (s : State) :
    exec (.orderIdleRelease fn src) s = execOrderIdleRelease fn src s := rfl
theorem exec_sendStreamRelease (fn : Fid) (dst : Endp) (s : State) :
    exec (.sendStreamRelease fn dst) s = execSendStreamRelease fn dst s := rfl
theorem exec_mtUxCopyDone (fn : Fid) (id : Nat) (s : State) :
    exec (.mtUxCopyDone fn id) s = execMtUxCopyDone fn id s := rfl
theorem exec_rcqConsWrite (fn : Fid) (v : BitVec 32) (s : State) :
    exec (.rcqConsWrite fn v) s = execRcqConsWrite fn v s := rfl
theorem exec_mtDomainDisable (fn : Fid) (s : State) :
    exec (.mtDomainDisable fn) s = execMtDomainDisable fn s := rfl
theorem exec_rxColLink (c : Cell) (s : State) :
    exec (.rxColLink c) s = execRxColLink c s := rfl
theorem exec_rxColLinkAck (c : Cell) (s : State) :
    exec (.rxColLinkAck c) s = execRxColLinkAck c s := rfl
theorem exec_rxColUp (c : Cell) (s : State) :
    exec (.rxColUp c) s = execRxColUp c s := rfl
theorem exec_rxColDown (c : Cell) (s : State) :
    exec (.rxColDown c) s = execRxColDown c s := rfl
theorem exec_rxColUpExp (c : Cell) (s : State) :
    exec (.rxColUpExp c) s = execRxColUpExp c s := rfl
theorem exec_rxColDownExp (c : Cell) (s : State) :
    exec (.rxColDownExp c) s = execRxColDownExp c s := rfl
theorem exec_rxColUpAck (c : Cell) (s : State) :
    exec (.rxColUpAck c) s = execRxColUpAck c s := rfl
theorem exec_rxColDownAck (c : Cell) (s : State) :
    exec (.rxColDownAck c) s = execRxColDownAck c s := rfl
theorem exec_rxColAbort (c : Cell) (s : State) :
    exec (.rxColAbort c) s = execRxColAbort c s := rfl
theorem exec_colLinkRepeat (n : Cid) (s : State) :
    exec (.colLinkRepeat n) s = execColLinkRepeat n s := rfl
theorem exec_colLinkTimeout (n : Cid) (s : State) :
    exec (.colLinkTimeout n) s = execColLinkTimeout n s := rfl
theorem exec_colPhaseRetry (n : Cid) (peer : Nat) (s : State) :
    exec (.colPhaseRetry n peer) s = execColPhaseRetry n peer s := rfl
theorem exec_colContribReadDone (n : Cid) (off : Nat) (cpl : Cpl) (s : State) :
    exec (.colContribReadDone n off cpl) s = execColContribReadDone n off cpl s := rfl
theorem exec_colCtxFree (n : Cid) (s : State) :
    exec (.colCtxFree n) s = execColCtxFree n s := rfl
theorem exec_colCtxAbort (n : Cid) (s : State) :
    exec (.colCtxAbort n) s = execColCtxAbort n s := rfl
theorem exec_schInject (room : BitVec 4) (s : State) :
    exec (.schInject room) s = execSchInject room s := rfl
theorem exec_cellForward (p : Pid) (vc : Fin 16) (s : State) :
    exec (.cellForward p vc) s = execCellForward p vc s := rfl
theorem exec_cellResidenceExpire (p : Pid) (vc : Fin 16) (s : State) :
    exec (.cellResidenceExpire p vc) s = execCellResidenceExpire p vc s := rfl
theorem exec_portRediscover (p : Pid) (s : State) :
    exec (.portRediscover p) s = execPortRediscover p s := rfl
theorem exec_rteSeedWrite (v : Word) (s : State) :
    exec (.rteSeedWrite v) s = execRteSeedWrite v s := rfl
theorem exec_schRefill (s : State) :
    exec (.schRefill) s = execSchRefill s := rfl
theorem exec_shaperEnable (fn : Fid) (s : State) :
    exec (.shaperEnable fn) s = execShaperEnable fn s := rfl
theorem exec_meterEnable (fn : Fid) (s : State) :
    exec (.meterEnable fn) s = execMeterEnable fn s := rfl
theorem exec_udpEnable (q : Qid) (s : State) :
    exec (.udpEnable q) s = execUdpEnable q s := rfl
theorem exec_gateArm (p : Pid) (s : State) :
    exec (.gateArm p) s = execGateArm p s := rfl
theorem exec_gateDisarm (p : Pid) (s : State) :
    exec (.gateDisarm p) s = execGateDisarm p s := rfl
theorem exec_gateDisable (p : Pid) (s : State) :
    exec (.gateDisable p) s = execGateDisable p s := rfl
theorem exec_gateBankActivate (p : Pid) (s : State) :
    exec (.gateBankActivate p) s = execGateBankActivate p s := rfl
theorem exec_gateEntryAdvance (p : Pid) (s : State) :
    exec (.gateEntryAdvance p) s = execGateEntryAdvance p s := rfl
theorem exec_belayFrameSend (p : Pid) (s : State) :
    exec (.belayFrameSend p) s = execBelayFrameSend p s := rfl
theorem exec_belayDataRx (p : Pid) (fr : DataFrame) (s : State) :
    exec (.belayDataRx p fr) s = execBelayDataRx p fr s := rfl
theorem exec_belayIdleRx (p : Pid) (hdr : FrameHdr) (s : State) :
    exec (.belayIdleRx p hdr) s = execBelayIdleRx p hdr s := rfl
theorem exec_belayInitRx (p : Pid) (fr : CtlFrame) (s : State) :
    exec (.belayInitRx p fr) s = execBelayInitRx p fr s := rfl
theorem exec_belayCreditRx (p : Pid) (fr : CtlFrame) (s : State) :
    exec (.belayCreditRx p fr) s = execBelayCreditRx p fr s := rfl
theorem exec_belayDiscoverRx (p : Pid) (fr : CtlFrame) (s : State) :
    exec (.belayDiscoverRx p fr) s = execBelayDiscoverRx p fr s := rfl
theorem exec_belayTimeReqRx (p : Pid) (fr : CtlFrame) (s : State) :
    exec (.belayTimeReqRx p fr) s = execBelayTimeReqRx p fr s := rfl
theorem exec_belayTimeRespRx (p : Pid) (fr : CtlFrame) (s : State) :
    exec (.belayTimeRespRx p fr) s = execBelayTimeRespRx p fr s := rfl
theorem exec_parkRequestRx (p : Pid) (fr : CtlFrame) (s : State) :
    exec (.parkRequestRx p fr) s = execParkRequestRx p fr s := rfl
theorem exec_parkAgreeRx (p : Pid) (fr : CtlFrame) (s : State) :
    exec (.parkAgreeRx p fr) s = execParkAgreeRx p fr s := rfl
theorem exec_parkRefuseRx (p : Pid) (fr : CtlFrame) (s : State) :
    exec (.parkRefuseRx p fr) s = execParkRefuseRx p fr s := rfl
theorem exec_parkWakeRx (p : Pid) (fr : CtlFrame) (s : State) :
    exec (.parkWakeRx p fr) s = execParkWakeRx p fr s := rfl
theorem exec_belayDownRx (p : Pid) (fr : CtlFrame) (s : State) :
    exec (.belayDownRx p fr) s = execBelayDownRx p fr s := rfl
theorem exec_belayAckTimer (p : Pid) (s : State) :
    exec (.belayAckTimer p) s = execBelayAckTimer p s := rfl
theorem exec_belayReplayTimeout (p : Pid) (s : State) :
    exec (.belayReplayTimeout p) s = execBelayReplayTimeout p s := rfl
theorem exec_belayFrameLife (p : Pid) (s : State) :
    exec (.belayFrameLife p) s = execBelayFrameLife p s := rfl
theorem exec_belayCreditTimer (p : Pid) (s : State) :
    exec (.belayCreditTimer p) s = execBelayCreditTimer p s := rfl
theorem exec_belayInitRepeat (p : Pid) (s : State) :
    exec (.belayInitRepeat p) s = execBelayInitRepeat p s := rfl
theorem exec_belayDiscoverRepeat (p : Pid) (s : State) :
    exec (.belayDiscoverRepeat p) s = execBelayDiscoverRepeat p s := rfl
theorem exec_belayLockTimeout (p : Pid) (s : State) :
    exec (.belayLockTimeout p) s = execBelayLockTimeout p s := rfl
theorem exec_belayInitTimeout (p : Pid) (s : State) :
    exec (.belayInitTimeout p) s = execBelayInitTimeout p s := rfl
theorem exec_belayRelockTimeout (p : Pid) (s : State) :
    exec (.belayRelockTimeout p) s = execBelayRelockTimeout p s := rfl
theorem exec_belayFramingLoss (p : Pid) (s : State) :
    exec (.belayFramingLoss p) s = execBelayFramingLoss p s := rfl
theorem exec_belayErrDecay (p : Pid) (s : State) :
    exec (.belayErrDecay p) s = execBelayErrDecay p s := rfl
theorem exec_belayDegradedRetrain (p : Pid) (s : State) :
    exec (.belayDegradedRetrain p) s = execBelayDegradedRetrain p s := rfl
theorem exec_belayCreditAudit (p : Pid) (s : State) :
    exec (.belayCreditAudit p) s = execBelayCreditAudit p s := rfl
theorem exec_linkDownCmd (p : Pid) (s : State) :
    exec (.linkDownCmd p) s = execLinkDownCmd p s := rfl
theorem exec_laneEnSet (p : Pid) (s : State) :
    exec (.laneEnSet p) s = execLaneEnSet p s := rfl
theorem exec_laneEnClear (p : Pid) (s : State) :
    exec (.laneEnClear p) s = execLaneEnClear p s := rfl
theorem exec_laneRetrain (p : Pid) (s : State) :
    exec (.laneRetrain p) s = execLaneRetrain p s := rfl
theorem exec_laneRecal (p : Pid) (cal : CalIn) (s : State) :
    exec (.laneRecal p cal) s = execLaneRecal p cal s := rfl
theorem exec_trainDetectDone (p : Pid) (rxOpen : BitVec 4) (rxShort : BitVec 4) (txOpen : BitVec 4) (txShort : BitVec 4) (s : State) :
    exec (.trainDetectDone p rxOpen rxShort txOpen txShort) s = execTrainDetectDone p rxOpen rxShort txOpen txShort s := rfl
theorem exec_trainCalDone (p : Pid) (busy : BitVec 4) (failed : BitVec 4) (s : State) :
    exec (.trainCalDone p busy failed) s = execTrainCalDone p busy failed s := rfl
theorem exec_trainFrameRx (p : Pid) (lane : Fin 4) (inverted : Bool) (crc : BitVec 16) (rx : TrainRx) (ctl : BitVec 112) (s : State) :
    exec (.trainFrameRx p lane inverted crc rx ctl) s = execTrainFrameRx p lane inverted crc rx ctl s := rfl
theorem exec_trainTimeout (p : Pid) (energy : BitVec 4) (clock : BitVec 4) (s : State) :
    exec (.trainTimeout p energy clock) s = execTrainTimeout p energy clock s := rfl
theorem exec_trainAlignDone (p : Pid) (s : State) :
    exec (.trainAlignDone p) s = execTrainAlignDone p s := rfl
theorem exec_trainAlignTimeout (p : Pid) (s : State) :
    exec (.trainAlignTimeout p) s = execTrainAlignTimeout p s := rfl
theorem exec_trainRetry (p : Pid) (s : State) :
    exec (.trainRetry p) s = execTrainRetry p s := rfl
theorem exec_laneLoss (p : Pid) (lanes : BitVec 4) (fault : Fin 3) (s : State) :
    exec (.laneLoss p lanes fault) s = execLaneLoss p lanes fault s := rfl
theorem exec_serWindow (p : Pid) (lane : Fin 4) (ser : BitVec 24) (symbols : Nat) (s : State) :
    exec (.serWindow p lane ser symbols) s = execSerWindow p lane ser symbols s := rfl
theorem exec_modInsert (p : Pid) (cmis : BitVec 8) (s : State) :
    exec (.modInsert p cmis) s = execModInsert p cmis s := rfl
theorem exec_modReady (p : Pid) (cmis : BitVec 8) (s : State) :
    exec (.modReady p cmis) s = execModReady p cmis s := rfl
theorem exec_modReadyTimeout (p : Pid) (reported : Bool) (s : State) :
    exec (.modReadyTimeout p reported) s = execModReadyTimeout p reported s := rfl
theorem exec_modRemove (p : Pid) (s : State) :
    exec (.modRemove p) s = execModRemove p s := rfl
theorem exec_modAlarm (p : Pid) (s : State) :
    exec (.modAlarm p) s = execModAlarm p s := rfl
theorem exec_portParkRequest (p : Pid) (s : State) :
    exec (.portParkRequest p) s = execPortParkRequest p s := rfl
theorem exec_parkTimeout (p : Pid) (s : State) :
    exec (.parkTimeout p) s = execParkTimeout p s := rfl
theorem exec_parkSignalLost (p : Pid) (s : State) :
    exec (.parkSignalLost p) s = execParkSignalLost p s := rfl
theorem exec_portWake (p : Pid) (s : State) :
    exec (.portWake p) s = execPortWake p s := rfl
theorem exec_parkSignalDetect (p : Pid) (s : State) :
    exec (.parkSignalDetect p) s = execParkSignalDetect p s := rfl
theorem exec_parkRelockDone (p : Pid) (ok : Bool) (s : State) :
    exec (.parkRelockDone p ok) s = execParkRelockDone p ok s := rfl
theorem exec_parkedRecal (p : Pid) (cal : CalIn) (s : State) :
    exec (.parkedRecal p cal) s = execParkedRecal p cal s := rfl
theorem exec_ropeHelloRx (r : Fin 2) (k : RopeFrame) (s : State) :
    exec (.ropeHelloRx r k) s = execRopeHelloRx r k s := rfl
theorem exec_ropeTimeRx (r : Fin 2) (k : RopeFrame) (s : State) :
    exec (.ropeTimeRx r k) s = execRopeTimeRx r k s := rfl
theorem exec_ropeFaultRx (r : Fin 2) (k : RopeFrame) (s : State) :
    exec (.ropeFaultRx r k) s = execRopeFaultRx r k s := rfl
theorem exec_ropeMgmtRx (r : Fin 2) (k : RopeFrame) (s : State) :
    exec (.ropeMgmtRx r k) s = execRopeMgmtRx r k s := rfl
theorem exec_ropeHelloTimer (s : State) :
    exec (.ropeHelloTimer) s = execRopeHelloTimer s := rfl
theorem exec_ropeFaultRepeat (s : State) :
    exec (.ropeFaultRepeat) s = execRopeFaultRepeat s := rfl
theorem exec_ropeAlignRx (r : Fin 2) (lane0 : BitVec 24) (lane1 : BitVec 24) (skew : Nat) (s : State) :
    exec (.ropeAlignRx r lane0 lane1 skew) s = execRopeAlignRx r lane0 lane1 skew s := rfl
theorem exec_ropeAlignTimeout (l : RopeLoss) (s : State) :
    exec (.ropeAlignTimeout l) s = execRopeAlignTimeout l s := rfl
theorem exec_timeExchangeTimer (s : State) :
    exec (.timeExchangeTimer) s = execTimeExchangeTimer s := rfl
theorem exec_timeSet (v : Word) (s : State) :
    exec (.timeSet v) s = execTimeSet v s := rfl
theorem exec_servoEnable (s : State) :
    exec (.servoEnable) s = execServoEnable s := rfl
theorem exec_ppsEdge (t16 : BitVec 80) (tenOk : Bool) (s : State) :
    exec (.ppsEdge t16 tenOk) s = execPpsEdge t16 tenOk s := rfl
theorem exec_timeNowRead (s : State) :
    exec (.timeNowRead) s = execTimeNowRead s := rfl
theorem exec_hostPerstAssert (p : Hid) (s : State) :
    exec (.hostPerstAssert p) s = execHostPerstAssert p s := rfl
theorem exec_hostPerstDeassert (p : Hid) (s : State) :
    exec (.hostPerstDeassert p) s = execHostPerstDeassert p s := rfl
theorem exec_hostLinkDown (p : Hid) (link : Fin 2) (s : State) :
    exec (.hostLinkDown p link) s = execHostLinkDown p link s := rfl
theorem exec_flr (fn : Fid) (s : State) :
    exec (.flr fn) s = execFlr fn s := rfl
theorem exec_busMasterClear (fn : Fid) (s : State) :
    exec (.busMasterClear fn) s = execBusMasterClear fn s := rfl
theorem exec_vfEnableClear (fn : Fid) (vfEnable : Bool) (numVfs : Fin 256) (s : State) :
    exec (.vfEnableClear fn vfEnable numVfs) s = execVfEnableClear fn vfEnable numVfs s := rfl
theorem exec_fnEnSet (fn : Fid) (s : State) :
    exec (.fnEnSet fn) s = execFnEnSet fn s := rfl
theorem exec_fnEnClear (fn : Fid) (s : State) :
    exec (.fnEnClear fn) s = execFnEnClear fn s := rfl
theorem exec_fnEnableDone (fn : Fid) (s : State) :
    exec (.fnEnableDone fn) s = execFnEnableDone fn s := rfl
theorem exec_fnDrainDone (fn : Fid) (s : State) :
    exec (.fnDrainDone fn) s = execFnDrainDone fn s := rfl
theorem exec_fnForceStop (fn : Fid) (s : State) :
    exec (.fnForceStop fn) s = execFnForceStop fn s := rfl
theorem exec_hostReadCompletion (tag : Nat) (cpl : Cpl) (s : State) :
    exec (.hostReadCompletion tag cpl) s = execHostReadCompletion tag cpl s := rfl
theorem exec_hostCplTimeout (tag : Nat) (s : State) :
    exec (.hostCplTimeout tag) s = execHostCplTimeout tag s := rfl
theorem exec_intClaim (t : Tgt) (s : State) :
    exec (.intClaim t) s = execIntClaim t s := rfl
theorem exec_intComplete (t : Tgt) (n : BitVec 12) (s : State) :
    exec (.intComplete t n) s = execIntComplete t n s := rfl
theorem exec_intSetpend (t : Tgt) (n : BitVec 12) (s : State) :
    exec (.intSetpend t n) s = execIntSetpend t n s := rfl
theorem exec_intClrpend (t : Tgt) (n : BitVec 12) (s : State) :
    exec (.intClrpend t n) s = execIntClrpend t n s := rfl
theorem exec_msixUnmask (fn : Fid) (s : State) :
    exec (.msixUnmask fn) s = execMsixUnmask fn s := rfl
theorem exec_dmaChStart (c : Clu) (h : Fin 64) (s : State) :
    exec (.dmaChStart c h) s = execDmaChStart c h s := rfl
theorem exec_dmaChPause (c : Clu) (h : Fin 64) (s : State) :
    exec (.dmaChPause c h) s = execDmaChPause c h s := rfl
theorem exec_dmaChResume (c : Clu) (h : Fin 64) (s : State) :
    exec (.dmaChResume c h) s = execDmaChResume c h s := rfl
theorem exec_dmaChReset (c : Clu) (h : Fin 64) (s : State) :
    exec (.dmaChReset c h) s = execDmaChReset c h s := rfl
theorem exec_dmaPaused (c : Clu) (h : Fin 64) (s : State) :
    exec (.dmaPaused c h) s = execDmaPaused c h s := rfl
theorem exec_dmaDataReadDone (c : Clu) (h : Fin 64) (cpl : Cpl) (s : State) :
    exec (.dmaDataReadDone c h cpl) s = execDmaDataReadDone c h cpl s := rfl
theorem exec_dmaListFetchDone (c : Clu) (h : Fin 64) (cpl : Cpl) (s : State) :
    exec (.dmaListFetchDone c h cpl) s = execDmaListFetchDone c h cpl s := rfl
theorem exec_dmaRlimWrite (c : Clu) (h : Fin 64) (v : Word) (s : State) :
    exec (.dmaRlimWrite c h v) s = execDmaRlimWrite c h v s := rfl
theorem exec_dmaClusterStopDone (c : Clu) (s : State) :
    exec (.dmaClusterStopDone c) s = execDmaClusterStopDone c s := rfl
theorem exec_dmaClClear (c : Clu) (s : State) :
    exec (.dmaClClear c) s = execDmaClClear c s := rfl
theorem exec_dmaCtrAddWrite (v : CtrAddW) (s : State) :
    exec (.dmaCtrAddWrite v) s = execDmaCtrAddWrite v s := rfl
theorem exec_dmaCtrValWrite (v : BitVec 48) (s : State) :
    exec (.dmaCtrValWrite v) s = execDmaCtrValWrite v s := rfl
theorem exec_dmaCtrArm (v : BitVec 48) (s : State) :
    exec (.dmaCtrArm v) s = execDmaCtrArm v s := rfl
theorem exec_deferFire (s : State) :
    exec (.deferFire) s = execDeferFire s := rfl
theorem exec_pitLockRead (fn : Fid) (n : BitVec 12) (s : State) :
    exec (.pitLockRead fn n) s = execPitLockRead fn n s := rfl
theorem exec_pitLockWrite (fn : Fid) (n : BitVec 12) (s : State) :
    exec (.pitLockWrite fn n) s = execPitLockWrite fn n s := rfl
theorem exec_pitHostWaitExpire (fn : Fid) (n : BitVec 12) (s : State) :
    exec (.pitHostWaitExpire fn n) s = execPitHostWaitExpire fn n s := rfl
theorem exec_pitEngWaitExpire (th : Tid) (s : State) :
    exec (.pitEngWaitExpire th) s = execPitEngWaitExpire th s := rfl
theorem exec_depBufAlloc (r : Req) (s : State) :
    exec (.depBufAlloc r) s = execDepBufAlloc r s := rfl
theorem exec_depBufFree (r : Req) (addr : BitVec 36) (s : State) :
    exec (.depBufFree r addr) s = execDepBufFree r addr s := rfl
theorem exec_depAccRead (r : Req) (ecc : Ecc) (s : State) :
    exec (.depAccRead r ecc) s = execDepAccRead r ecc s := rfl
theorem exec_depAccWrite (r : Req) (v : Word) (s : State) :
    exec (.depAccWrite r v) s = execDepAccWrite r v s := rfl
theorem exec_poolAudit (s : State) :
    exec (.poolAudit) s = execPoolAudit s := rfl
theorem exec_poolWalk (s : State) :
    exec (.poolWalk) s = execPoolWalk s := rfl
theorem exec_scrubStep (found : Ecc) (at_ : ScrubAt) (s : State) :
    exec (.scrubStep found at_) s = execScrubStep found at_ s := rfl
theorem exec_arbGrant (a : Fin 6) (inst : Fin 64) (arrivals : List (Fin 64)) (s : State) :
    exec (.arbGrant a inst arrivals) s = execArbGrant a inst arrivals s := rfl
theorem exec_arbHoldCut (a : Fin 6) (inst : Fin 64) (s : State) :
    exec (.arbHoldCut a inst) s = execArbHoldCut a inst s := rfl
theorem exec_depotPreempt (inst : Fin 64) (by_ : Fin 2) (s : State) :
    exec (.depotPreempt inst by_) s = execDepotPreempt inst by_ s := rfl
theorem exec_depotSelfRefresh (s : State) :
    exec (.depotSelfRefresh) s = execDepotSelfRefresh s := rfl
theorem exec_clusterClockGate (u : Fin 32) (s : State) :
    exec (.clusterClockGate u) s = execClusterClockGate u s := rfl
theorem exec_clusterPowerGate (u : Fin 32) (s : State) :
    exec (.clusterPowerGate u) s = execClusterPowerGate u s := rfl
theorem exec_unitWakeDone (u : Fin 32) (s : State) :
    exec (.unitWakeDone u) s = execUnitWakeDone u s := rfl
theorem exec_powerOn (s : State) :
    exec (.powerOn) s = execPowerOn s := rfl
theorem exec_vaonLoss (s : State) :
    exec (.vaonLoss) s = execVaonLoss s := rfl
theorem exec_sysReset (s : State) :
    exec (.sysReset) s = execSysReset s := rfl
theorem exec_sysResetRelease (s : State) :
    exec (.sysResetRelease) s = execSysResetRelease s := rfl
theorem exec_wakeN (s : State) :
    exec (.wakeN) s = execWakeN s := rfl
theorem exec_railPgRise (k : Fin 5) (s : State) :
    exec (.railPgRise k) s = execRailPgRise k s := rfl
theorem exec_railDownStep (k : Fin 5) (s : State) :
    exec (.railDownStep k) s = execRailDownStep k s := rfl
theorem exec_railPgTimeout (k : Fin 5) (s : State) :
    exec (.railPgTimeout k) s = execRailPgTimeout k s := rfl
theorem exec_railPgLost (k : Fin 5) (s : State) :
    exec (.railPgLost k) s = execRailPgLost k s := rfl
theorem exec_fwLoadDone (s : State) :
    exec (.fwLoadDone) s = execFwLoadDone s := rfl
theorem exec_fwReady (s : State) :
    exec (.fwReady) s = execFwReady s := rfl
theorem exec_fwSwapTimeout (s : State) :
    exec (.fwSwapTimeout) s = execFwSwapTimeout s := rfl
theorem exec_mbxGetInfo (m : Fin 8) (s : State) :
    exec (.mbxGetInfo m) s = execMbxGetInfo m s := rfl
theorem exec_mbxGateWrite (m : Fin 8) (s : State) :
    exec (.mbxGateWrite m) s = execMbxGateWrite m s := rfl
theorem exec_mbxFwStage (m : Fin 8) (s : State) :
    exec (.mbxFwStage m) s = execMbxFwStage m s := rfl
theorem exec_mbxFwActivate (m : Fin 8) (s : State) :
    exec (.mbxFwActivate m) s = execMbxFwActivate m s := rfl
theorem exec_mbxFuseRollback (m : Fin 8) (s : State) :
    exec (.mbxFuseRollback m) s = execMbxFuseRollback m s := rfl
theorem exec_mbxKeyRevoke (m : Fin 8) (s : State) :
    exec (.mbxKeyRevoke m) s = execMbxKeyRevoke m s := rfl
theorem exec_mbxModulePage (m : Fin 8) (s : State) :
    exec (.mbxModulePage m) s = execMbxModulePage m s := rfl
theorem exec_mbxParam (m : Fin 8) (s : State) :
    exec (.mbxParam m) s = execMbxParam m s := rfl
theorem exec_mbxBivouac (m : Fin 8) (s : State) :
    exec (.mbxBivouac m) s = execMbxBivouac m s := rfl
theorem exec_pldmMessage (s : State) :
    exec (.pldmMessage) s = execPldmMessage s := rfl
theorem exec_sidebandRead (s : State) :
    exec (.sidebandRead) s = execSidebandRead s := rfl
theorem exec_excServe (fn : Fid) (status : Word) (value : Word) (s : State) :
    exec (.excServe fn status value) s = execExcServe fn status value s := rfl
theorem exec_ctlDispatch (s : State) :
    exec (.ctlDispatch) s = execCtlDispatch s := rfl
theorem exec_ctlSend (c : Cell) (s : State) :
    exec (.ctlSend c) s = execCtlSend c s := rfl
theorem exec_txnBegin (r : Req) (s : State) :
    exec (.txnBegin r) s = execTxnBegin r s := rfl
theorem exec_txnCommit (r : Req) (s : State) :
    exec (.txnCommit r) s = execTxnCommit r s := rfl
theorem exec_txnRollback (r : Req) (s : State) :
    exec (.txnRollback r) s = execTxnRollback r s := rfl
theorem exec_txnApplied (r : Req) (s : State) :
    exec (.txnApplied r) s = execTxnApplied r s := rfl
theorem exec_txnTimeout (r : Req) (s : State) :
    exec (.txnTimeout r) s = execTxnTimeout r s := rfl
theorem exec_pwrEnterBivouac (s : State) :
    exec (.pwrEnterBivouac) s = execPwrEnterBivouac s := rfl
theorem exec_faultReport (srcs : BitVec 64) (s : State) :
    exec (.faultReport srcs) s = execFaultReport srcs s := rfl
theorem exec_fltPairInvalid (src : Fin 64) (s : State) :
    exec (.fltPairInvalid src) s = execFltPairInvalid src s := rfl
theorem exec_fltTest (src : Fin 64) (s : State) :
    exec (.fltTest src) s = execFltTest src s := rfl
theorem exec_fltLock (s : State) :
    exec (.fltLock) s = execFltLock s := rfl
theorem exec_dbgLock (s : State) :
    exec (.dbgLock) s = execDbgLock s := rfl
theorem exec_thermSample (temps : List (BitVec 11)) (s : State) :
    exec (.thermSample temps) s = execThermSample temps s := rfl
theorem exec_curGovSample (amps : BitVec 11) (s : State) :
    exec (.curGovSample amps) s = execCurGovSample amps s := rfl
theorem exec_pmcSnapshot (s : State) :
    exec (.pmcSnapshot) s = execPmcSnapshot s := rfl
theorem exec_pmcSnap (s : State) :
    exec (.pmcSnap) s = execPmcSnap s := rfl
theorem exec_pmcCtrValWrite (k : Fin 1024) (v : Word) (s : State) :
    exec (.pmcCtrValWrite k v) s = execPmcCtrValWrite k v s := rfl
theorem exec_pmbRefresh (s : State) :
    exec (.pmbRefresh) s = execPmbRefresh s := rfl
theorem exec_pmbAlert (s : State) :
    exec (.pmbAlert) s = execPmbAlert s := rfl
theorem exec_marginWrite (v : Word) (s : State) :
    exec (.marginWrite v) s = execMarginWrite v s := rfl
theorem exec_trstN (s : State) :
    exec (.trstN) s = execTrstN s := rfl
theorem exec_extest (s : State) :
    exec (.extest) s = execExtest s := rfl
theorem exec_idcode (s : State) :
    exec (.idcode) s = execIdcode s := rfl
theorem exec_samplePreload (s : State) :
    exec (.samplePreload) s = execSamplePreload s := rfl
theorem exec_highz (s : State) :
    exec (.highz) s = execHighz s := rfl
theorem exec_clamp (s : State) :
    exec (.clamp) s = execClamp s := rfl
theorem exec_extestPulse (s : State) :
    exec (.extestPulse) s = execExtestPulse s := rfl
theorem exec_extestTrain (s : State) :
    exec (.extestTrain) s = execExtestTrain s := rfl
theorem exec_dbgAccess (s : State) :
    exec (.dbgAccess) s = execDbgAccess s := rfl
theorem exec_bypass (s : State) :
    exec (.bypass) s = execBypass s := rfl
theorem exec_readClear (r : RegAcc) (bar0 : BitVec 28) (size : Nat) (s : State) :
    exec (.readClear r bar0 size) s = execReadClear r bar0 size s := rfl
theorem exec_regWrite (r : RegAcc) (bar0 : BitVec 28) (size : Nat) (v : Word) (s : State) :
    exec (.regWrite r bar0 size v) s = execRegWrite r bar0 size v s := rfl
theorem exec_belayFramingError (p : Pid) (s : State) :
    exec (.belayFramingError p) s = execBelayFramingError p s := rfl
theorem exec_belayControlReserved (p : Pid) (fr : CtlFrame) (s : State) :
    exec (.belayControlReserved p fr) s = execBelayControlReserved p fr s := rfl
theorem exec_ropePacketDiscard (r : Fin 2) (s : State) :
    exec (.ropePacketDiscard r) s = execRopePacketDiscard r s := rfl
theorem exec_rxOpReserved (c : Cell) (s : State) :
    exec (.rxOpReserved c) s = execRxOpReserved c s := rfl
theorem exec_rxColKindReserved (c : Cell) (s : State) :
    exec (.rxColKindReserved c) s = execRxColKindReserved c s := rfl
theorem exec_colAbortRetry (n : Cid) (peer : Nat) (s : State) :
    exec (.colAbortRetry n peer) s = execColAbortRetry n peer s := rfl
theorem exec_busMasterEnableSet (fn : Fid) (s : State) :
    exec (.busMasterEnableSet fn) s = execBusMasterEnableSet fn s := rfl
theorem exec_vfEnableSet (fn : Fid) (numVfs : Fin 256) (s : State) :
    exec (.vfEnableSet fn numVfs) s = execVfEnableSet fn numVfs s := rfl
theorem exec_hostLinkUp (p : Hid) (link : Fin 2) (s : State) :
    exec (.hostLinkUp p link) s = execHostLinkUp p link s := rfl
theorem exec_refclkRecheck (inRange : Bool) (s : State) :
    exec (.refclkRecheck inRange) s = execRefclkRecheck inRange s := rfl
theorem exec_mbxOtherOpcode (m : Fin 8) (s : State) :
    exec (.mbxOtherOpcode m) s = execMbxOtherOpcode m s := rfl
theorem exec_xltInvKindDiscard (p : Hid) (s : State) :
    exec (.xltInvKindDiscard p) s = execXltInvKindDiscard p s := rfl

end Sys2Proof.Machine
end

