-- ==== Sys2Proof/Laws/Frames.lean ====
section
/-! SUPPORT. What reports, errors of a queue and traps leave alone: no thread but the one that traps changes, and a trap either
begins a trap activation or stops its thread. -/

namespace Sys2Proof.Machine

/-- What each step of a fold keeps, the fold keeps. -/
theorem foldl_keeps {α β γ : Type} (P : β → γ) (f : β → α → β) (h : ∀ b a, P (f b a) = P b) (l : List α) (b : β) :
    P (l.foldl f b) = P b := by
  induction l generalizing b with
  | nil => rfl
  | cons a l ih => rw [List.foldl_cons, ih, h]

@[simp] theorem Dev.eng_settle (d : Dev) (t : Nat) : (d.settle t).eng = d.eng := by
  unfold Dev.settle
  repeat' split
  all_goals rfl

@[simp] theorem Dev.eng_raise (d : Dev) (t n : Nat) : (d.raise t n).eng = d.eng := by
  unfold Dev.raise
  rw [Dev.eng_settle]
  rfl

@[simp] theorem Dev.eng_ropeSend (d : Dev) (r : Nat) (k : RopePkt) : (d.ropeSend r k).eng = d.eng := by
  unfold Dev.ropeSend
  simp only []
  repeat' split
  all_goals rfl

@[simp] theorem Dev.eng_ropeFault (d : Dev) (c : Nat) : (d.ropeFault c).eng = d.eng := by
  unfold Dev.ropeFault
  simp only []
  rw [Dev.eng_ropeSend, Dev.eng_ropeSend]

@[simp] theorem Dev.eng_stopCluster (d : Dev) (c : Nat) : (d.stopCluster c).eng = d.eng := by
  unfold Dev.stopCluster
  refine foldl_keeps Dev.eng _ ?_ _ _
  intro b a
  split
  · rfl
  · rfl

@[simp] theorem Dev.eng_stopAllChannels (d : Dev) : d.stopAllChannels.eng = d.eng := by
  unfold Dev.stopAllChannels
  refine foldl_keeps Dev.eng _ ?_ _ _
  intro b c
  simp only []
  rw [Dev.eng_stopCluster]
  split <;> rfl

@[simp] theorem Dev.eng_safePort (d : Dev) (p : Nat) : (d.safePort p).eng = d.eng := by
  unfold Dev.safePort
  split <;> rfl

@[simp] theorem Dev.eng_safeHeld (d : Dev) : d.safeHeld.eng = d.eng := rfl

@[simp] theorem Dev.eng_enterSafe (d : Dev) (k : Nat) : (d.enterSafe k).eng = d.eng := by
  unfold Dev.enterSafe
  simp only []
  rw [Dev.eng_ropeFault, foldl_keeps Dev.eng Dev.safePort Dev.eng_safePort, Dev.eng_safeHeld, Dev.eng_stopAllChannels]
  rfl

@[simp] theorem Dev.eng_railsDown (d : Dev) : d.railsDown.eng = d.eng := by
  unfold Dev.railsDown
  split <;> rfl

@[simp] theorem Dev.eng_linksOff (d : Dev) : d.linksOff.eng = d.eng := by
  unfold Dev.linksOff
  rw [foldl_keeps Dev.eng (fun (d : Dev) p => d.setReg R.HST_PORT_STAT p 0) (fun _ _ => rfl),
    foldl_keeps Dev.eng (fun (d : Dev) p => d.emit (.txIdle p true)) (fun _ _ => rfl)]

@[simp] theorem Dev.eng_enterWhiteout (d : Dev) (k : Nat) : (d.enterWhiteout k).eng = d.eng := by
  unfold Dev.enterWhiteout
  simp only []
  rw [Dev.eng_railsDown]
  change Dev.eng (Dev.linksOff _) = _
  rw [Dev.eng_linksOff, Dev.eng_ropeFault]
  rfl

/-- Reports reach no engine. -/
@[simp] theorem Dev.eng_faults (d : Dev) (l : List Nat) : (d.faults l).eng = d.eng := by
  unfold Dev.faults
  simp only []
  split
  · rfl
  · split
    · rfl
    · generalize hd : (Dev.bumpBy _ _ _ _) = e
      have he : e.eng = d.eng := by
        rw [← hd]
        exact foldl_keeps Dev.eng (fun (d : Dev) s => d.setReg R.FLT_STICKY 0 (setBits (d.reg R.FLT_STICKY) s 1 1))
          (fun _ _ => rfl) _ _
      generalize hs : (List.foldl max 0 (List.map e.severity _)) = sev
      generalize (List.foldl min 63 _) = cause
      have hg : (if sev = 0 then e else
          if ((e.raise 1024 (e.rd F.FLT_CFG_BCP_INT)).flag F.FLT_CFG_FN_EN && (e.raise 1024 (e.rd F.FLT_CFG_BCP_INT)).isPf ((e.raise 1024 (e.rd F.FLT_CFG_BCP_INT)).rd F.FLT_CFG_FN)) = true then
            (e.raise 1024 (e.rd F.FLT_CFG_BCP_INT)).raise ((e.raise 1024 (e.rd F.FLT_CFG_BCP_INT)).rd F.FLT_CFG_FN) ((e.raise 1024 (e.rd F.FLT_CFG_BCP_INT)).rd F.FLT_CFG_FN_INT)
          else e.raise 1024 (e.rd F.FLT_CFG_BCP_INT)).eng = d.eng := by
        split
        · exact he
        · split
          · rw [Dev.eng_raise, Dev.eng_raise, he]
          · rw [Dev.eng_raise, he]
      generalize (if sev = 0 then e else _) = g at hg ⊢
      split
      · rw [Dev.eng_enterWhiteout, hg]
      · split
        · split
          · rw [Dev.eng_enterSafe, hg]
          · exact hg
        · split
          · exact hg
          · exact hg

@[simp] theorem Dev.eng_fault (d : Dev) (k : Nat) : (d.fault k).eng = d.eng := Dev.eng_faults d [k]

@[simp] theorem Dev.thr_fault (d : Dev) (k n : Nat) : (d.fault k).thr n = d.thr n := by
  unfold Dev.thr
  rw [Dev.eng_fault]

@[simp] theorem Dev.thr_raise (d : Dev) (t k n : Nat) : (d.raise t k).thr n = d.thr n := by
  unfold Dev.thr
  rw [Dev.eng_raise]

/-- A gate's denial changes no thread. -/
@[simp] theorem Dev.thr_deny (d : Dev) (g c : Nat) (f : Option Nat) (a n : Nat) : (d.deny g c f a).thr n = d.thr n := by
  unfold Dev.deny
  simp only []
  rw [Dev.thr_fault]
  rfl

@[simp] theorem Dev.thr_placeEvent (d : Dev) (e : Event) (n : Nat) : (d.placeEvent e).1.thr n = d.thr n := by
  have hc : ∀ k, (d.chooseCluster k).1.thr n = d.thr n := by
    intro k
    unfold Dev.chooseCluster Dev.pick
    simp only []
    split
    · rfl
    · split <;> rfl
  unfold Dev.placeEvent
  simp only []
  split
  · exact hc _
  · rw [Dev.thr_wake]
    exact hc _

@[simp] theorem Dev.thr_raiseEvent (d : Dev) (e : Event) (n : Nat) : (d.raiseEvent e).thr n = d.thr n := by
  unfold Dev.raiseEvent
  simp only []
  split
  · exact Dev.thr_placeEvent d e n
  · exact Dev.thr_placeEvent d e n

@[simp] theorem Dev.thr_pageWait (d : Dev) (r : XReq) (w : Work) (f : Nat) (v : Word) (n : Nat) :
    (d.pageWait r w f v).thr n = d.thr n := by
  unfold Dev.pageWait Dev.trapEvent
  simp only []
  rw [Dev.thr_raiseEvent]
  rfl

/-! ### Errors of a queue -/

@[simp] theorem Dev.thr_qAddr (d : Dev) (q va len : Nat) (k : Kind) (phys : Bool) (w : Work) (n : Nat) :
    (d.qAddr q va len k phys w).1.thr n = d.thr n := by
  unfold Dev.qAddr
  simp only []
  split
  · split
    · exact Dev.thr_deny _ _ _ _ _ _
    · rfl
  · split
    · exact Dev.thr_xlate _ _ _ _ _ _
    · exact Dev.thr_xlate _ _ _ _ _ _
    · simp only [Dev.thr_pageWait, Dev.thr_xlate]
    · exact Dev.thr_xlate _ _ _ _ _ _

@[simp] theorem Dev.thr_qWrite (d : Dev) (q va len data : Nat) (phys : Bool) (n : Nat) :
    (d.qWrite q va len data phys).1.thr n = d.thr n := by
  unfold Dev.qWrite
  simp only []
  split
  · simp only [Dev.thr_hostWrite, Dev.thr_qAddr]
  all_goals exact Dev.thr_qAddr _ _ _ _ _ _ _ _

@[simp] theorem Dev.thr_wrrEnd (d : Dev) (f n : Nat) : (d.wrrEnd f).thr n = d.thr n := by
  unfold Dev.wrrEnd
  simp only []
  split <;> rfl

@[simp] theorem Dev.thr_qFail (d : Dev) (q c s n : Nat) : (d.qFail q c s).thr n = d.thr n := by
  unfold Dev.qFail
  split
  · rfl
  · simp only []
    split
    · unfold Dev.qStop
      simp only [Dev.thr_wrrEnd, Dev.thr_updQueue, Dev.thr_fault]
      rfl
    · rfl

@[simp] theorem Dev.thr_qEnter (d : Dev) (q n : Nat) : (d.qEnter q).thr n = d.thr n := by
  unfold Dev.qEnter Dev.qWake
  simp only []
  split
  · rfl
  · split
    · rfl
    · split
      · simp only [Dev.thr_updQueue, Dev.thr_fault]
        rfl
      · split
        · rw [Dev.thr_wake]
          rfl
        · rfl

@[simp] theorem Dev.thr_qRecDone (d : Dev) (q n : Nat) : (d.qRecDone q).thr n = d.thr n := by
  unfold Dev.qRecDone Dev.qInt
  simp only []
  split
  · simp only [Dev.thr_raise, Dev.thr_updQueue, Dev.thr_qEnter]
  · simp only [Dev.thr_updQueue, Dev.thr_qEnter]

@[simp] theorem Dev.thr_qStatFail (d : Dev) (q va n : Nat) : (d.qStatFail q va).thr n = d.thr n := by
  unfold Dev.qStatFail
  split
  · simp only [Dev.thr_qFail, Dev.thr_updQueue]
  · simp only []
    split
    · simp only [Dev.thr_qFail, Dev.thr_updQueue]
    · simp only [Dev.thr_qRecDone, Dev.thr_qFail, Dev.thr_updQueue]

@[simp] theorem Dev.thr_qFlush (d : Dev) (q fuel n : Nat) : (d.qFlush q fuel).thr n = d.thr n := by
  induction fuel generalizing d with
  | zero => rfl
  | succ k ih =>
    unfold Dev.qFlush
    simp only []
    split
    · rfl
    · split
      · split
        · rw [ih, Dev.thr_updQueue, Dev.thr_qWrite]
        · rw [Dev.thr_updQueue, Dev.thr_qWrite]
        · rw [ih, Dev.thr_qStatFail, Dev.thr_qWrite]
      · split
        · rfl
        · split
          · rw [Dev.thr_qRecDone, Dev.thr_qWrite]
          · rw [Dev.thr_updQueue, Dev.thr_qWrite]
          · rw [ih, Dev.thr_qStatFail, Dev.thr_qWrite]

@[simp] theorem Dev.thr_entryStop (d : Dev) (q s c n : Nat) : (d.entryStop q s c).thr n = d.thr n := by
  unfold Dev.entryStop Dev.qError Dev.qWriteDue
  simp only []
  split
  · rw [Dev.thr_qFlush, Dev.thr_qFail, Dev.thr_updQueue, Dev.thr_updEnt]
  · rw [Dev.thr_qFail, Dev.thr_updQueue, Dev.thr_updEnt]

/-! ### Traps -/

/-- A double trap stops its thread (R78). -/
theorem Dev.active_doubleTrap (d : Dev) (th : Nat) : ((d.doubleTrap th).thr th).active = false := by
  unfold Dev.doubleTrap
  simp only []
  split
  · rw [Dev.thr_entryStop, Dev.thr_fault, Dev.thr_updThr_self]
  · rw [Dev.thr_fault, Dev.thr_updThr_self]

theorem Dev.trapBegin_leaves (d : Dev) (th n : Nat) :
    ((d.trapBegin th n).thr th).active = false ∨ ((d.trapBegin th n).thr th).event = (d.thr th).event := by
  unfold Dev.trapBegin
  split
  · exact .inl (Dev.active_doubleTrap _ _)
  · refine .inr ?_
    simp only []
    rw [Dev.thr_updThr_self]
    rfl

/-- A trap begins a trap activation on a thread that was in none, or stops the thread (R76, R78). -/
theorem Dev.trap_leaves (d : Dev) (th cause : Nat) (tval tpc : Word) :
    ((d.trap th cause tval tpc).thr th).active = false ∨
    (((d.trap th cause tval tpc).thr th).event = 5 ∧ (d.thr th).event ≠ 5) := by
  unfold Dev.trap
  simp only []
  generalize (if isCore th = true then d else d.ev 0 10 (some (clusterOf th)) (some (d.thr th).fn)) = e
  split
  · exact .inl (Dev.active_doubleTrap _ _)
  · next h =>
    have hn : (d.thr th).event ≠ 5 := by
      intro c
      exact h (by simp [Thread.inTrap, c])
    rcases Dev.trapBegin_leaves (((e.wasted th).saveWords th (d.thr th) tpc (BitVec.ofNat 64 cause) tval).updThr th fun t =>
        (({ t with cause := BitVec.ofNat 64 cause, tval := tval, tpc := tpc, priv := true, event := 5,
                   trapped := some (t.inSlot, t.event), trapCol := t.lastCol, lastCol := none, inSlot := none }.setReg 1 (mkWord (BitVec.ofNat 64 cause) 0)).setReg 2
          (mkWord tval 0)).setReg 3 (mkWord tpc 0)) th _ with k | k
    · exact .inl k
    · refine .inr ⟨k.trans ?_, hn⟩
      rw [Dev.thr_updThr_self]
      simp [Thread.setReg]

/-- An activation that ends leaves its thread inactive (R25). -/
theorem Dev.active_endActivation (d : Dev) (th st : Nat) : ((d.endActivation th st).thr th).active = false := by
  unfold Dev.endActivation
  simp only []
  split
  · rw [Dev.thr_entryEnd]
    exact congrArg Thread.active (Dev.thr_idle d th)
  · rw [Dev.thr_idle]

/-- An instruction that neither traps nor ends its activation, of those that complete at once: its body's device, one retired
instruction more, and the thread's next pc. -/
theorem Dev.issue_inPlace {d : Dev} {th word : Nat} {ext : Ext} {g : Nat} {bad sup noCmd : Bool} {body : Dev → IRes}
    (h : d.atInstr th word ext g = true)
    (hb : (∃ e, body d = .next e) ∨ (∃ c v, body d = .trap c v) ∨
      (∃ e c v, body d = .trapIn e c v ∧ (e.thr th).event = (d.thr th).event))
    (ha : ((d.issue th word ext g bad sup noCmd body).thr th).active = true)
    (he : ((d.issue th word ext g bad sup noCmd body).thr th).event = (d.thr th).event) :
    ∃ e pc past, body d = .next e ∧
      d.issue th word ext g bad sup noCmd body = (e.retired th).updThr th (fun t => { t with pc := pc, past := past }) := by
  have no : ∀ (x : Dev) c v, (x.thr th).event = (d.thr th).event →
      d.issue th word ext g bad sup noCmd body = x.trapHere th c v → False := by
    intro x c v hx e
    rw [e] at ha he
    rcases Dev.trap_leaves x th c v (x.thr th).pc with k | ⟨k, n⟩
    · rw [Dev.trapHere, k] at ha
      cases ha
    · rw [Dev.trapHere, k] at he
      exact n (hx.trans he.symm)
  have hi := Dev.issue_at h bad sup noCmd body
  split at hi
  · exact (no _ _ _ rfl hi).elim
  · split at hi
    · exact (no _ _ _ rfl hi).elim
    · rcases hb with ⟨e, hb⟩ | ⟨c, v, hb⟩ | ⟨e, c, v, hb, hx⟩
      · rw [hb] at hi
        simp only [Dev.completed, Dev.goOn, Dev.goTo] at hi
        split at hi
        · rw [hi, Dev.active_endActivation] at ha
          cases ha
        · exact ⟨e, _, _, hb, hi⟩
      · rw [hb] at hi
        exact (no _ _ _ rfl hi).elim
      · rw [hb] at hi
        exact (no _ _ _ hx hi).elim

/-- A retired instruction is counted, and changes nothing else. -/
theorem Dev.retired_frame (d : Dev) (th : Nat) : { d.retired th with regs := [] } = { d with regs := [] } := by
  have hw : ∀ (d : Dev) f i v, { d.wr f i v with regs := [] } = { d with regs := [] } := fun _ _ _ _ => rfl
  have hp : ∀ (d : Dev) k n, { d.pmcAdd k n with regs := [] } = { d with regs := [] } := by
    intro d k n
    unfold Dev.pmcAdd
    simp only []
    split <;> rfl
  unfold Dev.retired
  split
  · rfl
  · unfold Dev.fnCount
    simp only []
    have hi : ∀ (d : Dev) b e i f n, { d.ev b e i f n with regs := [] } = { d with regs := [] } :=
      fun d => Dev.ev_inv d (fun x => { x with regs := [] }) hp
    split <;> exact (hi _ _ _ _ _ _).trans (hi _ _ _ _ _ _)

/-- A thread set in place, one instruction retired and the pc moved: no other thread, and no register but the telemetry
counters. -/
theorem Dev.setThr_frame (d : Dev) (th : Nat) (x : Thread) (pc : Word) (past : Bool) :
    let e := ((d.setThr th x).retired th).updThr th (fun t => { t with pc := pc, past := past })
    { e with regs := [], eng.th := [] } = { d with regs := [], eng.th := [] } ∧ (∀ o, o ≠ th → e.thr o = d.thr o) ∧
    (∀ (g : Fld) (j : Nat), ¬ pmcReg g.reg → e.rd g j = d.rd g j) ∧ e.thr th = { x with pc := pc, past := past } := by
  refine ⟨?_, ?_, ?_, ?_⟩
  · have h := Dev.retired_frame (d.setThr th x) th
    exact congrArg (fun y : Dev => { y with eng.th := [] }) h
  · intro o ho
    rw [Dev.thr_updThr_ne _ _ ho, Dev.thr_retired, Dev.thr_setThr_ne _ _ ho]
  · intro g j hg
    exact (Dev.retired_rd _ _ _ _ hg).trans rfl
  · rw [Dev.thr_updThr_self, Dev.thr_retired, Dev.thr_setThr_self]

/-- The same, of a device that the instruction has changed outside threads and registers: what `P` reads is kept where
registers and threads do not show in it. -/
theorem Dev.retired_moved (d : Dev) (th : Nat) (pc : Word) (past : Bool) :
    let e := (d.retired th).updThr th (fun t => { t with pc := pc, past := past })
    { e with regs := [], eng.th := [] } = { d with regs := [], eng.th := [] } ∧ (∀ o, o ≠ th → e.thr o = d.thr o) ∧
    (∀ (g : Fld) (j : Nat), ¬ pmcReg g.reg → e.rd g j = d.rd g j) ∧ e.thr th = { d.thr th with pc := pc, past := past } := by
  refine ⟨?_, ?_, ?_, ?_⟩
  · have h := Dev.retired_frame d th
    exact congrArg (fun y : Dev => { y with eng.th := [] }) h
  · intro o ho
    rw [Dev.thr_updThr_ne _ _ ho, Dev.thr_retired]
  · intro g j hg
    exact (Dev.retired_rd _ _ _ _ hg).trans rfl
  · rw [Dev.thr_updThr_self, Dev.thr_retired]

/-- An event is counted, and changes nothing but registers. -/
theorem Dev.ev_frame (d : Dev) (b e : Nat) (i f : Option Nat) (n : Nat) :
    { d.ev b e i f n with regs := [] } = { d with regs := [] } := by
  refine Dev.ev_inv d (fun x => { x with regs := [] }) ?_ _ _ _ _ _
  intro d k n
  unfold Dev.pmcAdd
  simp only []
  split <;> rfl

/-- An instruction that sets its thread and goes on changes nothing else. -/
theorem State.only_of {s : State} {d' : Dev} {th : Nat} {x : Thread} {pc : Word} {past : Bool}
    (h : d' = ((s.dev.setThr th x).retired th).updThr th (fun t => { t with pc := pc, past := past })) :
    s.onlyThread { s with dev := d' } th ∧ ({ s with dev := d' } : State).dev.thr th = { x with pc := pc, past := past } := by
  subst h
  obtain ⟨a, b, c, e⟩ := Dev.setThr_frame s.dev th x pc past
  refine ⟨⟨rfl, rfl, rfl, a, b, ?_⟩, e⟩
  intro g j h1 h2 h3 h4
  exact c g j (by simp only [pmcReg, not_or]; exact ⟨h2, h3, h4, Nat.not_le.mpr h1⟩)

/-- One that writes a general register and goes on. -/
theorem State.resultFrame_of {s : State} {d' : Dev} {th wd : Nat} {v : TWord} {pc : Word} {past : Bool}
    (h : d' = ((s.dev.setW th wd v).retired th).updThr th (fun t => { t with pc := pc, past := past })) : s.resultFrame { s with dev := d' } th wd := by
  obtain ⟨a, b⟩ := State.only_of (x := (s.dev.thr th).setReg wd v) h
  refine ⟨a, ?_, ?_⟩
  · rw [b]
    unfold Thread.setReg
    split
    · exact ⟨_, _, _, rfl⟩
    · exact ⟨_, _, _, rfl⟩
  · intro n hn
    rw [b]
    exact Thread.reg_setReg_ne _ v hn

/-- One that writes a predicate and goes on. -/
theorem State.predFrame_of {s : State} {d' : Dev} {th wd : Nat} {v : Bool} {pc : Word} {past : Bool}
    (h : d' = ((s.dev.setThr th ((s.dev.thr th).setPred wd v)).retired th).updThr th (fun t => { t with pc := pc, past := past })) :
    s.predFrame { s with dev := d' } th wd := by
  obtain ⟨a, b⟩ := State.only_of h
  refine ⟨a, ?_, ?_⟩
  · rw [b]
    unfold Thread.setPred
    split
    · exact ⟨_, _, _, rfl⟩
    · exact ⟨_, _, _, rfl⟩
  · intro n hn
    rw [b]
    show ((s.dev.thr th).setPred wd v).pred n = _
    unfold Thread.setPred Thread.pred
    split
    · rfl
    · next h0 =>
      congr 1
      have hb : (BitVec.ofNat 8 (2 ^ wd)).getLsbD n = false := by
        rw [BitVec.getLsbD_ofNat, Nat.testBit_two_pow]
        simp
        omega
      simp only []
      split
      · rw [BitVec.getLsbD_or, hb, Bool.or_false]
      · rw [BitVec.getLsbD_and, BitVec.getLsbD_not, hb]
        by_cases h8 : n < 8
        · simp [h8]
        · rw [BitVec.getLsbD_of_ge _ _ (by omega)]; simp

end Sys2Proof.Machine
end

