-- ==== Sys2Proof/Laws/Messages.lean ====
section
/-! SUPPORT. Message operations: one that RMA takes leaves the threads alone until it completes. -/

namespace Sys2Proof.Machine

theorem Dev.thr_opStartTh (d : Dev) (th : Option Nat) (n : Nat) : (d.opStartTh th).1.thr n = d.thr n := by
  unfold Dev.opStartTh
  split
  · rfl
  · simp only []
    split
    · rfl
    · rfl

theorem Dev.thr_durable (d : Dev) (s : Scope) (e k n : Nat) : (d.durable s e k).1.thr n = d.thr n := by
  unfold Dev.durable Dev.updScope
  simp only []
  split
  · rfl
  · split
    · split <;> rfl
    · rfl

theorem Dev.thr_takeSlot (d : Dev) (k : Nat) (m : Msg) (n : Nat) : (d.takeSlot k m).thr n = d.thr n := by
  unfold Dev.takeSlot Dev.pick
  simp only []
  split
  · rfl
  · rfl

@[simp] theorem Dev.thr_localLook (d : Dev) (m : MsgOp) (n : Nat) : (d.localLook m).thr n = d.thr n := by
  unfold Dev.localLook
  split <;> simp

/-- An operation that RMA takes changes no thread. -/
theorem Dev.thr_issueOp_taken {d e : Dev} {th : Option Nat} {m : MsgOp} (h : d.issueOp th m = (e, .taken)) (n : Nat) :
    e.thr n = d.thr n := by
  unfold Dev.issueOp at h
  simp only [] at h
  split at h
  · simp at h
  · split at h
    · simp at h
    · split at h
      · simp at h
      · split at h
        · simp at h
        · have h1 := congrArg Prod.fst h
          dsimp only at h1
          rw [← h1]
          have hs : ∀ (x : Dev) (r : List Rdv), ({ x with mtc.rdvs := r } : Dev).thr n = x.thr n := fun _ _ => rfl
          have hn : ∀ (x : Dev) (y : Msg), (x.newMsg y).1.thr n = x.thr n := fun _ _ => rfl
          have hk : ∀ (x : Dev) (k : Nat), (x.streamTake k).1.thr n = x.thr n := fun _ _ => rfl
          have hu : ∀ (x : Dev) (sc : Scope) (g : ScopeSt → ScopeSt), (x.updScope sc g).thr n = x.thr n := by
            intro x sc g
            unfold Dev.updScope
            split <;> rfl
          split <;> split <;> split <;>
            simp only [hs, hu, hk, Dev.thr_takeSlot, hn, Dev.thr_durable, Dev.thr_opStartTh, Dev.thr_localLook]

@[simp] theorem Dev.thr_updScope (d : Dev) (sc : Scope) (g : ScopeSt → ScopeSt) (n : Nat) : (d.updScope sc g).thr n = d.thr n := by
  unfold Dev.updScope
  split <;> rfl

@[simp] theorem Dev.thr_opEnd (d : Dev) (r : OpRef) (st n : Nat) : (d.opEnd r st).thr n = d.thr n := by
  unfold Dev.opEnd
  simp only []
  split
  · rfl
  · rw [Dev.thr_qProgress]
    rfl

@[simp] theorem Dev.thr_opEndO (d : Dev) (r : Option OpRef) (st n : Nat) : (d.opEndO r st).thr n = d.thr n := by
  unfold Dev.opEndO
  split
  · rw [Dev.thr_opEnd]
  · rfl

@[simp] theorem Dev.thr_lastErr (d : Dev) (f st m n : Nat) : (d.lastErr f st m).thr n = d.thr n := by
  unfold Dev.lastErr
  split <;> rfl

/-- The second stage of fence.durable leaves the thread stalled at it (R204). -/
theorem Dev.thr_fenceFlush (d : Dev) (th : Nat) :
    (d.fenceFlush th).thr th = { d.thr th with st := .stall, stall := .fence 3 } := by
  have hf : ∀ (l : List Nat) (e : Dev) (t : Thread) (sc : Scope), (l.foldl (fun d ep =>
      let (d, r) := d.opStartTh (some th)
      (d.newMsg { kind := 8, role := .flush, fn := t.fn, dev := ep / 1024, dfn := ep % 1024, entry := r, scope := sc,
                  ret := some (th, 0) }).1) e).thr th
        = e.thr th := by
    intro l
    induction l with
    | nil => intros; rfl
    | cons a l ih =>
      intro e t sc
      rw [List.foldl_cons, ih]
      exact Dev.thr_opStartTh e (some th) th
  unfold Dev.fenceFlush
  simp only []
  split
  · split
    · simp only [Dev.thr_updScope, Dev.thr_hostRead, Dev.stall_thr, hf]
    · split
      · simp only [Dev.thr_opEndO, Dev.thr_opStartTh, Dev.thr_hostRead, Dev.stall_thr, Dev.thr_updScope, hf]
      · simp only [Dev.thr_lastErr, Dev.thr_opStartTh, Dev.thr_hostRead, Dev.stall_thr, Dev.thr_updScope, hf]
  · simp only [Dev.stall_thr, Dev.thr_updScope, hf]

end Sys2Proof.Machine
end

