-- ==== Sys2Proof/Laws/Txns.lean ====
section
/-! SUPPORT. What the operations on configuration transactions do to the table of them (R516 to R519): the registers they hold
stay apart; and the queue of waiting commands stays as it was. -/

namespace Sys2Proof.Machine

def heldSum (t : Tbl Txn) : Nat := (t.map (fun e => e.2.held.length)).sum

theorem heldTotal_eq (t : Tbl Txn) : heldTotal t = heldSum t := by
  unfold heldTotal heldSum
  have h : ∀ n, t.foldl (fun (n : Nat) (e : Nat × Txn) => n + e.2.held.length) n = n + (t.map (fun e => e.2.held.length)).sum := by
    induction t with
    | nil => intro n; rfl
    | cons a t ih => intro n; simp only [List.foldl_cons, ih, List.map_cons, List.sum_cons]; omega
  rw [h]; omega

theorem Tbl.find_none_of_lt {α} (k : Nat) (t : Tbl α) (h : ∀ e ∈ t, k < e.1) : Tbl.find t k = none := by
  induction t with
  | nil => rfl
  | cons a t ih =>
    have := h a (by simp)
    rw [Tbl.find, if_neg (by omega), ih (fun e he => h e (by simp [he]))]

theorem Tbl.find_mem {α} (k : Nat) (t : Tbl α) (v : α) (h : Tbl.find t k = some v) : (k, v) ∈ t := by
  induction t with
  | nil => cases h
  | cons a t ih =>
    obtain ⟨j, u⟩ := a
    rw [Tbl.find] at h
    split at h
    · next e => subst e; injection h with h; subst h; simp
    · simp [ih h]

theorem Tbl.mem_find {α} (t : Tbl α) (h : t.Pairwise (fun a b => a.1 < b.1)) (e : Nat × α) (he : e ∈ t) : Tbl.find t e.1 = some e.2 := by
  induction t with
  | nil => cases he
  | cons a t ih =>
    have hp := List.pairwise_cons.mp h
    rcases List.mem_cons.mp he with he | he
    · subst he; simp [Tbl.find]
    · have := hp.1 e he
      rw [Tbl.find, if_neg (by omega), ih hp.2 he]

theorem held_put (k : Nat) (x : Txn) (t : Tbl Txn) (h : t.Pairwise (fun a b => a.1 < b.1)) :
    heldSum (Tbl.put k x t) + (Tbl.get t {} k).held.length = heldSum t + x.held.length := by
  induction t with
  | nil => simp [Tbl.put, heldSum, Tbl.get, Tbl.find]
  | cons a t ih =>
    obtain ⟨j, u⟩ := a
    have hp := List.pairwise_cons.mp h
    unfold Tbl.put
    split
    · next hk =>
      have : Tbl.find ((j, u) :: t) k = none := Tbl.find_none_of_lt k _ (by
        intro e he
        rcases List.mem_cons.mp he with he | he
        · rw [he]; exact hk
        · exact lt_trans hk (hp.1 e he))
      simp [heldSum, Tbl.get, this]; omega
    · split
      · next e =>
        subst e
        simp [heldSum, Tbl.get, Tbl.find]; omega
      · next h1 h2 =>
        have := ih hp.2
        have hg : Tbl.get ((j, u) :: t) {} k = Tbl.get t {} k := by simp [Tbl.get, Tbl.find, h2]
        rw [hg]
        simp only [heldSum, List.map_cons, List.sum_cons] at this ⊢
        omega

theorem held_del (k : Nat) (t : Tbl Txn) (h : t.Pairwise (fun a b => a.1 < b.1)) :
    heldSum (Tbl.del k t) + (Tbl.get t {} k).held.length = heldSum t := by
  induction t with
  | nil => rfl
  | cons a t ih =>
    obtain ⟨j, u⟩ := a
    have hp := List.pairwise_cons.mp h
    have := ih hp.2
    by_cases e : j = k
    · subst e
      have hn : Tbl.find t j = none := Tbl.find_none_of_lt j t hp.1
      have hg : Tbl.get t {} j = {} := by simp [Tbl.get, hn]
      rw [hg] at this
      have hd : Tbl.del j ((j, u) :: t) = Tbl.del j t := by simp [Tbl.del]
      have hg' : Tbl.get ((j, u) :: t) {} j = u := by simp [Tbl.get, Tbl.find]
      rw [hd, hg']
      simp only [heldSum, List.map_cons, List.sum_cons] at this ⊢
      have : ({} : Txn).held.length = 0 := rfl
      simp only [this] at *
      omega
    · have hd : Tbl.del k ((j, u) :: t) = (j, u) :: Tbl.del k t := by simp [Tbl.del, e]
      have hg : Tbl.get ((j, u) :: t) {} k = Tbl.get t {} k := by simp [Tbl.get, Tbl.find, e]
      rw [hd, hg]
      simp only [heldSum, List.map_cons, List.sum_cons] at this ⊢
      omega

theorem held_set (k : Nat) (x : Txn) (t : Tbl Txn) (h : t.Pairwise (fun a b => a.1 < b.1)) :
    heldSum (Tbl.set {} k x t) + (Tbl.get t {} k).held.length = heldSum t + x.held.length := by
  unfold Tbl.set
  split
  · next e => rw [held_del k t h, e]; rfl
  · exact held_put k x t h

theorem Tbl.mem_set_or {k : Nat} {x : Txn} {t : Tbl Txn} {e : Nat × Txn} (h : e ∈ Tbl.set {} k x t) : e = (k, x) ∨ (e ∈ t) := by
  unfold Tbl.set at h
  split at h
  · exact .inr (List.mem_filter.mp h).1
  · exact Tbl.mem_put h

theorem txnsApart_set {t : Tbl Txn} (h : TxnsApart t) (k : Nat) (x : Txn)
    (hk : ∀ key, Tbl.has x.held key = true → ∀ b ∈ t, b.1 ≠ k → Tbl.has b.2.held key = false)
    (hl : heldSum t + x.held.length ≤ 4096 + (Tbl.get t {} k).held.length) (hx : x.held.Pairwise (fun a b => a.1 < b.1)) :
    TxnsApart (Tbl.set {} k x t) := by
  obtain ⟨h1, h2, h3, h4⟩ := h
  refine ⟨Tbl.wf_set _ _ _ _ h1, ?_, ?_, ?_⟩
  · have hput : ∀ e ∈ Tbl.set {} k x t, (e = (k, x)) ∨ (e ∈ t) := fun e he => Tbl.mem_set_or he
    intro a ha b hb key hne hkey
    rcases hput a ha with ea | ea <;> rcases hput b hb with eb | eb
    · rw [ea, eb] at hne; exact absurd rfl hne
    · rw [ea] at hkey hne
      exact hk key hkey b eb (fun e => hne e.symm)
    · rw [eb] at hne ⊢
      by_contra hc
      have hc := eq_true_of_ne_false hc
      have := hk key hc a ea hne
      rw [this] at hkey; cases hkey
    · exact h2 a ea b eb key hne hkey
  · rw [heldTotal_eq]
    have := held_set k x t h1.1
    rw [heldTotal_eq] at h3
    omega
  · intro e he
    rcases Tbl.mem_set_or he with e1 | e1
    · rw [e1]; exact hx
    · exact h4 e e1

theorem held_sorted {t : Tbl Txn} (h : TxnsApart t) (k : Nat) : (Tbl.get t {} k).held.Pairwise (fun a b => a.1 < b.1) := by
  unfold Tbl.get
  cases hf : Tbl.find t k with
  | none => exact List.Pairwise.nil
  | some y => exact h.2.2.2 _ (Tbl.find_mem k t y hf)

/-- The new transaction holds no more than the old one did. -/
theorem txnsApart_less {t : Tbl Txn} (h : TxnsApart t) (k : Nat) (x : Txn)
    (hk : ∀ key, Tbl.has x.held key = true → Tbl.has (Tbl.get t {} k).held key = true)
    (hl : x.held.length ≤ (Tbl.get t {} k).held.length) (hx : x.held.Pairwise (fun a b => a.1 < b.1)) : TxnsApart (Tbl.set {} k x t) := by
  refine txnsApart_set h k x ?_ ?_ hx
  · intro key hx b hb hne
    have h1 := hk key hx
    unfold Tbl.get at h1
    cases hf : Tbl.find t k with
    | none => rw [hf] at h1; cases h1
    | some y =>
      rw [hf] at h1
      exact h.2.1 _ (Tbl.find_mem k t y hf) b hb key (fun e => hne e.symm) h1
  · have := h.2.2.1
    rw [heldTotal_eq] at this
    omega

theorem txnsApart_same {t : Tbl Txn} (h : TxnsApart t) (k : Nat) (x : Txn) (hx : x.held = (Tbl.get t {} k).held) : TxnsApart (Tbl.set {} k x t) :=
  txnsApart_less h k x (fun _ a => by rw [← hx]; exact a) (by rw [hx]) (by rw [hx]; exact held_sorted h k)

theorem txnsApart_none {t : Tbl Txn} (h : TxnsApart t) (k : Nat) (x : Txn) (hx : x.held = []) : TxnsApart (Tbl.set {} k x t) :=
  txnsApart_less h k x (fun _ a => by rw [hx] at a; cases a) (by rw [hx]; exact Nat.zero_le _) (by rw [hx]; exact List.Pairwise.nil)

theorem held_sub (f : Nat × Txn → Option (Nat × Txn)) (t : Tbl Txn)
    (hf : ∀ e y, f e = some y → y.2.held.length ≤ e.2.held.length) : heldSum (t.filterMap f) ≤ heldSum t := by
  induction t with
  | nil => exact Nat.le_refl _
  | cons a t ih =>
    rw [List.filterMap_cons]
    simp only [heldSum, List.map_cons, List.sum_cons] at ih ⊢
    cases h : f a with
    | none => simp only [h]; omega
    | some y =>
      simp only [h, List.map_cons, List.sum_cons]
      have := hf a y h
      omega

theorem txnsApart_filterMap {t : Tbl Txn} (h : TxnsApart t) (f : Nat × Txn → Option (Nat × Txn))
    (hf : ∀ e y, f e = some y → y.1 = e.1 ∧ (y.2.held = e.2.held ∨ y.2.held = []) ∧ (e.2 ≠ {} → y.2 ≠ {})) : TxnsApart (t.filterMap f) := by
  obtain ⟨h1, h2, h3, h4⟩ := h
  refine ⟨⟨?_, ?_⟩, ?_, ?_, ?_⟩
  · refine List.Pairwise.filterMap f ?_ h1.1
    intro a b hab x hx y hy
    rw [(hf a x hx).1, (hf b y hy).1]
    exact hab
  · intro e he
    obtain ⟨x, hx, hxe⟩ := List.mem_filterMap.mp he
    exact (hf x e hxe).2.2 (h1.2 x hx)
  · intro a ha b hb key hne hkey
    obtain ⟨x, hx, hxe⟩ := List.mem_filterMap.mp ha
    obtain ⟨y, hy, hye⟩ := List.mem_filterMap.mp hb
    have fx := hf x a hxe
    have fy := hf y b hye
    rw [fx.1, fy.1] at hne
    rcases fx.2.1 with p | p <;> rw [p] at hkey
    · rcases fy.2.1 with q | q <;> rw [q]
      · exact h2 x hx y hy key hne hkey
      · rfl
    · cases hkey
  · rw [heldTotal_eq] at h3 ⊢
    refine le_trans (held_sub f t ?_) h3
    intro e y hy
    rcases (hf e y hy).2.1 with p | p <;> rw [p]
    exact Nat.zero_le _
  · intro e he
    obtain ⟨x, hx, hxe⟩ := List.mem_filterMap.mp he
    rcases (hf x e hxe).2.1 with p | p <;> rw [p]
    · exact h4 x hx
    · exact List.Pairwise.nil

theorem map_eq_filterMap {α β} (f : α → β) (t : List α) : t.map f = t.filterMap (fun e => some (f e)) := by
  simp

theorem txnsApart_map {t : Tbl Txn} (h : TxnsApart t) (f : Nat × Txn → Nat × Txn)
    (hf : ∀ e, (f e).1 = e.1 ∧ ((f e).2.held = e.2.held ∨ (f e).2.held = []) ∧ (e.2 ≠ {} → (f e).2 ≠ {})) : TxnsApart (t.map f) := by
  rw [map_eq_filterMap]
  refine txnsApart_filterMap h _ ?_
  intro e y hy
  injection hy with hy
  rw [← hy]
  exact hf e

theorem txnsApart_nil : TxnsApart [] := by
  refine ⟨⟨List.Pairwise.nil, by simp⟩, by simp, by decide, by simp⟩

theorem txnsApart_reset {t : Tbl Txn} (h : TxnsApart t) : TxnsApart (resetTxns t) := by
  unfold resetTxns
  refine txnsApart_filterMap h _ ?_
  intro e y hy
  split at hy
  · injection hy with hy
    rw [← hy]
    exact ⟨rfl, .inr rfl, fun _ hc => by have : Status.TXN_NONE = 0 := congrArg Txn.status hc; revert this; decide⟩
  · cases hy

theorem txnsApart_drop {t : Tbl Txn} (h : TxnsApart t) (old new : Dev) : TxnsApart (dropDrained old new t) := by
  unfold dropDrained
  refine txnsApart_map h _ ?_
  intro e
  split
  · refine ⟨rfl, .inr rfl, fun _ => ?_⟩
    intro hc
    have : Status.TXN_NONE = 0 := congrArg Txn.status hc
    revert this
    decide
  · exact ⟨rfl, .inl rfl, id⟩

theorem txnsApart_mark {t : Tbl Txn} (h : TxnsApart t) (k key off : Nat) : TxnsApart (markHolders t k key off) := by
  unfold markHolders
  refine txnsApart_map h _ ?_
  intro e
  split
  · unfold Txn.clash
    split
    · exact ⟨rfl, .inl rfl, id⟩
    · refine ⟨rfl, .inl rfl, fun _ hc => ?_⟩
      have := congrArg Txn.conflict hc
      cases this
  · exact ⟨rfl, .inl rfl, id⟩

theorem Tbl.has_put {α} (k key : Nat) (v : α) (t : Tbl α) (h : Tbl.has (Tbl.put k v t) key = true) : key = k ∨ Tbl.has t key = true := by
  by_cases e : key = k
  · exact .inl e
  · unfold Tbl.has at h ⊢
    rw [Tbl.find_put_ne v t e] at h
    exact .inr h

theorem Tbl.len_put {α} (k : Nat) (v : α) (t : Tbl α) : (Tbl.put k v t).length ≤ t.length + 1 := by
  induction t with
  | nil => simp [Tbl.put]
  | cons a t ih =>
    obtain ⟨j, u⟩ := a
    unfold Tbl.put
    split
    · simp
    · split
      · simp
      · simp only [List.length_cons]; omega

theorem Tbl.len_put_old {α} (k : Nat) (v w : α) (t : Tbl α) (hp : Tbl.find t k = some w) (hs : t.Pairwise (fun a b => a.1 < b.1)) :
    (Tbl.put k v t).length = t.length := by
  induction t with
  | nil => cases hp
  | cons a t ih =>
    obtain ⟨j, u⟩ := a
    have hq := List.pairwise_cons.mp hs
    rw [Tbl.find] at hp
    unfold Tbl.put
    split at hp
    · next e => subst e; simp
    · next e =>
      have := hq.1 _ (Tbl.find_mem k t w hp)
      rw [if_neg (by omega), if_neg e]
      simp [ih hp hq.2]

theorem txnsApart_stage (s : State) (h : TxnsApart s.txns) (k key off : Nat) (m v : Word) : TxnsApart (s.stage k key off m v).txns := by
  unfold State.stage
  simp only []
  split
  · refine txnsApart_same h k _ ?_
    unfold Txn.clash
    split <;> rfl
  · next hn =>
    have hn : heldBy s.txns k key = none := by
      cases hh : heldBy s.txns k key with
      | none => rfl
      | some y => rw [hh] at hn; exact absurd rfl hn
    have hn : ∀ b ∈ s.txns, b.1 ≠ k → Tbl.has b.2.held key = false := by
      intro b hb hne
      unfold heldBy at hn
      have := Option.map_eq_none_iff.mp hn
      rw [List.find?_eq_none] at this
      have := this b hb
      simp only [Bool.and_eq_true, bne_iff_ne, ne_eq, not_and, Bool.not_eq_true] at this
      exact this hne
    split
    · next m0 v0 hf =>
      refine txnsApart_less h k _ ?_ ?_ (Tbl.pairwise_put _ _ _ (held_sorted h k))
      · intro key' hkey
        rcases Tbl.has_put _ _ _ _ hkey with e | e
        · rw [e]
          have : Tbl.find (Tbl.get s.txns {} k).held key = some (m0, v0) := hf
          unfold Tbl.has
          rw [this]
          rfl
        · exact e
      · exact le_of_eq (Tbl.len_put_old _ _ _ _ hf (held_sorted h k))
    · next hf =>
      split
      · exact txnsApart_same h k _ rfl
      · next hlt =>
        refine txnsApart_set h k _ ?_ ?_ (Tbl.pairwise_put _ _ _ (held_sorted h k))
        · intro key' hkey b hb hne
          rcases Tbl.has_put _ _ _ _ hkey with e | e
          · rw [e]; exact hn b hb hne
          · have : Tbl.has (Tbl.get s.txns {} k).held key' = true := e
            unfold Tbl.get at this
            cases hg : Tbl.find s.txns k with
            | none => rw [hg] at this; cases this
            | some y =>
              rw [hg] at this
              exact h.2.1 _ (Tbl.find_mem k _ y hg) b hb key' (fun e => hne e.symm) this
        · have := Tbl.len_put key (m, v &&& m) (s.txn k).held
          rw [heldTotal_eq] at hlt
          simp only [State.txn] at this ⊢
          omega

theorem setTxn_txns (s : State) (k : Nat) (x : Txn) : (s.setTxn k x).txns = Tbl.set {} k x s.txns := rfl

theorem txnsApart_begin (s : State) (h : TxnsApart s.txns) (k : Nat) : TxnsApart (s.txnBegin k).txns := by
  unfold State.txnBegin; dsimp only; split
  · (rw [setTxn_txns]; exact txnsApart_none h k _ rfl)
  · (rw [setTxn_txns]; exact txnsApart_same h k _ rfl)
  · exact h
theorem txnsApart_commit (s : State) (h : TxnsApart s.txns) (k : Nat) : TxnsApart (s.txnCommit k).txns := by
  unfold State.txnCommit; dsimp only; split
  · (rw [setTxn_txns]; exact txnsApart_same h k _ rfl)
  · (rw [setTxn_txns]; exact txnsApart_same h k _ rfl)
  · exact h
theorem txnsApart_rollback (s : State) (h : TxnsApart s.txns) (k : Nat) : TxnsApart (s.txnRollback k).txns := by
  unfold State.txnRollback; dsimp only; split
  · (rw [setTxn_txns]; exact txnsApart_same h k _ rfl)
  · (rw [setTxn_txns]; exact txnsApart_none h k _ rfl)
  · exact h
theorem txnsApart_applied (s : State) (h : TxnsApart s.txns) (k : Nat) : TxnsApart (s.txnApplied k).txns := by
  unfold State.txnApplied; dsimp only; split
  · exact h
  · exact h
  · split <;> (rw [setTxn_txns]; exact txnsApart_none h k _ rfl)
theorem txnsApart_timeout (s : State) (h : TxnsApart s.txns) (k : Nat) : TxnsApart (s.txnTimeout k).txns := by
  unfold State.txnTimeout; dsimp only; generalize s.dev.advanceTo _ = d; split
  · exact h
  · (rw [setTxn_txns]; exact txnsApart_none h k _ rfl)
  · exact h

theorem txnsApart_txnWrite (s : State) (h : TxnsApart s.txns) (k r : Nat) (m v : Word) : TxnsApart (s.txnWrite k r m v).txns := by
  unfold State.txnWrite
  split
  · split
    · exact txnsApart_same h k _ rfl
    · exact h
  · split
    · split
      · exact txnsApart_begin s h k
      · exact txnsApart_commit s h k
      · exact txnsApart_rollback s h k
      · exact h
      · exact h
    · exact h

theorem txnsApart_regWrite (s : State) (h : TxnsApart s.txns) (r : Req) (c a n : Nat) (v : Word) : TxnsApart (s.regWrite r c a n v).txns := by
  unfold State.regWrite
  split
  · exact h
  · dsimp only
    split
    · exact h
    · split
      · exact txnsApart_txnWrite _ h _ _ _ _
      · split
        · exact h
        · split
          · split
            · exact h
            · exact txnsApart_stage _ h _ _ _ _ _
          · exact txnsApart_mark h _ _ _

theorem txnsApart_settled (old : Dev) (s : State) (h : TxnsApart s.txns) : TxnsApart (State.settled old s).txns := by
  unfold State.settled
  dsimp only
  generalize (if s.dev.flushLost.halted = true then s.dev.flushLost else s.dev.flushLost.rmaGo) = d
  split
  · exact txnsApart_nil
  · exact txnsApart_drop h _ _

theorem txnsApart_gateWrite (s : State) (h : TxnsApart s.txns) (m : Nat) : TxnsApart (s.mbxGateWrite m).txns := by
  unfold State.mbxGateWrite
  dsimp only
  split
  · exact h
  · show TxnsApart (State.txns (State.txnApplied _ 8))
    refine txnsApart_applied _ (txnsApart_commit _ ?_ 8) 8
    have h0 : TxnsApart (State.txnBegin { s with dev := (s.dev.pick 2).2 } 8).txns := txnsApart_begin { s with dev := (s.dev.pick 2).2 } h 8
    generalize State.txnBegin { s with dev := (s.dev.pick 2).2 } 8 = s0 at h0
    generalize s.dev.gatePairs m = l
    induction l generalizing s0 with
    | nil => exact h0
    | cons a l ih => exact ih _ (txnsApart_regWrite s0 h0 _ _ _ _ _)

theorem txnsApart_onTxn (s t : State) (h : TxnsApart s.txns) (r : Req) (a : Nat) (f : State → Nat → State)
    (hf : ∀ s k, TxnsApart s.txns → TxnsApart (f s k).txns) (he : onTxn s r a f = .next t) : TxnsApart t.txns := by
  unfold onTxn at he
  split at he
  · injection he with he; rw [← he]; exact h
  · split at he
    · injection he with he; rw [← he]; exact h
    · split at he
      · injection he with he; rw [← he]; exact h
      · injection he with he; rw [← he]; exact hf _ _ h

theorem txnsApart_write (s : State) (h : TxnsApart s.txns) (r : Req) (a n : Nat) (v : Word) : TxnsApart (s.write r a n v).txns := by
  unfold State.write
  split
  · exact h
  · split
    · exact h
    · split
      · exact h
      · next d _ => exact txnsApart_settled _ _ (txnsApart_regWrite { s with dev := d } h _ _ _ _ _)

theorem txnsApart_read (s : State) (h : TxnsApart s.txns) (r : Req) (a n : Nat) : TxnsApart (s.read r a n).txns := by
  unfold State.read
  split
  · exact h
  · split
    · exact h
    · split
      · exact h
      · exact txnsApart_settled _ _ h

theorem txnsApart_accWrite (s : State) (h : TxnsApart s.txns) (r : RegAcc) (a n : Nat) (v : Word) :
    TxnsApart (s.accWrite r a n v).txns := by
  unfold State.accWrite
  split
  · exact h
  · split
    · exact txnsApart_write s h _ _ _ _
    all_goals exact txnsApart_settled _ _ h

theorem txnsApart_accRead (s : State) (h : TxnsApart s.txns) (r : RegAcc) (a n : Nat) : TxnsApart (s.accRead r a n).txns := by
  unfold State.accRead
  split
  · exact h
  · split
    · exact txnsApart_read s h _ _ _
    all_goals exact txnsApart_settled _ _ h

theorem txnsApart_power (s t : State) (h : TxnsApart s.txns) (f : Dev → Dev) (he : onPower s f = .next t) : TxnsApart t.txns := by
  unfold onPower at he
  injection he with he
  rw [← he]
  dsimp only
  split
  · exact txnsApart_nil
  · exact h

theorem txnsApart_onDrain (s t : State) (h : TxnsApart s.txns) (f : Dev → Dev) (he : onDrain s f = .next t) : TxnsApart t.txns := by
  unfold onDrain at he
  injection he with he
  rw [← he]
  exact txnsApart_drop h _ _

theorem txnsApart_tap (s t : State) (h : TxnsApart s.txns) (ir : BitVec 8) (f : Dev → Tap → Dev × Tap) (he : onTap s ir f = .next t) : TxnsApart t.txns := by
  unfold onTap at he
  split at he <;> (injection he with he; rw [← he]; exact h)


theorem onTap_completes (s : State) (ir : BitVec 8) (f : Dev → Tap → Dev × Tap) :
    ∃ t, onTap s ir f = .next t ∧ t.pending = s.pending := by
  unfold onTap
  split <;> exact ⟨_, rfl, rfl⟩

theorem setTxn_pending (s : State) (k : Nat) (x : Txn) : (s.setTxn k x).pending = s.pending := rfl
theorem pending_begin (s : State) (k : Nat) : (s.txnBegin k).pending = s.pending := by
  unfold State.txnBegin; dsimp only; split <;> rfl
theorem pending_commit (s : State) (k : Nat) : (s.txnCommit k).pending = s.pending := by
  unfold State.txnCommit; dsimp only; split <;> rfl
theorem pending_rollback (s : State) (k : Nat) : (s.txnRollback k).pending = s.pending := by
  unfold State.txnRollback; dsimp only; split <;> rfl
theorem pending_applied (s : State) (k : Nat) : (s.txnApplied k).pending = s.pending := by
  unfold State.txnApplied; dsimp only; split
  · rfl
  · rfl
  · split <;> rfl
theorem pending_timeout (s : State) (k : Nat) : (s.txnTimeout k).pending = s.pending := by
  unfold State.txnTimeout; dsimp only; generalize s.dev.advanceTo _ = d
  split
  · rfl
  · rw [setTxn_pending]
  · rfl
theorem pending_txn (s : State) (k : Nat) : (s.txnBegin k).pending = s.pending ∧ (s.txnCommit k).pending = s.pending ∧
    (s.txnRollback k).pending = s.pending ∧ (s.txnApplied k).pending = s.pending ∧ (s.txnTimeout k).pending = s.pending :=
  ⟨pending_begin s k, pending_commit s k, pending_rollback s k, pending_applied s k, pending_timeout s k⟩

theorem pending_stage (s : State) (k key off : Nat) (m v : Word) : (s.stage k key off m v).pending = s.pending := by
  unfold State.stage
  simp only []
  split
  · rfl
  · split
    · rfl
    · split <;> rfl

theorem pending_txnWrite (s : State) (k r : Nat) (m v : Word) : (s.txnWrite k r m v).pending = s.pending := by
  unfold State.txnWrite
  split
  · split <;> rfl
  · split
    · split
      · exact (pending_txn s k).1
      · exact (pending_txn s k).2.1
      · exact (pending_txn s k).2.2.1
      · rfl
      · rfl
    · rfl

theorem pending_regWrite (s : State) (r : Req) (c a n : Nat) (v : Word) : (s.regWrite r c a n v).pending = s.pending := by
  unfold State.regWrite
  split
  · rfl
  · simp only []
    split
    · rfl
    · split
      · exact pending_txnWrite _ _ _ _ _
      · split
        · rfl
        · split
          · split
            · rfl
            · exact pending_stage _ _ _ _ _ _
          · rfl

theorem pending_gateWrite (s : State) (m : Nat) : (s.mbxGateWrite m).pending = s.pending := by
  unfold State.mbxGateWrite
  simp only []
  split
  · rfl
  · show ((State.txnApplied _ 8).pending) = _
    rw [(pending_txn _ 8).2.2.2.1, (pending_txn _ 8).2.1]
    rw [foldl_keeps (fun s : State => s.pending) (fun (s : State) (e : Nat × Word) => s.regWrite .bcp 1024 e.1 8 e.2) (fun s e => pending_regWrite s _ _ _ _ _)]
    rw [(pending_txn _ 8).1]

theorem onTxn_completes (s : State) (r : Req) (a : Nat) (f : State → Nat → State) (hf : ∀ s k, (f s k).pending = s.pending) :
    ∃ t, onTxn s r a f = .next t ∧ t.pending = s.pending := by
  unfold onTxn
  split
  · exact ⟨_, rfl, rfl⟩
  · split
    · exact ⟨_, rfl, rfl⟩
    · split
      · exact ⟨_, rfl, rfl⟩
      · exact ⟨_, rfl, hf _ _⟩

theorem pending_write (s : State) (r : Req) (a n : Nat) (v : Word) : (s.write r a n v).pending = s.pending := by
  unfold State.write
  split
  · rfl
  · split
    · rfl
    · split
      · rfl
      · exact pending_regWrite _ _ _ _ _ _

theorem pending_read (s : State) (r : Req) (a n : Nat) : (s.read r a n).pending = s.pending := by
  unfold State.read
  split
  · rfl
  · split
    · rfl
    · split <;> rfl

theorem pending_accWrite (s : State) (r : RegAcc) (a n : Nat) (v : Word) : (s.accWrite r a n v).pending = s.pending := by
  unfold State.accWrite
  split
  · rfl
  · split
    · exact pending_write _ _ _ _ _
    all_goals rfl

theorem pending_accRead (s : State) (r : RegAcc) (a n : Nat) : (s.accRead r a n).pending = s.pending := by
  unfold State.accRead
  split
  · rfl
  · split
    · exact pending_read _ _ _ _
    all_goals rfl

end Sys2Proof.Machine
end

