-- ==== Sys2Proof/Tests/Slice0.lean ====
section
/-! SUPPORT. Small states, tests of single steps, the smoke test of WellFormed, and for each statement states and operands that
meet the hypotheses of its clauses. -/

namespace Sys2Proof
open Sys2Proof.Machine

set_option Elab.async false

/-- A device in RUN with function 0 ON and every other register at its reset value. -/
def tDev : Dev := ({ pwr := { state := .run } } : Dev).wr F.HST_FN_CTL_STATE 0 2

/-- Thread 0 of cluster 0 runs the one instruction slot `word` of a command entry. -/
def tCmd (word : Nat) (t : Thread) : State :=
  { dev := { tDev with eng := { th := [(0, { t with st := .ready, active := true, cmd := true, pc := mkCmdPc 1,
                                                     slots := [BitVec.ofNat 64 (word * 2 ^ 28)] })] } } }

/-- Basecamp core 0 runs the instruction `word`. -/
def tCore (t : Thread) (word : Nat := 0) : State :=
  { dev := { tDev with eng := { th := [(1024, { t with st := .ready, active := true })], scratch := Tbl.set 0 2097152 (BitVec.ofNat 72 word) [] } } }

/-- The same, with a mapping of the first 2 MiB of address space 0 to 1 MiB, all rights. -/
def tMem (word : Nat) (t : Thread) : State :=
  let l : Leaf := { asid := 0, va := 0, bits := 21, out := 1048576, flags := 127, hit := 0 }
  let d := (tCmd word t).dev
  { dev := { d with xlt := { l1d := [(0, [l])], l2 := [l] } } }

/-- The same, with window 0x1001 of function 0 at address 4096. -/
def tWin (word : Nat) (t : Thread) : State :=
  let d := (tMem word t).dev
  { dev := { d with win := { wins := [(1, { state := .opened, gen := 1, base := 4096, len := 4096, rights := 31 })] } } }

/-- put of 8 bytes from window 0x1001 of function 0. -/
def tPut : MsgOp := { op := 0x44, fn := 0, priv := true, minor := 4, g0 := 0, g1 := 0, g2 := 0, g3 := 0, size := 0, scope := .none,
                      queue := none, ret := none, entry := none }

/-- The same as `tWin`, with operands in w4 to w8 and message matching on. -/
def tMtcW (word : Nat) (posted : List Recv) : State :=
  let d := (tWin word { w := [(7, 0x100100000000#72)] }).dev
  { dev := { d with regs := Tbl.set 0 41 (setBits (setBits 0 0 1 1) 17 21 100) d.regs
                    mtc := { doms := if posted.isEmpty then [] else [(0, { posted := posted })] } } }
def tMtc (op : Nat) : State := tMtcW (wordA op ⟨1, 4, 8, 0, 0⟩) []
def tMtc1 (op : Nat) : State := tMtcW (wordA op ⟨1, 4, 0, 0, 0⟩) []
def tRecv : Recv := { index := 0, gen := 0, fn := 0, src := 0, any := true, bits := 0, ignore := 0, win := 0, off := 0, len := 0,
                      ctr := none, psn := 0 }
def tMtcC : State := tMtcW (wordA 0x4A ⟨1, 4, 0, 0, 0⟩) [tRecv]
/-- A message instruction with operands in w4 to w8. -/
def tMsg (op fn : Nat) : State := tWin (wordA op ⟨1, 4, 8, 0, BitVec.ofNat 9 fn⟩) { w := [(7, 0x100100000000#72), (8, if op < 0x44 then 8#72 else 0)] }

/-- Thread 0 runs the two instruction slots of a command entry; counter 5 is function 0's, and holds 7. -/
def tCtr (w1 w2 : Nat) (t : Thread) : State :=
  { dev := { tDev with
      regs := (((tDev.wr F.DMA_CTR_OWNER_EN 0 1).wr F.PIT_FN_ACQ_GROUPS 0 (2 ^ 64 - 1)).wr F.PIT_FN_REL_GROUPS 0 (2 ^ 64 - 1)).regs
      dma := { ctr := [(5, 7)] }
      eng := { th := [(0, { t with st := .ready, active := true, cmd := true, pc := mkCmdPc 1,
                                   slots := [BitVec.ofNat 64 (w1 * 2 ^ 28), BitVec.ofNat 64 (w2 * 2 ^ 28)] })] } } }

/-- The same, with Piton 5 held. -/
def tPit (w : Nat) (h : Holder) : State :=
  let d := (tCtr w 0 { w := [(1, 5)] }).dev
  { dev := { d with dma.pit := [(5, { holder := some (h, 0) })] } }

/-- The same as `tCmd`, with context 5 of function 0 ACTIVE: a barrier of two local contributions; scratch word 0 names it. -/
def tCol (w : Nat) (t : Thread) : State :=
  let d := (tCmd w t).dev
  { dev := { (d.wr F.COL_CTX_STAT_STATE 5 2).setScrWord 0 0 5#72 with
      col := { ctxs := [(5, { locals := 2, root := true })] } } }

/-- Function 0 may have one context; scratch holds the descriptor of a barrier's leaf. -/
def tColNew : State :=
  { dev := (tCmd (wordA 0x5B ⟨3, 1, 0, 0, 0⟩) { priv := true }).dev.wr F.COL_FN_CFG_CTX_MAX 0 1 }

/-- Two threads of queue 3's scope: thread 0 at a fence, thread 1 with a load; the scope has an operation outstanding. -/
def tScope (op : Nat) : State :=
  let t : Thread := { st := .ready, active := true, cmd := true, queue := 3, pc := mkCmdPc 1, slots := [BitVec.ofNat 64 (op * 2 ^ 56)] }
  { dev := { tDev with
      eng := { th := [(0, t), (1, { t with st := .stall, stall := .load 1 1 0 8 0 0 0 })] }
      rma := { scopes := [{ scope := .queue 3, others := 1 }] } } }

def tEvent : Event := { slot := 5, entry := 3, fn := 2, kind := 1, w1 := 7, w2 := 8, w3 := 9, w4 := 10 }
/-- An event for enabled slot `n` is pending in cluster 0. -/
def tEv (n : Nat) : State :=
  { dev := { tDev.wr F.ENG_SLOT_CTL_EN n 1 with eng := { pend := [(0, [tEvent])] } } }

/-- Thread 0 waits for line 0 of slot 1. -/
def tFill : State :=
  { dev := { tDev with
      eng := { th := [(0, { st := .stall, stall := .imem 1 0 0 none, active := true })] }
      reads := [(9, { fn := 0, addr := 0, why := .imem 0, at_ := 0 })] } }

/-- The device in RUN with these register fields. -/
def tDR (l : List (Fld × Nat × Nat)) : Dev := l.foldl (fun d e => d.wr e.1 e.2.1 e.2.2) tDev
def tR (l : List (Fld × Nat × Nat)) : State := { dev := tDR l }
/-- Queue 3 of function 0 in state `st`, of 64 entries: PROD 5, DISP 4, COMP 3. -/
def tQl (st : Nat) : List (Fld × Nat × Nat) :=
  [(F.WQ_CTX_CTL_STATE, 3, st), (F.WQ_CTX_RING_LOG2_SIZE, 3, 6), (F.WQ_CTX_PROD_SEQ_PROD, 3, 5), (F.WQ_CTX_DISP_SEQ_DISP, 3, 4),
   (F.WQ_CTX_COMP_SEQ_COMP, 3, 3)]
def tQ (st : Nat) : State := tR (tQl st)

def tFetch : State := tR (tQl 2 ++ [(F.SCH_FN_CFG_BACKLOG_MAX, 0, 8)])
/-- The same, with entry 4 pushed, or prefetched. -/
def tHeld : State := { dev := { tFetch.dev with wq := { qs := [(3, { push := some (4, 0) })], cache := [(lineKey 3 4, 5)] } } }
def tHeldP : State := { dev := { tFetch.dev with wq.cache := [(lineKey 3 4, 5)] } }
def tFetched : State :=
  let d := tDR (tQl 2)
  { dev := { d with wq := { qs := [(3, { fetch := some 0 })] }, reads := [(9, { fn := 0, addr := 0, why := .wqFetch 3, at_ := 0 })] } }
def tPre : State :=
  { dev := { (tDR (tQl 2)) with reads := [(9, { fn := 0, addr := 0, why := .wqPre 3 4 1, at_ := 0 })] } }
def tWalkOf (level : Nat) : Walk :=
  { req := { asid := 1, va := 0, kind := .read, priv := true }, work := .wqPre 3 0 1, level := level, table := 0, fn := 0, spec := false, owner := 0,
    tag := some 9, partialOf := [] }
def tWalk : State :=
  { dev := { tDev with reads := [(9, { fn := 0, addr := 0, why := .walk 7, at_ := 0 })], xlt := { walks := [(7, tWalkOf 0)] } } }
def tWalk1 : State :=
  { dev := { tDev with reads := [(9, { fn := 0, addr := 0, why := .walk 7, at_ := 0 })], xlt := { walks := [(7, { tWalkOf 1 with spec := true })] } } }
def tWalkT : State :=
  { dev := { tDev with reads := [(9, { fn := 0, addr := 0, why := .walk 7, at_ := 0 })], xlt := { walks := [(7, { tWalkOf 1 with spec := true, work := .table })] } } }
def tInv (issued : Bool) (reads : List Nat) : State :=
  { dev := { tDev with
      reads := [(9, { fn := 0, addr := 0, why := .flushInv 0 1 0, at_ := 0 })]
      xlt := { inv := [(0, [{ ticket := 1, asid := 1, addr := 0, size := 4096, kind := 0, walk := false, older := [], issued := issued, reads := reads }])] } } }
def tInvP : State :=
  { dev := { (tInv false []).dev with host := { posted := [(0, 64)] }, log := [.hostWrite 0 64 1 0 false false] } }
def tOpen : State :=
  { dev := { (tDR [(F.XLT_ASID_ROOT_EN, 1, 1), (F.WIN_FN_QUOTA_MAX_OPEN, 0, 4)]) with win := { busy := [(0, (4096, 4095, 0x1F0001))] } } }
def tRev : State :=
  { dev := { tDev with win := { wins := [(1, { state := .revoking, gen := 1, len := 4096, rights := 31 })]
                                revokes := [(0, [{ idx := 1, ticket := 1, start := 0, limit := 5 }])] } } }
def tRevF : State :=
  { dev := { tDev with win := { wins := [(1, { state := .revoking, gen := 1, len := 4096, rights := 31 })]
                                revokes := [(0, [{ idx := 1, ticket := 1, start := 0, limit := 5, flushed := true }])] } } }
/-- A head cell of class REQ for function 0 of device 0, with payload `pay`. -/
def tHead (pay : Nat) : Cell := mkCell 0 0 5 7 1 0 true true 0 pay
/-- Function 0 is ON and has room for receive contexts; its window 0x1001 is 4 KiB of physical memory. -/
def tRxD (l : List (Fld × Nat × Nat)) : Dev :=
  { (tDR ([(F.HST_FN_CTL_STATE, 0, 2), (F.RMA_FN_CFG_RX_MAX, 0, 4), (F.HST_FN_CTL_EN, 0, 1)] ++ l)) with
    win := { wins := [(1, { state := .opened, gen := 1, base := 4096, len := 4096, rights := 31, phys := true })] } }
def tRx (c : Cell) : State := { dev := { (tRxD []) with rma := { inbox := [c] } } }
/-- A put of inline bytes to offset 0 of window 0x1001. -/
def tPutCell : Cell := tHead (1 + 2 ^ 9 + 4 * 2 ^ 32 + 0x1001 * 2 ^ 64 + 9 * 2 ^ 384)
def tGetCell : Cell := tHead (2 + 4 * 2 ^ 32 + 0x1001 * 2 ^ 64)
def tAmoCell (op : Nat) : Cell := tHead (op + 1 * 2 ^ 12 + 8 * 2 ^ 32 + 0x1001 * 2 ^ 64 + 9 * 2 ^ 384)
/-- A put to window 0, which is none. -/
def tGetPut : Cell := tHead (1 + 2 ^ 9 + 4 * 2 ^ 32)
/-- The device after steps 1 to 4 of R175 for cell c. -/
def tRxE (c : Cell) (_right : Nat) : Dev := (((tRx c).dev.joined c).winLook c.rwin).updRx c.key id
def tRxGetE (e : Dev) (c : Cell) : Dev × Nat × Nat :=
  (Dev.updRx { e with nextTag := e.nextTag + 1, rma.gets := Tbl.put e.nextTag { cell := c, win := c.rwin } e.rma.gets } c.key
    (fun x => { x with place := .drop })).winReadAll (.getSrc e.nextTag) c.rwin c.roff c.len
def tAmoOdd : Cell := tHead (6 + 1 * 2 ^ 12 + 8 * 2 ^ 32 + 0x1001 * 2 ^ 64 + 1 * 2 ^ 128)
def tSendCell : Cell := tHead (3 + 2 ^ 9 + 4 * 2 ^ 32)
def tRdvCell : Cell := tHead (4 + 2 ^ 9 + 4 * 2 ^ 32)
def tSendR (c : Cell) : State := { dev := { (tRxD [(F.MTC_FN_CFG_EN, 0, 1)]) with rma := { inbox := [c] } } }
def tSend (l : List (Fld × Nat × Nat)) : State := { dev := { (tRxD l) with rma := { inbox := [tSendCell] } } }
def tUd : State := { dev := { (tRxD [(F.RMA_FN_UD_RING_WIN, 0, 0x1001), (F.RMA_FN_UD_RING_LOG2_SIZE, 0, 7)]) with rma := { inbox := [tHead (5 + 4 * 2 ^ 32 + 2 ^ 9)] } } }
/-- Data cell 1 of the same request. -/
def tDataCell : Cell := mkCell 0 0 5 7 1 1 false true 0 7
def tKey : Nat := 5 * 2 ^ 20 + 7 * 16 + 1
def tData (p : Place) : State :=
  { dev := { (tRxD []) with rma := { inbox := [tDataCell]
                                     rx := [(tKey, { fn := 0, head := if p = .none then none else some tPutCell
                                                     count := if p = .none then none else some 2
                                                     bufs := if p = .none then [3] else [], place := p })] } } }
def tData2 : State := { dev := { (tRxD []) with rma := { inbox := [tDataCell], rx := [(tKey, { fn := 0, bitmap := 2 })] } } }
def tResp : State :=
  { dev := { (tRxD []) with rma := { rx := [(tKey, { fn := 0, head := some tPutCell, count := some 0, resp := some (1, 0, 0) })] } } }
def tDurCell : Cell := tHead (1 + 2 ^ 9 + 2 ^ 11 + 4 * 2 ^ 32 + 0x1001 * 2 ^ 64)
def tRespDur : State :=
  { dev := { (tRxD []) with rma := { rx := [(tKey, { fn := 0, head := some tDurCell, count := some 0, resp := some (1, 0, 0)
                                                     place := .win 0x1001 0 4 })] } } }
def tDurRd : State :=
  { dev := { (tRxD []) with reads := [(9, { fn := 0, addr := 64, why := .flushReq tKey, at_ := 0 })]
                            rma := { rx := [(tKey, { fn := 0, head := some tDurCell, count := some 0, resp := some (1, 0, 0), flushing := true })] } } }
def tGetRd : State :=
  { dev := { (tRxD []) with reads := [(9, { fn := 0, addr := 4096, why := .own (.getSrc 3) 0 4, at_ := 0 })]
                            rma := { rx := [(tKey, { fn := 0, head := some tGetCell, count := some 0, place := .drop })]
                                     gets := [(3, { cell := tGetCell, win := 0x1001, reads := 1 })] } } }
def tAmoRd : State :=
  { dev := { (tRxD []) with reads := [(9, { fn := 0, addr := 4096, why := .own (.amo 3) 0 8, at_ := 0 })]
                            rma := { rx := [(tKey, { fn := 0, head := some (tAmoCell 6), count := some 0, place := .drop })]
                                     amos := [(3, { cell := tAmoCell 6, win := 0x1001, addr := some (0, 4096), reading := true })] } } }
/-- A get of 128 bytes is outstanding in slot 7. -/
def tGetSlot : Slot :=
  { msg := 3, seg := 0, st := .out, msgId := 6, fn := 0, dev := 5, dfn := 0, op := 2, len := 128, loff := 0, lwin := 0x1001,
    txAt := some 0, lastTx := some 0 }
/-- A cell of class RSP for slot 7. -/
def tRsp (gen : Nat) (head : Bool) (pay : Nat) : Cell := mkCell 0 0 5 7 gen 0 head true 1 pay
def tReplyCell : Cell := tRsp 0 false 9
def tReply : State := { dev := { (tRxD []) with rma := { inbox := [tReplyCell], slots := [(7, tGetSlot)] } } }
def tReplyTwice : State := { dev := { (tRxD []) with rma := { inbox := [tReplyCell], slots := [(7, { tGetSlot with bitmap := 1 })] } } }
def tReplyE : Dev :=
  (tReply.dev.taken tReplyCell).putSlot tReplyCell.slot
    { tGetSlot with bitmap := tGetSlot.bitmap ||| 2 ^ tReplyCell.idx, got := tGetSlot.got + 1, cmark := max tGetSlot.cmark tReplyCell.cmark }
def tAckCell : Cell := tRsp 0 true (1 + 2 ^ 24 + 6 * 2 ^ 32)
def tAck : State := { dev := { (tRxD []) with rma := { inbox := [tAckCell], slots := [(7, { tGetSlot with op := 8 })] } } }
def tBusyCell : Cell := tRsp 3 true (2 + 2 ^ 24 + 6 * 2 ^ 32)
def tBusy : State := { dev := { (tRxD []) with rma := { inbox := [tBusyCell], slots := [(7, tGetSlot)], gens := [(7, 3)] } } }
def tSrcRd : State :=
  { dev := { (tRxD []) with reads := [(9, { fn := 0, addr := 4096, why := .own (.src 7) 0 4, at_ := 0 })]
                            rma := { slots := [(7, { tGetSlot with op := 1, st := .reading })] } } }
def tCcEnt : CcEnt := { w := 4096, touch := 0, lastHit := 0 }
def tCc : State :=
  { dev := { tDev with rma := { slots := [(7, { tGetSlot with st := .wait })] }, cc := { ivLen := 50000000, ents := [(5, { tCcEnt with waiting := [7] })] } } }
def tOrder : Order := { e := 2, held := [(3, tKey, 50)], last := 0 }
def tOrd : State := { dev := { (tRxD []) with rma := { rx := [(tKey, { fn := 0, head := some tSendCell, held := true })] }, mtc := { orders := [(5 * 1024, tOrder)] } } }
def tUxMsg : UxMsg := { id := 4, mail := { src := 0, bits := 0, len := 4, d6 := 0, rdv := false, rwin := 0, roff := 0 }, arr := 0, matched := some 6 }
def tUx : State :=
  { dev := { tDev with mtc := { doms := [(0, { ux := [tUxMsg] })], active := [(6, { recv := tRecv, mail := tUxMsg.mail, ux := some 4 })] } } }
def tPeer (dev : Nat) : ColPeer := { endp := dev * 1024, ctx := 3 }
/-- A COL cell of kind `k` from device 5 for context 5. -/
def tColCell (k : Nat) : Cell := mkCell 0 0 5 (5 + k * 4096) 0 0 false true 2 9
/-- A reproducible allreduce: the root, with a child; and a leaf, with a parent. -/
def tColX : ColCtx := { kind := 3, repro := true, dtype := 6, count := 16, root := true, locals := 1, kids := [tPeer 5] }
def tColY : ColCtx := { kind := 3, repro := true, dtype := 6, count := 16, locals := 1, parent := some (tPeer 5) }
def tColD (up : Nat) : Dev := tDR [(F.COL_CTX_STAT_STATE, 5, 2), (F.COL_CTX_TREE_UP_EPOCH, 5, up)]
def tColRx (k : Nat) : State := { dev := { (tColD 0) with rma := { inbox := [tColCell k] }, col := { ctxs := [(5, tColX)] } } }
def tColRx2 : State := { dev := { (tColD 1) with rma := { inbox := [tColCell 0] }, col := { ctxs := [(5, { tColX with ups := 1 })] } } }
def tColDn (k : Nat) : State := { dev := { (tColD 0) with rma := { inbox := [tColCell k] }, col := { ctxs := [(5, tColY)] } } }
def tVec (peer kind : Nat) : SentVec := { peer := peer, kind := kind, epoch := 9, total := 1, cells := [(0, 7)], first := 0, base := 0, sentAt := some 0 }
def tColAck (k kind : Nat) : State :=
  { dev := { (tColD 0) with ft := 2 ^ 48 * 300000
                            rma := { inbox := [tColCell k] }
                            col := { ctxs := [(5, { (if kind = 0 then tColY else tColX) with sent := [tVec (if kind = 0 then 0 else 1) kind] })] } } }
def tColLost : State :=
  { dev := { (tColD 0) with col := { ctxs := [(5, { tColX with sent := [{ tVec 1 1 with attempt := 20 }] })] } } }
def tColRead : State :=
  { dev := { (tColD 0) with reads := [(9, { fn := 0, addr := 4096, why := .own (.colIn (5 + 4096)) 0 8, at_ := 0 })]
                            col := { ctxs := [(5, tColX)] } } }
def tLinkPay : Nat := 5 * 1024 * 2 ^ 64 + 3 * 2 ^ 92
def tLinkCell : Cell := mkCell 0 0 5 (5 + 6 * 4096) 0 0 false true 2 tLinkPay
/-- Context 5 is ACTIVE with child device 5; a cell of kind `k` has arrived. -/
def tColL (k pay : Nat) : State :=
  { dev := { (tColD 0) with rma := { inbox := [mkCell 0 0 5 (5 + k * 4096) 0 0 false true 2 pay] }, col := { ctxs := [(5, tColX)] } } }
def tColK (k st pay : Nat) : State :=
  { dev := { (tDR [(F.COL_CTX_STAT_STATE, 5, st)]) with rma := { inbox := [mkCell 0 0 5 (5 + k * 4096) 0 0 false true 2 pay] }
                                                        col := { ctxs := [(5, tColX)] } } }
def tColAb : State := { dev := { (tDR [(F.COL_CTX_STAT_STATE, 5, 3)]) with col := { ctxs := [(5, { tColX with kids := [{ tPeer 5 with abortAt := some 0 }] })] } } }
def tColFr : State := { dev := { (tDR [(F.COL_CTX_STAT_STATE, 5, cDraining)]) with col := { ctxs := [(5, { tColX with kids := [{ tPeer 5 with echo := true }] })] } } }
/-- A cell in transit to device 200, after `hops` hops, on virtual channel 4. -/
def tTransit (hops : Nat) : Cell := (mkCell 200 0 5 7 0 0 true true 1 0).setBits 28 4 hops
def tFwd (hops : Nat) : State :=
  { dev := { tDev with ports := [(3, { inb := [{ cell := tTransit hops, shared := true, since := 0 }] })] } }
/-- A management cell for a device that no route reaches. -/
def tCtlCell : TxCell :=
  { cell := mkCell 200 0 0 0 0 0 true true 3 0, fn := 0, cls := 3, retx := false, slot := none, own := true, col := none, last := true }
def tInj : State := { dev := { tDev with sch := { ctl := [tCtlCell] } } }
def tInjR : State := { dev := { tDev with sch := { rsp := [{ tCtlCell with cls := 1 }] } } }
def tGate : State := tR [(F.SCH_GATE_ENT_REQ, 3 * 128 + 64, 1), (F.SCH_GATE_ENT_RSP, 3 * 128 + 64, 1), (F.SCH_GATE_ENT_COL, 3 * 128 + 64, 1), (F.SCH_GATE_PBASE_BASE, 3, 5000)]
def tGateOn : Dev := { (tDR [(F.SCH_GATE_CTL_EN, 3, 1)]) with sch := { gates := [(3, { active := some (1, 1, 0) })] } }
/-- The same with a route over port set 2, of port 4 alone, which is UP. -/
def tRoute : State :=
  { dev := { (tDR [(F.RTE_PORT_STATE_STATE, 4, 3), (F.RTE_PSET_PORTS, 2, 16), (F.RTE_MBR_PSET, 8, 2), (F.RTE_MBR_VALID, 8, 1),
                   (F.RTE_GRP_PSET, 3, 2), (F.RTE_GRP_VALID, 3, 1)]) with
      ports := [(3, { inb := [{ cell := tTransit 0, shared := true, since := 0 }] })] } }
/-- The same with port 4 parked, with the cell that was held for it, and with a cell at the hop limit. -/
def tRouteP : State := { dev := { (tRoute.dev.wr F.RTE_PORT_STATE_STATE 4 5) with ports := tRoute.dev.ports } }
def tRouteH : State :=
  { dev := { tRoute.dev with ports := [(3, { inb := [{ cell := tTransit 0, shared := true, since := 0, hold := some ⟨4, 2, 4095⟩ }] })] } }
def tRoute15 : State := { dev := { tRoute.dev with ports := [(3, { inb := [{ cell := tTransit 15, shared := true, since := 0 }] })] } }
def tInjX : State := { dev := { tDev with sch := { retx := [{ tCtlCell with cls := 1 }] } } }
def tGateLate : State := tR [(F.SCH_GATE_ENT_REQ, 3 * 128 + 64, 1), (F.SCH_GATE_ENT_RSP, 3 * 128 + 64, 1), (F.SCH_GATE_ENT_COL, 3 * 128 + 64, 1)]

/-- Port 3 with its Belay state `st`, the given port state and fields. -/
def tBel (st : Nat) (x : Port) (l : List (Fld × Nat × Nat) := []) : State :=
  { dev := { (tDR ((F.PRT_LNK_STATE_STATE, 3, st) :: l)) with ports := [(3, x)] } }
/-- A frame's header for `len` bytes of body, with its checks. -/
def tHdr (kind sub seq body len : Nat) : FrameHdr :=
  let h := frameHdr kind sub seq 0xFFFFFF 0 0 false
  { hdr := h, holds := 0, crc := crc64 h body len, uncorr := 0 }
def tIdle : FrameHdr := tHdr 0 0 0 0 0
def tCF (body : BitVec 512) : CtlFrame := { hdr := tHdr 2 0 0 (ctlBits body) 64, body := body }
/-- A DATA frame of one cell. -/
def tDF (seq : Nat) : DataFrame :=
  { hdr := tHdr 1 1 seq (cellsBits [tTransit 0]) 80, cells := [tTransit 0], early := 0 }
theorem tHdr_verdict (kind sub seq body len : Nat) : (tHdr kind sub seq body len).verdict body len = .good := by
  unfold FrameHdr.verdict tHdr
  rw [if_neg (show ¬ ((false || ((0 : BitVec 4) != 0)) = true) by decide)]
  exact if_pos rfl
theorem tDF_verdict (seq : Nat) : (tDF seq).verdict = .good := tHdr_verdict 1 1 seq _ 80
theorem tCF_verdict (b : BitVec 512) : (tCF b).verdict = .good := tHdr_verdict 2 0 0 _ 64
def tDFc : DataFrame := { tDF 0 with hdr := { (tDF 0).hdr with uncorr := 1 } }
theorem tDFc_verdict : tDFc.verdict = .corrupt := by
  unfold DataFrame.verdict FrameHdr.verdict
  exact if_pos (by decide)
theorem verdict_stomped (h : BitVec 128) (body len : Nat) :
    FrameHdr.verdict { hdr := h, holds := 0, crc := ~~~(crc64 h body len), uncorr := 0 } body len = .stomped := by
  unfold FrameHdr.verdict
  rw [if_neg (show ¬ ((false || ((0 : BitVec 4) != 0)) = true) by decide)]
  rw [if_neg (fun hc => by
    have := congrArg (fun w : BitVec 64 => w.getLsbD 0) hc
    simp at this)]
  exact if_pos rfl
/-- The header of a stomped frame. -/
def tHdrS (kind sub seq body len : Nat) : FrameHdr :=
  let h := frameHdr kind sub seq 0xFFFFFF 0 0 false
  { hdr := h, holds := 0, crc := ~~~(crc64 h body len), uncorr := 0 }
theorem tHdrS_verdict (kind sub seq body len : Nat) : (tHdrS kind sub seq body len).verdict body len = .stomped :=
  verdict_stomped _ _ _
def tDFs : DataFrame := { hdr := tHdrS 1 1 0 (cellsBits [tTransit 0]) 80, cells := [tTransit 0], early := 0 }
theorem tDFs_verdict : tDFs.verdict = .stomped := tHdrS_verdict 1 1 0 _ 80
def tRep : RepFrame := { seq := 0, cells := [(tTransit 0, false)], firstTx := 0 }

def tOut : OutCell := { t := tCtlCell, since := 0 }

/-- Port 3 in TRAIN: three lanes are heard and usable in each direction, and this end has sent DONE. -/
def tTrn : Dev :=
  let ln : LaneSt := { heard := true, ready := true, usable := 14, spareOk := true }
  { (tDR [(F.PRT_TRN_STAT_STATE, 3, 3), (F.PRT_LANE_CFG_SPARE_EN, 3, 1), (F.PRT_LANE_STAT_LOGICAL, 13, 1), (F.PRT_LANE_STAT_LOGICAL, 14, 2),
          (F.PRT_LANE_STAT_LOGICAL, 15, 3)]) with
    ports := [(3, { stage := 2, lanes := [(1, ln), (2, ln), (3, ln)] })] }
def tSer : State :=
  { dev := { (tDR [(F.PRT_TRN_STAT_STATE, 3, 5)]) with ports := [(3, { lanes := [(0, { hits := 2 })] })] } }

def tPark : State := tBel 3 {} [(F.PRT_PARK_CFG_EN, 3, 1), (F.PRT_TRN_STAT_STATE, 3, 5), (F.TIME_STAT_PARENT, 0, 127)]

/-- Device 5 with both Rope ports enabled and port A UP. -/
def tRope : Dev := tDR [(F.ROPE_CFG_EN, 0, 3), (F.ROPE_PORT_STAT_STATE, 0, 2), (F.RTE_ID_ASSIGNED, 0, 1),
                        (F.RTE_ID_DEV_ID, 0, 5)]
def tRopeK (kind src dst : Nat) (body : Nat := 0) : RopeFrame :=
  { ttl := 4, src := BitVec.ofNat 32 src, dst := BitVec.ofNat 32 dst, len := 0, body := body,
    crc := BitVec.ofNat 32 (crc32 (RopePkt.raw ⟨kind, 4, src, dst, 0, body⟩)), abort := false }
def tTime : Dev :=
  { (tDR [(F.TIME_STAT_PARENT, 0, 3), (F.TIME_CFG_SERVO_EN, 0, 1), (F.PRT_LNK_STATE_STATE, 3, 3)]) with
    time := { nbr := [(3, (true, 2))] } }

def tHr : HostRd := { fn := 0, addr := 0, why := .walk 3, at_ := 0 }
def tHrd : State := { dev := { tDev with reads := [(9, tHr)] } }
/-- Function 0 is ON, and its target has number 5 enabled and pending. -/
def tInt : State :=
  { dev := { ((tDR [(F.HST_FN_CTL_STATE, 0, 2), (F.INT_TGT_STAT_ARMED, 0, 1)]).setReg R.INT_TGT_EN 0 32) with int := { pend := [(0, [5])] } } }

def tElem : Elem := { srcWin := 0, dstWin := 0, srcOff := 0, dstOff := 64, len := 8, event := false, last := true }
def tDmaR (o : Own) : HostRd := { fn := 0, addr := 4096, why := .own o 0 8, at_ := 0 }
/-- Channel 3 in RUN with a host read of 8 bytes out. -/
def tDma (rd : Option Nat) (wr : Option (Nat × Nat × Nat)) : State :=
  { dev := { (tDR [(F.DMA_CH_CTL_STATE, 3, 2)]) with reads := [(9, tDmaR (.dmaRd 3))]
                                                     dma := { ch := [(3, { elem := some tElem, rd := rd, wr := wr })] } } }
/-- Channel 60 in RUN with a Depot read of 8 bytes. -/
def tDmaDep : State :=
  { dev := { (tDR [(F.DMA_CH_CTL_STATE, 60, 2)]) with dma := { ch := [(60, { elem := some tElem, rd := some 8 })] } } }
/-- Channel 3 with part of a list element out. -/
def tDmaL : State :=
  { dev := { (tDR [(F.DMA_CH_CTL_STATE, 3, 2)]) with reads := [(9, tDmaR (.dmaList 3))]
                                                     dma := { ch := [(3, { fetching := true, parts := 1 })] } } }

def tDefer (what : DefWhat) : State :=
  { dev := { tDev with dma := { ctr := [(5, 7)], defs := [{ id := 1, ctr := 5, thresh := 7, fn := 0, what := what, ripe := some 1 }] } } }
/-- Function 0 may acquire in group 0; Piton 5 has the given holder, and the register space is open. -/
def tHpit (h : Option (Holder × Nat)) : State :=
  { dev := { ((tDR [(F.BCP_FW_STAT_READY, 0, 1)]).setReg R.PIT_FN_ACQ 0 1) with dma := { pit := [(5, { holder := h })] } } }
def tHwait : State :=
  { dev := { tDev with dma := { pit := [(5, { holder := some (.thread 3 0, 2), queue := [{ who := .host 0, prio := 0, order := 1, since := 0, wd := 0 }] })] } } }
def tEwait : State :=
  { dev := { (tDR [(F.PIT_CFG_ENG_WAIT_US, 0, 9)]) with eng := { th := [(0, { st := .ready, stall := .piton 5 6 0 })] } } }

/-- A pool of which Basecamp holds buffer 0. -/
def tPool : State :=
  { dev := { (tDR [(F.DEP_POOL_CLASS_INUSE, 4, 1)]) with
    dep := { bufs := [(0, poolTag 4 1024 + 1)] } } }
/-- Gates 0 and 1 are open to every class. -/
def tGates : Dev := tDev

/-- START, with the provisioned flash; BCP_FW_STAT.STATE is `st`. -/
def tBoot (st : Nat) (b : BcpSt := .provisioned) : State :=
  { dev := { (tDR [(F.BCP_FW_STAT_STATE, 0, st)]) with pwr := {}, bcp := b } }
/-- RUN, with a request of opcode `op` in mailbox 3 and request word 0 `w`; the firmware's state is `st`. -/
def tMbxL (op w : Nat) (st : Nat := 2) : List (Fld × Nat × Nat) :=
  [(F.BCP_FW_STAT_STATE, 0, st), (F.BCP_MBX_CTL_OPCODE, 3, op), (F.BCP_MBX_CTL_SEQ, 3, 1), (F.BCP_MBX_STAT_BUSY, 3, 1),
   (⟨R.BCP_MBX_REQ, 0, 64⟩, 48, w)]
def tMbx (op w : Nat) (st : Nat := 2) : State :=
  { dev := { (tDR (tMbxL op w st)) with bcp := .provisioned } }

/-- A CTL cell of a function type for function 0, in the CTL ring. -/
def tCtlE : CtlEnt := { cell := mkCell 0 0 0 0 0 0 true true 3 0x8001, kind := 1, port := 3, status := 0, time := 0 }
def tRing : State := { dev := { (tDR [(F.HST_FN_CTL_STATE, 0, 2), (F.ENG_SLOT_CTL_CLUSTERS, 0, 1), (⟨R.PWR_DOM_STAT, 32, 1⟩, 0, 1)]) with bcp := { ring := [tCtlE] } } }

/-- Basecamp has a transaction in phase `p`. -/
def tTxn (p : TxnPhase) : State := { dev := tDev, txns := [(8, { phase := p })] }

/-- The telemetry reader runs for function 0, which is ON. -/
def tPmcL : List (Fld × Nat × Nat) := [(F.HST_FN_CTL_STATE, 0, 2), (F.PMC_RDR_STAT_STATE, 0, 1), (F.PMC_RDR_CFG_WIN, 0, 0x1001)]
def tPmc (full : Nat) : Dev :=
  { (tDR (tPmcL ++ [(F.PMC_RDR_IDX_CONS, 0, 2 ^ 32 - full)])) with
    win := { wins := [(1, { state := .opened, gen := 1, base := 4096, len := 4096, rights := 31, phys := true })] } }

/-- The state after a command. -/
def tNext (s : State) (c : Instr) : State :=
  match exec c s with
  | .next t => t
  | .fault _ => s
  | .refused _ => s

/-! ### Well-formedness: an ill-formed command for each check, refused, beside one that passes -/

theorem test_wf_doorbell : WellFormed (.doorbell ⟨0, 0x300⟩ 8 (some 5)) ∧ ¬ WellFormed (.doorbell ⟨0, 0x300⟩ 2 (some 5)) := by decide
theorem test_wf_push : WellFormed (.pushWrite ⟨0, 0x380⟩ 0xFF 0) ∧ ¬ WellFormed (.pushWrite ⟨0, 0x380⟩ 0 0) ∧ ¬ WellFormed (.pushWrite ⟨0, 0x340⟩ 1 0) := by decide
theorem test_wf_prefetch : WellFormed (.wqPrefetch 3 7 4) ∧ ¬ WellFormed (.wqPrefetch 3 7 5) ∧ ¬ WellFormed (.wqPrefetch 3 7 0) := by decide
theorem test_wf_frame : ¬ WellFormed (.belayDataRx 0 { hdr := tIdle, cells := [], early := 0 }) := by
  decide
theorem test_wf_therm : ¬ WellFormed (.thermSample [0]) := by decide
theorem test_wf_ser : WellFormed (.serWindow 0 0 3 4) ∧ ¬ WellFormed (.serWindow 0 0 5 4) := by decide
theorem test_wf_arb : WellFormed (.arbGrant 0 0 [1, 2]) ∧ ¬ WellFormed (.arbGrant 0 0 [1, 1]) := by decide
theorem test_wf_access : WellFormed (.regWrite (.bar0 .bcp) 8 8 0) ∧ ¬ WellFormed (.regWrite (.bar0 .bcp) 4 8 0) ∧ ¬ WellFormed (.readClear (.bar0 .bcp) 8 2) := by
  decide
theorem test_wf_completions : ¬ WellFormed (.wqFetchDone 0 (.ok (2 ^ 512) false)) ∧ ¬ WellFormed (.xltWalkReadDone 0 (.ok (2 ^ 64) false)) ∧
    ¬ WellFormed (.dmaListFetchDone 0 0 (.ok (2 ^ 256) false)) := by decide +kernel

/-! ### The spec's own numbers -/

/-- The slots and handler instructions of the worked example of "The Mithal instruction set". -/
theorem test_words_of_the_inline_put :
    wordW 0x18 ⟨4, 0x290405⟩ * 2 ^ 28 + 0x81 = 0x1822904050000081 ∧
    wordW 0x18 ⟨5, 0x40⟩ * 2 ^ 28 = 0x1828000400000000 ∧
    wordW 0x18 ⟨6, 0x6789AB⟩ * 2 ^ 28 + 0x2468A = 0x1836789AB002468A ∧
    wordW 0x73 ⟨0, 0x40C⟩ * 2 ^ 28 = 0x73000040C0000000 ∧
    wordB 0x70 ⟨0, 15⟩ = 0x70000000F ∧
    wordI 0x30 ⟨10, 0, 0, 0x400⟩ = 0x305000400 ∧
    wordA 0x10 ⟨4, 4, 10, 0, 3⟩ = 0x102114003 ∧
    wordA 0x40 ⟨9, 4, 8, 0, 0⟩ = 0x404910000 ∧
    wordA 0x04 ⟨0, 0, 0, 0, 0⟩ = 0x040000000 := by decide

/-- Slot 3 of that example: the 28-bit extension over the 23-bit immediate. -/
theorem test_movi_extension :
    BitVec.ofInt 64 (signed (0x2468A * 2 ^ 23 + 0x6789AB) 51) = (0x0123456789AB : Word) := by decide

/-- CRC-8 of "123456789" and the header of the inline put (R296, the worked example of "Cells and routing"). -/
theorem test_header_check :
    crcOf 8 0x07 0 0x313233343536373839 72 = 0xF4 ∧ hchk 0x0A904050320C041C800301F010D15900 = 0xB3 := by decide +kernel

/-- A divide by zero, and −2^63 by −1 (R42). -/
theorem test_divide :
    aluOp 0x00C 5 0 = BitVec.allOnes 64 ∧ aluOp 0x00E 5 0 = 5 ∧
    aluOp 0x00C 0x8000000000000000 (BitVec.allOnes 64) = 0x8000000000000000 ∧ aluOp 0x00E 0x8000000000000000 (BitVec.allOnes 64) = 0 := by
  decide +kernel

/-- The echoed stamp of the worked example of "Congestion control and scheduling". -/
theorem test_rtt_sample : rttSample 1000001300 0xB280 = 1300 := by decide

/-- The device of that example at `t` ns after its reference. -/
def tWinAt (e : CcEnt) (t : Nat) : Dev := { tDev with ft := (1000000000 + t) * 2 ^ 48, cc := { ents := [(7, e)], ivLen := 50000000, ivNum := 20, ivStart := 1000000000 } }
/-- A sample of `r` ns at `t` ns, of a segment of charge 9 with mark m. -/
def tWinStep (e : CcEnt) (t r m : Nat) : CcEnt :=
  ((((tWinAt e t).ccSample 7 ((1000000000 + t - r) / 4 % 2 ^ 16) (some 9) m false).ccFind 7).getD e)
def tWin4 : CcEnt := tWinStep (tWinStep (tWinStep (tWinStep { w := 16384, touch := 20 } 1300 1300 0) 1500 1200 0) 1700 1240 0) 1900 1220 0
def tWin8 : CcEnt := tWinStep (tWinStep (tWinStep (tWinStep tWin4 2100 1260 0) 3600 3400 2) 4400 6000 0) 6200 5200 0
/-- Its eight rows: W and srtt after the fourth and after the eighth. -/
theorem test_first_window : tWin4.w = 16525 ∧ tWin4.srtt = 1274 ∧ tWin8.w = 12241 ∧ tWin8.srtt = 2484 := by decide +kernel

/-- The window check of the worked example of "Translation and windows": bytes 0x40 to 0x47 of a window of 64 MiB. -/
theorem test_window_check :
    ({ tDev with win := { wins := [(0x32, { state := .opened, gen := 7, base := 0x7F3A41E00000, len := 0x4000000, rights := 31 })] } } : Dev).winCheck
      0x00032007 (remotePeer 0x0C83 0) rRW 0x40 8 = 0 := by decide +kernel

/-- No word spells a command. -/
theorem test_no_command_words (n w : Nat) : decodeTableWord n w = none := rfl
theorem test_fetch_word (s : State) (n w : Nat) : s.withFetchWord n w = s := rfl

/-! ### Single steps -/

/-- The command at the front runs and leaves the queue. -/
theorem test_step : ∃ t, step { pending := [.faultReport 3, .pmbAlert] } = .next t ∧ t.pending = [.pmbAlert] := ⟨_, rfl, rfl⟩

/-- An addi of 5 to w2 that holds 7 and 2^64 − 3: the sum, and its wrap (R42, R43). -/
theorem test_addi :
    ((tNext (tCmd (wordI 0x11 ⟨1, 2, 0, 5⟩) { w := [(2, mkWord 7 0)] }) (.addi 0 ⟨1, 2, 0, 5⟩ 0)).v 0 1) = 12 ∧
    ((tNext (tCmd (wordI 0x11 ⟨2, 2, 0, 5⟩) { w := [(2, mkWord 0xFFFFFFFFFFFFFFFD 0)] }) (.addi 0 ⟨2, 2, 0, 5⟩ 0)).v 0 2) = 2 := by
  decide +kernel

/-- w0 reads 0 after an instruction that names it as its result (R30). -/
theorem test_w0 : (tNext (tCmd (wordI 0x11 ⟨0, 2, 0, 5⟩) { w := [(2, mkWord 7 0)] }) (.addi 0 ⟨0, 2, 0, 5⟩ 0)).v 0 0 = 0 := by decide +kernel


/-! ### The worked example of "Collectives": one block over two trees -/

/-- A context of one F64 vector of 8 elements, reproducible SUM. -/
def tSum : ColCtx := { kind := 3, repro := true, dtype := 5, count := 8, root := true, locals := 1 }
/-- The contributions of A, B, C and D: elements 0 and 1, the rest +0. -/
def tSumA : Nat := 0x4340000000000000 + 0x4014000000000000 * 2 ^ 64
def tSumB : Nat := 0x3FF0000000000000 + 0x7FF0000000000000 * 2 ^ 64
def tSumC : Nat := 0xC340000000000000
def tSumD : Nat := 0x3958000000000000
/-- Their records, and the combined record (R275, R276). -/
theorem test_records :
    tSum.record tSumA 0 = 0x0000888888880035 ∧ tSum.record tSumB 0 = 0x0000888888A80000 ∧ tSum.record tSumC 0 = 0x0000888888880035 ∧
    tSum.record tSumD 0 = 0x000088888888FF96 ∧
    recCombine (recCombine (recCombine (tSum.record tSumA 0) (tSum.record tSumB 0)) (tSum.record tSumC 0)) (tSum.record tSumD 0) = 0x0000888888A80035 := by
  decide +kernel
/-- The 192-bit integers of element 0 and the results of elements 0 to 2 (R277, R280). -/
theorem test_fixed_point :
    tSum.fixedBlock tSumA 0x35 0 % 2 ^ 192 = 0x80000000 * 2 ^ 128 ∧ tSum.fixedBlock tSumB 0x35 0 % 2 ^ 192 = 0x40000000000 * 2 ^ 64 ∧
    tSum.fixedBlock tSumC 0x35 0 % 2 ^ 192 = 0xFFFFFFFF80000000 * 2 ^ 128 ∧ tSum.fixedBlock tSumD 0x35 0 % 2 ^ 192 = 1 ∧
    tSum.finish 0x0000888888A80035 0 (2 ^ 106 + 1) = 0x3FF0000000000000 ∧ tSum.finish 0x0000888888A80035 1 0 = 0x7FF0000000000000 ∧
    tSum.finish 0x0000888888A80035 2 0 = 0 := by
  decide +kernel

/-- Inversion maps D21.5 onto D10.2 (R414). -/
theorem test_rope_inverted : ~~~(codeSym false (.data 0xB5)).1 = (codeSym false (.data 0x4A)).1 := by decide

/-- States and operands that meet the hypotheses of each clause of EngineIntegerResults. -/
theorem witness_EngineIntegerResults :
    -- ALU
    (∃ (s : State) (th : Tid) (f : FmtA) (ext : Ext), (s.dev.atInstr th (wordA 0x10 f) ext f.guard.toNat = true) ∧ (extBad (s.dev.thr th) ext = false) ∧ (f.fn.toNat ≤ 0x13)) ∧
    -- ADDI
    (∃ (s : State) (th : Tid) (f : FmtI) (ext : Ext), (s.dev.atInstr th (wordI 0x11 f) ext f.guard.toNat = true)) ∧
    -- ANDI
    (∃ (s : State) (th : Tid) (f : FmtI) (ext : Ext), (s.dev.atInstr th (wordI 0x12 f) ext f.guard.toNat = true)) ∧
    -- ORI
    (∃ (s : State) (th : Tid) (f : FmtI) (ext : Ext), (s.dev.atInstr th (wordI 0x13 f) ext f.guard.toNat = true)) ∧
    -- XORI
    (∃ (s : State) (th : Tid) (f : FmtI) (ext : Ext), (s.dev.atInstr th (wordI 0x14 f) ext f.guard.toNat = true)) ∧
    -- SHLI
    (∃ (s : State) (th : Tid) (f : FmtI) (ext : Ext), (s.dev.atInstr th (wordI 0x15 f) ext f.guard.toNat = true) ∧ (extBad (s.dev.thr th) ext = false) ∧ (f.imm.toNat < 64)) ∧
    -- SHRI
    (∃ (s : State) (th : Tid) (f : FmtI) (ext : Ext), (s.dev.atInstr th (wordI 0x16 f) ext f.guard.toNat = true) ∧ (extBad (s.dev.thr th) ext = false) ∧ (f.imm.toNat < 64)) ∧
    -- SRAI
    (∃ (s : State) (th : Tid) (f : FmtI) (ext : Ext), (s.dev.atInstr th (wordI 0x17 f) ext f.guard.toNat = true) ∧ (extBad (s.dev.thr th) ext = false) ∧ (f.imm.toNat < 64)) ∧
    -- MOVI
    (∃ (s : State) (th : Tid) (f : FmtW) (ext : Ext), (s.dev.atInstr th (wordW 0x18 f) ext 0 = true)) ∧
    -- MOVK
    (∃ (s : State) (th : Tid) (f : FmtW) (ext : Ext), (s.dev.atInstr th (wordW 0x19 f) ext 0 = true) ∧ (extBad (s.dev.thr th) ext = false) ∧ (f.imm.toNat < 2 ^ 18)) ∧
    -- BIT
    (∃ (s : State) (th : Tid) (f : FmtA) (ext : Ext), (s.dev.atInstr th (wordA 0x1A f) ext f.guard.toNat = true) ∧ (extBad (s.dev.thr th) ext = false) ∧ (f.fn.toNat ≤ 4) ∧ (f.wb = 0)) ∧
    -- SEL
    (∃ (s : State) (th : Tid) (f : FmtA) (ext : Ext), (s.dev.atInstr th (wordA 0x1B f) ext f.guard.toNat = true) ∧ (extBad (s.dev.thr th) ext = false) ∧ (f.fn.toNat < 8)) ∧
    -- SHLI (illegal)
    (∃ (s : State) (th : Tid) (f : FmtI) (ext : Ext), (s.dev.atInstr th (wordI 0x15 f) ext f.guard.toNat = true) ∧ (64 ≤ f.imm.toNat)) ∧
    -- SHRI (illegal)
    (∃ (s : State) (th : Tid) (f : FmtI) (ext : Ext), (s.dev.atInstr th (wordI 0x16 f) ext f.guard.toNat = true) ∧ (64 ≤ f.imm.toNat)) ∧
    -- SRAI (illegal)
    (∃ (s : State) (th : Tid) (f : FmtI) (ext : Ext), (s.dev.atInstr th (wordI 0x17 f) ext f.guard.toNat = true) ∧ (64 ≤ f.imm.toNat)) ∧
    -- MOVK (illegal)
    (∃ (s : State) (th : Tid) (f : FmtW) (ext : Ext), (s.dev.atInstr th (wordW 0x19 f) ext 0 = true) ∧ (2 ^ 18 ≤ f.imm.toNat)) ∧
    -- BIT (illegal)
    (∃ (s : State) (th : Tid) (f : FmtA) (ext : Ext), (s.dev.atInstr th (wordA 0x1A f) ext f.guard.toNat = true) ∧ (4 < f.fn.toNat ∨ f.wb ≠ 0)) ∧
    -- SEL (illegal)
    (∃ (s : State) (th : Tid) (f : FmtA) (ext : Ext), (s.dev.atInstr th (wordA 0x1B f) ext f.guard.toNat = true) ∧ (8 ≤ f.fn.toNat)) :=
  ⟨⟨tCmd (wordA 0x10 ⟨1, 2, 3, 0, 0⟩) {}, 0, ⟨1, 2, 3, 0, 0⟩, 0, by decide +kernel, by decide +kernel, by decide +kernel⟩,
   ⟨tCmd (wordI 0x11 ⟨1, 2, 0, 5⟩) {}, 0, ⟨1, 2, 0, 5⟩, 0, by decide +kernel⟩,
   ⟨tCmd (wordI 0x12 ⟨1, 2, 0, 5⟩) {}, 0, ⟨1, 2, 0, 5⟩, 0, by decide +kernel⟩,
   ⟨tCmd (wordI 0x13 ⟨1, 2, 0, 5⟩) {}, 0, ⟨1, 2, 0, 5⟩, 0, by decide +kernel⟩,
   ⟨tCmd (wordI 0x14 ⟨1, 2, 0, 5⟩) {}, 0, ⟨1, 2, 0, 5⟩, 0, by decide +kernel⟩,
   ⟨tCmd (wordI 0x15 ⟨1, 2, 0, 5⟩) {}, 0, ⟨1, 2, 0, 5⟩, 0, by decide +kernel, by decide +kernel, by decide +kernel⟩,
   ⟨tCmd (wordI 0x16 ⟨1, 2, 0, 5⟩) {}, 0, ⟨1, 2, 0, 5⟩, 0, by decide +kernel, by decide +kernel, by decide +kernel⟩,
   ⟨tCmd (wordI 0x17 ⟨1, 2, 0, 5⟩) {}, 0, ⟨1, 2, 0, 5⟩, 0, by decide +kernel, by decide +kernel, by decide +kernel⟩,
   ⟨tCmd (wordW 0x18 ⟨1, 5⟩) {}, 0, ⟨1, 5⟩, 0, by decide +kernel⟩,
   ⟨tCmd (wordW 0x19 ⟨1, 5⟩) {}, 0, ⟨1, 5⟩, 0, by decide +kernel, by decide +kernel, by decide +kernel⟩,
   ⟨tCmd (wordA 0x1A ⟨1, 2, 0, 0, 3⟩) {}, 0, ⟨1, 2, 0, 0, 3⟩, 0, by decide +kernel, by decide +kernel, by decide +kernel, by decide +kernel⟩,
   ⟨tCmd (wordA 0x1B ⟨1, 2, 3, 0, 3⟩) {}, 0, ⟨1, 2, 3, 0, 3⟩, 0, by decide +kernel, by decide +kernel, by decide +kernel⟩,
   ⟨tCmd (wordI 0x15 ⟨1, 2, 0, 64⟩) {}, 0, ⟨1, 2, 0, 64⟩, 0, by decide +kernel, by decide +kernel⟩,
   ⟨tCmd (wordI 0x16 ⟨1, 2, 0, 64⟩) {}, 0, ⟨1, 2, 0, 64⟩, 0, by decide +kernel, by decide +kernel⟩,
   ⟨tCmd (wordI 0x17 ⟨1, 2, 0, 64⟩) {}, 0, ⟨1, 2, 0, 64⟩, 0, by decide +kernel, by decide +kernel⟩,
   ⟨tCmd (wordW 0x19 ⟨1, 0x40000⟩) {}, 0, ⟨1, 0x40000⟩, 0, by decide +kernel, by decide +kernel⟩,
   ⟨tCmd (wordA 0x1A ⟨1, 2, 1, 0, 3⟩) {}, 0, ⟨1, 2, 1, 0, 3⟩, 0, by decide +kernel, by decide +kernel⟩,
   ⟨tCmd (wordA 0x1B ⟨1, 2, 3, 0, 8⟩) {}, 0, ⟨1, 2, 3, 0, 8⟩, 0, by decide +kernel, by decide +kernel⟩⟩

/-- States and operands that meet the hypotheses of each clause of EnginePredicatesAndTags. -/
theorem witness_EnginePredicatesAndTags :
    -- CMP
    (∃ (s : State) (th : Tid) (f : FmtA) (ext : Ext), (s.dev.atInstr th (wordA 0x1C f) ext f.guard.toNat = true) ∧ (extBad (s.dev.thr th) ext = false) ∧ (f.fn.toNat ≤ 5) ∧ (f.wd.toNat < 8) ∧ ((s.dev.thr th).poisonIn [f.wa.toNat, f.wb.toNat] = none)) ∧
    -- CMPI_EQ
    (∃ (s : State) (th : Tid) (f : FmtI) (ext : Ext), (s.dev.atInstr th (wordI 0x1D f) ext f.guard.toNat = true) ∧ (f.wd.toNat < 8) ∧ ((s.dev.thr th).poisonIn [f.wa.toNat] = none)) ∧
    -- CMPI_LT
    (∃ (s : State) (th : Tid) (f : FmtI) (ext : Ext), (s.dev.atInstr th (wordI 0x1E f) ext f.guard.toNat = true) ∧ (f.wd.toNat < 8) ∧ ((s.dev.thr th).poisonIn [f.wa.toNat] = none)) ∧
    -- CMPI_LTU
    (∃ (s : State) (th : Tid) (f : FmtI) (ext : Ext), (s.dev.atInstr th (wordI 0x1F f) ext f.guard.toNat = true) ∧ (f.wd.toNat < 8) ∧ ((s.dev.thr th).poisonIn [f.wa.toNat] = none)) ∧
    -- POP
    (∃ (s : State) (th : Tid) (f : FmtA) (ext : Ext), (s.dev.atInstr th (wordA 0x20 f) ext f.guard.toNat = true) ∧ (extBad (s.dev.thr th) ext = false) ∧ (f.fn.toNat ≤ 3) ∧ (f.wd.toNat < 8 ∧ f.wa.toNat < 8 ∧ f.wb.toNat < 8)) ∧
    -- TAG_GET
    (∃ (s : State) (th : Tid) (f : FmtA) (ext : Ext), (s.dev.atInstr th (wordA 0x28 f) ext f.guard.toNat = true) ∧ (extBad (s.dev.thr th) ext = false) ∧ (f.fn = 0) ∧ (f.wb = 0)) ∧
    -- TAG_SET
    (∃ (s : State) (th : Tid) (f : FmtA) (ext : Ext), (s.dev.atInstr th (wordA 0x28 f) ext f.guard.toNat = true) ∧ (extBad (s.dev.thr th) ext = false) ∧ (f.fn = 1) ∧ ((s.dev.thr th).priv = true ∨ isPoison (s.w th f.wa.toNat) = false ∨ tagPoison ((s.v th f.wb.toNat).toNat % 256) = true)) ∧
    -- TAG_SETI
    (∃ (s : State) (th : Tid) (f : FmtI) (ext : Ext), (s.dev.atInstr th (wordI 0x29 f) ext f.guard.toNat = true) ∧ (extBad (s.dev.thr th) ext = false) ∧ (f.imm.toNat < 256) ∧ ((s.dev.thr th).priv = true ∨ isPoison (s.w th f.wa.toNat) = false ∨ tagPoison f.imm.toNat = true)) ∧
    -- TAG_TST
    (∃ (s : State) (th : Tid) (f : FmtI) (ext : Ext), (s.dev.atInstr th (wordI 0x2A f) ext f.guard.toNat = true) ∧ (extBad (s.dev.thr th) ext = false) ∧ (f.imm.toNat < 16) ∧ (f.wd.toNat < 8)) ∧
    -- CMP (illegal)
    (∃ (s : State) (th : Tid) (f : FmtA) (ext : Ext), (s.dev.atInstr th (wordA 0x1C f) ext f.guard.toNat = true) ∧ (5 < f.fn.toNat ∨ 8 ≤ f.wd.toNat)) ∧
    -- CMPI_EQ (illegal)
    (∃ (s : State) (th : Tid) (f : FmtI) (ext : Ext), (s.dev.atInstr th (wordI 0x1D f) ext f.guard.toNat = true) ∧ (8 ≤ f.wd.toNat)) ∧
    -- CMPI_LT (illegal)
    (∃ (s : State) (th : Tid) (f : FmtI) (ext : Ext), (s.dev.atInstr th (wordI 0x1E f) ext f.guard.toNat = true) ∧ (8 ≤ f.wd.toNat)) ∧
    -- CMPI_LTU (illegal)
    (∃ (s : State) (th : Tid) (f : FmtI) (ext : Ext), (s.dev.atInstr th (wordI 0x1F f) ext f.guard.toNat = true) ∧ (8 ≤ f.wd.toNat)) ∧
    -- POP (illegal)
    (∃ (s : State) (th : Tid) (f : FmtA) (ext : Ext), (s.dev.atInstr th (wordA 0x20 f) ext f.guard.toNat = true) ∧ (3 < f.fn.toNat ∨ 8 ≤ f.wd.toNat ∨ 8 ≤ f.wa.toNat ∨ 8 ≤ f.wb.toNat)) ∧
    -- TAG_SETI (illegal)
    (∃ (s : State) (th : Tid) (f : FmtI) (ext : Ext), (s.dev.atInstr th (wordI 0x29 f) ext f.guard.toNat = true) ∧ (256 ≤ f.imm.toNat)) ∧
    -- TAG_TST (illegal)
    (∃ (s : State) (th : Tid) (f : FmtI) (ext : Ext), (s.dev.atInstr th (wordI 0x2A f) ext f.guard.toNat = true) ∧ (16 ≤ f.imm.toNat ∨ 8 ≤ f.wd.toNat)) :=
  ⟨⟨tCmd (wordA 0x1C ⟨1, 2, 3, 0, 2⟩) {}, 0, ⟨1, 2, 3, 0, 2⟩, 0, by decide +kernel, by decide +kernel, by decide +kernel, by decide +kernel, by decide +kernel⟩,
   ⟨tCmd (wordI 0x1D ⟨1, 2, 0, 5⟩) {}, 0, ⟨1, 2, 0, 5⟩, 0, by decide +kernel, by decide +kernel, by decide +kernel⟩,
   ⟨tCmd (wordI 0x1E ⟨1, 2, 0, 5⟩) {}, 0, ⟨1, 2, 0, 5⟩, 0, by decide +kernel, by decide +kernel, by decide +kernel⟩,
   ⟨tCmd (wordI 0x1F ⟨1, 2, 0, 5⟩) {}, 0, ⟨1, 2, 0, 5⟩, 0, by decide +kernel, by decide +kernel, by decide +kernel⟩,
   ⟨tCmd (wordA 0x20 ⟨1, 2, 3, 0, 2⟩) {}, 0, ⟨1, 2, 3, 0, 2⟩, 0, by decide +kernel, by decide +kernel, by decide +kernel, by decide +kernel⟩,
   ⟨tCmd (wordA 0x28 ⟨1, 2, 0, 0, 0⟩) {}, 0, ⟨1, 2, 0, 0, 0⟩, 0, by decide +kernel, by decide +kernel, by decide +kernel, by decide +kernel⟩,
   ⟨tCmd (wordA 0x28 ⟨1, 2, 3, 0, 1⟩) {}, 0, ⟨1, 2, 3, 0, 1⟩, 0, by decide +kernel, by decide +kernel, by decide +kernel, by decide +kernel⟩,
   ⟨tCmd (wordI 0x29 ⟨1, 2, 0, 1⟩) {}, 0, ⟨1, 2, 0, 1⟩, 0, by decide +kernel, by decide +kernel, by decide +kernel, by decide +kernel⟩,
   ⟨tCmd (wordI 0x2A ⟨1, 2, 0, 1⟩) {}, 0, ⟨1, 2, 0, 1⟩, 0, by decide +kernel, by decide +kernel, by decide +kernel, by decide +kernel⟩,
   ⟨tCmd (wordA 0x1C ⟨1, 2, 3, 0, 6⟩) {}, 0, ⟨1, 2, 3, 0, 6⟩, 0, by decide +kernel, by decide +kernel⟩,
   ⟨tCmd (wordI 0x1D ⟨8, 2, 0, 5⟩) {}, 0, ⟨8, 2, 0, 5⟩, 0, by decide +kernel, by decide +kernel⟩,
   ⟨tCmd (wordI 0x1E ⟨8, 2, 0, 5⟩) {}, 0, ⟨8, 2, 0, 5⟩, 0, by decide +kernel, by decide +kernel⟩,
   ⟨tCmd (wordI 0x1F ⟨8, 2, 0, 5⟩) {}, 0, ⟨8, 2, 0, 5⟩, 0, by decide +kernel, by decide +kernel⟩,
   ⟨tCmd (wordA 0x20 ⟨1, 2, 8, 0, 0⟩) {}, 0, ⟨1, 2, 8, 0, 0⟩, 0, by decide +kernel, by decide +kernel⟩,
   ⟨tCmd (wordI 0x29 ⟨1, 2, 0, 256⟩) {}, 0, ⟨1, 2, 0, 256⟩, 0, by decide +kernel, by decide +kernel⟩,
   ⟨tCmd (wordI 0x2A ⟨8, 2, 0, 1⟩) {}, 0, ⟨8, 2, 0, 1⟩, 0, by decide +kernel, by decide +kernel⟩⟩

/-- States and operands that meet the hypotheses of each clause of EngineSystemAndControl. -/
theorem witness_EngineSystemAndControl :
    -- NOP
    (∃ (s : State) (th : Tid) (f : FmtA) (ext : Ext), (s.dev.atInstr th (wordA 0x01 f) ext f.guard.toNat = true) ∧ (extBad (s.dev.thr th) ext = false) ∧ (f.wd = 0 ∧ f.wa = 0 ∧ f.wb = 0 ∧ f.fn = 0)) ∧
    -- YIELD
    (∃ (s : State) (th : Tid) (f : FmtA) (ext : Ext), (s.dev.atInstr th (wordA 0x03 f) ext f.guard.toNat = true) ∧ (extBad (s.dev.thr th) ext = false) ∧ (f.wd = 0 ∧ f.wa = 0 ∧ f.wb = 0 ∧ f.fn = 0)) ∧
    -- RDC
    (∃ (s : State) (th : Tid) (f : FmtA) (ext : Ext), (s.dev.atInstr th (wordA 0x06 f) ext f.guard.toNat = true) ∧ (extBad (s.dev.thr th) ext = false) ∧ (f.wb = 0 ∧ f.fn = 0) ∧ (ctxReserved f.wa.toNat = false) ∧ (f.wa.toNat ≠ 15) ∧ (f.wa.toNat = 8 → (s.dev.thr th).priv = true)) ∧
    -- RDC (time)
    (∃ (s : State) (th : Tid) (f : FmtA) (ext : Ext), (s.dev.atInstr th (wordA 0x06 f) ext f.guard.toNat = true) ∧ (extBad (s.dev.thr th) ext = false) ∧ (f.wb = 0 ∧ f.fn = 0) ∧ (f.wa = 15)) ∧
    -- WRC
    (∃ (s : State) (th : Tid) (f : FmtA) (ext : Ext), (s.dev.atInstr th (wordA 0x07 f) ext f.guard.toNat = true) ∧ (extBad (s.dev.thr th) ext = false) ∧ (f.wb = 0 ∧ f.fn = 0) ∧ (f.wd = 20)) ∧
    -- WRC (asid)
    (∃ (s : State) (th : Tid) (f : FmtA) (ext : Ext), (s.dev.atInstr th (wordA 0x07 f) ext f.guard.toNat = true) ∧ (extBad (s.dev.thr th) ext = false) ∧ (f.wb = 0 ∧ f.fn = 0) ∧ (f.wd = 2) ∧ ((s.dev.thr th).priv = true) ∧ (s.dev.flag F.XLT_CFG_MODE = false)) ∧
    -- PROG_SWAP
    (∃ (s : State) (th : Tid) (f : FmtA) (ext : Ext), (s.dev.atInstr th (wordA 0x08 f) ext f.guard.toNat = true) ∧ (extBad (s.dev.thr th) ext = false) ∧ (f.fn = 0) ∧ ((s.dev.thr th).priv = true) ∧ ((s.dev.thr th).poisonIn [f.wa.toNat, f.wb.toNat] = none) ∧ (s.dev.flag F.ENG_SLOT_STAT_DRAINING (bitsOf (s.v th f.wa.toNat).toNat 0 10) = false)) ∧
    -- PROG_SWAP (image)
    (∃ (d : Dev) (n : Nat), (d.flag F.ENG_SLOT_STAT_DRAINING n = false) ∧ (n < 1024)) ∧
    -- BR
    (∃ (s : State) (th : Tid) (f : FmtB) (ext : Ext), (s.dev.atInstr th (wordB 0x70 f) ext f.guard.toNat = true) ∧ (extBad (s.dev.thr th) ext = false) ∧ (pcCmd (s.dev.thr th).pc = false) ∧ (s.dev.targetOk th (pcIndex (s.dev.thr th).pc + f.off.toInt) = true)) ∧
    -- CALL
    (∃ (s : State) (th : Tid) (f : FmtB) (ext : Ext), (s.dev.atInstr th (wordB 0x71 f) ext f.guard.toNat = true) ∧ (extBad (s.dev.thr th) ext = false) ∧ (pcCmd (s.dev.thr th).pc = false) ∧ (s.dev.targetOk th (pcIndex (s.dev.thr th).pc + f.off.toInt) = true)) ∧
    -- JR
    (∃ (s : State) (th : Tid) (f : FmtA) (ext : Ext), (s.dev.atInstr th (wordA 0x72 f) ext f.guard.toNat = true) ∧ (extBad (s.dev.thr th) ext = false) ∧ (f.wd = 0 ∧ f.wb = 0 ∧ f.fn = 0) ∧ (pcCmd (s.dev.thr th).pc = false) ∧ (getBits (s.v th f.wa.toNat) 17 19 = getBits (s.dev.thr th).pc 17 19) ∧ ((s.dev.thr th).poisonIn [f.wa.toNat] = none) ∧ (s.dev.targetOk th (pcIndex (s.v th f.wa.toNat)) = true)) ∧
    -- INVOKE
    (∃ (s : State) (th : Tid) (f : FmtW) (ext : Ext), (s.dev.atInstr th (wordW 0x73 f) ext 0 = true) ∧ (extBad (s.dev.thr th) ext = false) ∧ (f.imm.toNat < 2 ^ 14) ∧ (f.wd = 0) ∧ (s.dev.rd F.ENG_SLOT_CTL_OWNER_FN (bitsOf f.imm.toNat 0 10) = (s.dev.thr th).fn ∨
      s.dev.flag F.ENG_SLOT_CTL_SHARED (bitsOf f.imm.toNat 0 10) = true) ∧ (s.dev.flag F.ENG_SLOT_CTL_PRIV (bitsOf f.imm.toNat 0 10) = true → (s.dev.thr th).priv = true) ∧ (s.dev.flag F.ENG_SLOT_CTL_EN (bitsOf f.imm.toNat 0 10) = true) ∧ ((s.dev.thr th).inSlot = none)) :=
  ⟨⟨tCmd (wordA 0x01 ⟨0, 0, 0, 0, 0⟩) {}, 0, ⟨0, 0, 0, 0, 0⟩, 0, by decide +kernel, by decide +kernel, by decide +kernel⟩,
   ⟨tCmd (wordA 0x03 ⟨0, 0, 0, 0, 0⟩) {}, 0, ⟨0, 0, 0, 0, 0⟩, 0, by decide +kernel, by decide +kernel, by decide +kernel⟩,
   ⟨tCmd (wordA 0x06 ⟨1, 1, 0, 0, 0⟩) {}, 0, ⟨1, 1, 0, 0, 0⟩, 0, by decide +kernel, by decide +kernel, by decide +kernel, by decide +kernel, by decide +kernel, by decide +kernel⟩,
   ⟨tCmd (wordA 0x06 ⟨1, 15, 0, 0, 0⟩) {}, 0, ⟨1, 15, 0, 0, 0⟩, 0, by decide +kernel, by decide +kernel, by decide +kernel, by decide +kernel⟩,
   ⟨tCmd (wordA 0x07 ⟨20, 1, 0, 0, 0⟩) {}, 0, ⟨20, 1, 0, 0, 0⟩, 0, by decide +kernel, by decide +kernel, by decide +kernel, by decide +kernel⟩,
   ⟨tCmd (wordA 0x07 ⟨2, 1, 0, 0, 0⟩) { priv := true }, 0, ⟨2, 1, 0, 0, 0⟩, 0, by decide +kernel, by decide +kernel, by decide +kernel, by decide +kernel, by decide +kernel, by decide +kernel⟩,
   ⟨tCmd (wordA 0x08 ⟨1, 2, 3, 0, 0⟩) { priv := true }, 0, ⟨1, 2, 3, 0, 0⟩, 0, by decide +kernel, by decide +kernel, by decide +kernel, by decide +kernel, by decide +kernel, by decide +kernel⟩,
   ⟨tDev, 3, by decide +kernel, by decide +kernel⟩,
   ⟨tCore {} (wordB 0x70 ⟨0, 5⟩), 1024, ⟨0, 5⟩, 0, by decide +kernel, by decide +kernel, by decide +kernel, by decide +kernel⟩,
   ⟨tCore {} (wordB 0x71 ⟨0, 5⟩), 1024, ⟨0, 5⟩, 0, by decide +kernel, by decide +kernel, by decide +kernel, by decide +kernel⟩,
   ⟨tCore {} (wordA 0x72 ⟨0, 0, 0, 0, 0⟩), 1024, ⟨0, 0, 0, 0, 0⟩, 0, by decide +kernel, by decide +kernel, by decide +kernel, by decide +kernel, by decide +kernel, by decide +kernel, by decide +kernel⟩,
   ⟨(tCmd (wordW 0x73 ⟨0, 0x40C⟩) {}).on ((tCmd (wordW 0x73 ⟨0, 0x40C⟩) {}).dev.wr F.ENG_SLOT_CTL_EN 12 1), 0, ⟨0, 0x40C⟩, 0, by decide +kernel, by decide +kernel, by decide +kernel, by decide +kernel, by decide +kernel, by decide +kernel, by decide +kernel, by decide +kernel⟩⟩

/-- States and operands that meet the hypotheses of each clause of TrapEntry. -/
theorem witness_TrapEntry :
    -- entry
    (∃ (d : Dev) (th : Nat) (n : Nat), ((d.thr th).inTrap = false) ∧ (d.flag F.ENG_FN_TRAP_EN (d.thr th).fn = true) ∧ (n = d.rd F.ENG_FN_TRAP_SLOT (d.thr th).fn) ∧ (d.flag F.ENG_SLOT_CTL_EN n = true)) ∧
    -- saved
    (∃ (d : Dev) (th : Nat) (k : Nat), ((d.thr th).inTrap = false) ∧ (d.flag F.ENG_FN_TRAP_EN (d.thr th).fn = true) ∧ (d.flag F.ENG_SLOT_CTL_EN (d.rd F.ENG_FN_TRAP_SLOT (d.thr th).fn) = true) ∧ (k < 7)) :=
  ⟨⟨(tCore {}).dev.wr F.ENG_FN_TRAP_EN 0 1 |>.wr F.ENG_SLOT_CTL_EN 0 1, 1024, 0, by decide +kernel, by decide +kernel, by decide +kernel, by decide +kernel⟩,
   ⟨(tCore {}).dev.wr F.ENG_FN_TRAP_EN 0 1 |>.wr F.ENG_SLOT_CTL_EN 0 1, 1024, 0, by decide +kernel, by decide +kernel, by decide +kernel, by decide +kernel⟩⟩

/-- States and operands that meet the hypotheses of each clause of EngineEndsAndTraps. -/
theorem witness_EngineEndsAndTraps :
    -- TRAP
    (∃ (s : State) (th : Tid) (f : FmtI) (ext : Ext), (s.dev.atInstr th (wordI 0x02 f) ext f.guard.toNat = true) ∧ (extBad (s.dev.thr th) ext = false) ∧ (f.wd = 0 ∧ f.wa = 0) ∧ ((s.dev.thr th).inTrap = false) ∧ (s.dev.flag F.ENG_FN_TRAP_EN (s.dev.thr th).fn = true) ∧ (s.dev.flag F.ENG_SLOT_CTL_EN (s.dev.rd F.ENG_FN_TRAP_SLOT (s.dev.thr th).fn) = true)) ∧
    -- HALT
    (∃ (s : State) (th : Tid) (f : FmtA) (ext : Ext), (s.dev.atInstr th (wordA 0x04 f) ext f.guard.toNat = true) ∧ (s.dev.halted = false) ∧ (extBad (s.dev.thr th) ext = false) ∧ (f.wd = 0 ∧ f.wa = 0 ∧ f.wb = 0 ∧ f.fn = 0) ∧ ((s.dev.thr th).inTrap = false) ∧ ((s.dev.thr th).cmd = true ∧ (s.dev.thr th).noEntry = false)) ∧
    -- HALT (event)
    (∃ (s : State) (th : Tid) (f : FmtA) (ext : Ext), (s.dev.atInstr th (wordA 0x04 f) ext f.guard.toNat = true) ∧ (s.dev.halted = false) ∧ (extBad (s.dev.thr th) ext = false) ∧ (f.wd = 0 ∧ f.wa = 0 ∧ f.wb = 0 ∧ f.fn = 0) ∧ ((s.dev.thr th).inTrap = false) ∧ ((s.dev.thr th).cmd = false)) ∧
    -- ERET
    (∃ (s : State) (th : Tid) (f : FmtA) (ext : Ext), (s.dev.atInstr th (wordA 0x05 f) ext f.guard.toNat = true) ∧ (s.dev.halted = false) ∧ (f.wd = 0 ∧ f.wa = 0 ∧ f.wb = 0 ∧ f.fn = 0) ∧ ((s.dev.thr th).inTrap = true ∧ (s.dev.thr th).priv = true ∧ pcCmd (s.dev.thr th).pc = false) ∧ ((s.dev.thr th).trapEv = none ∧ (s.dev.thr th).noEntry = false ∧ (s.dev.thr th).trapped.isSome = true) ∧ (getBits (TWord.val (s.dev.scrWord (clusterOf th) (saveArea th))) 17 19 = getBits (s.dev.thr th).tpc 17 19) ∧ (pcCmd (s.dev.thr th).tpc = false) ∧ (isCore th = true ∨ (((s.dev.thr th).trapped.map Prod.fst).getD none).isSome = true)) ∧
    -- EXC_FWD
    (∃ (s : State) (th : Tid) (f : FmtA) (ext : Ext), (s.dev.atInstr th (wordA 0x09 f) ext f.guard.toNat = true) ∧ (f.wb = 0 ∧ f.fn = 0) ∧ ((s.dev.thr th).priv = true ∧ pcCmd (s.dev.thr th).pc = false) ∧ ((s.dev.thr th).poisonIn [f.wa.toNat] = none) ∧ ((s.v th f.wa.toNat).toNat % 8 = 0 ∧ (s.v th f.wa.toNat).toNat + 64 ≤ 2 ^ 20) ∧ (isCore th = true ∨ ∀ k < 8, s.dev.gateFail (clusterOf th + 2) (s.dev.classOf th) (s.dev.gateFn th)
        ((s.v th f.wa.toNat).toNat + 8 * k) 8 1 = none) ∧ ((s.dev.excOf (s.dev.thr th).fn).length < clampTo 1 32 (s.dev.rd F.BCP_EXC_CFG_DEPTH) ∧ s.dev.bcp.exc.length < 8192 ∧ s.dev.bcp.swap = none)) ∧
    -- guard off
    (∃ (s : State) (th : Tid) (f : FmtA) (ext : Ext), (s.dev.ready th = true) ∧ (isCore th = false ∧ pcCmd (s.dev.thr th).pc = true) ∧ (s.dev.fetched th (s.dev.thr th).pc = some (wordA 0x10 f, ext.toNat)) ∧ (guardOk (s.dev.thr th) f.guard.toNat = false)) ∧
    -- illegal
    (∃ (s : State) (th : Tid) (f : FmtA) (ext : Ext), (s.dev.atInstr th (wordA 0x10 f) ext f.guard.toNat = true) ∧ (extBad (s.dev.thr th) ext = true ∨ 0x13 < f.fn.toNat)) ∧
    -- privilege
    (∃ (s : State) (th : Tid) (f : FmtA) (ext : Ext), (s.dev.atInstr th (wordA 0x08 f) ext f.guard.toNat = true) ∧ (extBad (s.dev.thr th) ext = false ∧ f.fn = 0) ∧ ((s.dev.thr th).priv = false)) ∧
    -- poison
    (∃ (s : State) (th : Tid) (f : FmtA) (ext : Ext) (n : Nat), (s.dev.atInstr th (wordA 0x1C f) ext f.guard.toNat = true) ∧ (extBad (s.dev.thr th) ext = false ∧ f.fn.toNat ≤ 5 ∧ f.wd.toNat < 8) ∧ ((s.dev.thr th).poisonIn [f.wa.toNat, f.wb.toNat] = some n)) ∧
    -- double
    (∃ (s : State) (th : Tid) (f : FmtA) (ext : Ext), (s.dev.atInstr th (wordA 0x10 f) ext f.guard.toNat = true) ∧ (0x13 < f.fn.toNat) ∧ ((s.dev.thr th).inTrap = true ∨ s.dev.flag F.ENG_FN_TRAP_EN (s.dev.thr th).fn = false)) :=
  ⟨⟨(tCmd (wordI 0x02 ⟨0, 0, 0, 9⟩) {}).on ((tCmd (wordI 0x02 ⟨0, 0, 0, 9⟩) {}).dev.wr F.ENG_FN_TRAP_EN 0 1 |>.wr F.ENG_SLOT_CTL_EN 0 1), 0, ⟨0, 0, 0, 9⟩, 0, by decide +kernel, by decide +kernel, by decide +kernel, by decide +kernel, by decide +kernel, by decide +kernel⟩,
   ⟨tCmd (wordA 0x04 ⟨0, 0, 0, 0, 0⟩) {}, 0, ⟨0, 0, 0, 0, 0⟩, 0, by decide +kernel, by decide +kernel, by decide +kernel, by decide +kernel, by decide +kernel, by decide +kernel⟩,
   ⟨tCore {} (wordA 4 ⟨0, 0, 0, 0, 0⟩), 1024, ⟨0, 0, 0, 0, 0⟩, 0, by decide +kernel, by decide +kernel, by decide +kernel, by decide +kernel, by decide +kernel, by decide +kernel⟩,
   ⟨tCore { priv := true, event := 5, trapped := some (none, 0) } (wordA 5 ⟨0, 0, 0, 0, 0⟩), 1024, ⟨0, 0, 0, 0, 0⟩, 0, by decide +kernel, by decide +kernel, by decide +kernel, by decide +kernel, by decide +kernel, by decide +kernel, by decide +kernel, by decide +kernel⟩,
   ⟨tCore { priv := true } (wordA 9 ⟨1, 0, 0, 0, 0⟩), 1024, ⟨1, 0, 0, 0, 0⟩, 0, by decide +kernel, by decide +kernel, by decide +kernel, by decide +kernel, by decide +kernel, by decide +kernel, by decide +kernel⟩,
   ⟨tCmd (wordA 0x10 ⟨1, 2, 3, 8, 0⟩) {}, 0, ⟨1, 2, 3, 8, 0⟩, 0, by decide +kernel, by decide +kernel, by decide +kernel, by decide +kernel⟩,
   ⟨tCmd (wordA 0x10 ⟨1, 2, 3, 0, 0x14⟩) {}, 0, ⟨1, 2, 3, 0, 0x14⟩, 0, by decide +kernel, by decide +kernel⟩,
   ⟨tCmd (wordA 0x08 ⟨1, 2, 3, 0, 0⟩) {}, 0, ⟨1, 2, 3, 0, 0⟩, 0, by decide +kernel, by decide +kernel, by decide +kernel⟩,
   ⟨tCmd (wordA 0x1C ⟨1, 2, 3, 0, 0⟩) { w := [(2, mkWord 0 16)] }, 0, ⟨1, 2, 3, 0, 0⟩, 0, 2, by decide +kernel, by decide +kernel, by decide +kernel⟩,
   ⟨tCmd (wordA 0x10 ⟨1, 2, 3, 0, 0x14⟩) {}, 0, ⟨1, 2, 3, 0, 0x14⟩, 0, by decide +kernel, by decide +kernel, by decide +kernel⟩⟩

/-- States and operands that meet the hypotheses of each clause of EngineScratchAndDepot. -/
theorem witness_EngineScratchAndDepot :
    -- LD_S
    (∃ (s : State) (th : Tid) (f : FmtI) (ext : Ext), (s.dev.atInstr th (wordI 0x30 f) ext f.guard.toNat = true) ∧ ((s.dev.thr th).poisonIn [f.wa.toNat] = none) ∧ (s.dev.eaOf th f ext % 8 = 0) ∧ (s.dev.scrPass th (s.dev.eaOf th f ext) 1)) ∧
    -- LD_S (poison)
    (∃ (s : State) (th : Tid) (f : FmtI) (ext : Ext), (s.dev.atInstr th (wordI 0x30 f) ext f.guard.toNat = true) ∧ ((s.dev.thr th).poisonIn [f.wa.toNat] = none) ∧ (s.dev.eaOf th f ext % 8 = 0) ∧ (s.dev.scrPass th (s.dev.eaOf th f ext) 1)) ∧
    -- ST_S
    (∃ (s : State) (th : Tid) (f : FmtI) (ext : Ext), (s.dev.atInstr th (wordI 0x31 f) ext f.guard.toNat = true) ∧ ((s.dev.thr th).poisonIn [f.wa.toNat] = none) ∧ (s.dev.eaOf th f ext % 8 = 0) ∧ (s.dev.scrPass th (s.dev.eaOf th f ext) 2)) ∧
    -- LD_D
    (∃ (s : State) (th : Tid) (f : FmtI) (ext : Ext), (s.dev.atInstr th (wordI 0x32 f) ext f.guard.toNat = true) ∧ ((s.dev.thr th).poisonIn [f.wa.toNat] = none) ∧ (s.dev.eaOf th f ext % 8 = 0) ∧ (s.dev.depPass th (s.dev.eaOf th f ext) 1)) ∧
    -- ST_D
    (∃ (s : State) (th : Tid) (f : FmtI) (ext : Ext), (s.dev.atInstr th (wordI 0x33 f) ext f.guard.toNat = true) ∧ ((s.dev.thr th).poisonIn [f.wa.toNat] = none) ∧ (s.dev.eaOf th f ext % 8 = 0) ∧ (s.dev.depPass th (s.dev.eaOf th f ext) 2)) ∧
    -- AMO_S
    (∃ (s : State) (th : Tid) (f : FmtA) (ext : Ext), (s.dev.atInstr th (wordA 0x3A f) ext f.guard.toNat = true) ∧ (extBad (s.dev.thr th) ext = false) ∧ (amoLegal (f.fn.toNat / 16) (f.fn.toNat % 16) false = true) ∧ ((s.dev.thr th).poisonIn (f.wa.toNat :: (if f.fn.toNat / 16 = 7 then [f.wd.toNat] else [])) = none) ∧ ((s.v th f.wa.toNat).toNat % 8 = 0) ∧ (s.dev.scrPass th (s.v th f.wa.toNat).toNat 3)) :=
  ⟨⟨tCmd (wordI 0x30 ⟨1, 0, 0, 4⟩) { priv := true }, 0, ⟨1, 0, 0, 4⟩, 0, by decide +kernel, by decide +kernel, by decide +kernel, by decide +kernel⟩,
   ⟨tCmd (wordI 0x30 ⟨1, 0, 0, 4⟩) { priv := true }, 0, ⟨1, 0, 0, 4⟩, 0, by decide +kernel, by decide +kernel, by decide +kernel, by decide +kernel⟩,
   ⟨tCmd (wordI 0x31 ⟨1, 0, 0, 4⟩) { priv := true }, 0, ⟨1, 0, 0, 4⟩, 0, by decide +kernel, by decide +kernel, by decide +kernel, by decide +kernel⟩,
   ⟨tCmd (wordI 0x32 ⟨1, 0, 0, 4⟩) { priv := true }, 0, ⟨1, 0, 0, 4⟩, 0, by decide +kernel, by decide +kernel, by decide +kernel, by decide +kernel⟩,
   ⟨tCmd (wordI 0x33 ⟨1, 0, 0, 4⟩) { priv := true }, 0, ⟨1, 0, 0, 4⟩, 0, by decide +kernel, by decide +kernel, by decide +kernel, by decide +kernel⟩,
   ⟨tCmd (wordA 0x3A ⟨1, 0, 2, 0, 4⟩) { priv := true }, 0, ⟨1, 0, 2, 0, 4⟩, 0, by decide +kernel, by decide +kernel, by decide +kernel, by decide +kernel, by decide +kernel, by decide +kernel⟩⟩

/-- States and operands that meet the hypotheses of each clause of EngineHostMemory. -/
theorem witness_EngineHostMemory :
    -- LD_H
    (∃ (s : State) (th : Tid) (f : FmtI) (ext : Ext) (e : Dev) (b : Nat) (fn : Nat), (s.dev.atInstr th (wordI 0x34 f) ext f.guard.toNat = true) ∧ ((s.dev.thr th).poisonIn [f.wa.toNat] = none) ∧ (s.dev.eaOf th f ext % 8 = 0) ∧ (s.dev.engAddr th (s.dev.eaOf th f ext) 8 .read 0 (.ldH th) = (e, .ok b, fn)) ∧ (e.halted = false ∧ e.closed fn = false)) ∧
    -- ST_H
    (∃ (s : State) (th : Tid) (f : FmtI) (ext : Ext) (e : Dev) (b : Nat) (fn : Nat), (s.dev.atInstr th (wordI 0x35 f) ext f.guard.toNat = true) ∧ ((s.dev.thr th).poisonIn [f.wa.toNat, f.wd.toNat] = none) ∧ (s.dev.eaOf th f ext % 8 = 0) ∧ (s.dev.engAddr th (s.dev.eaOf th f ext) 8 .write 0 (.stH th (s.dev.eaOf th f ext) (s.v th f.wd.toNat).toNat 8 0) = (e, .ok b, fn)) ∧ (e.halted = false ∧ e.closed fn = false)) ∧
    -- LD_W
    (∃ (s : State) (th : Tid) (f : FmtA) (ext : Ext) (x : Dev) (e : Dev) (b : Nat) (fn : Nat) (h : Nat) (off : Nat) (size : Nat), (s.dev.atInstr th (wordA 0x36 f) ext f.guard.toNat = true) ∧ (extBad (s.dev.thr th) ext = false ∧ f.fn.toNat < 4) ∧ ((s.dev.thr th).poisonIn [f.wa.toNat, f.wb.toNat] = none) ∧ (h = (s.v th f.wa.toNat).toNat % 2 ^ 32 ∧ off = (s.v th f.wb.toNat).toNat % 2 ^ 48 ∧ size = 2 ^ (f.fn.toNat % 4) ∧ x = s.dev.winLook h) ∧ (off % size = 0 ∧ size ≤ 4096 - ((x.winOf h).base + off) % 4096) ∧ (x.winCheck h (localPeer (s.dev.thr th).fn (s.dev.thr th).priv) rLR off size = 0 ∧ x.windowGate (x.winOf h) off size rLR = none) ∧ (x.engAddr th ((x.winOf h).base + off) size .read h (.ldH th) = (e, .ok b, fn)) ∧ (e.halted = false ∧ e.closed fn = false)) ∧
    -- ST_W
    (∃ (s : State) (th : Tid) (f : FmtA) (ext : Ext) (x : Dev) (e : Dev) (b : Nat) (fn : Nat) (h : Nat) (off : Nat) (size : Nat), (s.dev.atInstr th (wordA 0x37 f) ext f.guard.toNat = true) ∧ (extBad (s.dev.thr th) ext = false ∧ f.fn.toNat < 4) ∧ ((s.dev.thr th).poisonIn [f.wa.toNat, f.wb.toNat, f.wd.toNat] = none) ∧ (h = (s.v th f.wa.toNat).toNat % 2 ^ 32 ∧ off = (s.v th f.wb.toNat).toNat % 2 ^ 48 ∧ size = 2 ^ (f.fn.toNat % 4) ∧ x = s.dev.winLook h) ∧ (off % size = 0 ∧ size ≤ 4096 - ((x.winOf h).base + off) % 4096) ∧ (x.winCheck h (localPeer (s.dev.thr th).fn (s.dev.thr th).priv) rLW off size = 0 ∧ x.windowGate (x.winOf h) off size rLW = none) ∧ (x.engAddr th ((x.winOf h).base + off) size .write h (.stH th ((x.winOf h).base + off) ((s.v th f.wd.toNat).toNat % 2 ^ (8 * size)) size h) = (e, .ok b, fn)) ∧ (e.halted = false ∧ e.closed fn = false)) ∧
    -- LD_P (host)
    (∃ (s : State) (th : Tid) (f : FmtI) (ext : Ext), (s.dev.atInstr th (wordI 0x38 f) ext f.guard.toNat = true) ∧ ((s.dev.thr th).priv = true ∧ (s.dev.thr th).poisonIn [f.wa.toNat] = none) ∧ (s.dev.eaOf th f ext % 8 = 0 ∧ regSpace th (s.dev.eaOf th f ext) = false) ∧ (s.dev.gateFail (18 + (s.dev.thr th).fn / 256) (s.dev.classOf th) (s.dev.gateFn th) (s.dev.eaOf th f ext) 8 1 = none) ∧ (s.dev.halted = false ∧ s.dev.closed (s.dev.thr th).fn = false)) ∧
    -- LD_P (space)
    (∃ (s : State) (th : Tid) (f : FmtI) (ext : Ext) (d : Dev) (v : Word), (s.dev.atInstr th (wordI 0x38 f) ext f.guard.toNat = true) ∧ ((s.dev.thr th).priv = true ∧ (s.dev.thr th).poisonIn [f.wa.toNat] = none) ∧ (s.dev.eaOf th f ext % 8 = 0 ∧ regSpace th (s.dev.eaOf th f ext) = true) ∧ (s.dev.gateFail 1 4 none (s.dev.eaOf th f ext % 2 ^ 28) 8 1 = none) ∧ (s.regRead .bcp th f.wd.toNat (s.dev.eaOf th f ext % 2 ^ 28) = (d, some v))) ∧
    -- ST_P (host)
    (∃ (s : State) (th : Tid) (f : FmtI) (ext : Ext), (s.dev.atInstr th (wordI 0x39 f) ext f.guard.toNat = true) ∧ ((s.dev.thr th).priv = true ∧ (s.dev.thr th).poisonIn [f.wa.toNat, f.wd.toNat] = none) ∧ (s.dev.eaOf th f ext % 8 = 0 ∧ regSpace th (s.dev.eaOf th f ext) = false) ∧ (s.dev.gateFail (18 + (s.dev.thr th).fn / 256) (s.dev.classOf th) (s.dev.gateFn th) (s.dev.eaOf th f ext) 8 2 = none)) ∧
    -- ST_P (space)
    (∃ (s : State) (th : Tid) (f : FmtI) (ext : Ext), (s.dev.atInstr th (wordI 0x39 f) ext f.guard.toNat = true) ∧ ((s.dev.thr th).priv = true ∧ (s.dev.thr th).poisonIn [f.wa.toNat, f.wd.toNat] = none) ∧ (s.dev.eaOf th f ext % 8 = 0 ∧ regSpace th (s.dev.eaOf th f ext) = true) ∧ (s.dev.gateFail 1 4 none (s.dev.eaOf th f ext % 2 ^ 28) 8 2 = none)) :=
  ⟨⟨tMem (wordI 0x34 ⟨1, 0, 0, 4⟩) {}, 0, ⟨1, 0, 0, 4⟩, 0, ((tMem (wordI 0x34 ⟨1, 0, 0, 4⟩) {}).dev.engAddr 0 32 8 .read 0 (.ldH 0)).1, 1048608, 0, by decide +kernel, by decide +kernel, by decide +kernel, by decide +kernel, by decide +kernel⟩,
   ⟨tMem (wordI 0x35 ⟨1, 0, 0, 4⟩) {}, 0, ⟨1, 0, 0, 4⟩, 0, ((tMem (wordI 0x35 ⟨1, 0, 0, 4⟩) {}).dev.engAddr 0 32 8 .write 0 (.stH 0 32 0 8 0)).1, 1048608, 0, by decide +kernel, by decide +kernel, by decide +kernel, by decide +kernel, by decide +kernel⟩,
   ⟨tWin (wordA 0x36 ⟨1, 2, 0, 0, 3⟩) { w := [(2, 0x1001#72)] }, 0, ⟨1, 2, 0, 0, 3⟩, 0, (tWin (wordA 0x36 ⟨1, 2, 0, 0, 3⟩) { w := [(2, 0x1001#72)] }).dev.winLook 0x1001, (((tWin (wordA 0x36 ⟨1, 2, 0, 0, 3⟩) { w := [(2, 0x1001#72)] }).dev.winLook 0x1001).engAddr 0 4096 8 .read 0x1001 (.ldH 0)).1, 1052672, 0, 0x1001, 0, 8, by decide +kernel, by decide +kernel, by decide +kernel, by decide +kernel, by decide +kernel, by decide +kernel, by decide +kernel, by decide +kernel⟩,
   ⟨tWin (wordA 0x37 ⟨1, 2, 0, 0, 3⟩) { w := [(2, 0x1001#72)] }, 0, ⟨1, 2, 0, 0, 3⟩, 0, (tWin (wordA 0x37 ⟨1, 2, 0, 0, 3⟩) { w := [(2, 0x1001#72)] }).dev.winLook 0x1001, (((tWin (wordA 0x37 ⟨1, 2, 0, 0, 3⟩) { w := [(2, 0x1001#72)] }).dev.winLook 0x1001).engAddr 0 4096 8 .write 0x1001 (.stH 0 4096 0 8 0x1001)).1, 1052672, 0, 0x1001, 0, 8, by decide +kernel, by decide +kernel, by decide +kernel, by decide +kernel, by decide +kernel, by decide +kernel, by decide +kernel, by decide +kernel⟩,
   ⟨tMem (wordI 0x38 ⟨1, 0, 0, 4⟩) { priv := true }, 0, ⟨1, 0, 0, 4⟩, 0, by decide +kernel, by decide +kernel, by decide +kernel, by decide +kernel, by decide +kernel⟩,
   ⟨tCore { priv := true, w := [(2, 0xFFFFFFFFF0000000#72)] } (wordI 0x38 ⟨1, 2, 0, 0⟩), 1024, ⟨1, 2, 0, 0⟩, 0, ((tCore { priv := true, w := [(2, 0xFFFFFFFFF0000000#72)] } (wordI 0x38 ⟨1, 2, 0, 0⟩)).regRead .bcp 1024 1 0).1, (((tCore { priv := true, w := [(2, 0xFFFFFFFFF0000000#72)] } (wordI 0x38 ⟨1, 2, 0, 0⟩)).regRead .bcp 1024 1 0).2.getD 0), by decide +kernel, by decide +kernel, by decide +kernel, by decide +kernel, by decide +kernel⟩,
   ⟨tMem (wordI 0x39 ⟨1, 0, 0, 4⟩) { priv := true }, 0, ⟨1, 0, 0, 4⟩, 0, by decide +kernel, by decide +kernel, by decide +kernel, by decide +kernel⟩,
   ⟨tCore { priv := true, w := [(2, 0xFFFFFFFFF0000200#72)] } (wordI 0x39 ⟨1, 2, 0, 0⟩), 1024, ⟨1, 2, 0, 0⟩, 0, by decide +kernel, by decide +kernel, by decide +kernel, by decide +kernel⟩⟩

/-- States and operands that meet the hypotheses of each clause of EngineMessages. -/
theorem witness_EngineMessages :
    -- PUT
    (∃ (s : State) (th : Tid) (f : FmtA) (ext : Ext) (e : Dev), (s.dev.atInstr th (wordA 0x40 f) ext f.guard.toNat = true) ∧ (extBad (s.dev.thr th) ext = false ∧ msgBad 0x40 f.fn.toNat f.wa.toNat = false) ∧ ((s.dev.thr th).poisonIn (((s.dev.thr th).msgOp th 0x40 f.fn.toNat f.wd.toNat f.wa.toNat f.wb.toNat).reads f.wa.toNat f.wb.toNat) = none) ∧ (s.dev.halted = false) ∧ (s.dev.issueOp (some th.val) ((s.dev.thr th).msgOp th 0x40 f.fn.toNat f.wd.toNat f.wa.toNat f.wb.toNat) = (e, .taken))) ∧
    -- GET
    (∃ (s : State) (th : Tid) (f : FmtA) (ext : Ext) (e : Dev), (s.dev.atInstr th (wordA 0x41 f) ext f.guard.toNat = true) ∧ (extBad (s.dev.thr th) ext = false ∧ msgBad 0x41 f.fn.toNat f.wa.toNat = false) ∧ ((s.dev.thr th).poisonIn (((s.dev.thr th).msgOp th 0x41 f.fn.toNat f.wd.toNat f.wa.toNat f.wb.toNat).reads f.wa.toNat f.wb.toNat) = none) ∧ (s.dev.halted = false) ∧ (s.dev.issueOp (some th.val) ((s.dev.thr th).msgOp th 0x41 f.fn.toNat f.wd.toNat f.wa.toNat f.wb.toNat) = (e, .taken))) ∧
    -- SEND
    (∃ (s : State) (th : Tid) (f : FmtA) (ext : Ext) (e : Dev), (s.dev.atInstr th (wordA 0x42 f) ext f.guard.toNat = true) ∧ (extBad (s.dev.thr th) ext = false ∧ msgBad 0x42 f.fn.toNat f.wa.toNat = false) ∧ ((s.dev.thr th).poisonIn (((s.dev.thr th).msgOp th 0x42 f.fn.toNat f.wd.toNat f.wa.toNat f.wb.toNat).reads f.wa.toNat f.wb.toNat) = none) ∧ (s.dev.halted = false) ∧ (s.dev.issueOp (some th.val) ((s.dev.thr th).msgOp th 0x42 f.fn.toNat f.wd.toNat f.wa.toNat f.wb.toNat) = (e, .taken))) ∧
    -- UD_SEND
    (∃ (s : State) (th : Tid) (f : FmtA) (ext : Ext) (e : Dev), (s.dev.atInstr th (wordA 0x43 f) ext f.guard.toNat = true) ∧ (extBad (s.dev.thr th) ext = false ∧ msgBad 0x43 f.fn.toNat f.wa.toNat = false) ∧ ((s.dev.thr th).poisonIn (((s.dev.thr th).msgOp th 0x43 f.fn.toNat f.wd.toNat f.wa.toNat f.wb.toNat).reads f.wa.toNat f.wb.toNat) = none) ∧ (s.dev.halted = false) ∧ (s.dev.issueOp (some th.val) ((s.dev.thr th).msgOp th 0x43 f.fn.toNat f.wd.toNat f.wa.toNat f.wb.toNat) = (e, .taken))) ∧
    -- AMO
    (∃ (s : State) (th : Tid) (f : FmtA) (ext : Ext) (e : Dev), (s.dev.atInstr th (wordA 0x44 f) ext f.guard.toNat = true) ∧ (extBad (s.dev.thr th) ext = false ∧ msgBad 0x44 f.fn.toNat f.wa.toNat = false) ∧ ((s.dev.thr th).poisonIn (((s.dev.thr th).msgOp th 0x44 f.fn.toNat f.wd.toNat f.wa.toNat f.wb.toNat).reads f.wa.toNat f.wb.toNat) = none) ∧ (s.dev.halted = false) ∧ (s.dev.issueOp (some th.val) ((s.dev.thr th).msgOp th 0x44 f.fn.toNat f.wd.toNat f.wa.toNat f.wb.toNat) = (e, .taken))) ∧
    -- AMO_F
    (∃ (s : State) (th : Tid) (f : FmtA) (ext : Ext) (e : Dev), (s.dev.atInstr th (wordA 0x45 f) ext f.guard.toNat = true) ∧ (extBad (s.dev.thr th) ext = false ∧ msgBad 0x45 f.fn.toNat f.wa.toNat = false) ∧ ((s.dev.thr th).poisonIn (((s.dev.thr th).msgOp th 0x45 f.fn.toNat f.wd.toNat f.wa.toNat f.wb.toNat).reads f.wa.toNat f.wb.toNat) = none) ∧ (s.dev.halted = false) ∧ (s.dev.issueOp (some th.val) ((s.dev.thr th).msgOp th 0x45 f.fn.toNat f.wd.toNat f.wa.toNat f.wb.toNat) = (e, .taken))) ∧
    -- issue op (taken)
    (∃ (d : Dev) (m : MsgOp), (d.localCheck m = 0 ∧ d.fencing m.scope = false) ∧ (¬(d.opCode m = 2 ∧ m.len = 0)) ∧ (d.slotFree m.fn (d.opCode m == 5) = true) ∧ ((d.opCode m = 3 ∨ d.opCode m = 4) → d.streamRoom (streamKey m.fn m.dev m.dfn) = true) ∧ (d.opCode m = 4 → d.mtc.rdvs.length < 65536)) ∧
    -- issue op (refused)
    (∃ (d : Dev) (m : MsgOp), (d.localCheck m ≠ 0 ∧ d.fencing m.scope = false)) ∧
    -- issue op (fenced)
    (∃ (d : Dev) (m : MsgOp), (d.fencing m.scope = true)) ∧
    -- MT_POST
    (∃ (s : State) (th : Tid) (f : FmtA) (ext : Ext) (r : Recv) (x : Dev), (s.dev.atInstr th (wordA 0x48 f) ext f.guard.toNat = true) ∧ (extBad (s.dev.thr th) ext = false ∧ groupOk f.wa.toNat = true ∧ f.fn = 0 ∧ s.dev.halted = false) ∧ ((s.dev.thr th).poisonIn (insertAsc f.wb.toNat [f.wa.toNat, f.wa.toNat + 1, f.wa.toNat + 2, f.wa.toNat + 3]) = none) ∧ (r = recvOf (s.dev.thr th).fn ((s.dev.thr th).val f.wa.toNat) ((s.dev.thr th).val (f.wa.toNat + 1)) ((s.dev.thr th).val (f.wa.toNat + 2)) ((s.dev.thr th).val (f.wa.toNat + 3)) ((s.dev.thr th).val f.wb.toNat) ∧ x = s.dev.winLook r.win) ∧ (s.dev.postCheck (s.dev.thr th).fn (s.dev.thr th).priv r ((s.dev.thr th).val (f.wa.toNat + 2)) ((s.dev.thr th).val f.wb.toNat) = 0) ∧ (x.mtcBlocked (s.dev.thr th).fn = false)) ∧
    -- MT_PROBE
    (∃ (s : State) (th : Tid) (f : FmtA) (ext : Ext), (s.dev.atInstr th (wordA 0x49 f) ext f.guard.toNat = true) ∧ (extBad (s.dev.thr th) ext = false ∧ groupOk f.wa.toNat = true ∧ f.fn = 0 ∧ s.dev.halted = false) ∧ ((s.dev.thr th).poisonIn (insertAsc f.wb.toNat [f.wa.toNat, f.wa.toNat + 1]) = none) ∧ (s.dev.flag F.MTC_FN_CFG_EN (s.dev.thr th).fn = true ∧ s.dev.mtcBlocked (s.dev.thr th).fn = false)) ∧
    -- MT_CANCEL
    (∃ (s : State) (th : Tid) (f : FmtA) (ext : Ext) (r : Recv), (s.dev.atInstr th (wordA 0x4A f) ext f.guard.toNat = true) ∧ (extBad (s.dev.thr th) ext = false ∧ f.wb = 0 ∧ f.fn = 0 ∧ s.dev.halted = false) ∧ ((s.dev.thr th).poisonIn [f.wa.toNat] = none) ∧ (s.dev.flag F.MTC_FN_CFG_EN (s.dev.thr th).fn = true ∧ s.dev.mtcBlocked (s.dev.thr th).fn = false) ∧ ((s.dev.dom (s.dev.thr th).fn).posted.find? (fun r => r.handle == getBits ((s.dev.thr th).val f.wa.toNat) 0 32) = some r)) ∧
    -- MT_CANCEL (none)
    (∃ (s : State) (th : Tid) (f : FmtA) (ext : Ext), (s.dev.atInstr th (wordA 0x4A f) ext f.guard.toNat = true) ∧ (extBad (s.dev.thr th) ext = false ∧ f.wb = 0 ∧ f.fn = 0 ∧ s.dev.halted = false) ∧ ((s.dev.thr th).poisonIn [f.wa.toNat] = none) ∧ (s.dev.flag F.MTC_FN_CFG_EN (s.dev.thr th).fn = true ∧ s.dev.mtcBlocked (s.dev.thr th).fn = false) ∧ ((s.dev.dom (s.dev.thr th).fn).posted.find? (fun r => r.handle == getBits ((s.dev.thr th).val f.wa.toNat) 0 32) = none)) :=
  ⟨⟨tMsg 0x40 0, 0, ⟨1, 4, 8, 0, 0⟩, 0, ((tMsg 0x40 0).dev.issueOp (some 0) (((tMsg 0x40 0).dev.thr 0).msgOp 0 0x40 0 1 4 8)).1, by decide +kernel, by decide +kernel, by decide +kernel, by decide +kernel, Prod.ext rfl (by decide +kernel)⟩,
   ⟨tMsg 0x41 0, 0, ⟨1, 4, 8, 0, 0⟩, 0, ((tMsg 0x41 0).dev.issueOp (some 0) (((tMsg 0x41 0).dev.thr 0).msgOp 0 0x41 0 1 4 8)).1, by decide +kernel, by decide +kernel, by decide +kernel, by decide +kernel, Prod.ext rfl (by decide +kernel)⟩,
   ⟨tMsg 0x42 0, 0, ⟨1, 4, 8, 0, 0⟩, 0, ((tMsg 0x42 0).dev.issueOp (some 0) (((tMsg 0x42 0).dev.thr 0).msgOp 0 0x42 0 1 4 8)).1, by decide +kernel, by decide +kernel, by decide +kernel, by decide +kernel, Prod.ext rfl (by decide +kernel)⟩,
   ⟨tMsg 0x43 0, 0, ⟨1, 4, 8, 0, 0⟩, 0, ((tMsg 0x43 0).dev.issueOp (some 0) (((tMsg 0x43 0).dev.thr 0).msgOp 0 0x43 0 1 4 8)).1, by decide +kernel, by decide +kernel, by decide +kernel, by decide +kernel, Prod.ext rfl (by decide +kernel)⟩,
   ⟨tMsg 0x44 4, 0, ⟨1, 4, 8, 0, 4⟩, 0, ((tMsg 0x44 4).dev.issueOp (some 0) (((tMsg 0x44 4).dev.thr 0).msgOp 0 0x44 4 1 4 8)).1, by decide +kernel, by decide +kernel, by decide +kernel, by decide +kernel, Prod.ext rfl (by decide +kernel)⟩,
   ⟨tMsg 0x45 4, 0, ⟨1, 4, 8, 0, 4⟩, 0, ((tMsg 0x45 4).dev.issueOp (some 0) (((tMsg 0x45 4).dev.thr 0).msgOp 0 0x45 4 1 4 8)).1, by decide +kernel, by decide +kernel, by decide +kernel, by decide +kernel, Prod.ext rfl (by decide +kernel)⟩,
   ⟨tDev, tPut, by decide +kernel, by decide +kernel, by decide +kernel, by decide +kernel, by decide +kernel⟩,
   ⟨tDev, { tPut with g1 := 0xFFFFFFFFFFFFFFFF }, by decide +kernel⟩,
   ⟨{ tDev with eng := { th := [(0, { st := .stall, stall := .fence 1, active := true })] } }, { tPut with scope := .thread 0 }, by decide +kernel⟩,
   ⟨tMtc 0x48, 0, ⟨1, 4, 8, 0, 0⟩, 0, recvOf 0 0 0 0 0x100100000000 0, (tMtc 0x48).dev.winLook 0x1001, by decide +kernel, by decide +kernel, by decide +kernel, by decide +kernel, by decide +kernel, by decide +kernel⟩,
   ⟨tMtc 0x49, 0, ⟨1, 4, 8, 0, 0⟩, 0, by decide +kernel, by decide +kernel, by decide +kernel, by decide +kernel⟩,
   ⟨tMtcC, 0, ⟨1, 4, 0, 0, 0⟩, 0, tRecv, by decide +kernel, by decide +kernel, by decide +kernel, by decide +kernel, by decide +kernel⟩,
   ⟨tMtc1 0x4A, 0, ⟨1, 4, 0, 0, 0⟩, 0, by decide +kernel, by decide +kernel, by decide +kernel, by decide +kernel, by decide +kernel⟩⟩

/-- States and operands that meet the hypotheses of each clause of EngineCountersAndPitons. -/
theorem witness_EngineCountersAndPitons :
    -- CTR_ADD
    (∃ (s : State) (th : Tid) (f : FmtI) (ext : Ext), (s.dev.atInstr th (wordI 0x50 f) ext f.guard.toNat = true) ∧ (f.wd = 0 ∧ s.dev.ctrOwner ((s.dev.thr th).ctrOf f.wa.toNat) = some (s.dev.thr th).fn) ∧ ((s.dev.thr th).poisonIn [f.wa.toNat] = none)) ∧
    -- CTR_WAIT (reached)
    (∃ (s : State) (th : Tid) (f : FmtA) (ext : Ext), (s.dev.atInstr th (wordA 0x51 f) ext f.guard.toNat = true) ∧ (extBad (s.dev.thr th) ext = false ∧ f.wd = 0 ∧ f.fn = 0 ∧ s.dev.ctrOwner ((s.dev.thr th).ctrOf f.wa.toNat) = some (s.dev.thr th).fn) ∧ ((s.dev.thr th).poisonIn [f.wa.toNat, f.wb.toNat] = none) ∧ (reaches (s.dev.ctrVal ((s.dev.thr th).ctrOf f.wa.toNat)) ((s.v th f.wb.toNat).toNat % 2 ^ 48) = true)) ∧
    -- CTR_WAIT (stall)
    (∃ (s : State) (th : Tid) (f : FmtA) (ext : Ext), (s.dev.atInstr th (wordA 0x51 f) ext f.guard.toNat = true) ∧ (extBad (s.dev.thr th) ext = false ∧ f.wd = 0 ∧ f.fn = 0 ∧ s.dev.ctrOwner ((s.dev.thr th).ctrOf f.wa.toNat) = some (s.dev.thr th).fn) ∧ ((s.dev.thr th).poisonIn [f.wa.toNat, f.wb.toNat] = none) ∧ (reaches (s.dev.ctrVal ((s.dev.thr th).ctrOf f.wa.toNat)) ((s.v th f.wb.toNat).toNat % 2 ^ 48) = false)) ∧
    -- CTR_READ
    (∃ (s : State) (th : Tid) (f : FmtA) (ext : Ext), (s.dev.atInstr th (wordA 0x52 f) ext f.guard.toNat = true) ∧ (extBad (s.dev.thr th) ext = false ∧ f.wb = 0 ∧ f.fn = 0 ∧ s.dev.ctrOwner ((s.dev.thr th).ctrOf f.wa.toNat) = some (s.dev.thr th).fn) ∧ ((s.dev.thr th).poisonIn [f.wa.toNat] = none)) ∧
    -- ctr wake
    (∃ (d : Dev) (n : Nat) (v : Nat) (k : Nat) (th : Nat), (d.eng.th = [(th, { d.thr th with stall := .ctr n k })]) ∧ (reaches (v % 2 ^ 48) k = true)) ∧
    -- DEFER
    (∃ (s : State) (th : Tid) (f : FmtA) (ext : Ext) (nxt : IWord) (nxtExt : Ext) (w : DefWhat) (n : Nat) (thresh : Nat), (s.dev.atInstr th (wordA 0x53 f) ext f.guard.toNat = true ∧ s.dev.halted = false) ∧ (extBad (s.dev.thr th) ext = false ∧ f.fn = 0 ∧ n = (s.dev.thr th).ctrOf f.wa.toNat ∧ thresh = ((s.dev.thr th).val f.wb.toNat).toNat % 2 ^ 48) ∧ (pcCmd (pcNext (s.dev.thr th).pc) = true ∧ pcIndex (pcNext (s.dev.thr th).pc) ≤ (s.dev.thr th).slots.length ∧ isCore th = false) ∧ (s.dev.fetched th (pcNext (s.dev.thr th).pc) = some (nxt.toNat, nxtExt.toNat)) ∧ (s.dev.deferOf th nxt.toNat nxtExt = .what w) ∧ (s.dev.ctrOwner n = some (s.dev.thr th).fn ∧ (s.dev.thr th).poisonIn [f.wa.toNat, f.wb.toNat] = none) ∧ (reaches (s.dev.ctrVal n) thresh = false ∧ s.dev.defRoom = true)) ∧
    -- DEFER (now)
    (∃ (s : State) (th : Tid) (f : FmtA) (ext : Ext) (nxt : IWord) (nxtExt : Ext) (w : DefWhat) (n : Nat) (thresh : Nat), (s.dev.atInstr th (wordA 0x53 f) ext f.guard.toNat = true ∧ s.dev.halted = false) ∧ (extBad (s.dev.thr th) ext = false ∧ f.fn = 0 ∧ n = (s.dev.thr th).ctrOf f.wa.toNat ∧ thresh = ((s.dev.thr th).val f.wb.toNat).toNat % 2 ^ 48) ∧ (pcCmd (pcNext (s.dev.thr th).pc) = true ∧ pcIndex (pcNext (s.dev.thr th).pc) ≤ (s.dev.thr th).slots.length ∧ isCore th = false) ∧ (s.dev.fetched th (pcNext (s.dev.thr th).pc) = some (nxt.toNat, nxtExt.toNat)) ∧ (s.dev.deferOf th nxt.toNat nxtExt = .what w) ∧ (s.dev.ctrOwner n = some (s.dev.thr th).fn ∧ (s.dev.thr th).poisonIn [f.wa.toNat, f.wb.toNat] = none) ∧ (reaches (s.dev.ctrVal n) thresh = true)) ∧
    -- PIT_ACQ (free)
    (∃ (s : State) (th : Tid) (f : FmtA) (ext : Ext) (n : Nat), (s.dev.atInstr th (wordA 0x68 f) ext f.guard.toNat = true) ∧ (extBad (s.dev.thr th) ext = false ∧ f.wb = 0 ∧ f.fn.toNat < 8 ∧ (s.dev.thr th).poisonIn [f.wa.toNat] = none) ∧ (n = (s.dev.thr th).pitOf f.wa.toNat ∧ s.dev.pitRight (s.dev.pitWho th) (n / 64) false = true) ∧ ((s.dev.piton n).holder = none)) ∧
    -- PIT_ACQ (waits)
    (∃ (s : State) (th : Tid) (f : FmtA) (ext : Ext) (n : Nat) (o : Holder × Nat), (s.dev.atInstr th (wordA 0x68 f) ext f.guard.toNat = true) ∧ (extBad (s.dev.thr th) ext = false ∧ f.wb = 0 ∧ f.fn.toNat < 8 ∧ (s.dev.thr th).poisonIn [f.wa.toNat] = none) ∧ (n = (s.dev.thr th).pitOf f.wa.toNat ∧ s.dev.pitRight (s.dev.pitWho th) (n / 64) false = true) ∧ ((s.dev.piton n).holder = some o ∧ sameHolder o.1 (s.dev.pitWho th) = false)) ∧
    -- PIT_ACQ (rights)
    (∃ (s : State) (th : Tid) (f : FmtA) (ext : Ext), (s.dev.atInstr th (wordA 0x68 f) ext f.guard.toNat = true) ∧ (extBad (s.dev.thr th) ext = false ∧ f.wb = 0 ∧ f.fn.toNat < 8 ∧ (s.dev.thr th).poisonIn [f.wa.toNat] = none) ∧ (s.dev.pitRight (s.dev.pitWho th) ((s.dev.thr th).pitOf f.wa.toNat / 64) false = false)) ∧
    -- PIT_TRY
    (∃ (s : State) (th : Tid) (f : FmtA) (ext : Ext) (n : Nat), (s.dev.atInstr th (wordA 0x69 f) ext f.guard.toNat = true) ∧ (extBad (s.dev.thr th) ext = false ∧ f.wb = 0 ∧ f.fn.toNat < 8 ∧ (s.dev.thr th).poisonIn [f.wa.toNat] = none) ∧ (n = (s.dev.thr th).pitOf f.wa.toNat ∧ s.dev.pitRight (s.dev.pitWho th) (n / 64) false = true)) ∧
    -- PIT_REL
    (∃ (s : State) (th : Tid) (f : FmtA) (ext : Ext) (n : Nat) (o : Holder × Nat), (s.dev.atInstr th (wordA 0x6A f) ext f.guard.toNat = true) ∧ (extBad (s.dev.thr th) ext = false ∧ f.wb = 0 ∧ f.fn = 0 ∧ (s.dev.thr th).poisonIn [f.wa.toNat] = none) ∧ (n = (s.dev.thr th).pitOf f.wa.toNat ∧ (s.dev.piton n).holder = some o) ∧ (s.dev.pitRight (s.dev.pitWho th) (n / 64) (!sameHolder o.1 (s.dev.pitWho th)) = true)) :=
  ⟨⟨tCtr (wordI 0x50 ⟨0, 1, 0, 4⟩) 0 { w := [(1, 5)] }, 0, ⟨0, 1, 0, 4⟩, 0, by decide +kernel, by decide +kernel, by decide +kernel⟩,
   ⟨tCtr (wordA 0x51 ⟨0, 1, 1, 0, 0⟩) 0 { w := [(1, 5)] }, 0, ⟨0, 1, 1, 0, 0⟩, 0, by decide +kernel, by decide +kernel, by decide +kernel, by decide +kernel⟩,
   ⟨tCtr (wordA 0x51 ⟨0, 1, 2, 0, 0⟩) 0 { w := [(1, 5), (2, 8)] }, 0, ⟨0, 1, 2, 0, 0⟩, 0, by decide +kernel, by decide +kernel, by decide +kernel, by decide +kernel⟩,
   ⟨tCtr (wordA 0x52 ⟨2, 1, 0, 0, 0⟩) 0 { w := [(1, 5)] }, 0, ⟨2, 1, 0, 0, 0⟩, 0, by decide +kernel, by decide +kernel, by decide +kernel⟩,
   ⟨{ tDev with eng := { th := [(3, { st := .stall, stall := .ctr 5 2, active := true })] } }, 5, 2, 2, 3, by decide +kernel, by decide +kernel⟩,
   ⟨tCtr (wordA 0x53 ⟨3, 1, 2, 0, 0⟩) (wordI 0x50 ⟨0, 1, 0, 4⟩) { w := [(1, 5), (2, 9)] }, 0, ⟨3, 1, 2, 0, 0⟩, 0, BitVec.ofNat 36 (wordI 0x50 ⟨0, 1, 0, 4⟩), 0, .ctrAdd 5 4, 5, 9, by decide +kernel, by decide +kernel, by decide +kernel, by decide +kernel, rfl, by decide +kernel, by decide +kernel⟩,
   ⟨tCtr (wordA 0x53 ⟨3, 1, 2, 0, 0⟩) (wordI 0x50 ⟨0, 1, 0, 4⟩) { w := [(1, 5), (2, 7)] }, 0, ⟨3, 1, 2, 0, 0⟩, 0, BitVec.ofNat 36 (wordI 0x50 ⟨0, 1, 0, 4⟩), 0, .ctrAdd 5 4, 5, 7, by decide +kernel, by decide +kernel, by decide +kernel, by decide +kernel, rfl, by decide +kernel, by decide +kernel⟩,
   ⟨tCtr (wordA 0x68 ⟨3, 1, 0, 0, 2⟩) 0 { w := [(1, 5)] }, 0, ⟨3, 1, 0, 0, 2⟩, 0, 5, by decide +kernel, by decide +kernel, by decide +kernel, by decide +kernel⟩,
   ⟨tPit (wordA 0x68 ⟨3, 1, 0, 0, 2⟩) (.host 0), 0, ⟨3, 1, 0, 0, 2⟩, 0, 5, (.host 0, 0), by decide +kernel, by decide +kernel, by decide +kernel, by decide +kernel⟩,
   ⟨tCmd (wordA 0x68 ⟨3, 1, 0, 0, 2⟩) {}, 0, ⟨3, 1, 0, 0, 2⟩, 0, by decide +kernel, by decide +kernel, by decide +kernel⟩,
   ⟨tCtr (wordA 0x69 ⟨3, 1, 0, 0, 2⟩) 0 { w := [(1, 5)] }, 0, ⟨3, 1, 0, 0, 2⟩, 0, 5, by decide +kernel, by decide +kernel, by decide +kernel⟩,
   ⟨tPit (wordA 0x6A ⟨3, 1, 0, 0, 0⟩) (.thread 0 0), 0, ⟨3, 1, 0, 0, 0⟩, 0, 5, (.thread 0 0, 0), by decide +kernel, by decide +kernel, by decide +kernel, by decide +kernel⟩⟩

/-- States and operands that meet the hypotheses of each clause of EngineCollectives. -/
theorem witness_EngineCollectives :
    -- COL_STEP
    (∃ (s : State) (th : Tid) (f : FmtA) (ext : Ext) (e : Dev) (k : Nat), (s.dev.atInstr th (wordA 0x58 f) ext f.guard.toNat = true ∧ s.dev.halted = false) ∧ (extBad (s.dev.thr th) ext = false ∧ f.fn = 0 ∧ (s.dev.thr th).poisonIn [f.wa.toNat, f.wb.toNat] = none) ∧ (s.dev.fencing ((s.dev.thr th).scope th) = false) ∧ (s.dev.colStep (some th.val) ((s.dev.thr th).scope th) (s.dev.thr th).fn (s.dev.thr th).priv ((s.dev.thr th).val f.wa.toNat) ((s.dev.thr th).val f.wb.toNat) = (e, 0, some k))) ∧
    -- COL_STEP (refused)
    (∃ (s : State) (th : Tid) (f : FmtA) (ext : Ext) (e : Dev) (st : Nat), (s.dev.atInstr th (wordA 0x58 f) ext f.guard.toNat = true ∧ s.dev.halted = false) ∧ (extBad (s.dev.thr th) ext = false ∧ f.fn = 0 ∧ (s.dev.thr th).poisonIn [f.wa.toNat, f.wb.toNat] = none) ∧ (s.dev.fencing ((s.dev.thr th).scope th) = false) ∧ (s.dev.colStep (some th.val) ((s.dev.thr th).scope th) (s.dev.thr th).fn (s.dev.thr th).priv ((s.dev.thr th).val f.wa.toNat) ((s.dev.thr th).val f.wb.toNat) = (e, st, none))) ∧
    -- COL_WAIT (none)
    (∃ (s : State) (th : Tid) (f : FmtA) (ext : Ext), (s.dev.atInstr th (wordA 0x59 f) ext f.guard.toNat = true ∧ s.dev.halted = false) ∧ (extBad (s.dev.thr th) ext = false ∧ f.wa = 0 ∧ f.wb = 0 ∧ f.fn = 0) ∧ ((s.dev.thr th).lastCol = none)) ∧
    -- COL_WAIT (closed)
    (∃ (s : State) (th : Tid) (f : FmtA) (ext : Ext) (n : Nat) (e : Nat) (st : Nat), (s.dev.atInstr th (wordA 0x59 f) ext f.guard.toNat = true ∧ s.dev.halted = false) ∧ (extBad (s.dev.thr th) ext = false ∧ f.wa = 0 ∧ f.wb = 0 ∧ f.fn = 0) ∧ ((s.dev.thr th).lastCol = some (n, e, some st))) ∧
    -- COL_WAIT (open)
    (∃ (s : State) (th : Tid) (f : FmtA) (ext : Ext) (n : Nat) (e : Nat), (s.dev.atInstr th (wordA 0x59 f) ext f.guard.toNat = true ∧ s.dev.halted = false) ∧ (extBad (s.dev.thr th) ext = false ∧ f.wa = 0 ∧ f.wb = 0 ∧ f.fn = 0) ∧ ((s.dev.thr th).lastCol = some (n, e, none))) ∧
    -- COL_RED
    (∃ (s : State) (th : Tid) (f : FmtA) (ext : Ext), (s.dev.atInstr th (wordA 0x5A f) ext f.guard.toNat = true) ∧ (extBad (s.dev.thr th) ext = false ∧ opAllowed (f.fn.toNat / 16) (f.fn.toNat % 16) = true ∧ f.fn.toNat % 16 ≤ 12)) ∧
    -- COL_CTX_CREATE
    (∃ (s : State) (th : Tid) (f : FmtA) (ext : Ext) (a : Nat) (nk : Nat) (e : Dev) (st : Nat) (k : Option Nat), (s.dev.atInstr th (wordA 0x5B f) ext f.guard.toNat = true ∧ s.dev.halted = false) ∧ (extBad (s.dev.thr th) ext = false ∧ f.fn = 0 ∧ f.wb = 0 ∧ (s.dev.thr th).poisonIn [f.wa.toNat] = none) ∧ (a = (s.v th f.wa.toNat).toNat ∧ a % 8 = 0) ∧ (nk = min 16 (getBits (TWord.val (s.dev.scrWord (clusterOf th) a)) 40 5) ∧ ∀ j, j < 5 + nk → s.dev.scrPass th (a + 8 * j) 1) ∧ (s.dev.colCreate (s.dev.thr th).fn (s.dev.thr th).priv (s.dev.colWords th a (5 + nk)) = (e, st, k))) ∧
    -- COL_CTX_DESTROY
    (∃ (s : State) (th : Tid) (f : FmtA) (ext : Ext) (a : Nat) (n : Nat), (s.dev.atInstr th (wordA 0x5B f) ext f.guard.toNat = true ∧ s.dev.halted = false) ∧ (extBad (s.dev.thr th) ext = false ∧ f.fn = 1 ∧ f.wb = 0 ∧ (s.dev.thr th).poisonIn [f.wa.toNat] = none) ∧ (a = (s.v th f.wa.toNat).toNat ∧ a % 8 = 0 ∧ n = getBits (TWord.val (s.dev.scrWord (clusterOf th) a)) 0 12) ∧ (s.dev.scrPass th a 1 ∧ isPoison (s.dev.scrWord (clusterOf th) a) = false) ∧ (s.dev.cSt n ≠ cFree ∧ s.dev.cSt n ≠ cDraining ∧ s.dev.cFn n = (s.dev.thr th).fn)) :=
  ⟨⟨tCol (wordA 0x58 ⟨3, 1, 2, 0, 0⟩) { w := [(1, 5)] }, 0, ⟨3, 1, 2, 0, 0⟩, 0, ((tCol (wordA 0x58 ⟨3, 1, 2, 0, 0⟩) { w := [(1, 5)] }).dev.colStep (some 0) (.queue 0) 0 false 5 0).1, 0, by decide +kernel, by decide +kernel, by decide +kernel, by decide +kernel⟩,
   ⟨tCmd (wordA 0x58 ⟨3, 1, 2, 0, 0⟩) { w := [(1, 5)] }, 0, ⟨3, 1, 2, 0, 0⟩, 0, ((tCmd (wordA 0x58 ⟨3, 1, 2, 0, 0⟩) { w := [(1, 5)] }).dev.colStep (some 0) (.queue 0) 0 false 5 0).1, Status.COL_NO_CONTEXT, by decide +kernel, by decide +kernel, by decide +kernel, by decide +kernel⟩,
   ⟨tCmd (wordA 0x59 ⟨3, 0, 0, 0, 0⟩) {}, 0, ⟨3, 0, 0, 0, 0⟩, 0, by decide +kernel, by decide +kernel, by decide +kernel⟩,
   ⟨tCmd (wordA 0x59 ⟨3, 0, 0, 0, 0⟩) { lastCol := some (1, 2, some 3) }, 0, ⟨3, 0, 0, 0, 0⟩, 0, 1, 2, 3, by decide +kernel, by decide +kernel, by decide +kernel⟩,
   ⟨tCmd (wordA 0x59 ⟨3, 0, 0, 0, 0⟩) { lastCol := some (1, 2, none) }, 0, ⟨3, 0, 0, 0, 0⟩, 0, 1, 2, by decide +kernel, by decide +kernel, by decide +kernel⟩,
   ⟨tCmd (wordA 0x5A ⟨3, 1, 2, 0, 4⟩) {}, 0, ⟨3, 1, 2, 0, 4⟩, 0, by decide +kernel, by decide +kernel⟩,
   ⟨tColNew, 0, ⟨3, 1, 0, 0, 0⟩, 0, 0, 0, (tColNew.dev.colCreate 0 true (tColNew.dev.colWords 0 0 5)).1, 0, some 0, by decide +kernel, by decide +kernel, by decide +kernel, by decide +kernel, by decide +kernel⟩,
   ⟨tCol (wordA 0x5B ⟨3, 0, 0, 0, 1⟩) { priv := true }, 0, ⟨3, 0, 0, 0, 1⟩, 0, 0, 5, by decide +kernel, by decide +kernel, by decide +kernel, by decide +kernel, by decide +kernel⟩⟩

/-- States and operands that meet the hypotheses of each clause of EngineFences. -/
theorem witness_EngineFences :
    -- FENCE_LOCAL
    (∃ (s : State) (th : Tid) (f : FmtA) (ext : Ext), (s.dev.atInstr th (wordA 0x60 f) ext f.guard.toNat = true ∧ s.dev.halted = false) ∧ (extBad (s.dev.thr th) ext = false ∧ bareA f = false) ∧ ((s.dev.stall th (.fence 0)).scopeMem ((s.dev.thr th).scope th) th = false)) ∧
    -- FENCE_LOCAL (stall)
    (∃ (s : State) (th : Tid) (f : FmtA) (ext : Ext), (s.dev.atInstr th (wordA 0x60 f) ext f.guard.toNat = true ∧ s.dev.halted = false) ∧ (extBad (s.dev.thr th) ext = false ∧ bareA f = false) ∧ ((s.dev.stall th (.fence 0)).scopeMem ((s.dev.thr th).scope th) th = true)) ∧
    -- FENCE_REMOTE
    (∃ (s : State) (th : Tid) (f : FmtA) (ext : Ext), (s.dev.atInstr th (wordA 0x61 f) ext f.guard.toNat = true ∧ s.dev.halted = false) ∧ (extBad (s.dev.thr th) ext = false ∧ bareA f = false) ∧ (s.dev.scopeBusy ((s.dev.thr th).scope th) = false)) ∧
    -- FENCE_REMOTE (stall)
    (∃ (s : State) (th : Tid) (f : FmtA) (ext : Ext), (s.dev.atInstr th (wordA 0x61 f) ext f.guard.toNat = true ∧ s.dev.halted = false) ∧ (extBad (s.dev.thr th) ext = false ∧ bareA f = false) ∧ (s.dev.scopeBusy ((s.dev.thr th).scope th) = true)) ∧
    -- FENCE_DURABLE
    (∃ (s : State) (th : Tid) (f : FmtA) (ext : Ext), (s.dev.atInstr th (wordA 0x62 f) ext f.guard.toNat = true ∧ s.dev.halted = false) ∧ (extBad (s.dev.thr th) ext = false ∧ bareA f = false) ∧ (s.dev.scopeBusy ((s.dev.thr th).scope th) = false)) ∧
    -- FENCE_DURABLE (stall)
    (∃ (s : State) (th : Tid) (f : FmtA) (ext : Ext), (s.dev.atInstr th (wordA 0x62 f) ext f.guard.toNat = true ∧ s.dev.halted = false) ∧ (extBad (s.dev.thr th) ext = false ∧ bareA f = false) ∧ (s.dev.scopeBusy ((s.dev.thr th).scope th) = true)) :=
  ⟨⟨tCmd (wordA 0x60 ⟨0, 0, 0, 0, 0⟩) {}, 0, ⟨0, 0, 0, 0, 0⟩, 0, by decide +kernel, by decide +kernel, by decide +kernel⟩,
   ⟨tScope 0x60, 0, ⟨0, 0, 0, 0, 0⟩, 0, by decide +kernel, by decide +kernel, by decide +kernel⟩,
   ⟨tCmd (wordA 0x61 ⟨0, 0, 0, 0, 0⟩) {}, 0, ⟨0, 0, 0, 0, 0⟩, 0, by decide +kernel, by decide +kernel, by decide +kernel⟩,
   ⟨tScope 0x61, 0, ⟨0, 0, 0, 0, 0⟩, 0, by decide +kernel, by decide +kernel, by decide +kernel⟩,
   ⟨tCmd (wordA 0x62 ⟨0, 0, 0, 0, 0⟩) {}, 0, ⟨0, 0, 0, 0, 0⟩, 0, by decide +kernel, by decide +kernel, by decide +kernel⟩,
   ⟨tScope 0x62, 0, ⟨0, 0, 0, 0, 0⟩, 0, by decide +kernel, by decide +kernel, by decide +kernel⟩⟩

/-- States and operands that meet the hypotheses of each clause of EngineEventsAndTimers. -/
theorem witness_EngineEventsAndTimers :
    -- TIMER_EXPIRE
    (∃ (s : State) (th : Tid), ((s.dev.thr th).timer ≠ 0 ∧ s.dev.halted = false)) ∧
    -- EVENT_START
    (∃ (s : State) (th : Tid) (e : Event) (l : List Event), ((s.dev.thr th).st = .wait ∧ (s.dev.thr th).active = false ∧ s.dev.halted = false ∧ s.dev.gated (clusterOf th) = false) ∧ (s.dev.pendEv (clusterOf th) = e :: l ∧ s.dev.eng.late = []) ∧ (e.kind ≠ 5 ∧ s.dev.flag F.ENG_SLOT_CTL_EN e.slot = true)) ∧
    -- IMEM_FILL_DONE
    (∃ (s : State) (th : Tid) (v : Nat) (tag : Nat) (slot : Nat) (ver : Nat) (line : Nat) (d : Dev) (r : HostRd), (s.dev.findRead (.imem th) = some tag ∧ (s.dev.thr th).stall = .imem slot ver line none) ∧ (s.dev.takeRead tag 72 (.ok v false) = (d, some r)) ∧ (72 ≤ 4096 - (s.dev.imgBase slot ver + 72 * line) % 4096)) ∧
    -- ahead done
    (∃ (d : Dev) (e : Dev) (c : Nat) (tag : Nat) (cpl : Cpl) (r : HostRd), (d.takeRead tag 72 cpl = (e, some r) ∧ e.gated c = false)) ∧
    -- line ahead
    (∃ (d : Dev) (e : Dev) (th : Nat) (slot : Nat) (ver : Nat) (line : Nat) (r : XReq), (e = (d.pick 2).2 ∧ r = e.slotReq th slot (e.linePart slot ver line 0).1)) ∧
    -- line got (ahead)
    (∃ (d : Dev) (th : Nat) (slot : Nat) (ver : Nat) (line : Nat) (a : Nat) (l : ILine), ((d.linePart slot ver line 0).2 = 72 ∧ (d.stall th (.imem slot ver line none)).aheadFor (clusterOf th) slot ver line a = some l)) ∧
    -- THR_RESTART
    (∃ (s : State) (th : Eid), ((s.dev.thr th).st = .stopped)) :=
  ⟨⟨tCmd 0 { timer := 5 }, 0, by decide +kernel⟩,
   ⟨tEv 5, 0, tEvent, [], by decide +kernel, by decide +kernel, by decide +kernel⟩,
   ⟨tFill, 0, 7, 9, 1, 0, 0, (tFill.dev.takeRead 9 72 (.ok 7 false)).1, { fn := 0, addr := 0, why := .imem 0, at_ := 0 }, by decide +kernel, by decide +kernel, by decide +kernel⟩,
   ⟨tFill.dev, _, 0, 9, .ok 7 false, { fn := 0, addr := 0, why := .imem 0, at_ := 0 }, ⟨rfl, by decide +kernel⟩⟩,
   ⟨tFill.dev, _, 0, 1, 0, 1, _, ⟨rfl, rfl⟩⟩,
   ⟨{ tFill.dev with eng.ahead := [(0, { line := ⟨1, 0, 0, 7⟩, addr := 0x9000 })] }, 0, 1, 0, 0, 0x9000, ⟨1, 0, 0, 7⟩, by decide +kernel⟩,
   ⟨{ dev := { tDev with eng := { th := [(0, { st := .stopped })] } } }, 0, by decide +kernel⟩⟩

/-- States and operands that meet the hypotheses of each clause of DoorbellsAndPushes. -/
theorem witness_DoorbellsAndPushes :
    -- DOORBELL
    (∃ (s : State) (a : Bar2) (q : Nat) (size : Nat) (value : Word), (s.dev.bar2 a.fn a.off.toNat = some (q, 0)) ∧ (s.dev.halted = false ∧ (size = 4 ∨ (size = 8 ∧ getBits value 32 32 = 0)) ∧ qAccepts (s.dev.qst q) = true) ∧ (seqSub (getBits value 0 32) (s.dev.qProd q) ≠ 0 ∧ seqSub (getBits value 0 32) (s.dev.qProd q) < 2 ^ 31) ∧ (seqSub (getBits value 0 32) (s.dev.qComp q) ≤ s.dev.qSize q)) ∧
    -- DOORBELL (stale)
    (∃ (s : State) (a : Bar2) (q : Nat) (size : Nat) (value : Word), (s.dev.bar2 a.fn a.off.toNat = some (q, 0)) ∧ (s.dev.halted = false ∧ (size = 4 ∨ (size = 8 ∧ getBits value 32 32 = 0)) ∧ qAccepts (s.dev.qst q) = true) ∧ (2 ^ 31 ≤ seqSub (getBits value 0 32) (s.dev.qProd q))) ∧
    -- DOORBELL (overrun)
    (∃ (s : State) (a : Bar2) (q : Nat) (size : Nat) (value : Word), (s.dev.bar2 a.fn a.off.toNat = some (q, 0)) ∧ (s.dev.halted = false ∧ (size = 4 ∨ (size = 8 ∧ getBits value 32 32 = 0)) ∧ qAccepts (s.dev.qst q) = true) ∧ (seqSub (getBits value 0 32) (s.dev.qProd q) ≠ 0 ∧ seqSub (getBits value 0 32) (s.dev.qProd q) < 2 ^ 31) ∧ (s.dev.qSize q < seqSub (getBits value 0 32) (s.dev.qComp q))) ∧
    -- DOORBELL (ignored)
    (∃ (s : State) (a : Bar2) (q : Nat) (size : Nat) (value : Word), (s.dev.bar2 a.fn a.off.toNat = some (q, 0)) ∧ (s.dev.halted = false ∧ (size = 4 ∨ (size = 8 ∧ getBits value 32 32 = 0)) ∧ qAccepts (s.dev.qst q) = false)) ∧
    -- DOORBELL (read)
    (∃ (s : State) (a : Bar2) (q : Nat) (size : Nat), (s.dev.bar2 a.fn a.off.toNat = some (q, 0) ∧ (size = 4 ∨ size = 8)) ∧ (s.dev.dark = false)) ∧
    -- DOORBELL (read zero)
    (∃ (s : State) (a : Bar2) (q : Nat) (o : Nat) (size : Nat), (s.dev.bar2 a.fn a.off.toNat = none ∨ (s.dev.bar2 a.fn a.off.toNat = some (q, o) ∧ ¬ (o = 0 ∧ (size = 4 ∨ size = 8)))) ∧ (s.dev.dark = false)) ∧
    -- DOORBELL (reserved)
    (∃ (s : State) (a : Bar2) (q : Nat) (o : Nat), (s.dev.bar2 a.fn a.off.toNat = none ∨ (s.dev.bar2 a.fn a.off.toNat = some (q, o) ∧ ((8 ≤ o ∧ o < 0x80) ∨ 0xC0 ≤ o))) ∧ (s.dev.halted = false)) ∧
    -- PUSH_WRITE (part)
    (∃ (s : State) (a : Bar2) (q : Nat) (mask : BitVec 64) (m : Nat) (v : Nat) (t : Nat), (s.dev.bar2 a.fn a.off.toNat = some (q, 0x80)) ∧ (s.dev.halted = false ∧ qAccepts (s.dev.qst q) = true ∧ mask ≠ 0) ∧ (((s.dev.queue q).asm).getD (0, 0, s.dev.ps) = (m, v, t) ∧ m ||| mask.toNat ≠ 2 ^ 64 - 1)) ∧
    -- PUSH_WRITE (whole)
    (∃ (s : State) (a : Bar2) (q : Nat) (mask : BitVec 64) (m : Nat) (v : Nat) (t : Nat), (s.dev.bar2 a.fn a.off.toNat = some (q, 0x80)) ∧ (s.dev.halted = false ∧ qAccepts (s.dev.qst q) = true ∧ mask ≠ 0) ∧ (((s.dev.queue q).asm).getD (0, 0, s.dev.ps) = (m, v, t) ∧ m ||| mask.toNat = 2 ^ 64 - 1)) ∧
    -- push use (kept)
    (∃ (d : Dev) (q : Nat) (mask : Nat) (data : Nat), (mask = 2 ^ 64 - 1) ∧ (bitsOf data 0 32 = d.qProd q ∧ (d.queue q).push = none ∧ d.wq.cache.length < 16384) ∧ (seqSub (bitsOf data 0 32 + 1) (d.qComp q) ≤ d.qSize q)) ∧
    -- PUSH_TIMEOUT
    (∃ (s : State) (q : Qid) (m : Nat) (v : Nat) (t : Nat), (s.dev.halted = false ∧ (s.dev.queue q).asm = some (m, v, t) ∧ qAccepts (s.dev.qst q) = true)) :=
  ⟨⟨tQ 2, ⟨0, 0x300⟩, 3, 4, 7, by decide +kernel, by decide +kernel, by decide +kernel, by decide +kernel⟩,
   ⟨tQ 2, ⟨0, 0x300⟩, 3, 4, 4, by decide +kernel, by decide +kernel, by decide +kernel⟩,
   ⟨tQ 2, ⟨0, 0x300⟩, 3, 4, 68, by decide +kernel, by decide +kernel, by decide +kernel, by decide +kernel⟩,
   ⟨tQ 0, ⟨0, 0x300⟩, 3, 4, 68, by decide +kernel, by decide +kernel⟩,
   ⟨tQ 2, ⟨0, 0x300⟩, 3, 8, by decide +kernel, by decide +kernel⟩,
   ⟨tQ 2, ⟨0, 0x308⟩, 3, 8, 8, by decide +kernel, by decide +kernel⟩,
   ⟨tQ 2, ⟨0, 0x308⟩, 3, 8, by decide +kernel, by decide +kernel⟩,
   ⟨tQ 2, ⟨0, 0x380⟩, 3, 15, 0, 0, 0, by decide +kernel, by decide +kernel, by decide +kernel⟩,
   ⟨tQ 2, ⟨0, 0x380⟩, 3, 0xFFFFFFFFFFFFFFFF, 0, 0, 0, by decide +kernel, by decide +kernel, by decide +kernel⟩,
   ⟨tDR (tQl 2), 3, 0xFFFFFFFFFFFFFFFF, 5, by decide +kernel, by decide +kernel, by decide +kernel⟩,
   ⟨{ dev := (tDR (tQl 2)).updQueue 3 (fun x => { x with asm := some (15, 5, 0) }) }, 3, 15, 5, 0, by decide +kernel⟩⟩

/-- States and operands that meet the hypotheses of each clause of QueueCommands. -/
theorem witness_QueueCommands :
    -- WQ_ENABLE
    (∃ (s : State) (q : Qid), (s.dev.halted = false ∧ s.dev.qst q = qsOff ∧ s.dev.qValid q = true)) ∧
    -- WQ_ENABLE (cfg)
    (∃ (s : State) (q : Qid), (s.dev.halted = false ∧ s.dev.qst q = qsOff ∧ s.dev.qValid q = false)) ∧
    -- WQ_ENABLE (latched)
    (∃ (s : State) (q : Qid), (s.dev.halted = false ∧ s.dev.qst q = qsDraining)) ∧
    -- WQ_ENABLE (refused)
    (∃ (s : State) (q : Qid), (s.dev.halted = false ∧ s.dev.qst q ≠ qsOff ∧ s.dev.qst q ≠ qsDraining)) ∧
    -- WQ_DISABLE
    (∃ (s : State) (q : Qid), (s.dev.halted = false ∧ (s.dev.qst q = qsRun ∨ s.dev.qst q = qsHold ∨ s.dev.qst q = qsError))) ∧
    -- WQ_DISABLE (refused)
    (∃ (s : State) (q : Qid), (s.dev.halted = false ∧ s.dev.qst q ≠ qsRun ∧ s.dev.qst q ≠ qsHold ∧ s.dev.qst q ≠ qsError)) ∧
    -- WQ_RESUME (next)
    (∃ (s : State) (q : Qid) (e : Nat), (s.dev.halted = false ∧ s.dev.qMayResume q = true ∧ e = s.dev.rd F.WQ_CTX_CTL_ERR_SEQ q) ∧ (s.dev.qDisp q = e)) ∧
    -- WQ_RESUME (again)
    (∃ (s : State) (q : Qid) (e : Nat), (s.dev.halted = false ∧ s.dev.qMayResume q = true ∧ e = s.dev.rd F.WQ_CTX_CTL_ERR_SEQ q) ∧ (seqSub e (s.dev.qComp q) < 2 ^ 31 ∧ seqSub (s.dev.qDisp q) e - 1 < 2 ^ 31 - 1 ∧ e ≠ s.dev.qDisp q) ∧ (Tbl.has (s.dev.queue q).ents e = true)) ∧
    -- WQ_SKIP
    (∃ (s : State) (q : Qid) (e : Nat), (s.dev.halted = false ∧ s.dev.qMayResume q = true ∧ e = s.dev.rd F.WQ_CTX_CTL_ERR_SEQ q) ∧ (s.dev.rd F.WQ_CTX_CTL_ERR_CAUSE q = qeMalformed ∨ s.dev.rd F.WQ_CTX_CTL_ERR_CAUSE q = qeFetch ∨
          s.dev.rd F.WQ_CTX_CTL_ERR_CAUSE q = qeDoubleTrap ∨ s.dev.rd F.WQ_CTX_CTL_ERR_CAUSE q = qeHandlerStop)) ∧
    -- WQ_RESUME (refused)
    (∃ (s : State) (q : Qid), (s.dev.halted = false ∧ s.dev.qMayResume q = false)) ∧
    -- WQ_INVAL
    (∃ (s : State) (q : Qid), (s.dev.halted = false ∧ (s.dev.qst q = qsHold ∨ s.dev.qst q = qsError))) ∧
    -- WQ_INVAL (refused)
    (∃ (s : State) (q : Qid), (s.dev.halted = false ∧ s.dev.qst q ≠ qsHold ∧ s.dev.qst q ≠ qsError)) ∧
    -- WQ_HOLD (set)
    (∃ (s : State) (q : Qid), (s.dev.halted = false ∧ s.dev.qst q = qsRun)) ∧
    -- WQ_HOLD (clear)
    (∃ (s : State) (q : Qid), (s.dev.halted = false ∧ s.dev.qst q = qsHold)) ∧
    -- WQ_PROD_WRITE (off)
    (∃ (s : State) (q : Qid), (s.dev.qst q = qsOff)) ∧
    -- WQ_PROD_WRITE (late)
    (∃ (s : State) (q : Qid) (v : BitVec 32), (s.dev.qst q ≠ qsOff ∧ s.dev.qProd q ≠ v.toNat)) ∧
    -- WQ_ENABLE_DONE
    (∃ (s : State) (q : Qid) (d : Dev) (e : Dev), (s.dev.halted = false ∧ s.dev.qst q = qsEnabling ∧ (s.dev.queue q).prepared = false) ∧ (d = (s.dev.dropAll q).wr F.WQ_CTX_COMP_SEQ_ERR_CNT q 0 ∧ e = d.wr F.WQ_CTX_AUX_INCARNATION q (d.rd F.WQ_CTX_AUX_INCARNATION q + 1))) ∧
    -- WQ_ENABLE_DONE (run)
    (∃ (d : Dev) (q : Nat), ((d.queue q).prepared = true ∧ (d.queue q).disEnabling = false ∧ (d.queue q).latched = false) ∧ (d.flag F.WQ_CTX_CTL_HOLD q = false)) ∧
    -- WQ_DRAIN_DONE
    (∃ (s : State) (q : Qid), (s.dev.halted = false ∧ s.dev.qst q = qsDraining ∧ s.dev.queue q = {}) ∧ (((s.dev.wr F.WQ_CTX_CTL_STATE q qsOff).qNote q).flag F.WQ_CTX_CTL_ENABLE_LATCHED q = false)) :=
  ⟨⟨tR (tQl 0 ++ [(F.XLT_ASID_ROOT_EN, 0, 1)]), 3, by decide +kernel⟩,
   ⟨tR [], 3, by decide +kernel⟩,
   ⟨tQ 4, 3, by decide +kernel⟩,
   ⟨tQ 2, 3, by decide +kernel⟩,
   ⟨tQ 2, 3, by decide +kernel⟩,
   ⟨tQ 0, 3, by decide +kernel⟩,
   ⟨tR (tQl 5 ++ [(F.WQ_CTX_CTL_ERR_SEQ, 3, 4)]), 3, 4, by decide +kernel, by decide +kernel⟩,
   ⟨{ dev := (tDR (tQl 5 ++ [(F.WQ_CTX_CTL_ERR_SEQ, 3, 3)])).updQueue 3 (fun x => { x with ents := [(3, {})] }) }, 3, 3, by decide +kernel, by decide +kernel, by decide +kernel⟩,
   ⟨tR (tQl 5 ++ [(F.WQ_CTX_CTL_ERR_CAUSE, 3, 1), (F.WQ_CTX_CTL_ERR_SEQ, 3, 3)]), 3, 3, by decide +kernel, by decide +kernel⟩,
   ⟨tQ 2, 3, by decide +kernel⟩,
   ⟨tQ 3, 3, by decide +kernel⟩,
   ⟨tQ 2, 3, by decide +kernel⟩,
   ⟨tQ 2, 3, by decide +kernel⟩,
   ⟨tQ 3, 3, by decide +kernel⟩,
   ⟨tQ 0, 3, by decide +kernel⟩,
   ⟨tQ 2, 3, 9, by decide +kernel⟩,
   ⟨tQ 1, 3, ((tQ 1).dev.dropAll 3).wr F.WQ_CTX_COMP_SEQ_ERR_CNT 3 0, (((tQ 1).dev.dropAll 3).wr F.WQ_CTX_COMP_SEQ_ERR_CNT 3 0).wr F.WQ_CTX_AUX_INCARNATION 3 1, by decide +kernel, by decide +kernel⟩,
   ⟨tDev.updQueue 3 (fun x => { x with prepared := true }), 3, by decide +kernel, by decide +kernel⟩,
   ⟨tQ 4, 3, by decide +kernel, by decide +kernel⟩⟩

/-- States and operands that meet the hypotheses of each clause of QueueDispatch. -/
theorem witness_QueueDispatch :
    -- WQ_DISPATCH (held)
    (∃ (s : State) (fn : Fid) (th : Eid) (q : Nat) (e : Nat) (v : Nat) (w : Wrr) (d : Dev), (s.dev.halted = false ∧ s.dev.gated (th.val / 64) = false ∧ (s.dev.thr th).st = .wait ∧ (s.dev.thr th).active = false) ∧ (s.dev.grantee (th.val / 64) = some fn.val ∧ s.dev.wrrPick fn = some (q, w)) ∧ (s.dev.qNext q = some e ∧ s.dev.held q e = some v ∧ s.dev.inHand q e = true) ∧ (d = { s.dev with wq.wrr := Tbl.put fn w s.dev.wq.wrr, sch.lastGrant := Tbl.put (th.val / 64) fn s.dev.sch.lastGrant })) ∧
    -- WQ_DISPATCH (prefetched)
    (∃ (s : State) (fn : Fid) (th : Eid) (q : Nat) (e : Nat) (v : Nat) (w : Wrr) (d : Dev), (s.dev.halted = false ∧ s.dev.gated (th.val / 64) = false ∧ (s.dev.thr th).st = .wait ∧ (s.dev.thr th).active = false) ∧ (s.dev.grantee (th.val / 64) = some fn.val ∧ s.dev.wrrPick fn = some (q, w)) ∧ (s.dev.qNext q = some e ∧ s.dev.held q e = some v ∧ s.dev.inHand q e = false) ∧ (d = { s.dev with wq.wrr := Tbl.put fn w s.dev.wq.wrr, sch.lastGrant := Tbl.put (th.val / 64) fn s.dev.sch.lastGrant })) ∧
    -- WQ_DISPATCH (fetch)
    (∃ (s : State) (fn : Fid) (th : Eid) (q : Nat) (e : Nat) (w : Wrr) (d : Dev), (s.dev.halted = false ∧ s.dev.gated (th.val / 64) = false ∧ (s.dev.thr th).st = .wait ∧ (s.dev.thr th).active = false) ∧ (s.dev.grantee (th.val / 64) = some fn.val ∧ s.dev.wrrPick fn = some (q, w)) ∧ (s.dev.qNext q = some e ∧ s.dev.held q e = none) ∧ (d = { s.dev with wq.wrr := Tbl.put fn w s.dev.wq.wrr, sch.lastGrant := Tbl.put (th.val / 64) fn s.dev.sch.lastGrant })) ∧
    -- entry at
    (∃ (d : Dev) (q : Nat) (e : Nat) (v : Nat), (d.held q e = some v)) ∧
    -- wrr spend
    (∃ (d : Dev) (f : Nat) (q : Nat) (n : Nat), ((d.wrrOf f).begun = true ∧ (d.wrrOf f).cur = some (q, n))) ∧
    -- WQ_FETCH_DONE
    (∃ (s : State) (q : Qid) (tag : Nat) (th : Nat) (v : Nat) (e : Nat) (d : Dev) (r : HostRd), (s.dev.findRead (.wqFetch q) = some tag ∧ (s.dev.queue q).fetch = some th) ∧ (s.dev.takeRead tag 64 (.ok v false) = (d, some r) ∧ d.qNext q = some e ∧ d.qst q = qsRun) ∧ ((d.queue q).fetchOld = false ∧ d.mustWait q e v = false)) ∧
    -- start entry
    (∃ (d : Dev) (q : Nat) (e : Nat) (v : Nat), (malformed v e = false ∧ (d.queue q).redo ≠ some e)) ∧
    -- WQ_PREFETCH
    (∃ (s : State) (q : Qid) (seq : BitVec 32) (n : Nat), (s.dev.halted = false ∧ (s.dev.qst q = qsRun ∨ s.dev.qst q = qsHold) ∧ 0 < n ∧ n ≤ 4 ∧ n ≤ 64 - seq.toNat % 64) ∧ (seqSub seq.toNat (s.dev.qDisp q) + n ≤ min (min (s.dev.rd F.WQ_CTX_CFG_PREFETCH q) 16) (seqSub (s.dev.qProd q) (s.dev.qDisp q))) ∧ (seq.toNat % s.dev.qSize q + n ≤ s.dev.qSize q ∧ s.dev.wq.cache.length + n ≤ 16384) ∧ ((List.range n).any (fun i => (s.dev.held q (seq.toNat + i)).isSome) = false) ∧ (s.dev.flag F.WQ_CTX_RING_PHYS q = true ∧ s.dev.gateFail (18 + s.dev.qFn q / 256) 1 (some (s.dev.qFn q)) (s.dev.ringAddr q seq.toNat) (64 * n) 1 = none)) ∧
    -- WQ_PREFETCH_DONE
    (∃ (s : State) (q : Qid) (seq : BitVec 32) (v : Nat) (tag : Nat) (r : HostRd) (d : Dev), (s.dev.findPre q seq.toNat = some (tag, 1)) ∧ (s.dev.takeRead tag 64 (.ok v false) = (d, some r))) ∧
    -- cache line
    (∃ (d : Dev) (q : Nat) (e : Nat), (seqSub e (d.qDisp q) < seqSub (d.qProd q) (d.qDisp q) ∧ d.wq.cache.length < 16384 ∧ d.held q e = none)) ∧
    -- STATUS_RECORD_WRITE
    (∃ (s : State) (q : Qid) (t : Nat), (s.dev.halted = false ∧ (s.dev.queue q).recDue = some t)) :=
  ⟨⟨tHeld, 0, 0, 3, 4, 5, { begun := true, cur := some (3, 0) }, _, by decide +kernel, by decide +kernel, by decide +kernel, rfl⟩,
   ⟨tHeldP, 0, 0, 3, 4, 5, { begun := true, cur := some (3, 0) }, _, by decide +kernel, by decide +kernel, by decide +kernel, rfl⟩,
   ⟨tFetch, 0, 0, 3, 4, { begun := true, cur := some (3, 0) }, _, by decide +kernel, by decide +kernel, by decide +kernel, rfl⟩,
   ⟨tHeld.dev, 3, 4, 5, by decide +kernel⟩,
   ⟨{ tDev with wq.wrr := [(0, { begun := true, cur := some (3, 0) })] }, 0, 3, 0, by decide +kernel⟩,
   ⟨tFetched, 3, 9, 0, 0x100000004, 4, (tFetched.dev.takeRead 9 64 (.ok 0x100000004 false)).1, { fn := 0, addr := 0, why := .wqFetch 3, at_ := 0 }, by decide +kernel, by decide +kernel, by decide +kernel⟩,
   ⟨tDR (tQl 2), 3, 4, 0x100000004, by decide +kernel⟩,
   ⟨tR (tQl 2 ++ [(F.WQ_CTX_CFG_PREFETCH, 3, 8), (F.WQ_CTX_RING_PHYS, 3, 1)]), 3, 4, 1, by decide +kernel, by decide +kernel, by decide +kernel, by decide +kernel, by decide +kernel⟩,
   ⟨tPre, 3, 4, 7, 9, { fn := 0, addr := 0, why := .wqPre 3 4 1, at_ := 0 }, (tPre.dev.takeRead 9 64 (.ok 7 false)).1, by decide +kernel, by decide +kernel⟩,
   ⟨tDR (tQl 2), 3, 4, by decide +kernel⟩,
   ⟨{ dev := (tDR (tQl 2)).updQueue 3 (fun x => { x with recDue := some 5 }) }, 3, 5, by decide +kernel⟩⟩

/-- States and operands that meet the hypotheses of each clause of TranslationWalks. -/
theorem witness_TranslationWalks :
    -- XLT_WALK_READ_DONE (leaf)
    (∃ (s : State) (id : Nat) (w : Walk) (tag : Nat) (e : Nat) (a : Nat) (d : Dev) (d1 : Dev) (r : HostRd) (l : Leaf), (Tbl.find s.dev.xlt.walks id = some w ∧ w.tag = some tag ∧ s.dev.takeRead tag 8 (.ok e false) = (d, some r)) ∧ (e % 2 ≠ 0 ∧ bitsOf e 1 1 ≠ 0 ∧ leafOf w.req.asid w.req.va w.level (e % 2 ^ 64) d.ps = some l) ∧ (Dev.judgeLeaf { d with xlt.walks := Tbl.del id d.xlt.walks } w.req l w.spec = (d1, .ok a) ∧ w.req.cluster = none ∧ w.work ≠ .table) ∧ (Dev.barred { d with xlt.walks := Tbl.del id d.xlt.walks } w l.va (2 ^ l.bits) = false)) ∧
    -- XLT_WALK_READ_DONE (invalid)
    (∃ (s : State) (id : Nat) (w : Walk) (tag : Nat) (e : Nat) (d : Dev) (r : HostRd), (Tbl.find s.dev.xlt.walks id = some w ∧ w.tag = some tag ∧ s.dev.takeRead tag 8 (.ok e false) = (d, some r)) ∧ (e % 2 = 0)) ∧
    -- XLT_WALK_READ_DONE (table)
    (∃ (s : State) (id : Nat) (w : Walk) (tag : Nat) (e : Nat) (n : Nat) (d : Dev) (d1 : Dev) (r : HostRd), (Tbl.find s.dev.xlt.walks id = some w ∧ w.tag = some tag ∧ s.dev.takeRead tag 8 (.ok e false) = (d, some r)) ∧ (e % 2 ≠ 0 ∧ bitsOf e 1 1 = 0 ∧ w.level = n + 1 ∧ w.spec = true ∧ w.work ≠ .table) ∧ (d.walkRead id { w with level := n, table := bitsOf e 12 52 * 2 ^ 12, tag := none } = (d1, .wait))) ∧
    -- XLT_WALK_READ_DONE (ahead)
    (∃ (s : State) (id : Nat) (w : Walk) (tag : Nat) (e : Nat) (d : Dev) (d2 : Dev) (r : HostRd), (Tbl.find s.dev.xlt.walks id = some w ∧ w.tag = some tag ∧ s.dev.takeRead tag 8 (.ok e false) = (d, some r)) ∧ (e % 2 ≠ 0 ∧ bitsOf e 1 1 = 0 ∧ w.level = 1 ∧ w.spec = true ∧ w.work = .table ∧ w.partialOf = []) ∧ (d2 = (Dev.tableEntry { d with xlt.walks := Tbl.del id d.xlt.walks } w 0 (bitsOf e 12 52 * 2 ^ 12)).tableAhead w (.ok 0))) ∧
    -- table ahead
    (∃ (d : Dev) (e : Dev) (w : Walk) (r : XReq), (e = (d.pick 2).2 ∧ r = { w.req with va := (w.req.va / 2 ^ 21 + 1) * 2 ^ 21 })) ∧
    -- leaf of (page)
    (∃ (e : Nat) (k : Nat), (e < 2 ^ 64 ∧ bitsOf e 10 1 = 0 ∧ bitsOf e 9 1 = 0 ∧ e / 2 ^ 12 * 2 ^ 12 = k) ∧ (k % 2 ^ 12 = 0)) ∧
    -- TLB_AGE_RELEASE (leaf)
    (∃ (s : State) (asid : BitVec 16) (va : BitVec 57) (e : Leaf), (s.dev.halted = false ∧ s.dev.rd F.XLT_CFG_AGE_LIMIT ≠ 0) ∧ (oldestBy (fun x => x.2.hit) (s.dev.l2Leaves asid.toNat va.toNat) = some (none, e))) ∧
    -- TLB_AGE_RELEASE (table)
    (∃ (s : State) (asid : BitVec 16) (va : BitVec 57) (e : WalkEnt), (s.dev.halted = false ∧ s.dev.rd F.XLT_CFG_AGE_LIMIT ≠ 0) ∧ (oldestBy WalkEnt.hit (s.dev.xlt.wc.filter (fun x => x.asid == asid.toNat && x.pre == vaPrefix va.toNat x.level)) = some e)) :=
  ⟨⟨tWalk, 7, tWalkOf 0, 9, 0x3000 + 511, 0x3000, (tWalk.dev.takeRead 9 8 (.ok (0x3000 + 511) false)).1, (Dev.judgeLeaf { (tWalk.dev.takeRead 9 8 (.ok (0x3000 + 511) false)).1 with xlt.walks := Tbl.del 7 (tWalk.dev.takeRead 9 8 (.ok (0x3000 + 511) false)).1.xlt.walks } (tWalkOf 0).req { asid := 1, va := 0, bits := 12, out := 0x3000, flags := 127, hit := 0 }).1, { fn := 0, addr := 0, why := .walk 7, at_ := 0 }, { asid := 1, va := 0, bits := 12, out := 0x3000, flags := 127, hit := 0 }, by decide +kernel, by decide +kernel, by decide +kernel, by decide +kernel⟩,
   ⟨tWalk, 7, tWalkOf 0, 9, 2, (tWalk.dev.takeRead 9 8 (.ok 2 false)).1, { fn := 0, addr := 0, why := .walk 7, at_ := 0 }, by decide +kernel, by decide +kernel⟩,
   ⟨tWalk1, 7, { tWalkOf 1 with spec := true }, 9, 0x3001, 0, (tWalk1.dev.takeRead 9 8 (.ok 0x3001 false)).1, (Dev.walkRead (tWalk1.dev.takeRead 9 8 (.ok 0x3001 false)).1 7 { { tWalkOf 1 with spec := true } with level := 0, table := bitsOf 0x3001 12 52 * 2 ^ 12, tag := none }).1, { fn := 0, addr := 0, why := .walk 7, at_ := 0 }, by decide +kernel, by decide +kernel, by decide +kernel⟩,
   ⟨tWalkT, 7, { tWalkOf 1 with spec := true, work := .table }, 9, 0x3001, (tWalkT.dev.takeRead 9 8 (.ok 0x3001 false)).1, _, { fn := 0, addr := 0, why := .walk 7, at_ := 0 }, by decide +kernel, by decide +kernel, rfl⟩,
   ⟨tWalk.dev, _, tWalkOf 0, _, ⟨rfl, rfl⟩⟩,
   ⟨0x3000 + 511, 0x3000, by decide +kernel, by decide +kernel⟩,
   ⟨{ dev := { (tDR [(F.XLT_CFG_AGE_LIMIT, 0, 1)]) with xlt := { l2 := [{ asid := 1, va := 0, bits := 12, out := 0, flags := 0, hit := 0 }] } } }, 1, 0, { asid := 1, va := 0, bits := 12, out := 0, flags := 0, hit := 0 }, by decide +kernel, by decide +kernel⟩,
   ⟨{ dev := { (tDR [(F.XLT_CFG_AGE_LIMIT, 0, 1)]) with xlt := { wc := [{ asid := 1, pre := 0, level := 0, table := 0, hit := 0 }] } } }, 1, 0, { asid := 1, pre := 0, level := 0, table := 0, hit := 0 }, by decide +kernel, by decide +kernel⟩⟩

/-- States and operands that meet the hypotheses of each clause of TranslationInvalidation. -/
theorem witness_TranslationInvalidation :
    -- XLT_INV_VA
    (∃ (s : State), (s.dev.halted = false)) ∧
    -- clear caches
    (∃ (v : Inval) (e : Leaf), (v.hits e.asid e.va (2 ^ e.bits) = true)) ∧
    -- XLT_INV_FLUSH_ISSUE (none)
    (∃ (s : State) (p : Hid) (v : Inval), (s.dev.halted = false ∧ (s.dev.invals p).find? (fun x => !x.issued) = some v) ∧ (s.dev.xlt.walks.any (fun e => e.2.partialOf.contains (p.val, v.ticket)) = false ∧ v.older.any s.dev.amoReads = false) ∧ (s.dev.bifurcated p = false ∧ s.dev.flushAny (p.val * 2 + 0) = none)) ∧
    -- XLT_INV_FLUSH_ISSUE (waits)
    (∃ (s : State) (p : Hid) (v : Inval), (s.dev.halted = false ∧ (s.dev.invals p).find? (fun x => !x.issued) = some v) ∧ (v.older.any s.dev.amoReads = true)) ∧
    -- XLT_INV_FLUSH_ISSUE (read)
    (∃ (s : State) (p : Hid) (v : Inval) (f : Nat) (a : Nat) (t : Nat) (d : Dev), (s.dev.halted = false ∧ (s.dev.invals p).find? (fun x => !x.issued) = some v) ∧ (s.dev.xlt.walks.any (fun e => e.2.partialOf.contains (p.val, v.ticket)) = false ∧ v.older.any s.dev.amoReads = false) ∧ (s.dev.bifurcated p = false ∧ s.dev.flushAny (p.val * 2 + 0) = some (f, a)) ∧ (s.dev.hostRead f a 0 (.flushInv p v.ticket 0) = (d, some t))) ∧
    -- XLT_INV_DONE
    (∃ (s : State) (p : Hid) (link : Fin 2) (tag : Nat) (t : Nat), (s.dev.findFlush p link = some (tag, t))) ∧
    -- inv retire
    (∃ (d : Dev) (p : Nat) (v : Inval) (l : List Inval), (d.invals p = v :: l ∧ v.issued = true ∧ v.reads = [] ∧ v.older.any (Tbl.has d.reads) = false)) :=
  ⟨⟨tR [], by decide +kernel⟩,
   ⟨{ ticket := 1, asid := 1, addr := 0, size := 4096, kind := 0, walk := false, older := [], issued := false, reads := [] }, { asid := 1, va := 0, bits := 12, out := 0, flags := 0, hit := 0 }, by decide +kernel⟩,
   ⟨tInv false [], 0, { ticket := 1, asid := 1, addr := 0, size := 4096, kind := 0, walk := false, older := [], issued := false, reads := [] }, by decide +kernel, by decide +kernel, by decide +kernel⟩,
   ⟨{ dev := { (tInv false []).dev with
      reads := [(9, { fn := 0, addr := 0, why := .own (.amo 1) 0 0, at_ := 0 })],
      xlt.inv := [(0, [{ ticket := 1, asid := 1, addr := 0, size := 4096, kind := 0, walk := false, older := [9], issued := false, reads := [] }])] } }, 0, { ticket := 1, asid := 1, addr := 0, size := 4096, kind := 0, walk := false, older := [9], issued := false, reads := [] }, by decide +kernel, by decide +kernel⟩,
   ⟨tInvP, 0, { ticket := 1, asid := 1, addr := 0, size := 4096, kind := 0, walk := false, older := [], issued := false, reads := [] }, 0, 64, 0, (tInvP.dev.hostRead 0 64 0 (.flushInv 0 1 0)).1, by decide +kernel, by decide +kernel, by decide +kernel, by decide +kernel⟩,
   ⟨tInv true [9], 0, 0, 9, 1, by decide +kernel⟩,
   ⟨(tInv true []).dev, 0, { ticket := 1, asid := 1, addr := 0, size := 4096, kind := 0, walk := false, older := [], issued := true, reads := [] }, [], by decide +kernel⟩⟩

/-- States and operands that meet the hypotheses of each clause of WindowCommands. -/
theorem witness_WindowCommands :
    -- WIN_OPEN
    (∃ (s : State) (fn : Fid), (s.dev.halted = false ∧ s.dev.flag F.WIN_FN_RESULT_BUSY fn = false)) ∧
    -- WIN_OPEN (busy)
    (∃ (s : State) (fn : Fid), (s.dev.halted = false ∧ s.dev.flag F.WIN_FN_RESULT_BUSY fn = true)) ∧
    -- WIN_OPEN_DONE
    (∃ (s : State) (fn : Fid) (base : Nat) (a1 : Nat) (a2 : Nat) (idx : Nat) (d : Dev), (s.dev.halted = false ∧ Tbl.find s.dev.win.busy fn = some (base, a1, a2) ∧ Tbl.get s.dev.win.revokeOnOpen false fn = false) ∧ (s.dev.openCheck fn base (a1 % 2 ^ 48) a2 = 0) ∧ (Dev.takeIndex { s.dev with win.busy := Tbl.del fn s.dev.win.busy, win.revokeOnOpen := Tbl.del fn s.dev.win.revokeOnOpen } = (d, idx))) ∧
    -- WIN_OPEN_DONE (fails)
    (∃ (s : State) (fn : Fid) (base : Nat) (a1 : Nat) (a2 : Nat), (s.dev.halted = false ∧ Tbl.find s.dev.win.busy fn = some (base, a1, a2)) ∧ (s.dev.openCheck fn base (a1 % 2 ^ 48) a2 ≠ 0)) ∧
    -- WIN_REVOKE
    (∃ (s : State) (fn : Fid) (handle : BitVec 32), (s.dev.halted = false ∧ s.dev.flag F.WIN_FN_RESULT_BUSY fn = false ∧ s.dev.winLive handle.toNat = 0 ∧ (s.dev.winOf handle.toNat).owner = fn.val)) ∧
    -- WIN_REVOKE (dead)
    (∃ (s : State) (fn : Fid) (handle : BitVec 32), (s.dev.halted = false ∧ s.dev.flag F.WIN_FN_RESULT_BUSY fn = false ∧ s.dev.winLive handle.toNat ≠ 0)) ∧
    -- WIN_REVOKE (peer)
    (∃ (s : State) (fn : Fid) (handle : BitVec 32), (s.dev.halted = false ∧ s.dev.flag F.WIN_FN_RESULT_BUSY fn = false ∧ s.dev.winLive handle.toNat = 0 ∧ (s.dev.winOf handle.toNat).owner ≠ fn.val)) ∧
    -- WIN_DRAIN_LIMIT
    (∃ (s : State) (fn : Fid) (ticket : BitVec 32) (r : Revoke), (s.dev.halted = false ∧ (s.dev.revokesOf fn).find? (fun r => r.ticket == ticket.toNat) = some r ∧ r.done = false ∧ r.cancelled = false)) ∧
    -- WIN_REVOKE_FLUSH
    (∃ (s : State) (fn : Fid) (ticket : BitVec 32) (r : Revoke), (s.dev.halted = false ∧ (s.dev.revokesOf fn).find? (fun r => r.ticket == ticket.toNat) = some r ∧ r.flushed = false ∧ r.flush = none) ∧ ((s.dev.uses r.idx).isEmpty = true ∧ s.dev.flushAddr fn = none)) ∧
    -- WIN_REVOKE_FLUSH (read)
    (∃ (s : State) (fn : Fid) (ticket : BitVec 32) (r : Revoke) (a : Nat) (t : Nat) (d : Dev), (s.dev.halted = false ∧ (s.dev.revokesOf fn).find? (fun r => r.ticket == ticket.toNat) = some r ∧ r.flushed = false ∧ r.flush = none) ∧ ((s.dev.uses r.idx).isEmpty = true ∧ s.dev.flushAddr fn = some a ∧ s.dev.hostRead fn a 0 (.flushRevoke fn ticket.toNat) = (d, some t))) ∧
    -- WIN_REVOKE_FREE
    (∃ (s : State) (fn : Fid) (ticket : BitVec 32) (r : Revoke) (d : Dev), (s.dev.halted = false ∧ (s.dev.revokesOf fn).find? (fun r => r.ticket == ticket.toNat) = some r ∧ r.done = false ∧ r.flush = none ∧ r.flushed = true) ∧ (d = (Dev.updRevoke { (s.dev.setWin r.idx { gen := (s.dev.win_ r.idx).gen }) with
        win.freed := (s.dev.setWin r.idx { gen := (s.dev.win_ r.idx).gen }).win.freed ++ [r.idx] } fn ticket.toNat (fun r => { r with done := true, flush := none, flushed := true })))) ∧
    -- revoke retire
    (∃ (d : Dev) (f : Nat) (r : Revoke) (l : List Revoke), (d.revokesOf f = r :: l ∧ r.done = true)) :=
  ⟨⟨tR [], 0, by decide +kernel⟩,
   ⟨tR [(F.WIN_FN_RESULT_BUSY, 0, 1)], 0, by decide +kernel⟩,
   ⟨tOpen, 0, 4096, 4095, 0x1F0001, 0, Prod.fst (Dev.takeIndex { tOpen.dev with win.busy := Tbl.del 0 tOpen.dev.win.busy, win.revokeOnOpen := Tbl.del 0 tOpen.dev.win.revokeOnOpen }), by decide +kernel, by decide +kernel, by decide +kernel⟩,
   ⟨{ dev := { tDev with win := { busy := [(0, (4096, 4095, 0))] } } }, 0, 4096, 4095, 0, by decide +kernel, by decide +kernel⟩,
   ⟨tWin 0 {}, 0, 0x1001, by decide +kernel⟩,
   ⟨tR [], 0, 0x1001, by decide +kernel⟩,
   ⟨tWin 0 {}, 1, 0x1001, by decide +kernel⟩,
   ⟨tRev, 0, 1, { idx := 1, ticket := 1, start := 0, limit := 5 }, by decide +kernel⟩,
   ⟨tRev, 0, 1, { idx := 1, ticket := 1, start := 0, limit := 5 }, by decide +kernel, by decide +kernel⟩,
   ⟨{ dev := { tRev.dev with host := { posted := [(0, 64)] } } }, 0, 1, { idx := 1, ticket := 1, start := 0, limit := 5 }, 64, 0, (Dev.hostRead { tRev.dev with host := { posted := [(0, 64)] } } 0 64 0 (.flushRevoke 0 1)).1, by decide +kernel, by decide +kernel⟩,
   ⟨tRevF, 0, 1, { idx := 1, ticket := 1, start := 0, limit := 5, flushed := true }, _, by decide +kernel, rfl⟩,
   ⟨{ tDev with win := { revokes := [(0, [{ idx := 1, ticket := 1, start := 0, limit := 5, done := true }])] } }, 0, { idx := 1, ticket := 1, start := 0, limit := 5, done := true }, [], by decide +kernel⟩⟩

/-- States and operands that meet the hypotheses of each clause of RemoteRequests. -/
theorem witness_RemoteRequests :
    -- RX_PUT
    (∃ (s : State) (c : Cell) (e : Dev), (s.dev.halted = false ∧ s.dev.isHead c 1 = true ∧ nonIdem c.op = false) ∧ (s.dev.admitsHead c) ∧ ((s.dev.joined c).rxPasses c rRW e)) ∧
    -- RX_PUT (window)
    (∃ (s : State) (c : Cell) (st : Nat), (s.dev.halted = false ∧ s.dev.isHead c 1 = true ∧ nonIdem c.op = false) ∧ (s.dev.admitsHead c) ∧ ((s.dev.joined c).winCheck c.rwin (remotePeer c.srcDev c.srcFn) rRW (if c.len = 0 then 0 else c.roff) c.len = st) ∧ (st ≠ 0)) ∧
    -- RX_PUT (no room)
    (∃ (s : State) (c : Cell), (s.dev.halted = false ∧ s.dev.isHead c 1 = true ∧ c.op = 1) ∧ ((s.dev.seen c).rxOf c.key = none ∧ (s.dev.seen c).rxRoom c.dstFn = false)) ∧
    -- RX_PUT (function off)
    (∃ (s : State) (c : Cell), (s.dev.halted = false ∧ s.dev.isHead c 1 = true ∧ c.op = 1) ∧ ((s.dev.seen c).rxOf c.key = none ∧ (s.dev.seen c).rxRoom c.dstFn = true ∧ (s.dev.joined c).fnOn c.dstFn = false)) ∧
    -- RX_GET
    (∃ (s : State) (c : Cell) (e : Dev) (e1 : Dev) (n : Nat), (s.dev.halted = false ∧ s.dev.isHead c 2 = true ∧ nonIdem c.op = false) ∧ (s.dev.admitsHead c) ∧ ((s.dev.joined c).rxPasses c rRR e) ∧ ((Dev.updRx { e with nextTag := e.nextTag + 1, rma.gets := Tbl.put e.nextTag { cell := c, win := c.rwin } e.rma.gets } c.key
        (fun x => { x with place := .drop })).winReadAll (.getSrc e.nextTag) c.rwin c.roff c.len = (e1, n, 0)) ∧ (n ≠ 0)) ∧
    -- RX_AMO
    (∃ (s : State) (c : Cell) (e : Dev) (e1 : Dev), (s.dev.halted = false ∧ nonIdem c.op = true ∧ amoFnOk c.amoFn = true ∧ s.dev.isHead c 6 = true) ∧ (s.dev.admitsHead c) ∧ ((s.dev.joined c).cairnStep c = (e, true) ∧ e.rxPasses c rRA e1) ∧ ((e1.winVa c.rwin c.roff % amoSize (c.amoFn % 16) != 0) = false)) ∧
    -- RX_AMO_F
    (∃ (s : State) (c : Cell) (e : Dev) (e1 : Dev), (s.dev.halted = false ∧ nonIdem c.op = true ∧ amoFnOk c.amoFn = true ∧ s.dev.isHead c 7 = true) ∧ (s.dev.admitsHead c) ∧ ((s.dev.joined c).cairnStep c = (e, true) ∧ e.rxPasses c rRA e1) ∧ ((e1.winVa c.rwin c.roff % amoSize (c.amoFn % 16) != 0) = false)) ∧
    -- RX_AMO (unaligned)
    (∃ (s : State) (c : Cell) (e : Dev) (e1 : Dev), (s.dev.halted = false ∧ nonIdem c.op = true ∧ amoFnOk c.amoFn = true ∧ s.dev.isHead c 6 = true) ∧ (s.dev.admitsHead c) ∧ ((s.dev.joined c).cairnStep c = (e, true) ∧ e.rxPasses c rRA e1) ∧ ((e1.winVa c.rwin c.roff % amoSize (c.amoFn % 16) != 0) = true)) ∧
    -- cairn step
    (∃ (d : Dev) (c : Cell), (Tbl.find d.rma.cairn c.key = none) ∧ (d.cairnDie < 262144)) ∧
    -- RX_SEND
    (∃ (s : State) (c : Cell) (e : Dev), (s.dev.halted = false ∧ nonIdem c.op = true ∧ s.dev.isHead c 3 = true ∧ ¬ 16384 < c.len ∧ c.op = 3) ∧ (s.dev.admitsHead c) ∧ ((s.dev.joined c).cairnStep c = (e, true) ∧ e.flag F.MTC_FN_CFG_EN c.dstFn = true ∧ c.mseq / 2 ^ 30 = 0)) ∧
    -- RX_SEND_RDV
    (∃ (s : State) (c : Cell) (e : Dev), (s.dev.halted = false ∧ nonIdem c.op = true ∧ s.dev.isHead c 4 = true ∧ c.last = true ∧ c.op = 4) ∧ (s.dev.admitsHead c) ∧ ((s.dev.joined c).cairnStep c = (e, true) ∧ e.flag F.MTC_FN_CFG_EN c.dstFn = true ∧ c.mseq / 2 ^ 30 = 0)) ∧
    -- RX_UD
    (∃ (s : State) (c : Cell), (s.dev.halted = false ∧ s.dev.isHead c 5 = true ∧ nonIdem c.op = false) ∧ (s.dev.admitsHead c) ∧ ((s.dev.joined c).rd F.RMA_FN_UD_RING_WIN c.dstFn ≠ 0 ∧ c.len + 64 ≤ 2 ^ (s.dev.joined c).rd F.RMA_FN_UD_RING_LOG2_SIZE c.dstFn)) ∧
    -- RX_UD (dropped)
    (∃ (s : State) (c : Cell), (s.dev.halted = false ∧ s.dev.isHead c 5 = true ∧ nonIdem c.op = false) ∧ (s.dev.admitsHead c) ∧ ((s.dev.joined c).rd F.RMA_FN_UD_RING_WIN c.dstFn = 0)) ∧
    -- RX_FLUSH
    (∃ (s : State) (c : Cell), (s.dev.halted = false ∧ s.dev.isHead c 8 = true ∧ nonIdem c.op = false) ∧ (s.dev.admitsHead c)) ∧
    -- flush rx
    (∃ (d : Dev) (key : Nat) (x : Rx), (d.rxOf key = some x)) ∧
    -- RX_RELEASE
    (∃ (s : State) (c : Cell) (x : Cairn) (d : Dev), (s.dev.halted = false ∧ s.dev.isHead c 9 = true) ∧ ((s.dev.seen c).cairnLook c.key = (d, some x) ∧ x.msgId = c.msgId)) ∧
    -- cairn look
    (∃ (d : Dev) (key : Nat) (e : Cairn), (Tbl.find d.rma.cairn key = some e)) ∧
    -- RX_RELEASE (none)
    (∃ (s : State) (c : Cell), (s.dev.halted = false ∧ s.dev.isHead c 9 = true ∧ Tbl.find (s.dev.seen c).rma.cairn c.key = none)) ∧
    -- RX_OP_RESERVED
    (∃ (s : State) (c : Cell), (s.dev.halted = false ∧ (c.cls == 0 && c.head && c.dstDev == s.dev.myDev) = true) ∧ ((c.op = 0 || 9 < c.op || ((c.op = 6 || c.op = 7) && !amoFnOk c.amoFn)) = true)) ∧
    -- rx second copy
    (∃ (d : Dev) (c : Cell) (x : Rx), ((d.seen c).rxOf c.key = some x ∧ x.head.isSome = true ∧ (d.seen c).fnOn c.dstFn = true)) ∧
    -- rx window
    (∃ (d : Dev) (c : Cell) (right : Nat) (e : Dev) (st : Nat), (d.winUse c.rwin (remotePeer c.srcDev c.srcFn) right (if c.len = 0 then 0 else c.roff) c.len = (e, st))) :=
  ⟨⟨tRx tPutCell, tPutCell, _, by decide +kernel, by decide +kernel, ⟨by decide +kernel, rfl⟩⟩,
   ⟨tRx tGetPut, tGetPut, Status.WIN_INVALID, by decide +kernel, by decide +kernel, by decide +kernel, by decide +kernel⟩,
   ⟨{ dev := { (tDR [(F.RMA_FN_CFG_RX_MAX, 0, 0)]) with rma := { inbox := [tPutCell] } } }, tPutCell, by decide +kernel, by decide +kernel⟩,
   ⟨{ dev := { (tDR [(F.RMA_FN_CFG_RX_MAX, 0, 4), (F.HST_FN_CTL_STATE, 0, 0)]) with rma := { inbox := [tPutCell] } } }, tPutCell, by decide +kernel, by decide +kernel⟩,
   ⟨tRx tGetCell, tGetCell, tRxE tGetCell rRR, Prod.fst (tRxGetE (tRxE tGetCell rRR) tGetCell), 1, by decide +kernel, by decide +kernel, ⟨by decide +kernel, by decide +kernel⟩, by decide +kernel, by decide +kernel⟩,
   ⟨tRx (tAmoCell 6), tAmoCell 6, _, _, by decide +kernel, by decide +kernel, ⟨rfl, by decide +kernel, rfl⟩, by decide +kernel⟩,
   ⟨tRx (tAmoCell 7), tAmoCell 7, _, _, by decide +kernel, by decide +kernel, ⟨rfl, by decide +kernel, rfl⟩, by decide +kernel⟩,
   ⟨tRx tAmoOdd, tAmoOdd, Prod.fst (((tRx tAmoOdd).dev.joined tAmoOdd).cairnStep tAmoOdd), Dev.winLook (Prod.fst (((tRx tAmoOdd).dev.joined tAmoOdd).cairnStep tAmoOdd)) tAmoOdd.rwin, by decide +kernel, by decide +kernel, by decide +kernel, by decide +kernel⟩,
   ⟨tRxD [], tAmoCell 6, by decide +kernel, by decide +kernel⟩,
   ⟨tSend [(F.MTC_FN_CFG_EN, 0, 1)], tSendCell, _, by decide +kernel, by decide +kernel, ⟨rfl, by decide +kernel, by decide +kernel⟩⟩,
   ⟨tSendR tRdvCell, tRdvCell, _, by decide +kernel, by decide +kernel, ⟨rfl, by decide +kernel, by decide +kernel⟩⟩,
   ⟨tUd, tHead (5 + 4 * 2 ^ 32 + 2 ^ 9), by decide +kernel, by decide +kernel, by decide +kernel⟩,
   ⟨tRx (tHead (5 + 4 * 2 ^ 32 + 2 ^ 9)), tHead (5 + 4 * 2 ^ 32 + 2 ^ 9), by decide +kernel, by decide +kernel, by decide +kernel⟩,
   ⟨tRx (tHead 8), tHead 8, by decide +kernel, by decide +kernel⟩,
   ⟨{ (tRxD []) with rma := { rx := [(7, { fn := 0 })] } }, 7, { fn := 0 }, by decide +kernel⟩,
   ⟨{ dev := { (tRxD []) with rma := { inbox := [tHead 9], cairn := [(tHead 9 |>.key, { msgId := 0, born := 0, life := 1000 })] } } }, tHead 9, { msgId := 0, born := 0, life := 1000 }, Dev.seen { (tRxD []) with rma := { inbox := [tHead 9], cairn := [(tHead 9 |>.key, { msgId := 0, born := 0, life := 1000 })] } } (tHead 9), by decide +kernel, by decide +kernel⟩,
   ⟨{ tDev with rma.cairn := [(3, { msgId := 1, born := 0, life := 1000, spilled := true })] }, 3, { msgId := 1, born := 0, life := 1000, spilled := true }, by decide +kernel⟩,
   ⟨tRx (tHead 9), tHead 9, by decide +kernel⟩,
   ⟨tRx (tHead 200), tHead 200, by decide +kernel, by decide +kernel⟩,
   ⟨{ (tRxD []) with rma := { rx := [(tPutCell.key, { fn := 0, head := some tPutCell })] } }, tPutCell, { fn := 0, head := some tPutCell }, by decide +kernel⟩,
   ⟨tRxD [], tPutCell, rRW, _, _, rfl⟩⟩

/-- States and operands that meet the hypotheses of each clause of TargetProgress. -/
theorem witness_TargetProgress :
    -- RX_DATA_CELL (placed)
    (∃ (s : State) (c : Cell) (d : Dev) (e : Dev) (x : Rx) (y : Rx) (w : Nat) (o : Nat) (l : Nat), (s.dev.halted = false ∧ (c.cls == 0 && !c.head && c.dstDev == s.dev.myDev) = true) ∧ ((s.dev.taken c).rxJoin c = some d ∧ d.rxOf c.key = some x ∧ x.place = .win w o l) ∧ (x.bitmap.testBit c.idx = false ∧ x.head.isSome = true ∧ c.idx < x.count.getD 0) ∧ ((d.rxCount c.key c).placeCell c.key c.idx c.pay.toNat = e ∧ e.rxOf c.key = some y ∧ (e.rxWaits c.key).any (fun id => d.nextTag ≤ id) = false)) ∧
    -- RX_DATA_CELL (staged)
    (∃ (s : State) (c : Cell) (d : Dev) (d1 : Dev) (x : Rx), (s.dev.halted = false ∧ (c.cls == 0 && !c.head && c.dstDev == s.dev.myDev) = true) ∧ ((s.dev.taken c).rxJoin c = some d ∧ d.rxOf c.key = some x ∧ x.place = .none ∧ d.rxStage c.key x = (d1, true)) ∧ (x.bitmap.testBit c.idx = false ∧ x.head = none)) ∧
    -- RX_DATA_CELL (twice)
    (∃ (s : State) (c : Cell) (d : Dev) (x : Rx), (s.dev.halted = false ∧ (c.cls == 0 && !c.head && c.dstDev == s.dev.myDev) = true) ∧ ((s.dev.taken c).rxJoin c = some d ∧ d.rxOf c.key = some x ∧ x.bitmap.testBit c.idx = true)) ∧
    -- place cell
    (∃ (d : Dev) (d1 : Dev) (key : Nat) (i : Nat) (data : Nat) (w : Nat) (o : Nat) (l : Nat) (k : Nat) (x : Rx), (d.rxOf key = some x ∧ x.place = .win w o l ∧ 64 * i < l) ∧ (d.placeAt (.rx key) x.fn w (o + 64 * i) (min 64 (l - 64 * i)) (data % 2 ^ (8 * min 64 (l - 64 * i))) = (d1, k, 0))) ∧
    -- RMA_RESPONSE_SEND
    (∃ (s : State) (src : DevId) (slot : Sid) (gen : BitVec 4) (x : Rx) (c : Cell) (k : Nat) (st : Nat) (r : Nat), (s.dev.halted = false ∧ s.dev.rxOf (keyOf src slot gen) = some x ∧ x.head = some c ∧ x.resp = some (k, st, r) ∧ x.flushing = false) ∧ (x.recv = none ∧ c.dur = false)) ∧
    -- RMA_RESPONSE_SEND (durable)
    (∃ (s : State) (src : DevId) (slot : Sid) (gen : BitVec 4) (x : Rx) (c : Cell) (st : Nat) (r : Nat) (w : Nat) (o : Nat) (l : Nat), (s.dev.halted = false ∧ s.dev.rxOf (keyOf src slot gen) = some x ∧ x.head = some c ∧ x.resp = some (1, st, r) ∧ x.flushing = false) ∧ (x.recv = none ∧ c.dur = true ∧ x.place = .win w o l)) ∧
    -- answer
    (∃ (d : Dev) (key : Nat) (kind : Nat) (x : Rx) (c : Cell), (d.rxOf key = some x ∧ x.head = some c ∧ kind ≠ 1)) ∧
    -- DUR_FLUSH_DONE
    (∃ (s : State) (src : DevId) (slot : Sid) (gen : BitVec 4) (cpl : Cpl) (tag : Nat) (k : Nat) (st : Nat) (r : Nat) (d : Dev) (h : HostRd) (x : Rx), (s.dev.halted = false ∧ s.dev.findRead (.flushReq (keyOf src slot gen)) = some tag ∧ s.dev.takeRead tag 0 cpl = (d, some h)) ∧ (d.rxOf (keyOf src slot gen) = some x ∧ x.resp = some (k, st, r))) ∧
    -- GET_SOURCE_READ_DONE
    (∃ (s : State) (job : Nat) (off : Nat) (n : Nat) (tag : Nat) (v : Nat) (d : Dev) (h : HostRd) (j : GetJob), (s.dev.halted = false ∧ s.dev.findOwn (.getSrc job) off = some (tag, n) ∧ s.dev.takeRead tag n (.ok v false) = (d, some h)) ∧ (Tbl.find d.invPoll.rma.gets job = some j ∧ j.reads = 1)) ∧
    -- get reply
    (∃ (d : Dev) (job : Nat) (j : GetJob), (Tbl.find d.rma.gets job = some j)) ∧
    -- AMO_READ_DONE
    (∃ (s : State) (job : Nat) (n : Nat) (tag : Nat) (v : Nat) (fn : Nat) (a : Nat) (d : Dev) (e : Dev) (h : HostRd) (j : AmoJob), (s.dev.halted = false ∧ s.dev.findOwn (.amo job) 0 = some (tag, n) ∧ s.dev.takeRead tag n (.ok v false) = (d, some h)) ∧ (Tbl.find d.invPoll.rma.amos job = some j ∧ j.addr = some (fn, a) ∧ j.cell.amoFn / 16 ≠ 7 ∧ e = { d.invPoll with rma.amos := Tbl.del job d.invPoll.rma.amos })) ∧
    -- RX_IDLE_CLOSE
    (∃ (s : State) (src : DevId) (slot : Sid) (gen : BitVec 4) (x : Rx), (s.dev.halted = false ∧ s.dev.rxOf (keyOf src slot gen) = some x ∧ x.held = false ∧ x.resp = none ∧ x.head = none)) ∧
    -- CAIRN_EXPIRE
    (∃ (s : State) (src : DevId) (slot : Sid) (gen : BitVec 4) (x : Cairn), (s.dev.halted = false ∧ Tbl.find s.dev.rma.cairn (keyOf src slot gen) = some x)) :=
  ⟨⟨tData (.win 0x1001 0 128), tDataCell, ((tData (.win 0x1001 0 128)).dev.taken tDataCell).updRx tDataCell.key id, _, { fn := 0, head := some tPutCell, count := some 2, place := .win 0x1001 0 128 }, { fn := 0, head := some tPutCell, count := some 2, bitmap := 2, got := 1, place := .win 0x1001 0 128 }, 0x1001, 0, 128, by decide +kernel, by decide +kernel, by decide +kernel, ⟨rfl, by decide +kernel, by decide +kernel⟩⟩,
   ⟨tData .none, tDataCell, (tData .none).dev.taken tDataCell |>.updRx tDataCell.key id, ((tData .none).dev.taken tDataCell).updRx tDataCell.key id, { fn := 0, bufs := [3] }, by decide +kernel, by decide +kernel, by decide +kernel⟩,
   ⟨tData2, tDataCell, _, { fn := 0, bitmap := 2 }, by decide +kernel, ⟨rfl, by decide +kernel, by decide +kernel⟩⟩,
   ⟨(tData (.win 0x1001 0 128)).dev, Prod.fst ((tData (.win 0x1001 0 128)).dev.placeAt (.rx tDataCell.key) 0 0x1001 64 64 7), tDataCell.key, 1, 7, 0x1001, 0, 128, 0, { fn := 0, head := some tPutCell, count := some 2, place := .win 0x1001 0 128 }, by decide +kernel, by decide +kernel⟩,
   ⟨tResp, 5, 7, 1, { fn := 0, head := some tPutCell, count := some 0, resp := some (1, 0, 0) }, tPutCell, 1, 0, 0, by decide +kernel, by decide +kernel⟩,
   ⟨tRespDur, 5, 7, 1, { fn := 0, head := some tDurCell, count := some 0, resp := some (1, 0, 0), place := .win 0x1001 0 4 }, tDurCell, 0, 0, 0x1001, 0, 4, by decide +kernel, by decide +kernel⟩,
   ⟨tResp.dev, tPutCell.key, 3, { fn := 0, head := some tPutCell, count := some 0, resp := some (1, 0, 0) }, tPutCell, by decide +kernel⟩,
   ⟨tDurRd, 5, 7, 1, .ok 0 false, 9, 1, 0, 0, (tDurRd.dev.takeRead 9 0 (.ok 0 false)).1, { fn := 0, addr := 64, why := .flushReq tDurCell.key, at_ := 0 }, { fn := 0, head := some tDurCell, count := some 0, resp := some (1, 0, 0), flushing := true }, by decide +kernel, by decide +kernel⟩,
   ⟨tGetRd, 3, 0, 4, 9, 77, (tGetRd.dev.takeRead 9 4 (.ok 77 false)).1, { fn := 0, addr := 4096, why := .own (.getSrc 3) 0 4, at_ := 0 }, { cell := tGetCell, win := 0x1001, reads := 1 }, by decide +kernel, by decide +kernel⟩,
   ⟨tGetRd.dev, 3, { cell := tGetCell, win := 0x1001, reads := 1 }, by decide +kernel⟩,
   ⟨tAmoRd, 3, 8, 9, 5, 0, 4096, (tAmoRd.dev.takeRead 9 8 (.ok 5 false)).1, _, { fn := 0, addr := 4096, why := .own (.amo 3) 0 8, at_ := 0 }, { cell := tAmoCell 6, win := 0x1001, addr := some (0, 4096), reading := true }, by decide +kernel, ⟨by decide +kernel, by decide +kernel, by decide +kernel, rfl⟩⟩,
   ⟨tData .none, 5, 7, 1, { fn := 0, bufs := [3] }, by decide +kernel⟩,
   ⟨{ dev := { tDev with rma := { cairn := [(5 * 2 ^ 20 + 7 * 16 + 1, { msgId := 0, born := 0, life := 1000 })] } } }, 5, 7, 1, { msgId := 0, born := 0, life := 1000 }, by decide +kernel⟩⟩

/-- States and operands that meet the hypotheses of each clause of SenderProgress. -/
theorem witness_SenderProgress :
    -- RX_GET_REPLY
    (∃ (s : State) (c : Cell) (x : Slot) (e : Dev) (e1 : Dev) (k : Nat), (s.dev.halted = false ∧ (c.cls == 1 && !c.head && c.dstDev == s.dev.myDev) = true) ∧ ((s.dev.taken c).slotOf c.slot = some x ∧ x.op = 2 ∧ x.outstanding = true ∧ (s.dev.taken c).slotGen c.slot = c.gen ∧ x.fail = none) ∧ (x.bitmap.testBit c.idx = false ∧ c.idx < (x.len + 63) / 64 ∧ x.got + 1 ≠ (x.len + 63) / 64) ∧ (e = (s.dev.taken c).putSlot c.slot { x with bitmap := x.bitmap ||| 2 ^ c.idx, got := x.got + 1, cmark := max x.cmark c.cmark }) ∧ (e.placeAt (.reply c.slot) x.fn x.lwin (x.loff + 64 * c.idx) (min 64 (x.len - 64 * c.idx)) (c.pay.toNat % 2 ^ (8 * min 64 (x.len - 64 * c.idx))) = (e1, k, 0))) ∧
    -- RX_GET_REPLY (twice)
    (∃ (s : State) (c : Cell) (x : Slot), (s.dev.halted = false ∧ (c.cls == 1 && !c.head && c.dstDev == s.dev.myDev) = true) ∧ ((s.dev.taken c).slotOf c.slot = some x ∧ x.op = 2 ∧ x.outstanding = true ∧ (s.dev.taken c).slotGen c.slot = c.gen ∧ x.fail = none) ∧ (x.bitmap.testBit c.idx = true)) ∧
    -- RMA_RESPONSE (ack)
    (∃ (s : State) (c : Cell) (x : Slot), (s.dev.halted = false ∧ (c.cls == 1 && c.head && c.dstDev == s.dev.myDev) = true ∧ c.p 0 8 = 1 ∧ c.p 24 1 = 1) ∧ ((s.dev.taken c).slotOf c.slot = some x ∧ x.outstanding = true ∧ (s.dev.taken c).slotGen c.slot = c.gen ∧ x.msgId = c.p 32 32 ∧ x.op = 8 ∧ x.fail = none) ∧ ((((s.dev.taken c).ev 4 2 none (some x.fn)).msgOf x.msg) = none)) ∧
    -- RMA_RESPONSE (busy)
    (∃ (s : State) (c : Cell) (x : Slot), (s.dev.halted = false ∧ (c.cls == 1 && c.head && c.dstDev == s.dev.myDev) = true ∧ c.p 0 8 = 2 ∧ c.p 24 1 = 1) ∧ ((s.dev.taken c).slotOf c.slot = some x ∧ x.outstanding = true ∧ (s.dev.taken c).slotGen c.slot = c.gen ∧ x.msgId = c.p 32 32 ∧ x.op ≠ 5 ∧ x.fail = none)) ∧
    -- RMA_RESPONSE (stale)
    (∃ (s : State) (c : Cell) (x : Slot), (s.dev.halted = false ∧ (c.cls == 1 && c.head && c.dstDev == s.dev.myDev) = true) ∧ ((s.dev.taken c).slotOf c.slot = some x ∧ (s.dev.taken c).slotGen c.slot ≠ c.gen)) ∧
    -- RMA_RETRY_TIMEOUT
    (∃ (s : State) (slot : Sid) (x : Slot) (t : Nat), (s.dev.halted = false ∧ s.dev.slotOf slot.toNat = some x ∧ x.txAt = some t ∧ x.op ≠ 5 ∧ x.st = .out)) ∧
    -- SLOT_QUIET_EXPIRE
    (∃ (s : State) (slot : Sid) (x : Slot), (s.dev.halted = false ∧ s.dev.slotOf slot.toNat = some x ∧ x.st = .quiet)) ∧
    -- GET_RESERVE
    (∃ (s : State) (slot : Sid) (x : Slot), (s.dev.halted = false ∧ s.dev.slotOf slot.toNat = some x ∧ x.st = .hold ∧ (s.dev.msgOf x.msg).bind Msg.queue = none)) ∧
    -- MSG_READ_DONE
    (∃ (s : State) (slot : Sid) (off : Nat) (n : Nat) (tag : Nat) (v : Nat) (d : Dev) (h : HostRd), (s.dev.halted = false ∧ s.dev.findOwn (.src slot.toNat) off = some (tag, n) ∧ s.dev.takeRead tag n (.ok v false) = (d, some h)) ∧ (((d.invPoll.slotOf slot.toNat).bind (fun x => d.invPoll.msgOf x.msg)).bind Msg.queue = none)) ∧
    -- src read
    (∃ (d : Dev) (i : Nat) (x : Slot), (d.slotOf i = some x ∧ x.reads ≤ 1 ∧ x.fail = none)) ∧
    -- CC_ADMIT
    (∃ (s : State) (dev : DevId) (e : CcEnt) (i : Nat) (x : Slot), (s.dev.halted = false ∧ (s.dev.ccTouch dev.toNat).ccFind dev.toNat = some e ∧ (s.dev.ccTouch dev.toNat).ccMay e = true) ∧ ((s.dev.ccTouch dev.toNat).ccNext e = some (i, x))) ∧
    -- CC_ENTRY_IDLE_RELEASE
    (∃ (s : State) (dev : DevId) (e : CcEnt), (s.dev.halted = false ∧ s.dev.ccFind dev.toNat = some e ∧ e.charge = 0 ∧ e.waiting = [])) ∧
    -- CC_REPROBE_END
    (∃ (s : State) (dev : DevId) (e : CcEnt) (t : Nat), (s.dev.halted = false ∧ s.dev.ccFind dev.toNat = some e ∧ e.reprobe = some t)) ∧
    -- cc may
    (∃ (e : CcEnt), (e.reprobe = none)) :=
  ⟨⟨tReply, tReplyCell, tGetSlot, tReplyE, Prod.fst (tReplyE.placeAt (.reply 7) 0 0x1001 0 64 (9 % 2 ^ 512)), 0, by decide +kernel, by decide +kernel, by decide +kernel, rfl, by decide +kernel⟩,
   ⟨tReplyTwice, tReplyCell, { tGetSlot with bitmap := 1 }, by decide +kernel, by decide +kernel, by decide +kernel⟩,
   ⟨tAck, tAckCell, { tGetSlot with op := 8 }, by decide +kernel, by decide +kernel, by decide +kernel⟩,
   ⟨tBusy, tBusyCell, tGetSlot, by decide +kernel, by decide +kernel⟩,
   ⟨{ dev := { tBusy.dev with rma := { inbox := [tBusyCell], slots := [(7, tGetSlot)] } } }, tBusyCell, tGetSlot, by decide +kernel, by decide +kernel⟩,
   ⟨tReply, 7, tGetSlot, 0, by decide +kernel⟩,
   ⟨{ dev := { tDev with rma := { slots := [(7, { tGetSlot with st := .quiet })] } } }, 7, { tGetSlot with st := .quiet }, by decide +kernel⟩,
   ⟨{ dev := { tDev with rma := { slots := [(7, { tGetSlot with st := .hold })] } } }, 7, { tGetSlot with st := .hold }, by decide +kernel⟩,
   ⟨tSrcRd, 7, 0, 4, 9, 77, (tSrcRd.dev.takeRead 9 4 (.ok 77 false)).1, { fn := 0, addr := 4096, why := .own (.src 7) 0 4, at_ := 0 }, by decide +kernel, by decide +kernel⟩,
   ⟨tReply.dev, 7, tGetSlot, by decide +kernel⟩,
   ⟨tCc, 5, { tCcEnt with waiting := [7], recency := 1 }, 7, { tGetSlot with st := .wait }, by decide +kernel, by decide +kernel⟩,
   ⟨{ dev := { tDev with cc := { ents := [(5, tCcEnt)] } } }, 5, tCcEnt, by decide +kernel⟩,
   ⟨{ dev := { tDev with cc := { ents := [(5, { tCcEnt with reprobe := some 9 })] } } }, 5, { tCcEnt with reprobe := some 9 }, 9, by decide +kernel⟩,
   ⟨tCcEnt, by decide +kernel⟩⟩

/-- States and operands that meet the hypotheses of each clause of MatchingTimers. -/
theorem witness_MatchingTimers :
    -- take msg
    (∃ (d : Dev) (key : Nat) (c : Cell), ((d.rxOf key).bind Rx.head = some c)) ∧
    -- take matched (busy)
    (∃ (d : Dev) (c : Cell), (c.op = 3 ∧ d.flag F.MTC_FN_ARR_EV_EN c.dstFn = true ∧ d.evRoomFor (d.rd F.MTC_FN_ARR_SLOT c.dstFn) = none)) ∧
    -- MT_HOLD_TIMEOUT
    (∃ (s : State) (fn : Fid) (src : DevId) (slot : Sid) (gen : BitVec 4) (k : Nat) (o : Order) (x : Nat × Nat × Nat), (s.dev.halted = false) ∧ (s.dev.mtc.orders.find? (fun e => e.1 / 2 ^ 28 == fn.val && e.2.held.any (fun h => h.2.1 == keyOf src slot gen)) = some (k, o)) ∧ (o.held.find? (fun h => h.2.1 == keyOf src slot gen) = some x)) ∧
    -- ORDER_IDLE_RELEASE
    (∃ (s : State) (fn : Fid) (src : Endp) (o : Order), (s.dev.halted = false ∧ s.dev.order (orderKey fn src.toNat) = some o ∧ o.held = [])) ∧
    -- SEND_STREAM_RELEASE
    (∃ (s : State) (fn : Fid) (dst : Endp) (x : Stream), (s.dev.halted = false ∧ Tbl.find s.dev.mtc.streams (orderKey fn dst.toNat) = some x ∧ x.open_ = [])) ∧
    -- MT_UX_COPY_DONE
    (∃ (s : State) (fn : Fid) (id : Nat) (rid : Nat) (u : UxMsg) (a : Active) (d : Dev), (s.dev.halted = false ∧ (s.dev.dom fn).ux.find? (fun u => u.id == id) = some u ∧ u.matched = some rid ∧ u.rx = none) ∧ (Tbl.find s.dev.mtc.active rid = some a ∧ a.writes = 0) ∧ (d = s.dev.updDom fn (fun m => { m with ux := m.ux.filter (fun x => x.id != id) }))) ∧
    -- RCQ_CONS_WRITE
    (∃ (s : State), (s.dev.halted = false)) ∧
    -- MT_DOMAIN_DISABLE
    (∃ (s : State) (fn : Fid), (s.dev.flag F.MTC_FN_CFG_EN fn = true ∧ (s.dev.wr F.MTC_FN_CFG_EN fn 0).halted = false)) :=
  ⟨⟨{ (tRxD []) with rma := { rx := [(tKey, { fn := 0, head := some tSendCell })] } }, tKey, tSendCell, by decide +kernel⟩,
   ⟨{ (tRxD [(F.MTC_FN_ARR_EV_EN, 0, 1), (F.ENG_SLOT_CTL_CLUSTERS, 0, 1)]) with eng := { pend := [(0, List.replicate 256 { slot := 0, entry := 0, fn := 0, kind := 1, w1 := 0, w2 := 0, w3 := 0, w4 := 0, acc := none })] } }, tSendCell, by decide +kernel⟩,
   ⟨tOrd, 0, 5, 7, 1, 5 * 1024, tOrder, (3, tKey, 50), by decide +kernel, by decide +kernel, by decide +kernel⟩,
   ⟨{ dev := { tDev with mtc := { orders := [(5 * 1024, { e := 0, last := 0 })] } } }, 0, 0x1400, { e := 0, last := 0 }, by decide +kernel⟩,
   ⟨{ dev := { tDev with mtc := { streams := [(5 * 1024, { last := 0 })] } } }, 0, 0x1400, { last := 0 }, by decide +kernel⟩,
   ⟨tUx, 0, 4, 6, tUxMsg, { recv := tRecv, mail := tUxMsg.mail, ux := some 4 }, _, by decide +kernel, by decide +kernel, rfl⟩,
   ⟨tR [], by decide +kernel⟩,
   ⟨tR [(F.MTC_FN_CFG_EN, 0, 1)], 0, by decide +kernel⟩⟩

/-- States and operands that meet the hypotheses of each clause of MatchChoosesTheLowestPsn. -/
theorem witness_MatchChoosesTheLowestPsn :
    -- takes
    (∃ (r : Recv) (bits : Nat), (bits < 2 ^ 64 ∧ r.bits < 2 ^ 64 ∧ r.ignore < 2 ^ 64)) ∧
    -- lowest (some)
    (∃ (src : Nat) (bits : Nat) (l : List Recv) (r : Recv), (lowestPsn src bits l = some r)) :=
  ⟨⟨tRecv, 0, by decide +kernel⟩,
   ⟨0, 0, [tRecv], tRecv, by decide +kernel⟩⟩

/-- States and operands that meet the hypotheses of each clause of CollectivePhases. -/
theorem witness_CollectivePhases :
    -- RX_COL_UP
    (∃ (s : State) (c : Cell) (x : ColCtx) (k : Nat) (p : ColPeer) (d : Dev), (s.dev.halted = false ∧ s.dev.isCol c 0 = true ∧ (s.dev.taken c).cSt (c.slot % 4096) = cActive) ∧ ((s.dev.taken c).ctxOf (c.slot % 4096) = x ∧ x.from_ c.srcDev = some (k + 1, p) ∧ c.gen = (s.dev.taken c).cUp (c.slot % 4096) % 16) ∧ (c.idx < x.upCells ∧ Tbl.has (x.heard (k + 1) 0 ((s.dev.taken c).cUp (c.slot % 4096))).upIn (k * 4096 + c.idx) = false) ∧ (d = ((s.dev.taken c).putCtx (c.slot % 4096) (x.heard (k + 1) 0 ((s.dev.taken c).cUp (c.slot % 4096)))).putCtx (c.slot % 4096)
          { x.heard (k + 1) 0 ((s.dev.taken c).cUp (c.slot % 4096)) with upIn := Tbl.put (k * 4096 + c.idx) c.pay.toNat (x.heard (k + 1) 0 ((s.dev.taken c).cUp (c.slot % 4096))).upIn })) ∧
    -- RX_COL_UP (again)
    (∃ (s : State) (c : Cell) (k : Nat) (p : ColPeer), (s.dev.halted = false ∧ s.dev.isCol c 0 = true ∧ (s.dev.taken c).cSt (c.slot % 4096) = cActive) ∧ (((s.dev.taken c).ctxOf (c.slot % 4096)).from_ c.srcDev = some (k + 1, p) ∧ (s.dev.taken c).cUp (c.slot % 4096) ≠ 0) ∧ (c.gen = ((s.dev.taken c).cUp (c.slot % 4096) - 1) % 16 ∧ c.gen ≠ (s.dev.taken c).cUp (c.slot % 4096) % 16)) ∧
    -- RX_COL_UP_EXP
    (∃ (s : State) (c : Cell) (x : ColCtx) (k : Nat) (p : ColPeer) (d : Dev), (s.dev.halted = false ∧ s.dev.isCol c 2 = true ∧ (s.dev.taken c).cSt (c.slot % 4096) = cActive) ∧ ((s.dev.taken c).ctxOf (c.slot % 4096) = x ∧ x.from_ c.srcDev = some (k + 1, p) ∧ c.gen = (s.dev.taken c).cUp (c.slot % 4096) % 16 ∧ x.twoPass = true) ∧ (c.idx < x.expCells ∧ Tbl.has (x.heard (k + 1) 2 ((s.dev.taken c).cUp (c.slot % 4096))).expIn (k * 4096 + c.idx) = false) ∧ (d = ((s.dev.taken c).putCtx (c.slot % 4096) (x.heard (k + 1) 2 ((s.dev.taken c).cUp (c.slot % 4096)))).putCtx (c.slot % 4096)
          { x.heard (k + 1) 2 ((s.dev.taken c).cUp (c.slot % 4096)) with expIn := Tbl.put (k * 4096 + c.idx) c.pay.toNat (x.heard (k + 1) 2 ((s.dev.taken c).cUp (c.slot % 4096))).expIn })) ∧
    -- RX_COL_DOWN
    (∃ (s : State) (c : Cell) (x : ColCtx) (p : ColPeer) (d : Dev), (s.dev.halted = false ∧ s.dev.isCol c 1 = true ∧ (s.dev.taken c).cSt (c.slot % 4096) = cActive) ∧ ((s.dev.taken c).ctxOf (c.slot % 4096) = x ∧ x.from_ c.srcDev = some (0, p) ∧ c.gen = (s.dev.taken c).cEpoch (c.slot % 4096) % 16) ∧ (c.idx < x.downCells ∧ Tbl.has (x.heard 0 1 ((s.dev.taken c).cEpoch (c.slot % 4096))).down c.idx = false) ∧ (d = ((s.dev.taken c).putCtx (c.slot % 4096) (x.heard 0 1 ((s.dev.taken c).cEpoch (c.slot % 4096)))).putCtx (c.slot % 4096)
          { x.heard 0 1 ((s.dev.taken c).cEpoch (c.slot % 4096)) with down := Tbl.put c.idx c.pay.toNat (x.heard 0 1 ((s.dev.taken c).cEpoch (c.slot % 4096))).down })) ∧
    -- RX_COL_DOWN_EXP
    (∃ (s : State) (c : Cell) (x : ColCtx) (p : ColPeer) (d : Dev), (s.dev.halted = false ∧ s.dev.isCol c 3 = true ∧ (s.dev.taken c).cSt (c.slot % 4096) = cActive) ∧ ((s.dev.taken c).ctxOf (c.slot % 4096) = x ∧ x.from_ c.srcDev = some (0, p) ∧ c.gen = (s.dev.taken c).cEpoch (c.slot % 4096) % 16 ∧ x.twoPass = true) ∧ (c.idx < x.expCells ∧ Tbl.has (x.heard 0 3 ((s.dev.taken c).cEpoch (c.slot % 4096))).expAll c.idx = false) ∧ (d = ((s.dev.taken c).putCtx (c.slot % 4096) (x.heard 0 3 ((s.dev.taken c).cEpoch (c.slot % 4096)))).putCtx (c.slot % 4096)
          { x.heard 0 3 ((s.dev.taken c).cEpoch (c.slot % 4096)) with expAll := Tbl.put c.idx c.pay.toNat (x.heard 0 3 ((s.dev.taken c).cEpoch (c.slot % 4096))).expAll })) ∧
    -- RX_COL_UP_ACK
    (∃ (s : State) (c : Cell) (x : ColCtx) (p : ColPeer) (v : SentVec), (s.dev.halted = false ∧ s.dev.isCol c 4 = true ∧ (s.dev.taken c).ctxOf (c.slot % 4096) = x ∧ x.from_ c.srcDev = some (0, p)) ∧ (c.p 32 1 = 0) ∧ (x.sent.find? (fun v => v.peer == 0 && v.kind == 0 && v.epoch % 2 ^ 32 == c.p 0 32 && v.cells.length == v.total) = some v) ∧ (v.first + 262144 ≤ ((s.dev.taken c).putCtx (c.slot % 4096) { x with sent := x.sent.erase v }).ns)) ∧
    -- RX_COL_DOWN_ACK
    (∃ (s : State) (c : Cell) (x : ColCtx) (k : Nat) (p : ColPeer) (v : SentVec), (s.dev.halted = false ∧ s.dev.isCol c 5 = true ∧ (s.dev.taken c).ctxOf (c.slot % 4096) = x ∧ x.from_ c.srcDev = some (k + 1, p)) ∧ (c.p 32 1 = 0) ∧ (x.sent.find? (fun v => v.peer == (k + 1) && v.kind == 1 && v.epoch % 2 ^ 32 == c.p 0 32 && v.cells.length == v.total) = some v) ∧ (v.first + 262144 ≤ ((s.dev.taken c).putCtx (c.slot % 4096) { x with sent := x.sent.erase v }).ns)) ∧
    -- COL_PHASE_RETRY
    (∃ (s : State) (n : Cid) (k : Nat) (due : Nat) (v : SentVec) (p : ColPeer) (d : Dev) (e : Dev) (cs : List TxCell), (s.dev.halted = false ∧ (s.dev.ctxOf n.toNat).firstDue k = some (v, due) ∧ (s.dev.ctxOf n.toNat).peer k = some p) ∧ (s.dev.cSt n.toNat = cActive ∧ v.attempt < d.retryLimit ∧ d = s.dev.advanceTo due) ∧ (cs = v.cells.map (fun (x : Nat × Nat) => d.colCell n.toNat p v.kind v.epoch x.1 (x.1 + 1 = v.total) x.2 true)) ∧ (e = ((d.updCtx n.toNat (fun c => { c with sent := c.sent.map (fun x => if x = v then { v with attempt := v.attempt + 1, sentAt := none } else x) })).colUnsend n.toNat (fun t => t.retx && cs.any (fun s =>
          s.cell.dstDev == t.cell.dstDev && s.cell.slot == t.cell.slot && s.cell.gen == t.cell.gen))).ev 6 5 none
          (some ((d.updCtx n.toNat (fun c => { c with sent := c.sent.map (fun x => if x = v then { v with attempt := v.attempt + 1, sentAt := none } else x) })).cFn n.toNat)))) ∧
    -- COL_PHASE_RETRY (lost)
    (∃ (s : State) (n : Cid) (k : Nat) (due : Nat) (v : SentVec) (p : ColPeer) (d : Dev), (s.dev.halted = false ∧ (s.dev.ctxOf n.toNat).firstDue k = some (v, due) ∧ (s.dev.ctxOf n.toNat).peer k = some p) ∧ (s.dev.cSt n.toNat = cActive ∧ d.retryLimit ≤ v.attempt ∧ d = s.dev.advanceTo due)) ∧
    -- COL_CONTRIB_READ_DONE
    (∃ (s : State) (n : Cid) (off : Nat) (key : Nat) (tag : Nat) (m : Nat) (v : Nat) (d : Dev) (h : HostRd), (s.dev.halted = false ∧ s.dev.findContrib n.toNat off = some key) ∧ (s.dev.findOwn (.colIn key) off = some (tag, m) ∧ s.dev.takeRead tag m (.ok v false) = (d, some h))) :=
  ⟨⟨tColRx 0, tColCell 0, tColX, 0, tPeer 5, _, by decide +kernel, by decide +kernel, by decide +kernel, rfl⟩,
   ⟨tColRx2, tColCell 0, 0, tPeer 5, by decide +kernel, by decide +kernel, by decide +kernel⟩,
   ⟨tColRx 2, tColCell 2, tColX, 0, tPeer 5, _, by decide +kernel, by decide +kernel, by decide +kernel, rfl⟩,
   ⟨tColDn 1, tColCell 1, tColY, tPeer 5, _, by decide +kernel, by decide +kernel, by decide +kernel, rfl⟩,
   ⟨tColDn 3, tColCell 3, tColY, tPeer 5, _, by decide +kernel, by decide +kernel, by decide +kernel, rfl⟩,
   ⟨tColAck 4 0, tColCell 4, { tColY with sent := [tVec 0 0] }, tPeer 5, tVec 0 0, by decide +kernel, by decide +kernel, by decide +kernel, by decide +kernel⟩,
   ⟨tColAck 5 1, tColCell 5, { tColX with sent := [tVec 1 1] }, 0, tPeer 5, tVec 1 1, by decide +kernel, by decide +kernel, by decide +kernel, by decide +kernel⟩,
   ⟨tColAck 5 1, 5, 1, nsPs (retryInterval 0 0), tVec 1 1, tPeer 5, _, _, _, by decide +kernel, ⟨by decide +kernel, by decide +kernel, rfl⟩, rfl, rfl⟩,
   ⟨tColLost, 5, 1, nsPs (retryInterval 0 20), { tVec 1 1 with attempt := 20 }, tPeer 5, _, by decide +kernel, ⟨by decide +kernel, by decide +kernel, rfl⟩⟩,
   ⟨tColRead, 5, 0, 5 + 4096, 9, 8, 77, (tColRead.dev.takeRead 9 8 (.ok 77 false)).1, { fn := 0, addr := 4096, why := .own (.colIn (5 + 4096)) 0 8, at_ := 0 }, by decide +kernel, by decide +kernel⟩⟩

/-- States and operands that meet the hypotheses of each clause of CollectiveLinksAndAborts. -/
theorem witness_CollectiveLinksAndAborts :
    -- RX_COL_LINK
    (∃ (s : State) (c : Cell) (k : Nat) (p : ColPeer), (s.dev.halted = false ∧ s.dev.isCol c 6 = true ∧ ((s.dev.taken c).ctxOf (c.slot % 4096)).from_ c.srcDev = some (k, p)) ∧ ((s.dev.taken c).cSt (c.slot % 4096) = cActive ∧ p.endp = c.p 64 28 ∧ p.ctx = c.p 92 12 ∧ (k == 0) = (c.p 104 1 == 1)) ∧ (c.p 0 32 = (s.dev.taken c).rd F.COL_CTX_TREE_TREE (c.slot % 4096) ∧ c.p 32 32 = ((s.dev.taken c).ctxOf (c.slot % 4096)).fp)) ∧
    -- RX_COL_LINK (differs)
    (∃ (s : State) (c : Cell) (k : Nat) (p : ColPeer), (s.dev.halted = false ∧ s.dev.isCol c 6 = true ∧ ((s.dev.taken c).ctxOf (c.slot % 4096)).from_ c.srcDev = some (k, p)) ∧ ((s.dev.taken c).cSt (c.slot % 4096) = cActive ∧ p.endp = c.p 64 28 ∧ p.ctx = c.p 92 12 ∧ (k == 0) = (c.p 104 1 == 1)) ∧ ((c.p 0 32 != (s.dev.taken c).rd F.COL_CTX_TREE_TREE (c.slot % 4096)) = true)) ∧
    -- RX_COL_LINK_ACK
    (∃ (s : State) (c : Cell) (k : Nat) (p : ColPeer), (s.dev.halted = false ∧ s.dev.isCol c 7 = true ∧ ((s.dev.taken c).ctxOf (c.slot % 4096)).from_ c.srcDev = some (k, p)) ∧ ((s.dev.taken c).cSt (c.slot % 4096) = cLinking ∧ c.p 0 16 = 0)) ∧
    -- RX_COL_LINK_ACK (refused)
    (∃ (s : State) (c : Cell) (k : Nat) (p : ColPeer), (s.dev.halted = false ∧ s.dev.isCol c 7 = true ∧ ((s.dev.taken c).ctxOf (c.slot % 4096)).from_ c.srcDev = some (k, p)) ∧ ((s.dev.taken c).cSt (c.slot % 4096) = cLinking ∧ (c.p 0 16 != 0) = true)) ∧
    -- RX_COL_ABORT
    (∃ (s : State) (c : Cell) (k : Nat) (p : ColPeer), (s.dev.halted = false ∧ s.dev.isCol c 8 = true ∧ ((s.dev.taken c).ctxOf (c.slot % 4096)).from_ c.srcDev = some (k, p))) ∧
    -- RX_COL_KIND_RESERVED
    (∃ (s : State) (c : Cell), (s.dev.halted = false ∧ (c.cls == 2 && c.dstDev == s.dev.myDev && decide (9 ≤ c.slot / 4096)) = true)) ∧
    -- COL_LINK_REPEAT
    (∃ (s : State) (n : Cid) (d : Dev), (s.dev.halted = false ∧ s.dev.cSt n.toNat = cLinking) ∧ (d = (s.dev.advanceTo ((s.dev.ctxOf n.toNat).linkAt + usPs 20)).updCtx n.toNat (fun c => { c with linkAt := (s.dev.advanceTo ((s.dev.ctxOf n.toNat).linkAt + usPs 20)).ps }))) ∧
    -- COL_LINK_TIMEOUT
    (∃ (s : State) (n : Cid), (s.dev.halted = false ∧ s.dev.cSt n.toNat = cLinking)) ∧
    -- COL_ABORT_RETRY
    (∃ (s : State) (n : Cid) (k : Nat) (t : Nat) (p : ColPeer) (d : Dev), (s.dev.halted = false ∧ (s.dev.ctxOf n.toNat).peer k = some p ∧ p.abortAt = some t) ∧ (d = s.dev.advanceTo (t + nsPs (retryInterval p.base p.tries)))) ∧
    -- COL_CTX_FREE
    (∃ (s : State) (n : Cid) (d : Dev), (s.dev.halted = false ∧ s.dev.cSt n.toNat = cDraining) ∧ ((s.dev.ctxOf n.toNat).peers.any (fun e => !e.2.echo && !e.2.given) = false) ∧ ((Tbl.get s.dev.sch.col [] (s.dev.cFn n.toNat) ++ s.dev.sch.retx).any (fun t => t.col == some n.toNat) = false) ∧ (d = (s.dev.advanceTo ((s.dev.ctxOf n.toNat).lastSent + s.dev.quietPs)).freeAll (s.dev.ctxOf n.toNat).bufs 3 n.toNat)) ∧
    -- COL_CTX_ABORT
    (∃ (s : State) (n : Cid), (s.dev.halted = false ∧ (s.dev.cSt n.toNat = cActive ∨ s.dev.cSt n.toNat = cLinking))) ∧
    -- COL_CTX_ABORT (ignored)
    (∃ (s : State) (n : Cid), (s.dev.halted = false ∧ (s.dev.cSt n.toNat != cLinking && s.dev.cSt n.toNat != cActive) = true)) :=
  ⟨⟨tColL 6 tLinkPay, tLinkCell, 1, tPeer 5, by decide +kernel, by decide +kernel, by decide +kernel⟩,
   ⟨tColL 6 (tLinkPay + 1), mkCell 0 0 5 (5 + 6 * 4096) 0 0 false true 2 (tLinkPay + 1), 1, tPeer 5, by decide +kernel, by decide +kernel, by decide +kernel⟩,
   ⟨tColK 7 1 0, mkCell 0 0 5 (5 + 7 * 4096) 0 0 false true 2 0, 1, tPeer 5, by decide +kernel, by decide +kernel⟩,
   ⟨tColK 7 1 9, mkCell 0 0 5 (5 + 7 * 4096) 0 0 false true 2 9, 1, tPeer 5, by decide +kernel, by decide +kernel⟩,
   ⟨tColK 8 2 1, mkCell 0 0 5 (5 + 8 * 4096) 0 0 false true 2 1, 1, tPeer 5, by decide +kernel⟩,
   ⟨tColK 9 2 0, mkCell 0 0 5 (5 + 9 * 4096) 0 0 false true 2 0, by decide +kernel⟩,
   ⟨tColK 7 1 0, 5, _, by decide +kernel, rfl⟩,
   ⟨tColK 7 1 0, 5, by decide +kernel⟩,
   ⟨tColAb, 5, 1, 0, { tPeer 5 with abortAt := some 0 }, _, by decide +kernel, rfl⟩,
   ⟨tColFr, 5, _, by decide +kernel, by decide +kernel, by decide +kernel, rfl⟩,
   ⟨tColRx 0, 5, by decide +kernel⟩,
   ⟨tR [], 5, by decide +kernel⟩⟩

/-- States and operands that meet the hypotheses of each clause of CellForwarding. -/
theorem witness_CellForwarding :
    -- CELL_FORWARD (sent)
    (∃ (s : State) (p : Pid) (vc : Fin 16) (c : InCell) (d : Dev) (via : Nat) (q : Nat) (k : Nat), (s.dev.dark = false ∧ s.dev.inCell p vc = some c ∧ c.hold = none ∧ (s.dev.pwr.state = .run ∨ c.cell.cls = 3)) ∧ (s.dev.route c.cell (some (s.dev.rd F.RTE_PORT_CFG_KIND p)) = (d, via, .port q k) ∧ ¬ d.hopLimit ≤ c.cell.hops)) ∧
    -- CELL_FORWARD (held)
    (∃ (s : State) (p : Pid) (vc : Fin 16) (c : InCell) (d : Dev) (via : Nat) (q : Nat) (k : Nat), (s.dev.dark = false ∧ s.dev.inCell p vc = some c ∧ c.hold = none ∧ (s.dev.pwr.state = .run ∨ c.cell.cls = 3)) ∧ (s.dev.route c.cell (some (s.dev.rd F.RTE_PORT_CFG_KIND p)) = (d, via, .wake q k) ∧ ¬ d.hopLimit ≤ c.cell.hops)) ∧
    -- CELL_FORWARD (again)
    (∃ (s : State) (p : Pid) (vc : Fin 16) (c : InCell) (h : Hold) (via : Nat) (q : Nat) (k : Nat), (s.dev.dark = false ∧ s.dev.inCell p vc = some c ∧ c.hold = some h ∧ (s.dev.pwr.state = .run ∨ c.cell.cls = 3)) ∧ (s.dev.reroute c.cell (some (s.dev.rd F.RTE_PORT_CFG_KIND p)) h = (via, .port q k) ∧ ¬ s.dev.hopLimit ≤ c.cell.hops)) ∧
    -- CELL_FORWARD (hops)
    (∃ (s : State) (p : Pid) (vc : Fin 16) (c : InCell) (d : Dev) (via : Nat) (r : RouteTo), (s.dev.dark = false ∧ s.dev.inCell p vc = some c ∧ c.hold = none ∧ (s.dev.pwr.state = .run ∨ c.cell.cls = 3)) ∧ (s.dev.route c.cell (some (s.dev.rd F.RTE_PORT_CFG_KIND p)) = (d, via, r) ∧ r ≠ .none ∧ d.hopLimit ≤ c.cell.hops)) ∧
    -- CELL_FORWARD (no route)
    (∃ (s : State) (p : Pid) (vc : Fin 16) (c : InCell) (d : Dev) (via : Nat), (s.dev.dark = false ∧ s.dev.inCell p vc = some c ∧ c.hold = none ∧ (s.dev.pwr.state = .run ∨ c.cell.cls = 3)) ∧ (s.dev.route c.cell (some (s.dev.rd F.RTE_PORT_CFG_KIND p)) = (d, via, .none))) ∧
    -- CELL_FORWARD (safe)
    (∃ (s : State) (p : Pid) (vc : Fin 16) (c : InCell), (s.dev.dark = false ∧ s.dev.inCell p vc = some c ∧ s.dev.pwr.state = .safe ∧ (c.cell.cls != 3) = true)) ∧
    -- CELL_FORWARD (none)
    (∃ (s : State) (p : Pid) (vc : Fin 16), (s.dev.inCell p vc = none)) ∧
    -- CELL_RESIDENCE_EXPIRE
    (∃ (s : State) (p : Pid) (vc : Fin 16) (x : Stay) (d : Dev), (s.dev.dark = false ∧ longest (s.dev.stays p vc) = some x) ∧ (d = (s.dev.advanceTo (x.since + s.dev.residence)).bump F.RTE_DROP_RESIDENCE)) ∧
    -- CELL_RESIDENCE_EXPIRE (none)
    (∃ (s : State) (p : Pid) (vc : Fin 16), (s.dev.dark = false ∧ s.dev.stays p vc = [])) ∧
    -- PORT_REDISCOVER
    (∃ (s : State), (s.dev.dark = false)) :=
  ⟨⟨tRoute, 3, 4, { cell := tTransit 0, shared := true, since := 0 }, tRoute.dev, 4095, 4, 2, by decide +kernel, by decide +kernel⟩,
   ⟨tRouteP, 3, 4, { cell := tTransit 0, shared := true, since := 0 }, tRouteP.dev, 4095, 4, 2, by decide +kernel, by decide +kernel⟩,
   ⟨tRouteH, 3, 4, { cell := tTransit 0, shared := true, since := 0, hold := some ⟨4, 2, 4095⟩ }, ⟨4, 2, 4095⟩, 4095, 4, 2, by decide +kernel, by decide +kernel⟩,
   ⟨tRoute15, 3, 4, { cell := tTransit 15, shared := true, since := 0 }, tRoute15.dev, 4095, .port 4 2, by decide +kernel, by decide +kernel⟩,
   ⟨tFwd 0, 3, 4, { cell := tTransit 0, shared := true, since := 0 }, (tFwd 0).dev, 4095, by decide +kernel, by decide +kernel⟩,
   ⟨{ dev := { (tFwd 0).dev with pwr := { state := .safe } } }, 3, 4, { cell := tTransit 0, shared := true, since := 0 }, by decide +kernel⟩,
   ⟨tR [], 3, 4, by decide +kernel⟩,
   ⟨tFwd 0, 3, 4, .inb { cell := tTransit 0, shared := true, since := 0 }, _, by decide +kernel, rfl⟩,
   ⟨tR [], 3, 4, by decide +kernel⟩,
   ⟨tR [(F.RTE_PORT_STATE_STATE, 3, 3)], by decide +kernel⟩⟩

/-- States and operands that meet the hypotheses of each clause of CellInjection. -/
theorem witness_CellInjection :
    -- SCH_INJECT (ctl)
    (∃ (s : State) (lanes : BitVec 4) (t : TxCell) (l : List TxCell), (s.dev.dark = false ∧ s.dev.injRoom lanes 3 = true ∧ s.dev.sch.ctl = t :: l)) ∧
    -- SCH_INJECT (rsp)
    (∃ (s : State) (lanes : BitVec 4) (t : TxCell) (l : List TxCell), (s.dev.dark = false ∧ s.dev.halted = false ∧ (s.dev.sch.ctl = [] ∨ s.dev.injRoom lanes 3 = false)) ∧ (s.dev.injRoom lanes 1 = true ∧ s.dev.sch.rsp = t :: l)) ∧
    -- SCH_INJECT (retx)
    (∃ (s : State) (lanes : BitVec 4) (t : TxCell), (s.dev.dark = false ∧ s.dev.halted = false ∧ s.dev.sch.ctl = [] ∧ s.dev.sch.rsp = []) ∧ (s.dev.sch.retx.find? (fun t => s.dev.injRoom lanes t.cls) = some t)) ∧
    -- SCH_INJECT (new)
    (∃ (s : State), (s.dev.dark = false ∧ s.dev.halted = false ∧ s.dev.sch.ctl = [] ∧ s.dev.sch.rsp = [] ∧ s.dev.sch.retx = [])) ∧
    -- SCH_INJECT (dark)
    (∃ (s : State), (s.dev.dark = true)) ∧
    -- inject (refused)
    (∃ (d : Dev) (e : Dev) (t : TxCell) (via : Nat), (d.route t.cell none = (e, via, .none) ∧ (t.cell.dstDev = d.myDev → d.flag F.RTE_ID_ASSIGNED = false) ∧ t.cls ≠ 3)) :=
  ⟨⟨tInj, 8, tCtlCell, [], by decide +kernel⟩,
   ⟨tInjR, 2, { tCtlCell with cls := 1 }, [], by decide +kernel, by decide +kernel⟩,
   ⟨tInjX, 2, { tCtlCell with cls := 1 }, by decide +kernel, by decide +kernel⟩,
   ⟨tR [], by decide +kernel⟩,
   ⟨{ dev := { tDev with pwr := { state := .off } } }, by decide +kernel⟩,
   ⟨tInjR.dev, (tInjR.dev.route tCtlCell.cell none).1, { tCtlCell with cls := 1 }, 4095, ⟨Prod.ext rfl (by decide +kernel), by decide +kernel, by decide +kernel⟩⟩⟩

/-- States and operands that meet the hypotheses of each clause of TokenBuckets. -/
theorem witness_TokenBuckets :
    -- SHAPER_ENABLE
    (∃ (s : State) (fn : Fid) (d : Dev), (d = s.dev.wr F.SCH_FN_CFG_SHAPE_EN fn 1)) ∧
    -- METER_ENABLE
    (∃ (s : State) (fn : Fid) (d : Dev), (d = s.dev.wr F.SCH_FN_CFG_METER_EN fn 1)) ∧
    -- UDP_ENABLE
    (∃ (s : State) (q : Qid) (d : Dev), (d = s.dev.wr F.SCH_UDP_EN q 1)) ∧
    -- SCH_REFILL
    (∃ (s : State), (s.dev.dark = false) ∧ (s.dev.sch.tokens.Pairwise (fun a b => a.1 < b.1) ∧ s.dev.sch.udp.Pairwise (fun a b => a.1 < b.1) ∧ s.dev.sch.tp.Pairwise (fun a b => a.1 < b.1))) ∧
    -- SCH_REFILL (dark)
    (∃ (s : State), (s.dev.dark = true)) :=
  ⟨⟨tR [], 0, _, rfl⟩,
   ⟨tR [], 0, _, rfl⟩,
   ⟨tR [], 3, _, rfl⟩,
   ⟨tR [], by decide +kernel, by decide +kernel⟩,
   ⟨{ dev := { tDev with pwr := { state := .off } } }, by decide +kernel⟩⟩

/-- States and operands that meet the hypotheses of each clause of TimeGates. -/
theorem witness_TimeGates :
    -- GATE_ARM
    (∃ (s : State) (p : Pid) (k : Nat) (n : Nat) (b : Nat), ((s.dev.gateSt p).armed = none ∧ k = 1 - s.dev.rd F.SCH_GATE_CTL_ACTIVE_BANK p ∧ n = clampTo 1 64 (s.dev.rd F.SCH_GATE_CTL_PEND_LEN p)) ∧ (b = (s.dev.reg R.SCH_GATE_PBASE p).toNat ∧ s.dev.ns + 1000 ≤ b) ∧ (∀ c, c < 3 → (List.range n).any (fun i => getBits (s.dev.reg R.SCH_GATE_ENT (p * 128 + k * 64 + i)) (24 + c) 1 == 1) = true)) ∧
    -- GATE_ARM (late)
    (∃ (s : State) (p : Pid) (k : Nat) (n : Nat), ((s.dev.gateSt p).armed = none ∧ (s.dev.reg R.SCH_GATE_PBASE p).toNat < s.dev.ns + 1000) ∧ (k = 1 - s.dev.rd F.SCH_GATE_CTL_ACTIVE_BANK p ∧ n = clampTo 1 64 (s.dev.rd F.SCH_GATE_CTL_PEND_LEN p)) ∧ (∀ c, c < 3 → (List.range n).any (fun i => getBits (s.dev.reg R.SCH_GATE_ENT (p * 128 + k * 64 + i)) (24 + c) 1 == 1) = true)) ∧
    -- GATE_ARM (never)
    (∃ (s : State) (p : Pid) (k : Nat) (n : Nat) (c : Nat), ((s.dev.gateSt p).armed = none ∧ s.dev.ns + 1000 ≤ (s.dev.reg R.SCH_GATE_PBASE p).toNat) ∧ (k = 1 - s.dev.rd F.SCH_GATE_CTL_ACTIVE_BANK p ∧ n = clampTo 1 64 (s.dev.rd F.SCH_GATE_CTL_PEND_LEN p) ∧ c < 3) ∧ ((List.range n).any (fun i => getBits (s.dev.reg R.SCH_GATE_ENT (p * 128 + k * 64 + i)) (24 + c) 1 == 1) = false)) ∧
    -- GATE_BANK_ACTIVATE
    (∃ (s : State) (p : Pid) (k : Nat) (n : Nat) (b : Nat), (s.dev.dark = false ∧ (s.dev.gateSt p).armed = some (k, n, b))) ∧
    -- GATE_ENTRY_ADVANCE
    (∃ (s : State) (p : Pid) (k : Nat) (n : Nat) (b : Nat) (e : Nat) (dur : Nat → Nat), (s.dev.dark = false ∧ (s.dev.gateSt p).active = some (k, n, b) ∧ e = s.dev.gateEntry p k n b s.dev.ns) ∧ (dur = (fun i => max 16 (s.dev.rd F.SCH_GATE_ENT_DURATION (p * 128 + k * 64 + i))))) ∧
    -- gate open
    (∃ (d : Dev) (p : Nat) (cls : Nat) (k : Nat) (n : Nat) (b : Nat), (d.flag F.SCH_GATE_CTL_EN p = true ∧ (Tbl.get d.sch.gates {} p).active = some (k, n, b) ∧ cls ≠ 3)) :=
  ⟨⟨tGate, 3, 1, 1, 5000, by decide +kernel, by decide +kernel, by decide +kernel⟩,
   ⟨tGateLate, 3, 1, 1, by decide +kernel, by decide +kernel, by decide +kernel⟩,
   ⟨tR [(F.SCH_GATE_PBASE_BASE, 3, 5000)], 3, 1, 1, 0, by decide +kernel, by decide +kernel, by decide +kernel⟩,
   ⟨{ dev := { tDev with sch := { gates := [(3, { armed := some (1, 1, 5000) })] } } }, 3, 1, 1, 5000, by decide +kernel⟩,
   ⟨{ dev := { tDev with sch := { gates := [(3, { active := some (1, 1, 0) })] } } }, 3, 1, 1, 0, 0, _, by decide +kernel, rfl⟩,
   ⟨tGateOn, 3, 1, 1, 1, 0, by decide +kernel⟩⟩

/-- States and operands that meet the hypotheses of each clause of BelayReceive. -/
theorem witness_BelayReceive :
    -- frame in (corrupt)
    (∃ (d : Dev) (p : Nat) (h : FrameHdr), (d.dark = false ∧ d.lnk p ≠ lsDown ∧ d.lnk p ≠ lsParked ∧ h.framed = true)) ∧
    -- frame in (unframed)
    (∃ (d : Dev) (p : Nat) (h : FrameHdr), (d.dark = false ∧ d.lnk p ≠ lsDown ∧ d.lnk p ≠ lsParked ∧ h.framed = false)) ∧
    -- frame hdr (verdict)
    (∃ (h : FrameHdr), (h.uncorr = 0 ∧ h.flagged = false)) ∧
    -- frame hdr (uncorr)
    (∃ (h : FrameHdr), (h.flagged = true ∨ h.uncorr ≠ 0)) ∧
    -- frame in (good)
    (∃ (d : Dev) (p : Nat), (d.lnk p ≠ lsLock ∧ d.lnk p ≠ lsRelock)) ∧
    -- frame in (lock)
    (∃ (d : Dev) (p : Nat), (d.lnk p = lsLock ∧ 2 ≤ ((d.passed p).portSt p).good)) ∧
    -- frame in (relock)
    (∃ (d : Dev) (p : Nat) (h : FrameHdr), (d.lnk p = lsRelock ∧ 2 ≤ (((d.passed p).headerIn p h).portSt p).good)) ∧
    -- ack in
    (∃ (d : Dev) (p : Nat) (a : Nat) (k : Nat) (first : Nat) (r : RepFrame) (rest : List RepFrame), ((d.portSt p).replay = r :: rest ∧ first = (r.seq + 0xFFFFFF) % 2 ^ 24 ∧ k = (a + 2 ^ 24 - first) % 2 ^ 24 ∧ k ≠ 0) ∧ (¬ (r :: rest).length < k)) ∧
    -- BELAY_DATA_RX (accepted)
    (∃ (s : State) (p : Pid) (fr : DataFrame) (d : Dev), (s.dev.dark = false ∧ s.dev.lnk p ≠ lsDown ∧ s.dev.lnk p ≠ lsParked ∧ fr.hdr.framed = true ∧ s.dev.earlyCells p fr = []) ∧ (d = (s.dev.frameIn p fr.hdr fr.verdict).1 ∧ d.lnk p ≠ lsLock ∧ d.lnk p ≠ lsDown) ∧ (fr.verdict = .good ∧ fr.seq = d.nextRx p)) ∧
    -- BELAY_DATA_RX (duplicate)
    (∃ (s : State) (p : Pid) (fr : DataFrame) (d : Dev), (s.dev.dark = false ∧ s.dev.lnk p ≠ lsDown ∧ s.dev.lnk p ≠ lsParked ∧ fr.hdr.framed = true ∧ s.dev.earlyCells p fr = []) ∧ (d = (s.dev.frameIn p fr.hdr fr.verdict).1 ∧ d.lnk p ≠ lsLock ∧ d.lnk p ≠ lsDown) ∧ (fr.verdict = .good ∧ fr.seq ≠ d.nextRx p ∧ serialLt 24 fr.seq (d.nextRx p) = true)) ∧
    -- BELAY_DATA_RX (gap)
    (∃ (s : State) (p : Pid) (fr : DataFrame) (d : Dev), (s.dev.dark = false ∧ s.dev.lnk p ≠ lsDown ∧ s.dev.lnk p ≠ lsParked ∧ fr.hdr.framed = true ∧ s.dev.earlyCells p fr = []) ∧ (d = (s.dev.frameIn p fr.hdr fr.verdict).1 ∧ d.lnk p ≠ lsLock ∧ d.lnk p ≠ lsDown) ∧ (fr.verdict = .good ∧ fr.seq ≠ d.nextRx p ∧ serialLt 24 fr.seq (d.nextRx p) = false)) ∧
    -- BELAY_DATA_RX (corrupt)
    (∃ (s : State) (p : Pid) (fr : DataFrame) (d : Dev), (s.dev.dark = false ∧ s.dev.lnk p ≠ lsDown ∧ s.dev.lnk p ≠ lsParked ∧ fr.hdr.framed = true ∧ s.dev.earlyCells p fr = []) ∧ (d = (s.dev.frameIn p fr.hdr fr.verdict).1 ∧ d.lnk p ≠ lsLock ∧ d.lnk p ≠ lsDown) ∧ (fr.verdict = .corrupt)) ∧
    -- BELAY_DATA_RX (stomped)
    (∃ (s : State) (p : Pid) (fr : DataFrame) (d : Dev), (s.dev.dark = false ∧ s.dev.lnk p ≠ lsDown ∧ s.dev.lnk p ≠ lsParked ∧ fr.hdr.framed = true ∧ s.dev.earlyCells p fr = []) ∧ (d = (s.dev.frameIn p fr.hdr fr.verdict).1 ∧ d.lnk p ≠ lsLock ∧ d.lnk p ≠ lsDown) ∧ (fr.verdict = .stomped)) ∧
    -- BELAY_DATA_RX (early)
    (∃ (s : State) (p : Pid) (fr : DataFrame) (l : List Cell), (s.dev.earlyCells p fr = l ∧ l.isEmpty = false)) ∧
    -- accept
    (∃ (d : Dev) (p : Nat) (e : Dev), (e = d.wr F.PRT_LNK_SEQ_NEXT_RX p ((d.nextRx p + 1) % 2 ^ 24) ∧ (e.portSt p).accepted < 31)) ∧
    -- BELAY_INIT_RX (valid)
    (∃ (s : State) (p : Pid) (fr : CtlFrame) (d : Dev), (s.dev.frameIn p fr.hdr fr.verdict = (d, true) ∧ d.lnk p = lsInit ∧ bitsOf (ctlWord fr.body 0) 0 8 = 1 ∧ bitsOf (ctlWord fr.body 0) 16 8 ≠ 0)) ∧
    -- BELAY_INIT_RX (invalid)
    (∃ (s : State) (p : Pid) (fr : CtlFrame) (d : Dev), (s.dev.frameIn p fr.hdr fr.verdict = (d, true) ∧ d.lnk p = lsInit ∧ bitsOf (ctlWord fr.body 0) 16 8 = 0)) ∧
    -- BELAY_CREDIT_RX
    (∃ (s : State) (p : Pid) (fr : CtlFrame) (d : Dev), (s.dev.frameIn p fr.hdr fr.verdict = (d, true) ∧ d.running p = true)) ∧
    -- BELAY_DISCOVER_RX
    (∃ (s : State) (p : Pid) (fr : CtlFrame) (d : Dev), (s.dev.frameIn p fr.hdr fr.verdict = (d, true) ∧ d.running p = true)) ∧
    -- BELAY_TIME_REQ_RX
    (∃ (s : State) (p : Pid) (fr : CtlFrame) (d : Dev), (s.dev.frameIn p fr.hdr fr.verdict = (d, true))) ∧
    -- BELAY_TIME_RESP_RX
    (∃ (s : State) (p : Pid) (fr : CtlFrame) (d : Dev) (e : Nat × Nat), (s.dev.frameIn p fr.hdr fr.verdict = (d, true) ∧ d.lnk p ≠ lsLock ∧ (d.portSt p).exch.find? (fun e => e.1 == bitsOf fr.body.toNat 8 8) = some e)) ∧
    -- BELAY_DOWN_RX
    (∃ (s : State) (p : Pid) (fr : CtlFrame) (d : Dev), (s.dev.frameIn p fr.hdr fr.verdict = (d, true))) ∧
    -- BELAY_CONTROL_RESERVED
    (∃ (s : State) (p : Pid) (fr : CtlFrame) (d : Dev), (s.dev.frameIn p fr.hdr fr.verdict = (d, true))) ∧
    -- BELAY_FRAMING_ERROR
    (∃ (s : State) (p : Pid), (s.dev.dark = false ∧ s.dev.lnk p ≠ lsDown ∧ s.dev.lnk p ≠ lsParked)) ∧
    -- link error
    (∃ (d : Dev) (p : Nat) (e : Dev), (e = d.bump F.PRT_LNK_STATE_LEVEL p)) :=
  ⟨⟨(tBel 3 {}).dev, 3, tIdle, by decide +kernel⟩,
   ⟨(tBel 3 {}).dev, 3, { tIdle with holds := 97 }, by decide +kernel⟩,
   ⟨tIdle, by decide +kernel⟩,
   ⟨{ tIdle with uncorr := 2 }, by decide +kernel⟩,
   ⟨(tBel 3 {}).dev, 3, by decide +kernel⟩,
   ⟨(tBel 1 { good := 1 }).dev, 3, by decide +kernel⟩,
   ⟨(tBel 6 { good := 1 }).dev, 3, tIdle, by decide +kernel⟩,
   ⟨(tBel 3 { replay := [tRep] }).dev, 3, 0, 1, 0xFFFFFF, tRep, [], by decide +kernel, by decide +kernel⟩,
   ⟨tBel 3 {}, 3, tDF 0, ((tBel 3 {}).dev.frameIn 3 (tDF 0).hdr (tDF 0).verdict).1, by decide +kernel, ⟨rfl, by rw [tDF_verdict]; decide +kernel⟩, ⟨tDF_verdict _, by rw [tDF_verdict]; decide +kernel⟩⟩,
   ⟨tBel 3 {}, 3, tDF 0xFFFFFF, ((tBel 3 {}).dev.frameIn 3 (tDF 0xFFFFFF).hdr (tDF 0xFFFFFF).verdict).1, by decide +kernel, ⟨rfl, by rw [tDF_verdict]; decide +kernel⟩, ⟨tDF_verdict _, by rw [tDF_verdict]; decide +kernel⟩⟩,
   ⟨tBel 3 {}, 3, tDF 1, ((tBel 3 {}).dev.frameIn 3 (tDF 1).hdr (tDF 1).verdict).1, by decide +kernel, ⟨rfl, by rw [tDF_verdict]; decide +kernel⟩, ⟨tDF_verdict _, by rw [tDF_verdict]; decide +kernel⟩⟩,
   ⟨tBel 3 {}, 3, tDFc, ((tBel 3 {}).dev.frameIn 3 (tDFc).hdr (tDFc).verdict).1, by decide +kernel, ⟨rfl, by rw [tDFc_verdict]; decide +kernel⟩, tDFc_verdict⟩,
   ⟨tBel 3 {}, 3, tDFs, ((tBel 3 {}).dev.frameIn 3 (tDFs).hdr (tDFs).verdict).1, by decide +kernel, ⟨rfl, by rw [tDFs_verdict]; decide +kernel⟩, tDFs_verdict⟩,
   ⟨tBel 3 {} [(F.PRT_LNK_CFG_CUT_THROUGH_EN, 3, 1), (F.RTE_PORT_STATE_STATE, 3, 3)], 3, { tDF 0 with cells := [(tTransit 0).sealed], early := 1 }, [(tTransit 0).sealed], by decide +kernel⟩,
   ⟨(tBel 3 {}).dev, 3, _, ⟨rfl, by decide +kernel⟩⟩,
   ⟨tBel 2 {}, 3, tCF 0x160000200101, ((tBel 2 {}).dev.frameIn 3 (tCF 0x160000200101).hdr (tCF 0x160000200101).verdict).1, ⟨by rw [tCF_verdict]; decide +kernel, by rw [tCF_verdict]; decide +kernel⟩⟩,
   ⟨tBel 2 {}, 3, tCF 1, ((tBel 2 {}).dev.frameIn 3 (tCF 1).hdr (tCF 1).verdict).1, ⟨by rw [tCF_verdict]; decide +kernel, by rw [tCF_verdict]; decide +kernel⟩⟩,
   ⟨tBel 3 {}, 3, tCF 32, ((tBel 3 {}).dev.frameIn 3 (tCF 32).hdr (tCF 32).verdict).1, ⟨by rw [tCF_verdict]; decide +kernel, by rw [tCF_verdict]; decide +kernel⟩⟩,
   ⟨tBel 3 {}, 3, tCF 32, ((tBel 3 {}).dev.frameIn 3 (tCF 32).hdr (tCF 32).verdict).1, ⟨by rw [tCF_verdict]; decide +kernel, by rw [tCF_verdict]; decide +kernel⟩⟩,
   ⟨tBel 3 {}, 3, tCF 0x700, ((tBel 3 {}).dev.frameIn 3 (tCF 0x700).hdr (tCF 0x700).verdict).1, by rw [tCF_verdict]; decide +kernel⟩,
   ⟨tBel 3 { exch := [(7, 99)] }, 3, tCF 0x701, ((tBel 3 { exch := [(7, 99)] }).dev.frameIn 3 (tCF 0x701).hdr (tCF 0x701).verdict).1, (7, 99), ⟨by rw [tCF_verdict]; decide +kernel, by rw [tCF_verdict]; decide +kernel⟩⟩,
   ⟨tBel 3 {}, 3, tCF 1, ((tBel 3 {}).dev.frameIn 3 (tCF 1).hdr (tCF 1).verdict).1, by rw [tCF_verdict]; decide +kernel⟩,
   ⟨tBel 3 {}, 3, tCF 1, ((tBel 3 {}).dev.frameIn 3 (tCF 1).hdr (tCF 1).verdict).1, by rw [tCF_verdict]; decide +kernel⟩,
   ⟨tBel 3 {}, 3, by decide +kernel⟩,
   ⟨(tBel 3 {}).dev, 3, _, rfl⟩⟩

/-- States and operands that meet the hypotheses of each clause of BelaySend. -/
theorem witness_BelaySend :
    -- BELAY_FRAME_SEND (control)
    (∃ (s : State) (p : Pid) (d : Dev) (k : Nat) (body : Nat) (l : List (Nat × Nat)), (s.dev.dark = false ∧ (s.dev.lnk p == lsDown) = false ∧ (s.dev.lnk p == lsParked) = false ∧ d = (s.dev.parkWork p).dropStale p) ∧ ((d.portSt p).ctl = (k, body) :: l ∧ ((d.portSt p).lastCtl = false ∨ d.frameWaits p = false))) ∧
    -- BELAY_FRAME_SEND (second)
    (∃ (s : State) (p : Pid) (d : Dev) (k : Nat) (body : Nat) (l : List (Nat × Nat)), (s.dev.dark = false ∧ (s.dev.lnk p == lsDown) = false ∧ (s.dev.lnk p == lsParked) = false ∧ d = (s.dev.parkWork p).dropStale p) ∧ ((d.portSt p).ctl = (k, body) :: l ∧ (d.portSt p).lastCtl = true ∧ d.frameWaits p = true)) ∧
    -- send ctl
    (∃ (k : Nat), (k ≠ 4 ∧ k ≠ 5)) ∧
    -- send ctl (time)
    (∃ (d : Dev) (e : Dev) (p : Nat), (e = d.updPort p (fun x => { x with ctl := x.ctl.tail }))) ∧
    -- BELAY_FRAME_SEND (replay)
    (∃ (s : State) (p : Pid) (d : Dev) (r : RepFrame), (s.dev.dark = false ∧ (s.dev.lnk p == lsDown) = false ∧ (s.dev.lnk p == lsParked) = false ∧ d = (s.dev.parkWork p).dropStale p) ∧ ((d.portSt p).ctl = [] ∧ d.replays p = true ∧ (d.portSt p).nextReplay = some r)) ∧
    -- BELAY_FRAME_SEND (data)
    (∃ (s : State) (p : Pid) (d : Dev) (e : Dev) (l : List (OutCell × Bool)), (s.dev.dark = false ∧ (s.dev.lnk p == lsDown) = false ∧ (s.dev.lnk p == lsParked) = false ∧ d = (s.dev.parkWork p).dropStale p) ∧ ((d.portSt p).ctl = [] ∧ d.replays p = false ∧ d.mayData p = true ∧ d.takeCells p = (e, l) ∧ l.isEmpty = false)) ∧
    -- send data
    (∃ (d : Dev) (p : Nat) (e : Dev), (e = d.wr F.PRT_LNK_SEQ_TX_NEXT p ((d.txNext p + 1) % 2 ^ 24))) ∧
    -- BELAY_FRAME_SEND (idle)
    (∃ (s : State) (p : Pid) (d : Dev), (s.dev.dark = false ∧ (s.dev.lnk p == lsDown) = false ∧ (s.dev.lnk p == lsParked) = false ∧ d = (s.dev.parkWork p).dropStale p) ∧ ((d.portSt p).ctl = [] ∧ d.replays p = false ∧ d.mayData p = false)) ∧
    -- put frame
    (∃ (d : Dev) (p : Nat) (kind : Nat) (sub : Nat) (seq : Nat) (shared : Nat) (body : Nat) (len : Nat) (holds : Nat) (stomp : Bool) (f : Frame) (e : Dev), (f = mkFrame (frameHdr kind sub seq (d.portSt p).ackSeq (d.portSt p).xoffOut shared (d.portSt p).nakNext) body len holds stomp) ∧ (e = (d.toLanes p f).updPort p (fun x => { x with nakNext := false, lastCtl := kind == 2 }))) ∧
    -- to lanes
    (∃ (d : Dev) (e : Dev) (p : Nat) (f : Frame), (e = d.emit (.frame p f))) ∧
    -- link down
    (∃ (d : Dev) (p : Nat) (r : Nat) (e : Dev), (d.lnk p ≠ lsDown ∧ e = ((d.setLnk p lsDown).wr F.PRT_LNK_STATE_REASON p r).bumpBy F.PRT_LNK_DROP_LINKDOWN p (d.portSt p).out.length)) ∧
    -- LINK_DOWN_CMD
    (∃ (s : State) (p : Pid), (s.dev.dark = false ∧ s.dev.lnk p ≠ lsDown)) :=
  ⟨⟨tBel 3 { ctl := [(2, 0)] }, 3, ((tBel 3 { ctl := [(2, 0)] }).dev.parkWork 3).dropStale 3, 2, 0, [], by decide +kernel, by decide +kernel⟩,
   ⟨tBel 3 { ctl := [(2, 0)], lastCtl := true, replaying := 1 }, 3, ((tBel 3 { ctl := [(2, 0)], lastCtl := true, replaying := 1 }).dev.parkWork 3).dropStale 3, 2, 0, [], by decide +kernel, by decide +kernel⟩,
   ⟨2, by decide +kernel⟩,
   ⟨(tBel 3 {}).dev, _, 3, rfl⟩,
   ⟨tBel 3 { replay := [tRep], replaying := 1 }, 3, ((tBel 3 { replay := [tRep], replaying := 1 }).dev.parkWork 3).dropStale 3, tRep, by decide +kernel, by decide +kernel⟩,
   ⟨tBel 3 { out := [tOut] } [(F.RTE_PORT_STATE_STATE, 3, 3)], 3, ((tBel 3 { out := [tOut] } [(F.RTE_PORT_STATE_STATE, 3, 3)]).dev.parkWork 3).dropStale 3, ((tBel 3 { out := [tOut] } [(F.RTE_PORT_STATE_STATE, 3, 3)]).dev.takeCells 3).1, [(tOut, true)], by decide +kernel, by decide +kernel⟩,
   ⟨(tBel 3 {}).dev, 3, _, rfl⟩,
   ⟨tBel 2 {}, 3, ((tBel 2 {}).dev.parkWork 3).dropStale 3, by decide +kernel, by decide +kernel⟩,
   ⟨(tBel 2 {}).dev, 3, 0, 0, 0, 0, 0, 0, 0, false, _, _, rfl, rfl⟩,
   ⟨(tBel 3 {}).dev, _, 3, mkFrame 0 0 0 0 false, rfl⟩,
   ⟨(tBel 3 {}).dev, 3, 5, _, ⟨by decide +kernel, rfl⟩⟩,
   ⟨tBel 3 {}, 3, by decide +kernel⟩⟩

/-- States and operands that meet the hypotheses of each clause of BelayTimers. -/
theorem witness_BelayTimers :
    -- BELAY_ACK_TIMER
    (∃ (s : State) (p : Pid) (t : Nat), (s.dev.dark = false ∧ (s.dev.portSt p).ackAt = some t)) ∧
    -- nak event
    (∃ (d : Dev) (p : Nat), ((d.portSt p).nakRaised = false)) ∧
    -- BELAY_REPLAY_TIMEOUT
    (∃ (s : State) (p : Pid) (t : Nat × Nat) (d : Dev), (s.dev.dark = false ∧ (s.dev.portSt p).replayEnd = some t ∧ (s.dev.portSt p).replay.isEmpty = false) ∧ (d = s.dev.advanceTo (s.dev.replayDue p t))) ∧
    -- start replay
    (∃ (d : Dev) (p : Nat) (r : RepFrame) (l : List RepFrame), ((d.portSt p).replay = r :: l)) ∧
    -- BELAY_FRAME_LIFE
    (∃ (s : State) (p : Pid) (r : RepFrame) (l : List RepFrame), (s.dev.dark = false ∧ (s.dev.portSt p).replay = r :: l)) ∧
    -- BELAY_CREDIT_TIMER
    (∃ (s : State) (p : Pid) (t : Nat), (s.dev.running p = true ∧ (s.dev.portSt p).freedAt = some t ∧ ¬ 8 ≤ (s.dev.portSt p).freed)) ∧
    -- BELAY_INIT_REPEAT
    (∃ (s : State) (p : Pid) (d : Dev), (s.dev.dark = false ∧ (s.dev.lnk p != lsInit) = false ∧ d = s.dev.advanceTo ((s.dev.portSt p).discAt + usPs 1))) ∧
    -- BELAY_DISCOVER_REPEAT
    (∃ (s : State) (p : Pid), (s.dev.dark = false ∧ s.dev.rtState p ≠ rsDown ∧ s.dev.lnk p ≠ lsParked)) ∧
    -- BELAY_LOCK_TIMEOUT
    (∃ (s : State) (p : Pid), (s.dev.dark = false ∧ (s.dev.lnk p != lsLock) = false)) ∧
    -- BELAY_INIT_TIMEOUT
    (∃ (s : State) (p : Pid), (s.dev.dark = false ∧ (s.dev.lnk p != lsInit) = false)) ∧
    -- BELAY_RELOCK_TIMEOUT
    (∃ (s : State) (p : Pid), (s.dev.dark = false ∧ (s.dev.lnk p != lsRelock) = false)) ∧
    -- BELAY_FRAMING_LOSS
    (∃ (s : State) (p : Pid), (s.dev.dark = false ∧ s.dev.running p = true)) ∧
    -- BELAY_ERR_DECAY
    (∃ (s : State) (p : Pid) (d : Dev) (e : Dev), (s.dev.dark = false ∧ d = s.dev.advanceTo ((s.dev.portSt p).decayAt + usPs (max 1 (s.dev.rd F.PRT_LNK_ERR_ERR_DECAY_US p)))) ∧ (e = (d.wr F.PRT_LNK_STATE_LEVEL p (d.rd F.PRT_LNK_STATE_LEVEL p - 1)).updPort p (fun x => { x with decayAt := (d.wr F.PRT_LNK_STATE_LEVEL p (d.rd F.PRT_LNK_STATE_LEVEL p - 1)).ps }))) ∧
    -- BELAY_DEGRADED_RETRAIN
    (∃ (s : State) (p : Pid) (d : Dev), (s.dev.dark = false ∧ (s.dev.lnk p != lsDegraded) = false ∧ s.dev.flag F.PRT_LNK_ERR_RETRAIN_EN p = true) ∧ (d = (if (s.dev.portSt p).out.any OutCell.deg then s.dev.advanceTo ((s.dev.portSt p).since + usPs 10) else s.dev))) ∧
    -- BELAY_CREDIT_AUDIT
    (∃ (s : State) (p : Pid), (s.dev.dark = false ∧ s.dev.lnk p ≠ lsDown ∧ s.dev.lnk p ≠ lsLock ∧ s.dev.lnk p ≠ lsInit) ∧ ((List.range 16).any (fun v => (s.dev.portSt p).dedHeld v + ((s.dev.portSt p).limOut v + 65536 - (s.dev.portSt p).gotOf v) % 65536 != dedCells || (s.dev.portSt p).peerDed < ((s.dev.portSt p).limIn v + 65536 - (s.dev.portSt p).usedOf v) % 65536) = true)) :=
  ⟨⟨tBel 3 { ackAt := some 5 }, 3, 5, by decide +kernel⟩,
   ⟨(tBel 3 {}).dev, 3, by decide +kernel⟩,
   ⟨tBel 3 { replayEnd := some (5, 0), replay := [tRep] }, 3, (5, 0), _, by decide +kernel, rfl⟩,
   ⟨(tBel 3 { replay := [tRep] }).dev, 3, tRep, [], by decide +kernel⟩,
   ⟨tBel 3 { replay := [tRep] }, 3, tRep, [], by decide +kernel⟩,
   ⟨tBel 3 { freedAt := some 5, freed := 1 }, 3, 5, by decide +kernel⟩,
   ⟨tBel 2 {}, 3, _, ⟨by decide +kernel, by decide +kernel, rfl⟩⟩,
   ⟨tR [(F.RTE_PORT_STATE_STATE, 3, 3)], 3, by decide +kernel⟩,
   ⟨tBel 1 {}, 3, by decide +kernel⟩,
   ⟨tBel 2 {}, 3, by decide +kernel⟩,
   ⟨tBel 6 {}, 3, by decide +kernel⟩,
   ⟨tBel 3 {}, 3, by decide +kernel⟩,
   ⟨tBel 4 {} [(F.PRT_LNK_STATE_LEVEL, 3, 1)], 3, _, _, ⟨by decide +kernel, rfl⟩, rfl⟩,
   ⟨tBel 4 { out := [{ tOut with deg := true }] } [(F.PRT_LNK_ERR_RETRAIN_EN, 3, 1)], 3, _, by decide +kernel, rfl⟩,
   ⟨tBel 3 { limitOut := [(2, 40)] }, 3, by decide +kernel, by decide +kernel⟩⟩

/-- States and operands that meet the hypotheses of each clause of LanesAndModules. -/
theorem witness_LanesAndModules :
    -- LANE_EN_SET
    (∃ (s : State) (p : Pid) (d : Dev), (d = s.dev.wr F.PRT_LANE_CFG_EN p 1)) ∧
    -- try train
    (∃ (d : Dev) (p : Nat), (d.trn p = tsOff ∧ d.flag F.PRT_LANE_CFG_EN p = true ∧ d.moduleOk p = true ∧ d.dark = false)) ∧
    -- LANE_RETRAIN
    (∃ (s : State) (p : Pid), (s.dev.dark = false ∧ s.dev.trn p ≠ tsOff)) ∧
    -- LANE_RECAL
    (∃ (s : State), (s.dev.dark = false)) ∧
    -- mark rx
    (∃ (d : Dev) (p : Nat) (l : Nat), (d.rxBad p l = false)) ∧
    -- TRAIN_DETECT_DONE
    (∃ (s : State) (p : Pid), ((s.dev.trn p != tsDetect) = false)) ∧
    -- TRAIN_CAL_DONE
    (∃ (s : State) (p : Pid), ((s.dev.trn p != tsCal) = false)) ∧
    -- TRAIN_FRAME_RX
    (∃ (s : State) (p : Pid) (crc : BitVec 16) (ctl : BitVec 112) (c : Nat), ((s.dev.trn p != tsTrain) = false) ∧ ((crc ++ ctl).toNat = c)) ∧
    -- settle mode
    (∃ (d : Dev) (p : Nat) (c : Nat), ((d.portSt p).modeSet = false ∧ d.capOf p &&& bitsOf c 4 2 = 0)) ∧
    -- frame heard
    (∃ (d : Dev) (p : Nat) (l : Nat) (c : Nat) (inv : Bool) (e : Dev), (e = (d.wr F.PRT_LANE_STAT_LOGICAL (laneIx p l) (bitsOf c 0 2)).wr F.PRT_LANE_STAT_POL_INV (laneIx p l) (if inv then 1 else 0))) ∧
    -- train done
    (∃ (d : Dev) (p : Nat) (c : Nat) (e : Dev), (e = (if bitsOf c 6 2 = 2 then d.updPort p (fun x => { x with doneSeen := true }) else d).sendTraining p)) ∧
    -- enter align
    (∃ (d : Dev) (p : Nat) (rx : Nat) (tx : Nat) (e : Dev), (e = (lanes4.foldl (fun d l => d.wr F.PRT_LANE_STAT_ACTIVE (laneIx p l)
        (if ((d.portSt p).lane l).heard && !d.rxBad p l && ((d.portSt p).lane l).ready then rx / 2 ^ d.rd F.PRT_LANE_STAT_LOGICAL (laneIx p l) % 2 else 0)) (((d.setTrn p tsAlign).wr F.PRT_TRN_STAT_RX_MAP p rx).wr F.PRT_TRN_STAT_TX_MAP p tx)).startPath p)) ∧
    -- TRAIN_TIMEOUT
    (∃ (s : State) (p : Pid), ((s.dev.trn p != tsTrain) = false)) ∧
    -- TRAIN_ALIGN_DONE
    (∃ (s : State) (p : Pid), ((s.dev.trn p != tsAlign) = false)) ∧
    -- TRAIN_ALIGN_TIMEOUT
    (∃ (s : State) (p : Pid), ((s.dev.trn p != tsAlign) = false)) ∧
    -- TRAIN_RETRY
    (∃ (s : State) (p : Pid) (d : Dev), ((s.dev.trn p != tsFailed) = false ∧ s.dev.flag F.PRT_LANE_CFG_AUTO_RETRY p = true) ∧ (d = s.dev.advanceTo ((s.dev.portSt p).trnAt + msPs (max 1 (s.dev.rd F.PRT_LANE_CFG_RETRY_MS p))) ∧ d.rd F.PRT_TRN_STAT_FAIL_REASON p ≠ 5)) ∧
    -- LANE_LOSS
    (∃ (s : State) (p : Pid) (ls : BitVec 4), ((s.dev.trn p != tsTrained) = false ∧ lanes4.any (fun l => ls.getLsbD l && s.dev.flag F.PRT_LANE_STAT_ACTIVE (laneIx p l)) = true)) ∧
    -- SER_WINDOW (three)
    (∃ (s : State) (p : Pid) (l : Fin 4) (ser : BitVec 24) (symbols : Nat) (d : Dev) (e : Dev), ((s.dev.trn p != tsTrained) = false ∧ symbols < ser.toNat * 10000 ∧ d = s.dev.wr F.PRT_LANE_STAT_SER (laneIx p l) (min ser.toNat (2 ^ 24 - 1))) ∧ (((d.portSt p).lane l).hits = 2 ∧ e = d.updLane p l (fun x => { x with hits := 3 }) ∧ e.rxBad p l = false)) ∧
    -- MOD_INSERT
    (∃ (s : State) (p : Pid) (cmis : BitVec 8) (d : Dev), (d = ((s.dev.wr F.PRT_MOD_STAT_PRESENT p 1).wr F.PRT_MOD_STAT_READY p 0).wr F.PRT_MOD_STAT_CMIS_STATE p cmis.toNat)) ∧
    -- MOD_READY
    (∃ (s : State) (p : Pid), (s.dev.flag F.PRT_MOD_STAT_PRESENT p = true)) ∧
    -- MOD_READY_TIMEOUT
    (∃ (s : State) (p : Pid), ((s.dev.trn p != tsOff) = false ∧ s.dev.flag F.PRT_LANE_CFG_EN p = true ∧ s.dev.moduleOk p = false ∧ s.dev.flag F.PRT_MOD_STAT_PRESENT p = true)) ∧
    -- MOD_ALARM
    (∃ (s : State) (p : Pid) (d : Dev), (d = (s.dev.wr F.PRT_MOD_STAT_ALARM p 1).fault 20)) :=
  ⟨⟨tR [], 3, _, rfl⟩,
   ⟨(tR [(F.PRT_LANE_CFG_EN, 3, 1), (F.PRT_LANE_CFG_NO_MODULE, 3, 1)]).dev, 3, by decide +kernel⟩,
   ⟨tR [(F.PRT_TRN_STAT_STATE, 3, 5)], 3, by decide +kernel⟩,
   ⟨tR [(F.PRT_TRN_STAT_STATE, 3, 5)], by decide +kernel⟩,
   ⟨tDev, 3, 1, by decide +kernel⟩,
   ⟨tR [(F.PRT_TRN_STAT_STATE, 3, 1)], 3, by decide +kernel⟩,
   ⟨tR [(F.PRT_TRN_STAT_STATE, 3, 2)], 3, by decide +kernel⟩,
   ⟨tR [(F.PRT_TRN_STAT_STATE, 3, 3)], 3, 0, 0x130, 0x130, by decide +kernel, by decide +kernel⟩,
   ⟨(tR []).dev, 3, 0, by decide +kernel⟩,
   ⟨(tR []).dev, 3, 2, 0, false, _, rfl⟩,
   ⟨tTrn, 3, 128, _, rfl⟩,
   ⟨tTrn, 3, 14, 14, _, rfl⟩,
   ⟨tR [(F.PRT_TRN_STAT_STATE, 3, 3)], 3, by decide +kernel⟩,
   ⟨tR [(F.PRT_TRN_STAT_STATE, 3, 4)], 3, by decide +kernel⟩,
   ⟨tR [(F.PRT_TRN_STAT_STATE, 3, 4)], 3, by decide +kernel⟩,
   ⟨tR [(F.PRT_TRN_STAT_STATE, 3, 6), (F.PRT_LANE_CFG_AUTO_RETRY, 3, 1)], 3, _, by decide +kernel, ⟨rfl, by decide +kernel⟩⟩,
   ⟨tR [(F.PRT_TRN_STAT_STATE, 3, 5), (F.PRT_LANE_STAT_ACTIVE, 13, 1)], 3, 2, by decide +kernel⟩,
   ⟨tSer, 3, 0, 7, 100, _, _, ⟨by decide +kernel, by decide +kernel, rfl⟩, ⟨by decide +kernel, rfl, by decide +kernel⟩⟩,
   ⟨tR [], 3, 1, _, rfl⟩,
   ⟨tR [(F.PRT_MOD_STAT_PRESENT, 3, 1)], 3, by decide +kernel⟩,
   ⟨tR [(F.PRT_LANE_CFG_EN, 3, 1), (F.PRT_MOD_STAT_PRESENT, 3, 1)], 3, by decide +kernel⟩,
   ⟨tR [], 3, _, rfl⟩⟩

/-- States and operands that meet the hypotheses of each clause of PortParking. -/
theorem witness_PortParking :
    -- PORT_PARK_REQUEST
    (∃ (s : State) (p : Pid) (d : Dev) (id : Nat), (s.dev.mayPark p = true ∧ s.dev.halted = false ∧ (s.dev.portSt p).parkReq = none ∧ (s.dev.portSt p).parkAgree = none) ∧ (d = s.dev.advanceTo ((s.dev.portSt p).cellAt + usPs (max 1 (s.dev.rd F.PRT_PARK_CFG_IDLE_US p))) ∧ id = ((s.dev.portSt p).parkId + 1) % 256)) ∧
    -- may park
    (∃ (d : Dev) (p : Nat), (d.mayPark p = true)) ∧
    -- PARK_REQUEST_RX (agree)
    (∃ (s : State) (p : Pid) (fr : CtlFrame) (d : Dev) (id : Nat), (s.dev.frameIn p fr.hdr fr.verdict = (d, true) ∧ d.running p = true ∧ (d.portSt p).parkReq = none) ∧ (d.mayPark p = true ∧ d.halted = false ∧ id = bitsOf fr.body.toNat 8 8)) ∧
    -- PARK_REQUEST_RX (refuse)
    (∃ (s : State) (p : Pid) (fr : CtlFrame) (d : Dev), (s.dev.frameIn p fr.hdr fr.verdict = (d, true) ∧ d.running p = true ∧ (d.portSt p).parkReq = none ∧ d.mayPark p = false)) ∧
    -- PARK_REQUEST_RX (crossing)
    (∃ (s : State) (p : Pid) (fr : CtlFrame) (d : Dev), (s.dev.frameIn p fr.hdr fr.verdict = (d, true) ∧ d.running p = true ∧ (d.portSt p).parkReq.isSome = true ∧ d.greater p = true)) ∧
    -- PARK_AGREE_RX
    (∃ (s : State) (p : Pid) (fr : CtlFrame) (d : Dev) (e : Dev) (id : Nat) (t : Nat), (s.dev.frameIn p fr.hdr fr.verdict = (d, true) ∧ d.parkWork p = e) ∧ ((e.portSt p).parkReq = some (id, t) ∧ e.lnk p = lsUp ∧ bitsOf fr.body.toNat 8 8 = id)) ∧
    -- PARK_REFUSE_RX
    (∃ (s : State) (p : Pid) (fr : CtlFrame) (d : Dev) (id : Nat) (t : Nat), (s.dev.frameIn p fr.hdr fr.verdict = (d, true) ∧ (d.portSt p).parkReq = some (id, t) ∧ bitsOf fr.body.toNat 8 8 = id)) ∧
    -- PARK_WAKE_RX
    (∃ (s : State) (p : Pid) (fr : CtlFrame) (d : Dev) (id : Nat) (t : Nat), (s.dev.frameIn p fr.hdr fr.verdict = (d, true) ∧ (d.portSt p).parkAgree = some (id, t) ∧ bitsOf fr.body.toNat 8 8 = id)) ∧
    -- PARK_TIMEOUT (request)
    (∃ (s : State) (p : Pid) (id : Nat) (t : Nat) (d : Dev), ((s.dev.portSt p).parkReq = some (id, t) ∧ (s.dev.portSt p).out.isEmpty = true) ∧ (d = s.dev.advanceTo (t + usPs 2))) ∧
    -- PARK_TIMEOUT (agree)
    (∃ (s : State) (p : Pid) (id : Nat) (t : Nat) (d : Dev), ((s.dev.portSt p).parkReq = none ∧ (s.dev.portSt p).parkAgree = some (id, t)) ∧ (d = s.dev.advanceTo (t + usPs 2))) ∧
    -- PARK_SIGNAL_LOST
    (∃ (s : State) (p : Pid) (id : Nat) (t : Nat), ((s.dev.portSt p).parkAgree = some (id, t) ∧ s.dev.lnk p = lsUp ∧ s.dev.ps ≤ t + usPs 2)) ∧
    -- enter parked
    (∃ (d : Dev) (p : Nat) (e : Dev) (f : Dev), (e = (((d.setLnk p lsParked).setTrn p tsParked).updPort p (fun x => { x with txIdle := true })).emit (.txIdle p true) ∧ f = (if e.rtState p = rsUp then e.setRtState p rsParked else e))) ∧
    -- PORT_WAKE
    (∃ (s : State) (p : Pid), (s.dev.lnk p = lsParked ∧ s.dev.dark = false ∧ (s.dev.portSt p).waking = false ∧ (s.dev.portSt p).wakeWant = true)) ∧
    -- PARK_SIGNAL_DETECT
    (∃ (s : State) (p : Pid), (s.dev.lnk p = lsParked ∧ s.dev.dark = false ∧ (s.dev.portSt p).waking = false)) ∧
    -- PARK_RELOCK_DONE
    (∃ (s : State) (p : Pid), (s.dev.lnk p = lsParked ∧ (s.dev.portSt p).waking = true)) ∧
    -- PARKED_RECAL
    (∃ (s : State) (p : Pid) (cal : CalIn) (d : Dev), (s.dev.trn p = tsParked ∧ s.dev.flag F.PRT_PARK_CFG_RECAL_PARKED p = true ∧ (s.dev.portSt p).waking = false) ∧ (d = lanes4.foldl (fun d l => d.calLane p l (!cal.quiet) (cal.failed.getLsbD l)) (s.dev.advanceTo ((s.dev.portSt p).recalAt + msPs 100)))) :=
  ⟨⟨tPark, 3, _, _, by decide +kernel, ⟨rfl, rfl⟩⟩,
   ⟨tPark.dev, 3, by decide +kernel⟩,
   ⟨tPark, 3, tCF 0x701, (tPark.dev.frameIn 3 (tCF 0x701).hdr (tCF 0x701).verdict).1, _, by rw [tCF_verdict]; decide +kernel, ⟨by rw [tCF_verdict]; decide +kernel, by rw [tCF_verdict]; decide +kernel, rfl⟩⟩,
   ⟨tBel 3 {}, 3, tCF 0x701, ((tBel 3 {}).dev.frameIn 3 (tCF 0x701).hdr (tCF 0x701).verdict).1, by rw [tCF_verdict]; decide +kernel⟩,
   ⟨tBel 3 { parkReq := some (7, 0) } [(F.RTE_ID_DEV_ID, 0, 9)], 3, tCF 0x701, ((tBel 3 { parkReq := some (7, 0) } [(F.RTE_ID_DEV_ID, 0, 9)]).dev.frameIn 3 (tCF 0x701).hdr (tCF 0x701).verdict).1, by rw [tCF_verdict]; decide +kernel⟩,
   ⟨tBel 3 { parkReq := some (7, 0) }, 3, tCF 0x702, ((tBel 3 { parkReq := some (7, 0) }).dev.frameIn 3 (tCF 0x702).hdr (tCF 0x702).verdict).1, (((tBel 3 { parkReq := some (7, 0) }).dev.frameIn 3 (tCF 0x702).hdr (tCF 0x702).verdict).1.parkWork 3), 7, 0, ⟨by rw [tCF_verdict]; decide +kernel, rfl⟩, by rw [tCF_verdict]; decide +kernel⟩,
   ⟨tBel 3 { parkReq := some (7, 0) }, 3, tCF 0x703, ((tBel 3 { parkReq := some (7, 0) }).dev.frameIn 3 (tCF 0x703).hdr (tCF 0x703).verdict).1, 7, 0, by rw [tCF_verdict]; decide +kernel⟩,
   ⟨tBel 3 { parkAgree := some (7, 0) }, 3, tCF 0x704, ((tBel 3 { parkAgree := some (7, 0) }).dev.frameIn 3 (tCF 0x704).hdr (tCF 0x704).verdict).1, 7, 0, by rw [tCF_verdict]; decide +kernel⟩,
   ⟨tBel 3 { parkReq := some (7, 0) }, 3, 7, 0, _, by decide +kernel, rfl⟩,
   ⟨tBel 3 { parkAgree := some (7, 0) }, 3, 7, 0, _, by decide +kernel, rfl⟩,
   ⟨tBel 3 { parkAgree := some (7, 0) }, 3, 7, 0, by decide +kernel⟩,
   ⟨tPark.dev, 3, _, _, ⟨rfl, rfl⟩⟩,
   ⟨tBel 5 { wakeWant := true }, 3, by decide +kernel⟩,
   ⟨tBel 5 {}, 3, by decide +kernel⟩,
   ⟨tBel 5 { waking := true }, 3, by decide +kernel⟩,
   ⟨tR [(F.PRT_TRN_STAT_STATE, 3, 7), (F.PRT_PARK_CFG_RECAL_PARKED, 3, 1)], 3, ⟨true, 0⟩, _, by decide +kernel, rfl⟩⟩

/-- States and operands that meet the hypotheses of each clause of RopeRing. -/
theorem witness_RopeRing :
    -- rope in (for me)
    (∃ (d : Dev) (r : Nat) (kind : Nat) (k : RopeFrame), (d.ropeUp r = true ∧ d.flag F.RTE_ID_ASSIGNED = true ∧ k.dst.getLsbD 31 = false ∧ bitsOf k.dst.toNat 0 18 = d.myDev) ∧ (k.src.getLsbD 18 = false ∧ k.abort = false) ∧ (k.crc.toNat = crc32 (rxPkt k kind).raw)) ∧
    -- rope in (forward)
    (∃ (d : Dev) (r : Nat) (kind : Nat) (k : RopeFrame), (d.ropeUp r = true ∧ d.flag F.RTE_ID_ASSIGNED = true ∧ k.dst.getLsbD 31 = false ∧ bitsOf k.dst.toNat 0 18 ≠ d.myDev) ∧ (k.src.getLsbD 18 = false ∧ 1 < k.ttl.toNat ∧ k.abort = false) ∧ (k.crc.toNat = crc32 (rxPkt k kind).raw)) ∧
    -- rope in (bad crc)
    (∃ (d : Dev) (r : Nat) (kind : Nat) (k : RopeFrame), (d.ropeUp r = true ∧ k.abort = false ∧ (k.crc.toNat != crc32 (rxPkt k kind).raw) = true)) ∧
    -- rope in (down)
    (∃ (d : Dev) (r : Nat), (d.ropeUp r = false)) ∧
    -- rope send
    (∃ (d : Dev) (r : Nat), (getBits (d.reg R.ROPE_CFG) r 1 ≠ 0 ∧ (d.rd F.ROPE_PORT_STAT_STATE r != 2) = false ∧ d.ropePower = true)) ∧
    -- ROPE_HELLO_RX (good)
    (∃ (s : State) (r : Fin 2) (k : RopeFrame) (d : Dev), (s.dev.ropeIn r 1 k = (d, true) ∧ bitsOf k.body 16 1 ≠ r)) ∧
    -- ROPE_HELLO_RX (swapped)
    (∃ (s : State) (r : Fin 2) (k : RopeFrame) (d : Dev), (s.dev.ropeIn r 1 k = (d, true) ∧ bitsOf k.body 16 1 = r)) ∧
    -- ROPE_FAULT_RX
    (∃ (s : State) (r : Fin 2) (k : RopeFrame) (d : Dev), (s.dev.ropeIn r 3 k = (d, true))) ∧
    -- ROPE_MGMT_RX
    (∃ (s : State) (r : Fin 2) (k : RopeFrame) (d : Dev), (s.dev.ropeIn r 4 k = (d, true))) ∧
    -- ROPE_PACKET_DISCARD
    (∃ (s : State) (r : Fin 2), (s.dev.ropeUp r = true)) ∧
    -- ROPE_HELLO_TIMER
    (∃ (s : State) (d : Dev), (s.dev.ropePower = true ∧ d = { s.dev.advanceTo (s.dev.time.helloAt + usPs 100) with time.helloAt := (s.dev.advanceTo (s.dev.time.helloAt + usPs 100)).ps })) ∧
    -- ROPE_FAULT_REPEAT
    (∃ (s : State), (s.dev.ropePower = true)) ∧
    -- ROPE_FAULT_REPEAT (dark)
    (∃ (s : State), (s.dev.ropePower = false)) ∧
    -- ROPE_ALIGN_RX (good)
    (∃ (s : State) (r : Fin 2) (l0 : BitVec 24) (l1 : BitVec 24) (skew : Nat) (inv : Nat) (sw : Bool) (d : Dev), (s.dev.ropePower = true ∧ getBits (s.dev.reg R.ROPE_CFG) r 1 ≠ 0 ∧ alignGood l0 l1 skew = some (inv, sw)) ∧ (d = (((s.dev.updRope r (fun x => { x with heardAt := s.dev.ps })).wr F.ROPE_PORT_STAT_POL_INV r inv).wr F.ROPE_PORT_STAT_LANES_SWAPPED r (if sw then 1 else 0)).updRope r (fun x => { x with good := min 4 (x.good + 1) })) ∧ (d.rd F.ROPE_PORT_STAT_STATE r ≠ 2)) ∧
    -- ROPE_ALIGN_RX (bad)
    (∃ (s : State) (r : Fin 2) (l0 : BitVec 24) (l1 : BitVec 24) (skew : Nat), (s.dev.ropePower = true ∧ getBits (s.dev.reg R.ROPE_CFG) r 1 ≠ 0 ∧ alignGood l0 l1 skew = none)) ∧
    -- rope align (sets)
    (∃ (skew : Nat), (skew ≤ 16)) ∧
    -- rope down
    (∃ (d : Dev) (e : Dev) (r : Nat), (e = (d.wr F.ROPE_PORT_STAT_STATE r 0).updRope r (fun x => { x with good := 0, exch := [] }))) :=
  ⟨⟨tRope, 0, 1, tRopeK 1 9 5, by decide +kernel, by decide +kernel, by decide +kernel⟩,
   ⟨tRope, 0, 1, tRopeK 1 9 6, by decide +kernel, by decide +kernel, by decide +kernel⟩,
   ⟨tRope, 0, 2, tRopeK 1 9 5, by decide +kernel⟩,
   ⟨tDev, 0, by decide +kernel⟩,
   ⟨tRope, 0, by decide +kernel⟩,
   ⟨{ dev := tRope }, 0, tRopeK 1 9 5 65536, tRope, by decide +kernel⟩,
   ⟨{ dev := tRope }, 0, tRopeK 1 9 5, tRope, by decide +kernel⟩,
   ⟨{ dev := tRope }, 0, tRopeK 3 9 5, tRope, by decide +kernel⟩,
   ⟨{ dev := tRope }, 0, tRopeK 4 9 5, tRope, by decide +kernel⟩,
   ⟨{ dev := tRope }, 0, by decide +kernel⟩,
   ⟨{ dev := tRope }, _, ⟨by decide +kernel, rfl⟩⟩,
   ⟨{ dev := { tRope with pwr.state := .safe } }, by decide +kernel⟩,
   ⟨{ dev := { tRope with pwr.state := .off } }, by decide +kernel⟩,
   ⟨{ dev := tDR [(F.ROPE_CFG_EN, 0, 1)] }, 0, 0xB560B5, 0x4A614A, 3, 2, false, _, by decide +kernel, rfl, by decide +kernel⟩,
   ⟨{ dev := tDR [(F.ROPE_CFG_EN, 0, 1)] }, 0, 0xB560B5, 0xB560B5, 3, by decide +kernel⟩,
   ⟨3, by decide +kernel⟩,
   ⟨tRope, _, 0, rfl⟩⟩

/-- States and operands that meet the hypotheses of each clause of FabricTime. -/
theorem witness_FabricTime :
    -- TIME_SET
    (∃ (s : State) (v : Word) (d : Dev), (s.dev.dark = false ∧ s.dev.flag F.TIME_CFG_SERVO_EN = false ∧ d = s.dev.jump ((v.toNat * 2 ^ 16 : Nat) : Int))) ∧
    -- SERVO_ENABLE
    (∃ (s : State) (d : Dev), (d = s.dev.wr F.TIME_CFG_SERVO_EN 0 1 ∧ d.dark = false)) ∧
    -- TIME_EXCHANGE_TIMER
    (∃ (s : State) (d : Dev) (e : Dev), (s.dev.dark = false ∧ d = s.dev.advanceTo (s.dev.time.exAt + usPs s.dev.period)) ∧ (e = Dev.chooseParent { d with time.exAt := d.ps, time.ticks := (d.time.ticks + 1) % 8 })) ∧
    -- ROPE_TIME_RX (req)
    (∃ (s : State) (r : Fin 2) (k : RopeFrame) (d : Dev) (e : Dev), (s.dev.ropeIn r 2 k = (d, true) ∧ k.body % 2 = 0 ∧ e = d.noteNbr (64 + r) (bitsOf k.body 0 64))) ∧
    -- ROPE_TIME_RX (resp)
    (∃ (s : State) (r : Fin 2) (k : RopeFrame) (d : Dev) (e : Dev) (id : Nat) (t1 : Nat), (s.dev.ropeIn r 2 k = (d, true) ∧ k.body % 2 ≠ 0 ∧ e = d.noteNbr (64 + r) (bitsOf k.body 0 64)) ∧ ((e.ropeSt r).exch.find? (fun x => x.1 == bitsOf k.body 8 8) = some (id, t1))) ∧
    -- exchange
    (∃ (d : Dev) (src : Nat) (t1 : Nat) (t2 : Nat) (t3 : Nat) (t4 : Nat) (rtt : Int) (theta : Int) (e : Dev), (src = d.parent ∧ d.flag F.TIME_CFG_GM = false ∧ rtt = (t4 - t1 : Int) - (t3 - t2 : Int) ∧ theta = ((t2 - t1 : Int) - (t4 - t3 : Int)) / 2 - d.asym src) ∧ (e = ({ d with time.rtts := (rtt.toNat :: d.time.rtts).take 16 } : Dev).wr F.TIME_STAT_OFFSET_NS 0 (unsigned (saturate 32 (theta / 65536)) 32)) ∧ (¬ 1500 * 65536 < rtt ∧ ¬ ((20 * 65536 + ((rtt.toNat :: d.time.rtts).take 16).foldl min rtt.toNat : Nat) : Int) < rtt ∧ e.flag F.TIME_CFG_SERVO_EN = true)) ∧
    -- servo locked
    (∃ (d : Dev) (theta : Int), (¬ d.rd F.TIME_CFG_LOSS_NS * 65536 < theta.natAbs)) ∧
    -- servo locked (loss)
    (∃ (d : Dev) (theta : Int), (d.rd F.TIME_CFG_LOSS_NS * 65536 < theta.natAbs)) ∧
    -- choose parent
    (∃ (d : Dev) (p : Nat) (n : Nat) (q : Nat) (m : Nat), (d.flag F.TIME_CFG_GM = false ∧ bestParent d.candidates = some (p, n) ∧ d.candidates.find? (fun e => e.1 == d.parent) = some (q, m))) ∧
    -- PPS_EDGE
    (∃ (s : State) (t16 : BitVec 80) (ok : Bool) (d : Dev), (s.dev.dark = false ∧ s.dev.flag F.TIME_CFG_GM = true) ∧ (d = (Dev.ppsStep { s.dev.advanceToNs (t16.toNat / 65536) with time.tenLocked := ok }))) ∧
    -- pps step
    (∃ (d : Dev) (near : Nat), (d.flag F.TIME_CFG_PPS_EN = true ∧ near = (d.ns16 + 1000000000 * 65536 / 2) / (1000000000 * 65536) * (1000000000 * 65536))) :=
  ⟨⟨tR [(F.TIME_CFG_SERVO_EN, 0, 0)], 5000, _, ⟨by decide +kernel, by decide +kernel, rfl⟩⟩,
   ⟨tR [], _, ⟨rfl, by decide +kernel⟩⟩,
   ⟨tR [], _, _, ⟨by decide +kernel, rfl⟩, rfl⟩,
   ⟨{ dev := tRope }, 0, tRopeK 2 9 5, tRope, _, ⟨by decide +kernel, by decide +kernel, rfl⟩⟩,
   ⟨{ dev := { tRope with ropes := [(0, { exch := [(7, 99)] })] } }, 0, tRopeK 2 9 5 0x701, { tRope with ropes := [(0, { exch := [(7, 99)] })] }, _, 7, 99, ⟨by decide +kernel, by decide +kernel, rfl⟩, by decide +kernel⟩,
   ⟨tTime, 3, 0, 100, 200, 300, 200, 0, _, by decide +kernel, rfl, by decide +kernel⟩,
   ⟨tDev, 0, by decide +kernel⟩,
   ⟨tDev, 1000000000, by decide +kernel⟩,
   ⟨tTime, 3, 2, 3, 2, by decide +kernel⟩,
   ⟨tR [(F.TIME_CFG_GM, 0, 1)], 65536, true, _, by decide +kernel, rfl⟩,
   ⟨tDR [(F.TIME_CFG_PPS_EN, 0, 1)], 0, by decide +kernel⟩⟩

/-- States and operands that meet the hypotheses of each clause of FunctionStates. -/
theorem witness_FunctionStates :
    -- FN_EN_SET (off)
    (∃ (s : State) (fn : Fid) (d : Dev), (d = s.dev.wr F.HST_FN_CTL_EN fn 1 ∧ d.halted = false ∧ d.fnState fn = 0)) ∧
    -- FN_EN_SET (draining)
    (∃ (s : State) (fn : Fid) (d : Dev), (d = s.dev.wr F.HST_FN_CTL_EN fn 1 ∧ d.halted = false ∧ d.fnState fn = 3)) ∧
    -- fn enabling
    (∃ (d : Dev) (f : Nat) (e : Dev), (e = (List.range 16).foldl (fun d k => d.setReg R.PMC_FN_VAL (f * 16 + k) 0) ((((d.keepCut f).wr F.HST_FN_CTL_STATE f 1).wr F.HST_FN_CTL_ENABLE_LATCHED f 0).resetTarget f))) ∧
    -- FN_EN_CLEAR
    (∃ (s : State) (fn : Fid) (d : Dev), (s.dev.flag F.HST_FN_CTL_EN fn = true ∧ d = s.dev.wr F.HST_FN_CTL_EN fn 0)) ∧
    -- fn disable (cut)
    (∃ (d : Dev) (f : Nat) (cause : Nat) (e : Dev), (d.halted = false ∧ d.fnState f ≠ 0 ∧ d.fnState f ≠ 3) ∧ (e = { d.wr F.HST_FN_CTL_CAUSE f cause with host.shut := Tbl.set false f (decide (d.fnState f = 1)) (d.wr F.HST_FN_CTL_CAUSE f cause).host.shut })) ∧
    -- fn disable (grace)
    (∃ (d : Dev) (f : Nat) (cause : Nat) (e : Dev), (d.halted = false ∧ d.fnState f ≠ 0 ∧ d.fnState f ≠ 3) ∧ (e = { d.wr F.HST_FN_CTL_CAUSE f cause with host.shut := Tbl.set false f (decide (d.fnState f = 1)) (d.wr F.HST_FN_CTL_CAUSE f cause).host.shut })) ∧
    -- fn disable (again)
    (∃ (d : Dev) (f : Nat) (cause : Nat) (e : Dev), (d.halted = false ∧ d.fnState f = 3 ∧ e = d.wr F.HST_FN_CTL_CAUSE f cause)) ∧
    -- drain acts
    (∃ (d : Dev) (f : Nat) (e : Dev), (e = ((((d.qFnDisable f).revokeAll f).mtcShutdown f).mtcWake f).rdvDrain f)) ∧
    -- FN_ENABLE_DONE
    (∃ (s : State) (fn : Fid), (s.dev.halted = false ∧ (s.dev.fnState fn != 1) = false)) ∧
    -- FN_DRAIN_DONE
    (∃ (s : State) (fn : Fid), (s.dev.halted = false ∧ (s.dev.fnState fn != 3) = false ∧ s.dev.fnDrained fn = true)) ∧
    -- FN_FORCE_STOP
    (∃ (s : State) (fn : Fid) (t : Nat) (d : Dev), (s.dev.halted = false ∧ s.dev.keptCut fn = none) ∧ (Tbl.find s.dev.host.cutAt fn = some t ∧ d = s.dev.cutOver fn t ∧ (d.liveThreads fn).isEmpty = false)) ∧
    -- FN_FORCE_STOP (kept)
    (∃ (s : State) (fn : Fid) (t : Nat) (l : List Nat), (s.dev.halted = false ∧ s.dev.keptCut fn = some (t, l))) ∧
    -- FLR
    (∃ (s : State), (s.dev.dark = false ∧ s.dev.flag F.BCP_FW_STAT_READY = true)) ∧
    -- cfg request (retry)
    (∃ (s : State), (s.dev.dark = false ∧ s.dev.flag F.BCP_FW_STAT_READY = false)) ∧
    -- BUS_MASTER_CLEAR
    (∃ (s : State) (fn : Fid) (d : Dev), (s.dev.dark = false ∧ s.dev.flag F.BCP_FW_STAT_READY = true) ∧ (Tbl.get s.dev.host.bme false fn = true ∧ d = { s.dev with host.bme := Tbl.set false fn false s.dev.host.bme })) ∧
    -- BUS_MASTER_ENABLE_SET
    (∃ (s : State), (s.dev.dark = false ∧ s.dev.flag F.BCP_FW_STAT_READY = true)) ∧
    -- fn again
    (∃ (d : Dev), (d.halted = false)) ∧
    -- VF_ENABLE_CLEAR
    (∃ (s : State) (fn : Fid) (n : Fin 256) (d : Dev), (s.dev.dark = false ∧ s.dev.flag F.BCP_FW_STAT_READY = true) ∧ (s.dev.isPf fn = true ∧ d = { s.dev with host.vfe := Tbl.set false fn false s.dev.host.vfe, host.numVfs := Tbl.set 0 fn n.val s.dev.host.numVfs })) ∧
    -- VF_ENABLE_SET
    (∃ (s : State) (fn : Fid) (n : Fin 256) (d : Dev), (s.dev.dark = false ∧ s.dev.flag F.BCP_FW_STAT_READY = true ∧ s.dev.isPf fn = true ∧ Tbl.get s.dev.host.vfe false fn = false) ∧ (d = { s.dev with host.vfe := Tbl.set false fn true s.dev.host.vfe, host.numVfs := Tbl.set 0 fn (min n.val (s.dev.totalVfs fn)) s.dev.host.numVfs })) ∧
    -- cut
    (∃ (d : Dev) (f : Nat) (e : Dev) (g : Dev), (e = { d.wr F.HST_FN_CTL_CUT f 1 with host.cutAt := Tbl.put f (d.wr F.HST_FN_CTL_CUT f 1).ps (d.wr F.HST_FN_CTL_CUT f 1).host.cutAt }) ∧ (g = ((((e.defDrain f).chDrain f true).pitCut f).reads.filter (fun r => r.2.fn == f)).foldl (fun x r => x.abandon r.1) (((e.defDrain f).chDrain f true).pitCut f))) :=
  ⟨⟨{ dev := { (tDR [(F.HST_FN_CTL_STATE, 0, 0)]) with host := { bme := [(0, true)] } } }, 0, _, ⟨rfl, by decide +kernel, by decide +kernel⟩⟩,
   ⟨tR [(F.HST_FN_CTL_STATE, 0, 3)], 0, _, ⟨rfl, by decide +kernel, by decide +kernel⟩⟩,
   ⟨tDev, 0, _, rfl⟩,
   ⟨tR [(F.HST_FN_CTL_EN, 0, 1)], 0, _, ⟨by decide +kernel, rfl⟩⟩,
   ⟨tDR [(F.HST_FN_CTL_STATE, 0, 2)], 0, 3, _, by decide +kernel, rfl⟩,
   ⟨tDR [(F.HST_FN_CTL_STATE, 0, 2)], 0, 3, _, by decide +kernel, rfl⟩,
   ⟨tDR [(F.HST_FN_CTL_STATE, 0, 3)], 0, 3, _, ⟨by decide +kernel, by decide +kernel, rfl⟩⟩,
   ⟨tDev, 0, _, rfl⟩,
   ⟨tR [(F.HST_FN_CTL_STATE, 0, 1)], 0, by decide +kernel⟩,
   ⟨tR [(F.HST_FN_CTL_STATE, 0, 3)], 0, by decide +kernel⟩,
   ⟨{ dev := { (tCmd 0 {}).dev with host := { cutAt := [(0, 5)] } } }, 0, 5, _, by decide +kernel, ⟨by decide +kernel, rfl, by decide +kernel⟩⟩,
   ⟨tCmd 0 { cutAt := some 5 }, 0, 5, [0], by decide +kernel⟩,
   ⟨tR [(F.BCP_FW_STAT_READY, 0, 1)], by decide +kernel⟩,
   ⟨tR [], by decide +kernel⟩,
   ⟨{ dev := { (tDR [(F.BCP_FW_STAT_READY, 0, 1)]) with host := { bme := [(0, true)] } } }, 0, _, by decide +kernel, ⟨by decide +kernel, rfl⟩⟩,
   ⟨tR [(F.BCP_FW_STAT_READY, 0, 1)], by decide +kernel⟩,
   ⟨tDev, by decide +kernel⟩,
   ⟨tR [(F.BCP_FW_STAT_READY, 0, 1)], 0, 0, _, by decide +kernel, ⟨by decide +kernel, rfl⟩⟩,
   ⟨tR [(F.BCP_FW_STAT_READY, 0, 1)], 0, 4, _, by decide +kernel, rfl⟩,
   ⟨tDev, 0, _, _, rfl, rfl⟩⟩

/-- States and operands that meet the hypotheses of each clause of HostPorts. -/
theorem witness_HostPorts :
    -- HOST_PERST_DEASSERT
    (∃ (s : State) (p : Hid), (Tbl.get s.dev.host.perstHigh false p = false)) ∧
    -- HOST_LINK_DOWN
    (∃ (s : State) (p : Hid) (d : Dev), (d = s.dev.linkStat p 0 ((s.dev.rd F.HST_PORT_STAT_UP p) - if s.dev.rd F.HST_PORT_STAT_UP p / 2 ^ 0 % 2 = 1 then 2 ^ 0 else 0) 0 0 0)) ∧
    -- HOST_LINK_UP
    (∃ (s : State) (p : Hid) (up : Nat) (x : Word) (d : Dev) (e : Dev), (s.dev.dark = false ∧ Tbl.get s.dev.host.perstHigh false p = true ∧ up = s.dev.rd F.HST_PORT_STAT_UP p ∧ up / 2 ^ 0 % 2 ≠ 1 ∧ s.dev.freeWord = (x, d)) ∧ (e = d.linkStat p 0 (up + 2 ^ 0) (min (getBits x 0 3) (min 6 (d.rdF F.HST_PORT_CFG_MAX_RATE p)))
        (2 ^ (getBits x 3 5 % if d.bifurcated p then 4 else 5))
        (if 5 ≤ min (getBits x 0 3) (min 6 (d.rdF F.HST_PORT_CFG_MAX_RATE p)) then 1 else getBits x 8 1))) ∧
    -- HOST_READ_COMPLETION (unknown)
    (∃ (s : State) (tag : Nat), (Tbl.find s.dev.reads tag = none)) ∧
    -- HOST_READ_COMPLETION
    (∃ (s : State) (tag : Nat) (r : HostRd), (Tbl.find s.dev.reads tag = some r ∧ s.dev.halted = false)) ∧
    -- HOST_CPL_TIMEOUT
    (∃ (s : State) (tag : Nat) (r : HostRd) (d : Dev), (Tbl.find s.dev.reads tag = some r ∧ Tbl.get s.dev.host.ctoOff false r.fn = false ∧ d = (s.dev.advanceTo (s.dev.ctoAt r)).bump F.HST_PORT_ERR_CTO (r.fn / 256))) ∧
    -- HOST_CPL_TIMEOUT (off)
    (∃ (s : State) (tag : Nat) (r : HostRd), (Tbl.find s.dev.reads tag = some r ∧ Tbl.get s.dev.host.ctoOff false r.fn = true)) ∧
    -- INT_CLAIM
    (∃ (s : State) (t : Tgt) (n : Nat) (d : Dev), (s.dev.highest t = some n ∧ d = (s.dev.setPend t ((s.dev.pendOf t).erase n)).setAct t (insertAsc n ((s.dev.setPend t ((s.dev.pendOf t).erase n)).actOf t)))) ∧
    -- INT_CLAIM (none)
    (∃ (s : State) (t : Tgt), (s.dev.highest t = none)) ∧
    -- settle
    (∃ (d : Dev) (t : Nat) (n : Nat), (d.flag F.INT_TGT_STAT_ARMED t = true ∧ d.highest t = some n ∧ t ≠ 1024 ∧ d.msixMay t = true)) ∧
    -- settle (cores)
    (∃ (d : Dev) (n : Nat), (d.flag F.INT_TGT_STAT_ARMED 1024 = true ∧ d.highest 1024 = some n)) ∧
    -- msix send
    (∃ (d : Dev) (f : Nat) (e : MsixEnt), (e = Tbl.get d.host.msix {} f)) ∧
    -- MSIX_UNMASK
    (∃ (s : State) (fn : Fid) (d : Dev), (d = { s.dev with host.msix := Tbl.set {} fn { (Tbl.get s.dev.host.msix {} fn) with masked := false } s.dev.host.msix })) :=
  ⟨⟨{ dev := tDev }, 0, by decide +kernel⟩,
   ⟨{ dev := tDev }, 0, _, rfl⟩,
   ⟨{ dev := { tDev with host := { perstHigh := [(0, true)] } } }, 0, 0, _, _, _, ⟨by decide +kernel, by decide +kernel, by decide +kernel, by decide +kernel, rfl⟩, rfl⟩,
   ⟨{ dev := tDev }, 9, by decide +kernel⟩,
   ⟨tHrd, 9, tHr, by decide +kernel⟩,
   ⟨tHrd, 9, tHr, _, ⟨by decide +kernel, by decide +kernel, rfl⟩⟩,
   ⟨{ dev := { tHrd.dev with host.ctoOff := [(0, true)] } }, 9, tHr, by decide +kernel⟩,
   ⟨tInt, 0, 5, _, ⟨by decide +kernel, rfl⟩⟩,
   ⟨{ dev := tDev }, 0, by decide +kernel⟩,
   ⟨tInt.dev, 0, 5, by decide +kernel⟩,
   ⟨{ ((tDR [(F.INT_TGT_STAT_ARMED, 1024, 1)]).setReg R.INT_TGT_EN 65536 32) with int := { pend := [(1024, [5])] } }, 5, by decide +kernel⟩,
   ⟨tDev, 0, _, rfl⟩,
   ⟨{ dev := { tInt.dev with host := { msixPend := [(0, true)] } } }, 0, _, rfl⟩⟩

/-- States and operands that meet the hypotheses of each clause of DmaChannels. -/
theorem witness_DmaChannels :
    -- DMA_CH_START (run)
    (∃ (s : State) (c : Clu) (h : Fin 64) (ch : Nat) (d : Dev) (b : Dev), (ch = c.val * 64 + h.val ∧ s.dev.halted = false ∧ (b.chSt ch != chIdle) = false ∧ b.chValid ch = true) ∧ (d = (((b.wr F.DMA_CH_CTL_STATUS ch 0).setChan ch {}).wr F.DMA_CH_POS_DONE ch 0).wake (16 + ch / 64)) ∧ (b = s.dev.wake (16 + c.val))) ∧
    -- DMA_CH_START (invalid)
    (∃ (s : State) (c : Clu) (h : Fin 64) (ch : Nat) (b : Dev), (ch = c.val * 64 + h.val ∧ s.dev.halted = false ∧ (b.chSt ch != chIdle) = false ∧ b.chValid ch = false) ∧ (b = s.dev.wake (16 + c.val))) ∧
    -- DMA_CH_PAUSE
    (∃ (s : State) (c : Clu) (h : Fin 64) (ch : Nat) (b : Dev), (ch = c.val * 64 + h.val ∧ s.dev.halted = false) ∧ (b = s.dev.wake (16 + c.val))) ∧
    -- DMA_CH_RESUME
    (∃ (s : State) (c : Clu) (h : Fin 64) (ch : Nat) (b : Dev), (ch = c.val * 64 + h.val ∧ s.dev.halted = false) ∧ (b = s.dev.wake (16 + c.val))) ∧
    -- DMA_CH_RESET
    (∃ (s : State) (c : Clu) (h : Fin 64) (ch : Nat) (b : Dev), (ch = c.val * 64 + h.val ∧ s.dev.halted = false ∧ (b.chSt ch = chPaused ∨ b.chSt ch = chStopped)) ∧ (b = s.dev.wake (16 + c.val))) ∧
    -- ch stop
    (∃ (d : Dev) (ch : Nat) (e : Dev), (e = ((d.disown (.dmaList ch)).disown (.dmaRd ch)).disown (.dmaWr ch))) ∧
    -- DMA_PAUSED
    (∃ (s : State) (c : Clu) (h : Fin 64) (ch : Nat) (d : Dev), (ch = c.val * 64 + h.val ∧ s.dev.halted = false ∧ (s.dev.chSt ch != chPausing) = false ∧ (s.dev.chan ch).rd = none ∧ (s.dev.chan ch).wr = none) ∧ (d = ((s.dev.disown (.dmaList ch)).setChan ch {}).chGo ch chPaused ∧ d.fnState (d.chFn ch) ≠ 3)) ∧
    -- DMA_RLIM_WRITE
    (∃ (s : State) (c : Clu) (h : Fin 64) (ch : Nat) (b : Dev), (ch = c.val * 64 + h.val ∧ s.dev.halted = false) ∧ (b = s.dev.wake (16 + c.val))) ∧
    -- DMA_DATA_READ_DONE (host)
    (∃ (s : State) (c : Clu) (h : Fin 64) (ch : Nat) (v : Nat) (tag : Nat) (p : Bool) (r : HostRd) (r0 : HostRd) (d : Dev), (ch = c.val * 64 + h.val ∧ s.dev.dataRead ch = some (tag, r0) ∧ s.dev.takeRead tag r0.part.2 (.ok v p) = (d, some r)) ∧ (d.flag F.DMA_CL_STAT_STOPPED (ch / 64) = false ∧ (d.chan ch).rd.isSome = true ∧ d.chSt ch = chRun)) ∧
    -- DMA_DATA_READ_DONE (error)
    (∃ (s : State) (c : Clu) (h : Fin 64) (ch : Nat) (tag : Nat) (r : HostRd) (r0 : HostRd) (d : Dev), (ch = c.val * 64 + h.val ∧ s.dev.dataRead ch = some (tag, r0) ∧ s.dev.takeRead tag r0.part.2 .err = (d, some r))) ∧
    -- DMA_DATA_READ_DONE (depot)
    (∃ (s : State) (c : Clu) (h : Fin 64) (ch : Nat) (n : Nat) (e : Elem) (d : Dev), (ch = c.val * 64 + h.val ∧ s.dev.dataRead ch = none ∧ (s.dev.chan ch).elem = some e ∧ (s.dev.chan ch).rd = some n) ∧ ((e.srcWin != 0) = false ∧ s.dev.halted = false ∧ s.dev.flag F.DMA_CL_STAT_STOPPED (ch / 64) = false) ∧ (d = (s.dev.depWake.ev 11 0).depMeet (s.dev.chSrc ch e) n)) ∧
    -- DMA_LIST_FETCH_DONE (depot)
    (∃ (s : State) (c : Clu) (h : Fin 64) (ch : Nat) (d : Dev), (ch = c.val * 64 + h.val ∧ s.dev.listRead ch = none ∧ (s.dev.chan ch).fetching = true ∧ ((s.dev.chan ch).parts != 0) = false ∧ s.dev.halted = false) ∧ (s.dev.flag F.DMA_CL_STAT_STOPPED (ch / 64) = false ∧ s.dev.flag F.DMA_CH_CFG_LIST_IN_DEPOT ch = true) ∧ (d = (s.dev.depWake.ev 11 0).depMeet (s.dev.rd F.DMA_CH_LPOS_LPOS ch) 32)) ∧
    -- DMA_LIST_FETCH_DONE (ahead)
    (∃ (s : State) (c : Clu) (h : Fin 64) (ch : Nat), (ch = c.val * 64 + h.val ∧ s.dev.listRead ch = none ∧ (s.dev.chan ch).fetching = true ∧ ((s.dev.chan ch).parts != 0) = false ∧ s.dev.halted = false) ∧ (s.dev.flag F.DMA_CL_STAT_STOPPED (ch / 64) = false ∧ s.dev.flag F.DMA_CH_CFG_LIST_IN_DEPOT ch = false)) ∧
    -- DMA_LIST_FETCH_DONE (host)
    (∃ (s : State) (c : Clu) (h : Fin 64) (ch : Nat) (v : Nat) (tag : Nat) (r : HostRd) (r0 : HostRd) (d : Dev) (e : Dev), (ch = c.val * 64 + h.val ∧ s.dev.listRead ch = some (tag, r0) ∧ s.dev.takeRead tag r0.part.2 (.ok v false) = (d, some r)) ∧ ((d.chan ch).fetching = true ∧ d.flag F.DMA_CL_STAT_STOPPED (ch / 64) = false ∧ (d.chan ch).ahead = false) ∧ (e = d.updChan ch (fun x => { x with parts := x.parts - 1, buf := x.buf + v % 2 ^ (8 * r0.part.2) * 2 ^ (8 * r0.part.1) }) ∧ (e.chan ch).parts = 0)) ∧
    -- DMA_LIST_FETCH_DONE (error)
    (∃ (s : State) (c : Clu) (h : Fin 64) (ch : Nat) (tag : Nat) (r : HostRd) (r0 : HostRd) (d : Dev), (ch = c.val * 64 + h.val ∧ s.dev.listRead ch = some (tag, r0) ∧ s.dev.takeRead tag r0.part.2 .err = (d, some r)) ∧ ((d.chan ch).fetching = true ∧ d.flag F.DMA_CL_STAT_STOPPED (ch / 64) = false)) ∧
    -- ch elem
    (∃ (d : Dev) (ch : Nat) (e : Dev), (e = d.updChan ch (fun x => { x with fetching := false, parts := 0, buf := 0 }))) ∧
    -- ch end (last)
    (∃ (d : Dev) (ch : Nat) (x : Elem) (e : Dev), (e = ((d.updChan ch (fun x => { x with elem := none })).wr F.DMA_CH_POS_DONE ch 0).ev 9 2 (some (ch / 64)) (some (((d.updChan ch (fun x => { x with elem := none })).wr F.DMA_CH_POS_DONE ch 0).chFn ch))) ∧ (x.last = true ∧ e.flag F.DMA_CH_CFG_CTR_EN ch = true)) ∧
    -- DMA_CLUSTER_STOP_DONE
    (∃ (s : State) (c : Clu), (s.dev.halted = false ∧ Tbl.get s.dev.dma.stopping false c = true ∧ (s.dev.clusterReads c != 0) = false)) ∧
    -- cluster fail
    (∃ (d : Dev) (c : Nat) (a : Nat) (e : Dev), (d.flag F.DMA_CL_STAT_STOPPED c = false ∧ e = ((d.wr F.DMA_CL_STAT_STOPPED c 1).bump F.DMA_CL_STAT_STOPS c).setReg R.DMA_CL_ERR c (BitVec.ofNat 64 a))) ∧
    -- DMA_CL_CLEAR
    (∃ (s : State) (c : Clu) (b : Dev), (b = s.dev.wake (16 + c.val) ∧ b.halted = false ∧ Tbl.get b.dma.stopping false c = false ∧ b.flag F.DMA_CL_STAT_STOPPED c = true)) :=
  ⟨⟨tR [(F.DMA_CH_CFG_LOG2_RING, 3, 12)], 0, 3, 3, _, _, by decide +kernel, rfl, rfl⟩,
   ⟨tR [(F.DMA_CH_CFG_LOG2_RING, 3, 9)], 0, 3, 3, _, by decide +kernel, rfl⟩,
   ⟨tR [(F.DMA_CH_CTL_STATE, 3, 2)], 0, 3, 3, _, by decide +kernel, rfl⟩,
   ⟨tR [(F.DMA_CH_CTL_STATE, 3, 4)], 0, 3, 3, _, by decide +kernel, rfl⟩,
   ⟨tR [(F.DMA_CH_CTL_STATE, 3, 4)], 0, 3, 3, _, by decide +kernel, rfl⟩,
   ⟨tDev, 3, _, rfl⟩,
   ⟨tR [(F.DMA_CH_CTL_STATE, 3, 3)], 0, 3, 3, _, by decide +kernel, ⟨rfl, by decide +kernel⟩⟩,
   ⟨tR [], 0, 3, 3, _, by decide +kernel, rfl⟩,
   ⟨tDma (some 8) none, 0, 3, 3, 99, 9, false, tDmaR (.dmaRd 3), tDmaR (.dmaRd 3), ((tDma (some 8) none).dev.takeRead 9 8 (.ok 99 false)).1, by decide +kernel, by decide +kernel⟩,
   ⟨tDma (some 8) none, 0, 3, 3, 9, tDmaR (.dmaRd 3), tDmaR (.dmaRd 3), ((tDma (some 8) none).dev.takeRead 9 8 .err).1, by decide +kernel⟩,
   ⟨tDmaDep, 0, 60, 60, 8, tElem, _, by decide +kernel, by decide +kernel, rfl⟩,
   ⟨{ dev := { (tDR [(F.DMA_CH_CFG_LIST_IN_DEPOT, 60, 1)]) with dma := { ch := [(60, { fetching := true })] } } }, 0, 60, 60, _, by decide +kernel, by decide +kernel, rfl⟩,
   ⟨{ dev := { tDev with dma := { ch := [(60, { fetching := true })] } } }, 0, 60, 60, by decide +kernel, by decide +kernel⟩,
   ⟨tDmaL, 0, 3, 3, 99, 9, tDmaR (.dmaList 3), tDmaR (.dmaList 3), (tDmaL.dev.takeRead 9 8 (.ok 99 false)).1, _, by decide +kernel, by decide +kernel, ⟨rfl, by decide +kernel⟩⟩,
   ⟨tDmaL, 0, 3, 3, 9, tDmaR (.dmaList 3), tDmaR (.dmaList 3), (tDmaL.dev.takeRead 9 8 .err).1, by decide +kernel, by decide +kernel⟩,
   ⟨tDev, 3, _, rfl⟩,
   ⟨tDR [(F.DMA_CH_CFG_CTR_EN, 3, 1)], 3, tElem, _, rfl, by decide +kernel⟩,
   ⟨{ dev := { tDev with dma := { stopping := [(0, true)] } } }, 0, by decide +kernel⟩,
   ⟨tDev, 0, 4096, _, ⟨by decide +kernel, rfl⟩⟩,
   ⟨tR [(F.DMA_CL_STAT_STOPPED, 0, 1)], 0, _, ⟨rfl, by decide +kernel, by decide +kernel, by decide +kernel⟩⟩⟩

/-- States and operands that meet the hypotheses of each clause of CountersAndHostPitons. -/
theorem witness_CountersAndHostPitons :
    -- DMA_CTR_ADD_WRITE
    (∃ (s : State), (s.dev.halted = false)) ∧
    -- CTR_ADD (foreign)
    (∃ (d : Dev) (n : Nat) (fn : Nat), (d.ctrOwner n ≠ some fn)) ∧
    -- DMA_CTR_ARM
    (∃ (s : State) (fn : Nat), (s.dev.halted = false ∧ s.dev.ctrOwner (s.dev.rd F.DMA_CTR_ARM0_CTR) = some fn ∧ s.dev.defRoom = true)) ∧
    -- DMA_CTR_ARM (refused)
    (∃ (s : State), (s.dev.halted = false)) ∧
    -- DEFER_FIRE (event)
    (∃ (s : State) (e : DefEnt) (slot : Nat) (entry : Nat), (s.dev.halted = false ∧ s.dev.defNext = some e ∧ e.what = .event slot entry)) ∧
    -- DEFER_FIRE (chan)
    (∃ (s : State) (e : DefEnt) (ch : Nat), (s.dev.halted = false ∧ s.dev.defNext = some e ∧ e.what = .chan ch)) ∧
    -- def next
    (∃ (d : Dev) (e : DefEnt), (d.defNext = some e)) ∧
    -- PIT_LOCK_READ (free)
    (∃ (s : State) (fn : Fid) (n : BitVec 12), (s.dev.dark = false ∧ s.dev.isPf fn = true ∧ s.dev.flag F.BCP_FW_STAT_READY = true ∧ s.dev.gateFail 1 2 (some fn.val) (pitLock n.toNat) 8 1 = none) ∧ (s.dev.pitRight (.host fn) (n.toNat / 64) false = true ∧ (s.dev.piton n.toNat).holder = none)) ∧
    -- PIT_LOCK_READ (rights)
    (∃ (s : State) (fn : Fid) (n : BitVec 12), (s.dev.dark = false ∧ s.dev.isPf fn = true ∧ s.dev.flag F.BCP_FW_STAT_READY = true ∧ s.dev.gateFail 1 2 (some fn.val) (pitLock n.toNat) 8 1 = none) ∧ (s.dev.pitRight (.host fn) (n.toNat / 64) false = false)) ∧
    -- PIT_LOCK_READ (held)
    (∃ (s : State) (fn : Fid) (n : BitVec 12) (x : Holder) (k : Nat), (s.dev.dark = false ∧ s.dev.isPf fn = true ∧ s.dev.flag F.BCP_FW_STAT_READY = true ∧ s.dev.gateFail 1 2 (some fn.val) (pitLock n.toNat) 8 1 = none) ∧ (s.dev.pitRight (.host fn) (n.toNat / 64) false = true ∧ (s.dev.piton n.toNat).holder = some (x, k))) ∧
    -- PIT_LOCK_WRITE (release)
    (∃ (s : State) (fn : Fid) (n : BitVec 12) (k : Nat), (s.dev.dark = false ∧ s.dev.isPf fn = true ∧ s.dev.flag F.BCP_FW_STAT_READY = true ∧ s.dev.gateFail 1 2 (some fn.val) (pitLock n.toNat) 8 2 = none) ∧ (s.dev.pitRight (.host fn) (n.toNat / 64) false = true ∧ (s.dev.piton n.toNat).holder = some (.host fn, k))) ∧
    -- PIT_LOCK_WRITE (misuse)
    (∃ (s : State) (fn : Fid) (n : BitVec 12), (s.dev.dark = false ∧ s.dev.isPf fn = true ∧ s.dev.flag F.BCP_FW_STAT_READY = true ∧ s.dev.gateFail 1 2 (some fn.val) (pitLock n.toNat) 8 2 = none) ∧ ((s.dev.piton n.toNat).holder = none)) ∧
    -- PIT_HOST_WAIT_EXPIRE
    (∃ (s : State) (fn : Fid) (n : BitVec 12) (x : Waiter) (d : Dev), (s.dev.halted = false ∧ (s.dev.piton n.toNat).hostWaiter fn = some x ∧ d = s.dev.advanceTo (x.since + nsPs s.dev.hostWait))) ∧
    -- PIT_ENG_WAIT_EXPIRE
    (∃ (s : State) (th : Tid) (n : Nat) (wd : Nat) (since : Nat) (us : Nat) (d : Dev), (s.dev.halted = false ∧ (s.dev.thr th).stall = .piton n wd since ∧ s.dev.rd F.PIT_CFG_ENG_WAIT_US = us ∧ us ≠ 0 ∧ d = s.dev.advanceTo (since + usPs us))) ∧
    -- reaches
    (∃ (v : Nat) (t : Nat), (v < 2 ^ 48 ∧ t < 2 ^ 48)) :=
  ⟨⟨tR [], by decide +kernel⟩,
   ⟨tDR [(F.DMA_CTR_OWNER_EN, 3, 1)], 3, 5, by decide +kernel⟩,
   ⟨tR [(F.DMA_CTR_OWNER_EN, 0, 1)], 0, by decide +kernel⟩,
   ⟨tR [], by decide +kernel⟩,
   ⟨tDefer (.event 3 4), { id := 1, ctr := 5, thresh := 7, fn := 0, what := .event 3 4, ripe := some 1 }, 3, 4, by decide +kernel⟩,
   ⟨tDefer (.chan 3), { id := 1, ctr := 5, thresh := 7, fn := 0, what := .chan 3, ripe := some 1 }, 3, by decide +kernel⟩,
   ⟨(tDefer (.chan 3)).dev, { id := 1, ctr := 5, thresh := 7, fn := 0, what := .chan 3, ripe := some 1 }, by decide +kernel⟩,
   ⟨tHpit none, 0, 5, by decide +kernel, by decide +kernel⟩,
   ⟨tHpit none, 0, 100, by decide +kernel, by decide +kernel⟩,
   ⟨tHpit (some (.thread 3 0, 2)), 0, 5, .thread 3 0, 2, by decide +kernel, by decide +kernel⟩,
   ⟨tHpit (some (.host 0, 2)), 0, 5, 2, by decide +kernel, by decide +kernel⟩,
   ⟨tHpit none, 0, 5, by decide +kernel, by decide +kernel⟩,
   ⟨tHwait, 0, 5, { who := .host 0, prio := 0, order := 1, since := 0, wd := 0 }, _, ⟨by decide +kernel, by decide +kernel, rfl⟩⟩,
   ⟨tEwait, 0, 5, 6, 0, 9, _, ⟨by decide +kernel, by decide +kernel, by decide +kernel, by decide +kernel, rfl⟩⟩,
   ⟨5, 3, by decide +kernel⟩⟩

/-- States and operands that meet the hypotheses of each clause of DepotSoftware. -/
theorem witness_DepotSoftware :
    -- DEP_BUF_ALLOC (got)
    (∃ (s : State) (r : Req) (d : Dev) (e : Dev) (k : Nat) (l : List Nat), (s.dev.reaches r = true ∧ s.dev.reqGate r 0x1600020 8 1 = (d, true) ∧ d.alloc 4 (reqObj r) 1 = (e, some (k :: l))) ∧ (∀ fn, r ≠ .vf fn)) ∧
    -- DEP_BUF_ALLOC (none)
    (∃ (s : State) (r : Req) (d : Dev) (e : Dev), (s.dev.reaches r = true ∧ s.dev.reqGate r 0x1600020 8 1 = (d, true) ∧ d.alloc 4 (reqObj r) 1 = (e, none)) ∧ (∀ fn, r ≠ .vf fn)) ∧
    -- DEP_BUF_FREE
    (∃ (s : State) (r : Req) (d : Dev), (s.dev.reaches r = true ∧ s.dev.reqGate r 0x1600028 8 2 = (d, true)) ∧ (∀ fn, r ≠ .vf fn)) ∧
    -- free
    (∃ (d : Dev) (addr : Nat) (k : Nat) (e : Dev), (addr = d.poolBase + k * 2048 ∧ k < d.poolBufs ∧ e = { d with dep.bufs := Tbl.del k d.dep.bufs })) ∧
    -- DEP_ACC_READ
    (∃ (s : State) (r : Req) (ecc : Ecc) (d : Dev) (e : Dev) (g : Dev) (x : TWord), (s.dev.reaches r = true ∧ s.dev.reqGate r 0x1600038 8 1 = (d, true) ∧ d.accGate r 1 = (e, true) ∧ e.depWake.depRead (e.rd F.DEP_ACC_ADDR_ADDR * 8) ecc = (g, x)) ∧ (∀ fn, r ≠ .vf fn)) ∧
    -- DEP_ACC_WRITE
    (∃ (s : State) (r : Req) (d : Dev) (e : Dev), (s.dev.reaches r = true ∧ s.dev.reqGate r 0x1600038 8 2 = (d, true) ∧ d.accGate r 2 = (e, true)) ∧ (∀ fn, r ≠ .vf fn)) ∧
    -- acc gate
    (∃ (d : Dev) (r : Req) (need : Nat) (b : Nat), (d.gateFail 0 (reqCls r) (reqFn r) (d.rd F.DEP_ACC_ADDR_ADDR * 8) 8 need = some b)) ∧
    -- req gate
    (∃ (d : Dev) (r : Req) (a : Nat) (n : Nat) (need : Nat) (b : Nat), (d.gateFail 1 (reqCls r) (reqFn r) a n need = some b)) ∧
    -- POOL_AUDIT
    (∃ (s : State) (d : Dev), (s.dev.dark = false ∧ d = s.dev.advanceTo ((s.dev.ps / usPs 1 + 1) * usPs 1))) ∧
    -- POOL_WALK
    (∃ (s : State), (s.dev.dark = false)) ∧
    -- SCRUB_STEP (depot)
    (∃ (s : State), (s.dev.dark = false ∧ s.dev.flag F.DEP_SCRUB_CFG_EN = true)) ∧
    -- SCRUB_STEP (scratch)
    (∃ (s : State), (s.dev.dark = false ∧ s.dev.flag F.DEP_SCRUB_CFG_EN = true)) ∧
    -- SCRUB_STEP (cache)
    (∃ (s : State), (s.dev.dark = false ∧ s.dev.flag F.DEP_SCRUB_CFG_EN = true)) ∧
    -- SCRUB_STEP (pass end)
    (∃ (s : State), (s.dev.dark = false ∧ s.dev.flag F.DEP_SCRUB_CFG_EN = true)) :=
  ⟨⟨{ dev := tDev }, .bcp, tDev, _, _, _, ⟨by decide +kernel, by decide +kernel, rfl⟩, by intro fn h; cases h⟩,
   ⟨tR [(F.DEP_POOL_CLASS_INUSE, 4, 524288)], .bcp, (tR [(F.DEP_POOL_CLASS_INUSE, 4, 524288)]).dev, ((tR [(F.DEP_POOL_CLASS_INUSE, 4, 524288)]).dev.alloc 4 1024 1).1, by decide +kernel, by intro fn h; cases h⟩,
   ⟨{ dev := tDev }, .bcp, tDev, by decide +kernel, by intro fn h; cases h⟩,
   ⟨tPool.dev, (tPool.dev).poolBase, 0, _, ⟨by decide +kernel, by decide +kernel, rfl⟩⟩,
   ⟨{ dev := tGates }, .dbg, .none, tGates, tGates, (tGates.depWake.depRead 0 .none).1, 0, by decide +kernel, by intro fn h; cases h⟩,
   ⟨{ dev := tGates }, .dbg, tGates, tGates, by decide +kernel, by intro fn h; cases h⟩,
   ⟨tDR [(F.DEP_ACC_ADDR_ADDR, 0, 2 ^ 30)], .bcp, 1, 2 ^ 33, by decide +kernel⟩,
   ⟨tDR [(F.TGT_CFG_DBG_LOCK, 0, 1)], .dbg, 0x1600038, 8, 1, 0x1600038, by decide +kernel⟩,
   ⟨{ dev := tDev }, _, ⟨by decide +kernel, rfl⟩⟩,
   ⟨{ dev := tDev }, by decide +kernel⟩,
   ⟨tR [(F.DEP_SCRUB_CFG_EN, 0, 1)], by decide +kernel⟩,
   ⟨tR [(F.DEP_SCRUB_CFG_EN, 0, 1)], by decide +kernel⟩,
   ⟨tR [(F.DEP_SCRUB_CFG_EN, 0, 1)], by decide +kernel⟩,
   ⟨tR [(F.DEP_SCRUB_CFG_EN, 0, 1)], by decide +kernel⟩⟩

/-- States and operands that meet the hypotheses of each clause of ArbitersAndGating. -/
theorem witness_ArbitersAndGating :
    -- ARB_GRANT
    (∃ (s : State) (a : Fin 6) (inst : Fin 64) (k : Nat), (s.dev.dark = false ∧ ¬ arbInsts a ≤ inst.val ∧ k = arbKey a inst)) ∧
    -- longest
    (∃ (x : Arb) (n : Nat) (t : Nat), (x.longest = some (n, t))) ∧
    -- ARB_HOLD_CUT
    (∃ (s : State) (a : Fin 6) (inst : Fin 64) (k : Nat) (n : Nat) (t : Nat) (d : Dev) (e : Dev), (s.dev.dark = false ∧ k = arbKey a inst ∧ (s.dev.arb k).grant = some (n, t) ∧ ¬ n < 2) ∧ (d = s.dev.setArb k { s.dev.arb k with grant := none, waiting := (s.dev.arb k).waiting ++ [(n, s.dev.ps)] } ∧ e = d.setReg R.ARB_FLAGS a (setBits (d.reg R.ARB_FLAGS a) n 1 1))) ∧
    -- DEPOT_PREEMPT
    (∃ (s : State) (inst : Fin 64) (m : Nat) (t : Nat), (s.dev.dark = false ∧ s.dev.dep.selfRefresh = false ∧ (s.dev.arb inst).grant = some (m, t) ∧ ¬ m < 2)) ∧
    -- DEPOT_SELF_REFRESH
    (∃ (s : State) (d : Dev), (s.dev.dark = false ∧ s.dev.flag F.PWR_POLICY_DEPOT_SR_EN = true ∧ s.dev.dep.selfRefresh = false ∧ s.dev.dep.arbs.any (fun e => e.1 < 64 && !e.2.waiting.isEmpty) = false) ∧ (d = (s.dev.advance (usPs (max 10 (s.dev.rd F.PWR_GATE_CFG_SR_IDLE_US)))).ev 11 3)) ∧
    -- CLUSTER_CLOCK_GATE
    (∃ (s : State) (u : Fin 32), (s.dev.dark = false ∧ s.dev.unitWarm u = false ∧ s.dev.unitIdle u = true ∧ s.dev.domGated u false = false ∧ s.dev.domGated u true = false ∧ s.dev.eng.waking.contains u.val = false)) ∧
    -- CLUSTER_POWER_GATE
    (∃ (s : State) (u : Fin 32) (d : Dev), (s.dev.dark = false ∧ s.dev.unitWarm u = false ∧ s.dev.unitIdle u = true ∧ s.dev.domGated u true = false ∧ s.dev.eng.waking.contains u.val = false) ∧ (u.val < 16 ∧ d = ((s.dev.advanceTo (s.dev.idleFrom u + usPs (max 10 (s.dev.rd F.PWR_GATE_CFG_PWR_IDLE_US)))).setGated u false 0).setGated u true 1)) ∧
    -- UNIT_WAKE_DONE
    (∃ (s : State) (u : Fin 32) (d : Dev) (e : Dev), (s.dev.dark = false ∧ s.dev.eng.waking.contains u.val = true) ∧ (d = ((s.dev.advance (if s.dev.domGated u true then nsPs 1500 else nsPs 20)).setGated u false 0).setGated u true 0) ∧ (e = { d with eng.waking := d.eng.waking.erase u.val, eng.idleSince := Tbl.put u.val d.ps d.eng.idleSince })) :=
  ⟨⟨{ dev := tDev }, 5, 0, 320, by decide +kernel⟩,
   ⟨{ waiting := [(3, 9), (2, 9)] }, 2, 9, by decide +kernel⟩,
   ⟨{ dev := { tDev with dep := { arbs := [(320, { grant := some (3, 0) })] } } }, 5, 0, 320, 3, 0, _, _, by decide +kernel, ⟨rfl, rfl⟩⟩,
   ⟨{ dev := { tDev with dep := { arbs := [(4, { grant := some (3, 0) })] } } }, 4, 3, 0, by decide +kernel⟩,
   ⟨tR [(F.PWR_POLICY_DEPOT_SR_EN, 0, 1)], _, by decide +kernel, rfl⟩,
   ⟨{ dev := tDev }, 3, by decide +kernel⟩,
   ⟨{ dev := tDev }, 3, _, by decide +kernel, ⟨by decide, rfl⟩⟩,
   ⟨{ dev := { tDev with eng := { waking := [3] } } }, 3, _, _, by decide +kernel, rfl, rfl⟩⟩

/-- States and operands that meet the hypotheses of each clause of PowerStates. -/
theorem witness_PowerStates :
    -- POWER_ON
    (∃ (s : State), (s.dev.pwr.state = .off)) ∧
    -- cold
    (∃ (d : Dev) (keep : Tbl Word) (e : Dev), (d.host.perstHigh = [] ∧ e = Dev.loadWhiteout { regs := keep, ps := d.ps, fresh := d.fresh, log := d.log, pwr := d.pwr, bcp := d.bcp.kept, host := {} })) ∧
    -- SYS_RESET
    (∃ (s : State) (d : Dev), (s.dev.pwr.state = .start ∨ s.dev.pwr.state = .run ∨ s.dev.pwr.state = .safe) ∧ (d = (s.dev.advance (usPs 10)).cold (keptRegs s.dev.regs))) ∧
    -- SYS_RESET (low)
    (∃ (s : State), (s.dev.pwr.state = .off ∨ s.dev.pwr.state = .bivouac)) ∧
    -- SYS_RESET (whiteout)
    (∃ (s : State), (s.dev.pwr.state = .whiteout)) ∧
    -- SYS_RESET_RELEASE (up)
    (∃ (s : State), (s.dev.pwr.state = .bivouac ∧ s.dev.pwr.fromOff = true ∧ s.dev.pwr.down = false)) ∧
    -- SYS_RESET_RELEASE (start)
    (∃ (s : State) (d : Dev), (s.dev.pwr.state = .start ∧ s.dev.pwr.inReset = true) ∧ (d = Dev.wr { s.dev with pwr.inReset := false } F.PWR_STATE_EXIT_CAUSE 0 2)) ∧
    -- WAKE_N
    (∃ (s : State), (s.dev.pwr.state = .bivouac ∧ s.dev.pwr.fromOff = false ∧ s.dev.pwr.inReset = false ∧ s.dev.pwr.down = false)) ∧
    -- RAIL_PG_RISE
    (∃ (s : State) (k : Fin 5) (d : Dev), (s.dev.pwr.down = false ∧ s.dev.pwr.en.getLsbD k = true ∧ s.dev.pwr.pg.getLsbD k = false) ∧ (d = { s.dev with pwr.pg := setRail s.dev.pwr.pg k true })) ∧
    -- check ref
    (∃ (d : Dev) (e : Dev) (n : Nat), (d.pick 2 = (n, e))) ∧
    -- RAIL_DOWN_STEP
    (∃ (s : State) (k : Fin 5) (n : Nat) (d : Dev), (s.dev.pwr.down = true ∧ s.dev.fallDue k = true ∧ s.dev.pick 2 = (n, d))) ∧
    -- RAIL_PG_TIMEOUT
    (∃ (s : State) (k : Fin 5), (s.dev.railed = true ∧ s.dev.pwr.down = false ∧ s.dev.pwr.en.getLsbD k = true ∧ s.dev.pwr.pg.getLsbD k = false)) ∧
    -- RAIL_PG_LOST
    (∃ (s : State) (k : Fin 5), (s.dev.railed = true ∧ s.dev.pwr.down = false ∧ s.dev.pwr.en.getLsbD k = true ∧ s.dev.pwr.pg.getLsbD k = true)) ∧
    -- rail fail
    (∃ (d : Dev) (e : Dev) (k : Nat) (kind : Nat), (e = (d.wr F.PWR_RAIL_FAULT_RAIL 0 (2 ^ k)).wr F.PWR_RAIL_FAULT_KIND 0 kind)) ∧
    -- REFCLK_RECHECK
    (∃ (s : State), (s.dev.pwr.state = .start ∧ s.dev.pwr.refBad = true)) ∧
    -- PWR_ENTER_BIVOUAC
    (∃ (s : State), (s.dev.pwr.state = .run ∧ s.dev.mayBivouac = true)) ∧
    -- PWR_ENTER_BIVOUAC (ignored)
    (∃ (s : State), (s.dev.pwr.state = .run ∧ s.dev.mayBivouac = false)) ∧
    -- may bivouac
    (∃ (d : Dev), (d.mayBivouac = true)) :=
  ⟨⟨{ dev := { tDev with pwr.state := .off } }, by decide +kernel⟩,
   ⟨tDev, [], _, ⟨rfl, rfl⟩⟩,
   ⟨{ dev := tDev }, _, by decide +kernel, rfl⟩,
   ⟨{ dev := { tDev with pwr.state := .bivouac } }, by decide +kernel⟩,
   ⟨{ dev := { tDev with pwr.state := .whiteout } }, by decide +kernel⟩,
   ⟨{ dev := { tDev with pwr := { state := .bivouac, fromOff := true } } }, by decide +kernel⟩,
   ⟨{ dev := { tDev with pwr := { state := .start, inReset := true } } }, _, by decide +kernel, rfl⟩,
   ⟨{ dev := { tDev with pwr.state := .bivouac } }, by decide +kernel⟩,
   ⟨{ dev := { tDev with pwr := { state := .start, en := 1, pg := 0 } } }, 0, _, by decide +kernel, rfl⟩,
   ⟨tDev, (tDev.pick 2).2, (tDev.pick 2).1, rfl⟩,
   ⟨{ dev := { tDev with pwr := { state := .bivouac, en := 0, down := true } } }, 0, _, _, ⟨by decide +kernel, by decide +kernel, rfl⟩⟩,
   ⟨{ dev := { tDev with pwr := { state := .start, en := 1, pg := 0 } } }, 0, by decide +kernel⟩,
   ⟨{ dev := tDev }, 3, by decide +kernel⟩,
   ⟨tDev, _, 1, 2, rfl⟩,
   ⟨{ dev := { tDev with pwr := { state := .start, refBad := true } } }, by decide +kernel⟩,
   ⟨tR [(F.HST_FN_CTL_STATE, 0, 0)], by decide +kernel⟩,
   ⟨tR [(F.HST_FN_CTL_STATE, 0, 2)], by decide +kernel⟩,
   ⟨tDR [(F.HST_FN_CTL_STATE, 0, 0)], by decide +kernel⟩⟩

/-- States and operands that meet the hypotheses of each clause of BootAndFirmware. -/
theorem witness_BootAndFirmware :
    -- FW_LOAD_DONE (ok)
    (∃ (s : State) (n : Nat) (l : Dev) (d : Dev) (e : Dev), (s.dev.pwr.state = .start ∧ s.dev.dark = false ∧ s.dev.rd F.BCP_FW_STAT_STATE = 0 ∧ n = s.dev.bcp.preferred % 2 ∧ l = s.dev.loadCode 0 (s.dev.slotImage n)) ∧ (l.authOk (l.slotImage n) true = true ∧ d = l.startImage n 0 ∧ e = d.wr F.BCP_FW_STAT_FALLBACK 0 (if l.bcp.tried.isEmpty then 0 else 1))) ∧
    -- FW_LOAD_DONE (next)
    (∃ (s : State) (n : Nat) (l : Dev), (s.dev.pwr.state = .start ∧ s.dev.dark = false ∧ s.dev.rd F.BCP_FW_STAT_STATE = 0 ∧ n = s.dev.bcp.preferred % 2 ∧ l = s.dev.loadCode 0 (s.dev.slotImage n)) ∧ (l.authOk (l.slotImage n) true = false ∧ l.bcp.tried = [])) ∧
    -- FW_LOAD_DONE (no image)
    (∃ (s : State) (n : Nat) (l : Dev), (s.dev.pwr.state = .start ∧ s.dev.dark = false ∧ s.dev.rd F.BCP_FW_STAT_STATE = 1 ∧ n = s.dev.bcp.loading ∧ l = s.dev.loadCode 0 (s.dev.slotImage n)) ∧ (l.authOk (l.slotImage n) true = false ∧ l.bcp.tried.isEmpty = false)) ∧
    -- start image
    (∃ (d : Dev) (r : Nat) (e : Dev), (e = { d with bcp.region := r })) ∧
    -- FW_READY (boot)
    (∃ (s : State) (d : Dev), (s.dev.bcp.swap = none ∧ s.dev.pwr.state = .start ∧ s.dev.dark = false ∧ s.dev.rd F.BCP_FW_STAT_STATE = 2 ∧ s.dev.flag F.BCP_FW_STAT_READY 0 = false) ∧ (s.dev.flt.safeStart.filter (fun k => getBits (s.dev.reg R.FLT_STICKY) k 1 == 1) = [] ∧ d = { s.dev.wr F.BCP_FW_STAT_READY 0 1 with pwr.state := .run, flt.safeStart := [] })) ∧
    -- FW_READY (safe)
    (∃ (s : State) (d : Dev) (k : Nat) (l : List Nat), (s.dev.bcp.swap = none ∧ s.dev.pwr.state = .start ∧ s.dev.dark = false ∧ s.dev.rd F.BCP_FW_STAT_STATE = 2 ∧ s.dev.flag F.BCP_FW_STAT_READY 0 = false) ∧ (s.dev.flt.safeStart.filter (fun k => getBits (s.dev.reg R.FLT_STICKY) k 1 == 1) = k :: l ∧ d = { s.dev.wr F.BCP_FW_STAT_READY 0 1 with pwr.state := .run, flt.safeStart := [] })) ∧
    -- FW_READY (swapped)
    (∃ (s : State) (n : Nat) (t : Nat) (m : Nat) (d : Dev), (s.dev.dark = false ∧ s.dev.bcp.swap = some (n, t, some m) ∧ (n == s.dev.rd F.BCP_FW_STAT_SLOT) = false) ∧ (d = { s.dev.handLoad.runImage n with bcp.swap := none, bcp.preferred := n, bcp.staged := none })) ∧
    -- FW_READY (kept)
    (∃ (s : State) (n : Nat) (t : Nat) (m : Nat) (d : Dev), (s.dev.dark = false ∧ s.dev.bcp.swap = some (n, t, some m) ∧ (n == s.dev.rd F.BCP_FW_STAT_SLOT) = true) ∧ (d = { s.dev.handLoad.runImage n with bcp.swap := none })) ∧
    -- fw resume
    (∃ (d : Dev) (e : Dev), (e = (if d.bcp.margin then d.applyMargin else d))) ∧
    -- FW_SWAP_TIMEOUT
    (∃ (s : State) (n : Nat) (t : Nat) (m : Option Nat) (d : Dev), (s.dev.bcp.swap = some (n, t, m) ∧ s.dev.dark = false ∧ ¬ n = s.dev.rd F.BCP_FW_STAT_SLOT) ∧ (d = (s.dev.advanceTo (t + msPs 20)).wr F.BCP_FW_STAT_REVERTED 0 1)) ∧
    -- MBX_FW_STAGE
    (∃ (s : State) (m : Fin 8), (s.dev.mbxNew m 3 ∧ s.dev.bcp.stage = none)) ∧
    -- MBX_FW_STAGE (waits)
    (∃ (s : State) (m : Fin 8) (j : Stage), (s.dev.mbxNew m 3 ∧ s.dev.bcp.stage = some j)) ∧
    -- stage step
    (∃ (d : Dev) (j : Stage) (k : Nat), (d.bcp.stage = some j ∧ k = min (4096 - d.winVa j.win (j.off + j.got) % 4096) (j.len - j.got))) ∧
    -- stage stop
    (∃ (d : Dev) (j : Stage), (d.bcp.stage = some j)) ∧
    -- stage image
    (∃ (d : Dev) (len : Nat) (data : Nat) (g : Dev) (n : Nat), (n = d.idleSlot ∧ g = { d with bcp.flash := (List.range ((len + 4095) / 4096)).foldl (fun t i => Tbl.set 0 (256 + 2048 * n + i) (bitsOf (data % 2 ^ (8 * len)) (32768 * i) 32768) t) (d.bcp.flash.filter (fun e => e.1 < 256 + 2048 * n || 256 + 2048 * n + 2048 ≤ e.1)) })) ∧
    -- MBX_FW_ACTIVATE (swap)
    (∃ (s : State) (m : Fin 8) (l : Dev), (s.dev.mbxNew m 4 ∧ s.dev.loadNext s.dev.nextSlot = (l, true) ∧ ¬ l.rd F.BCP_FW_STAT_STATE = 4)) ∧
    -- MBX_FW_ACTIVATE (fail)
    (∃ (s : State) (m : Fin 8) (l : Dev), (s.dev.mbxNew m 4 ∧ s.dev.loadNext s.dev.nextSlot = (l, false))) ∧
    -- load next
    (∃ (d : Dev) (n : Nat) (l : Dev), (l = d.loadCode (1 - d.bcp.region) (d.slotImage n))) ∧
    -- MBX_FW_ACTIVATE (no image)
    (∃ (s : State) (m : Fin 8) (l : Dev) (d : Dev), (s.dev.mbxNew m 4 ∧ s.dev.loadNext s.dev.nextSlot = (l, true) ∧ l.rd F.BCP_FW_STAT_STATE = 4) ∧ (d = l.startImage s.dev.nextSlot (1 - l.bcp.region))) ∧
    -- blackout
    (∃ (d : Dev) (n : Nat) (e : Dev) (g : Dev), (e = { (d.disown .stage).handSave with bcp.stage := none } ∧ g = e.startCores n (1 - e.bcp.region) (List.range 4))) ∧
    -- PLDM_MESSAGE
    (∃ (s : State), (s.dev.dark = false ∧ s.dev.bcp.swap = none ∧ s.dev.rd F.BCP_FW_STAT_STATE = 2)) ∧
    -- PLDM_MESSAGE (held)
    (∃ (s : State) (x : Nat × Nat × Option Nat), (s.dev.dark = false ∧ s.dev.bcp.swap = some x)) ∧
    -- SIDEBAND_READ
    (∃ (s : State), (¬ s.dev.pwr.state = .off)) :=
  ⟨⟨tBoot 0, 0, (tBoot 0).dev, _, _, ⟨rfl, by decide +kernel, by decide +kernel, by decide +kernel, by decide +kernel⟩, ⟨by decide +kernel, rfl, rfl⟩⟩,
   ⟨tBoot 0 {}, 0, (tBoot 0 {}).dev, ⟨rfl, by decide +kernel, by decide +kernel, by decide +kernel, by decide +kernel⟩, by decide +kernel⟩,
   ⟨tBoot 1 { loading := 1, tried := [0] }, 1, (tBoot 1 { loading := 1, tried := [0] }).dev, ⟨rfl, by decide +kernel, by decide +kernel, by decide +kernel, by decide +kernel⟩, by decide +kernel⟩,
   ⟨tDev, 0, _, rfl⟩,
   ⟨tBoot 2, _, by decide +kernel, ⟨by decide +kernel, rfl⟩⟩,
   ⟨{ dev := { ((tBoot 2).dev.setReg R.FLT_STICKY 0 512) with flt := { safeStart := [9] } } }, _, 9, [], by decide +kernel, ⟨by decide +kernel, rfl⟩⟩,
   ⟨{ dev := { (tMbx 4 0 3).dev with bcp := { swap := some (1, 0, some 3) } } }, 1, 0, 3, _, by decide +kernel, rfl⟩,
   ⟨{ dev := { (tMbx 4 0 3).dev with bcp := { swap := some (0, 0, some 3) } } }, 0, 0, 3, _, by decide +kernel, rfl⟩,
   ⟨tDev, _, rfl⟩,
   ⟨{ dev := { (tMbx 4 0 3).dev with bcp := { swap := some (1, 0, some 3) } } }, 1, 0, some 3, _, by decide +kernel, rfl⟩,
   ⟨tMbx 3 0x1001, 3, by decide +kernel⟩,
   ⟨{ dev := { (tMbx 3 0x1001).dev with bcp := { stage := some { mbx := 3, win := 1, off := 0, len := 8 } } } }, 3, { mbx := 3, win := 1, off := 0, len := 8 }, by decide +kernel⟩,
   ⟨{ tDev with bcp := { stage := some { mbx := 3, win := 1, off := 0, len := 8 } } }, { mbx := 3, win := 1, off := 0, len := 8 }, _, ⟨rfl, rfl⟩⟩,
   ⟨{ tDev with bcp := { stage := some { mbx := 3, win := 1, off := 0, len := 8 } } }, { mbx := 3, win := 1, off := 0, len := 8 }, by decide +kernel⟩,
   ⟨tDev, 8, 1, _, _, ⟨rfl, rfl⟩⟩,
   ⟨tMbx 4 0, 3, (tMbx 4 0).dev, by decide +kernel⟩,
   ⟨{ dev := { (tMbx 4 0).dev with bcp := {} } }, 3, { (tMbx 4 0).dev with bcp := {} }, by decide +kernel⟩,
   ⟨tDev, 0, _, rfl⟩,
   ⟨{ dev := (tMbx 4 0 4).dev }, 3, (tMbx 4 0 4).dev, _, by decide +kernel, rfl⟩,
   ⟨tDev, 0, _, _, ⟨rfl, rfl⟩⟩,
   ⟨tMbx 0 0, by decide +kernel⟩,
   ⟨{ dev := { (tMbx 4 0 3).dev with bcp := { swap := some (1, 0, some 3) } } }, (1, 0, some 3), by decide +kernel⟩,
   ⟨{ dev := tDev }, by decide +kernel⟩⟩

/-- States and operands that meet the hypotheses of each clause of MailboxesAndManagement. -/
theorem witness_MailboxesAndManagement :
    -- mbx done
    (∃ (d : Dev) (e : Dev) (g : Dev) (m : Nat) (st : Nat) (rsp : List Word), (e = (rsp.mapIdx (fun i v => (i, v))).foldl (fun d x => d.setReg R.BCP_MBX_RSP (m * 16 + x.1) x.2) d) ∧ (g = (((e.wr F.BCP_MBX_STAT_RSP_WORDS m rsp.length).wr F.BCP_MBX_STAT_STATUS m st).wr F.BCP_MBX_STAT_DONE_SEQ m (e.rd F.BCP_MBX_CTL_SEQ m)).wr F.BCP_MBX_STAT_BUSY m 0)) ∧
    -- MBX_GET_INFO
    (∃ (s : State) (m : Fin 8), (s.dev.mbxNew m 1)) ∧
    -- MBX_GATE_WRITE
    (∃ (s : State) (m : Fin 8) (p : Nat) (d : Dev) (t : State), (s.dev.mbxNew m 2 ∧ (s.txn 8).phase = .none ∧ s.dev.mbxWord m 0 ≠ 0 ∧ s.dev.mbxWord m 0 ≤ 7 ∧ s.dev.pick 2 = (p, d)) ∧ ((s.dev.gatePairs m).any (fun e => !gateOffset e.1 || e.1 % 8 != 0) = false ∧ (s.dev.gatePairs m).any (fun e => (d.gateFail 1 4 none e.1 8 2).isSome) = false) ∧ (t = (((s.dev.gatePairs m).foldl (fun s (e : Nat × Word) => s.regWrite .bcp 1024 e.1 8 e.2) ((s.on d).txnBegin 8)).txnCommit 8).txnApplied 8)) ∧
    -- MBX_FUSE_ROLLBACK
    (∃ (s : State) (m : Fin 8), (s.dev.mbxNew m 5)) ∧
    -- MBX_KEY_REVOKE
    (∃ (s : State) (m : Fin 8) (k : Nat), (s.dev.mbxNew m 6 ∧ k = s.dev.mbxWord m 0)) ∧
    -- MBX_MODULE_PAGE (read)
    (∃ (s : State) (m : Fin 8) (w : Word) (p : Nat) (n : Nat) (v : Nat) (d : Dev), (s.dev.mbxNew m 7 ∧ w = s.dev.reg R.BCP_MBX_REQ (m * 16) ∧ p = getBits w 0 8 ∧ n = getBits w 32 8) ∧ (allPorts.contains p = true ∧ s.dev.flag F.PRT_MOD_STAT_PRESENT p = true ∧ ¬ n = 0 ∧ ¬ 64 < n ∧ ¬ 256 < getBits w 24 8 + n ∧ w.getLsbD 40 = false) ∧ (s.dev.cmisRead (p * 2 ^ 24 + getBits w 16 8 * 2 ^ 16 + getBits w 8 8 * 2 ^ 8 + getBits w 24 8) n = (v, d))) ∧
    -- MBX_MODULE_PAGE (write)
    (∃ (s : State) (m : Fin 8) (w : Word) (p : Nat) (n : Nat) (key : Nat) (x : Nat) (d : Dev), (s.dev.mbxNew m 7 ∧ w = s.dev.reg R.BCP_MBX_REQ (m * 16) ∧ p = getBits w 0 8 ∧ n = getBits w 32 8) ∧ (allPorts.contains p = true ∧ s.dev.flag F.PRT_MOD_STAT_PRESENT p = true ∧ ¬ n = 0 ∧ ¬ 64 < n ∧ ¬ 256 < getBits w 24 8 + n ∧ w.getLsbD 40 = true) ∧ (key = p * 2 ^ 24 + getBits w 16 8 * 2 ^ 16 + getBits w 8 8 * 2 ^ 8 + getBits w 24 8) ∧ (d = (List.range n).foldl (fun d i => { d with bcp.cmis := Tbl.put (key + i) (bitsOf (d.mbxWord m (1 + i / 8)) (8 * (i % 8)) 8) d.bcp.cmis }) s.dev) ∧ (x = (List.range n).foldl (fun v i => v + bitsOf (d.mbxWord m (1 + i / 8)) (8 * (i % 8)) 8 * 2 ^ (8 * i)) 0)) ∧
    -- MBX_PARAM
    (∃ (s : State) (m : Fin 8) (w : Word) (e : Nat), (s.dev.mbxNew m 8 ∧ w = s.dev.reg R.BCP_MBX_REQ (m * 16) ∧ e = getBits w 0 8 ∧ e ≠ 240)) ∧
    -- MBX_PARAM (whiteout)
    (∃ (s : State) (m : Fin 8) (w : Word) (src : Nat) (t : Nat), (s.dev.mbxNew m 8 ∧ w = s.dev.reg R.BCP_MBX_REQ (m * 16) ∧ getBits w 0 8 = 240 ∧ s.dev.pwr.woLog = some (src, t))) ∧
    -- MBX_BIVOUAC
    (∃ (s : State) (m : Fin 8), (s.dev.mbxNew m 9)) ∧
    -- MBX_OTHER_OPCODE
    (∃ (s : State) (m : Fin 8), (s.dev.mbxWaits m (fun o => o == 0 || decide (9 < o)) = true ∧ judgeSeq (s.dev.rd F.BCP_MBX_CTL_SEQ m) (s.dev.rd F.BCP_MBX_STAT_DONE_SEQ m) = .execute)) ∧
    -- EXC_SERVE
    (∃ (s : State) (f : Fid) (x : ExcRec) (d : Dev), (s.dev.bcp.exc.find? (fun e => e.fn == f.val) = some x ∧ s.dev.fwRuns = true ∧ d = { s.dev with bcp.exc := s.dev.bcp.exc.erase x })) ∧
    -- CTL_DISPATCH
    (∃ (s : State) (e : CtlEnt) (g : Dev) (d : Dev), (g = s.dev.fwTake) ∧ (g.bcp.ring.find? CtlEnt.forFn = some e ∧ g.dark = false ∧ g.fnOn e.cell.dstFn = true ∧ g.placeEvent (g.ctlEvent e.cell) = (d, true))) ∧
    -- CTL_DISPATCH (off)
    (∃ (s : State) (e : CtlEnt) (g : Dev), (g = s.dev.fwTake) ∧ (g.bcp.ring.find? CtlEnt.forFn = some e ∧ g.dark = false ∧ g.fnOn e.cell.dstFn = false)) ∧
    -- CTL_SEND
    (∃ (s : State) (c : Cell) (x : Cell), (s.dev.fwRuns = true ∧ ¬ 512 ≤ s.dev.bcp.ctlOut + (s.dev.bcp.ring.filter (fun e => e.kind == 2)).length ∧ x = (((c.setBits 44 4 12).setBits 32 12 0xFFF).setBits 28 4 0).setBits 26 2 0)) :=
  ⟨⟨tDev, _, _, 3, 0, [], rfl, rfl⟩,
   ⟨tMbx 1 0, 3, by decide +kernel⟩,
   ⟨{ dev := ((tMbx 2 1).dev.setReg R.BCP_MBX_REQ 49 0x1600008) }, 3, _, _, _, ⟨⟨by decide +kernel, by decide +kernel⟩, by decide +kernel, by decide +kernel, by decide +kernel, rfl⟩, by decide +kernel, rfl⟩,
   ⟨tMbx 5 0, 3, by decide +kernel⟩,
   ⟨tMbx 6 2, 3, 2, by decide +kernel⟩,
   ⟨tR (tMbxL 7 0x100000001 ++ [(F.PRT_MOD_STAT_PRESENT, 1, 1)]), 3, 0x100000001, 1, 1, _, _, by decide +kernel, by decide +kernel, rfl⟩,
   ⟨tR (tMbxL 7 0x10100000001 ++ [(F.PRT_MOD_STAT_PRESENT, 1, 1)]), 3, 0x10100000001, 1, 1, 2 ^ 24, _, _, by decide +kernel, by decide +kernel, by decide +kernel, rfl, rfl⟩,
   ⟨tMbx 8 5, 3, 5, 5, by decide +kernel⟩,
   ⟨{ dev := { (tMbx 8 240).dev with pwr := { state := .run, woLog := some (5, 9) } } }, 3, 240, 5, 9, by decide +kernel⟩,
   ⟨tMbx 9 0, 3, by decide +kernel⟩,
   ⟨tMbx 10 0, 3, by decide +kernel⟩,
   ⟨{ dev := { (tMbx 0 0).dev with bcp := { exc := [{ fn := 0, words := [65536, 7] }] } } }, 0, { fn := 0, words := [65536, 7] }, _, ⟨by decide +kernel, by decide +kernel, rfl⟩⟩,
   ⟨tRing, tCtlE, _, (tRing.dev.placeEvent (tRing.dev.ctlEvent tCtlE.cell)).1, rfl, by decide +kernel⟩,
   ⟨{ dev := { (tDR [(F.HST_FN_CTL_STATE, 0, 0)]) with bcp := { ring := [tCtlE] } } }, tCtlE, _, rfl, by decide +kernel⟩,
   ⟨tMbx 0 0, mkCell 0 0 0 0 0 0 true true 3 0, _, ⟨by decide +kernel, by decide +kernel, rfl⟩⟩⟩

/-- States and operands that meet the hypotheses of each clause of TransactionsAndRegisterAccess. -/
theorem witness_TransactionsAndRegisterAccess :
    -- txn commands
    (∃ (s : State) (r : Req) (k : Nat) (d : Dev), (txnKey r = some k ∧ s.dev.reaches r = true ∧ s.dev.reqGate r 0x100 8 2 = (d, true))) ∧
    -- TXN_APPLIED
    (∃ (s : State) (r : Req) (k : Nat), (txnKey r = some k ∧ s.dev.dark = false)) ∧
    -- TXN_TIMEOUT
    (∃ (s : State) (r : Req) (k : Nat), (txnKey r = some k ∧ s.dev.dark = false)) ∧
    -- txn none
    (∃ (s : State) (k : Nat) (x : Txn), (x = s.txn k ∧ x.phase = .none)) ∧
    -- txn opened
    (∃ (s : State) (k : Nat) (x : Txn), (x = s.txn k ∧ x.phase = .opened)) ∧
    -- txn committing
    (∃ (s : State) (k : Nat) (x : Txn), (x = s.txn k ∧ x.phase = .committing)) ∧
    -- stage
    (∃ (s : State) (k : Nat) (x : Txn), (x = s.txn k)) ∧
    -- REG_WRITE
    (∃ (s : State) (r : Req) (a : BitVec 28) (n : Nat) (d : Dev), (s.dev.asleep (.bar0 r) = false ∧ s.dev.reaches r = true ∧ accessOk a.toNat n = true ∧ s.dev.reqGate r a.toNat n 2 = (d, true))) ∧
    -- REG_WRITE (unsupported)
    (∃ (s : State) (r : Req) (a : BitVec 28) (n : Nat), (s.dev.asleep (.bar0 r) = false ∧ s.dev.reaches r = true ∧ accessOk a.toNat n = false)) ∧
    -- REG_WRITE (denied)
    (∃ (s : State) (r : Req) (a : BitVec 28) (n : Nat) (d : Dev), (s.dev.asleep (.bar0 r) = false ∧ s.dev.reaches r = true ∧ accessOk a.toNat n = true ∧ s.dev.reqGate r a.toNat n 2 = (d, false))) ∧
    -- cfg access
    (∃ (d : Dev), (d.dark = false ∧ d.flag F.BCP_FW_STAT_READY = true)) ∧
    -- dev ctl
    (∃ (d : Dev) (e : Dev) (f : Nat) (v : Nat), (e = { d with host.roOff := Tbl.set false f (bitsOf v 4 1 == 0) d.host.roOff, host.mps := Tbl.set 0 f (min 2 (bitsOf v 5 3)) d.host.mps, host.mrrs := Tbl.set 2 f (min 5 (bitsOf v 12 3)) d.host.mrrs })) ∧
    -- bar4 access
    (∃ (d : Dev) (f : Nat) (off : Nat) (n : Nat), (d.dark = false ∧ d.fnExists f = true ∧ accessOk off n = true)) ∧
    -- bar4 word
    (∃ (d : Dev) (f : Nat) (e : MsixEnt), (e = Tbl.get d.host.msix {} f)) ∧
    -- dbg mem
    (∃ (d : Dev) (e : Dev) (m : Fin 17) (a : Nat) (n : Nat), (d.dark = false ∧ accessOk a n = true ∧ e = (if m.val = 16 then d else d.wake m))) ∧
    -- REG_WRITE (reserved)
    (∃ (s : State) (r : Req) (a : Nat), (s.dev.locate r a = none)) ∧
    -- REG_WRITE (plain)
    (∃ (s : State) (r : Req) (a : Nat) (k : Nat) (reg : Nat) (i : Nat), (s.dev.locate r a = some (reg, i) ∧ txnKey r = some k ∧ isTxnReg reg = false ∧ stagedMask reg = 0)) ∧
    -- REG_WRITE (staged)
    (∃ (s : State) (r : Req) (a : Nat) (n : Nat) (k : Nat) (reg : Nat) (i : Nat) (held : Word), (s.dev.locate r a = some (reg, i) ∧ txnKey r = some k ∧ isTxnReg reg = false ∧ held = stagedMask reg &&& accessMask a n ∧ ¬ held = 0 ∧ ¬ stagedMask reg = 0)) ∧
    -- REG_WRITE (none)
    (∃ (s : State) (r : Req) (a : Nat) (n : Nat) (k : Nat) (reg : Nat) (i : Nat), (s.dev.locate r a = some (reg, i) ∧ txnKey r = some k ∧ isTxnReg reg = false ∧ stagedMask reg &&& accessMask a n = 0 ∧ ¬ stagedMask reg = 0 ∧ (s.txn k).phase = .opened)) ∧
    -- READ_CLEAR
    (∃ (s : State) (r : Req) (a : BitVec 28) (n : Nat) (v : Word) (d : Dev) (e : Dev), (s.dev.asleep (.bar0 r) = false ∧ s.dev.reaches r = true ∧ accessOk a.toNat n = true ∧ s.dev.reqGate r a.toNat n 1 = (d, true) ∧ (s.on d).regRead r 1024 0 a.toNat = (e, some v))) ∧
    -- read clears
    (∃ (r : Nat), (¬ accMask r [.rc] = 0)) ∧
    -- put field
    (∃ (m : Word) (f : FldInfo) (k : Word), (k = (maskW f.w <<< f.lo) &&& m)) :=
  ⟨⟨tTxn .none, .bcp, 8, tDev, by decide +kernel⟩,
   ⟨tTxn .committing, .bcp, 8, by decide +kernel⟩,
   ⟨tTxn .opened, .bcp, 8, by decide +kernel⟩,
   ⟨tTxn .none, 8, _, ⟨rfl, by decide +kernel⟩⟩,
   ⟨tTxn .opened, 8, _, ⟨rfl, by decide +kernel⟩⟩,
   ⟨tTxn .committing, 8, _, ⟨rfl, by decide +kernel⟩⟩,
   ⟨tTxn .opened, 8, _, rfl⟩,
   ⟨{ dev := tDev }, .bcp, 8, 8, tDev, by decide +kernel⟩,
   ⟨{ dev := tDev }, .bcp, 9, 8, by decide +kernel⟩,
   ⟨tR [(F.TGT_CFG_DBG_LOCK, 0, 1)], .dbg, 8, 8, (Dev.reqGate (tR [(F.TGT_CFG_DBG_LOCK, 0, 1)]).dev .dbg 8 8 2).1, by decide +kernel⟩,
   ⟨tDR [(F.BCP_FW_STAT_READY, 0, 1)], by decide +kernel⟩,
   ⟨tDev, _, 0, 0x8010, rfl⟩,
   ⟨tDev, 0, 8, 4, by decide +kernel⟩,
   ⟨tDev, 0, _, rfl⟩,
   ⟨tDev, tDev, 16, 8, 8, ⟨by decide +kernel, by decide +kernel, rfl⟩⟩,
   ⟨{ dev := tDev }, .bcp, 0xFFFFFF0, by decide +kernel⟩,
   ⟨{ dev := tDev }, .bcp, 0, 8, 172, 0, by decide +kernel⟩,
   ⟨tTxn .opened, .bcp, 6348800, 8, 8, 3, 0, 2047, by decide +kernel⟩,
   ⟨tTxn .opened, .bcp, 6348804, 4, 8, 3, 0, by decide +kernel⟩,
   ⟨{ dev := tDev }, .bcp, 0, 8, (Dev.view tDev R.GLB_ID 0), tDev, tDev, by decide +kernel⟩,
   ⟨R.BCP_CTL_STAT, by decide +kernel⟩,
   ⟨255, { lo := 0, w := 8, acc := .rw, chg := .live }, _, rfl⟩⟩

/-- States and operands that meet the hypotheses of each clause of FaultsAndLimits. -/
theorem witness_FaultsAndLimits :
    -- faults
    (∃ (d : Dev) (e : Dev) (g : Dev) (l : List Nat) (last : Nat) (sev : Nat) (cause : Nat), (d.pwr.state = .run ∧ (l.filter faultSource).getLast? = some last) ∧ (e = Dev.bumpBy (((l.filter faultSource).foldl (fun d s => d.setReg R.FLT_STICKY 0 (setBits (d.reg R.FLT_STICKY) s 1 1)) d).wr F.FLT_STAT_LAST_SRC 0 last) F.FLT_STAT_REPORTS 0 (l.filter faultSource).length) ∧ (sev = ((l.filter faultSource).map e.severity).foldl max 0 ∧ cause = ((l.filter faultSource).filter (fun s => e.severity s == sev)).foldl min 63) ∧ (g = e.raise 1024 (e.rd F.FLT_CFG_BCP_INT))) ∧
    -- enter safe
    (∃ (d : Dev) (e : Dev) (k : Nat), (e = (d.writeCause k 1).setReg R.FLT_SNAP 0 ((d.writeCause k 1).reg R.FLT_STICKY))) ∧
    -- enter whiteout
    (∃ (d : Dev) (e : Dev) (g : Dev) (k : Nat), (e = d.writeCause k 2) ∧ (g = Dev.linksOff (Dev.ropeFault { e with pwr.woLog := some (k, (e.reg R.FLT_CAUSE_TIME).toNat), bcp.params := Tbl.put 240 (BitVec.ofNat 64 (k + 64)) e.bcp.params } 2))) ∧
    -- FLT_PAIR_INVALID
    (∃ (s : State) (k : Fin 64), (faultSource k = true ∧ s.dev.pwr.state = .run)) ∧
    -- locks
    (∃ (s : State), (s.dev.dark = false)) ∧
    -- THERM_SAMPLE
    (∃ (s : State) (l : List (BitVec 11)) (t : Int) (k : Nat), (hottest (l.take 32) = some (t, k) ∧ s.dev.dark = false)) ∧
    -- therm take
    (∃ (d : Dev) (e : Dev) (t : Int) (k : Nat) (new : List Int) (fire : Bool), (new = thermStep d.flt.raised t ∧ fire = (d.flt.safeArmed && decide (460 ≤ t))) ∧ (e = ((d.wr F.FLT_THERM_TJ_MAX 0 (unsigned t 11)).wr F.FLT_THERM_SENSOR 0 k).wr F.FLT_THERM_THERM_LEVEL 0 new.length)) ∧
    -- CUR_GOV_SAMPLE (over)
    (∃ (s : State) (a : BitVec 11) (d : Dev) (n : Nat), (s.dev.dark = false ∧ d = (s.dev.advanceTo ((s.dev.ps / usPs 2 + 1) * usPs 2)).wr F.FLT_CUR_STAT_CORE_A 0 a.toNat ∧ n = d.rd F.FLT_CUR_STAT_LEVEL) ∧ (d.limitA < a.toNat)) ∧
    -- CUR_GOV_SAMPLE (under)
    (∃ (s : State) (a : BitVec 11) (d : Dev) (n : Nat), (s.dev.dark = false ∧ d = (s.dev.advanceTo ((s.dev.ps / usPs 2 + 1) * usPs 2)).wr F.FLT_CUR_STAT_CORE_A 0 a.toNat ∧ n = d.rd F.FLT_CUR_STAT_LEVEL) ∧ (¬ d.limitA < a.toNat ∧ a.toNat < d.limitA - 50)) ∧
    -- cur level
    (∃ (d : Dev) (e : Dev) (n : Nat), (e = (d.wr F.FLT_CUR_STAT_LEVEL 0 n).setLevel)) ∧
    -- PMB_REFRESH
    (∃ (s : State) (d : Dev), (d = s.dev.advanceTo ((s.dev.ps / msPs 10 + 1) * msPs 10))) ∧
    -- MARGIN_WRITE
    (∃ (s : State) (v : Word) (d : Dev), (s.dev.dark = false ∧ d = s.dev.wr F.PWR_MARGIN_SEL 0 v.toNat)) :=
  ⟨⟨tDev, _, _, [9], 9, _, _, by decide +kernel, rfl, ⟨rfl, rfl⟩, rfl⟩,
   ⟨tDev, _, 9, rfl⟩,
   ⟨tDev, _, _, 9, rfl, rfl⟩,
   ⟨{ dev := tDev }, 5, by decide +kernel⟩,
   ⟨{ dev := tDev }, by decide +kernel⟩,
   ⟨{ dev := tDev }, [420#11], 420, 0, by decide +kernel⟩,
   ⟨tDev, _, 420, 0, _, _, ⟨rfl, rfl⟩, rfl⟩,
   ⟨{ dev := tDev }, 1200, _, _, ⟨by decide +kernel, rfl, rfl⟩, by decide +kernel⟩,
   ⟨{ dev := tDev }, 100, _, _, ⟨by decide +kernel, rfl, rfl⟩, by decide +kernel⟩,
   ⟨tDev, _, 1, rfl⟩,
   ⟨{ dev := tDev }, _, rfl⟩,
   ⟨{ dev := tDev }, 5, _, ⟨by decide +kernel, rfl⟩⟩⟩

/-- States and operands that meet the hypotheses of each clause of TelemetryReader. -/
theorem witness_TelemetryReader :
    -- PMC_SNAPSHOT
    (∃ (s : State) (per : Nat), (s.dev.dark = false ∧ s.dev.rd F.PMC_RDR_STAT_STATE = rdRun ∧ per = max 1 (s.dev.rd F.PMC_RDR_CFG_PERIOD_US) * 1000)) ∧
    -- PMC_SNAP
    (∃ (s : State), (s.dev.dark = false)) ∧
    -- PMC_CTR_VAL_WRITE
    (∃ (s : State) (k : Fin 1024) (v : Word) (d : Dev), (d = s.dev.wr F.PMC_CTR_VAL_VALUE k v.toNat)) ∧
    -- pmc latch (skip)
    (∃ (d : Dev), (d.rd F.PMC_RDR_STAT_STATE = rdRun) ∧ (d.halted = true ∨ d.pmc.job.isSome = true ∨ seqSub (d.rd F.PMC_RDR_IDX_PROD) (d.rd F.PMC_RDR_IDX_CONS) = d.pmcEntries)) ∧
    -- pmc latch (off)
    (∃ (d : Dev), (d.rd F.PMC_RDR_STAT_STATE = rdRun ∧ d.fnOn (d.rd F.PMC_RDR_FN_FN) = false) ∧ (d.halted = false ∧ d.pmc.job = none ∧ ¬ seqSub (d.rd F.PMC_RDR_IDX_PROD) (d.rd F.PMC_RDR_IDX_CONS) = d.pmcEntries)) ∧
    -- pmc latch (record)
    (∃ (d : Dev) (e : Dev), (d.rd F.PMC_RDR_STAT_STATE = rdRun ∧ d.fnOn (d.rd F.PMC_RDR_FN_FN) = true) ∧ (d.halted = false ∧ d.pmc.job = none ∧ ¬ seqSub (d.rd F.PMC_RDR_IDX_PROD) (d.rd F.PMC_RDR_IDX_CONS) = d.pmcEntries) ∧ (e = { d with pmc.gap := false })) ∧
    -- pmc record
    (∃ (d : Dev) (g : Dev) (e : Dev) (n : Nat) (data : Nat) (k : Nat) (st : Nat), (d.winUse (d.rd F.PMC_RDR_CFG_WIN) (localPeer (d.rd F.PMC_RDR_FN_FN) false) rLW d.pmcOff (64 + 8 * n) = (g, 0)) ∧ (g.pmcPut 64 (8 * n) data = (e, k, st))) ∧
    -- pmc header
    (∃ (d : Dev) (e : Dev) (h : Nat) (k : Nat) (st : Nat), (d.pmcPut 0 64 h = (e, k, st))) ∧
    -- pmc stop
    (∃ (d : Dev) (e : Dev), (e = d.disown (.pmc (d.rd F.PMC_RDR_IDX_PROD)))) :=
  ⟨⟨{ dev := tPmc 0 }, 1000000, by decide +kernel⟩,
   ⟨{ dev := tPmc 0 }, by decide +kernel⟩,
   ⟨{ dev := tDev }, 3, 7, _, rfl⟩,
   ⟨tPmc 64, by decide +kernel, by decide +kernel⟩,
   ⟨tDR [(F.PMC_RDR_STAT_STATE, 0, 1), (F.HST_FN_CTL_STATE, 0, 0)], by decide +kernel, by decide +kernel⟩,
   ⟨tPmc 0, _, by decide +kernel, by decide +kernel, rfl⟩,
   ⟨tPmc 0, _, _, 0, 0, _, _, Prod.ext rfl (by decide +kernel), rfl⟩,
   ⟨tPmc 0, _, 0, _, _, rfl⟩,
   ⟨tPmc 0, _, rfl⟩⟩

/-- States and operands that meet the hypotheses of each clause of TestAccess. -/
theorem witness_TestAccess :
    -- tap
    (∃ (s : State), (s.dev.tapOn = true)) ∧
    -- SAMPLE_PRELOAD
    (∃ (s : State) (w : Word) (d : Dev), (s.dev.tapOn = true ∧ s.dev.freeWord = (w, d))) ∧
    -- tap off
    (∃ (s : State), (s.dev.tapOn = false)) :=
  ⟨⟨{ dev := tDev }, by decide +kernel⟩,
   ⟨{ dev := tDev }, _, _, ⟨by decide +kernel, rfl⟩⟩,
   ⟨{ dev := { tDev with pwr := { state := .bivouac, pg := 0 } } }, by decide +kernel⟩⟩

/-- States and operands that meet the hypotheses of each clause of EngineResultFrames. -/
theorem witness_EngineResultFrames :
    -- ALU
    (∃ (s : State) (t : State) (th : Tid) (f : FmtA) (ext : Ext), (s.dev.atInstr th (wordA 0x10 f) ext f.guard.toNat = true) ∧ (exec (.alu th f ext) s = .next t ∧ s.inPlace t th)) ∧
    -- BIT
    (∃ (s : State) (t : State) (th : Tid) (f : FmtA) (ext : Ext), (s.dev.atInstr th (wordA 0x1a f) ext f.guard.toNat = true) ∧ (exec (.bit th f ext) s = .next t ∧ s.inPlace t th)) ∧
    -- SEL
    (∃ (s : State) (t : State) (th : Tid) (f : FmtA) (ext : Ext), (s.dev.atInstr th (wordA 0x1b f) ext f.guard.toNat = true) ∧ (exec (.sel th f ext) s = .next t ∧ s.inPlace t th)) ∧
    -- TAG_GET
    (∃ (s : State) (t : State) (th : Tid) (f : FmtA) (ext : Ext), (s.dev.atInstr th (wordA 0x28 f) ext f.guard.toNat = true) ∧ (exec (.tagGet th f ext) s = .next t ∧ s.inPlace t th)) ∧
    -- TAG_SET
    (∃ (s : State) (t : State) (th : Tid) (f : FmtA) (ext : Ext), (s.dev.atInstr th (wordA 0x28 f) ext f.guard.toNat = true) ∧ (exec (.tagSet th f ext) s = .next t ∧ s.inPlace t th)) ∧
    -- ADDI
    (∃ (s : State) (t : State) (th : Tid) (f : FmtI) (ext : Ext), (s.dev.atInstr th (wordI 0x11 f) ext f.guard.toNat = true) ∧ (exec (.addi th f ext) s = .next t ∧ s.inPlace t th)) ∧
    -- ANDI
    (∃ (s : State) (t : State) (th : Tid) (f : FmtI) (ext : Ext), (s.dev.atInstr th (wordI 0x12 f) ext f.guard.toNat = true) ∧ (exec (.andi th f ext) s = .next t ∧ s.inPlace t th)) ∧
    -- ORI
    (∃ (s : State) (t : State) (th : Tid) (f : FmtI) (ext : Ext), (s.dev.atInstr th (wordI 0x13 f) ext f.guard.toNat = true) ∧ (exec (.ori th f ext) s = .next t ∧ s.inPlace t th)) ∧
    -- XORI
    (∃ (s : State) (t : State) (th : Tid) (f : FmtI) (ext : Ext), (s.dev.atInstr th (wordI 0x14 f) ext f.guard.toNat = true) ∧ (exec (.xori th f ext) s = .next t ∧ s.inPlace t th)) ∧
    -- SHLI
    (∃ (s : State) (t : State) (th : Tid) (f : FmtI) (ext : Ext), (s.dev.atInstr th (wordI 0x15 f) ext f.guard.toNat = true) ∧ (exec (.shli th f ext) s = .next t ∧ s.inPlace t th)) ∧
    -- SHRI
    (∃ (s : State) (t : State) (th : Tid) (f : FmtI) (ext : Ext), (s.dev.atInstr th (wordI 0x16 f) ext f.guard.toNat = true) ∧ (exec (.shri th f ext) s = .next t ∧ s.inPlace t th)) ∧
    -- SRAI
    (∃ (s : State) (t : State) (th : Tid) (f : FmtI) (ext : Ext), (s.dev.atInstr th (wordI 0x17 f) ext f.guard.toNat = true) ∧ (exec (.srai th f ext) s = .next t ∧ s.inPlace t th)) ∧
    -- TAG_SETI
    (∃ (s : State) (t : State) (th : Tid) (f : FmtI) (ext : Ext), (s.dev.atInstr th (wordI 0x29 f) ext f.guard.toNat = true) ∧ (exec (.tagSeti th f ext) s = .next t ∧ s.inPlace t th)) ∧
    -- MOVI
    (∃ (s : State) (t : State) (th : Tid) (f : FmtW) (ext : Ext), (s.dev.atInstr th (wordW 0x18 f) ext 0 = true) ∧ (exec (.movi th f ext) s = .next t ∧ s.inPlace t th)) ∧
    -- MOVK
    (∃ (s : State) (t : State) (th : Tid) (f : FmtW) (ext : Ext), (s.dev.atInstr th (wordW 0x19 f) ext 0 = true) ∧ (exec (.movk th f ext) s = .next t ∧ s.inPlace t th)) ∧
    -- CMP
    (∃ (s : State) (t : State) (th : Tid) (f : FmtA) (ext : Ext), (s.dev.atInstr th (wordA 0x1c f) ext f.guard.toNat = true) ∧ (exec (.cmp th f ext) s = .next t ∧ s.inPlace t th)) ∧
    -- POP
    (∃ (s : State) (t : State) (th : Tid) (f : FmtA) (ext : Ext), (s.dev.atInstr th (wordA 0x20 f) ext f.guard.toNat = true) ∧ (exec (.pop th f ext) s = .next t ∧ s.inPlace t th)) ∧
    -- CMPI_EQ
    (∃ (s : State) (t : State) (th : Tid) (f : FmtI) (ext : Ext), (s.dev.atInstr th (wordI 0x1d f) ext f.guard.toNat = true) ∧ (exec (.cmpiEq th f ext) s = .next t ∧ s.inPlace t th)) ∧
    -- CMPI_LT
    (∃ (s : State) (t : State) (th : Tid) (f : FmtI) (ext : Ext), (s.dev.atInstr th (wordI 0x1e f) ext f.guard.toNat = true) ∧ (exec (.cmpiLt th f ext) s = .next t ∧ s.inPlace t th)) ∧
    -- CMPI_LTU
    (∃ (s : State) (t : State) (th : Tid) (f : FmtI) (ext : Ext), (s.dev.atInstr th (wordI 0x1f f) ext f.guard.toNat = true) ∧ (exec (.cmpiLtu th f ext) s = .next t ∧ s.inPlace t th)) ∧
    -- TAG_TST
    (∃ (s : State) (t : State) (th : Tid) (f : FmtI) (ext : Ext), (s.dev.atInstr th (wordI 0x2a f) ext f.guard.toNat = true) ∧ (exec (.tagTst th f ext) s = .next t ∧ s.inPlace t th)) :=
  ⟨⟨tCtr (wordA 0x10 ⟨1, 2, 3, 0, 0⟩) 0 {}, tNext (tCtr (wordA 0x10 ⟨1, 2, 3, 0, 0⟩) 0 {}) (.alu 0 ⟨1, 2, 3, 0, 0⟩ 0), 0, ⟨1, 2, 3, 0, 0⟩, 0, by decide +kernel, ⟨rfl, by decide +kernel⟩⟩,
   ⟨tCtr (wordA 0x1a ⟨1, 2, 0, 0, 3⟩) 0 {}, tNext (tCtr (wordA 0x1a ⟨1, 2, 0, 0, 3⟩) 0 {}) (.bit 0 ⟨1, 2, 0, 0, 3⟩ 0), 0, ⟨1, 2, 0, 0, 3⟩, 0, by decide +kernel, ⟨rfl, by decide +kernel⟩⟩,
   ⟨tCtr (wordA 0x1b ⟨1, 2, 3, 0, 0⟩) 0 {}, tNext (tCtr (wordA 0x1b ⟨1, 2, 3, 0, 0⟩) 0 {}) (.sel 0 ⟨1, 2, 3, 0, 0⟩ 0), 0, ⟨1, 2, 3, 0, 0⟩, 0, by decide +kernel, ⟨rfl, by decide +kernel⟩⟩,
   ⟨tCtr (wordA 0x28 ⟨1, 2, 0, 0, 0⟩) 0 {}, tNext (tCtr (wordA 0x28 ⟨1, 2, 0, 0, 0⟩) 0 {}) (.tagGet 0 ⟨1, 2, 0, 0, 0⟩ 0), 0, ⟨1, 2, 0, 0, 0⟩, 0, by decide +kernel, ⟨rfl, by decide +kernel⟩⟩,
   ⟨tCtr (wordA 0x28 ⟨1, 2, 3, 0, 1⟩) 0 {}, tNext (tCtr (wordA 0x28 ⟨1, 2, 3, 0, 1⟩) 0 {}) (.tagSet 0 ⟨1, 2, 3, 0, 1⟩ 0), 0, ⟨1, 2, 3, 0, 1⟩, 0, by decide +kernel, ⟨rfl, by decide +kernel⟩⟩,
   ⟨tCtr (wordI 0x11 ⟨1, 2, 0, 5⟩) 0 {}, tNext (tCtr (wordI 0x11 ⟨1, 2, 0, 5⟩) 0 {}) (.addi 0 ⟨1, 2, 0, 5⟩ 0), 0, ⟨1, 2, 0, 5⟩, 0, by decide +kernel, ⟨rfl, by decide +kernel⟩⟩,
   ⟨tCtr (wordI 0x12 ⟨1, 2, 0, 5⟩) 0 {}, tNext (tCtr (wordI 0x12 ⟨1, 2, 0, 5⟩) 0 {}) (.andi 0 ⟨1, 2, 0, 5⟩ 0), 0, ⟨1, 2, 0, 5⟩, 0, by decide +kernel, ⟨rfl, by decide +kernel⟩⟩,
   ⟨tCtr (wordI 0x13 ⟨1, 2, 0, 5⟩) 0 {}, tNext (tCtr (wordI 0x13 ⟨1, 2, 0, 5⟩) 0 {}) (.ori 0 ⟨1, 2, 0, 5⟩ 0), 0, ⟨1, 2, 0, 5⟩, 0, by decide +kernel, ⟨rfl, by decide +kernel⟩⟩,
   ⟨tCtr (wordI 0x14 ⟨1, 2, 0, 5⟩) 0 {}, tNext (tCtr (wordI 0x14 ⟨1, 2, 0, 5⟩) 0 {}) (.xori 0 ⟨1, 2, 0, 5⟩ 0), 0, ⟨1, 2, 0, 5⟩, 0, by decide +kernel, ⟨rfl, by decide +kernel⟩⟩,
   ⟨tCtr (wordI 0x15 ⟨1, 2, 0, 5⟩) 0 {}, tNext (tCtr (wordI 0x15 ⟨1, 2, 0, 5⟩) 0 {}) (.shli 0 ⟨1, 2, 0, 5⟩ 0), 0, ⟨1, 2, 0, 5⟩, 0, by decide +kernel, ⟨rfl, by decide +kernel⟩⟩,
   ⟨tCtr (wordI 0x16 ⟨1, 2, 0, 5⟩) 0 {}, tNext (tCtr (wordI 0x16 ⟨1, 2, 0, 5⟩) 0 {}) (.shri 0 ⟨1, 2, 0, 5⟩ 0), 0, ⟨1, 2, 0, 5⟩, 0, by decide +kernel, ⟨rfl, by decide +kernel⟩⟩,
   ⟨tCtr (wordI 0x17 ⟨1, 2, 0, 5⟩) 0 {}, tNext (tCtr (wordI 0x17 ⟨1, 2, 0, 5⟩) 0 {}) (.srai 0 ⟨1, 2, 0, 5⟩ 0), 0, ⟨1, 2, 0, 5⟩, 0, by decide +kernel, ⟨rfl, by decide +kernel⟩⟩,
   ⟨tCtr (wordI 0x29 ⟨1, 2, 0, 5⟩) 0 {}, tNext (tCtr (wordI 0x29 ⟨1, 2, 0, 5⟩) 0 {}) (.tagSeti 0 ⟨1, 2, 0, 5⟩ 0), 0, ⟨1, 2, 0, 5⟩, 0, by decide +kernel, ⟨rfl, by decide +kernel⟩⟩,
   ⟨tCtr (wordW 0x18 ⟨1, 5⟩) 0 {}, tNext (tCtr (wordW 0x18 ⟨1, 5⟩) 0 {}) (.movi 0 ⟨1, 5⟩ 0), 0, ⟨1, 5⟩, 0, by decide +kernel, ⟨rfl, by decide +kernel⟩⟩,
   ⟨tCtr (wordW 0x19 ⟨1, 5⟩) 0 {}, tNext (tCtr (wordW 0x19 ⟨1, 5⟩) 0 {}) (.movk 0 ⟨1, 5⟩ 0), 0, ⟨1, 5⟩, 0, by decide +kernel, ⟨rfl, by decide +kernel⟩⟩,
   ⟨tCtr (wordA 0x1c ⟨1, 2, 3, 0, 0⟩) 0 {}, tNext (tCtr (wordA 0x1c ⟨1, 2, 3, 0, 0⟩) 0 {}) (.cmp 0 ⟨1, 2, 3, 0, 0⟩ 0), 0, ⟨1, 2, 3, 0, 0⟩, 0, by decide +kernel, ⟨rfl, by decide +kernel⟩⟩,
   ⟨tCtr (wordA 0x20 ⟨1, 2, 3, 0, 0⟩) 0 {}, tNext (tCtr (wordA 0x20 ⟨1, 2, 3, 0, 0⟩) 0 {}) (.pop 0 ⟨1, 2, 3, 0, 0⟩ 0), 0, ⟨1, 2, 3, 0, 0⟩, 0, by decide +kernel, ⟨rfl, by decide +kernel⟩⟩,
   ⟨tCtr (wordI 0x1d ⟨1, 2, 0, 5⟩) 0 {}, tNext (tCtr (wordI 0x1d ⟨1, 2, 0, 5⟩) 0 {}) (.cmpiEq 0 ⟨1, 2, 0, 5⟩ 0), 0, ⟨1, 2, 0, 5⟩, 0, by decide +kernel, ⟨rfl, by decide +kernel⟩⟩,
   ⟨tCtr (wordI 0x1e ⟨1, 2, 0, 5⟩) 0 {}, tNext (tCtr (wordI 0x1e ⟨1, 2, 0, 5⟩) 0 {}) (.cmpiLt 0 ⟨1, 2, 0, 5⟩ 0), 0, ⟨1, 2, 0, 5⟩, 0, by decide +kernel, ⟨rfl, by decide +kernel⟩⟩,
   ⟨tCtr (wordI 0x1f ⟨1, 2, 0, 5⟩) 0 {}, tNext (tCtr (wordI 0x1f ⟨1, 2, 0, 5⟩) 0 {}) (.cmpiLtu 0 ⟨1, 2, 0, 5⟩ 0), 0, ⟨1, 2, 0, 5⟩, 0, by decide +kernel, ⟨rfl, by decide +kernel⟩⟩,
   ⟨tCtr (wordI 0x2a ⟨1, 2, 0, 5⟩) 0 {}, tNext (tCtr (wordI 0x2a ⟨1, 2, 0, 5⟩) 0 {}) (.tagTst 0 ⟨1, 2, 0, 5⟩ 0), 0, ⟨1, 2, 0, 5⟩, 0, by decide +kernel, ⟨rfl, by decide +kernel⟩⟩⟩

/-- States and operands that meet the hypotheses of each clause of EngineScratchAndDepotFrames. -/
theorem witness_EngineScratchAndDepotFrames :
    -- LD_S
    (∃ (s : State) (t : State) (th : Tid) (f : FmtI) (ext : Ext), (s.dev.atInstr th (wordI 0x30 f) ext f.guard.toNat = true) ∧ (exec (.ldS th f ext .none) s = .next t ∧ s.inPlace t th)) ∧
    -- ST_S
    (∃ (s : State) (t : State) (th : Tid) (f : FmtI) (ext : Ext), (s.dev.atInstr th (wordI 0x31 f) ext f.guard.toNat = true) ∧ (exec (.stS th f ext) s = .next t ∧ s.inPlace t th)) ∧
    -- ST_D
    (∃ (s : State) (t : State) (th : Tid) (f : FmtI) (ext : Ext), (s.dev.atInstr th (wordI 0x33 f) ext f.guard.toNat = true) ∧ (exec (.stD th f ext) s = .next t ∧ s.inPlace t th)) ∧
    -- LD_D
    (∃ (s : State) (t : State) (th : Tid) (f : FmtI) (ext : Ext), (s.dev.atInstr th (wordI 0x32 f) ext f.guard.toNat = true) ∧ (exec (.ldD th f ext .none) s = .next t ∧ s.inPlace t th)) :=
  ⟨⟨tCtr (wordI 0x30 ⟨1, 0, 0, 4⟩) 0 { priv := true }, tNext (tCtr (wordI 0x30 ⟨1, 0, 0, 4⟩) 0 { priv := true }) (.ldS 0 ⟨1, 0, 0, 4⟩ 0 .none), 0, ⟨1, 0, 0, 4⟩, 0, by decide +kernel, ⟨rfl, by decide +kernel⟩⟩,
   ⟨tCtr (wordI 0x31 ⟨1, 0, 0, 4⟩) 0 { priv := true }, tNext (tCtr (wordI 0x31 ⟨1, 0, 0, 4⟩) 0 { priv := true }) (.stS 0 ⟨1, 0, 0, 4⟩ 0), 0, ⟨1, 0, 0, 4⟩, 0, by decide +kernel, ⟨rfl, by decide +kernel⟩⟩,
   ⟨tCtr (wordI 0x33 ⟨1, 0, 0, 4⟩) 0 { priv := true }, tNext (tCtr (wordI 0x33 ⟨1, 0, 0, 4⟩) 0 { priv := true }) (.stD 0 ⟨1, 0, 0, 4⟩ 0), 0, ⟨1, 0, 0, 4⟩, 0, by decide +kernel, ⟨rfl, by decide +kernel⟩⟩,
   ⟨tCtr (wordI 0x32 ⟨1, 0, 0, 4⟩) 0 { priv := true }, tNext (tCtr (wordI 0x32 ⟨1, 0, 0, 4⟩) 0 { priv := true }) (.ldD 0 ⟨1, 0, 0, 4⟩ 0 .none), 0, ⟨1, 0, 0, 4⟩, 0, by decide +kernel, ⟨rfl, by decide +kernel⟩⟩⟩

/-- States and operands that meet the hypotheses of each clause of StepRunsTheFrontCommand. -/
theorem witness_StepRunsTheFrontCommand :
    -- front
    (∃ (s : State) (c : Instr) (rest : List Instr), (s.pending = c :: rest)) ∧
    -- empty
    (∃ (s : State), (s.pending = [])) ∧
    -- core slots
    (∃ (d : Dev) (c : Nat) (k : Nat) (l : List Thread), (l = (List.range 4).map (fun j => d.thr (64 * c + 4 * k + j)))) :=
  ⟨⟨{ pending := [.trstN] }, .trstN, [], rfl⟩,
   ⟨{}, rfl⟩,
   ⟨tDev, 0, 0, _, rfl⟩⟩

/-- States and operands that meet the hypotheses of each clause of CommandReach. -/
theorem witness_CommandReach :
    -- txns
    (∃ (c : Instr) (s : State) (t : State), (exec c s = .next t ∧ ¬ mayMoveTxns c)) ∧
    -- tap
    (∃ (c : Instr) (s : State) (t : State), (exec c s = .next t ∧ ¬ mayMoveTap c)) ∧
    -- tap device
    (∃ (c : Instr) (s : State) (t : State), (exec c s = .next t) ∧ (c = .trstN ∨ c = .extest ∨ c = .idcode ∨ c = .samplePreload ∨ c = .highz ∨ c = .clamp ∨ c = .extestPulse ∨ c = .extestTrain ∨ c = .dbgAccess ∨ c = .bypass)) :=
  ⟨⟨.faultReport 0, { dev := tDev }, tNext { dev := tDev } (.faultReport 0), ⟨rfl, fun h => h⟩⟩,
   ⟨.faultReport 0, { dev := tDev }, tNext { dev := tDev } (.faultReport 0), ⟨rfl, fun h => h⟩⟩,
   ⟨.idcode, { dev := tDev }, tNext { dev := tDev } .idcode, rfl, .inr (.inr (.inl rfl))⟩⟩

/-- States and operands that meet the hypotheses of each clause of TransactionsStayApart. -/
theorem witness_TransactionsStayApart :
    -- step
    (∃ (s : State) (t : State), (TxnsApart s.txns ∧ step s = .next t)) :=
  ⟨{}, tick {}, ⟨⟨⟨by decide, by decide⟩, by simp, by decide, by decide⟩, rfl⟩⟩

/-- States and operands that meet the hypotheses of each clause of HeaderCheckSeesEveryBit. -/
theorem witness_HeaderCheckSeesEveryBit :
    -- flip
    (∃ (c : Cell) (i : Nat), (i < 128 ∧ c.hchkOk = true)) :=
  ⟨(mkCell 5 3 7 9 0 0 true true 0 1).sealed, 127, by decide +kernel⟩

/-- States and operands that meet the hypotheses of each clause of CellFieldsReadBack. -/
theorem witness_CellFieldsReadBack :
    -- fields
    (∃ (dstDev : Nat) (dstFn : Nat) (srcDev : Nat) (slot : Nat) (gen : Nat) (idx : Nat) (head : Bool) (last : Bool) (cls : Nat) (pay : Nat) (c : Cell), (c = mkCell dstDev dstFn srcDev slot gen idx head last cls pay ∧ cls < 4)) ∧
    -- set bits
    (∃ (lo : Nat) (w : Nat), (lo + w ≤ 128)) :=
  ⟨⟨262143, 1023, 262143, 65535, 15, 4095, true, true, 3, 0, _, ⟨rfl, by decide⟩⟩,
   ⟨28, 4, by decide +kernel⟩⟩

/-- States and operands that meet the hypotheses of each clause of ResetState. -/
theorem witness_ResetState :
    -- registers
    (∃ (r : Nat), (r < 256)) ∧
    -- units
    (∃ (f : Nat) (p : Nat), (p < 64 ∧ f < 1024)) :=
  ⟨⟨5, by decide +kernel⟩,
   ⟨0, 0, by decide +kernel⟩⟩

end Sys2Proof
end

section
/-! SUPPORT. Every command answers a next state and leaves the queue of waiting commands as it was. -/

namespace Sys2Proof.Machine

/-- What a command answers from `s` is a next state with the same commands waiting. -/
def Completes (o : Host.Outcome State Fault Refusal) (s : State) : Prop := ∃ t, o = .next t ∧ t.pending = s.pending

theorem completes_next {s t : State} (h : t.pending = s.pending) : Completes (.next t) s := ⟨t, rfl, h⟩

theorem execTxnApplied_completes (r : Req) (s : State) : Completes (execTxnApplied r s) s := by
  unfold execTxnApplied
  split
  · exact completes_next rfl
  · split
    · exact completes_next rfl
    · exact completes_next (pending_applied s _)

theorem execTxnTimeout_completes (r : Req) (s : State) : Completes (execTxnTimeout r s) s := by
  unfold execTxnTimeout
  split
  · exact completes_next rfl
  · split
    · exact completes_next rfl
    · exact completes_next (pending_timeout s _)

theorem execStP_completes (th : Tid) (f : FmtI) (ext : Ext) (s : State) : Completes (execStP th f ext s) s := by
  unfold execStP
  extract_lets d
  split
  · exact completes_next rfl
  · exact completes_next (pending_regWrite s _ _ _ _ _)

theorem execMbxGateWrite_completes (m : Fin 8) (s : State) : Completes (execMbxGateWrite m s) s := by
  unfold execMbxGateWrite
  extract_lets d
  split
  · split
    · exact completes_next (pending_gateWrite s m)
    · exact completes_next rfl
  · exact completes_next rfl

/-- A command of the TAP, of a transaction or of register space chooses its next state by the state; every other command's
next state is `s` with parts other than the queue replaced, whatever the device becomes. -/
theorem exec_completes (c : Instr) (s : State) : Completes (exec c s) s := by
  cases c with
  | extest | idcode | samplePreload | highz | clamp | extestPulse | extestTrain | dbgAccess | bypass =>
    dsimp only [exec]
    exact onTap_completes s _ _
  | txnBegin r => exact onTxn_completes s r _ _ pending_begin
  | txnCommit r => exact onTxn_completes s r _ _ pending_commit
  | txnRollback r => exact onTxn_completes s r _ _ pending_rollback
  | txnApplied r => exact execTxnApplied_completes r s
  | txnTimeout r => exact execTxnTimeout_completes r s
  | stP th f ext => exact execStP_completes th f ext s
  | mbxGateWrite m => exact execMbxGateWrite_completes m s
  | regWrite r a n v => exact completes_next (pending_accWrite s r _ n v)
  | readClear r a n => exact completes_next (pending_accRead s r _ n)
  | _ => exact completes_next rfl

/-- A tick answers where no command waits; elsewhere the front command does, without itself in the queue. -/
theorem step_completes (s : State) : ∃ t, step s = .next t ∧ t.pending = s.pending.tail := by
  unfold step
  split
  · next h => exact ⟨tick s, rfl, by rw [h]; exact h⟩
  · next c rest h => rw [h]; exact exec_completes c { s with pending := rest }

/-- Settles O54: by cases on the command, and on whether one waits. -/
theorem everyCommandCompletes : Obligations.EveryCommandCompletes := ⟨exec_completes, step_completes⟩

end Sys2Proof.Machine
end

section
/-! SUPPORT. What the registers and threads read after reset (R3): a register without a value of its own at each index reads
the table's at every index. -/

namespace Sys2Proof.Machine

/-- Registers whose reset value depends on the index. -/
abbrev indexedReset : List Nat := [R.TGT_DEFAULT, R.FLT_SEV, R.DEP_POOL_CLASS, R.RTE_PORT_CFG]

theorem regReset_of_table {r : Nat} {x : RegInfo} (i : Nat) (hr : r ∉ indexedReset) (hx : regTable[r]? = some x) :
    regReset r i = BitVec.ofNat 64 x.reset := by
  simp only [List.mem_cons, List.not_mem_nil, or_false, not_or] at hr
  obtain ⟨hdef, hsev, hpool, hport⟩ := hr
  simp only [regReset, hdef, hsev, hpool, hport, if_false, hx]

/-- A field at reset holds its bits of the table's value. -/
theorem reset_rd {f : Fld} {n : Nat} (i : Nat) (hr : f.reg ∉ indexedReset)
    (hn : regTable[f.reg]?.map (fun x => getBits (BitVec.ofNat 64 x.reset) f.lo f.w) = some n) : State.reset.dev.rd f i = n := by
  obtain ⟨x, hx, hbits⟩ := Option.map_eq_some_iff.mp hn
  calc State.reset.dev.rd f i = getBits (regReset f.reg i) f.lo f.w := rfl
    _ = n := by rw [regReset_of_table i hr hx, hbits]

theorem reset_fnState (f : Nat) : State.reset.dev.fnState f = 0 := reset_rd f (by decide) (by decide)

theorem reset_qst (q : Nat) : State.reset.dev.qst q = qsOff := reset_rd q (by decide) (by decide)

theorem reset_lnk (p : Nat) : State.reset.dev.lnk p = lsDown := reset_rd p (by decide) (by decide)

theorem reset_ready : State.reset.dev.flag F.BCP_FW_STAT_READY = false := by
  have h : State.reset.dev.rd F.BCP_FW_STAT_READY = 0 := reset_rd 0 (by decide) (by decide)
  rw [Dev.flag, h, bne_self_eq_false]

theorem Thread.reg_default (n : Nat) : ({} : Thread).reg n = 0 := by
  unfold Thread.reg
  split <;> rfl

/-- Settles O60: the registers are those of the table and no unit holds anything, so all but the fields of registers is by the
definition of the reset state. -/
theorem resetState : Obligations.ResetState := by
  refine ⟨?registers, ?units, ?empty⟩
  case registers => exact fun r i _ => ⟨rfl, rfl, rfl, reset_ready⟩
  case units =>
    exact fun n f p q _ => ⟨rfl, rfl, reset_fnState f, reset_lnk p, reset_qst q, Thread.reg_default, fun _ => rfl, fun _ _ => rfl⟩
  case empty => exact ⟨rfl, rfl, rfl, rfl, rfl, rfl, rfl, rfl, rfl, rfl, rfl, rfl, rfl, rfl, rfl, rfl, rfl⟩

end Sys2Proof.Machine
end

section
/-! SUPPORT. The commands of a queue (R100 to R104, R110, R121), an equation for each state that accepts one and for its
refusal. -/

namespace Sys2Proof.Machine

variable {d : Dev} {q : Nat}

/-- A command on the device alone answers the state with the device it makes. -/
theorem next_on {s : State} {d e : Dev} (h : d = e) :
    (.next (s.on d) : Host.Outcome State Fault Refusal) = .next (s.on e) := by rw [h]

theorem Dev.qEnable_off (hh : d.halted = false) (ho : d.qst q = qsOff) : d.qEnable q = d.qStart q := by
  simp only [Dev.qEnable, hh, ho, if_true, Bool.false_eq_true, if_false]

theorem Dev.qEnable_draining (hh : d.halted = false) (ht : d.qst q = qsDraining) :
    d.qEnable q = d.wr F.WQ_CTX_CTL_ENABLE_LATCHED q 1 := by
  simp [Dev.qEnable, hh, ht]

theorem Dev.qEnable_refused (hh : d.halted = false) (ho : d.qst q ≠ qsOff) (ht : d.qst q ≠ qsDraining) :
    d.qEnable q = d.qReject q := by
  simp only [Dev.qEnable, hh, ho, ht, Bool.false_eq_true, if_false]

theorem Dev.qStart_valid (hv : d.qValid q = true) : d.qStart q =
    (d.setQueue q
      { wb := (d.queue q).wb, recDue := (d.queue q).recDue, intReq := (d.queue q).intReq,
        wbWait := (d.queue q).wbWait, fetch := (d.queue q).fetch, fetchOld := (d.queue q).fetch.isSome }).qState q qsEnabling := by
  simp only [Dev.qStart, hv, if_true]

theorem Dev.qStart_invalid (hv : d.qValid q = false) :
    d.qStart q = (d.wr F.WQ_CTX_CTL_ERR_CAUSE q qeCfg).qReject q := by
  simp only [Dev.qStart, hv, Bool.false_eq_true, if_false]

theorem Dev.qDisable_accepted (hh : d.halted = false) (hs : d.qst q = qsRun ∨ d.qst q = qsHold ∨ d.qst q = qsError) :
    d.qDisable q = d.qDrain q := by
  rcases hs with hs | hs | hs <;> simp [Dev.qDisable, hh, hs]

theorem Dev.qDisable_refused (hh : d.halted = false) (hr : d.qst q ≠ qsRun) (ho : d.qst q ≠ qsHold) (he : d.qst q ≠ qsError) :
    d.qDisable q = d.qReject q := by
  simp only [Dev.qDisable, hh, hr, ho, he, decide_false, Bool.or_self, Bool.false_eq_true, if_false]

@[simp] theorem Dev.dropEntries_rd (s : Nat) (f : Fld) (i : Nat) : (d.dropEntries q s).rd f i = d.rd f i := rfl

/-- The entries of a queue outlive the discard of its cached lines. -/
theorem Dev.dropEntries_ents (s : Nat) : ((d.dropEntries q s).queue q).ents = (d.queue q).ents := by
  simp [Dev.dropEntries, Dev.queue, Dev.updQueue, Dev.setQueue]

theorem Dev.qResume_next (hh : d.halted = false) (hm : d.qMayResume q = true)
    (he : d.qDisp q = d.rd F.WQ_CTX_CTL_ERR_SEQ q) :
    d.qResume q = (d.dropEntries q (d.rd F.WQ_CTX_CTL_ERR_SEQ q)).qGo q := by
  have hd : (d.dropEntries q (d.rd F.WQ_CTX_CTL_ERR_SEQ q)).qDisp q = d.rd F.WQ_CTX_CTL_ERR_SEQ q := he
  simp [Dev.qResume, hh, hm, hd]

theorem Dev.qResume_again {e : Nat} (hh : d.halted = false) (hm : d.qMayResume q = true)
    (he : e = d.rd F.WQ_CTX_CTL_ERR_SEQ q) (hc : seqSub e (d.qComp q) < 2 ^ 31)
    (hd : seqSub (d.qDisp q) e - 1 < 2 ^ 31 - 1) (hne : e ≠ d.qDisp q) (hent : Tbl.has (d.queue q).ents e = true) :
    d.qResume q = ((d.dropEntries q e).updQueue q (fun x => { x with redo := some e, ents := Tbl.del e x.ents })).qGo q := by
  have hagain : (decide (seqSub e ((d.dropEntries q e).qComp q) < 2 ^ 31) &&
      decide (seqSub ((d.dropEntries q e).qDisp q) e - 1 < 2 ^ 31 - 1) && e != (d.dropEntries q e).qDisp q &&
      Tbl.has ((d.dropEntries q e).queue q).ents e) = true := by
    rw [Dev.dropEntries_ents, hent]
    simp only [Dev.qComp, Dev.qDisp, Dev.dropEntries_rd] at hc hd hne ⊢
    simp only [hc, hd, bne_iff_ne.mpr hne, decide_true, Bool.and_self]
  simp only [Dev.qResume, hh, hm, ← he, hagain, Bool.not_true, Bool.false_eq_true, if_false, if_true]

theorem Dev.qResume_refused (hh : d.halted = false) (hm : d.qMayResume q = false) : d.qResume q = d.qReject q := by
  simp only [Dev.qResume, hh, hm, Bool.not_false, Bool.false_eq_true, if_false, if_true]

theorem Dev.qSkip_refused (hh : d.halted = false) (hm : d.qMayResume q = false) : d.qSkip q = d.qReject q := by
  simp only [Dev.qSkip, hh, hm, Bool.not_false, Bool.true_or, Bool.false_eq_true, if_false, if_true]

/-- SKIP is accepted after four causes (R121). -/
theorem Dev.qSkip_accepted {e : Nat} (hh : d.halted = false) (hm : d.qMayResume q = true) (he : e = d.rd F.WQ_CTX_CTL_ERR_SEQ q)
    (hc : d.rd F.WQ_CTX_CTL_ERR_CAUSE q = qeMalformed ∨ d.rd F.WQ_CTX_CTL_ERR_CAUSE q = qeFetch ∨
      d.rd F.WQ_CTX_CTL_ERR_CAUSE q = qeDoubleTrap ∨ d.rd F.WQ_CTX_CTL_ERR_CAUSE q = qeHandlerStop) :
    d.qSkip q = ((((if d.qDisp q = e then (d.wr F.WQ_CTX_DISP_SEQ_DISP q (e + 1)).dropEntries q e else d).updQueue q
      (fun x => { x with redo := x.redo.filter (fun n => n != e) })).updEnt q e (fun x => { x with skipped := true })).qGo q).qProgress q := by
  subst he
  rcases hc with hc | hc | hc | hc <;> simp [Dev.qSkip, hh, hm, hc]

theorem Dev.qInval_accepted (hh : d.halted = false) (hs : d.qst q = qsHold ∨ d.qst q = qsError) :
    d.qInval q = d.dropEntries q (d.rd F.WQ_CTX_AUX_INVAL_SEQ q) := by
  rcases hs with hs | hs <;> simp [Dev.qInval, hh, hs]

theorem Dev.qInval_refused (hh : d.halted = false) (ho : d.qst q ≠ qsHold) (he : d.qst q ≠ qsError) :
    d.qInval q = d.qReject q := by
  simp only [Dev.qInval, hh, ho, he, decide_false, Bool.or_self, Bool.false_eq_true, if_false]

/-- A write of HOLD leaves the queue's state. -/
@[simp] theorem Dev.qst_wr_hold (v : Nat) : (d.wr F.WQ_CTX_CTL_HOLD q v).qst q = d.qst q :=
  Dev.rd_wr_fld d _ _ q v rfl (by decide)

theorem Dev.qHold_set (hh : d.halted = false) (hs : d.qst q = qsRun) : d.qHold q true =
    (((d.wr F.WQ_CTX_CTL_HOLD q 1).qState q qsHold).qNote q).wrrEnd ((d.wr F.WQ_CTX_CTL_HOLD q 1).qFn q) := by
  simp [Dev.qHold, hh, hs]

theorem Dev.qHold_clear (hh : d.halted = false) (hs : d.qst q = qsHold) :
    d.qHold q false = (((d.wr F.WQ_CTX_CTL_HOLD q 0).qState q qsRun).qNote q).qWake q := by
  simp [Dev.qHold, hh, hs]

theorem Dev.qProdWrite_off (v : Nat) (ho : d.qst q = qsOff) : d.qProdWrite q v =
    ((d.wr F.WQ_CTX_PROD_SEQ_PROD q v).wr F.WQ_CTX_DISP_SEQ_DISP q v).wr F.WQ_CTX_COMP_SEQ_COMP q v := by
  simp only [Dev.qProdWrite, ho, if_true]

theorem Dev.qProdWrite_late {v : Nat} (ho : d.qst q ≠ qsOff) (hp : d.qProd q ≠ v) : d.qProdWrite q v = d.fault 1 := by
  simp only [Dev.qProdWrite, ho, hp, if_false]

theorem Dev.qEnableDone_prepares {e f : Dev} (hh : d.halted = false) (hs : d.qst q = qsEnabling)
    (hp : (d.queue q).prepared = false) (he : e = (d.dropAll q).wr F.WQ_CTX_COMP_SEQ_ERR_CNT q 0)
    (hf : f = e.wr F.WQ_CTX_AUX_INCARNATION q (e.rd F.WQ_CTX_AUX_INCARNATION q + 1)) :
    d.qEnableDone q = (f.updQueue q (fun x => { x with prepared := true })).qNote q := by
  subst hf he
  simp [Dev.qEnableDone, hh, hs, hp]

theorem Dev.qTarget_run (hp : (d.queue q).prepared = true) (hd : (d.queue q).disEnabling = false)
    (hl : (d.queue q).latched = false) (hh : d.flag F.WQ_CTX_CTL_HOLD q = false) : d.qTarget q = qsRun := by
  simp only [Dev.qTarget, hp, hd, hl, hh, Bool.not_true, Bool.false_eq_true, if_false]

theorem Dev.qEnter_run (hp : (d.queue q).prepared = true) (ht : d.qTarget q = qsRun) : d.qEnter q =
    ((d.updQueue q (fun x => { x with prepared := false, disEnabling := false })).wr F.WQ_CTX_CTL_STATE q qsRun).qWake q := by
  simp [Dev.qEnter, hp, ht]

theorem Dev.qDrainDone_empty (hh : d.halted = false) (hs : d.qst q = qsDraining) (hq : d.queue q = {})
    (hl : ((d.qState q qsOff).qNote q).flag F.WQ_CTX_CTL_ENABLE_LATCHED q = false) :
    d.qDrainDone q = (d.qState q qsOff).qNote q := by
  simp [Dev.qDrainDone, hh, hs, hq, hl]

end Sys2Proof.Machine
end

section
/-! SUPPORT. The statement about a queue's commands, from their equations. -/

namespace Sys2Proof.Machine

/-- Settles O14: each clause is the equation of its command in the state it names. -/
theorem queueCommands : Obligations.QueueCommands := by
  unfold Obligations.QueueCommands
  refine ⟨?enable, ?cfg, ?latched, ?enableRefused, ?disable, ?disableRefused, ?next, ?again, ?skip, ?resumeRefused, ?inval,
    ?invalRefused, ?holdSet, ?holdClear, ?prodOff, ?prodLate, ?enableDone, ?run, ?drainDone⟩
  case enable => exact fun s q ⟨hh, ho, hv⟩ => next_on ((Dev.qEnable_off hh ho).trans (Dev.qStart_valid hv))
  case cfg => exact fun s q ⟨hh, ho, hv⟩ => next_on ((Dev.qEnable_off hh ho).trans (Dev.qStart_invalid hv))
  case latched => exact fun s q ⟨hh, ht⟩ => next_on (Dev.qEnable_draining hh ht)
  case enableRefused => exact fun s q ⟨hh, ho, ht⟩ => next_on (Dev.qEnable_refused hh ho ht)
  case disable => exact fun s q ⟨hh, hs⟩ => next_on (Dev.qDisable_accepted hh hs)
  case disableRefused => exact fun s q ⟨hh, hr, ho, he⟩ => next_on (Dev.qDisable_refused hh hr ho he)
  case next =>
    rintro s q e ⟨hh, hm, rfl⟩ hd
    exact next_on (Dev.qResume_next hh hm hd)
  case again =>
    exact fun s q e ⟨hh, hm, he⟩ ⟨hc, hd, hne⟩ hent => next_on (Dev.qResume_again hh hm he hc hd hne hent)
  case skip => exact fun s q e ⟨hh, hm, he⟩ hc => next_on (Dev.qSkip_accepted hh hm he hc)
  case resumeRefused =>
    exact fun s q ⟨hh, hm⟩ => ⟨next_on (Dev.qResume_refused hh hm), next_on (Dev.qSkip_refused hh hm)⟩
  case inval => exact fun s q ⟨hh, hs⟩ => next_on (Dev.qInval_accepted hh hs)
  case invalRefused => exact fun s q ⟨hh, ho, he⟩ => next_on (Dev.qInval_refused hh ho he)
  case holdSet => exact fun s q ⟨hh, hs⟩ => next_on (Dev.qHold_set hh hs)
  case holdClear => exact fun s q ⟨hh, hs⟩ => next_on (Dev.qHold_clear hh hs)
  case prodOff => exact fun s q v ho => next_on (Dev.qProdWrite_off _ ho)
  case prodLate => exact fun s q v ⟨ho, hp⟩ => next_on (Dev.qProdWrite_late ho hp)
  case enableDone => exact fun s q d e ⟨hh, hs, hp⟩ ⟨hd, he⟩ => next_on (Dev.qEnableDone_prepares hh hs hp hd he)
  case run => exact fun d q ⟨hp, hd, hl⟩ hh => Dev.qEnter_run hp (Dev.qTarget_run hp hd hl hh)
  case drainDone => exact fun s q ⟨hh, hs, hq⟩ hl => next_on (Dev.qDrainDone_empty hh hs hq hl)

end Sys2Proof.Machine
end

section
/-! SUPPORT. Configuration transactions (R516 to R519): what their operations do in each phase. -/

namespace Sys2Proof.Machine

variable {s : State} {k : Nat}

/-- No transaction: BEGIN opens one, and the other commands find none. -/
theorem txnOps_none (h : (s.txn k).phase = .none) :
    s.txnBegin k = s.setTxn k { s.txn k with
      phase := .opened, status := 0, conflict := false, full := false, held := [], begun := s.dev.ps } ∧
    s.txnCommit k = s.setTxn k { s.txn k with status := Status.TXN_NONE } ∧
    s.txnRollback k = s.setTxn k { s.txn k with status := Status.TXN_NONE } ∧
    s.txnApplied k = s ∧ s.txnTimeout k = s := by
  simp only [State.txnBegin, State.txnCommit, State.txnRollback, State.txnApplied, State.txnTimeout, h, and_self]

/-- An open transaction: COMMIT closes it, ROLLBACK and the time limit end it. -/
theorem txnOps_opened (h : (s.txn k).phase = .opened) :
    s.txnBegin k = s.setTxn k { s.txn k with status := Status.TXN_CONFLICT } ∧
    s.txnCommit k = s.setTxn k { s.txn k with phase := .committing } ∧
    s.txnRollback k = s.setTxn k ((s.txn k).over 0) ∧ s.txnApplied k = s ∧
    s.txnTimeout k = (s.on (s.dev.advanceTo (s.txn k).due)).setTxn k ((s.txn k).over Status.TXN_NONE) := by
  simp only [State.txnBegin, State.txnCommit, State.txnRollback, State.txnApplied, State.txnTimeout, h, and_self]

/-- A committing transaction takes no command. -/
theorem txnCommands_committing (h : (s.txn k).phase = .committing) :
    s.txnBegin k = s ∧ s.txnCommit k = s ∧ s.txnRollback k = s ∧ s.txnTimeout k = s := by
  simp only [State.txnBegin, State.txnCommit, State.txnRollback, State.txnTimeout, h, and_self]

theorem txnApplied_refused (h : (s.txn k).phase = .committing) (hc : (s.txn k).conflict = true ∨ (s.txn k).full = true) :
    s.txnApplied k = s.setTxn k ((s.txn k).over Status.TXN_CONFLICT) := by
  simp only [State.txnApplied, h, Bool.or_eq_true, hc, if_true]

theorem txnApplied_ok (h : (s.txn k).phase = .committing) (hc : (s.txn k).conflict = false) (hf : (s.txn k).full = false) :
    s.txnApplied k = (s.on (s.dev.applyHeld (s.txn k).held)).setTxn k ((s.txn k).over Status.OK) := by
  simp only [State.txnApplied, h, hc, hf, Bool.or_self, Bool.false_eq_true, if_false]

variable (key off : Nat) (m v : Word)

/-- A register that another transaction holds is refused (R517). -/
theorem stage_clash (hh : (heldBy s.txns k key).isSome = true) :
    s.stage k key off m v = s.setTxn k ((s.txn k).clash off) := by
  simp only [State.stage, hh, if_true]

/-- A register already held takes the new bits over the old. -/
theorem stage_again {m0 v0 : Word} (hh : (heldBy s.txns k key).isSome = false)
    (hf : Tbl.find (s.txn k).held key = some (m0, v0)) : s.stage k key off m v =
      s.setTxn k { s.txn k with held := Tbl.put key (m0 ||| m, (v0 &&& ~~~m) ||| (v &&& m)) (s.txn k).held } := by
  simp only [State.stage, hh, hf, Bool.false_eq_true, if_false]

/-- At 4,096 held registers one more is refused (R516). -/
theorem stage_full (hh : (heldBy s.txns k key).isSome = false) (hf : Tbl.find (s.txn k).held key = none)
    (hn : 4096 ≤ heldTotal s.txns) : s.stage k key off m v = s.setTxn k { s.txn k with full := true } := by
  simp only [State.stage, hh, hf, hn, Bool.false_eq_true, if_false, if_true]

theorem stage_new (hh : (heldBy s.txns k key).isSome = false) (hf : Tbl.find (s.txn k).held key = none)
    (hn : heldTotal s.txns < 4096) :
    s.stage k key off m v = s.setTxn k { s.txn k with held := Tbl.put key (m, v &&& m) (s.txn k).held } := by
  simp only [State.stage, hh, hf, Nat.not_le.mpr hn, Bool.false_eq_true, if_false]

/-- A command of a requester that reaches the device and whose access its gate lets through. -/
theorem onTxn_passed {r : Req} {a : Nat} {d : Dev} (f : State → Nat → State) (hk : txnKey r = some k)
    (hr : s.dev.reaches r = true) (hg : s.dev.reqGate r a 8 2 = (d, true)) : onTxn s r a f = .next (f (s.on d) k) := by
  simp only [onTxn, hk, hr, hg, Bool.not_true, Bool.false_eq_true, if_false]

theorem execTxnApplied_lit {r : Req} (hk : txnKey r = some k) (hd : s.dev.dark = false) :
    execTxnApplied r s = .next (s.txnApplied k) := by
  simp only [execTxnApplied, hk, hd, Bool.false_eq_true, if_false]

theorem execTxnTimeout_lit {r : Req} (hk : txnKey r = some k) (hd : s.dev.dark = false) :
    execTxnTimeout r s = .next (s.txnTimeout k) := by
  simp only [execTxnTimeout, hk, hd, Bool.false_eq_true, if_false]

end Sys2Proof.Machine
end

section
/-! SUPPORT. Accesses of registers (R3, R5, R438, R595 to R598): the gates they pass, and what a write that has passed does. -/

namespace Sys2Proof.Machine

variable {s : State} {r : Req} {a n : Nat} {v : Word} {d : Dev}

theorem write_passed (hr : s.dev.reaches r = true) (ha : accessOk a n = true) (hg : s.dev.reqGate r a n 2 = (d, true)) :
    s.write r a n v = State.settled s.dev ((s.on d).regWrite r 1024 a n v) := by
  simp only [State.write, hr, ha, hg, Bool.not_true, Bool.false_eq_true, if_false]

theorem write_denied (hr : s.dev.reaches r = true) (ha : accessOk a n = true) (hg : s.dev.reqGate r a n 2 = (d, false)) :
    s.write r a n v = s.on d := by
  simp only [State.write, hr, ha, hg, Bool.not_true, Bool.false_eq_true, if_false]

theorem write_unsupported (hr : s.dev.reaches r = true) (ha : accessOk a n = false) :
    s.write r a n v = s.on (s.dev.badAccess r) := by
  simp only [State.write, hr, ha, Bool.not_true, Bool.not_false, Bool.false_eq_true, if_false, if_true]

theorem read_passed {e : Dev} (hr : s.dev.reaches r = true) (ha : accessOk a n = true)
    (hg : s.dev.reqGate r a n 1 = (d, true)) (hv : (s.on d).regRead r 1024 0 a = (e, some v)) :
    s.read r a n = State.settled s.dev (s.on (e.emit (.readValue (accessPart a n v)))) := by
  simp only [State.read, hr, ha, hg, hv, Bool.not_true, Bool.false_eq_true, if_false]

theorem accWrite_asleep {q : RegAcc} (h : s.dev.asleep q = true) : s.accWrite q a n v = s.on (s.dev.emit .unsupported) := by
  simp only [State.accWrite, h, if_true]

theorem accRead_asleep {q : RegAcc} (h : s.dev.asleep q = true) : s.accRead q a n = s.on (s.dev.emit .unsupported) := by
  simp only [State.accRead, h, if_true]

theorem accWrite_bar0 (h : s.dev.asleep (.bar0 r) = false) : s.accWrite (.bar0 r) a n v = s.write r a n v := by
  simp only [State.accWrite, h, Bool.false_eq_true, if_false]

theorem accRead_bar0 (h : s.dev.asleep (.bar0 r) = false) : s.accRead (.bar0 r) a n = s.read r a n := by
  simp only [State.accRead, h, Bool.false_eq_true, if_false]

theorem accWrite_bar4 {f : Fid} (h : s.dev.asleep (.bar4 f) = false) :
    s.accWrite (.bar4 f) a n v = State.settled s.dev (s.on (s.dev.bar4Access f a n (some v.toNat))) := by
  simp only [State.accWrite, h, Bool.false_eq_true, if_false]

theorem accRead_bar4 {f : Fid} (h : s.dev.asleep (.bar4 f) = false) :
    s.accRead (.bar4 f) a n = State.settled s.dev (s.on (s.dev.bar4Access f a n none)) := by
  simp only [State.accRead, h, Bool.false_eq_true, if_false]

/-! ### A write that has passed its gate -/

variable {core k reg i : Nat}

theorem regWrite_reserved (hl : s.dev.locate r a = none) : s.regWrite r core a n v = s := by
  simp only [State.regWrite, hl]

theorem regRead_reserved (hl : s.dev.locate r a = none) : s.regRead r core 0 a = (s.dev, some 0) := by
  simp only [State.regRead, hl]

theorem regWrite_plain (hl : s.dev.locate r a = some (reg, i)) (hk : txnKey r = some k) (ht : isTxnReg reg = false)
    (hm : stagedMask reg = 0) :
    s.regWrite r core a n v = s.on (s.dev.regPut r core reg i (accessMask a n) (accessData a n v)) := by
  simp only [State.regWrite, hl, hk, ht, hm, Bool.false_eq_true, if_false, if_true]

/-- Outside an open transaction a write of a register with Staged fields takes effect, and marks who holds it (R517). -/
theorem regWrite_outside (hl : s.dev.locate r a = some (reg, i)) (hk : txnKey r = some k) (ht : isTxnReg reg = false)
    (hm : ¬ stagedMask reg = 0) (hp : (s.txn k).phase ≠ .opened) :
    s.regWrite r core a n v = { s with
      dev := s.dev.regPut r core reg i (accessMask a n) (accessData a n v)
      txns := markHolders s.txns k (i * 256 + reg) (a / 8 * 8) } := by
  simp only [State.regWrite, hl, hk, ht, hm, hp, Bool.false_eq_true, if_false]

/-- Inside one it is staged, unless it covers no Staged field and no other transaction holds the register. -/
theorem regWrite_inside (hl : s.dev.locate r a = some (reg, i)) (hk : txnKey r = some k) (ht : isTxnReg reg = false)
    (hm : ¬ stagedMask reg = 0) (hp : (s.txn k).phase = .opened) :
    s.regWrite r core a n v =
      if stagedMask reg &&& accessMask a n = 0 ∧ heldBy s.txns k (i * 256 + reg) = none then s
      else s.stage k (i * 256 + reg) (a / 8 * 8) (stagedMask reg &&& accessMask a n) (accessData a n v) := by
  simp only [State.regWrite, hl, hk, ht, hm, hp, Bool.false_eq_true, if_false, if_true, Bool.and_eq_true, decide_eq_true_eq,
    Option.isNone_iff_eq_none]

/-! ### Fields -/

theorem readClears_reg (d : Dev) (r i : Nat) (h : ¬ accMask r [.rc] = 0) :
    (d.readClears r i).reg r i = d.reg r i &&& ~~~(accMask r [.rc]) := by
  simp only [Dev.readClears, h, if_false, Dev.reg_setReg_self]

section
variable (runs : Bool) (m v w : Word) {f : FldInfo} (late : Bool)

theorem putField_keeps (h : f.acc = .ro ∨ f.acc = .wo ∨ f.acc = .rc) : putField runs m v (w, late) f = (w, late) := by
  rcases h with h | h | h <;> simp only [putField, h]

theorem putField_rw1c (h : f.acc = .rw1c) :
    putField runs m v (w, late) f = (w &&& ~~~(v &&& ((maskW f.w <<< f.lo) &&& m)), late) := by
  simp only [putField, h]

theorem putField_w1s (h : f.acc = .w1s) :
    putField runs m v (w, late) f = (w ||| (v &&& ((maskW f.w <<< f.lo) &&& m)), late) := by
  simp only [putField, h]

/-- The register with the field's covered bits taken from the write. -/
abbrev fieldStored (f : FldInfo) (m v w : Word) : Word :=
  (w &&& ~~~((maskW f.w <<< f.lo) &&& m)) ||| (v &&& ((maskW f.w <<< f.lo) &&& m))

theorem putField_rws (h : f.acc = .rws) : putField runs m v (w, late) f = (fieldStored f m v w, late) := by
  simp only [putField, h]

theorem putField_rw (h : f.acc = .rw) (hq : f.chg = .quiesced → runs = false) :
    putField runs m v (w, late) f = (fieldStored f m v w, late) := by
  by_cases hc : f.chg = .quiesced
  · simp only [putField, h, hc, hq hc, decide_true, Bool.and_false, Bool.false_and, Bool.false_eq_true, if_false]
  · simp only [putField, h, hc, decide_false, Bool.false_and, Bool.false_eq_true, if_false]

/-- A running block ignores a change of a Quiesced field (R5). -/
theorem putField_late (h : f.acc = .rw) (hq : f.chg = .quiesced) (hr : runs = true) (hne : fieldStored f m v w ≠ w) :
    putField runs m v (w, late) f = (w, true) := by
  simp only [putField, h, hq, hr, bne_iff_ne.mpr hne, decide_true, Bool.and_self, if_true]

end

end Sys2Proof.Machine
end

section
/-! SUPPORT. Configuration space, BAR4, and the debug port's accesses of memories (R426, R436, R441, R485, R492). -/

namespace Sys2Proof.Machine

variable {d : Dev} {f off n : Nat}

theorem cfgAccess_ready (x : Option Nat) (hd : d.dark = false) (hr : d.flag F.BCP_FW_STAT_READY = true) :
    d.cfgAccess f off x =
      if d.fnExists f then (match x with
        | some v => d.cfgWrite f (off / 4 * 4) v
        | none => d.cfgRead f (off / 4 * 4))
      else d.emit .unsupported := by
  simp only [Dev.cfgAccess, Dev.cfgRequest, hd, hr]
  cases d.fnExists f <;> rfl

theorem bar4Access_write (v : Nat) (hd : d.dark = false) (hf : d.fnExists f = true) (ha : accessOk off n = true) :
    d.bar4Access f off n (some v) = d.bar4Write f off n v := by
  simp only [Dev.bar4Access, hd, hf, ha, Bool.not_true, Bool.or_self, Bool.false_eq_true, if_false, if_true]

theorem bar4Access_read (hd : d.dark = false) (hf : d.fnExists f = true) (ha : accessOk off n = true) :
    d.bar4Access f off n none =
      d.emit (.readValue (d.bar4Word f off + (if n = 8 then d.bar4Word f (off + 4) else 0) * 2 ^ 32)) := by
  simp only [Dev.bar4Access, hd, hf, ha, Bool.not_true, Bool.or_self, Bool.false_eq_true, if_false, if_true]

variable {c a need : Nat}

/-- A gate at the cluster's scratch decides, and one that refuses reports. -/
theorem dbgGate_denied {b : Nat} (hc : c ≠ 16) (hg : d.gateFail (c + 2) 5 none a n need = some b) :
    d.dbgGate c a n need = (d.deny (c + 2) 5 none b, false) := by
  simp only [Dev.dbgGate, hc, hg, if_false]

theorem dbgGate_open (hc : c ≠ 16) (hg : d.gateFail (c + 2) 5 none a n need = none) : d.dbgGate c a n need = (d, true) := by
  simp only [Dev.dbgGate, hc, hg, if_false]

/-- The device to whose memory c the debug port turns: a cluster wakes. -/
abbrev Dev.dbgWoken (d : Dev) (c : Nat) : Dev := if c = 16 then d else d.wake c

variable {g : Dev} (x : Word)

theorem dbgMem_write (hd : d.dark = false) (ha : accessOk a n = true) (hg : (d.dbgWoken c).dbgGate c a n 2 = (g, true)) :
    d.dbgMem c a n (some x) = g.setScrWord c a (mergeWord (g.scrWord c a) (mkWord x 0) a n) := by
  simp only [Dev.dbgMem, hd, ha, hg, Option.isSome_some, Bool.not_true, Bool.false_eq_true, if_false, if_true]

theorem dbgMem_read (hd : d.dark = false) (ha : accessOk a n = true) (hg : (d.dbgWoken c).dbgGate c a n 1 = (g, true)) :
    d.dbgMem c a n none = g.emit (.readValue (accessPart a n (TWord.val (g.scrWord c a)))) := by
  simp only [Dev.dbgMem, hd, ha, hg, Option.isSome_none, Bool.not_true, Bool.false_eq_true, if_false]

theorem dbgMem_denied (y : Option Word) (hd : d.dark = false) (ha : accessOk a n = true)
    (hg : (d.dbgWoken c).dbgGate c a n (if y.isSome then 2 else 1) = (g, false)) :
    d.dbgMem c a n y = g.emit .unsupported := by
  simp only [Dev.dbgMem, hd, ha, hg, Bool.not_true, Bool.false_eq_true, if_false]

end Sys2Proof.Machine
end

section
/-! SUPPORT. The statement about transactions and register accesses, from the equations above. -/

namespace Sys2Proof.Machine

/-- Settles O47: the clauses are the equations of the operations on transactions, of the accesses by where they go, of a write
that has passed its gate, and of the fields. -/
theorem transactionsAndRegisterAccess : Obligations.TransactionsAndRegisterAccess := by
  unfold Obligations.TransactionsAndRegisterAccess
  refine ⟨?txnCommands, ?txnApplied, ?txnTimeout, ?txnNone, ?txnOpened, fun _ => rfl, ?txnCommitting, ?stage, ?write,
    ?unsupported, ?denied, ?places, ?cfgAccess, ?cfgWrite, ?devCtl, ?bar4Access, ?bar4Word, ?bar4Write, ?dbgMem, ?dbgGate,
    ?reserved, ?plain, ?staged, ?noStaged, ?readClear, readClears_reg, ?putField⟩
  case txnCommands =>
    exact fun s r k d ⟨hk, hr, hg⟩ => ⟨onTxn_passed _ hk hr hg, onTxn_passed _ hk hr hg, onTxn_passed _ hk hr hg⟩
  case txnApplied => exact fun s r k ⟨hk, hd⟩ => execTxnApplied_lit hk hd
  case txnTimeout => exact fun s r k ⟨hk, hd⟩ => execTxnTimeout_lit hk hd
  case txnNone =>
    rintro s k x ⟨rfl, h⟩
    exact txnOps_none h
  case txnOpened =>
    rintro s k x ⟨rfl, h⟩
    exact txnOps_opened h
  case txnCommitting =>
    rintro s k x ⟨rfl, h⟩
    exact ⟨txnApplied_refused h, txnApplied_ok h, txnCommands_committing h⟩
  case stage =>
    rintro s k key off m v x rfl
    exact ⟨stage_clash key off m v, fun _ _ => stage_again key off m v, stage_full key off m v, stage_new key off m v⟩
  case write =>
    exact fun s r a n v d ⟨hs, hr, ha, hg⟩ => congrArg _ ((accWrite_bar0 hs).trans (write_passed hr ha hg))
  case unsupported =>
    exact fun s r a n v ⟨hs, hr, ha⟩ => congrArg _ ((accWrite_bar0 hs).trans (write_unsupported hr ha))
  case denied =>
    exact fun s r a n v d ⟨hs, hr, ha, hg⟩ => congrArg _ ((accWrite_bar0 hs).trans (write_denied hr ha hg))
  case places =>
    exact fun s fn m a n v => ⟨fun r h => ⟨congrArg _ (accWrite_asleep h), congrArg _ (accRead_asleep h)⟩,
      fun h => ⟨congrArg _ (accWrite_bar4 h), congrArg _ (accRead_bar4 h)⟩, rfl, rfl, rfl, rfl⟩
  case cfgAccess =>
    rintro d f off x ⟨hd, hr⟩
    constructor <;> intro hf <;> simp only [cfgAccess_ready _ hd hr, hf, Bool.false_eq_true, if_false, if_true, and_self]
  case cfgWrite => exact fun d f v => ⟨fun h => if_pos h, fun h => if_neg h, rfl, rfl, rfl⟩
  case devCtl =>
    rintro d e f v rfl
    exact ⟨fun h => if_pos h, fun h => if_neg h, rfl⟩
  case bar4Access =>
    exact fun d f off n v ⟨hd, hf, ha⟩ => ⟨bar4Access_write v hd hf ha, bar4Access_read hd hf ha⟩
  case bar4Word =>
    rintro d f e rfl
    exact ⟨rfl, rfl, rfl, rfl, rfl⟩
  case bar4Write => exact fun d f off v => ⟨rfl, rfl⟩
  case dbgMem =>
    rintro d e g m a n x ⟨hd, ha, rfl⟩
    exact ⟨dbgMem_write x hd ha, dbgMem_read hd ha, dbgMem_denied (some x) hd ha, dbgMem_denied none hd ha⟩
  case dbgGate => exact fun d c a n need => ⟨rfl, fun b => dbgGate_denied, dbgGate_open⟩
  case reserved => exact fun s r core a n v hl => ⟨regWrite_reserved hl, regRead_reserved hl⟩
  case plain => exact fun s r core a n k reg i v ⟨hl, hk, ht, hm⟩ => regWrite_plain hl hk ht hm
  case staged =>
    rintro s r core a n k reg i v held ⟨hl, hk, ht, rfl, hheld, hm⟩
    refine ⟨fun hp => ?_, regWrite_outside hl hk ht hm⟩
    rw [regWrite_inside hl hk ht hm hp, if_neg (fun h => hheld h.1)]
  case noStaged =>
    rintro s r core a n k reg i v ⟨hl, hk, ht, h0, hm, hp⟩
    rw [regWrite_inside hl hk ht hm hp, h0]
    exact ⟨fun hn => if_pos ⟨rfl, hn⟩, fun hn => if_neg (fun h => hn h.2)⟩
  case readClear =>
    exact fun s r a n v d e ⟨hs, hr, ha, hg, hv⟩ => congrArg _ ((accRead_bar0 hs).trans (read_passed hr ha hg hv))
  case putField =>
    rintro runs m v w f k rfl
    exact ⟨fun h => putField_keeps runs m v w _ (.inl h), fun h => putField_keeps runs m v w _ (.inr (.inl h)),
      fun h => putField_keeps runs m v w _ (.inr (.inr h)), putField_rw1c runs m v w _, putField_w1s runs m v w _,
      putField_rws runs m v w _, putField_rw runs m v w _, putField_late runs m v w _⟩

end Sys2Proof.Machine
end

section
/-! SUPPORT. Arbiters (R494 to R496): what a grant takes in each case, and the waiter an age grant takes. -/

namespace Sys2Proof.Machine

/-- Waiter p, a requester with the time its wait began, comes before e or is e in the order of age grants (R494): the longer
wait first, of equal waits the lower number. -/
def WaitsAsLong (p e : Nat × Nat) : Prop := p.2 < e.2 ∨ (p.2 = e.2 ∧ p.1 ≤ e.1)

theorem WaitsAsLong.refl (p : Nat × Nat) : WaitsAsLong p p := .inr ⟨rfl, Nat.le_refl _⟩

theorem WaitsAsLong.trans {p q e : Nat × Nat} (h : WaitsAsLong p q) (h' : WaitsAsLong q e) : WaitsAsLong p e := by
  unfold WaitsAsLong at *
  omega

/-- The one of two waiters that an age grant takes. -/
def longerWaiter (y e : Nat × Nat) : Nat × Nat := if e.2 < y.2 || (e.2 == y.2 && e.1 < y.1) then e else y

theorem longerWaiter_eq_or (y e : Nat × Nat) : longerWaiter y e = y ∨ longerWaiter y e = e := by
  unfold longerWaiter
  split
  · exact .inr rfl
  · exact .inl rfl

theorem longerWaiter_waitsAsLong (y e : Nat × Nat) :
    WaitsAsLong (longerWaiter y e) y ∧ WaitsAsLong (longerWaiter y e) e := by
  unfold longerWaiter WaitsAsLong
  simp only [Bool.or_eq_true, Bool.and_eq_true, decide_eq_true_eq, beq_iff_eq]
  split <;> omega

/-- Taking the longer waiter along a list ends at one that none of them precedes. -/
theorem foldl_longerWaiter (l : List (Nat × Nat)) (y : Nat × Nat) :
    l.foldl longerWaiter y ∈ y :: l ∧ ∀ e ∈ y :: l, WaitsAsLong (l.foldl longerWaiter y) e := by
  induction l generalizing y with
  | nil => exact ⟨List.mem_cons_self, List.forall_mem_singleton.mpr (.refl y)⟩
  | cons x l ih =>
    obtain ⟨hmem, hle⟩ := ih (longerWaiter y x)
    obtain ⟨hhead, htail⟩ := List.forall_mem_cons.mp hle
    obtain ⟨hy, hx⟩ := longerWaiter_waitsAsLong y x
    refine ⟨?_, List.forall_mem_cons.mpr ⟨hhead.trans hy, List.forall_mem_cons.mpr ⟨hhead.trans hx, htail⟩⟩⟩
    rw [List.foldl_cons]
    rcases List.mem_cons.mp hmem with h | h
    · rw [h]
      rcases longerWaiter_eq_or y x with hp | hp <;> simp [hp]
    · exact List.mem_cons_of_mem _ (List.mem_cons_of_mem _ h)

variable {x : Arb}

theorem Arb.longest_nil (h : x.waiting = []) : x.longest = none := by
  simp only [Arb.longest, h, List.foldl_nil]

theorem Arb.longest_cons {y : Nat × Nat} {l : List (Nat × Nat)} (h : x.waiting = y :: l) :
    x.longest = some (l.foldl longerWaiter y) := by
  rw [Arb.longest, h, List.foldl_cons]
  exact List.foldl_hom some fun y e => (apply_ite some _ e y).symm

theorem Arb.longest_spec {p : Nat × Nat} (h : x.longest = some p) : p ∈ x.waiting ∧ ∀ e ∈ x.waiting, WaitsAsLong p e := by
  cases hw : x.waiting with
  | nil => rw [Arb.longest_nil hw] at h; cases h
  | cons y l =>
    rw [Arb.longest_cons hw] at h
    cases h
    exact foldl_longerWaiter l y

variable {ageN now n t : Nat}

theorem Arb.grantNext_preempted (h : x.preempted = some (n, t)) :
    x.grantNext ageN now = { x with grant := some (n, now - t), preempted := none } := by
  simp only [Arb.grantNext, h]

theorem Arb.grantNext_age (hp : x.preempted = none) (hc : ageN ≤ x.count + 1) (hl : x.longest = some (n, t)) :
    x.grantNext ageN now =
      { x with waiting := x.waiting.erase (n, t), grant := some (n, now), last := n, count := 0 } := by
  simp only [Arb.grantNext, hp, hc, hl, if_true]

theorem Arb.grantNext_robin (hp : x.preempted = none) (hc : x.count + 1 < ageN) (hr : x.robin = some (n, t)) :
    x.grantNext ageN now =
      { x with waiting := x.waiting.erase (n, t), grant := some (n, now), last := n, count := x.count + 1 } := by
  simp only [Arb.grantNext, hp, Nat.not_le.mpr hc, hr, if_false]

variable {d : Dev} {a inst k : Nat}

/-- A cut grant waits again from now on; neither refresh nor the debug port is cut (R495). -/
theorem Dev.holdCut_granted {e f : Dev} (hk : k = arbKey a inst) (hg : (d.arb k).grant = some (n, t)) (hn : ¬ n < 2)
    (he : e = d.setArb k { d.arb k with grant := none, waiting := (d.arb k).waiting ++ [(n, d.ps)] })
    (hf : f = e.setReg R.ARB_FLAGS a (setBits (e.reg R.ARB_FLAGS a) n 1 1)) :
    d.holdCut a inst = (f.bump F.ARB_CNT_CUTS a).fault 13 := by
  subst hf he hk
  simp only [Dev.holdCut, hg, hn, decide_false, Bool.and_false, Bool.false_eq_true, if_false]

theorem Dev.preempt_granted (m : Nat) (hg : (d.arb inst).grant = some (n, t)) (hn : ¬ n < 2) : d.preempt inst m =
    (d.setArb inst { d.arb inst with grant := some (m, d.ps), preempted := some (n, d.ps - t) }).bump F.ARB_CNT_PREEMPT 0 := by
  simp only [Dev.preempt, hg, hn, if_false]

end Sys2Proof.Machine
end

section
/-! SUPPORT. Gating (R22, R524, R526, R527): the Depot falls asleep, a unit is gated and wakes. -/

namespace Sys2Proof.Machine

variable {d e : Dev} {u : Nat}

theorem Dev.depSleep_quiet (hd : d.dark = false) (hen : d.flag F.PWR_POLICY_DEPOT_SR_EN = true)
    (hs : d.dep.selfRefresh = false) (hw : d.dep.arbs.any (fun e => e.1 < 64 && !e.2.waiting.isEmpty) = false)
    (he : e = (d.advance (usPs (max 10 (d.rd F.PWR_GATE_CFG_SR_IDLE_US)))).ev 11 3) :
    d.depSleep = { e with dep.selfRefresh := true } := by
  subst he
  simp only [Dev.depSleep, hd, hen, hs, hw, Bool.not_true, Bool.or_self, Bool.false_eq_true, if_false]

theorem Dev.clockGate_idle (hd : d.dark = false) (hm : d.unitWarm u = false) (hi : d.unitIdle u = true)
    (hc : d.domGated u false = false) (hp : d.domGated u true = false) (hw : d.eng.waking.contains u = false) :
    d.clockGate u =
      (d.advanceTo (d.idleFrom u + nsPs (clampTo 10 1000 (d.rd F.PWR_GATE_CFG_CLK_IDLE_NS)))).setGated u false 1 := by
  simp only [Dev.clockGate, hd, hm, hi, hc, hp, hw, Bool.not_true, Bool.or_self, Bool.false_eq_true, if_false]

/-- An engine cluster that loses power loses its instruction lines and L1 entries (R524). -/
theorem Dev.powerGate_cluster (hd : d.dark = false) (hm : d.unitWarm u = false) (hi : d.unitIdle u = true)
    (hp : d.domGated u true = false) (hw : d.eng.waking.contains u = false) (hu : u < 16)
    (he : e = ((d.advanceTo (d.idleFrom u + usPs (max 10 (d.rd F.PWR_GATE_CFG_PWR_IDLE_US)))).setGated u false 0).setGated u true 1) :
    d.powerGate u = { e with
      eng.imem := Tbl.del u e.eng.imem, eng.ahead := Tbl.del u e.eng.ahead
      xlt.l1i := Tbl.del u e.xlt.l1i, xlt.l1d := Tbl.del u e.xlt.l1d } := by
  subst he
  simp only [Dev.powerGate, hd, hm, hi, hp, hw, hu, Bool.not_true, Bool.or_self, Bool.false_eq_true, if_false, if_true]

/-- A unit that wakes is neither gated nor waking and idles from now on; of a DMA cluster the channels go on. -/
theorem Dev.wakeDone_waking {f : Dev} (hd : d.dark = false) (hw : d.eng.waking.contains u = true)
    (he : e = ((d.advance (if d.domGated u true then nsPs 1500 else nsPs 20)).setGated u false 0).setGated u true 0)
    (hf : f = { e with eng.waking := e.eng.waking.erase u, eng.idleSince := Tbl.put u e.ps e.eng.idleSince }) :
    d.wakeDone u = if u < 16 then f else f.chKick (u - 16) := by
  subst hf he
  simp only [Dev.wakeDone, hd, hw, Bool.not_true, Bool.or_self, Bool.false_eq_true, if_false]

end Sys2Proof.Machine
end

section
/-! SUPPORT. The statement about arbiters and gating, from the equations above. -/

namespace Sys2Proof.Machine

/-- Settles O43: the longest waiter is the end of a fold along the waiters; each other clause is the equation of its command,
or of a grant, in the state it names. -/
theorem arbitersAndGating : Obligations.ArbitersAndGating := by
  unfold Obligations.ArbitersAndGating
  refine ⟨?grant, ?grantNext, fun x n t => Arb.longest_spec, ?holdCut, ?preempt, ?selfRefresh, ?clockGate, ?powerGate,
    ?wakeDone⟩
  case grant =>
    rintro s a inst l k ⟨hd, hi, rfl⟩
    exact next_on (if_neg (by simp [hd, hi]))
  case grantNext =>
    exact fun x ageN now => ⟨fun n t => Arb.grantNext_preempted, fun n t => Arb.grantNext_age,
      fun n t => Arb.grantNext_robin⟩
  case holdCut =>
    exact fun s a inst k n t d e ⟨hd, hk, hg, hn⟩ ⟨hcut, hflag⟩ =>
      next_on ((if_neg (by simp [hd])).trans (Dev.holdCut_granted hk hg hn hcut hflag))
  case preempt =>
    exact fun s inst b m t ⟨hd, hs, hg, hm⟩ =>
      next_on ((if_neg (by simp [hd, hs])).trans (Dev.preempt_granted b hg hm))
  case selfRefresh => exact fun s d ⟨hd, hen, hs, hw⟩ he => next_on (Dev.depSleep_quiet hd hen hs hw he)
  case clockGate => exact fun s u ⟨hd, hm, hi, hc, hp, hw⟩ => next_on (Dev.clockGate_idle hd hm hi hc hp hw)
  case powerGate =>
    exact fun s u d ⟨hd, hm, hi, hp, hw⟩ ⟨hu, he⟩ => next_on (Dev.powerGate_cluster hd hm hi hp hw hu he)
  case wakeDone =>
    intro s u d e ⟨hd, hw⟩ he hf
    have hwake := Dev.wakeDone_waking hd hw he hf
    refine ⟨fun hu => ?_, fun hu g hg => ?_⟩
    · rw [if_pos hu] at hwake
      exact next_on (congrArg Dev.goes hwake)
    · rw [if_neg (Nat.not_lt.mpr hu), ← hg] at hwake
      exact next_on (congrArg Dev.goes hwake)

end Sys2Proof.Machine
end

section
/-! SUPPORT. A trap that enters the trap slot (R75, R76, R78): the thread it leaves, the words of the save area, and what it
keeps. -/

namespace Sys2Proof.Machine

/-- The words of the save area by their places, lowest first (R75). -/
def Thread.saved (t : Thread) (tpc cause tval : Word) : List (Nat × TWord) :=
  [(0, mkWord tpc 0), (1, mkWord cause 0), (2, mkWord tval 0),
   (3, mkWord (BitVec.ofNat 64 (t.p.toNat / 2 * 2 + 1 + (if t.priv then 256 else 0))) 0),
   (4, mkWord (BitVec.ofNat 64 (t.asid + t.fn * 2 ^ 16)) 0),
   (5, mkWord (BitVec.ofNat 64 (t.queue + (if t.cmd then 2 ^ 16 else 0))) 0),
   (8, t.reg 1), (9, t.reg 2), (10, t.reg 3), (11, t.reg 4), (12, t.reg 5), (13, t.reg 6), (14, t.reg 7)]

/-- The thread with a trap's cause, value and code address in its context and in w1 to w3 (R76). -/
def Thread.takeTrap (t : Thread) (cause tval tpc : Word) : Thread :=
  (({ t with cause := cause, tval := tval, tpc := tpc, priv := true, event := 5, trapped := some (t.inSlot, t.event),
             trapCol := t.lastCol, lastCol := none, inSlot := none }.setReg 1 (mkWord cause 0)).setReg 2 (mkWord tval 0)).setReg 3
    (mkWord tpc 0)

/-- The thread at entry 0 of version `v` of slot `n` (R78). -/
def Thread.enter (t : Thread) (n v : Nat) : Thread :=
  { t with st := .ready, stall := .none, pc := mkPc 0 n v, past := false, inSlot := some (n, v) }

theorem Thread.reg_takeTrap (t : Thread) (cause tval tpc : Word) {k : Nat} (h : 3 < k) :
    (t.takeTrap cause tval tpc).reg k = t.reg k := by
  simp only [Thread.takeTrap]
  rw [Thread.reg_setReg_ne _ _ (by omega), Thread.reg_setReg_ne _ _ (by omega), Thread.reg_setReg_ne _ _ (by omega)]
  rfl

theorem Thread.args_takeTrap (t : Thread) (cause tval tpc : Word) :
    (t.takeTrap cause tval tpc).reg 1 = mkWord cause 0 ∧ (t.takeTrap cause tval tpc).reg 2 = mkWord tval 0 ∧
      (t.takeTrap cause tval tpc).reg 3 = mkWord tpc 0 := by
  refine ⟨?_, ?_, Thread.reg_setReg_self _ _ (by decide)⟩
  · rw [Thread.takeTrap, Thread.reg_setReg_ne _ _ (by decide), Thread.reg_setReg_ne _ _ (by decide),
      Thread.reg_setReg_self _ _ (by decide)]
  · rw [Thread.takeTrap, Thread.reg_setReg_ne _ _ (by decide), Thread.reg_setReg_self _ _ (by decide)]

theorem Dev.trapBegin_enabled {d : Dev} {n : Nat} (th : Nat) (h : d.flag F.ENG_SLOT_CTL_EN n = true) :
    d.trapBegin th n = (d.enterSlot n).updThr th (fun t => t.enter n (d.slotVer n)) := by
  simp only [Dev.trapBegin, h, Bool.not_true, Bool.false_eq_true, if_false, Thread.enter]

section
variable {d : Dev} {th n : Nat} (hin : (d.thr th).inTrap = false) (hen : d.flag F.ENG_FN_TRAP_EN (d.thr th).fn = true)
  (hn : n = d.rd F.ENG_FN_TRAP_SLOT (d.thr th).fn) (hslot : d.flag F.ENG_SLOT_CTL_EN n = true)
include hin hen hn hslot

/-- The trap is counted, writes the save area, and enters the trap slot. -/
theorem Dev.trap_entered (cause : Nat) (tval tpc : Word) :
    ∃ e : Dev, e.dep = d.dep ∧ (∀ k, e.thr k = d.thr k) ∧
      d.trap th cause tval tpc =
        (((e.saveWords th (d.thr th) tpc (BitVec.ofNat 64 cause) tval).updThr th
          (fun t => t.takeTrap (BitVec.ofNat 64 cause) tval tpc)).enterSlot n).updThr th (fun t => t.enter n (d.slotVer n)) := by
  obtain ⟨e, hrd, -, hdep, hthr, htrap⟩ := Dev.trap_eq d th tpc tval cause hin hen
  subst hn
  refine ⟨e, hdep, hthr, ?_⟩
  have hslot' : e.flag F.ENG_SLOT_CTL_EN (d.rd F.ENG_FN_TRAP_SLOT (d.thr th).fn) = true := by
    rwa [Dev.flag, hrd _ _ (by decide)]
  have hver : e.slotVer (d.rd F.ENG_FN_TRAP_SLOT (d.thr th).fn) = d.slotVer (d.rd F.ENG_FN_TRAP_SLOT (d.thr th).fn) :=
    hrd _ _ (by decide)
  rw [htrap, Dev.trapBegin_enabled _ (by simpa using hslot'), Dev.slotVer, Dev.rd_updThr, Dev.saveWords_rd, ← Dev.slotVer, hver]
  rfl

theorem Dev.thr_trap_entered (cause : Nat) (tval tpc : Word) : (d.trap th cause tval tpc).thr th =
    ((d.thr th).takeTrap (BitVec.ofNat 64 cause) tval tpc).enter n (d.slotVer n) := by
  obtain ⟨e, -, hthr, htrap⟩ := Dev.trap_entered hin hen hn hslot cause tval tpc
  rw [htrap, Dev.thr_updThr_self, Dev.enterSlot, Dev.thr_wr, Dev.thr_updThr_self, Dev.saveWords_thr, hthr]

theorem Dev.thr_trap_other (cause : Nat) (tval tpc : Word) {t : Nat} (ht : t ≠ th) : (d.trap th cause tval tpc).thr t = d.thr t := by
  obtain ⟨e, -, hthr, htrap⟩ := Dev.trap_entered hin hen hn hslot cause tval tpc
  rw [htrap, Dev.thr_updThr_ne _ _ ht, Dev.enterSlot, Dev.thr_wr, Dev.thr_updThr_ne _ _ ht, Dev.saveWords_thr, hthr]

theorem Dev.dep_trap_entered (cause : Nat) (tval tpc : Word) : (d.trap th cause tval tpc).dep = d.dep := by
  obtain ⟨e, hdep, -, htrap⟩ := Dev.trap_entered hin hen hn hslot cause tval tpc
  rw [htrap, Dev.updThr_dep, Dev.enterSlot, Dev.wr_dep, Dev.updThr_dep, Dev.saveWords_dep, hdep]

/-- Each word of the save area is where R75 says. -/
theorem Dev.scrWord_trap_saved (cause : Nat) (tval tpc : Word) {k : Nat} {w : TWord}
    (hw : (k, w) ∈ (d.thr th).saved tpc (BitVec.ofNat 64 cause) tval) :
    (d.trap th cause tval tpc).scrWord (clusterOf th) (saveArea th + 8 * k) = w := by
  obtain ⟨e, -, -, htrap⟩ := Dev.trap_entered hin hen hn hslot cause tval tpc
  have hnd : (((d.thr th).saved tpc (BitVec.ofNat 64 cause) tval).map Prod.fst).Nodup := by
    simp only [Thread.saved, List.map_cons, List.map_nil]
    decide
  calc (d.trap th cause tval tpc).scrWord (clusterOf th) (saveArea th + 8 * k)
      = (e.saveWords th (d.thr th) tpc (BitVec.ofNat 64 cause) tval).scrWord (clusterOf th) (saveArea th + 8 * k) := by
        rw [htrap]; rfl
    _ = w := by
        rw [Dev.saveWords_eq]
        exact Dev.foldl_scr_get _ _ _ _ _ hnd hw e (saveArea_aligned th)

end

/-- Settles O4: the thread is the one that took the trap and entered the slot; each word of the save area is one of the thirteen
that the trap writes. -/
theorem trapEntry : Obligations.TrapEntry := by
  unfold Obligations.TrapEntry
  refine ⟨?entry, ?saved⟩
  case entry =>
    intro d th cause tval tpc n hin hen hn hslot
    rw [Dev.thr_trap_entered hin hen hn hslot]
    obtain ⟨h1, h2, h3⟩ := (d.thr th).args_takeTrap (BitVec.ofNat 64 cause) tval tpc
    exact ⟨rfl, rfl, rfl, rfl, rfl, rfl, rfl, h1, h2, h3, fun k hk => Thread.reg_takeTrap _ _ _ _ hk, rfl, rfl,
      fun t ht => Dev.thr_trap_other hin hen hn hslot cause tval tpc ht, Dev.dep_trap_entered hin hen hn hslot cause tval tpc⟩
  case saved =>
    intro d th cause tval tpc k hin hen hslot hk
    have word {j : Nat} {w : TWord} (hw : (j, w) ∈ (d.thr th).saved tpc (BitVec.ofNat 64 cause) tval) :=
      Dev.scrWord_trap_saved hin hen rfl hslot cause tval tpc hw
    have hreg : (8 + k, (d.thr th).reg (k + 1)) ∈ (d.thr th).saved tpc (BitVec.ofNat 64 cause) tval := by
      interval_cases k <;> simp [Thread.saved]
    exact ⟨word (j := 0) (by simp [Thread.saved]), word (j := 1) (by simp [Thread.saved]), word (j := 2) (by simp [Thread.saved]),
      word (j := 3) (by simp [Thread.saved]), word (j := 4) (by simp [Thread.saved]), word (j := 5) (by simp [Thread.saved]),
      word hreg⟩

end Sys2Proof.Machine
end

section
/-! SUPPORT. Instructions that complete at once (R28): each check traps or lets the body go on, and a body that went on shows in
the state it left. -/

namespace Sys2Proof.Machine

variable {d e : Dev} {th : Nat} {r : IRes} {k : Unit → IRes}

/-- The body of an instruction of thread `th` on `d` goes on with `e`, or traps. -/
def IRes.GoesTo (d : Dev) (th : Nat) (e : Dev) (r : IRes) : Prop :=
  r = .next e ∨ (∃ c v, r = .trap c v) ∨ ∃ x c v, r = .trapIn x c v ∧ (x.thr th).event = (d.thr th).event

theorem goesTo_next : (IRes.next e).GoesTo d th e := .inl rfl

theorem goesTo_trap (c : Nat) (v : Word) : (IRes.trap c v).GoesTo d th e := .inr (.inl ⟨c, v, rfl⟩)

theorem goesTo_noPoison {l : List Nat} (h : (k ()).GoesTo d th e) : (noPoison d th l k).GoesTo d th e := by
  unfold noPoison
  split
  · exact goesTo_trap _ _
  · exact h

theorem goesTo_aligned {a n : Nat} (h : (k ()).GoesTo d th e) : (aligned a n k).GoesTo d th e := by
  unfold aligned
  split
  · exact h
  · exact goesTo_trap _ _

/-- A denial is recorded and traps; no thread changes before the trap (R489). -/
theorem goesTo_gateTrap (g b : Nat) : (d.gateTrap th g b).GoesTo d th e :=
  .inr (.inr ⟨_, _, _, rfl, congrArg Thread.event (Dev.thr_deny _ _ _ _ _ _)⟩)

theorem goesTo_scratchOk {a need : Nat} (h : (k ()).GoesTo d th e) : (d.scratchOk th a need k).GoesTo d th e := by
  unfold Dev.scratchOk
  split
  · split
    · exact h
    · exact goesTo_trap _ _
  · dsimp only
    split
    · exact goesTo_gateTrap _ _
    · exact h

theorem goesTo_depotOk {a need : Nat} (h : (k ()).GoesTo d th e) : (d.depotOk th a need k).GoesTo d th e := by
  unfold Dev.depotOk
  split
  · exact goesTo_gateTrap _ _
  · exact h

/-- A tag is set, or the activation has no right to clear POISON (R50). -/
theorem goesTo_setTag (wd wa tag word : Nat) : (setTag d th wd wa tag word).GoesTo d th
    (d.setW th wd (mkWord (TWord.val ((d.thr th).reg wa)) (cleanTag tag))) := by
  unfold setTag
  dsimp only
  split
  · exact goesTo_trap _ _
  · exact goesTo_next

section
variable {s t : State} {word g wd : Nat} {ext : Ext} {bad sup noCmd : Bool} {body : Dev → IRes}

/-- An instruction that ends in place has gone on. -/
theorem Dev.issue_goesTo (hat : s.dev.atInstr th word ext g = true) (hb : (body s.dev).GoesTo s.dev th e)
    (hx : (.next (s.on (s.dev.issue th word ext g bad sup noCmd body)) : Host.Outcome State Fault Refusal) = .next t ∧
      s.inPlace t th) :
    ∃ pc past, t = s.on ((e.retired th).updThr th (fun t => { t with pc := pc, past := past })) := by
  obtain ⟨hnext, hact, hev⟩ := hx
  cases hnext
  have hends : (∃ e, body s.dev = .next e) ∨ (∃ c v, body s.dev = .trap c v) ∨
      ∃ e c v, body s.dev = .trapIn e c v ∧ (e.thr th).event = (s.dev.thr th).event := hb.imp_left fun h => ⟨e, h⟩
  obtain ⟨e', pc, past, he, hissue⟩ := Dev.issue_inPlace hat hends hact hev
  rcases hb with hb | ⟨c, v, hb⟩ | ⟨x, c, v, hb, -⟩ <;> cases hb.symm.trans he
  exact ⟨pc, past, congrArg s.on hissue⟩

theorem Dev.issue_resultFrame (hat : s.dev.atInstr th word ext g = true)
    (hb : ∃ v, (body s.dev).GoesTo s.dev th (s.dev.setW th wd v))
    (hx : (.next (s.on (s.dev.issue th word ext g bad sup noCmd body)) : Host.Outcome State Fault Refusal) = .next t ∧
      s.inPlace t th) : s.resultFrame t th wd := by
  obtain ⟨v, hb⟩ := hb
  obtain ⟨pc, past, rfl⟩ := Dev.issue_goesTo hat hb hx
  exact State.resultFrame_of rfl

theorem Dev.issue_predFrame (hat : s.dev.atInstr th word ext g = true)
    (hb : ∃ b, (body s.dev).GoesTo s.dev th (s.dev.setThr th ((s.dev.thr th).setPred wd b)))
    (hx : (.next (s.on (s.dev.issue th word ext g bad sup noCmd body)) : Host.Outcome State Fault Refusal) = .next t ∧
      s.inPlace t th) : s.predFrame t th wd := by
  obtain ⟨b, hb⟩ := hb
  obtain ⟨pc, past, rfl⟩ := Dev.issue_goesTo hat hb hx
  exact State.predFrame_of rfl

end

/-! The instructions that share a meaning: immediates, shifts by an immediate, compares with one, and the two of opcode 0x28. -/

section
variable {s t : State} {op fn : Nat} {ext : Ext}

theorem Dev.intImm_resultFrame {f : FmtI} (hat : s.dev.atInstr th (wordI op f) ext f.guard.toNat = true)
    (hx : (.next (s.on (s.dev.intImm op fn th f ext)) : Host.Outcome State Fault Refusal) = .next t ∧ s.inPlace t th) :
    s.resultFrame t th f.wd.toNat := by
  unfold Dev.intImm at hx
  exact Dev.issue_resultFrame hat ⟨_, goesTo_next⟩ hx

theorem Dev.shiftImm_resultFrame {f : FmtI} (hat : s.dev.atInstr th (wordI op f) ext f.guard.toNat = true)
    (hx : (.next (s.on (s.dev.shiftImm op fn th f ext)) : Host.Outcome State Fault Refusal) = .next t ∧ s.inPlace t th) :
    s.resultFrame t th f.wd.toNat := by
  unfold Dev.shiftImm at hx
  exact Dev.issue_resultFrame hat ⟨_, goesTo_next⟩ hx

theorem Dev.tagInstr_resultFrame {f : FmtA} (hat : s.dev.atInstr th (wordA 0x28 f) ext f.guard.toNat = true)
    (hx : (.next (s.on (s.dev.tagInstr th f ext)) : Host.Outcome State Fault Refusal) = .next t ∧ s.inPlace t th) :
    s.resultFrame t th f.wd.toNat := by
  unfold Dev.tagInstr at hx
  refine Dev.issue_resultFrame hat ?_ hx
  dsimp only
  split
  · exact ⟨_, goesTo_next⟩
  · exact ⟨_, goesTo_setTag _ _ _ _⟩

theorem Dev.cmpImm_predFrame {f : FmtI} (hat : s.dev.atInstr th (wordI op f) ext f.guard.toNat = true)
    (hx : (.next (s.on (s.dev.cmpImm op fn th f ext)) : Host.Outcome State Fault Refusal) = .next t ∧ s.inPlace t th) :
    s.predFrame t th f.wd.toNat := by
  unfold Dev.cmpImm at hx
  exact Dev.issue_predFrame hat ⟨_, goesTo_noPoison goesTo_next⟩ hx

end

/-- Settles O51: the body of each of these instructions writes one register or one predicate, or traps. -/
theorem engineResultFrames : Obligations.EngineResultFrames := by
  unfold Obligations.EngineResultFrames
  refine ⟨?alu, ?bit, ?sel, ?tagGet, ?tagSet, ?addi, ?andi, ?ori, ?xori, ?shli, ?shri, ?srai, ?tagSeti, ?movi, ?movk, ?cmp, ?pop,
    ?cmpiEq, ?cmpiLt, ?cmpiLtu, ?tagTst⟩
  case alu | bit | sel | movi | movk => exact fun s t th f ext hat hx => Dev.issue_resultFrame hat ⟨_, goesTo_next⟩ hx
  case addi | andi | ori | xori => exact fun s t th f ext hat hx => Dev.intImm_resultFrame hat hx
  case shli | shri | srai => exact fun s t th f ext hat hx => Dev.shiftImm_resultFrame hat hx
  case tagGet | tagSet => exact fun s t th f ext hat hx => Dev.tagInstr_resultFrame hat hx
  case tagSeti => exact fun s t th f ext hat hx => Dev.issue_resultFrame hat ⟨_, goesTo_setTag _ _ _ _⟩ hx
  case cmp => exact fun s t th f ext hat hx => Dev.issue_predFrame hat ⟨_, goesTo_noPoison goesTo_next⟩ hx
  case cmpiEq | cmpiLt | cmpiLtu => exact fun s t th f ext hat hx => Dev.cmpImm_predFrame hat hx
  case pop | tagTst => exact fun s t th f ext hat hx => Dev.issue_predFrame hat ⟨_, goesTo_next⟩ hx

end Sys2Proof.Machine
end

section
/-! SUPPORT. Loads and stores of scratch and Depot that go on (R51, R52, R54, R481): the word they move, and nothing else. -/

namespace Sys2Proof.Machine

theorem not_pmcReg {r : Nat} (h : r < 256) (hval : r ≠ R.PMC_CTR_VAL) (hcfg : r ≠ R.PMC_CTR_CFG) (hfn : r ≠ R.PMC_FN_VAL) :
    ¬ pmcReg r := by
  simp only [pmcReg, not_or]
  exact ⟨hval, hcfg, hfn, Nat.not_le.mpr h⟩

/-- An instruction that leaves threads and registers alone and goes on moves its pc, and of the rest changes what `drop` hides. -/
theorem State.storeFrame_of {s : State} {e : Dev} {th : Nat} {drop : Dev → Dev} (pc : Word) (past : Bool)
    (hdrop : drop { e with regs := [], eng.th := [] } = drop { s.dev with regs := [], eng.th := [] })
    (hthr : ∀ o, e.thr o = s.dev.thr o) (hrd : ∀ (g : Fld) (j : Nat), ¬ pmcReg g.reg → e.rd g j = s.dev.rd g j) :
    s.storeFrame (s.on ((e.retired th).updThr th (fun t => { t with pc := pc, past := past }))) th drop := by
  obtain ⟨hrest, hother, hregs, hself⟩ := Dev.retired_moved e th pc past
  refine ⟨rfl, rfl, rfl, (congrArg drop hrest).trans hdrop, fun o ho => (hother o ho).trans (hthr o), ?_, pc, past, ?_⟩
  · exact fun g j h1 h2 h3 h4 => (hregs g j (not_pmcReg h1 h2 h3 h4)).trans (hrd g j (not_pmcReg h1 h2 h3 h4))
  · rw [hself, hthr]

/-- Counting an instruction and moving a pc leave scratch and Depot. -/
theorem Dev.scrWord_moved (e : Dev) (th : Nat) (g : Thread → Thread) (c a : Nat) :
    ((e.retired th).updThr th g).scrWord c a = e.scrWord c a := by
  simp only [Dev.scrWord, Dev.updThr_eng_scratch, Dev.retired_eng]

theorem Dev.depWord_moved (e : Dev) (th : Nat) (g : Thread → Thread) (a : Nat) :
    ((e.retired th).updThr th g).depWord a = e.depWord a := by
  simp only [Dev.depWord, Dev.updThr_dep, Dev.retired_dep]

/-- An access of the Depot wakes it and is counted. -/
theorem Dev.depWake_ev_frame (d : Dev) (k : Nat) :
    { d.depWake.ev 11 k with regs := [] } = { d with regs := [], dep.selfRefresh := false } := Dev.ev_frame d.depWake 11 k none none 1

/-- Settles O52: each body moves its word behind the checks of R52, and the frame is that of an instruction that went on. -/
theorem engineScratchAndDepotFrames : Obligations.EngineScratchAndDepotFrames := by
  unfold Obligations.EngineScratchAndDepotFrames
  refine ⟨?ldS, ?stS, ?stD, ?ldD⟩
  case ldS =>
    exact fun s t th f ext hat hx =>
      Dev.issue_resultFrame hat ⟨_, goesTo_noPoison (goesTo_aligned (goesTo_scratchOk goesTo_next))⟩ hx
  case stS =>
    intro s t th f ext hat hx
    obtain ⟨pc, past, rfl⟩ := Dev.issue_goesTo hat (goesTo_noPoison (goesTo_aligned (goesTo_scratchOk goesTo_next))) hx
    refine ⟨State.storeFrame_of pc past rfl (fun _ => rfl) (fun _ _ _ => rfl), fun c a hca => ?_⟩
    rw [Dev.scrWord_moved, Dev.scrWord_setScrWord_ne _ _ hca]
  case stD =>
    intro s t th f ext hat hx
    obtain ⟨pc, past, rfl⟩ := Dev.issue_goesTo hat (goesTo_noPoison (goesTo_aligned (goesTo_depotOk goesTo_next))) hx
    refine ⟨State.storeFrame_of pc past ?_ ?_ ?_, fun a ha => ?_⟩
    · exact congrArg (fun y : Dev => { y with eng.th := [], dep.mem := [], dep.selfRefresh := false }) (Dev.depWake_ev_frame s.dev 1)
    · exact fun o => Dev.thr_ev _ _ _ _ _ _ _
    · exact fun g j hg => Dev.ev_rd _ _ _ _ _ _ _ _ hg
    · rw [Dev.depWord_moved, Dev.depWord_setDepWord_ne _ _ ha, Dev.depWord, Dev.ev_dep]
      rfl
  case ldD =>
    intro s t th f ext hat hx
    obtain ⟨pc, past, rfl⟩ := Dev.issue_goesTo (e := (s.dev.depWake.ev 11 0).setW th f.wd.toNat (s.dev.depWord (s.dev.eaOf th f ext)))
      hat (goesTo_noPoison (goesTo_aligned (goesTo_depotOk goesTo_next))) hx
    obtain ⟨⟨-, -, -, hrest, hother, hregs⟩, ⟨w, pc', past', hself⟩, hreg⟩ : (s.on (s.dev.depWake.ev 11 0)).resultFrame _ th f.wd.toNat :=
      State.resultFrame_of rfl
    have hthr (o : Nat) : (s.dev.depWake.ev 11 0).thr o = s.dev.thr o := Dev.thr_ev _ _ _ _ _ _ _
    refine ⟨hrest.trans ?_, fun o ho => (hother o ho).trans (hthr o), fun g j h1 h2 h3 h4 => ?_, ⟨w, pc', past', ?_⟩, fun n hn => ?_⟩
    · exact congrArg (fun y : Dev => { y with eng.th := [] }) (Dev.depWake_ev_frame s.dev 0)
    · exact (hregs g j h1 h2 h3 h4).trans (Dev.ev_rd _ _ _ _ _ _ _ _ (not_pmcReg h1 h2 h3 h4))
    · rw [← hthr]
      exact hself
    · rw [← hthr]
      exact hreg n hn

end Sys2Proof.Machine
end

section
/-! SUPPORT. The issue of an instruction (R28, R38 to R41), by what its checks and its body come to. -/

namespace Sys2Proof.Machine

section
variable {d e : Dev} {th word g : Nat} {ext : Ext} {bad sup noCmd : Bool} {body : Dev → IRes}

/-- A field that must be 0 and is not, or an instruction that no command slot may hold, traps ILLEGAL. -/
theorem Dev.issue_illegal (hat : d.atInstr th word ext g = true) (hbad : (bad || noCmd && pcCmd (d.thr th).pc) = true) :
    d.issue th word ext g bad sup noCmd body = d.trapHere th tcIllegal (BitVec.ofNat 64 word) := by
  rw [Dev.issue_at hat, if_pos hbad]

theorem Dev.issue_unprivileged (hat : d.atInstr th word ext g = true) (hbad : (bad || noCmd && pcCmd (d.thr th).pc) = false)
    (hpriv : (sup && !(d.thr th).priv) = true) :
    d.issue th word ext g bad sup noCmd body = d.trapHere th tcPrivilege (BitVec.ofNat 64 word) := by
  rw [Dev.issue_at hat, if_neg (by simp [hbad]), if_pos hpriv]

section
variable (hat : d.atInstr th word ext g = true) (hbad : (bad || noCmd && pcCmd (d.thr th).pc) = false)
  (hsup : (sup && !(d.thr th).priv) = false)
include hat hbad hsup

theorem Dev.issue_next (hbody : body d = .next e) : d.issue th word ext g bad sup noCmd body = e.completed th := by
  rw [Dev.issue_at hat, if_neg (by simp [hbad]), if_neg (by simp [hsup]), hbody]

theorem Dev.issue_idle (hbody : body d = .idle e) : d.issue th word ext g bad sup noCmd body = (e.wasted th).goOn th := by
  rw [Dev.issue_at hat, if_neg (by simp [hbad]), if_neg (by simp [hsup]), hbody]

theorem Dev.issue_trap {c : Nat} {v : Word} (hbody : body d = .trap c v) :
    d.issue th word ext g bad sup noCmd body = d.trapHere th c v := by
  rw [Dev.issue_at hat, if_neg (by simp [hbad]), if_neg (by simp [hsup]), hbody]

/-- An instruction that sets its thread's place itself: it counts as retired unless it trapped. -/
theorem Dev.issue_done (hbody : body d = .done e) : d.issue th word ext g bad sup noCmd body =
    if (e.thr th).inTrap && !(d.thr th).inTrap || (e.thr th).st == .stopped then e else e.retired th := by
  rw [Dev.issue_at hat, if_neg (by simp [hbad]), if_neg (by simp [hsup]), hbody]

end
end

/-! The checks of each format: a command slot's extension where it must be 0 (R40), and the fields. -/

section
variable {d e : Dev} {op th : Nat} {ext : Ext} {bad : Bool} {body : Dev → IRes}

theorem Dev.issueA_next {f : FmtA} (hat : d.atInstr th (wordA op f) ext f.guard.toNat = true)
    (hext : extBad (d.thr th) ext = false) (hbad : bad = false) (hbody : body d = .next e) :
    d.issueA op th f ext bad body = e.completed th :=
  Dev.issue_next hat (by simp [hext, hbad]) rfl hbody

theorem Dev.issueA_illegal {f : FmtA} {sup noCmd : Bool} (hat : d.atInstr th (wordA op f) ext f.guard.toNat = true)
    (hbad : bad = true) : d.issueA op th f ext bad body sup noCmd = d.trapHere th tcIllegal (BitVec.ofNat 64 (wordA op f)) :=
  Dev.issue_illegal hat (by simp [hbad])

theorem Dev.issueI_next {f : FmtI} (hat : d.atInstr th (wordI op f) ext f.guard.toNat = true) (hbad : bad = false)
    (hbody : body d = .next e) : d.issueI op th f ext bad body = e.completed th :=
  Dev.issue_next hat (by simp [hbad]) rfl hbody

theorem Dev.issueI_illegal {f : FmtI} {sup : Bool} (hat : d.atInstr th (wordI op f) ext f.guard.toNat = true)
    (hbad : bad = true) : d.issueI op th f ext bad body sup = d.trapHere th tcIllegal (BitVec.ofNat 64 (wordI op f)) :=
  Dev.issue_illegal hat (by simp [hbad])

theorem Dev.issueIN_next {f : FmtI} (hat : d.atInstr th (wordI op f) ext f.guard.toNat = true)
    (hext : extBad (d.thr th) ext = false) (hbad : bad = false) (hbody : body d = .next e) :
    d.issueIN op th f ext bad body = e.completed th :=
  Dev.issue_next hat (by simp [hext, hbad]) rfl hbody

theorem Dev.issueIN_illegal {f : FmtI} (hat : d.atInstr th (wordI op f) ext f.guard.toNat = true) (hbad : bad = true) :
    d.issueIN op th f ext bad body = d.trapHere th tcIllegal (BitVec.ofNat 64 (wordI op f)) :=
  Dev.issue_illegal hat (by simp [hbad])

end

end Sys2Proof.Machine
end

section
/-! SUPPORT. Integer, bit, move and select instructions (R42 to R46): the table of alu, and the two families of immediates. -/

namespace Sys2Proof.Machine

variable {d : Dev} {op fn th : Nat} {f : FmtI} {ext : Ext}

/-- Where two conditions differ only at equal values, so do the choices by them not. -/
theorem ite_eq_ite_of_or_eq {α : Type} {p q : Prop} [Decidable p] [Decidable q] {a b : α} (h : p ↔ q ∨ a = b) :
    (if p then a else b) = if q then a else b := by
  by_cases hq : q
  · rw [if_pos (h.mpr (.inl hq)), if_pos hq]
  · by_cases hab : a = b
    · rw [hab, ite_self, ite_self]
    · rw [if_neg fun hp => (h.mp hp).elim hq hab, if_neg hq]

/-- The orders of words by their integers, and the strict orders of `BitVec`. -/
theorem toInt_le_iff (a b : Word) : a.toInt ≤ b.toInt ↔ a.slt b = true ∨ a = b := by
  rw [le_iff_lt_or_eq, BitVec.toInt_inj, BitVec.slt, decide_eq_true_eq]

theorem toNat_le_iff (a b : Word) : a.toNat ≤ b.toNat ↔ a.ult b = true ∨ a = b := by
  rw [le_iff_lt_or_eq, BitVec.toNat_inj, BitVec.ult, decide_eq_true_eq]

theorem aluOp_min_max (a b : Word) : aluOp 0x00F a b = (if a.slt b then a else b) ∧ aluOp 0x010 a b = (if b.slt a then a else b) ∧
    aluOp 0x011 a b = (if a.ult b then a else b) ∧ aluOp 0x012 a b = (if b.ult a then a else b) :=
  ⟨ite_eq_ite_of_or_eq (toInt_le_iff a b), ite_eq_ite_of_or_eq ((toInt_le_iff b a).trans (or_congr_right eq_comm)),
    ite_eq_ite_of_or_eq (toNat_le_iff a b), ite_eq_ite_of_or_eq ((toNat_le_iff b a).trans (or_congr_right eq_comm))⟩

theorem aluOp_divide {a b : Word} (h : b ≠ 0) : aluOp 0x00B a b = a / b ∧ aluOp 0x00C a b = BitVec.ofInt 64 (a.toInt.tdiv b.toInt) ∧
    aluOp 0x00D a b = a % b ∧ aluOp 0x00E a b = BitVec.ofInt 64 (a.toInt.tmod b.toInt) := by
  refine ⟨(if_neg h).trans ?_, if_neg h, (if_neg h).trans ?_, if_neg h⟩
  · rw [← BitVec.toNat_udiv, BitVec.ofNat_toNat, BitVec.setWidth_eq]
  · rw [← BitVec.toNat_umod, BitVec.ofNat_toNat, BitVec.setWidth_eq]

theorem aluOp_divide_zero {a b : Word} (h : b = 0) : aluOp 0x00B a b = BitVec.allOnes 64 ∧ aluOp 0x00C a b = BitVec.allOnes 64 ∧
    aluOp 0x00D a b = a ∧ aluOp 0x00E a b = a := ⟨if_pos h, if_pos h, if_pos h, if_pos h⟩

theorem Dev.intImm_next (hat : d.atInstr th (wordI op f) ext f.guard.toNat = true) : d.intImm op fn th f ext =
    (d.setW th f.wd.toNat (mkWord (aluOp fn (TWord.val ((d.thr th).reg f.wa.toNat)) (immOf (d.thr th) f ext))
      (resultTag (tagOf ((d.thr th).reg f.wa.toNat)) (isPoison ((d.thr th).reg f.wa.toNat))
        (fn ≤ 1 && tagPtr (tagOf ((d.thr th).reg f.wa.toNat)))))).completed th := by
  have hbody : intRes d th f.wd.toNat f.wa.toNat (immOf (d.thr th) f ext) 0 fn =
      d.setW th f.wd.toNat (mkWord (aluOp fn (TWord.val ((d.thr th).reg f.wa.toNat)) (immOf (d.thr th) f ext))
        (resultTag (tagOf ((d.thr th).reg f.wa.toNat)) (isPoison ((d.thr th).reg f.wa.toNat))
          (fn ≤ 1 && tagPtr (tagOf ((d.thr th).reg f.wa.toNat))))) := by
    simp [intRes, tagPoison, tagPtr]
  exact Dev.issueI_next hat rfl (congrArg IRes.next hbody)

/-- A shift by an immediate below 64: the amount is the field. -/
theorem Dev.shiftImm_next (hat : d.atInstr th (wordI op f) ext f.guard.toNat = true) (hext : extBad (d.thr th) ext = false)
    (himm : f.imm.toNat < 64) (hfn : 1 < fn) : d.shiftImm op fn th f ext =
      (d.setW th f.wd.toNat (mkWord (aluOp fn (TWord.val ((d.thr th).reg f.wa.toNat)) (f.imm.setWidth 64))
        (resultTag (tagOf ((d.thr th).reg f.wa.toNat)) (isPoison ((d.thr th).reg f.wa.toNat)) false))).completed th := by
  have hbody : intRes d th f.wd.toNat f.wa.toNat (f.imm.setWidth 64) 0 fn =
      d.setW th f.wd.toNat (mkWord (aluOp fn (TWord.val ((d.thr th).reg f.wa.toNat)) (f.imm.setWidth 64))
        (resultTag (tagOf ((d.thr th).reg f.wa.toNat)) (isPoison ((d.thr th).reg f.wa.toNat)) false)) := by
    simp [intRes, tagPoison, Nat.not_le.mpr hfn]
  exact Dev.issueIN_next hat hext (decide_eq_false (Nat.not_le.mpr himm)) (congrArg IRes.next hbody)

/-- The amount of such a shift. -/
theorem imm_amount (himm : f.imm.toNat < 64) : (f.imm.setWidth 64 : Word).toNat % 64 = f.imm.toNat := by
  rw [BitVec.toNat_setWidth]
  omega

theorem aluOp_shift_imm (a : Word) (himm : f.imm.toNat < 64) : aluOp 5 a (f.imm.setWidth 64) = a <<< f.imm.toNat ∧
    aluOp 6 a (f.imm.setWidth 64) = a >>> f.imm.toNat ∧ aluOp 7 a (f.imm.setWidth 64) = a.sshiftRight f.imm.toNat := by
  simp only [aluOp, imm_amount himm, and_self]

theorem Dev.shiftImm_illegal (hat : d.atInstr th (wordI op f) ext f.guard.toNat = true) (himm : 64 ≤ f.imm.toNat) :
    d.shiftImm op fn th f ext = d.trapHere th tcIllegal (BitVec.ofNat 64 (wordI op f)) :=
  Dev.issueIN_illegal hat (decide_eq_true himm)

/-- Settles O1: an instruction whose fields pass its checks completes with its result, and its result is the one of the table;
one whose fields do not pass traps. -/
theorem engineIntegerResults : Obligations.EngineIntegerResults := by
  unfold Obligations.EngineIntegerResults
  refine ⟨?alu, ?table, ?addi, ?andi, ?ori, ?xori, ?shli, ?shri, ?srai, ?movi, ?movk, ?bit, ?bitZero, ?sel, ?shliIll, ?shriIll,
    ?sraiIll, ?movkIll, ?bitIll, ?selIll⟩
  case alu =>
    exact fun s th f ext hat hext hfn => next_on (Dev.issueA_next hat hext (decide_eq_false (Nat.not_lt.mpr hfn)) rfl)
  case table =>
    intro a b
    obtain ⟨hmin, hmax, hminu, hmaxu⟩ := aluOp_min_max a b
    refine ⟨rfl, rfl, rfl, rfl, rfl, rfl, rfl, rfl, rfl, rfl, rfl, fun h => ?_, aluOp_divide_zero, fun h => ?_, hmin, hmax, hminu,
      hmaxu, rfl⟩
    · exact ⟨(aluOp_divide h).1, (aluOp_divide h).2.2.1⟩
    · exact ⟨(aluOp_divide h).2.1, (aluOp_divide h).2.2.2⟩
  case addi | andi | ori | xori => exact fun s th f ext hat => next_on (Dev.intImm_next hat)
  case shli =>
    exact fun s th f ext hat hext himm => next_on ((Dev.shiftImm_next hat hext himm (by decide)).trans
      (by rw [(aluOp_shift_imm _ himm).1]))
  case shri =>
    exact fun s th f ext hat hext himm => next_on ((Dev.shiftImm_next hat hext himm (by decide)).trans
      (by rw [(aluOp_shift_imm _ himm).2.1]))
  case srai =>
    exact fun s th f ext hat hext himm => next_on ((Dev.shiftImm_next hat hext himm (by decide)).trans
      (by rw [(aluOp_shift_imm _ himm).2.2]))
  case movi => exact fun s th f ext hat => next_on (Dev.issue_next hat rfl rfl rfl)
  case movk =>
    exact fun s th f ext hat hext himm =>
      next_on (Dev.issue_next hat (by simp only [hext, decide_eq_false (Nat.not_le.mpr himm), Bool.false_and, Bool.or_self]) rfl rfl)
  case bit => exact fun s th f ext hat hext hfn hwb => next_on (Dev.issueA_next hat hext (by simp [hwb, hfn]) rfl)
  case bitZero => decide
  case sel =>
    intro s th f ext hat hext hfn
    refine next_on (Dev.issueA_next hat hext (decide_eq_false (Nat.not_le.mpr hfn)) ?_)
    dsimp only
    split <;> rfl
  case shliIll | shriIll | sraiIll => exact fun s th f ext hat himm => next_on (Dev.shiftImm_illegal hat himm)
  case movkIll =>
    exact fun s th f ext hat himm =>
      next_on (Dev.issue_illegal hat (by simp only [decide_eq_true himm, Bool.or_true, Bool.true_or]))
  case bitIll => exact fun s th f ext hat hbad => next_on (Dev.issueA_illegal hat (by simpa using hbad))
  case selIll => exact fun s th f ext hat hfn => next_on (Dev.issueA_illegal hat (decide_eq_true hfn))

end Sys2Proof.Machine
end

section
/-! SUPPORT. Compares, pop and the tag instructions (R47 to R50). -/

namespace Sys2Proof.Machine

/-- Sources that hold no poison let the body go on (R35). -/
theorem noPoison_none {d : Dev} {th : Nat} {l : List Nat} {k : Unit → IRes} (h : (d.thr th).poisonIn l = none) :
    noPoison d th l k = k () := by
  simp only [noPoison, h]

theorem noPoison_some {d : Dev} {th n : Nat} {l : List Nat} {k : Unit → IRes} (h : (d.thr th).poisonIn l = some n) :
    noPoison d th l k = .trap tcPoison (BitVec.ofNat 64 n) := by
  simp only [noPoison, h]

section
variable {d : Dev} {op fn th : Nat} {ext : Ext}

theorem Dev.cmpImm_next {f : FmtI} (hat : d.atInstr th (wordI op f) ext f.guard.toNat = true) (hwd : f.wd.toNat < 8)
    (hp : (d.thr th).poisonIn [f.wa.toNat] = none) : d.cmpImm op fn th f ext =
      (d.setThr th ((d.thr th).setPred f.wd.toNat
        (condOf fn (TWord.val ((d.thr th).reg f.wa.toNat)) (immOf (d.thr th) f ext)))).completed th :=
  Dev.issueI_next hat (decide_eq_false (Nat.not_le.mpr hwd)) (noPoison_none hp)

theorem Dev.cmpImm_illegal {f : FmtI} (hat : d.atInstr th (wordI op f) ext f.guard.toNat = true) (hwd : 8 ≤ f.wd.toNat) :
    d.cmpImm op fn th f ext = d.trapHere th tcIllegal (BitVec.ofNat 64 (wordI op f)) :=
  Dev.issueI_illegal hat (decide_eq_true hwd)

/-- A tag is below 256, so its value needs no cut. -/
theorem tagOf_lt (w : TWord) : tagOf w < 256 := by
  have := w.isLt
  unfold tagOf
  omega

theorem setVal_tagOf (d : Dev) (th n : Nat) (w : TWord) : d.setVal th n (tagOf w) = d.setW th n (BitVec.ofNat 72 (tagOf w)) := by
  rw [Dev.setVal, Nat.mod_eq_of_lt (by have := tagOf_lt w; omega)]

/-- A supervisor sets any tag; a user does not make poisoned data good (R50). -/
theorem setTag_allowed {wd wa tag word : Nat} (h : (d.thr th).priv = true ∨ isPoison ((d.thr th).reg wa) = false ∨ tagPoison tag = true) :
    setTag d th wd wa tag word = .next (d.setW th wd (mkWord (TWord.val ((d.thr th).reg wa)) (tag % 64))) := by
  have hno : (!(d.thr th).priv && isPoison ((d.thr th).reg wa) && !tagPoison tag) = false := by
    rcases h with h | h | h <;> simp [h]
  simp only [setTag, hno, Bool.false_eq_true, if_false, cleanTag]

theorem Dev.tagInstr_get {f : FmtA} (hat : d.atInstr th (wordA 0x28 f) ext f.guard.toNat = true)
    (hext : extBad (d.thr th) ext = false) (hfn : f.fn = 0) (hwb : f.wb = 0) : d.tagInstr th f ext =
      (d.setW th f.wd.toNat (BitVec.ofNat 72 (tagOf ((d.thr th).reg f.wa.toNat)))).completed th := by
  refine Dev.issueA_next hat hext (by simp [hfn, hwb]) ?_
  simp only [hfn, if_true, setVal_tagOf]

theorem Dev.tagInstr_set {f : FmtA} (hat : d.atInstr th (wordA 0x28 f) ext f.guard.toNat = true)
    (hext : extBad (d.thr th) ext = false) (hfn : f.fn = 1) (hp : (d.thr th).priv = true ∨
      isPoison ((d.thr th).reg f.wa.toNat) = false ∨ tagPoison ((TWord.val ((d.thr th).reg f.wb.toNat)).toNat % 256) = true) :
    d.tagInstr th f ext = (d.setW th f.wd.toNat (mkWord (TWord.val ((d.thr th).reg f.wa.toNat))
      ((TWord.val ((d.thr th).reg f.wb.toNat)).toNat % 64))).completed th := by
  refine Dev.issueA_next hat hext (by simp [hfn]) ?_
  have hcut (n : Nat) : n % 256 % 64 = n % 64 := by omega
  simp only [hfn, if_neg (show (1 : BitVec 9) ≠ 0 by decide), setTag_allowed hp, hcut]

end

/-- Settles O2: an instruction whose fields pass its checks and whose sources hold no poison completes with its predicate or tag;
one whose fields do not pass traps. -/
theorem enginePredicatesAndTags : Obligations.EnginePredicatesAndTags := by
  unfold Obligations.EnginePredicatesAndTags
  refine ⟨?cmp, ?cmpiEq, ?cmpiLt, ?cmpiLtu, ?pop, ?tagGet, ?tagSet, ?tagSeti, ?tagTst, ?cmpIll, ?cmpiEqIll, ?cmpiLtIll,
    ?cmpiLtuIll, ?popIll, ?tagSetiIll, ?tagTstIll⟩
  case cmp =>
    exact fun s th f ext hat hext hfn hwd hp =>
      next_on (Dev.issueA_next hat hext (by simp [hfn, hwd]) (noPoison_none hp))
  case cmpiEq | cmpiLt | cmpiLtu => exact fun s th f ext hat hwd hp => next_on (Dev.cmpImm_next hat hwd hp)
  case pop =>
    exact fun s th f ext hat hext hfn ⟨hwd, hwa, hwb⟩ =>
      next_on (Dev.issueA_next hat hext (by simp [hfn, hwd, hwa, hwb]) rfl)
  case tagGet => exact fun s th f ext hat hext hfn hwb => next_on (Dev.tagInstr_get hat hext hfn hwb)
  case tagSet => exact fun s th f ext hat hext hfn hp => next_on (Dev.tagInstr_set hat hext hfn hp)
  case tagSeti =>
    exact fun s th f ext hat hext himm hp =>
      next_on (Dev.issueIN_next hat hext (decide_eq_false (Nat.not_le.mpr himm)) (setTag_allowed hp))
  case tagTst =>
    exact fun s th f ext hat hext himm hwd => next_on (Dev.issueIN_next hat hext (by simp [himm, hwd]) rfl)
  case cmpIll | popIll => exact fun s th f ext hat hbad => next_on (Dev.issueA_illegal hat (by simpa [or_assoc] using hbad))
  case cmpiEqIll | cmpiLtIll | cmpiLtuIll => exact fun s th f ext hat hwd => next_on (Dev.cmpImm_illegal hat hwd)
  case tagSetiIll => exact fun s th f ext hat himm => next_on (Dev.issueIN_illegal hat (decide_eq_true himm))
  case tagTstIll => exact fun s th f ext hat hbad => next_on (Dev.issueIN_illegal hat (by simpa using hbad))

end Sys2Proof.Machine
end

section
/-! SUPPORT. System and control instructions (R30, R31, R69 to R73, R86). -/

namespace Sys2Proof.Machine

/-- An instruction that has set its thread's place itself and neither trapped nor stopped the thread. -/
theorem Dev.issue_retired {d e : Dev} {th word g : Nat} {ext : Ext} {bad sup noCmd : Bool} {body : Dev → IRes}
    (hat : d.atInstr th word ext g = true) (hbad : (bad || noCmd && pcCmd (d.thr th).pc) = false)
    (hsup : (sup && !(d.thr th).priv) = false) (hbody : body d = .done e) (hst : (e.thr th).st ≠ .stopped)
    (hev : (e.thr th).event = 5 → (d.thr th).event = 5) : d.issue th word ext g bad sup noCmd body = e.retired th :=
  (Dev.issue_done hat hbad hsup hbody).trans (Dev.done_retired hst hev)

/-- The same, where the instruction leaves the thread ready in the activation that it was in. -/
theorem Dev.issue_moved {d e : Dev} {th word g : Nat} {ext : Ext} {bad sup noCmd : Bool} {body : Dev → IRes}
    (hat : d.atInstr th word ext g = true) (hbad : (bad || noCmd && pcCmd (d.thr th).pc) = false)
    (hsup : (sup && !(d.thr th).priv) = false) (hbody : body d = .done e) (hst : (e.thr th).st = (d.thr th).st)
    (hev : (e.thr th).event = (d.thr th).event) : d.issue th word ext g bad sup noCmd body = e.retired th :=
  Dev.issue_retired hat hbad hsup hbody (by rw [hst, Dev.st_of_atInstr hat]; decide) (fun h => hev ▸ h)

theorem bareA_eq_false {f : FmtA} (h : f.wd = 0 ∧ f.wa = 0 ∧ f.wb = 0 ∧ f.fn = 0) : bareA f = false := by
  obtain ⟨hwd, hwa, hwb, hfn⟩ := h
  simp [bareA, hwd, hwa, hwb, hfn]

/-! ### prog.swap (R86) -/

section
variable {d : Dev} {n img len : Nat}

/-- A field apart from the one written, of the same unit. -/
theorem Dev.rd_wr_apart {f g : Fld} (v : Nat) (h : (g.reg ≠ f.reg ∧ g.reg < 256 ∧ f.reg < 256) ∨
    (g.reg = f.reg ∧ (g.lo + g.w ≤ f.lo ∨ f.lo + f.w ≤ g.lo))) : (d.wr f n v).rd g n = d.rd g n := by
  rcases h with h | ⟨hr, h⟩
  · exact Dev.rd_wr_other d f g n n v h
  · exact Dev.rd_wr_fld d f g n v hr h

/-- The registers of slot `n` with a new image, of a new version that no activation has entered. -/
def Dev.newImage (d : Dev) (n img len : Nat) : Dev :=
  ((((d.wr F.ENG_SLOT_IMG_BASE n img).wr F.ENG_SLOT_IMG_SRC n (img / 2 ^ 57)).wr F.ENG_SLOT_CTL_LEN_M1 n len).wr
    F.ENG_SLOT_STAT_VERSION n (d.rd F.ENG_SLOT_STAT_VERSION n + 1)).wr F.ENG_SLOT_STAT_ACTIVE_NEW n 0

theorem Dev.newImage_rd (d : Dev) (n img len : Nat) :
    (d.newImage n img len).rd F.ENG_SLOT_STAT_VERSION n = (d.rd F.ENG_SLOT_STAT_VERSION n + 1) % 256 ∧
      (d.newImage n img len).rd F.ENG_SLOT_STAT_ACTIVE_NEW n = 0 ∧
      (d.newImage n img len).rd F.ENG_SLOT_CTL_LEN_M1 n = len % 2 ^ 16 ∧
      (d.newImage n img len).rd F.ENG_SLOT_IMG_BASE n = img % 2 ^ 57 := by
  unfold Dev.newImage
  refine ⟨?_, ?_, ?_, ?_⟩
  · exact (Dev.rd_wr_apart _ (by decide)).trans (Dev.rd_wr_self _ _ _ _ (by decide))
  · rw [Dev.rd_wr_self _ _ _ _ (by decide), Nat.zero_mod]
  · rw [Dev.rd_wr_apart _ (by decide), Dev.rd_wr_apart _ (by decide), Dev.rd_wr_self _ _ _ _ (by decide)]
  · rw [Dev.rd_wr_apart _ (by decide), Dev.rd_wr_apart _ (by decide), Dev.rd_wr_apart _ (by decide),
      Dev.rd_wr_apart _ (by decide), Dev.rd_wr_self _ _ _ _ (by decide)]

/-- A swap takes effect unless an older version still drains; the version that it replaces drains if activations run in it. -/
theorem Dev.swap_eq (h : d.flag F.ENG_SLOT_STAT_DRAINING n = false) : d.swap n img len =
    if d.rd F.ENG_SLOT_STAT_ACTIVE_NEW n = 0 then ((d.newImage n img len).dropLines n, 0)
    else ({ ((d.newImage n img len).wr F.ENG_SLOT_STAT_ACTIVE_OLD n (d.rd F.ENG_SLOT_STAT_ACTIVE_NEW n)).wr
        F.ENG_SLOT_STAT_DRAINING n 1 with eng.oldImg := Tbl.put n (d.slotImg n (d.slotVer n)) d.eng.oldImg }, 0) := by
  have hver : (((d.wr F.ENG_SLOT_IMG_BASE n img).wr F.ENG_SLOT_IMG_SRC n (img / 2 ^ 57)).wr F.ENG_SLOT_CTL_LEN_M1 n len).slotVer n =
      d.rd F.ENG_SLOT_STAT_VERSION n := by
    rw [Dev.slotVer, Dev.rd_wr_apart _ (by decide), Dev.rd_wr_apart _ (by decide), Dev.rd_wr_apart _ (by decide)]
  simp only [Dev.swap, h, Bool.false_eq_true, if_false, hver]
  rfl

theorem Dev.swap_status (h : d.flag F.ENG_SLOT_STAT_DRAINING n = false) : (d.swap n img len).2 = 0 := by
  rw [Dev.swap_eq h]
  split <;> rfl

theorem Dev.rd_lt (d : Dev) (f : Fld) (i : Nat) : d.rd f i < 2 ^ f.w := Nat.mod_lt _ (Nat.two_pow_pos _)

@[simp] theorem Dev.dropLines_rd (d : Dev) (n : Nat) (f : Fld) (i : Nat) : (d.dropLines n).rd f i = d.rd f i :=
  Dev.rd_congr rfl f i

@[simp] theorem Dev.oldImg_rd (d : Dev) (t : Tbl (Nat × Nat)) (f : Fld) (i : Nat) :
    { d with eng.oldImg := t }.rd f i = d.rd f i := Dev.rd_congr rfl f i

theorem Dev.swap_rd (h : d.flag F.ENG_SLOT_STAT_DRAINING n = false) :
    (d.swap n img len).1.rd F.ENG_SLOT_STAT_VERSION n = (d.rd F.ENG_SLOT_STAT_VERSION n + 1) % 256 ∧
      (d.swap n img len).1.rd F.ENG_SLOT_STAT_ACTIVE_NEW n = 0 ∧
      (d.swap n img len).1.rd F.ENG_SLOT_CTL_LEN_M1 n = len % 2 ^ 16 ∧
      (d.swap n img len).1.rd F.ENG_SLOT_IMG_BASE n = img % 2 ^ 57 ∧
      (d.rd F.ENG_SLOT_STAT_ACTIVE_NEW n ≠ 0 →
        (d.swap n img len).1.rd F.ENG_SLOT_STAT_ACTIVE_OLD n = d.rd F.ENG_SLOT_STAT_ACTIVE_NEW n) := by
  obtain ⟨hver, hnew, hlen, himg⟩ := d.newImage_rd n img len
  rw [Dev.swap_eq h]
  by_cases hk : d.rd F.ENG_SLOT_STAT_ACTIVE_NEW n = 0
  · simp only [if_pos hk, Dev.dropLines_rd]
    exact ⟨hver, hnew, hlen, himg, fun h => absurd hk h⟩
  · simp only [if_neg hk, Dev.oldImg_rd]
    refine ⟨?_, ?_, ?_, ?_, fun _ => ?_⟩
    · rw [Dev.rd_wr_apart _ (by decide), Dev.rd_wr_apart _ (by decide), hver]
    · rw [Dev.rd_wr_apart _ (by decide), Dev.rd_wr_apart _ (by decide), hnew]
    · rw [Dev.rd_wr_apart _ (by decide), Dev.rd_wr_apart _ (by decide), hlen]
    · rw [Dev.rd_wr_apart _ (by decide), Dev.rd_wr_apart _ (by decide), himg]
    · rw [Dev.rd_wr_apart _ (by decide), Dev.rd_wr_self _ _ _ _ (by decide), Nat.mod_eq_of_lt (d.rd_lt _ _)]

end

/-! ### Control transfers (R69 to R71) -/

section
variable {d : Dev} {th : Nat}

/-- A write of a general register keeps the thread's state and its event. -/
@[simp] theorem Dev.st_setW (d : Dev) (th n : Nat) (v : TWord) : ((d.setW th n v).thr th).st = (d.thr th).st := by
  rw [Dev.setW, Dev.thr_updThr_self, Thread.setReg]
  split <;> rfl

@[simp] theorem Dev.event_setW (d : Dev) (th n : Nat) (v : TWord) : ((d.setW th n v).thr th).event = (d.thr th).event := by
  rw [Dev.setW, Dev.thr_updThr_self, Thread.setReg]
  split <;> rfl

@[simp] theorem Dev.thr_enterSlot (d : Dev) (n th : Nat) : (d.enterSlot n).thr th = d.thr th := rfl

/-- A branch or call to a target within the image goes there, a call with its link in w31. -/
theorem Dev.transfer_ok {f : FmtB} (link : Bool) (hslot : pcCmd (d.thr th).pc = false)
    (hok : d.targetOk th (pcIndex (d.thr th).pc + f.off.toInt) = true) : d.transfer th f link =
      .done ((if link then d.setW th 31 (mkWord (pcNext (d.thr th).pc) 32) else d).updThr th (fun t =>
        { t with pc := setBits (d.thr th).pc 0 17 (pcIndex (d.thr th).pc + f.off.toInt).toNat, past := false })) := by
  simp only [Dev.transfer, hok, Bool.not_true, Bool.false_eq_true, if_false, pcAt]
  rw [Dev.goTo_slot (by rw [pcCmd_pcAt, hslot])]

end

/-- Settles O3: each instruction runs the body that its checks let through. -/
theorem engineSystemAndControl : Obligations.EngineSystemAndControl := by
  unfold Obligations.EngineSystemAndControl
  refine ⟨?nop, ?yield, ?rdc, ?rdcTime, ?wrc, ?wrcAsid, ?progSwap, ?image, ?br, ?call, ?jr, ?invoke⟩
  case nop | yield =>
    exact fun s th f ext hat hext hbare => next_on (Dev.issue_idle hat (by simp [hext, bareA_eq_false hbare]) rfl rfl)
  case rdc =>
    intro s th f ext hat hext ⟨hwb, hfn⟩ hres htime hpriv
    refine next_on (Dev.issueA_next hat hext (by simp [hwb, hfn, hres]) ?_)
    have hread : (decide (f.wa.toNat = 8) && !(s.dev.thr th).priv) = false := by
      by_cases h8 : f.wa.toNat = 8
      · simp [hpriv h8]
      · simp [h8]
    simp only [hread, if_neg htime, Bool.false_eq_true, if_false]
    rfl
  case rdcTime =>
    intro s th f ext hat hext ⟨hwb, hfn⟩ hwa
    exact next_on (Dev.issueA_next hat hext (by simp [hwb, hfn, hwa, ctxReserved]) (by simp only [hwa]; rfl))
  case wrc =>
    intro s th f ext hat hext ⟨hwb, hfn⟩ hwd
    exact next_on (Dev.issueA_next hat hext (by simp [hwb, hfn, hwd, ctxReserved]) (by simp only [hwd]; rfl))
  case wrcAsid =>
    intro s th f ext hat hext ⟨hwb, hfn⟩ hwd hpriv hmode
    refine next_on (Dev.issueA_next hat hext (by simp [hwb, hfn, hwd, ctxReserved]) ?_)
    have hset (v : Nat) : s.dev.setAsid th v = s.dev.updThr th (fun t => { t with asid := v }) := by
      simp only [Dev.setAsid, Dev.flag_updThr, hmode, Bool.false_and, Bool.false_eq_true, if_false]
    simp [hwd, hpriv, hset]
  case progSwap =>
    intro s th f ext hat hext hfn hpriv hp hdr
    refine next_on (Dev.issue_next hat (by simp [hext, hfn]) (by simp [hpriv]) ((noPoison_none hp).trans ?_))
    have hst := Dev.swap_status (img := (s.v th f.wb.toNat).toNat) (len := bitsOf (s.v th f.wa.toNat).toNat 16 16) hdr
    simp only [hst]
    rfl
  case image => exact fun d n img len h _ => Dev.swap_rd h
  case br =>
    exact fun s th f ext hat hext hslot hok =>
      next_on (Dev.issue_moved hat (by simp [hext]) rfl (Dev.transfer_ok false hslot hok) (by simp) (by simp))
  case call =>
    exact fun s th f ext hat hext hslot hok =>
      next_on (Dev.issue_moved hat (by simp [hext, hslot]) rfl (Dev.transfer_ok true hslot hok) (by simp) (by simp))
  case jr =>
    intro s th f ext hat hext ⟨hwd, hwb, hfn⟩ hslot hsame hp hok
    refine next_on (Dev.issue_moved hat (by simp [hext, hwd, hwb, hfn, hslot]) rfl ?_ (by simp) (by simp))
    have hgo : s.dev.goTo th (pcAt (s.dev.thr th).pc (pcIndex (s.v th f.wa.toNat))) = s.dev.updThr th (fun t =>
        { t with pc := setBits (s.dev.thr th).pc 0 17 (pcIndex (s.v th f.wa.toNat)), past := false }) :=
      Dev.goTo_slot ((pcCmd_pcAt _ _).trans hslot)
    simp only [hsame, hok, noPoison_none hp, bne_self_eq_false, Bool.not_true, Bool.or_self, Bool.false_eq_true, if_false, hgo]
  case invoke =>
    intro s th f ext hat hext himm hwd howner hpriv hen hin
    refine next_on (Dev.issue_moved hat ?_ rfl ?_ (by simp) (by simp))
    · simp only [hext, hwd, decide_eq_false (Nat.not_le.mpr himm), bne_self_eq_false, Bool.or_self, Bool.false_and]
    · have howned : (s.dev.rd F.ENG_SLOT_CTL_OWNER_FN (bitsOf f.imm.toNat 0 10) == (s.dev.thr th).fn ||
          s.dev.flag F.ENG_SLOT_CTL_SHARED (bitsOf f.imm.toNat 0 10)) = true := by simpa using howner
      have hallowed : (s.dev.flag F.ENG_SLOT_CTL_PRIV (bitsOf f.imm.toNat 0 10) && !(s.dev.thr th).priv) = false := by
        by_cases h : s.dev.flag F.ENG_SLOT_CTL_PRIV (bitsOf f.imm.toNat 0 10) = true
        · rw [hpriv h, Bool.not_true, Bool.and_false]
        · rw [Bool.eq_false_iff.mpr h, Bool.false_and]
      simp only [howned, hallowed, hen, hin, Bool.not_true, Bool.or_self, Bool.false_eq_true, if_false, Dev.leaveSlot]

end Sys2Proof.Machine
end

section
/-! SUPPORT. trap, halt, eret and exc.fwd (R72, R77, R120, R511), a double trap (R78), and a guard that is off in a command slot
(R39). -/

namespace Sys2Proof.Machine

/-- A command that RMA follows, on a device that is not halted. -/
theorem next_rma {s : State} {d e : Dev} (hh : s.dev.halted = false) (h : d = e) :
    (.next (s.on (if s.dev.halted then s.dev else d.rmaGo)) : Host.Outcome State Fault Refusal) = .next (s.on e.rmaGo) := by
  rw [hh, h]
  rfl

section
variable {d : Dev} {th : Nat}

theorem aligned_of_mod {a n : Nat} {k : Unit → IRes} (h : a % n = 0) : aligned a n k = k () := if_pos h

/-- A scratch access that passes its gate goes on (R52, R488). -/
theorem scratchOk_pass {a need : Nat} {k : Unit → IRes} (h : d.scrPass th a need) : d.scratchOk th a need k = k () := by
  rcases h with ⟨hc, ha⟩ | ⟨hc, hg⟩
  · simp only [Dev.scratchOk, hc, ha, if_true]
  · simp only [Dev.scratchOk, hc, hg, Bool.false_eq_true, if_false]

/-! ### trap (R72) and double traps (R78) -/

/-- A trap that enters the trap slot is not counted as an instruction that retired. -/
theorem Dev.issue_trapped {e : Dev} {word g : Nat} {ext : Ext} {bad sup noCmd : Bool} {body : Dev → IRes}
    (hat : d.atInstr th word ext g = true) (hbad : (bad || noCmd && pcCmd (d.thr th).pc) = false)
    (hsup : (sup && !(d.thr th).priv) = false) (hbody : body d = .done e) (hin : (d.thr th).inTrap = false)
    (hev : (e.thr th).event = 5) : d.issue th word ext g bad sup noCmd body = e := by
  rw [Dev.issue_done hat hbad hsup hbody, if_pos (by rw [hin, Thread.inTrap, hev]; rfl)]

/-- A trap in a trap activation, or of a function that takes none, is counted and then a double trap. -/
theorem Dev.trap_double (cause : Nat) (tval tpc : Word)
    (h : (d.thr th).inTrap = true ∨ d.flag F.ENG_FN_TRAP_EN (d.thr th).fn = false) :
    ∃ e, d.trap th cause tval tpc = Dev.doubleTrap e th ∧ e.eng = d.eng ∧ e.dep = d.dep := by
  generalize hx : (if isCore th = true then d else d.ev 0 10 (some (clusterOf th)) (some (d.thr th).fn)) = x
  have heng : x.eng = d.eng := by
    rw [← hx]
    split <;> simp
  have hdep : x.dep = d.dep := by
    rw [← hx]
    split <;> simp
  have hrd : (x.wasted th).flag F.ENG_FN_TRAP_EN (d.thr th).fn = d.flag F.ENG_FN_TRAP_EN (d.thr th).fn := by
    rw [Dev.flag, Dev.wasted_rd _ _ _ _ (by decide), ← hx]
    split
    · rfl
    · rw [Dev.ev_rd _ _ _ _ _ _ _ _ (by decide), Dev.flag]
  refine ⟨x.wasted th, ?_, by rw [Dev.wasted_eng, heng], by rw [Dev.wasted_dep, hdep]⟩
  have hdouble : ((d.thr th).inTrap || !(x.wasted th).flag F.ENG_FN_TRAP_EN (d.thr th).fn) = true := by
    rw [hrd]
    rcases h with h | h <;> simp [h]
  simp only [Dev.trap, hx, hdouble, if_true]

/-! ### halt (R72) -/

theorem Dev.endActivation_entry (st : Nat) (h : (d.thr th).cmd = true ∧ (d.thr th).noEntry = false) :
    d.endActivation th st = (d.idle th).entryEnd (d.thr th).queue (d.thr th).seq st := by
  simp [Dev.endActivation, h.1, h.2]

theorem Dev.endActivation_event (st : Nat) (h : (d.thr th).cmd = false) : d.endActivation th st = d.idle th := by
  simp [Dev.endActivation, h]

/-- halt outside a trap activation ends the activation and retires. -/
theorem Dev.issue_halt {e : Dev} {word g : Nat} {ext : Ext} {bad : Bool}
    (hat : d.atInstr th word ext g = true) (hbad : bad = false) (hin : (d.thr th).inTrap = false)
    (he : d.endActivation th 0 = e) (hthr : e.thr th = (d.idle th).thr th) :
    d.issue th word ext g bad false false
      (fun d => .done (if (d.thr th).inTrap then d.haltTrap th else d.endActivation th 0)) = e.retired th := by
  have hidle : (e.thr th).st = .wait ∧ (e.thr th).event = 0 := by
    rw [hthr, Dev.thr_idle]
    exact ⟨rfl, rfl⟩
  refine Dev.issue_retired hat (by simp [hbad]) rfl (by simp only [hin, Bool.false_eq_true, if_false, he]) ?_ ?_
  · rw [hidle.1]
    decide
  · rw [hidle.2]
    exact fun h => absurd h (by decide)

/-! ### eret (R77) -/

/-- A write of a general register keeps every other field of its thread. -/
theorem Thread.setReg_keeps {γ : Type} (P : Thread → γ) (h : ∀ (t : Thread) w, P { t with w := w } = P t) (t : Thread) (n : Nat)
    (v : TWord) : P (t.setReg n v) = P t := by
  unfold Thread.setReg
  split
  · rfl
  · exact h _ _

/-- What eret restores beside w1 to w7, and what it leaves. -/
theorem Dev.thr_restore_fields (d : Dev) (th : Nat) :
    ((d.restore th).thr th).st = (d.thr th).st ∧ ((d.restore th).thr th).inSlot = ((d.thr th).trapped.map Prod.fst).getD none ∧
      ((d.restore th).thr th).priv = (getBits (TWord.val (d.scrWord (clusterOf th) (saveArea th + 24))) 8 1 == 1) ∧
      ((d.restore th).thr th).p =
        BitVec.ofNat 8 (getBits (TWord.val (d.scrWord (clusterOf th) (saveArea th + 24))) 1 7 * 2) ∧
      ((d.restore th).thr th).asid = getBits (TWord.val (d.scrWord (clusterOf th) (saveArea th + 32))) 0 16 := by
  have keeps {γ : Type} (P : Thread → γ) (h : ∀ (t : Thread) w, P { t with w := w } = P t) (l : List Nat) (t : Thread) :
      P (l.foldl (fun (t : Thread) k => t.setReg (k + 1) (d.scrWord (clusterOf th) (saveArea th + 8 * (8 + k)))) t) = P t :=
    foldl_keeps P _ (fun t k => t.setReg_keeps P h _ _) _ _
  rw [Dev.thr_restore]
  exact ⟨keeps Thread.st (fun _ _ => rfl) _ _, keeps Thread.inSlot (fun _ _ => rfl) _ _, keeps Thread.priv (fun _ _ => rfl) _ _,
    keeps Thread.p (fun _ _ => rfl) _ _, keeps Thread.asid (fun _ _ => rfl) _ _⟩

/-- w1 to w7 come back from places 8 to 14 of the save area. -/
theorem Dev.reg_restore (d : Dev) (th : Nat) {k : Nat} (hk : k < 7) :
    ((d.restore th).thr th).reg (k + 1) = d.scrWord (clusterOf th) (saveArea th + 8 * (8 + k)) := by
  rw [Dev.thr_restore]
  have hr : List.range 7 = [0, 1, 2, 3, 4, 5, 6] := rfl
  simp only [hr, List.foldl_cons, List.foldl_nil]
  interval_cases k <;> simp [Thread.reg_setReg_self, Thread.reg_setReg_ne]

/-- eret goes back to the activation that trapped, where TPC still names its code. -/
theorem Dev.eretTrap_back (hsame : getBits (TWord.val (d.scrWord (clusterOf th) (saveArea th))) 17 19 = getBits (d.thr th).tpc 17 19)
    (hslot : pcCmd (d.thr th).tpc = false) (hin : isCore th = true ∨ (((d.thr th).trapped.map Prod.fst).getD none).isSome = true) :
    d.eretTrap th = .done ((d.restore th).updThr th (fun t => { t with
      pc := setBits (d.thr th).tpc 0 17 (pcIndex (TWord.val (d.scrWord (clusterOf th) (saveArea th)))), past := false })) := by
  have hpc : pcCmd (setBits (d.thr th).tpc 0 17 (pcIndex (TWord.val (d.scrWord (clusterOf th) (saveArea th))))) = false :=
    (pcCmd_pcAt _ _).trans hslot
  have hcounted : (!isCore th && !false && ((d.restore th).thr th).inSlot.isNone) = false := by
    rw [(d.thr_restore_fields th).2.1]
    rcases hin with h | h
    · rw [h, Bool.not_true, Bool.false_and, Bool.false_and]
    · rw [Option.isNone_eq_false_iff.mpr h, Bool.and_false]
  simp only [Dev.eretTrap, hsame, bne_self_eq_false, hcounted, hpc, Bool.false_and, Bool.false_eq_true, if_false]
  rw [Dev.goTo_slot hpc]

/-! ### exc.fwd (R511) -/

/-- The eight words pass their gate, one by one. -/
theorem excScratch_pass {a n : Nat} {k : Unit → IRes} (hn : n ≤ 8) (h : ∀ j < 8, d.scrPass th (a + 8 * j) 1) :
    d.excScratch th a k n = k () := by
  induction n with
  | zero => rfl
  | succ n ih => rw [Dev.excScratch, scratchOk_pass (h _ (by omega)), ih (by omega)]

theorem Dev.excPut_queued {f : Nat} {ws : List Word} (h : (d.excOf f).length < clampTo 1 32 (d.rd F.BCP_EXC_CFG_DEPTH) ∧
    d.bcp.exc.length < 8192 ∧ d.bcp.swap = none) :
    d.excPut f ws = ({ d with bcp.exc := d.bcp.exc ++ [{ fn := f, words := ws }] }, 0) := by
  obtain ⟨hdepth, hlen, hswap⟩ := h
  simp [Dev.excPut, Nat.not_le.mpr hdepth, Nat.not_le.mpr hlen, hswap]

/-! ### Guards (R39) -/

/-- The opcode of a format A word. -/
theorem opcode_wordA (op : Nat) (f : FmtA) : wordA op f / 2 ^ 28 = op := by
  have := f.wd.isLt
  have := f.wa.isLt
  have := f.wb.isLt
  have := f.guard.isLt
  have := f.fn.isLt
  unfold wordA
  omega

/-- An instruction of a command slot whose guard is off uses its issue slot alone. -/
theorem Dev.issue_off_cmd {word g : Nat} {ext : Ext} {bad sup noCmd : Bool} {body : Dev → IRes} (hr : d.ready th = true)
    (hcmd : pcCmd (d.thr th).pc = true) (ho : opListed word = true) (hf : d.fetched th (d.thr th).pc = some (word, ext.toNat))
    (hg : guardOk (d.thr th) g = false) : d.issue th word ext g bad sup noCmd body = (d.wasted th).goOn th := by
  have hl : d.illegalHere th = none := by simp only [Dev.illegalHere, hf, ho, if_true]
  simp [Dev.issue, hr, hcmd, hg, hl, hf]

end

/-- Settles O5: halt and eret end in place, trap and a failed check trap, and a guard that is off only goes on. -/
theorem engineEndsAndTraps : Obligations.EngineEndsAndTraps := by
  unfold Obligations.EngineEndsAndTraps
  refine ⟨?trap, ?halt, ?haltEvent, ?eret, ?excFwd, ?guardOff, ?illegal, ?privilege, ?poison, ?double⟩
  case trap =>
    intro s th f ext hat hext ⟨hwd, hwa⟩ hin hen hslot
    refine next_on (Dev.issue_trapped hat (by simp [hext, hwd, hwa]) rfl rfl hin ?_)
    exact congrArg Thread.event (Dev.thr_trap_entered hin hen rfl hslot 10 _ _)
  case halt =>
    intro s th f ext hat hh hext hbare hin hcmd
    have hidle : (((s.dev.idle th).entryEnd (s.dev.thr th).queue (s.dev.thr th).seq 0).thr th) = (s.dev.idle th).thr th :=
      Dev.thr_entryEnd _ _ _ _ _
    refine ⟨next_rma hh (Dev.issue_halt hat ?_ hin (Dev.endActivation_entry 0 hcmd) hidle), ?_, ?_⟩
    · exact Bool.or_eq_false_iff.mpr ⟨hext, bareA_eq_false hbare⟩
    · rw [hidle, Dev.thr_idle]
    · rw [hidle, Dev.thr_idle]
  case haltEvent =>
    exact fun s th f ext hat hh hext hbare hin hcmd => next_rma hh
      (Dev.issue_halt hat (Bool.or_eq_false_iff.mpr ⟨hext, bareA_eq_false hbare⟩) hin (Dev.endActivation_event 0 hcmd) rfl)
  case eret =>
    intro s th f ext hat hh hbare ⟨hin, hpriv, hslot⟩ ⟨hev, hentry, htrapped⟩ hsame htpc hcount
    obtain ⟨hst, -, hrpriv, hp, hasid⟩ := s.dev.thr_restore_fields th
    have hready : ((s.dev.restore th).thr th).st = .ready := hst.trans (Dev.st_of_atInstr hat)
    refine ⟨next_rma hh (Dev.issue_retired hat ?_ (by simp [hpriv]) ?_ ?_ ?_), hready, hrpriv, hp, hasid,
      fun k hk => s.dev.reg_restore th hk⟩
    · obtain ⟨hwd, hwa, hwb, hfn⟩ := hbare
      simp [extBad, hslot, hwd, hwa, hwb, hfn, hin]
    · obtain ⟨x, hx⟩ := Option.isSome_iff_exists.mp htrapped
      simp only [hev, hx, hentry, Bool.false_eq_true, if_false]
      exact Dev.eretTrap_back hsame htpc hcount
    · rw [Dev.thr_updThr_self, hready]
      decide
    · exact fun _ => eq_of_beq hin
  case excFwd =>
    intro s th f ext hat ⟨hwb, hfn⟩ ⟨hpriv, hslot⟩ hp ⟨hal, hend⟩ hgate hroom
    have hpass : ∀ j < 8, s.dev.scrPass th ((s.v th f.wa.toNat).toNat + 8 * j) 1 := by
      intro j hj
      cases hc : isCore th with
      | true => exact .inl ⟨hc, by omega⟩
      | false => exact .inr ⟨hc, (hgate.resolve_left (by simp [hc])) j hj⟩
    refine next_on (Dev.issue_next hat ?_ (by simp [hpriv]) ((noPoison_none hp).trans ?_))
    · simp [extBad, hslot, hwb, hfn]
    · refine (aligned_of_mod hal).trans ((excScratch_pass le_rfl hpass).trans ?_)
      simp only [Dev.excPut_queued hroom]
      rfl
  case guardOff =>
    exact fun s th f ext hr ⟨_, hcmd⟩ hf hg =>
      next_on (Dev.issue_off_cmd hr hcmd (by rw [opListed, opcode_wordA]; rfl) hf hg)
  case illegal => exact fun s th f ext hat hbad => next_on (Dev.issue_illegal hat (by simpa using hbad))
  case privilege =>
    exact fun s th f ext hat ⟨hext, hfn⟩ hpriv =>
      next_on (Dev.issue_unprivileged hat (by simp [hext, hfn]) (by simp [hpriv]))
  case poison =>
    exact fun s th f ext n hat ⟨hext, hfn, hwd⟩ hp =>
      next_on (Dev.issue_trap hat (by simp [hext, hfn, hwd]) rfl (noPoison_some hp))
  case double =>
    intro s th f ext hat hfn hdouble
    obtain ⟨e, he, heng, hdep⟩ := Dev.trap_double tcIllegal (BitVec.ofNat 64 (wordA 0x10 f)) (s.dev.thr th).pc hdouble
    exact ⟨e, next_on ((Dev.issue_illegal hat (by simp [hfn])).trans he), heng, hdep⟩

end Sys2Proof.Machine
end

section
/-! SUPPORT. Accesses of scratch and Depot (R51 to R56, R60, R481). -/

namespace Sys2Proof.Machine

section
variable {d : Dev} {th : Nat}

/-- A Depot access that passes its gate goes on (R52, R489). -/
theorem depotOk_pass {a need : Nat} {k : Unit → IRes} (h : d.depPass th a need) : d.depotOk th a need k = k () := by
  simp only [Dev.depotOk, h]

/-- The checks of a scratch access, passed. -/
theorem scratch_pass {a need : Nat} {k : Unit → IRes} (hal : a % 8 = 0) (h : d.scrPass th a need) :
    aligned a 8 (fun _ => d.scratchOk th a need k) = k () :=
  (aligned_of_mod hal).trans (scratchOk_pass h)

theorem depot_pass {a need : Nat} {k : Unit → IRes} (hal : a % 8 = 0) (h : d.depPass th a need) :
    aligned a 8 (fun _ => d.depotOk th a need k) = k () :=
  (aligned_of_mod hal).trans (depotOk_pass h)

end

theorem val_mkWord (v : Word) (tag : Nat) : TWord.val (mkWord v tag) = v := by
  apply BitVec.eq_of_toNat_eq
  have := v.isLt
  simp only [TWord.val, mkWord, BitVec.toNat_setWidth, BitVec.toNat_ofNat]
  omega

/-- The value that a 64-bit unsigned amo.s leaves. -/
theorem amoWord_val (op : Nat) (old opnd : TWord) (cmp : Nat) (free tag : Word) : TWord.val (amoWord op 4 old opnd cmp free tag) =
    if op = 7 ∧ (TWord.val old).toNat ≠ cmp % 2 ^ 64 then TWord.val old
    else BitVec.ofNat 64 (amoInt op 4 64 (TWord.val old).toNat (TWord.val opnd).toNat (cmp % 2 ^ 64)) := by
  have hold := Nat.mod_eq_of_lt (TWord.val old).isLt
  have hopnd := Nat.mod_eq_of_lt (TWord.val opnd).isLt
  simp only [amoWord, show amoBits 4 = 64 from rfl, hold, hopnd, if_true, Bool.and_eq_true, decide_eq_true_eq, bne_iff_ne]
  split
  · rfl
  · rw [val_mkWord]

/-- The table of R60 for the datatype U64. -/
theorem amoWord_u64 (old opnd : TWord) (cmp : Nat) (free tag : Word) :
    TWord.val (amoWord 0 4 old opnd cmp free tag) = TWord.val old + TWord.val opnd ∧
      TWord.val (amoWord 1 4 old opnd cmp free tag) = TWord.val old &&& TWord.val opnd ∧
      TWord.val (amoWord 2 4 old opnd cmp free tag) = TWord.val old ||| TWord.val opnd ∧
      TWord.val (amoWord 3 4 old opnd cmp free tag) = TWord.val old ^^^ TWord.val opnd ∧
      TWord.val (amoWord 4 4 old opnd cmp free tag) = (if (TWord.val opnd).ult (TWord.val old) then TWord.val opnd else TWord.val old) ∧
      TWord.val (amoWord 5 4 old opnd cmp free tag) = (if (TWord.val old).ult (TWord.val opnd) then TWord.val opnd else TWord.val old) ∧
      TWord.val (amoWord 6 4 old opnd cmp free tag) = TWord.val opnd ∧
      TWord.val (amoWord 7 4 old opnd cmp free tag) =
        (if (TWord.val old).toNat = cmp % 2 ^ 64 then TWord.val opnd else TWord.val old) := by
  simp only [amoWord_val]
  generalize TWord.val old = a
  generalize TWord.val opnd = b
  refine ⟨?_, ?_, ?_, ?_, ?_, ?_, ?_, ?_⟩
  iterate 4 exact BitVec.eq_of_toNat_eq (by simp [amoInt])
  iterate 2 simp [amoInt, BitVec.ult, apply_ite (BitVec.ofNat 64)]
  · simp [amoInt]
  · generalize cmp % 2 ^ 64 = c
    by_cases h : a.toNat = c <;> simp [amoInt, h]

/-- Settles O6: the access passes its checks, and its body moves the word. -/
theorem engineScratchAndDepot : Obligations.EngineScratchAndDepot := by
  unfold Obligations.EngineScratchAndDepot
  refine ⟨?ldS, ?ldSPoison, ?stS, ?ldD, ?stD, ?amoS, ?amoWord⟩
  case ldS | ldSPoison | stS =>
    exact fun s th f ext hat hp hal hpass =>
      next_on (Dev.issueI_next hat rfl ((noPoison_none hp).trans (scratch_pass hal hpass)))
  case ldD | stD =>
    exact fun s th f ext hat hp hal hpass =>
      next_on (Dev.issueI_next hat rfl ((noPoison_none hp).trans (depot_pass hal hpass)))
  case amoS =>
    exact fun s th f ext hat hext hlegal hp hal hpass =>
      next_on (Dev.issueA_next hat hext (by simp [hlegal]) ((noPoison_none hp).trans (scratch_pass hal hpass)))
  case amoWord =>
    intro old opnd cmp free tag
    exact amoWord_u64 old opnd cmp free tag

end Sys2Proof.Machine
end

section
/-! SUPPORT. Accesses of host memory, of windows and of the register space (R51, R52, R54, R55, R147, R435, R595). -/

namespace Sys2Proof.Machine

section
variable {d e : Dev} {th : Nat}

/-- An instruction that stalls its thread counts as retired. -/
theorem Dev.issue_stalled {word g : Nat} {ext : Ext} {bad sup noCmd : Bool} {body : Dev → IRes} {x : Stall}
    (hat : d.atInstr th word ext g = true) (hbad : (bad || noCmd && pcCmd (d.thr th).pc) = false)
    (hsup : (sup && !(d.thr th).priv) = false) (hbody : body d = .done (e.stall th x)) (hthr : e.thr th = d.thr th) :
    d.issue th word ext g bad sup noCmd body = (e.stall th x).retired th :=
  (Dev.issue_done hat hbad hsup hbody).trans (Dev.stall_retired x hthr)

/-- One that goes on by itself, its thread ready in the same activation. -/
theorem Dev.issue_wentOn {word g : Nat} {ext : Ext} {bad sup noCmd : Bool} {body : Dev → IRes}
    (hat : d.atInstr th word ext g = true) (hbad : (bad || noCmd && pcCmd (d.thr th).pc) = false)
    (hsup : (sup && !(d.thr th).priv) = false) (hbody : body d = .done (e.goOn th)) (hst : (e.thr th).st = .ready)
    (hev : (e.thr th).event = (d.thr th).event) : d.issue th word ext g bad sup noCmd body = (e.goOn th).retired th :=
  (Dev.issue_done hat hbad hsup hbody).trans (Dev.goOn_retired (by simp [hst]) (fun h => hev ▸ h))

/-! ### Parts of an access: one that lies within a page has one part -/

theorem eight_le_page {a : Nat} (h : a % 8 = 0) : 8 ≤ 4096 - a % 4096 := by omega

section
variable {va size win b fn : Nat}

/-- A load whose address is known and whose port is open issues its read and stalls (R52, R54). -/
theorem Dev.loadStep_ok (wd : Nat) (hx : d.engAddr th va size .read win (.ldH th) = (e, .ok b, fn))
    (hpage : size ≤ 4096 - va % 4096) (hopen : e.halted = false ∧ e.closed fn = false) :
    d.loadStep th wd va size win 0 0 =
      (e.hostRead fn b size (.load th win)).1.stall th (.load e.nextTag wd va size win 0 0) := by
  simp only [Dev.loadStep, Nat.add_zero, hx, Dev.loadGot, Nat.sub_zero, Nat.min_eq_left hpage,
    Dev.hostRead_ok e fn b size _ hopen.1 hopen.2]

/-- A store whose address is known issues its write and goes on (R52, R55). -/
theorem Dev.storeStep_ok {data fuel : Nat} (hx : d.engAddr th va size .write win (.stH th va data size win) = (e, .ok b, fn))
    (hpage : size ≤ 4096 - va % 4096) : d.storeStep th va data size win (fuel + 1) =
      ((e.hostWrite fn b size (data % 2 ^ (8 * size))).updThr th (fun t => { t with st := .ready, stall := .none })).goOn th := by
  simp only [Dev.storeStep, Nat.min_eq_left hpage, hx, Dev.storeGot, if_true]

end

/-- The checks of ld.w and st.w, passed (R51, R52, R147). -/
theorem Dev.windowed_ok {f : FmtA} {right h off size : Nat} {x : Dev} {k : Dev → Nat → Nat → Nat → Dev}
    (harg : h = (TWord.val ((d.thr th).reg f.wa.toNat)).toNat % 2 ^ 32 ∧
      off = (TWord.val ((d.thr th).reg f.wb.toNat)).toNat % 2 ^ 48 ∧ size = 2 ^ (f.fn.toNat % 4) ∧ x = d.winLook h)
    (hal : off % size = 0) (hwin : x.winCheck h (localPeer (d.thr th).fn (d.thr th).priv) right off size = 0 ∧
      x.windowGate (x.winOf h) off size right = none) :
    d.windowed th f right k = .done (k x h ((x.winOf h).base + off) size) := by
  obtain ⟨rfl, rfl, rfl, rfl⟩ := harg
  obtain ⟨hcheck, hgate⟩ := hwin
  simp only [Dev.windowed, aligned_of_mod hal, hcheck, hgate, bne_self_eq_false, Bool.false_eq_true, if_false]

/-! ### ld.p and st.p (R51, R52, R485, R595) -/

theorem hostOk_pass {a need : Nat} {k : Unit → IRes}
    (h : d.gateFail (18 + (d.thr th).fn / 256) (d.classOf th) (d.gateFn th) a 8 need = none) : d.hostOk th a need k = k () := by
  simp only [Dev.hostOk, h]

theorem spaceOk_pass {a need : Nat} {k : Unit → IRes} (h : d.gateFail 1 4 none (a % 2 ^ 28) 8 need = none) :
    d.spaceOk th a need k = k () := by
  simp only [Dev.spaceOk, h]

end

section
variable {s : State} {th : Tid} {f : FmtI} {ext : Ext} {a : Nat}

theorem State.loadP_host (ha : a = s.dev.eaOf th f ext) (hp : (s.dev.thr th).poisonIn [f.wa.toNat] = none)
    (hal : a % 8 = 0 ∧ regSpace th a = false)
    (hgate : s.dev.gateFail (18 + (s.dev.thr th).fn / 256) (s.dev.classOf th) (s.dev.gateFn th) a 8 1 = none)
    (hopen : s.dev.halted = false ∧ s.dev.closed (s.dev.thr th).fn = false) :
    s.loadP th f ext s.dev = .done ((s.dev.hostRead (s.dev.thr th).fn a 8 (.load th 0)).1.stall th
      (.load s.dev.nextTag f.wd.toNat a 8 0 0 0)) := by
  subst ha
  refine (noPoison_none hp).trans ((aligned_of_mod hal.1).trans ?_)
  rw [if_neg (by simp [hal.2]), hostOk_pass hgate, Dev.hostRead_ok _ _ _ _ _ hopen.1 hopen.2]

theorem State.loadP_space {d : Dev} {v : Word} (ha : a = s.dev.eaOf th f ext) (hp : (s.dev.thr th).poisonIn [f.wa.toNat] = none)
    (hal : a % 8 = 0 ∧ regSpace th a = true) (hgate : s.dev.gateFail 1 4 none (a % 2 ^ 28) 8 1 = none)
    (hread : s.regRead .bcp th f.wd.toNat (a % 2 ^ 28) = (d, some v)) :
    s.loadP th f ext s.dev = .next (d.setW th f.wd.toNat (mkWord v 0)) := by
  subst ha
  refine (noPoison_none hp).trans ((aligned_of_mod hal.1).trans ?_)
  rw [if_pos hal.2, spaceOk_pass hgate, State.coreRead, hread]

theorem State.storeP_host (ha : a = s.dev.eaOf th f ext) (hp : (s.dev.thr th).poisonIn [f.wa.toNat, f.wd.toNat] = none)
    (hal : a % 8 = 0 ∧ regSpace th a = false)
    (hgate : s.dev.gateFail (18 + (s.dev.thr th).fn / 256) (s.dev.classOf th) (s.dev.gateFn th) a 8 2 = none) :
    s.storeP th f ext s.dev = .next (s.dev.hostWrite (s.dev.thr th).fn a 8 (TWord.val ((s.dev.thr th).reg f.wd.toNat)).toNat) := by
  subst ha
  refine (noPoison_none hp).trans ((aligned_of_mod hal.1).trans ?_)
  rw [if_neg (by simp [hal.2]), hostOk_pass hgate]

theorem State.storeP_space (ha : a = s.dev.eaOf th f ext) (hp : (s.dev.thr th).poisonIn [f.wa.toNat, f.wd.toNat] = none)
    (hal : a % 8 = 0 ∧ regSpace th a = true) (hgate : s.dev.gateFail 1 4 none (a % 2 ^ 28) 8 2 = none) :
    s.storeP th f ext s.dev =
      .next (s.regWrite .bcp th (a % 2 ^ 28) 8 (TWord.val ((s.dev.thr th).reg f.wd.toNat))).dev := by
  subst ha
  refine (noPoison_none hp).trans ((aligned_of_mod hal.1).trans ?_)
  rw [if_pos hal.2, spaceOk_pass hgate]

/-- A store outside the register space is no register write. -/
theorem State.coreWrites_host (h : regSpace th (s.dev.eaOf th f ext) = false) : s.coreWrites th f ext = none := by
  simp [State.coreWrites, h]

theorem State.coreWrites_space (ha : a = s.dev.eaOf th f ext) (hat : s.dev.atInstr th (wordI 0x39 f) ext f.guard.toNat = true)
    (hpriv : (s.dev.thr th).priv = true) (hp : (s.dev.thr th).poisonIn [f.wa.toNat, f.wd.toNat] = none)
    (hal : a % 8 = 0 ∧ regSpace th a = true) (hgate : s.dev.gateFail 1 4 none (a % 2 ^ 28) 8 2 = none) :
    s.coreWrites th f ext = some (a % 2 ^ 28, TWord.val ((s.dev.thr th).reg f.wd.toNat)) := by
  subst ha
  simp only [State.coreWrites, hal.1, hal.2, Dev.ready_of_atInstr hat, Dev.guard_of_atInstr hat, hpriv, hp, hgate, Option.isNone_none, decide_true, Bool.and_self,
    if_true]

end

/-- Settles O7: the access passes its checks, has its address, and its read or write leaves. -/
theorem engineHostMemory : Obligations.EngineHostMemory := by
  unfold Obligations.EngineHostMemory
  refine ⟨?ldH, ?stH, ?ldW, ?stW, ?ldPHost, ?ldPSpace, ?stPHost, ?stPSpace⟩
  case ldH =>
    intro s th f ext e b fn hat hp hal hx hopen
    refine next_on ((Dev.issue_stalled hat rfl rfl ((noPoison_none hp).trans ((aligned_of_mod hal).trans
      (congrArg IRes.done (Dev.loadStep_ok _ hx (eight_le_page hal) hopen)))) ?_).trans ?_)
    · rw [Dev.thr_hostRead, Dev.thr_engAddr hx]
    · rw [Dev.hostRead_ok _ _ _ _ _ hopen.1 hopen.2]
      rfl
  case stH =>
    intro s th f ext e b fn hat hp hal hx hopen
    refine next_on ((Dev.issue_wentOn hat rfl rfl ((noPoison_none hp).trans ((aligned_of_mod hal).trans
      (congrArg IRes.done (Dev.storeStep_ok hx (eight_le_page hal))))) ?_ ?_).trans ?_)
    · rw [Dev.thr_updThr_self]
    · rw [Dev.thr_updThr_self, Dev.thr_hostWrite, Dev.thr_engAddr hx]
    · rw [Dev.hostWrite_ok _ _ _ _ _ _ _ hopen.1 hopen.2, Nat.mod_eq_of_lt (BitVec.isLt _)]
      rfl
  case ldW =>
    intro s th f ext x e b fn h off size hat ⟨hext, hfn⟩ hp harg ⟨hal, hpage⟩ hwin hx hopen
    have hthr : x.thr th = s.dev.thr th := by rw [harg.2.2.2, Dev.thr_winLook]
    refine next_on ((Dev.issue_stalled hat (by simp [hext, hfn]) rfl ((noPoison_none hp).trans ((Dev.windowed_ok harg hal hwin).trans
      (congrArg IRes.done (Dev.loadStep_ok _ hx hpage hopen)))) ?_).trans ?_)
    · rw [Dev.thr_hostRead, Dev.thr_engAddr hx, hthr]
    · rw [Dev.hostRead_ok _ _ _ _ _ hopen.1 hopen.2]
      rfl
  case stW =>
    intro s th f ext x e b fn h off size hat ⟨hext, hfn⟩ hp harg ⟨hal, hpage⟩ hwin hx hopen
    have hthr : x.thr th = s.dev.thr th := by rw [harg.2.2.2, Dev.thr_winLook]
    have hv : TWord.val ((x.thr th).reg f.wd.toNat) = s.v th f.wd.toNat := by rw [hthr]
    rw [← hv] at hx ⊢
    refine next_on ((Dev.issue_wentOn hat (by simp [hext, hfn]) rfl ((noPoison_none hp).trans ((Dev.windowed_ok harg hal hwin).trans
      (congrArg IRes.done (Dev.storeStep_ok hx hpage)))) ?_ ?_).trans ?_)
    · rw [Dev.thr_updThr_self]
    · rw [Dev.thr_updThr_self, Dev.thr_hostWrite, Dev.thr_engAddr hx, hthr]
    · rw [Dev.hostWrite_ok _ _ _ _ _ _ _ hopen.1 hopen.2, Nat.mod_mod]
      rfl
  case ldPHost =>
    intro s th f ext hat ⟨hpriv, hp⟩ hal hgate hopen
    refine next_on ((Dev.issue_stalled hat rfl (by simp [hpriv]) (State.loadP_host rfl hp hal hgate hopen) ?_).trans ?_)
    · rw [Dev.thr_hostRead]
    · rw [Dev.hostRead_ok _ _ _ _ _ hopen.1 hopen.2]
      rfl
  case ldPSpace =>
    exact fun s th f ext d v hat ⟨hpriv, hp⟩ hal hgate hread =>
      next_on (Dev.issue_next hat rfl (by simp [hpriv]) (State.loadP_space rfl hp hal hgate hread))
  case stPHost =>
    intro s th f ext hat ⟨hpriv, hp⟩ hal hgate
    have hissue : s.dev.issueI 0x39 th f ext false (s.storeP th f ext) (sup := true) = _ :=
      Dev.issue_next hat rfl (by simp [hpriv]) (State.storeP_host rfl hp hal hgate)
    show execStP th f ext s = _
    simp only [execStP, State.coreWrites_host hal.2, hissue]
  case stPSpace =>
    intro s th f ext hat ⟨hpriv, hp⟩ hal hgate
    have hissue : s.dev.issueI 0x39 th f ext false (s.storeP th f ext) (sup := true) = _ :=
      Dev.issue_next hat rfl (by simp [hpriv]) (State.storeP_space rfl hp hal hgate)
    show execStP th f ext s = _
    simp only [execStP, State.coreWrites_space rfl hat hpriv hp hal hgate, hissue]

end Sys2Proof.Machine
end

section
/-! SUPPORT. Message instructions and match instructions (R57 to R62, R213, R216, R217). -/

namespace Sys2Proof.Machine

section
variable {d e : Dev} {th : Tid} {f : FmtA} {ext : Ext} {op : Nat}

/-! ### Message instructions (R59, R60) -/

theorem Dev.msgIssue_taken {wd : Nat} {m : MsgOp} (h : d.issueOp (some th.val) m = (e, .taken)) :
    d.msgIssue th wd m = if m.op = 0x45 then .done (e.stall th (.amoReply wd)) else .next (e.setVal th wd 0) := by
  simp only [Dev.msgIssue, h]

/-- A message instruction whose operation RMA takes completes with 0. -/
theorem Dev.msgInstr_taken (hat : d.atInstr th (wordA op f) ext f.guard.toNat = true)
    (hext : extBad (d.thr th) ext = false ∧ msgBad op f.fn.toNat f.wa.toNat = false)
    (hp : (d.thr th).poisonIn (((d.thr th).msgOp th op f.fn.toNat f.wd.toNat f.wa.toNat f.wb.toNat).reads f.wa.toNat f.wb.toNat) = none)
    (hop : op ≠ 0x45) (hissue : d.issueOp (some th.val) ((d.thr th).msgOp th op f.fn.toNat f.wd.toNat f.wa.toNat f.wb.toNat) = (e, .taken)) :
    d.msgInstr op th f ext = (e.setVal th f.wd.toNat 0).completed th :=
  Dev.issueA_next hat hext.1 hext.2 ((noPoison_none hp).trans ((Dev.msgIssue_taken hissue).trans (if_neg hop)))

/-- amo.f stalls for its reply. -/
theorem Dev.msgInstr_fetch (hat : d.atInstr th (wordA 0x45 f) ext f.guard.toNat = true)
    (hext : extBad (d.thr th) ext = false ∧ msgBad 0x45 f.fn.toNat f.wa.toNat = false)
    (hp : (d.thr th).poisonIn (((d.thr th).msgOp th 0x45 f.fn.toNat f.wd.toNat f.wa.toNat f.wb.toNat).reads f.wa.toNat f.wb.toNat) = none)
    (hissue : d.issueOp (some th.val) ((d.thr th).msgOp th 0x45 f.fn.toNat f.wd.toNat f.wa.toNat f.wb.toNat) = (e, .taken)) :
    d.msgInstr 0x45 th f ext = (e.stall th (.amoReply f.wd.toNat)).retired th := by
  unfold Dev.msgInstr
  exact Dev.issue_stalled hat (by simp [hext.1, hext.2]) rfl ((noPoison_none hp).trans (Dev.msgIssue_taken hissue))
    (Dev.thr_issueOp_taken hissue th)

/-! ### The issue of an operation (R59, R161, R162, R203) -/

theorem Dev.issueOp_fenced {t : Option Nat} {m : MsgOp} (h : d.fencing m.scope = true) : d.issueOp t m = (d, .wait) := if_pos h

theorem Dev.issueOp_refused {t : Option Nat} {m : MsgOp} (hst : d.localCheck m ≠ 0) (hf : d.fencing m.scope = false) :
    (d.issueOp t m).2 = .status (d.localCheck m) := by
  simp only [Dev.issueOp, hf, Bool.false_eq_true, if_false, bne_iff_ne.mpr hst, if_true]

theorem Dev.issueOp_taken {t : Option Nat} {m : MsgOp} (hok : d.localCheck m = 0 ∧ d.fencing m.scope = false)
    (hget : ¬(d.opCode m = 2 ∧ m.len = 0)) (hslot : d.slotFree m.fn (d.opCode m == 5) = true)
    (hroom : d.opCode m = 3 ∨ d.opCode m = 4 → d.streamRoom (streamKey m.fn m.dev m.dfn) = true)
    (hrdv : d.opCode m = 4 → d.mtc.rdvs.length < 65536) : (d.issueOp t m).2 = .taken := by
  have hfull : (!d.slotFree m.fn (d.opCode m == 5) ||
      (decide (d.opCode m = 3) || decide (d.opCode m = 4)) && !d.streamRoom (streamKey m.fn m.dev m.dfn) ||
      decide (d.opCode m = 4) && decide (65536 ≤ d.mtc.rdvs.length)) = false := by
    simpa [hslot, imp_iff_not_or] using And.intro hroom hrdv
  have hempty : (decide (d.opCode m = 2) && decide (m.len = 0)) = false := by simpa using hget
  simp only [Dev.issueOp, hok.1, hok.2, hempty, hfull, bne_self_eq_false, Bool.false_eq_true, if_false]

/-! ### Match instructions (R61, R62, R213, R216, R217) -/

theorem Dev.mtcIssue_value {kind wd : Nat} {g0 g1 g2 g3 size : Word} {v : TWord}
    (h : d.mtcOp th kind g0 g1 g2 g3 size = (e, some v)) : d.mtcIssue th kind wd g0 g1 g2 g3 size = .next (e.setW th wd v) := by
  simp only [Dev.mtcIssue, h]

/-- A post that passes the checks of R213, with room in the ring. -/
theorem Dev.mtcOp_post {g0 g1 g2 g3 size : Word} {r : Recv} {x : Dev} (hr : r = recvOf (d.thr th).fn g0 g1 g2 g3 size ∧ x = d.winLook r.win)
    (hcheck : d.postCheck (d.thr th).fn (d.thr th).priv r g2 size = 0) (hring : x.mtcBlocked (d.thr th).fn = false) :
    d.mtcOp th 0 g0 g1 g2 g3 size = (((x.opStartTh (some th.val)).1.post r).1.opEndO (x.opStartTh (some th.val)).2 0,
      some (mkWord (BitVec.ofNat 64 ((x.opStartTh (some th.val)).1.post r).2) 0)) := by
  obtain ⟨rfl, rfl⟩ := hr
  simp only [Dev.mtcOp, hcheck, if_true, hring, show ((0 : Nat) != Status.ARG && (0 : Nat) != Status.FN_OFF) = true from rfl,
    bne_self_eq_false, Bool.false_eq_true, if_false]

section
variable {g0 g1 size : Word} (hon : d.flag F.MTC_FN_CFG_EN (d.thr th).fn = true ∧ d.mtcBlocked (d.thr th).fn = false)
include hon

theorem Dev.mtcOp_probe : d.mtcOp th 1 g0 g1 0 0 size = (d.searchUx (recvOf (d.thr th).fn g0 g1 0 0 size),
    some (mkWord (BitVec.ofNat 64 (d.probe (recvOf (d.thr th).fn g0 g1 0 0 size))) 0)) := by
  simp only [Dev.mtcOp, hon.1, hon.2, Bool.not_true, Bool.false_eq_true, if_false, if_true, one_ne_zero]

theorem Dev.mtcOp_cancel : d.mtcOp th 2 g0 0 0 0 0 =
    ((d.cancel (d.thr th).fn (getBits g0 0 32)).1, some (mkWord (BitVec.ofNat 64 (d.cancel (d.thr th).fn (getBits g0 0 32)).2) 0)) := by
  simp only [Dev.mtcOp, hon.1, hon.2, Bool.not_true, Bool.false_eq_true, if_false, show (2 : Nat) ≠ 0 from by decide,
    show (2 : Nat) ≠ 1 from by decide]

end

theorem Dev.cancel_found {fn h : Nat} {r : Recv} (hr : (d.dom fn).posted.find? (fun r => r.handle == h) = some r) :
    d.cancel fn h = ((d.updDom fn (fun m => { m with posted := m.posted.filter (fun x => x.psn != r.psn) })).cancelRecv r, 0) := by
  simp only [Dev.cancel, hr]

theorem Dev.cancel_none {fn h : Nat} (hr : (d.dom fn).posted.find? (fun r => r.handle == h) = none) :
    d.cancel fn h = (d, Status.MT_NOT_FOUND) := by
  simp only [Dev.cancel, hr]

end

/-- Settles O8: an operation that RMA takes gives wd its result; a match instruction whose checks pass gives wd the result of
its operation. -/
theorem engineMessages : Obligations.EngineMessages := by
  unfold Obligations.EngineMessages
  refine ⟨?put, ?get, ?send, ?udSend, ?amo, ?amoF, ?taken, ?refused, ?fenced, ?post, ?probe, ?cancel, ?cancelNone⟩
  case put | get | send | udSend | amo =>
    exact fun s th f ext e hat hext hp hh hissue => next_rma hh (Dev.msgInstr_taken hat hext hp (by decide) hissue)
  case amoF => exact fun s th f ext e hat hext hp hh hissue => next_rma hh (Dev.msgInstr_fetch hat hext hp hissue)
  case taken => exact fun d th m hok hget hslot hroom hrdv => Dev.issueOp_taken hok hget hslot hroom hrdv
  case refused => exact fun d th m h => Dev.issueOp_refused h.1 h.2
  case fenced => exact fun d th m h => Dev.issueOp_fenced h
  case post =>
    exact fun s th f ext r x hat ⟨hext, hgroup, hfn, hh⟩ hp hr hcheck hring =>
      next_rma hh (Dev.issueA_next hat hext (by simp [hgroup, hfn])
        ((noPoison_none hp).trans (Dev.mtcIssue_value (Dev.mtcOp_post hr hcheck hring))))
  case probe =>
    exact fun s th f ext hat ⟨hext, hgroup, hfn, hh⟩ hp hon =>
      next_rma hh (Dev.issueA_next hat hext (by simp [hgroup, hfn])
        ((noPoison_none hp).trans (Dev.mtcIssue_value (Dev.mtcOp_probe hon))))
  case cancel =>
    intro s th f ext r hat ⟨hext, hwb, hfn, hh⟩ hp hon hr
    refine next_rma hh (Dev.issueA_next hat hext (by simp [hwb, hfn])
      ((noPoison_none hp).trans (Dev.mtcIssue_value ((Dev.mtcOp_cancel hon).trans ?_))))
    rw [Dev.cancel_found hr]
    rfl
  case cancelNone =>
    intro s th f ext hat ⟨hext, hwb, hfn, hh⟩ hp hon hr
    refine next_rma hh (Dev.issueA_next hat hext (by simp [hwb, hfn])
      ((noPoison_none hp).trans (Dev.mtcIssue_value ((Dev.mtcOp_cancel hon).trans ?_))))
    rw [Dev.cancel_none hr]

end Sys2Proof.Machine
end

section
/-! SUPPORT. Counter instructions, defer and Piton instructions (R63, R64, R67, R456 to R458, R464 to R469). -/

namespace Sys2Proof.Machine

section
variable {d : Dev} {th n : Nat}

/-! ### Counters (R63, R456, R457) -/

theorem Dev.ownCtr_pass {word : Nat} {k : Unit → IRes} (h : d.ctrOwner n = some (d.thr th).fn) : d.ownCtr th n word k = k () :=
  if_pos h

theorem Dev.ctrAdd_owner {inc fn : Nat} (h : d.ctrOwner n = some fn) : d.ctrAdd n inc fn = d.ctrSet n (d.ctrVal n + inc) := if_pos h

/-- A stall that leaves the thread's cluster with nothing to do (R22). -/
theorem Dev.issue_rested {e : Dev} {word g : Nat} {ext : Ext} {bad sup noCmd : Bool} {body : Dev → IRes} {x : Stall}
    (hat : d.atInstr th word ext g = true) (hbad : (bad || noCmd && pcCmd (d.thr th).pc) = false)
    (hsup : (sup && !(d.thr th).priv) = false) (hbody : body d = .done ((e.stall th x).restThr th)) (hthr : e.thr th = d.thr th) :
    d.issue th word ext g bad sup noCmd body = ((e.stall th x).restThr th).retired th :=
  (Dev.issue_done hat hbad hsup hbody).trans (Dev.stall_rest_retired x hthr)

theorem Dev.thr_endActivation (d : Dev) (th st : Nat) : (d.endActivation th st).thr th = (d.idle th).thr th := by
  unfold Dev.endActivation
  dsimp only
  split
  · rw [Dev.thr_entryEnd]
  · rfl

/-- A thread that goes on stays free of a stall. -/
theorem Dev.stall_goOn (h : (d.thr th).stall = .none) : ((d.goOn th).thr th).stall = .none := by
  unfold Dev.goOn Dev.goTo
  split
  · rw [Dev.thr_endActivation, Dev.thr_idle]
  · rw [Dev.thr_updThr_self, h]

theorem Dev.ctrVal_ctrPut (d : Dev) (n v : Nat) : (d.ctrPut n v).ctrVal n = v % 2 ^ 48 := Tbl.get_set_self _ _ _ _

/-- A counter that reaches the threshold of the one thread there is frees it. -/
theorem Dev.ctrRelease_frees {t : Thread} {k : Nat} (hth : d.eng.th = [(th, t)]) (hstall : t.stall = .ctr n k)
    (hreach : Machine.reaches (d.ctrVal n) k = true) : ((d.ctrRelease n).thr th).stall = .none := by
  have hgo : d.ctrRelease n =
      ((d.updThr th (fun t => { t with st := .ready, stall := .none })).goOn th).wakeThr th := by
    simp only [Dev.ctrRelease, hth, List.foldl_cons, List.foldl_nil, hstall, hreach, decide_true, Bool.and_self, if_true]
  rw [hgo, Dev.thr_wakeThr]
  exact Dev.stall_goOn (by rw [Dev.thr_updThr_self])

/-! ### defer (R64, R458) -/

/-- The instruction that follows in a command slot is the one there. -/
theorem Dev.isNext_slot {pc : Word} {w : IWord} {ext : Ext} (hcore : isCore th = false) (hpc : pcCmd pc = true)
    (hf : d.fetched th pc = some (w.toNat, ext.toNat)) : d.isNext th pc w ext = (true, none) := by
  simp [Dev.isNext, hcore, hpc, hf]

/-! ### Pitons (R464 to R469) -/

section
variable {who : Holder} {prio : Nat} {wait : Bool} {o : Holder × Nat}

theorem Dev.pitAcquire_denied (h : d.pitRight who (n / 64) false = false) :
    d.pitAcquire who n prio wait = (d, some Status.PIT_RIGHTS) := by
  simp [Dev.pitAcquire, h]

theorem Dev.pitAcquire_free (h : d.pitRight who (n / 64) false = true) (ho : (d.piton n).holder = none) :
    d.pitAcquire who n prio wait = (d.setPiton n { holder := some (who, d.pitPrio who (n / 64) prio) }, some 0) := by
  simp only [Dev.pitAcquire, h, ho, Bool.not_true, Bool.false_eq_true, if_false]

theorem Dev.pitAcquire_held (h : d.pitRight who (n / 64) false = true) (ho : (d.piton n).holder = some o) :
    d.pitAcquire who n prio wait = if sameHolder o.1 who || !wait then (d, some Status.PIT_HELD) else (d, none) := by
  simp only [Dev.pitAcquire, h, ho, Bool.not_true, Bool.false_eq_true, if_false]

/-- A release by the holder that may acquire, or by another that may release. -/
theorem Dev.pitRelease_allowed (ho : (d.piton n).holder = some o) (h : d.pitRight who (n / 64) (!sameHolder o.1 who) = true) :
    d.pitRelease who n = (d.pitPass n, 0) := by
  cases hsame : sameHolder o.1 who with
  | true =>
    have hacq : d.pitRight who (n / 64) false = true := by simpa only [hsame, Bool.not_true] using h
    simp [Dev.pitRelease, ho, hsame, hacq]
  | false =>
    have hrel : d.pitRight who (n / 64) true = true := by simpa only [hsame, Bool.not_false] using h
    simp [Dev.pitRelease, ho, hsame, hrel]

end
end

/-- defer of an instruction of the same command slot that may be deferred: it issues where the threshold is reached, and joins
the list where it is not (R64, R458). -/
theorem exec_defer_what {s : State} {th : Tid} {f : FmtA} {ext : Ext} {nxt : IWord} {nxtExt : Ext} {w : DefWhat} {n thresh : Nat}
    (hat : s.dev.atInstr th (wordA 0x53 f) ext f.guard.toNat = true ∧ s.dev.halted = false)
    (harg : extBad (s.dev.thr th) ext = false ∧ f.fn = 0 ∧ n = (s.dev.thr th).ctrOf f.wa.toNat ∧
      thresh = ((s.dev.thr th).val f.wb.toNat).toNat % 2 ^ 48)
    (hpc : pcCmd (pcNext (s.dev.thr th).pc) = true ∧ pcIndex (pcNext (s.dev.thr th).pc) ≤ (s.dev.thr th).slots.length ∧
      isCore th = false)
    (hf : s.dev.fetched th (pcNext (s.dev.thr th).pc) = some (nxt.toNat, nxtExt.toNat))
    (hw : s.dev.deferOf th nxt.toNat nxtExt = .what w)
    (hown : s.dev.ctrOwner n = some (s.dev.thr th).fn ∧ (s.dev.thr th).poisonIn [f.wa.toNat, f.wb.toNat] = none)
    (hroom : reaches (s.dev.ctrVal n) thresh = false → s.dev.defRoom = true) :
    exec (.defer th f ext nxt nxtExt) s = .next (s.on (((((if reaches (s.dev.ctrVal n) thresh then
        s.dev.deferIssue (s.dev.thr th).fn w else s.dev.defAdd n thresh (s.dev.thr th).fn w).setVal th f.wd.toNat 0).updThr th
          (fun t => { t with pc := pcNext (s.dev.thr th).pc })).completed th).rmaGo)) := by
  obtain ⟨hat, hh⟩ := hat
  obtain ⟨hext, hfn, rfl, rfl⟩ := harg
  obtain ⟨hslot, hlen, hcore⟩ := hpc
  refine next_rma hh (Dev.issueA_next hat hext (by simp [hfn]) ?_)
  simp only [hcore, hslot, decide_eq_false (Nat.not_lt.mpr hlen), Dev.isNext_slot hcore hslot hf, hw, Dev.ownCtr_pass hown.1,
    noPoison_none hown.2, Bool.not_false, Bool.and_false, Bool.false_eq_true, if_false, if_true]
  cases hreach : reaches (s.dev.ctrVal _) _ with
  | true => simp only [if_true]
  | false => simp only [hroom hreach, Bool.not_true, Bool.false_eq_true, if_false]

/-- Settles O9: each instruction passes its checks, and its body acts on the counter or the Piton that it names. -/
theorem engineCountersAndPitons : Obligations.EngineCountersAndPitons := by
  unfold Obligations.EngineCountersAndPitons
  refine ⟨?add, ?reached, ?stall, ?read, ?wake, ?defer, ?deferNow, ?acqFree, ?acqWaits, ?acqRights, ?try_, ?rel⟩
  case add =>
    exact fun s th f ext hat ⟨hwd, hown⟩ hp => next_on (Dev.issueI_next hat (by simp [hwd])
      ((Dev.ownCtr_pass hown).trans ((noPoison_none hp).trans (congrArg IRes.next (Dev.ctrAdd_owner hown)))))
  case reached =>
    exact fun s th f ext hat ⟨hext, hwd, hfn, hown⟩ hp hreach => next_on (Dev.issueA_next hat hext (by simp [hwd, hfn])
      ((Dev.ownCtr_pass hown).trans ((noPoison_none hp).trans (if_pos hreach))))
  case stall =>
    exact fun s th f ext hat ⟨hext, hwd, hfn, hown⟩ hp hreach => next_on (Dev.issue_rested hat (by simp [hext, hwd, hfn]) rfl
      ((Dev.ownCtr_pass hown).trans ((noPoison_none hp).trans (if_neg (by rw [hreach]; decide)))) rfl)
  case read =>
    exact fun s th f ext hat ⟨hext, hwb, hfn, hown⟩ hp => next_on (Dev.issueA_next hat hext (by simp [hwb, hfn])
      ((Dev.ownCtr_pass hown).trans (noPoison_none hp)))
  case wake =>
    exact fun d n v k th hth hreach =>
      Dev.ctrRelease_frees (d := d.ctrPut n v) hth rfl ((congrArg (reaches · k) (d.ctrVal_ctrPut n v)).trans hreach)
  case defer =>
    exact fun s th f ext nxt nxtExt w n thresh hat harg hpc hf hw hown ⟨hreach, hroom⟩ =>
      (exec_defer_what hat harg hpc hf hw hown (fun _ => hroom)).trans (by rw [hreach]; rfl)
  case deferNow =>
    exact fun s th f ext nxt nxtExt w n thresh hat harg hpc hf hw hown hreach =>
      (exec_defer_what hat harg hpc hf hw hown (fun h => absurd (hreach.symm.trans h) (by decide))).trans (by rw [hreach]; rfl)
  case acqFree =>
    rintro s th f ext n hat ⟨hext, hwb, hfn, hp⟩ ⟨rfl, hright⟩ ho
    refine next_on (Dev.issueA_next hat hext (by simp [hwb, hfn]) ((noPoison_none hp).trans ?_))
    simp only [Dev.pitAcquire_free hright ho]
  case acqWaits =>
    rintro s th f ext n o hat ⟨hext, hwb, hfn, hp⟩ ⟨rfl, hright⟩ ⟨ho, hother⟩
    refine next_on (Dev.issue_rested hat (by simp [hext, hwb, hfn]) rfl ((noPoison_none hp).trans ?_) rfl)
    simp only [Dev.pitAcquire_held hright ho, hother, Bool.not_true, Bool.or_self, Bool.false_eq_true, if_false]
  case acqRights =>
    intro s th f ext hat ⟨hext, hwb, hfn, hp⟩ hright
    refine next_on (Dev.issueA_next hat hext (by simp [hwb, hfn]) ((noPoison_none hp).trans ?_))
    simp only [Dev.pitAcquire_denied hright]
  case try_ =>
    rintro s th f ext n hat ⟨hext, hwb, hfn, hp⟩ ⟨rfl, hright⟩
    cases ho : (s.dev.piton ((s.dev.thr th).pitOf f.wa.toNat)).holder with
    | none =>
      refine next_on (Dev.issueA_next hat hext (by simp [hwb, hfn]) ((noPoison_none hp).trans ?_))
      simp only [Dev.pitAcquire_free hright ho]
      rfl
    | some o =>
      refine next_on (Dev.issueA_next hat hext (by simp [hwb, hfn]) ((noPoison_none hp).trans ?_))
      simp only [Dev.pitAcquire_held hright ho, Bool.not_false, Bool.or_true, if_true]
      rfl
  case rel =>
    rintro s th f ext n o hat ⟨hext, hwb, hfn, hp⟩ ⟨rfl, ho⟩ hright
    refine next_on (Dev.issueA_next hat hext (by simp [hwb, hfn]) ((noPoison_none hp).trans ?_))
    simp only [Dev.pitRelease_allowed ho hright]

end Sys2Proof.Machine
end

section
/-! SUPPORT. Collective instructions (R65, R254, R258, R260, R270, R271). -/

namespace Sys2Proof.Machine

section
variable {d : Dev} {th a n : Nat}

/-- The scratch words of a descriptor pass their gate, one by one. -/
theorem scratchAll_pass {k : Unit → IRes} (h : ∀ j, j < n → d.scrPass th (a + 8 * j) 1) : d.scratchAll th a k n = k () := by
  induction n with
  | zero => rfl
  | succ n ih => rw [Dev.scratchAll, scratchOk_pass (h n n.lt_succ_self), ih (fun j hj => h j (Nat.lt_succ_of_lt hj))]

end

/-- Settles O10: each instruction passes its checks, and its body acts on the context that it names. -/
theorem engineCollectives : Obligations.EngineCollectives := by
  unfold Obligations.EngineCollectives
  refine ⟨?step, ?refused, ?waitNone, ?waitClosed, ?waitOpen, ?red, ?create, ?destroy⟩
  case step =>
    intro s th f ext e k ⟨hat, hh⟩ ⟨hext, hfn, hp⟩ hfence hstep
    refine next_rma hh (Dev.issueA_next hat hext (by simp [hfn]) ((noPoison_none hp).trans ?_))
    simp only [hfence, hstep, Bool.false_eq_true, if_false]
  case refused =>
    intro s th f ext e st ⟨hat, hh⟩ ⟨hext, hfn, hp⟩ hfence hstep
    refine next_rma hh (Dev.issueA_next hat hext (by simp [hfn]) ((noPoison_none hp).trans ?_))
    simp only [hfence, hstep, Bool.false_eq_true, if_false]
  case waitNone =>
    exact fun s th f ext ⟨hat, hh⟩ ⟨hext, hwa, hwb, hfn⟩ hlast =>
      next_rma hh (Dev.issueA_next hat hext (by simp [hwa, hwb, hfn]) (by simp only [hlast]))
  case waitClosed =>
    exact fun s th f ext n e st ⟨hat, hh⟩ ⟨hext, hwa, hwb, hfn⟩ hlast =>
      next_rma hh (Dev.issueA_next hat hext (by simp [hwa, hwb, hfn]) (by simp only [hlast]))
  case waitOpen =>
    exact fun s th f ext n e ⟨hat, hh⟩ ⟨hext, hwa, hwb, hfn⟩ hlast =>
      next_rma hh (Dev.issue_rested hat (by simp [hext, hwa, hwb, hfn]) rfl (by simp only [hlast]) rfl)
  case red =>
    exact fun s th f ext hat ⟨hext, hop, hdt⟩ =>
      next_on (Dev.issueA_next hat hext (by simp [hop, decide_eq_false (Nat.not_lt.mpr hdt)]) rfl)
  case create =>
    rintro s th f ext a nk e st k ⟨hat, hh⟩ ⟨hext, hfn, hwb, hp⟩ ⟨rfl, hal⟩ ⟨rfl, hpass⟩ hcreate
    have hwords : ∀ j, j < 5 → s.dev.scrPass th ((s.v th f.wa.toNat).toNat + 8 * j) 1 := fun j hj => hpass j (by omega)
    refine next_rma hh ((if_neg (by simp [hfn])).trans (Dev.issueA_next hat hext (by simp [hwb]) ((noPoison_none hp).trans
      ((aligned_of_mod hal).trans ((scratchAll_pass hwords).trans ((scratchAll_pass hpass).trans ?_))))))
    simp only [Thread.val, hcreate] <;> rfl
  case destroy =>
    rintro s th f ext a n ⟨hat, hh⟩ ⟨hext, hfn, hwb, hp⟩ ⟨rfl, hal, rfl⟩ ⟨hpass, hgood⟩ ⟨hused, hlive, hown⟩
    refine next_rma hh ((if_neg (by simp [hfn])).trans (Dev.issueA_next hat hext (by simp [hfn, hwb]) ((noPoison_none hp).trans
      ((scratch_pass hal hpass).trans ?_))))
    refine (if_neg ?_).trans ((if_neg ?_).trans (if_neg ?_))
    · simp [Thread.val, hgood]
    · simp [Thread.val, hused, hlive]
    · simp [Thread.val, hown]

end Sys2Proof.Machine
end

section
/-! SUPPORT. Fence instructions (R66, R203, R204). -/

namespace Sys2Proof.Machine

section
variable {d e : Dev} {op kind th : Nat} {f : FmtA} {ext : Ext}

/-! ### What a fence comes to -/

theorem Dev.scope_stall (d : Dev) (th : Nat) (x : Stall) : ((d.stall th x).thr th).scope th = (d.thr th).scope th := by
  rw [Dev.stall_thr]
  rfl

/-- A fence that finds something outstanding stalls. -/
theorem Dev.fence_stalls (hover : (d.stall th (.fence kind)).fenceOver th kind = false)
    (hflush : kind = 2 → ((d.stall th (.fence kind)).thr th).stall ≠ .fence 3) : d.fence th kind = d.stall th (.fence kind) := by
  have h : ¬ (decide (kind = 2) && decide (((d.stall th (.fence kind)).thr th).stall = .fence 3) &&
      (d.stall th (.fence kind)).fenceOver th 3) = true := by
    simp only [Bool.and_eq_true, decide_eq_true_eq]
    exact fun ⟨⟨hk, hs⟩, _⟩ => hflush hk hs
  simp only [Dev.fence, hover, Bool.false_eq_true, if_false, h]

/-- A local or remote fence that finds nothing outstanding goes on. -/
theorem Dev.fence_passes (hkind : kind < 2) (hover : (d.stall th (.fence kind)).fenceOver th kind = true) :
    d.fence th kind = ((d.stall th (.fence kind)).updThr th (fun t => { t with st := .ready, stall := .none })).goOn th := by
  have h2 : kind ≠ 2 := by omega
  have h3 : kind ≠ 3 := by omega
  simp only [Dev.fence, Dev.fenceStep, hover, if_true, h2, h3, decide_false, Bool.false_and, Bool.false_eq_true, if_false]

/-- The second stage of a durable fence. -/
theorem Dev.thr_flushed (he : e = (d.stall th (.fence 2)).fenceFlush th) :
    (e.thr th).st = .stall ∧ (e.thr th).stall = .fence 3 ∧ (e.thr th).event = (d.thr th).event ∧
      (e.thr th).scope th = (d.thr th).scope th := by
  rw [he, Dev.thr_fenceFlush, Dev.stall_thr]
  exact ⟨rfl, rfl, rfl, rfl⟩

/-- A durable fence whose scope is quiet asks its endpoints to flush, and goes on where none has to. -/
theorem Dev.fence_durable (he : e = (d.stall th (.fence 2)).fenceFlush th) (hover : (d.stall th (.fence 2)).fenceOver th 2 = true) :
    d.fence th 2 = if e.fenceOver th 3 then ((e.updScope ((d.thr th).scope th) (fun x => { x with durable := [], gets := false })).updThr
      th (fun t => { t with st := .ready, stall := .none })).goOn th else e := by
  obtain ⟨-, hstall, -, hscope⟩ := Dev.thr_flushed he
  subst he
  simp only [Dev.fence, hover, Dev.fenceStep, if_true, hstall, decide_true, Bool.true_and, show (3 : Nat) ≠ 2 by decide, if_false,
    hscope]

/-! ### When it is over -/

theorem Dev.fenceOver_local : (d.stall th (.fence 0)).fenceOver th 0 = !(d.stall th (.fence 0)).scopeMem ((d.thr th).scope th) th := by
  rw [Dev.fenceOver, Dev.scope_stall]
  rfl

theorem Dev.fenceOver_remote (hkind : kind = 1 ∨ kind = 2) :
    (d.stall th (.fence kind)).fenceOver th kind = !d.scopeBusy ((d.thr th).scope th) := by
  rw [Dev.fenceOver, Dev.scope_stall]
  rcases hkind with rfl | rfl <;> rfl

/-! ### The instruction -/

section
variable (hat : d.atInstr th (wordA op f) ext f.guard.toNat = true) (hbare : extBad (d.thr th) ext = false ∧ bareA f = false)
include hat hbare

theorem Dev.fenceInstr_stalled {x : Stall} (h : d.fence th kind = e.stall th x) (hthr : e.thr th = d.thr th) :
    d.fenceInstr op kind th f ext = (e.stall th x).retired th := by
  unfold Dev.fenceInstr
  exact Dev.issue_stalled hat (by simp [hbare]) rfl (congrArg IRes.done h) hthr

theorem Dev.fenceInstr_passed (h : d.fence th kind = e.goOn th) (hst : (e.thr th).st = .ready)
    (hev : (e.thr th).event = (d.thr th).event) : d.fenceInstr op kind th f ext = (e.goOn th).retired th := by
  unfold Dev.fenceInstr
  exact Dev.issue_wentOn hat (by simp [hbare]) rfl (congrArg IRes.done h) hst hev

/-- The instruction in its first stage, over or not. -/
theorem Dev.fenceInstr_stalls (hover : (d.stall th (.fence kind)).fenceOver th kind = false) :
    d.fenceInstr op kind th f ext = (d.stall th (.fence kind)).retired th := by
  refine Dev.fenceInstr_stalled hat hbare (Dev.fence_stalls hover fun hk => ?_) rfl
  rw [Dev.stall_thr, hk]
  simp

theorem Dev.fenceInstr_passes (hkind : kind < 2) (hover : (d.stall th (.fence kind)).fenceOver th kind = true) :
    d.fenceInstr op kind th f ext =
      (((d.stall th (.fence kind)).updThr th (fun t => { t with st := .ready, stall := .none })).goOn th).retired th :=
  Dev.fenceInstr_passed hat hbare (Dev.fence_passes hkind hover) (by rw [Dev.thr_updThr_self])
    (by rw [Dev.thr_updThr_self, Dev.stall_thr])

theorem Dev.fenceInstr_durable (he : e = (d.stall th (.fence 2)).fenceFlush th)
    (hover : (d.stall th (.fence 2)).fenceOver th 2 = true) : d.fenceInstr op 2 th f ext =
      if e.fenceOver th 3 then (((e.updScope ((d.thr th).scope th) (fun x => { x with durable := [], gets := false })).updThr th
        (fun t => { t with st := .ready, stall := .none })).goOn th).retired th else e.retired th := by
  obtain ⟨hst, -, hev, -⟩ := Dev.thr_flushed he
  have hfence := Dev.fence_durable he hover
  split
  · next hflushed =>
    refine Dev.fenceInstr_passed hat hbare (hfence.trans (if_pos hflushed)) (by rw [Dev.thr_updThr_self]) ?_
    rw [Dev.thr_updThr_self, Dev.thr_updScope, hev]
  · next hflushed =>
    unfold Dev.fenceInstr
    refine Dev.issue_retired hat (by simp [hbare]) rfl (congrArg IRes.done (hfence.trans (if_neg hflushed))) ?_ (hev ▸ id)
    rw [hst]
    decide

end
end

/-- Settles O11: the first stage of a fence is over or not by what is outstanding in its scope, and the second stage of a durable
one by its FLUSHes. -/
theorem engineFences : Obligations.EngineFences := by
  unfold Obligations.EngineFences
  refine ⟨?local_, ?localStall, ?remote, ?remoteStall, ?durable, ?durableStall⟩
  case local_ =>
    exact fun s th f ext ⟨hat, hh⟩ hbare hquiet => next_rma hh (Dev.fenceInstr_passes hat hbare (by decide)
      (by rw [Dev.fenceOver_local, hquiet, Bool.not_false]))
  case localStall =>
    exact fun s th f ext ⟨hat, hh⟩ hbare hbusy => next_rma hh (Dev.fenceInstr_stalls hat hbare
      (by rw [Dev.fenceOver_local, hbusy, Bool.not_true]))
  case remote =>
    exact fun s th f ext ⟨hat, hh⟩ hbare hquiet => next_rma hh (Dev.fenceInstr_passes hat hbare (by decide)
      (by rw [Dev.fenceOver_remote (.inl rfl), hquiet, Bool.not_false]))
  case remoteStall =>
    exact fun s th f ext ⟨hat, hh⟩ hbare hbusy => next_rma hh (Dev.fenceInstr_stalls hat hbare
      (by rw [Dev.fenceOver_remote (.inl rfl), hbusy, Bool.not_true]))
  case durable =>
    exact fun s th f ext ⟨hat, hh⟩ hbare hquiet => next_rma hh (Dev.fenceInstr_durable hat hbare rfl
      (by rw [Dev.fenceOver_remote (.inr rfl), hquiet, Bool.not_false]))
  case durableStall =>
    exact fun s th f ext ⟨hat, hh⟩ hbare hbusy => next_rma hh (Dev.fenceInstr_stalls hat hbare
      (by rw [Dev.fenceOver_remote (.inr rfl), hbusy, Bool.not_true]))

end Sys2Proof.Machine
end

section
/-! SUPPORT. Timers, the start of an event, instruction fills and a restart (R25, R27, R31, R79 to R84, R144). -/

namespace Sys2Proof.Machine

section
variable {d : Dev} {th : Nat}

theorem Dev.timerExpire_armed (h : (d.thr th).timer ≠ 0 ∧ d.halted = false) : d.timerExpire th =
    ((d.advanceToNs (d.thr th).timer).updThr th (fun t => { t with timer := 0 })).raiseEvent
      { slot := (match (d.thr th).timerSlot with
          | some n => n
          | none => (d.advanceToNs (d.thr th).timer).rd F.ENG_FN_TRAP_SLOT (d.thr th).timerFn)
        entry := 15, fn := (d.thr th).timerFn, kind := 3, w1 := BitVec.ofNat 64 (d.advanceToNs (d.thr th).timer).ns
        w2 := BitVec.ofNat 64 (d.thr th).timer, w3 := 0, w4 := 0 } := by
  have harmed : ¬ (decide ((d.thr th).timer = 0) || d.halted) = true := by simp [h.1, h.2]
  have hns (x : Dev) (g : Thread → Thread) : (x.updThr th g).ns = x.ns := rfl
  simp only [Dev.timerExpire, if_neg harmed, hns] <;> rfl

theorem Dev.thrRestart_stopped (h : (d.thr th).st = .stopped) : d.thrRestart th =
    d.setThr th { timer := (d.thr th).timer, timerSlot := (d.thr th).timerSlot, timerFn := (d.thr th).timerFn } := by
  simp only [Dev.thrRestart, h, bne_self_eq_false, Bool.false_eq_true, if_false]

/-! ### Instruction fills (R84, R144) -/

/-- A line whose read brought it whole. -/
theorem Dev.imemDone_line {e : Dev} {v tag slot ver line : Nat} {r : HostRd} (hfind : d.findRead (.imem th) = some tag)
    (hstall : (d.thr th).stall = .imem slot ver line none) (htake : d.takeRead tag 72 (.ok v false) = (e, some r))
    (hpage : 72 ≤ 4096 - (d.imgBase slot ver + 72 * line) % 4096) : d.imemDone th (.ok v false) =
      (e.addLine (clusterOf th) ⟨slot, ver, line, v % 2 ^ 576⟩).updThr th (fun t => { t with st := .ready, stall := .none }) := by
  have hpart : d.linePart slot ver line 0 = (d.imgBase slot ver + 72 * line, 72) := by
    simp only [Dev.linePart, Nat.min_eq_left hpage, if_true]
  simp only [Dev.imemDone, hfind, hstall, hpart, Option.isSome_none, Bool.false_eq_true, if_false, htake, Cpl.good, lt_irrefl]

theorem Dev.aheadDone_failed {e : Dev} {c slot ver line tag : Nat} {cpl : Cpl} {r : HostRd} (htake : d.takeRead tag 72 cpl = (e, some r))
    (h : cpl.good = none) : d.aheadDone c slot ver line tag cpl = e.ev 2 5 := by
  simp only [Dev.aheadDone, htake, h]

theorem Dev.aheadDone_good {e : Dev} {c slot ver line tag v : Nat} {cpl : Cpl} {r : HostRd}
    (htake : d.takeRead tag 72 cpl = (e, some r)) (hgated : e.gated c = false) (h : cpl.good = some v) :
    d.aheadDone c slot ver line tag cpl =
      { e with eng.ahead := Tbl.put c { line := ⟨slot, ver, line, v % 2 ^ 576⟩, addr := r.addr } e.eng.ahead } := by
  simp only [Dev.aheadDone, htake, h, hgated, Bool.false_eq_true, if_false]

/-- A line ahead is left alone, or lies within the image and is read. -/
theorem Dev.lineAhead_cases {e : Dev} {slot ver line : Nat} {r : XReq}
    (h : e = (d.pick 2).2 ∧ r = e.slotReq th slot (e.linePart slot ver line 0).1) :
    d.lineAhead th slot ver line = e ∨ (16 * line < e.slotLen slot ver ∧
      ∃ g, g = e.xlate r (.imemPre (clusterOf th) slot ver line) true r.asid ∧
        d.lineAhead th slot ver line = g.1.aheadGo (clusterOf th) slot ver line (g.1.asidFn r.asid) g.2) := by
  obtain ⟨rfl, rfl⟩ := h
  by_cases hskip : (decide ((d.pick 2).1 = 0) || isCore th || decide ((d.pick 2).2.slotLen slot ver ≤ 16 * line) ||
      decide (((d.pick 2).2.linePart slot ver line 0).2 < 72)) = true
  · exact .inl (if_pos hskip)
  · refine .inr ⟨?_, _, rfl, if_neg hskip⟩
    simp only [Bool.or_eq_true, decide_eq_true_eq, not_or, not_le] at hskip
    exact hskip.1.2

/-- The line that was filled ahead serves the thread. -/
theorem Dev.lineGot_ahead {slot ver line a : Nat} {l : ILine} (hlen : (d.linePart slot ver line 0).2 = 72)
    (hl : (d.stall th (.imem slot ver line none)).aheadFor (clusterOf th) slot ver line a = some l) :
    d.lineGot th slot ver line none (.ok a) =
      ({ d.stall th (.imem slot ver line none) with
          eng.ahead := Tbl.del (clusterOf th) (d.stall th (.imem slot ver line none)).eng.ahead }.addLine (clusterOf th) l).updThr th
        (fun t => { t with st := .ready, stall := .none }) := by
  simp only [Dev.lineGot, Option.isSome_none, Bool.false_eq_true, if_false, hlen, if_true, hl]

/-! ### EVENT_START (R25, R80, R81) -/

/-- A thread with the words of event `e` in its registers. -/
def Thread.takeWords (t : Thread) (e : Event) : Thread :=
  let t := (t.setReg 1 (mkWord e.w1 0)).setReg 2 (mkWord e.w2 0)
  let t := if e.kind = 3 then t else t.setReg 3 (mkWord e.w3 0)
  if e.kind = 1 || e.kind = 4 then t.setReg 4 (mkWord e.w4 0) else t

theorem Thread.takeWords_keeps {γ : Type} (P : Thread → γ) (h : ∀ (t : Thread) w, P { t with w := w } = P t) (t : Thread)
    (e : Event) : P (t.takeWords e) = P t := by
  simp only [Thread.takeWords, apply_ite P, Thread.setReg_keeps P h, ite_self]

/-- The third and the fourth word, where there are such, leave the first two. -/
theorem Thread.reg_takeWords (t : Thread) (e : Event) :
    (t.takeWords e).reg 1 = mkWord e.w1 0 ∧ (t.takeWords e).reg 2 = mkWord e.w2 0 := by
  have hfirst (n : Nat) (h3 : n ≠ 3) (h4 : n ≠ 4) :
      (t.takeWords e).reg n = ((t.setReg 1 (mkWord e.w1 0)).setReg 2 (mkWord e.w2 0)).reg n := by
    unfold Thread.takeWords
    dsimp only
    split <;> split <;> simp only [Thread.reg_setReg_ne _ _ h3, Thread.reg_setReg_ne _ _ h4]
  rw [hfirst 1 (by decide) (by decide), hfirst 2 (by decide) (by decide), Thread.reg_setReg_ne _ _ (by decide)]
  exact ⟨Thread.reg_setReg_self _ _ (by decide), Thread.reg_setReg_self _ _ (by decide)⟩

theorem Dev.lateGo_none (h : d.eng.late = []) : d.lateGo = d := by
  have hsame : { d with eng.late := [] } = d := congrArg (fun l => { d with eng.late := l }) h.symm
  simp only [Dev.lateGo, h, List.foldl_nil, hsame]

/-- The thread that begins event `e` on the current version of its slot. -/
def Dev.eventThr (d : Dev) (e : Event) (t : Thread) : Thread :=
  { t.begin_ e.fn (d.rd F.ENG_SLOT_CTL_ASID e.slot) (d.flag F.ENG_SLOT_CTL_PRIV e.slot) (mkPc e.entry e.slot (d.slotVer e.slot)) with
    event := e.kind, trapEv := e.acc }.takeWords e

theorem Dev.eventStart_eq {e : Event} {l : List Event}
    (hwait : (d.thr th).st = .wait ∧ (d.thr th).active = false ∧ d.halted = false ∧ d.gated (clusterOf th) = false)
    (hpend : d.pendEv (clusterOf th) = e :: l ∧ d.eng.late = [])
    (hslot : e.kind ≠ 5 ∧ d.flag F.ENG_SLOT_CTL_EN e.slot = true) :
    d.eventStart th = (((({ d with eng.pend := Tbl.set [] (clusterOf th) l d.eng.pend }.updThr th (d.eventThr e)).ev 0 11
      (some (clusterOf th)) (some e.fn)).enterSlot e.slot).updThr th (fun t => { t with inSlot := some (e.slot, d.slotVer e.slot) })) := by
  obtain ⟨hst, hact, hhalt, hgated⟩ := hwait
  obtain ⟨hkind, hen⟩ := hslot
  have hlate := Dev.lateGo_none (d := { d with eng.pend := Tbl.set [] (clusterOf th) l d.eng.pend }) hpend.2
  have hrd (f : Fld) (i : Nat) : { d with eng.pend := Tbl.set [] (clusterOf th) l d.eng.pend }.rd f i = d.rd f i := Dev.rd_congr rfl f i
  have hflag (f : Fld) (i : Nat) : { d with eng.pend := Tbl.set [] (clusterOf th) l d.eng.pend }.flag f i = d.flag f i := by
    rw [Dev.flag, hrd, Dev.flag]
  have hver (n : Nat) : { d with eng.pend := Tbl.set [] (clusterOf th) l d.eng.pend }.slotVer n = d.slotVer n := hrd _ _
  have hon (g : Thread → Thread) : ((({ d with eng.pend := Tbl.set [] (clusterOf th) l d.eng.pend }.updThr th g).ev 0 11
      (some (clusterOf th)) (some e.fn)).flag F.ENG_SLOT_CTL_EN e.slot) = true := by
    rw [Dev.flag, Dev.ev_rd _ _ _ _ _ _ _ _ (by decide), Dev.rd_updThr, hrd]
    exact hen
  have htrap : (e.kind == 5) = false := beq_eq_false_iff_ne.mpr hkind
  simp only [Dev.eventStart, hst, hact, hhalt, hgated, hpend.1, hlate, htrap, hon, bne_self_eq_false, Bool.or_self, Bool.false_and,
    Bool.false_or, Bool.not_true, Bool.false_eq_true, if_false, hver, hflag, hrd]
  rfl

end

/-- Settles O12: each of these commands, on a state in which it acts, comes to what its lemma above says; the thread that an event
begins on takes its place and its words from the event. -/
theorem engineEventsAndTimers : Obligations.EngineEventsAndTimers := by
  unfold Obligations.EngineEventsAndTimers
  refine ⟨?timer, ?event, ?fill, ?aheadDone, ?lineAhead, ?lineGot, ?restart⟩
  case timer => exact fun s th h => next_on (Dev.timerExpire_armed h)
  case event =>
    intro s th e l hwait hpend hslot
    refine ⟨_, next_on (Dev.eventStart_eq hwait hpend hslot), ?_, ?_⟩
    · rw [Dev.pendEv, Dev.updThr_eng_pend, Dev.enterSlot, Dev.wr_eng, Dev.ev_eng]
      exact Tbl.get_set_self _ _ _ _
    · rw [Dev.thr_updThr_self, Dev.thr_enterSlot, Dev.thr_ev, Dev.thr_updThr_self]
      obtain ⟨hw1, hw2⟩ := Thread.reg_takeWords _ e
      have keeps {γ : Type} (P : Thread → γ) (h : ∀ (t : Thread) w, P { t with w := w } = P t) := Thread.takeWords_keeps P h
      exact ⟨keeps Thread.st (fun _ _ => rfl) _ _, keeps Thread.active (fun _ _ => rfl) _ _, keeps Thread.pc (fun _ _ => rfl) _ _,
        keeps Thread.fn (fun _ _ => rfl) _ _, keeps Thread.asid (fun _ _ => rfl) _ _, keeps Thread.priv (fun _ _ => rfl) _ _,
        keeps Thread.event (fun _ _ => rfl) _ _, hw1, hw2⟩
  case fill =>
    exact fun s th v tag slot ver line d r ⟨hfind, hstall⟩ htake hpage =>
      next_on (congrArg Dev.invPoll (Dev.imemDone_line hfind hstall htake hpage))
  case aheadDone =>
    exact fun d e c slot ver line tag v cpl r ⟨htake, hgated⟩ =>
      ⟨fun h => Dev.aheadDone_failed htake h, fun h => Dev.aheadDone_good htake hgated h⟩
  case lineAhead => exact fun d e th slot ver line r h => Dev.lineAhead_cases h
  case lineGot => exact fun d th slot ver line a l ⟨hlen, hl⟩ => ⟨_, rfl, Dev.lineGot_ahead hlen hl⟩
  case restart =>
    intro s th h
    have hthr : (s.dev.wake (th.val / 64)).thr th = s.dev.thr th := Dev.thr_wake _ _ _
    refine next_on ((Dev.thrRestart_stopped (hthr ▸ h)).trans ?_)
    rw [hthr]

end Sys2Proof.Machine
end

section
/-! SUPPORT. What stays of a queue's registers and record through an event, and through an update of another part (R89, R561). -/

namespace Sys2Proof.Machine

section
variable (d : Dev) (b e : Nat) (i f : Option Nat) (n q : Nat)

@[simp] theorem Dev.qst_ev : (d.ev b e i f n).qst q = d.qst q := Dev.ev_rd _ _ _ _ _ _ _ _ (by decide)
@[simp] theorem Dev.qFn_ev : (d.ev b e i f n).qFn q = d.qFn q := Dev.ev_rd _ _ _ _ _ _ _ _ (by decide)
@[simp] theorem Dev.qProd_ev : (d.ev b e i f n).qProd q = d.qProd q := Dev.ev_rd _ _ _ _ _ _ _ _ (by decide)
@[simp] theorem Dev.qDisp_ev : (d.ev b e i f n).qDisp q = d.qDisp q := Dev.ev_rd _ _ _ _ _ _ _ _ (by decide)
@[simp] theorem Dev.qComp_ev : (d.ev b e i f n).qComp q = d.qComp q := Dev.ev_rd _ _ _ _ _ _ _ _ (by decide)
@[simp] theorem Dev.qSize_ev : (d.ev b e i f n).qSize q = d.qSize q :=
  congrArg (2 ^ ·) (Dev.ev_rd _ _ _ _ _ _ _ _ (by decide))

@[simp] theorem Dev.qst_updQueue (p : Nat) (g : Queue → Queue) : (d.updQueue p g).qst q = d.qst q := rfl

@[simp] theorem Dev.advance_regs : (d.advance n).regs = d.regs := rfl
@[simp] theorem Dev.qst_advanceTo (t : Nat) : (d.advanceTo t).qst q = d.qst q := Dev.rd_congr (Dev.advance_regs d _) _ _

@[simp] theorem Dev.qProd_qWake : (d.qWake q).qProd q = d.qProd q := Dev.qWake_rd _ _ _ _

@[simp] theorem Dev.qDisp_wrrEnd (g : Nat) : (d.wrrEnd g).qDisp q = d.qDisp q := by
  unfold Dev.wrrEnd
  dsimp only
  split <;> rfl

@[simp] theorem Dev.queue_updQueue_self (g : Queue → Queue) : (d.updQueue q g).queue q = g (d.queue q) :=
  Tbl.get_set_self _ _ _ _

end

end Sys2Proof.Machine
end

section
/-! SUPPORT. Doorbells, pushes and the reads of BAR2 (R94 to R97, R436). -/

namespace Sys2Proof.Machine

variable {d : Dev} {q : Nat}

/-! ### A proposed PROD (R95) -/

section
variable {v : Nat}

theorem Dev.announce_new (hne : seqSub v (d.qProd q) ≠ 0) (hlt : seqSub v (d.qProd q) < 2 ^ 31)
    (hfit : seqSub v (d.qComp q) ≤ d.qSize q) : d.announce q v = (d.wr F.WQ_CTX_PROD_SEQ_PROD q v).qWake q := by
  simp only [Dev.announce, hne, Nat.not_le.mpr hlt, hfit, if_true, if_false]

theorem Dev.announce_stale (hle : 2 ^ 31 ≤ seqSub v (d.qProd q)) : d.announce q v = d.ev 1 2 none (some (d.qFn q)) := by
  have hne : seqSub v (d.qProd q) ≠ 0 := by omega
  simp only [Dev.announce, hne, hle, if_true, if_false]

theorem Dev.announce_overrun (hne : seqSub v (d.qProd q) ≠ 0) (hlt : seqSub v (d.qProd q) < 2 ^ 31)
    (hover : d.qSize q < seqSub v (d.qComp q)) : d.announce q v = d.qError q qeOverrun (d.qDisp q) := by
  simp only [Dev.announce, hne, Nat.not_le.mpr hlt, Nat.not_le.mpr hover, if_false]

end

/-! ### Accesses of BAR2 (R94, R95, R436) -/

section
variable {fn off size o : Nat} {v : Word}

/-- The occurrence that a doorbell of queue `q` counts as. -/
abbrev Dev.rung (d : Dev) (q : Nat) : Dev := d.ev 10 3 (some (d.qFn q / 256)) (some (d.qFn q))

/-- A doorbell of 4 bytes, or of 8 with a zero upper half, proposes its value where the queue accepts announcements. -/
theorem Dev.bar2Access_doorbell (harea : d.bar2 fn off = some (q, 0)) (hh : d.halted = false)
    (hsize : size = 4 ∨ (size = 8 ∧ getBits v 32 32 = 0)) : d.bar2Access fn off size (some v) =
      (if qAccepts (d.qst q) then (d.rung q).announce q (getBits v 0 32) else d.rung q).rmaGo := by
  have hok : ((size != 4 && size != 8) || (decide (size = 8) && getBits v 32 32 != 0)) = false := by
    rcases hsize with rfl | ⟨rfl, hhigh⟩
    · rfl
    · simp [hhigh]
  have hrung : d.doorbell q size v =
      if qAccepts (d.qst q) then (d.rung q).announce q (getBits v 0 32) else d.rung q := by
    cases hacc : qAccepts (d.qst q) <;> simp [Dev.doorbell, hh, hok, hacc]
  simp only [Dev.bar2Access, hh, harea, Dev.areaWrite, Nat.zero_lt_succ, if_true, hrung, Bool.false_eq_true, if_false]

theorem Dev.bar2Access_announces (harea : d.bar2 fn off = some (q, 0))
    (hacc : d.halted = false ∧ (size = 4 ∨ (size = 8 ∧ getBits v 32 32 = 0)) ∧ qAccepts (d.qst q) = true) :
    d.bar2Access fn off size (some v) = ((d.rung q).announce q (getBits v 0 32)).rmaGo := by
  obtain ⟨hh, hsize, hst⟩ := hacc
  rw [Dev.bar2Access_doorbell harea hh hsize, if_pos hst]

theorem Dev.bar2Access_ignored (harea : d.bar2 fn off = some (q, 0))
    (hacc : d.halted = false ∧ (size = 4 ∨ (size = 8 ∧ getBits v 32 32 = 0)) ∧ qAccepts (d.qst q) = false) :
    d.bar2Access fn off size (some v) = (d.rung q).rmaGo := by
  obtain ⟨hh, hsize, hst⟩ := hacc
  rw [Dev.bar2Access_doorbell harea hh hsize, hst, if_neg Bool.false_ne_true]

/-- A write outside the doorbells and the push areas changes nothing. -/
theorem Dev.bar2Access_reserved (h : d.bar2 fn off = none ∨ (d.bar2 fn off = some (q, o) ∧ ((8 ≤ o ∧ o < 0x80) ∨ 0xC0 ≤ o)))
    (hh : d.halted = false) : d.bar2Access fn off size (some v) = d.rmaGo := by
  rcases h with hnone | ⟨harea, ho⟩
  · simp only [Dev.bar2Access, hh, hnone, Bool.false_eq_true, if_false]
  · have hbell : ¬ o < 8 := by omega
    have hpush : (decide (0x80 ≤ o) && decide (o < 0xC0)) = false := by simp; omega
    simp only [Dev.bar2Access, hh, harea, Dev.areaWrite, hbell, hpush, Bool.false_eq_true, if_false]

theorem Dev.bar2Access_read (hd : d.dark = false) :
    d.bar2Access fn off size none = d.emit (.readValue (d.bar2Value fn off size)) := by
  simp only [Dev.bar2Access, hd, Bool.false_eq_true, if_false]

theorem Dev.bar2Value_prod (h : d.bar2 fn off = some (q, 0) ∧ (size = 4 ∨ size = 8)) : d.bar2Value fn off size = d.qProd q := by
  obtain ⟨harea, hsize⟩ := h
  have hbell : (decide (0 = 0) && (size == 4 || size == 8)) = true := by simpa using hsize
  rw [Dev.bar2Value, harea]
  exact if_pos hbell

theorem Dev.bar2Value_zero
    (h : d.bar2 fn off = none ∨ (d.bar2 fn off = some (q, o) ∧ ¬ (o = 0 ∧ (size = 4 ∨ size = 8)))) :
    d.bar2Value fn off size = 0 := by
  rcases h with hnone | ⟨harea, ho⟩
  · simp only [Dev.bar2Value, hnone]
  · have hbell : ¬ (decide (o = 0) && (size == 4 || size == 8)) = true := by simpa using ho
    simp only [Dev.bar2Value, harea, if_neg hbell]

/-! ### Pushes (R96, R97) -/

variable {mask : BitVec 64} {data : BitVec 512} {m w t : Nat}

theorem Dev.bar2Push_area (harea : d.bar2 fn off = some (q, 0x80)) : d.bar2Push fn off mask data = d.pushWrite q mask data := by
  simp only [Dev.bar2Push, harea, if_true]

/-- Bytes join those that have come; the push is used once it is whole. -/
theorem Dev.pushWrite_gathers (hacc : d.halted = false ∧ qAccepts (d.qst q) = true ∧ mask ≠ 0)
    (hasm : (d.queue q).asm.getD (0, 0, d.ps) = (m, w, t)) : d.pushWrite q mask data =
      if m ||| mask.toNat = 2 ^ 64 - 1 then
        (d.updQueue q (fun x => { x with asm := none })).pushUse q (m ||| mask.toNat) (mergeBytes w data.toNat mask.toNat 64)
      else d.updQueue q (fun x => { x with asm := some (m ||| mask.toNat, mergeBytes w data.toNat mask.toNat 64, t) }) := by
  obtain ⟨hh, hst, hmask⟩ := hacc
  simp only [Dev.pushWrite, hh, hst, hmask, hasm, Bool.not_true, Bool.or_self, decide_false, Bool.false_eq_true, if_false]

theorem Dev.pushTimeout_uses (hasm : (d.queue q).asm = some (m, w, t)) (hst : qAccepts (d.qst q) = true) :
    d.pushTimeout q = ((d.advanceTo (t + usPs 1)).updQueue q (fun x => { x with asm := none })).pushUse q m w := by
  have hlater (n : Nat) : qAccepts (((d.advanceTo n).updQueue q (fun x => { x with asm := none })).qst q) = true := by
    rw [Dev.qst_updQueue, Dev.qst_advanceTo, hst]
  rw [Dev.pushTimeout, hasm]
  exact if_pos (hlater _)

end

/-- A whole push of the next entry that finds room is kept in the descriptor cache, and announces it. -/
theorem Dev.pushUse_kept {mask data : Nat} (hwhole : mask = 2 ^ 64 - 1) (hnext : bitsOf data 0 32 = d.qProd q)
    (hpush : (d.queue q).push = none) (hroom : d.wq.cache.length < 16384)
    (hfit : seqSub (bitsOf data 0 32 + 1) (d.qComp q) ≤ d.qSize q) : d.pushUse q mask data =
      (((({ d.updQueue q (fun x => { x with push := some (bitsOf data 0 32, data) }) with
          wq.cache := Tbl.put (lineKey q (bitsOf data 0 32)) data d.wq.cache } : Dev).wr F.WQ_CTX_PROD_SEQ_PROD q
        (bitsOf data 0 32 + 1)).ev 1 3 none (some (d.qFn q))).qWake q) := by
  have hkept : (decide (mask = 2 ^ 64 - 1) && decide (bitsOf data 0 32 = d.qProd q) && (d.queue q).push.isNone &&
      decide (d.wq.cache.length < 16384) && decide (seqSub (bitsOf data 0 32 + 1) (d.qComp q) ≤ d.qSize q)) = true := by
    simp only [hwhole, hnext.symm, hpush, hroom, hfit, decide_true, Option.isNone_none, Bool.and_self]
  have hheader : ¬ (mask % 16 != 15) = true := by
    rw [hwhole]
    decide
  unfold Dev.pushUse
  rw [if_neg hheader]
  exact if_pos hkept

/-- Settles O13: the access comes down to the operation of its area, whose lemma above names the state that it needs. -/
theorem doorbellsAndPushes : Obligations.DoorbellsAndPushes := by
  unfold Obligations.DoorbellsAndPushes
  refine ⟨?new, ?stale, ?overrun, ?ignored, ?read, ?readZero, ?reserved, ?part, ?whole, ?kept, ?timeout⟩
  case new =>
    intro s a q size value harea hacc ⟨hne, hlt⟩ hfit
    refine next_on ((Dev.bar2Access_announces harea hacc).trans (congrArg Dev.rmaGo ?_))
    exact Dev.announce_new (by simpa using hne) (by simpa using hlt) (by simpa using hfit)
  case stale =>
    intro s a q size value harea hacc hle
    refine next_on ((Dev.bar2Access_announces harea hacc).trans (congrArg Dev.rmaGo ?_))
    rw [Dev.announce_stale (by simpa using hle), Dev.qFn_ev]
  case overrun =>
    intro s a q size value harea hacc ⟨hne, hlt⟩ hover
    refine next_on ((Dev.bar2Access_announces harea hacc).trans (congrArg Dev.rmaGo ?_))
    rw [Dev.announce_overrun (by simpa using hne) (by simpa using hlt) (by simpa using hover), Dev.qDisp_ev]
  case ignored => exact fun s a q size value harea hacc => next_on (Dev.bar2Access_ignored harea hacc)
  case read =>
    exact fun s a q size harea hd => next_on ((Dev.bar2Access_read hd).trans (by rw [Dev.bar2Value_prod harea]))
  case readZero =>
    exact fun s a q o size harea hd => next_on ((Dev.bar2Access_read hd).trans (by rw [Dev.bar2Value_zero harea]))
  case reserved => exact fun s a q o size value harea hh => next_on (Dev.bar2Access_reserved harea hh)
  case part =>
    exact fun s a q mask data m v t harea hacc ⟨hasm, hpart⟩ => next_rma hacc.1
      ((Dev.bar2Push_area harea).trans ((Dev.pushWrite_gathers hacc hasm).trans (if_neg hpart)))
  case whole =>
    exact fun s a q mask data m v t harea hacc ⟨hasm, hwhole⟩ => next_rma hacc.1
      ((Dev.bar2Push_area harea).trans ((Dev.pushWrite_gathers hacc hasm).trans ((if_pos hwhole).trans (by rw [hwhole]))))
  case kept =>
    rintro d q mask data hwhole ⟨hnext, hpush, hroom⟩ hfit
    rw [Dev.pushUse_kept hwhole hnext hpush hroom hfit, hnext]
    refine ⟨?_, ?_⟩
    · rw [Dev.qProd_qWake, Dev.qProd_ev]
      exact Dev.rd_wr_self _ _ _ _ (by decide)
    · rw [Dev.qWake_wq, Dev.ev_wq, Dev.wr_wq]
      exact Tbl.find_put_self _ _ _
  case timeout => exact fun s q m v t ⟨hh, hasm, hst⟩ => next_rma hh (Dev.pushTimeout_uses hasm hst)

end Sys2Proof.Machine
end

section
/-! SUPPORT. Grants, fetches and prefetches of entries, and the status record (R105 to R108, R114, R116). -/

namespace Sys2Proof.Machine

variable {d : Dev} {q : Nat}

/-! ### Grants (R105, R347) -/

section
variable {fn th e v : Nat} {w : Wrr}

/-- The round and the arbiter of the cluster after a grant to function `fn` on thread `th`. -/
abbrev Dev.granted (d : Dev) (fn th : Nat) (w : Wrr) : Dev :=
  { d with wq.wrr := Tbl.put fn w d.wq.wrr, sch.lastGrant := Tbl.put (th / 64) fn d.sch.lastGrant }

variable (hfree : d.halted = false ∧ d.gated (th / 64) = false ∧ (d.thr th).st = .wait ∧ (d.thr th).active = false)
  (hpick : d.grantee (th / 64) = some fn ∧ d.wrrPick fn = some (q, w)) (hnext : d.qNext q = some e)
include hfree hpick hnext

/-- A copy that the device holds starts where it needs no access of the ring. -/
theorem Dev.dispatch_held (hheld : d.held q e = some v) : d.dispatch fn th =
    if d.inHand q e then ((d.granted fn th w).ev 1 6 none (some fn)).startEntry q e th v
    else ((d.granted fn th w).ev 1 6 none (some fn)).fetchEntry q e th := by
  obtain ⟨hh, hgated, hst, hact⟩ := hfree
  obtain ⟨hgrantee, hwrr⟩ := hpick
  have hline : (d.granted fn th w).held q e = some v := hheld
  simp only [Dev.dispatch, hh, hgated, hst, hact, hgrantee, hwrr, hnext, hline, bne_self_eq_false, Bool.or_self,
    Bool.false_eq_true, if_false]
  rfl

theorem Dev.dispatch_fetches (hheld : d.held q e = none) : d.dispatch fn th =
    ((d.granted fn th w).ev 1 7 none (some fn)).fetchEntry q e th := by
  obtain ⟨hh, hgated, hst, hact⟩ := hfree
  obtain ⟨hgrantee, hwrr⟩ := hpick
  have hline : (d.granted fn th w).held q e = none := hheld
  simp only [Dev.dispatch, hh, hgated, hst, hact, hgrantee, hwrr, hnext, hline, bne_self_eq_false, Bool.or_self,
    Bool.false_eq_true, if_false]

end

/-! ### The start of an entry (R106, R107, R116) -/

/-- The round charges the entry to the queue whose burst goes on. -/
theorem Dev.wrrOf_wrrSpend {f n : Nat} (hcur : (d.wrrOf f).cur = some (q, n)) : (d.wrrSpend f q).wrrOf f =
    { d.wrrOf f with
      credit := Tbl.set 1 q ((d.wrrOf f).creditOf q - 1) (d.wrrOf f).credit, cur := some (q, n + 1), last := q } := by
  have hput (w : Wrr) : Dev.wrrOf { d with wq.wrr := Tbl.put f w d.wq.wrr } f = w := Tbl.get_put_self _ _ _ _
  simp only [Dev.wrrSpend, hput, hcur, if_true]

@[simp] theorem Dev.queue_wrrSpend (f p : Nat) : (d.wrrSpend f p).queue q = d.queue q := rfl

/-- Entry `e` leaves the descriptor cache, and the thread kept for it is released. -/
def Dev.takeEntry (d : Dev) (q e th : Nat) : Dev :=
  { d.release q th with wq.cache := Tbl.del (lineKey q e) (d.release q th).wq.cache }.updQueue q (fun x =>
    { x with push := x.push.filter (fun p => p.1 != e), fenced := none })

theorem Dev.redo_updQueue {g : Queue → Queue} (h : (g (d.queue q)).redo = (d.queue q).redo) :
    ((d.updQueue q g).queue q).redo = (d.queue q).redo := by rw [Dev.queue_updQueue_self, h]

theorem Dev.redo_release (th : Nat) : ((d.release q th).queue q).redo = (d.queue q).redo :=
  Dev.redo_updQueue (d := d) (g := fun x => { x with fetch := none }) rfl

theorem Dev.redo_takeEntry (e th : Nat) : ((d.takeEntry q e th).queue q).redo = (d.queue q).redo :=
  (Dev.redo_updQueue rfl).trans (Dev.redo_release th)

/-- Entry `e`, read as `v`, runs. -/
def Dev.countEntry (d : Dev) (q e v : Nat) : Dev :=
  (d.updEnt q e (fun _ => { notify := bitsOf v 36 1 == 1 })).updQueue q (fun x => { x with running := x.running + 1 })

@[simp] theorem Dev.qDisp_countEntry (e v : Nat) : (d.countEntry q e v).qDisp q = d.qDisp q := rfl

/-- Thread `th` begins the activation of the entry, for function `f`. -/
def Dev.beginEntry (d : Dev) (f q e th v : Nat) : Dev :=
  (((d.updThr th (fun t =>
    { t.begin_ f (d.rd F.WQ_CTX_CFG_ASID q) (d.isPf f) (mkCmdPc 1) with
      queue := q, cmd := true, seq := e
      slots := (List.range (bitsOf v 32 3)).map (fun k => BitVec.ofNat 64 (bitsOf v (64 * (k + 1)) 64)) })).ev 1 0 none
    (some f)).ev 0 11 (some (clusterOf th)) (some f)).wrrEnd f

@[simp] theorem Dev.qDisp_beginEntry (f e th v : Nat) : (d.beginEntry f q e th v).qDisp q = d.qDisp q := by
  simp only [Dev.beginEntry, Dev.qDisp_wrrEnd, Dev.qDisp_ev]
  rfl

theorem Dev.thr_beginEntry (f e th v : Nat) : (d.beginEntry f q e th v).thr th =
    { (d.thr th).begin_ f (d.rd F.WQ_CTX_CFG_ASID q) (d.isPf f) (mkCmdPc 1) with
      queue := q, cmd := true, seq := e
      slots := (List.range (bitsOf v 32 3)).map (fun k => BitVec.ofNat 64 (bitsOf v (64 * (k + 1)) 64)) } := by
  simp only [Dev.beginEntry, Dev.thr_wrrEnd, Dev.thr_ev, Dev.thr_updThr_self]

/-- A well-formed entry starts: one that RESUME runs again leaves DISP, and another moves it on. -/
theorem Dev.startEntry_wellFormed {e th v : Nat} (hv : malformed v e = false) : d.startEntry q e th v =
    ((if (((d.takeEntry q e th).wrrSpend (d.qFn q) q).queue q).redo = some e then
        ((d.takeEntry q e th).wrrSpend (d.qFn q) q).updQueue q (fun x => { x with redo := none })
      else ((d.takeEntry q e th).wrrSpend (d.qFn q) q).wr F.WQ_CTX_DISP_SEQ_DISP q (e + 1)).countEntry q e v).beginEntry
      (d.qFn q) q e th v := by
  unfold Dev.startEntry
  rw [hv, if_neg Bool.false_ne_true]
  rfl

theorem Dev.startEntry_next {e th v : Nat} (hv : malformed v e = false) (hredo : (d.queue q).redo ≠ some e) :
    d.startEntry q e th v = ((((d.takeEntry q e th).wrrSpend (d.qFn q) q).wr F.WQ_CTX_DISP_SEQ_DISP q (e + 1)).countEntry
      q e v).beginEntry (d.qFn q) q e th v := by
  rw [Dev.startEntry_wellFormed hv, Dev.queue_wrrSpend, Dev.redo_takeEntry, if_neg hredo]

/-! ### The entry of a fetch (R108, R144) -/

theorem Dev.entryAt_held {e th fn a va v : Nat} (hheld : d.held q e = some v) : d.entryAt q e th fn a va =
    if d.mustWait q e v then (d.release q th).wrrEnd (d.qFn q) else d.startEntry q e th v := by
  simp only [Dev.entryAt, hheld]

theorem Dev.fetchDone_starts {x : Dev} {tag th v e : Nat} {r : HostRd}
    (hfind : d.findRead (.wqFetch q) = some tag ∧ (d.queue q).fetch = some th)
    (htake : d.takeRead tag 64 (.ok v false) = (x, some r)) (hnext : x.qNext q = some e) (hst : x.qst q = qsRun)
    (hnew : (x.queue q).fetchOld = false) (hgo : x.mustWait q e v = false) :
    d.fetchDone q (.ok v false) = x.startEntry q e th v := by
  obtain ⟨hread, hfetch⟩ := hfind
  simp only [Dev.fetchDone, hread, hfetch, htake, hnext, hst, hnew, hgo, Cpl.good, Option.isNone_some, bne_self_eq_false,
    Bool.or_self, Bool.false_eq_true, if_false]

/-! ### Prefetch (R108) -/

section
variable {e n : Nat}

theorem Dev.preOk_true (hst : d.halted = false ∧ (d.qst q = qsRun ∨ d.qst q = qsHold) ∧ 0 < n ∧ n ≤ 4)
    (hmost : seqSub e (d.qDisp q) + n ≤ min (min (d.rd F.WQ_CTX_CFG_PREFETCH q) 16) (seqSub (d.qProd q) (d.qDisp q)))
    (hring : e % d.qSize q + n ≤ d.qSize q) (hroom : d.wq.cache.length + n ≤ 16384)
    (hnone : (List.range n).any (fun i => (d.held q (e + i)).isSome) = false) : d.preOk q e n = true := by
  obtain ⟨hh, hst, hpos, hfour⟩ := hst
  have hgoes : (d.qst q == qsRun || d.qst q == qsHold) = true := by simpa using hst
  simp only [Dev.preOk, hh, hgoes, hpos.ne', hnone, Nat.not_lt.mpr hfour, Nat.not_lt.mpr hmost, Nat.not_lt.mpr hring,
    Nat.not_lt.mpr hroom, decide_false, Bool.or_self, Bool.not_true, Bool.not_false]

/-- A prefetch in a ring of physical addresses, which its gate lets through, is one read. -/
theorem Dev.prefetch_reads (hpage : n ≤ 64 - e % 64) (hok : d.preOk q e n = true) (hphys : d.flag F.WQ_CTX_RING_PHYS q = true)
    (hgate : d.gateFail (18 + d.qFn q / 256) 1 (some (d.qFn q)) (d.ringAddr q e) (64 * n) 1 = none) :
    d.prefetch q e n = (d.hostRead (d.qFn q) (d.ringAddr q e) (64 * n) (.wqPre q e n)).1 := by
  simp only [Dev.prefetch, Nat.min_eq_left hpage, hok, hphys, hgate, Option.isSome_none, Bool.not_true, Bool.false_eq_true,
    if_true, if_false]

/-- The lines of a read that came whole come in one by one. -/
theorem Dev.prefetchDone_good {x : Dev} {tag v : Nat} {r : HostRd} (hfind : d.findPre q e = some (tag, n))
    (htake : d.takeRead tag (64 * n) (.ok v false) = (x, some r)) : d.prefetchDone q e (.ok v false) =
      (List.range n).foldl (fun d i => d.cacheLine q ((e + i) % 2 ^ 32) (bitsOf v (512 * i) 512)) x := by
  simp only [Dev.prefetchDone, hfind, htake, Option.isNone_some, Bool.false_eq_true, if_false, Cpl.good]

theorem Dev.prefetchDone_one {x : Dev} {tag v : Nat} {r : HostRd} (hfind : d.findPre q e = some (tag, 1))
    (htake : d.takeRead tag 64 (.ok v false) = (x, some r)) :
    d.prefetchDone q e (.ok v false) = x.cacheLine q (e % 2 ^ 32) (bitsOf v 0 512) := by
  rw [Dev.prefetchDone_good hfind (by rw [Nat.mul_one, htake]), List.range_one, List.foldl_cons, List.foldl_nil, Nat.add_zero,
    Nat.mul_zero]

theorem Dev.held_cacheLine {v : Nat} (hnew : seqSub e (d.qDisp q) < seqSub (d.qProd q) (d.qDisp q))
    (hroom : d.wq.cache.length < 16384) (hnone : d.held q e = none) : (d.cacheLine q e v).held q e = some v := by
  have hcomes : (decide (seqSub e (d.qDisp q) < seqSub (d.qProd q) (d.qDisp q)) && decide (d.wq.cache.length < 16384) &&
      (d.held q e).isNone) = true := by
    simp only [hnew, hroom, hnone, decide_true, Option.isNone_none, Bool.and_self]
  rw [Dev.cacheLine, if_pos hcomes]
  exact Tbl.find_put_self _ _ _

end

theorem Dev.recordWrite_due {t : Nat} (hh : d.halted = false) (hdue : (d.queue q).recDue = some t) :
    d.recordWrite q = (d.advanceTo t).qWriteDue q := by
  simp only [Dev.recordWrite, hdue, hh, Bool.false_eq_true, if_false]

/-- A command that ends a read: what it sets free goes on. -/
theorem next_read {s : State} {d e : Dev} (h : d = e) :
    (.next (s.on (Dev.goes d.invPoll)) : Host.Outcome State Fault Refusal) = .next (s.on (Dev.goes e.invPoll)) := by rw [h]

/-- Settles O15: each command comes to the operation that its lemma above names; the thread on which an entry starts takes
its fields from the entry. -/
theorem queueDispatch : Obligations.QueueDispatch := by
  unfold Obligations.QueueDispatch
  refine ⟨?held, ?prefetched, ?fetch, ?entryAt, ?spend, ?fetchDone, ?start, ?prefetch, ?prefetchDone, ?line, ?record⟩
  case held =>
    rintro s fn th q e v w d hfree hpick ⟨hnext, hheld, hhand⟩ rfl
    exact next_rma hfree.1 ((Dev.dispatch_held hfree hpick hnext hheld).trans (if_pos hhand))
  case prefetched =>
    rintro s fn th q e v w d hfree hpick ⟨hnext, hheld, hhand⟩ rfl
    exact next_rma hfree.1 ((Dev.dispatch_held hfree hpick hnext hheld).trans (if_neg (Bool.not_eq_true _ ▸ hhand)))
  case fetch =>
    rintro s fn th q e w d hfree hpick ⟨hnext, hheld⟩ rfl
    exact next_rma hfree.1 (Dev.dispatch_fetches hfree hpick hnext hheld)
  case entryAt => exact fun d q e th fn a va v hheld => Dev.entryAt_held hheld
  case spend =>
    rintro d f q n ⟨hbegun, hcur⟩
    rw [Dev.wrrOf_wrrSpend hcur]
    refine ⟨?_, rfl, rfl⟩
    rw [Wrr.creditOf, if_pos hbegun, Tbl.get_set_self]
  case fetchDone =>
    exact fun s q tag th v e d r hfind ⟨htake, hnext, hst⟩ ⟨hnew, hgo⟩ =>
      next_read (Dev.fetchDone_starts hfind htake hnext hst hnew hgo)
  case start =>
    rintro d q e th v ⟨hv, hredo⟩
    rw [Dev.startEntry_next hv hredo, Dev.thr_beginEntry, Dev.qDisp_beginEntry, Dev.qDisp_countEntry]
    exact ⟨rfl, rfl, rfl, rfl, rfl, Dev.rd_wr_self _ _ _ _ (by decide)⟩
  case prefetch =>
    rintro s q seq n ⟨hh, hst, hpos, hfour, hpage⟩ hmost ⟨hring, hroom⟩ hnone ⟨hphys, hgate⟩
    exact next_on (Dev.prefetch_reads hpage (Dev.preOk_true ⟨hh, hst, hpos, hfour⟩ hmost hring hroom hnone) hphys hgate)
  case prefetchDone => exact fun s q seq v tag r d hfind htake => next_read (Dev.prefetchDone_one hfind htake)
  case line => exact fun d q e v ⟨hnew, hroom, hnone⟩ => Dev.held_cacheLine hnew hroom hnone
  case record => exact fun s q t ⟨hh, hdue⟩ => next_on (Dev.recordWrite_due hh hdue)

end Sys2Proof.Machine
end

section
/-! SUPPORT. Walks and their reads, the look for the next table, leaves and ageing (R127 to R136, R144). -/

namespace Sys2Proof.Machine

/-- A command that acts on a device that is not halted. -/
theorem next_live {s : State} {d e : Dev} (hh : s.dev.halted = false) (h : d = e) :
    (.next (s.on (if s.dev.halted then s.dev else d)) : Host.Outcome State Fault Refusal) = .next (s.on e) := by
  rw [hh, h]
  rfl

variable {d : Dev}

/-! ### The end of a walk (R128 to R132, R143) -/

/-- Walk `id` leaves the walks in progress. -/
abbrev Dev.dropWalk (d : Dev) (id : Nat) : Dev := { d with xlt.walks := Tbl.del id d.xlt.walks }

/-- The access that waited for walk `w` goes on with the walk's result `x`, its reads join the invalidations that made the walk
partial, and the next table may be sought. -/
def Dev.endWalk (d : Dev) (w : Walk) (x : XRes) : Dev :=
  let e := (d.resume w.req w.work w.owner x).invJoin w.partialOf d.nextTag
  (if w.partialOf.isEmpty then e else e.renewAll).tableAhead w x

theorem Dev.walkDone_ends {e : Dev} {id : Nat} {cpl : Cpl} {w : Walk} {x : XRes} (h : d.walkStep id cpl = (e, some (w, x))) :
    d.walkDone id cpl = (e.endWalk w x).walksGo (e.endWalk w x).xlt.walks.length := by
  simp only [Dev.walkDone, h]
  rfl

theorem Dev.walkDone_goesOn {e : Dev} {id : Nat} {cpl : Cpl} (h : d.walkStep id cpl = (e, none)) : d.walkDone id cpl = e := by
  simp only [Dev.walkDone, h]

/-- A walk for a table has no access that waits for it. -/
theorem Dev.resume_table {r : XReq} {owner : Nat} {x : XRes} (hx : x ≠ .fault) : d.resume r .table owner x = d := if_neg hx

section
variable {f : Dev} {id tag e : Nat} {w : Walk} {r : HostRd}
  (hread : Tbl.find d.xlt.walks id = some w ∧ w.tag = some tag ∧ d.takeRead tag 8 (.ok e false) = (f, some r))
include hread

theorem Dev.walkStep_invalid (he : e % 2 = 0) :
    d.walkStep id (.ok e false) = (f.dropWalk id, some (w, .fault)) := by
  obtain ⟨hw, htag, htake⟩ := hread
  simp only [Dev.walkStep, hw, htag, htake, Cpl.good, he, if_true]

/-- A leaf whose rights and page state let the access through is filled in. -/
theorem Dev.walkStep_leaf {l : Leaf} {g : Dev} {a : Nat} (he : e % 2 ≠ 0 ∧ bitsOf e 1 1 ≠ 0)
    (hleaf : leafOf w.req.asid w.req.va w.level (e % 2 ^ 64) f.ps = some l)
    (hok : (f.dropWalk id).judgeLeaf w.req l w.spec = (g, .ok a)) (hcluster : w.req.cluster = none) (hwork : w.work ≠ .table)
    (hbar : (f.dropWalk id).barred w l.va (2 ^ l.bits) = false) :
    d.walkStep id (.ok e false) = (g.fillL2 w.req l, some (w, .ok a)) := by
  obtain ⟨hw, htag, htake⟩ := hread
  obtain ⟨hvalid, htable⟩ := he
  simp only [Dev.walkStep, hw, htag, htake, Cpl.good, hvalid, htable, hwork, hleaf, hok, hbar, hcluster, Bool.false_eq_true,
    if_false]

/-- A table that a speculative walk finds above its target leads down, and is not kept. -/
theorem Dev.walkStep_table {n : Nat} {g : Dev} (he : e % 2 ≠ 0 ∧ bitsOf e 1 1 = 0) (hlevel : w.level = n + 1)
    (hspec : w.spec = true) (hwork : w.work ≠ .table)
    (hgo : f.walkRead id { w with level := n, table := bitsOf e 12 52 * 2 ^ 12, tag := none } = (g, .wait)) :
    d.walkStep id (.ok e false) = (g, none) := by
  obtain ⟨hw, htag, htake⟩ := hread
  obtain ⟨hvalid, htable⟩ := he
  rw [hspec] at hgo
  simp only [Dev.walkStep, hw, htag, htake, Cpl.good, hvalid, htable, hwork, hspec, hlevel, Nat.add_one_ne_zero,
    Nat.add_one_sub_one, hgo, decide_false, Bool.false_and, Bool.false_eq_true, if_false, if_true]

/-- The table that a walk ahead was for joins the walk cache. -/
theorem Dev.walkStep_ahead (he : e % 2 ≠ 0 ∧ bitsOf e 1 1 = 0) (hlevel : w.level = 1) (hwork : w.work = .table) :
    d.walkStep id (.ok e false) = ((f.dropWalk id).tableEntry w 0 (bitsOf e 12 52 * 2 ^ 12), some (w, .ok 0)) := by
  obtain ⟨hw, htag, htake⟩ := hread
  obtain ⟨hvalid, htable⟩ := he
  simp only [Dev.walkStep, hw, htag, htake, Cpl.good, hvalid, htable, hwork, hlevel, Nat.one_ne_zero, Nat.sub_self,
    decide_true, Bool.and_self, if_false, if_true]

end

/-! ### The table ahead (R144) -/

theorem Dev.tableAhead_fault (w : Walk) : d.tableAhead w .fault = d := rfl

/-- After a walk that gave an address the table ahead is left alone, or it is absent and a walk for it begins. -/
theorem Dev.tableAhead_cases {e : Dev} {w : Walk} {r : XReq} {a : Nat}
    (h : e = (d.pick 2).2 ∧ r = { w.req with va := (w.req.va / 2 ^ 21 + 1) * 2 ^ 21 }) : d.tableAhead w (.ok a) = e ∨
      (w.spec = false ∧ r.va < 2 ^ 57 ∧ e.walking < 64 ∧
        (∀ x, e.xlt.wc.contains x = true → x.asid = r.asid → x.level = 0 → x.pre ≠ vaPrefix r.va 0) ∧
        d.tableAhead w (.ok a) = if (e.startWalk r .table true w.owner).2 = .fault
          then (e.startWalk r .table true w.owner).1.ev 2 5 else (e.startWalk r .table true w.owner).1) := by
  obtain ⟨he, rfl⟩ := h
  unfold Dev.tableAhead
  dsimp only
  rw [← he]
  split
  case isTrue => exact .inl rfl
  case isFalse hgo =>
    simp only [Bool.or_eq_true, decide_eq_true_eq, not_or, not_le, List.any_eq_true, Bool.not_eq_true] at hgo
    obtain ⟨⟨⟨⟨-, hspec⟩, hva⟩, hroom⟩, hnone⟩ := hgo
    refine .inr ⟨hspec, hva, hroom, ?_, ?_⟩
    · intro x hx hasid hlevel hpre
      exact hnone ⟨x, List.contains_iff_mem.mp hx, by simp [hasid, hlevel, hpre]⟩
    · rcases e.startWalk _ .table true w.owner with ⟨f, x⟩
      cases x <;> rfl

/-! ### Leaves (R129) -/

/-- The leaf of a page without PS64 and without CONT. -/
theorem leafOf_page {asid va e now : Nat} (he : e < 2 ^ 64) (hps : bitsOf e 10 1 = 0) (hcont : bitsOf e 9 1 = 0) :
    leafOf asid va 0 e now = some
      { asid := asid, va := va / 2 ^ 12 * 2 ^ 12, bits := 12
        out := e / 2 ^ 12 * 2 ^ 12, flags := bitsOf e 2 7, hit := now } := by
  have hfits : e / 2 ^ 12 * 2 ^ 12 < 2 ^ 64 := (Nat.div_mul_le_self _ _).trans_lt he
  simpa [leafOf, hps, hcont] using hfits

/-! ### Ageing (R136) -/

theorem Dev.ageRelease_leaf {asid va : Nat} {e : Leaf} (hlimit : d.rd F.XLT_CFG_AGE_LIMIT ≠ 0)
    (hold : oldestBy (fun x => x.2.hit) (d.l2Leaves asid va) = some (none, e)) :
    d.ageRelease asid va false = { d.advanceTo (e.hit + d.ageLimit) with xlt.l2 := d.xlt.l2.erase e } := by
  simp only [Dev.ageRelease, hlimit, hold, Bool.false_eq_true, if_false]

theorem Dev.ageRelease_table {asid va : Nat} {e : WalkEnt} (hlimit : d.rd F.XLT_CFG_AGE_LIMIT ≠ 0)
    (hold : oldestBy WalkEnt.hit (d.xlt.wc.filter (fun x => x.asid == asid && x.pre == vaPrefix va x.level)) = some e) :
    d.ageRelease asid va true = { d.advanceTo (e.hit + d.ageLimit) with xlt.wc := d.xlt.wc.erase e } := by
  simp only [Dev.ageRelease, hlimit, hold, if_false, if_true]

/-- Settles O16: a walk's step by the entry that its read brought, and what its end sets going; the table ahead, the leaf of a
page and the release of an old entry are the lemmas above. -/
theorem translationWalks : Obligations.TranslationWalks := by
  unfold Obligations.TranslationWalks
  refine ⟨?leaf, ?invalid, ?table, ?ahead, ?tableAhead, ?page, ?oldLeaf, ?oldTable⟩
  case leaf =>
    intro s id w tag e a d d1 r l hread ⟨hvalid, hkind, hleaf⟩ ⟨hok, hcluster, hwork⟩ hbar
    exact ⟨_, rfl, next_read (Dev.walkDone_ends (Dev.walkStep_leaf hread ⟨hvalid, hkind⟩ hleaf hok hcluster hwork hbar))⟩
  case invalid =>
    exact fun s id w tag e d r hread he => ⟨_, rfl, next_read (Dev.walkDone_ends (Dev.walkStep_invalid hread he))⟩
  case table =>
    intro s id w tag e n d d1 r hread ⟨hvalid, hkind, hlevel, hspec, hwork⟩ hgo
    exact next_read (Dev.walkDone_goesOn (Dev.walkStep_table hread ⟨hvalid, hkind⟩ hlevel hspec hwork hgo))
  case ahead =>
    rintro s id w tag e d _ r hread ⟨hvalid, hkind, hlevel, -, hwork, hwhole⟩ rfl
    have hend (x : Dev) : x.endWalk w (.ok 0) = x.tableAhead w (.ok 0) := by
      simp only [Dev.endWalk, hwork, hwhole, Dev.resume_table (x := .ok 0) nofun, Dev.invJoin, List.foldl_nil, List.isEmpty_nil,
        if_true]
    refine next_read ((Dev.walkDone_ends (Dev.walkStep_ahead hread ⟨hvalid, hkind⟩ hlevel hwork)).trans ?_)
    rw [hend]
  case tableAhead => exact fun d e w r h => ⟨Dev.tableAhead_fault w, fun a => Dev.tableAhead_cases h⟩
  case page =>
    rintro asid va e now _ ⟨he, hps, hcont, rfl⟩ -
    exact leafOf_page he hps hcont
  case oldLeaf => exact fun s asid va e ⟨hh, hlimit⟩ hold => next_live hh (Dev.ageRelease_leaf hlimit hold)
  case oldTable => exact fun s asid va e ⟨hh, hlimit⟩ hold => next_live hh (Dev.ageRelease_table hlimit hold)

end Sys2Proof.Machine
end

section
/-! SUPPORT. Invalidations: their tickets, what they clear, their flush reads and their completion (R141 to R143, R599). -/

namespace Sys2Proof.Machine

variable {d : Dev} {p : Nat}

/-! ### The caches (R141) -/

theorem Dev.invalidate_issued (kind asid size : Nat) (walk : Bool) :
    (d.invalidate p kind asid size walk).rd F.XLT_INV_STAT_ISSUED p = (d.rd F.XLT_INV_STAT_ISSUED p + 1) % 2 ^ 32 :=
  calc (d.invalidate p kind asid size walk).rd F.XLT_INV_STAT_ISSUED p
    _ = (d.wr F.XLT_INV_STAT_ISSUED p ((d.rd F.XLT_INV_STAT_ISSUED p + 1) % 2 ^ 32)).rd F.XLT_INV_STAT_ISSUED p :=
      Dev.rd_congr rfl _ _
    _ = (d.rd F.XLT_INV_STAT_ISSUED p + 1) % 2 ^ 32 % 2 ^ 32 := Dev.rd_wr_self _ _ _ _ (by decide)
    _ = (d.rd F.XLT_INV_STAT_ISSUED p + 1) % 2 ^ 32 := Nat.mod_mod _ _

/-- What a table of lists holds under a key is in one of its lists. -/
theorem Tbl.mem_of_mem_get {α : Type} {t : Tbl (List α)} {c : Nat} {e : α} (h : e ∈ Tbl.get t [] c) : ∃ l, (c, l) ∈ t ∧ e ∈ l := by
  cases hfind : Tbl.find t c with
  | none => simp [Tbl.get, hfind] at h
  | some l => exact ⟨l, Tbl.find_mem _ _ _ hfind, by simpa [Tbl.get, hfind] using h⟩

/-- A table of lists with what `keep` refuses taken out of each. -/
def Tbl.keep {α : Type} (keep : α → Bool) (t : Tbl (List α)) : Tbl (List α) :=
  (t.map (fun x => (x.1, x.2.filter keep))).filter (fun x => !x.2.isEmpty)

theorem Tbl.not_mem_get_keep {α : Type} {keep : α → Bool} {e : α} (h : keep e = false) (t : Tbl (List α)) (c : Nat) :
    e ∉ Tbl.get (Tbl.keep keep t) [] c := by
  intro hmem
  obtain ⟨l, hl, he⟩ := Tbl.mem_of_mem_get hmem
  obtain ⟨x, -, hx⟩ := List.mem_map.mp (List.mem_of_mem_filter hl)
  obtain ⟨-, rfl⟩ := Prod.mk.inj hx
  exact Bool.false_ne_true (h.symm.trans (List.mem_filter.mp he).2)

/-- Leaf `e` is outside invalidation `v`. -/
def Inval.spares (v : Inval) (e : Leaf) : Bool := !v.hits e.asid e.va (2 ^ e.bits)

theorem Dev.clearCaches_l2 (v : Inval) : (d.clearCaches v).xlt.l2 = d.xlt.l2.filter v.spares := rfl
theorem Dev.clearCaches_l1d (v : Inval) : (d.clearCaches v).xlt.l1d = Tbl.keep v.spares d.xlt.l1d := rfl
theorem Dev.clearCaches_l1i (v : Inval) : (d.clearCaches v).xlt.l1i = Tbl.keep v.spares d.xlt.l1i := rfl

/-- The caches of leaves hold no leaf within an invalidation that has cleared them. -/
theorem Dev.not_mem_clearCaches {v : Inval} {e : Leaf} (h : v.hits e.asid e.va (2 ^ e.bits) = true) :
    e ∉ (d.clearCaches v).xlt.l2 ∧ (∀ c, e ∉ Tbl.get (d.clearCaches v).xlt.l1d [] c) ∧
      ∀ c, e ∉ Tbl.get (d.clearCaches v).xlt.l1i [] c := by
  have hout : v.spares e = false := by rw [Inval.spares, h, Bool.not_true]
  rw [Dev.clearCaches_l2, Dev.clearCaches_l1d, Dev.clearCaches_l1i]
  refine ⟨fun hmem => ?_, Tbl.not_mem_get_keep hout _, Tbl.not_mem_get_keep hout _⟩
  exact Bool.false_ne_true (hout.symm.trans (List.mem_filter.mp hmem).2)

/-! ### Flush reads (R142, R143, R599) -/

/-- The invalidation of ticket `t` on port `p` becomes `g` of it, and what has completed retires. -/
def Dev.updInval (d : Dev) (p t : Nat) (g : Inval → Inval) : Dev :=
  let e := d.setInvals p ((d.invals p).map (fun x => if x.ticket = t then g x else x))
  e.invRetire p (e.invals p).length

section
variable {v : Inval} (hnext : (d.invals p).find? (fun x => !x.issued) = some v)
include hnext

/-- An invalidation waits for an atomic that has read its word. -/
theorem Dev.invFlush_waits (h : v.older.any d.amoReads = true) : d.invFlush p = d := by
  simp only [Dev.invFlush, hnext, h, Bool.or_true, if_true]

variable (hidle : d.xlt.walks.any (fun e => e.2.partialOf.contains (p, v.ticket)) = false ∧ v.older.any d.amoReads = false)
  (hone : d.bifurcated p = false)
include hidle hone

/-- Without a posted write ahead no flush read goes out. -/
theorem Dev.invFlush_none (hpost : d.flushAny (p * 2 + 0) = none) :
    d.invFlush p = d.updInval p v.ticket (fun x => { x with issued := true, reads := [] }) := by
  obtain ⟨hwalks, hamo⟩ := hidle
  simp only [Dev.invFlush, hnext, hwalks, hamo, hone, hpost, List.foldl_cons, List.foldl_nil, Bool.or_self, Bool.false_eq_true,
    if_false]
  rfl

theorem Dev.invFlush_reads {f a t : Nat} {e : Dev} (hpost : d.flushAny (p * 2 + 0) = some (f, a))
    (hread : d.hostRead f a 0 (.flushInv p v.ticket 0) = (e, some t)) :
    d.invFlush p = e.updInval p v.ticket (fun x => { x with issued := true, reads := [t] }) := by
  obtain ⟨hwalks, hamo⟩ := hidle
  simp only [Dev.invFlush, hnext, hwalks, hamo, hone, hpost, hread, List.foldl_cons, List.foldl_nil, Bool.or_self,
    Bool.false_eq_true, if_false, List.nil_append]
  rfl

end

theorem Dev.invDone_found {link tag t : Nat} {cpl : Cpl} (h : d.findFlush p link = some (tag, t)) :
    d.invDone p link cpl = (d.takeRead tag 0 cpl).1.updInval p t (fun x => { x with reads := x.reads.erase tag }) := by
  simp only [Dev.invDone, h]
  rfl

/-- The oldest invalidation retires once nothing it waits for is left. -/
theorem Dev.invRetire_done {n : Nat} {v : Inval} {l : List Inval} (hfirst : d.invals p = v :: l)
    (hdone : v.issued = true ∧ v.reads = [] ∧ v.older.any (Tbl.has d.reads) = false) :
    d.invRetire p (n + 1) = (((d.wr F.XLT_INV_STAT_DONE p v.ticket).setInvals p l).ev 2 8).invRetire p n := by
  obtain ⟨hissued, hreads, holder⟩ := hdone
  simp only [Dev.invRetire, hfirst, hissued, hreads, holder, List.isEmpty_nil, Bool.not_false, Bool.and_self, if_true]

/-- Settles O17: a ticket is what the register reads after its write; a cleared cache is one filtered by the range; each command
is its equation above. -/
theorem translationInvalidation : Obligations.TranslationInvalidation := by
  unfold Obligations.TranslationInvalidation
  refine ⟨?accept, ?ticket, ?clear, ?flushNone, ?flushWaits, ?flushRead, ?done, ?retire⟩
  case accept =>
    exact fun s p asid size walk hh => ⟨next_live hh rfl, next_live hh rfl, next_live hh rfl, rfl⟩
  case ticket => exact fun d p kind asid size walk => Dev.invalidate_issued kind asid size walk
  case clear => exact fun d v e h => Dev.not_mem_clearCaches h
  case flushNone =>
    exact fun s p v ⟨hh, hnext⟩ hidle ⟨hone, hpost⟩ => next_live hh (Dev.invFlush_none hnext hidle hone hpost)
  case flushWaits => exact fun s p v ⟨hh, hnext⟩ hamo => next_live hh (Dev.invFlush_waits hnext hamo)
  case flushRead =>
    exact fun s p v f a t d ⟨hh, hnext⟩ hidle ⟨hone, hpost⟩ hread =>
      next_live hh (Dev.invFlush_reads hnext hidle hone hpost hread)
  case done => exact fun s p link cpl tag t h => next_on (Dev.invDone_found h)
  case retire => exact fun d p n v l ⟨hfirst, hdone⟩ => Dev.invRetire_done hfirst hdone

end Sys2Proof.Machine
end

section
/-! SUPPORT. Commands of windows: opening, revoking, and the drain, the flush and the end of a revoke (R145 to R156). -/

namespace Sys2Proof.Machine

variable {d : Dev} {f : Nat}

/-! ### Opening (R145, R151 to R153) -/

theorem Dev.winOpen_idle (hh : d.halted = false) (hb : d.flag F.WIN_FN_RESULT_BUSY f = false) : d.winOpen f =
    Dev.winResult { d with win.busy := Tbl.put f ((d.reg R.WIN_FN_ARG0 f).toNat, (d.reg R.WIN_FN_ARG1 f).toNat,
      (d.reg R.WIN_FN_ARG2 f).toNat) d.win.busy } f 1 0 0 := by
  simp only [Dev.winOpen, hh, hb, Bool.false_eq_true, if_false]

theorem Dev.winOpen_busy (hh : d.halted = false) (hb : d.flag F.WIN_FN_RESULT_BUSY f = true) : d.winOpen f = d.winBusy f := by
  simp only [Dev.winOpen, hh, hb, Bool.false_eq_true, if_false, if_true]

/-- The command in progress of function `f` is over. -/
abbrev Dev.dropOpen (d : Dev) (f : Nat) : Dev :=
  { d with win.busy := Tbl.del f d.win.busy, win.revokeOnOpen := Tbl.del f d.win.revokeOnOpen }

/-- The checks of an open read nothing of the command in progress. -/
theorem Dev.openCheck_busy (t : Tbl (Nat × Nat × Nat)) (base n a : Nat) :
    Dev.openCheck { d with win.busy := t } f base n a = d.openCheck f base n a := rfl

section
variable {base a1 a2 : Nat} (hbusy : Tbl.find d.win.busy f = some (base, a1, a2))
include hbusy

theorem Dev.winOpenDone_fails (hcheck : d.openCheck f base (a1 % 2 ^ 48) a2 ≠ 0) :
    d.winOpenDone f = (d.dropOpen f).winResult f 0 (d.openCheck f base (a1 % 2 ^ 48) a2) 0 := by
  simp only [Dev.winOpenDone, hbusy, Dev.openCheck_busy, bne_iff_ne, ne_eq, hcheck, not_false_eq_true, if_true]

/-- An open that passes its checks takes an index and its next generation. -/
theorem Dev.winOpenDone_opens {e : Dev} {idx : Nat} (hcheck : d.openCheck f base (a1 % 2 ^ 48) a2 = 0)
    (hlate : Tbl.get d.win.revokeOnOpen false f = false) (htake : (d.dropOpen f).takeIndex = (e, idx)) :
    d.winOpenDone f = ((e.setWin idx
      { state := .opened, gen := (e.win_ idx).gen % 4095 + 1, base := base, len := a1 % 2 ^ 48 + 1, phys := bitsOf a2 23 1 == 1,
        asid := bitsOf a2 0 16, owner := f, rights := bitsOf a2 16 5, peerMode := bitsOf a2 21 2
        peer := bitsOf a2 24 28 }).winResult f 0 0 (idx * 4096 + ((e.win_ idx).gen % 4095 + 1))).ev 3 0 none (some f) := by
  simp only [Dev.winOpenDone, hbusy, Dev.openCheck_busy, hcheck, hlate, htake, bne_self_eq_false, Bool.false_eq_true, if_false]

end

/-! ### Revoking (R154) -/

theorem Dev.winRevoke_busy (hh : d.halted = false) (hb : d.flag F.WIN_FN_RESULT_BUSY f = true) (h : Nat) :
    d.winRevoke f h = d.winBusy f := by
  simp only [Dev.winRevoke, hh, hb, Bool.false_eq_true, if_false, if_true]

section
variable {h : Nat} (hh : d.halted = false) (hb : d.flag F.WIN_FN_RESULT_BUSY f = false)
include hh hb

theorem Dev.winRevoke_dead (hlive : d.winLive h ≠ 0) : d.winRevoke f h = d.winResult f 0 (d.winLive h) 0 := by
  simp only [Dev.winRevoke, hh, hb, bne_iff_ne, ne_eq, hlive, not_false_eq_true, Bool.false_eq_true, if_false, if_true]

variable (hlive : d.winLive h = 0)
include hlive

theorem Dev.winRevoke_peer (howner : (d.winOf h).owner ≠ f) : d.winRevoke f h = d.winResult f 0 Status.WIN_PEER 0 := by
  simp only [Dev.winRevoke, hh, hb, hlive, bne_iff_ne, ne_eq, howner, not_true_eq_false, not_false_eq_true, Bool.false_eq_true,
    if_false, if_true]

theorem Dev.winRevoke_owner (howner : (d.winOf h).owner = f) :
    d.winRevoke f h = (d.revokeIdx (handleIdx h)).1.winResult f 0 0 (d.revokeIdx (handleIdx h)).2 := by
  simp only [Dev.winRevoke, hh, hb, hlive, howner, bne_self_eq_false, Bool.false_eq_true, if_false]

end

theorem Dev.wins_revokeIdx (i : Nat) :
    (d.revokeIdx i).1.win.wins = Tbl.set {} i { d.win_ i with state := .revoking } d.win.wins :=
  congrArg WinSt.wins (Dev.ev_win _ _ _ _ _ _)

theorem Dev.win_revokeIdx (i : Nat) : (d.revokeIdx i).1.win_ i = { d.win_ i with state := .revoking } := by
  rw [Dev.win_, Dev.wins_revokeIdx]
  exact Tbl.get_set_self _ _ _ _

/-! ### The drain, the flush and the end of a revoke (R155, R156) -/

section
variable {t : Nat} {r : Revoke} (hfind : (d.revokesOf f).find? (fun r => r.ticket == t) = some r)
include hfind

/-- At the drain limit every use that is still open is cancelled. -/
theorem Dev.drainLimit_cancels (hopen : r.done = false ∧ r.cancelled = false) : d.drainLimit f t =
    (((d.advanceTo (r.start + r.limit)).uses r.idx).foldl (fun d u => d.cancelUse r.idx u)
      (d.advanceTo (r.start + r.limit))).updRevoke f t (fun r => { r with cancelled := true }) := by
  obtain ⟨hdone, hcancelled⟩ := hopen
  simp only [Dev.drainLimit, hfind, hdone, hcancelled, Bool.or_self, Bool.false_eq_true, if_false]

section
variable (hnew : r.flushed = false ∧ r.flush = none) (hover : (d.uses r.idx).isEmpty = true)
include hnew hover

theorem Dev.revokeOver_none (haddr : d.flushAddr f = none) :
    d.revokeOver f t = d.updRevoke f t (fun r => { r with flushed := true }) := by
  obtain ⟨hflushed, hflush⟩ := hnew
  simp only [Dev.revokeOver, Dev.revokeFlush, hfind, hover, hflushed, hflush, haddr, Option.isSome_none, Bool.not_true,
    Bool.false_and, Bool.or_self, Bool.false_eq_true, if_false]

theorem Dev.revokeOver_reads {a tag : Nat} {e : Dev} (haddr : d.flushAddr f = some a)
    (hread : d.hostRead f a 0 (.flushRevoke f t) = (e, some tag)) :
    d.revokeOver f t = e.updRevoke f t (fun r => { r with flush := some tag }) := by
  obtain ⟨hflushed, hflush⟩ := hnew
  simp only [Dev.revokeOver, Dev.revokeFlush, hfind, hover, hflushed, hflush, haddr, hread, Option.isSome_none, Bool.not_true,
    Bool.false_and, Bool.or_self, Bool.false_eq_true, if_false]

end

/-- Window `r.idx` of a revoke is free again, and its index at the tail of the free list. -/
def Dev.freeRevoked (d : Dev) (f t : Nat) (r : Revoke) : Dev :=
  let e := d.setWin r.idx { gen := (d.win_ r.idx).gen }
  Dev.updRevoke { e with win.freed := e.win.freed ++ [r.idx] } f t
    (fun r => { r with done := true, flush := none, flushed := true })

theorem Dev.revokeFree_flushed (cpl : Cpl) (hdone : r.done = false) (hflush : r.flush = none ∧ r.flushed = true) :
    d.revokeFree f t cpl = (d.freeRevoked f t r).revokeRetire f ((d.freeRevoked f t r).revokesOf f).length := by
  obtain ⟨hnone, hflushed⟩ := hflush
  simp only [Dev.revokeFree, hfind, hdone, hnone, hflushed, Bool.not_true, Bool.false_eq_true, if_false]
  rfl

end

theorem Dev.revokeRetire_done {n : Nat} {r : Revoke} {l : List Revoke} (hfirst : d.revokesOf f = r :: l) (hdone : r.done = true) :
    d.revokeRetire f (n + 1) = ((d.wr F.WIN_FN_REVOKE_DONE f r.ticket).setRevokes f l).revokeRetire f n := by
  simp only [Dev.revokeRetire, hfirst, hdone, if_true]

/-- Settles O18: each command is its equation above; the window of a revoke reads what was written, and its ticket is the one that
the register gives. -/
theorem windowCommands : Obligations.WindowCommands := by
  unfold Obligations.WindowCommands
  refine ⟨?opens, ?busy, ?openDone, ?openFails, ?revoke, ?revokeIdx, ?dead, ?peer, ?limit, ?flushNone, ?flushRead,
    ?free, ?retire⟩
  case opens => exact fun s fn ⟨hh, hb⟩ => next_on (Dev.winOpen_idle hh hb)
  case busy => exact fun s fn handle ⟨hh, hb⟩ => ⟨next_on (Dev.winOpen_busy hh hb), next_on (Dev.winRevoke_busy hh hb _)⟩
  case openDone =>
    exact fun s fn base a1 a2 idx d ⟨hh, hbusy, hlate⟩ hcheck htake =>
      next_live hh (Dev.winOpenDone_opens hbusy hcheck hlate htake)
  case openFails =>
    exact fun s fn base a1 a2 ⟨hh, hbusy⟩ hcheck => next_live hh (Dev.winOpenDone_fails hbusy hcheck)
  case revoke => exact fun s fn handle ⟨hh, hb, hlive, howner⟩ => next_on (Dev.winRevoke_owner hh hb hlive howner)
  case revokeIdx => exact fun d i => ⟨congrArg Win.state (Dev.win_revokeIdx i), rfl⟩
  case dead => exact fun s fn handle ⟨hh, hb, hlive⟩ => next_on (Dev.winRevoke_dead hh hb hlive)
  case peer => exact fun s fn handle ⟨hh, hb, hlive, howner⟩ => next_on (Dev.winRevoke_peer hh hb hlive howner)
  case limit => exact fun s fn ticket r ⟨hh, hfind, hopen⟩ => next_rma hh (Dev.drainLimit_cancels hfind hopen)
  case flushNone =>
    exact fun s fn ticket r ⟨hh, hfind, hnew⟩ ⟨hover, haddr⟩ => next_live hh (Dev.revokeOver_none hfind hnew hover haddr)
  case flushRead =>
    exact fun s fn ticket r a t d ⟨hh, hfind, hnew⟩ ⟨hover, haddr, hread⟩ =>
      next_live hh (Dev.revokeOver_reads hfind hnew hover haddr hread)
  case free =>
    rintro s fn ticket cpl r _ ⟨hh, hfind, hdone, hflush⟩ rfl
    exact next_live hh (Dev.revokeFree_flushed hfind cpl hdone hflush)
  case retire => exact fun d f n r l ⟨hfirst, hdone⟩ => Dev.revokeRetire_done hfirst hdone

end Sys2Proof.Machine
end

section
/-! SUPPORT. Requests at the target: a first head cell, the checks of its window, the Cairn, and what each operation then does
(R158, R172 to R175, R185 to R196, R204). -/

namespace Sys2Proof.Machine

/-- A command on a cell whose contents call for it, on a device that is not halted. -/
theorem next_cell {s : State} {i : Instr} {ok : Dev → Bool} {f : Dev → Dev} {e : Dev} (hexec : exec i s = onCell s ok f)
    (hh : s.dev.halted = false) (hok : ok s.dev = true) (h : f s.dev = e) : exec i s = .next (s.on e.rmaGo) := by
  simp only [hexec, onCell, onRma, onDev, hh, hok, h, Bool.false_eq_true, if_false, if_true]

variable {d e : Dev} {c : Cell} {k : Dev → Dev}

/-! ### Steps 1 and 2 of R175 -/

section
variable (hnew : (d.seen c).rxOf c.key = none)
include hnew

/-- A first head cell whose context finds no room is answered busy (R174). -/
theorem Dev.rxHead_full (hroom : (d.seen c).rxRoom c.dstFn = false) (hud : c.op ≠ 5) : d.rxHead c k =
    (d.seen c).sendRsp c c.tstamp (rspPay 2 Status.RX_BUSY false false c.cmark c.msgId 0) := by
  simp only [Dev.rxHead, Dev.rxJoin, hnew, hroom, hud, Bool.not_false, Bool.not_true, Bool.false_eq_true, if_true, if_false]

variable (hroom : (d.seen c).rxRoom c.dstFn = true)
include hroom

theorem Dev.rxHead_off (hoff : (d.joined c).fnOn c.dstFn = false) (hud : c.op ≠ 5) :
    d.rxHead c k = ((d.joined c).refused c).rxClose c.key := by
  simp only [Dev.rxHead, Dev.rxJoin, hnew, hroom, hoff, hud, Bool.not_false, Bool.not_true, Bool.false_eq_true, if_true,
    if_false]

end

section
variable (hadmit : d.admitsHead c)
include hadmit

/-- An idempotent operation goes on to its own checks. -/
theorem Dev.rxHead_idempotent (hop : nonIdem c.op = false) : d.rxHead c k = k (d.joined c) := by
  obtain ⟨hnew, hroom, hon⟩ := hadmit
  simp only [Dev.rxHead, Dev.rxJoin, hnew, hroom, hon, hop, Bool.not_false, Bool.not_true, Bool.false_eq_true, if_true,
    if_false]

/-- An operation that is not idempotent meets the Cairn first (R186). -/
theorem Dev.rxHead_cairn (hop : nonIdem c.op = true) (hcairn : (d.joined c).cairnStep c = (e, true)) : d.rxHead c k = k e := by
  obtain ⟨hnew, hroom, hon⟩ := hadmit
  simp only [Dev.rxHead, Dev.rxJoin, hnew, hroom, hon, hop, hcairn, Bool.not_false, Bool.not_true, Bool.false_eq_true, if_true,
    if_false]

end

/-- A second copy of a head cell that its context holds goes no further where `headAgain` answers it. -/
theorem Dev.rxHead_again {x : Rx} (hctx : (d.seen c).rxOf c.key = some x) (hhead : x.head.isSome = true)
    (hon : (d.seen c).fnOn c.dstFn = true) (hstop : ((d.seen c).headAgain c).2 = false) :
    d.rxHead c k = ((d.seen c).headAgain c).1 := by
  simp only [Dev.rxHead, hctx, hhead, hon, hstop, Bool.not_false, Bool.not_true, Bool.false_eq_true, if_true, if_false]

/-! ### The Cairn (R185, R186) -/

theorem Dev.cairnLook_none {key : Nat} (hnone : Tbl.find d.rma.cairn key = none) : d.cairnLook key = (d, none) := by
  simp only [Dev.cairnLook, hnone]

theorem Dev.cairnLook_some {key : Nat} {x : Cairn} (hsome : Tbl.find d.rma.cairn key = some x) :
    d.cairnLook key = (if x.spilled then d.depWake.ev 11 0 else d, some x) := by
  simp only [Dev.cairnLook, hsome]

/-- A request without an entry makes one on-die, where there is room. -/
theorem Dev.cairnStep_makes (hnone : Tbl.find d.rma.cairn c.key = none) (hroom : d.cairnDie < 262144) : d.cairnStep c =
    ({ d with
        rma.cairn := Tbl.put c.key { msgId := c.msgId, born := d.ns, life := max 1000 (d.rd F.RMA_CAIRN_CFG_LIFE_US) }
          d.rma.cairn }, true) := by
  simp only [Dev.cairnStep, Dev.cairnLook_none hnone, Dev.cairnMake, hroom, if_true]

/-- The RELEASE of a request removes its entry (R188). -/
theorem Dev.rxRelease_found {x : Cairn} (hlook : (d.seen c).cairnLook c.key = (e, some x)) (hid : x.msgId = c.msgId) :
    d.rxRelease c = { e with rma.cairn := Tbl.del c.key e.rma.cairn } := by
  simp only [Dev.rxRelease, hlook, hid, if_true]

theorem Dev.rxRelease_none (hnone : Tbl.find (d.seen c).rma.cairn c.key = none) :
    d.rxRelease c = (d.seen c).ev 4 12 none (some c.dstFn) := by
  simp only [Dev.rxRelease, Dev.cairnLook_none hnone]

/-! ### Steps 3 and 4 of R175 -/

section
variable {right st : Nat}

theorem Dev.winUse_passes {h off len : Nat} {peer : Win → Bool} (hcheck : d.winCheck h peer right off len = 0) :
    d.winUse h peer right off len = (d.winLook h, 0) := by
  simp only [Dev.winUse, Dev.winFail, hcheck, if_true]

theorem Dev.winUse_fails {h off len : Nat} {peer : Win → Bool} (hcheck : d.winCheck h peer right off len = st)
    (hst : st ≠ 0) : d.winUse h peer right off len = ((d.winLook h).ev 3 4, st) := by
  simp only [Dev.winUse, Dev.winFail, hcheck, hst, if_false]

/-- The use that a request makes of its window, for the rights bit `right` (R148, R175). -/
abbrev Dev.reqUse (d : Dev) (c : Cell) (right : Nat) : Dev × Nat :=
  d.winUse c.rwin (remotePeer c.srcDev c.srcFn) right (if c.len = 0 then 0 else c.roff) c.len

theorem Dev.rxWindow_fails (huse : d.reqUse c right = (e, st)) (hst : st ≠ 0) :
    d.rxWindow c right k = e.nackErr c.key st := by
  simp only [Dev.rxWindow, huse, bne_iff_ne, ne_eq, hst, not_false_eq_true, if_true]

section
variable (huse : d.reqUse c right = (e, 0))
include huse

theorem Dev.rxWindow_room {x : Dev} (hroom : e.arrRoom c.key c = some x) : d.rxWindow c right k = k x := by
  simp only [Dev.rxWindow, huse, hroom, bne_self_eq_false, Bool.false_eq_true, if_false]

/-- A request whose arrival event finds no room is answered busy. -/
theorem Dev.rxWindow_busy (hroom : e.arrRoom c.key c = none) : d.rxWindow c right k =
    (e.evBusy (e.rd F.RMA_FN_ARR_SLOT c.dstFn) c.dstFn).nackBusy c.key Status.RX_BUSY := by
  simp only [Dev.rxWindow, huse, hroom, bne_self_eq_false, Bool.false_eq_true, if_false]

end

theorem Dev.rxWindow_passes (hpass : d.rxPasses c right e) : d.rxWindow c right k = k e :=
  Dev.rxWindow_room (Dev.winUse_passes hpass.1) hpass.2

end

/-! ### Puts and gets (R158, R190) -/

/-- A get begins: a job for its reads, while its context drops what else arrives. -/
abbrev Dev.getBegun (e : Dev) (c : Cell) : Dev :=
  Dev.updRx { e with nextTag := e.nextTag + 1, rma.gets := Tbl.put e.nextTag { cell := c, win := c.rwin } e.rma.gets } c.key
    (fun x => { x with place := .drop })

section
variable (hadmit : d.admitsHead c) (hop : nonIdem c.op = false)
include hadmit hop

theorem Dev.rxPut_passes (hpass : (d.joined c).rxPasses c rRW e) : d.rxPut c = e.rxPlace c.key (.win c.rwin c.roff c.len) :=
  (Dev.rxHead_idempotent hadmit hop).trans (Dev.rxWindow_passes hpass)

theorem Dev.rxPut_fails {st : Nat} (hst : st ≠ 0)
    (hcheck : (d.joined c).winCheck c.rwin (remotePeer c.srcDev c.srcFn) rRW (if c.len = 0 then 0 else c.roff) c.len = st) :
    d.rxPut c = (((d.joined c).winLook c.rwin).ev 3 4).nackErr c.key st :=
  (Dev.rxHead_idempotent hadmit hop).trans (Dev.rxWindow_fails (Dev.winUse_fails hcheck hst) hst)

theorem Dev.rxGet_passes {e1 : Dev} {n : Nat} (hpass : (d.joined c).rxPasses c rRR e)
    (hread : (e.getBegun c).winReadAll (.getSrc e.nextTag) c.rwin c.roff c.len = (e1, n, 0)) (hn : n ≠ 0) :
    d.rxGet c = { e1 with rma.gets := Tbl.upd e.nextTag (fun j => { j with reads := n }) e1.rma.gets } := by
  refine (Dev.rxHead_idempotent hadmit hop).trans ((Dev.rxWindow_passes hpass).trans ?_)
  simp only [hread, hn, bne_self_eq_false, Bool.false_eq_true, if_false]

/-! ### Datagrams and FLUSH (R195, R196, R204) -/

theorem Dev.rxUd_fits (hwin : (d.joined c).rd F.RMA_FN_UD_RING_WIN c.dstFn ≠ 0)
    (hfit : c.len + 64 ≤ 2 ^ (d.joined c).rd F.RMA_FN_UD_RING_LOG2_SIZE c.dstFn) :
    d.rxUd c = (d.joined c).rxProgress c.key := by
  refine (Dev.rxHead_idempotent hadmit hop).trans ?_
  simp only [hwin, Nat.not_lt.mpr hfit, decide_false, Bool.or_self, Bool.false_eq_true, if_false]

/-- A datagram for a function without a ring is dropped. -/
theorem Dev.rxUd_dropped (hwin : (d.joined c).rd F.RMA_FN_UD_RING_WIN c.dstFn = 0) :
    d.rxUd c = ((d.joined c).ev 4 19 none (some c.dstFn)).rxClose c.key := by
  refine (Dev.rxHead_idempotent hadmit hop).trans ?_
  simp only [hwin, decide_true, Bool.true_or, if_true]

end

section
variable {key r : Nat} {x : Rx} (hctx : d.rxOf key = some x)
include hctx

theorem Dev.flushRx_none (haddr : d.flushAddr x.fn = none) : d.flushRx key r = d.answer key 1 0 r true := by
  simp only [Dev.flushRx, hctx, haddr]

theorem Dev.flushRx_reads {a t : Nat} (haddr : d.flushAddr x.fn = some a)
    (hread : d.hostRead x.fn a 0 (.flushReq key) = (e, some t)) :
    d.flushRx key r = e.updRx key (fun x => { x with flushing := true }) := by
  simp only [Dev.flushRx, hctx, haddr, hread, Option.isSome_some, if_true]

end

/-! ### Atomics and sends (R192, R222, R234, R241) -/

/-- An atomic begins: a job for its word, while its context drops what else arrives. -/
abbrev Dev.amoBegun (e : Dev) (c : Cell) : Dev :=
  Dev.updRx { e with nextTag := e.nextTag + 1, rma.amos := Tbl.put e.nextTag { cell := c, win := c.rwin } e.rma.amos } c.key
    (fun x => { x with place := .drop })

/-- The address of the atomic's word is sought (R193). -/
abbrev Dev.amoSought (e : Dev) (c : Cell) : Dev × XRes :=
  (e.amoBegun c).winAddr c.rwin c.roff (amoSize (c.amoFn % 16)) .atomic (.accR (.amo e.nextTag) 0 (amoSize (c.amoFn % 16)))

section
variable (hadmit : d.admitsHead c) (hop : nonIdem c.op = true) (hcairn : (d.joined c).cairnStep c = (e, true))
include hadmit hop hcairn

section
variable {e1 : Dev} (hpass : e.rxPasses c rRA e1)
include hpass

theorem Dev.rxAmo_aligned (halign : (e1.winVa c.rwin c.roff % amoSize (c.amoFn % 16) != 0) = false) :
    d.rxAmo c = (e1.amoSought c).1.amoAddr e1.nextTag (e1.amoSought c).2 := by
  refine (Dev.rxHead_cairn hadmit hop hcairn).trans ((Dev.rxWindow_passes hpass).trans ?_)
  simp only [halign, Bool.false_eq_true, if_false]

theorem Dev.rxAmo_unaligned (halign : (e1.winVa c.rwin c.roff % amoSize (c.amoFn % 16) != 0) = true) :
    d.rxAmo c = e1.nackErr c.key Status.ATOMIC_ALIGN := by
  refine (Dev.rxHead_cairn hadmit hop hcairn).trans ((Dev.rxWindow_passes hpass).trans ?_)
  simp only [halign, if_true]

end

/-- A message of the matching unit takes its place in the order of its sender. -/
theorem Dev.rxSend_orders (hen : e.flag F.MTC_FN_CFG_EN c.dstFn = true) (hkind : c.mseq / 2 ^ 30 = 0)
    (heager : c.op = 3 → ¬ 16384 < c.len) (hrdv : c.op = 4 → c.last = true) : d.rxSend c = e.orderStep c := by
  have hshape : ((c.op = 3 && 16384 < c.len) || (c.op = 4 && !c.last)) = false := by
    simpa using ⟨fun h => Nat.not_lt.mp (heager h), hrdv⟩
  refine (Dev.rxHead_cairn hadmit hop hcairn).trans ?_
  simp only [hen, hkind, hshape, Bool.not_true, Nat.reduceLeDiff, decide_false, Bool.or_self, Bool.false_eq_true, if_false,
    Nat.zero_ne_one]

end

/-- Settles O19: a first head cell that is admitted goes on to the checks of its operation, and each clause is the equation of its
operation above. -/
theorem remoteRequests : Obligations.RemoteRequests := by
  unfold Obligations.RemoteRequests
  refine ⟨?put, ?putWindow, ?putFull, ?putOff, ?get, ?amo, ?amoF, ?amoUnaligned, ?cairnStep, ?send, ?sendRdv, ?ud, ?udDropped,
    ?flush, ?flushRx, ?release, ?cairnLook, ?releaseNone, ?reserved, ?again, ?window⟩
  case put =>
    exact fun s c e ⟨hh, hcell, hop⟩ hadmit hpass => next_cell (exec_rxPut c s) hh hcell (Dev.rxPut_passes hadmit hop hpass)
  case putWindow =>
    exact fun s c st ⟨hh, hcell, hop⟩ hadmit hcheck hst =>
      next_cell (exec_rxPut c s) hh hcell (Dev.rxPut_fails hadmit hop hst hcheck)
  case putFull =>
    exact fun s c ⟨hh, hcell, hput⟩ ⟨hnew, hroom⟩ => next_cell (exec_rxPut c s) hh hcell (Dev.rxHead_full hnew hroom (by omega))
  case putOff =>
    exact fun s c ⟨hh, hcell, hput⟩ ⟨hnew, hroom, hoff⟩ =>
      next_cell (exec_rxPut c s) hh hcell (Dev.rxHead_off hnew hroom hoff (by omega))
  case get =>
    exact fun s c e e1 n ⟨hh, hcell, hop⟩ hadmit hpass hread hn =>
      next_cell (exec_rxGet c s) hh hcell (Dev.rxGet_passes hadmit hop hpass hread hn)
  case amo =>
    exact fun s c e e1 ⟨hh, hop, hfn, hcell⟩ hadmit ⟨hcairn, hpass⟩ halign =>
      next_cell (exec_rxAmo c s) hh (Bool.and_eq_true_iff.mpr ⟨hcell, hfn⟩) (Dev.rxAmo_aligned hadmit hop hcairn hpass halign)
  case amoF =>
    exact fun s c e e1 ⟨hh, hop, hfn, hcell⟩ hadmit ⟨hcairn, hpass⟩ halign =>
      next_cell (exec_rxAmoF c s) hh (Bool.and_eq_true_iff.mpr ⟨hcell, hfn⟩) (Dev.rxAmo_aligned hadmit hop hcairn hpass halign)
  case amoUnaligned =>
    exact fun s c e e1 ⟨hh, hop, hfn, hcell⟩ hadmit ⟨hcairn, hpass⟩ halign =>
      next_cell (exec_rxAmo c s) hh (Bool.and_eq_true_iff.mpr ⟨hcell, hfn⟩) (Dev.rxAmo_unaligned hadmit hop hcairn hpass halign)
  case cairnStep => exact fun d c hnone hroom => Dev.cairnStep_makes hnone hroom
  case send =>
    exact fun s c e ⟨hh, hop, hcell, hlen, hsend⟩ hadmit ⟨hcairn, hen, hkind⟩ =>
      next_cell (exec_rxSend c s) hh hcell (Dev.rxSend_orders hadmit hop hcairn hen hkind (fun _ => hlen) (by simp [hsend]))
  case sendRdv =>
    exact fun s c e ⟨hh, hop, hcell, hlast, hrdv⟩ hadmit ⟨hcairn, hen, hkind⟩ =>
      next_cell (exec_rxSendRdv c s) hh hcell (Dev.rxSend_orders hadmit hop hcairn hen hkind (by simp [hrdv]) (fun _ => hlast))
  case ud =>
    exact fun s c ⟨hh, hcell, hop⟩ hadmit ⟨hwin, hfit⟩ => next_cell (exec_rxUd c s) hh hcell (Dev.rxUd_fits hadmit hop hwin hfit)
  case udDropped =>
    exact fun s c ⟨hh, hcell, hop⟩ hadmit hwin => next_cell (exec_rxUd c s) hh hcell (Dev.rxUd_dropped hadmit hop hwin)
  case flush => exact fun s c ⟨hh, hcell, hop⟩ hadmit => next_cell (exec_rxFlush c s) hh hcell (Dev.rxHead_idempotent hadmit hop)
  case flushRx =>
    exact fun d key r x hctx => ⟨Dev.flushRx_none hctx, fun a e t haddr hread => Dev.flushRx_reads hctx haddr hread⟩
  case release =>
    exact fun s c x d ⟨hh, hcell⟩ ⟨hlook, hid⟩ => next_cell (exec_rxRelease c s) hh hcell (Dev.rxRelease_found hlook hid)
  case cairnLook => exact fun d key e hsome => Dev.cairnLook_some hsome
  case releaseNone => exact fun s c ⟨hh, hcell, hnone⟩ => next_cell (exec_rxRelease c s) hh hcell (Dev.rxRelease_none hnone)
  case reserved =>
    exact fun s c ⟨hh, hcell⟩ hop => next_cell (exec_rxOpReserved c s) hh (Bool.and_eq_true_iff.mpr ⟨hcell, hop⟩) rfl
  case again => exact fun d c x k ⟨hctx, hhead, hon⟩ hstop => Dev.rxHead_again hctx hhead hon hstop
  case window =>
    rintro d c right k e st huse
    refine ⟨Dev.rxWindow_fails huse, ?_, ?_⟩
    · rintro x rfl hroom
      exact Dev.rxWindow_room huse hroom
    · rintro rfl hroom
      exact Dev.rxWindow_busy huse hroom

end Sys2Proof.Machine
end

section
/-! SUPPORT. The target's progress: data cells, responses, the reads of gets and atomics, and the ends of contexts and of Cairn
entries (R166, R172, R173, R176 to R178, R187, R190, R192, R193). -/

namespace Sys2Proof.Machine

variable {d e : Dev} {c : Cell} {key : Nat} {x : Rx}

/-! ### Data cells (R166, R172, R173) -/

/-- A cell none of whose writes waits is held nowhere (R134). -/
theorem Dev.rxHold_placed {idx n : Nat} (hctx : d.rxOf key = some x) (hnone : (d.rxWaits key).any (fun id => n ≤ id) = false) :
    d.rxHold key idx n = d := by
  simp only [Dev.rxHold, hctx, hnone, Bool.not_false, Bool.or_true, if_true]

section
variable (hjoin : (d.taken c).rxJoin c = some e) (hctx : e.rxOf c.key = some x)
include hjoin hctx

/-- A cell that has been counted before only leaves its mark. -/
theorem Dev.rxData_twice (hold : x.bitmap.testBit c.idx = true) :
    d.rxData c = (e.ev 4 7 none (some x.fn)).updRx c.key (fun x => { x with cmark := max x.cmark c.cmark }) := by
  simp only [Dev.rxData, hjoin, hctx, hold, Bool.true_or, if_true]

section
variable (hnew : x.bitmap.testBit c.idx = false)
include hnew

/-- A new cell of a message that is placed in a window. -/
theorem Dev.rxData_placed {e1 : Dev} {y : Rx} {w o l : Nat} (hplace : x.place = .win w o l)
    (hcount : x.head.isSome = true ∧ c.idx < x.count.getD 0)
    (hcell : (e.rxCount c.key c).placeCell c.key c.idx c.pay.toNat = e1) (hstays : e1.rxOf c.key = some y)
    (hnone : (e1.rxWaits c.key).any (fun id => e.nextTag ≤ id) = false) :
    d.rxData c = e1.rxProgress c.key := by
  obtain ⟨hhead, hidx⟩ := hcount
  simp only [Dev.rxData, hjoin, hctx, hnew, hhead, Nat.not_le.mpr hidx, hplace, Dev.rxPut_, hcell,
    Dev.rxHold_placed hstays hnone, decide_false, Bool.and_false, Bool.or_self, Bool.not_false, Bool.false_eq_true, if_false,
    if_true]

/-- A new cell that comes before its head is staged, where a buffer takes it. -/
theorem Dev.rxData_staged {e1 : Dev} (hplace : x.place = .none) (hhead : x.head = none)
    (hstage : e.rxStage c.key x = (e1, true)) : d.rxData c =
      ((e1.updRx c.key (fun x => { x with staged := Tbl.put c.idx c.pay.toNat x.staged })).rxCount c.key c).rxProgress c.key := by
  simp only [Dev.rxData, hjoin, hctx, hnew, hhead, hplace, hstage, Option.isSome_none, Bool.false_and, Bool.or_self,
    Bool.not_true, Bool.false_eq_true, if_false]

end

end

/-- A cell's bytes up to the message's end go to the window. -/
theorem Dev.placeCell_window {i data w o l k : Nat} (hctx : d.rxOf key = some x) (hplace : x.place = .win w o l)
    (hin : 64 * i < l)
    (hput : d.placeAt (.rx key) x.fn w (o + 64 * i) (min 64 (l - 64 * i)) (data % 2 ^ (8 * min 64 (l - 64 * i))) = (e, k, 0)) :
    d.placeCell key i data = e.updRx key (fun x => { x with writes := x.writes + k }) := by
  have hbytes : min 64 (l - 64 * i) ≠ 0 := by omega
  simp only [Dev.placeCell, hctx, hplace, hbytes, hput, bne_self_eq_false, Bool.false_eq_true, if_false]

/-! ### Responses (R177, R178) -/

section
variable (hctx : d.rxOf key = some x)
include hctx

theorem Dev.answer_nack {kind st r : Nat} {durable : Bool} (hhead : x.head = some c) (hkind : kind ≠ 1) :
    d.answer key kind st r durable =
      ((d.sendRsp c (x.stamp c) (rspPay kind st durable false x.cmark c.msgId r)).cairnDone c kind st r durable).rxClose key := by
  simp only [Dev.answer, hctx, hhead, hkind, if_false]

section
variable {k st r : Nat} (hhead : x.head = some c) (hidle : x.flushing = false) (hrecv : x.recv = none)
include hhead hidle hrecv

/-- The response to a request without DUR goes out. -/
theorem Dev.responseSend_plain (hresp : x.resp = some (k, st, r)) (hdur : c.dur = false) :
    d.responseSend key = d.answer key k st r false := by
  simp only [Dev.responseSend, hctx, hhead, hresp, hidle, hrecv, hdur, Bool.and_false, Bool.false_and, Bool.false_eq_true,
    if_false]

/-- The ACK of a request with DUR comes after a flush read of what was placed. -/
theorem Dev.responseSend_durable {w o l : Nat} (hresp : x.resp = some (1, st, r)) (hdur : c.dur = true)
    (hplace : x.place = .win w o l) : d.responseSend key = d.flushRx key r := by
  simp only [Dev.responseSend, hctx, hhead, hresp, hidle, hrecv, hdur, hplace, decide_true, Bool.and_self, Bool.not_false,
    Bool.false_eq_true, if_false, if_true]

end

end

theorem Dev.durDone_found {cpl : Cpl} {tag k st r : Nat} {h : HostRd} (hfind : d.findRead (.flushReq key) = some tag)
    (htake : d.takeRead tag 0 cpl = (e, some h)) (hctx : e.rxOf key = some x) (hresp : x.resp = some (k, st, r)) :
    d.durDone key cpl =
      if cpl = .err then e.answer key 3 Status.HOST_ERROR 0 false else e.answer key 1 0 r true := by
  simp only [Dev.durDone, hfind, htake, hctx, hresp]

/-! ### Gets and atomics (R190, R192, R193) -/

theorem Dev.ownRead_found {o : Own} {off tag n : Nat} {cpl : Cpl} {h : HostRd} (hfind : d.findOwn o off = some (tag, n))
    (htake : d.takeRead tag n cpl = (e, some h)) : d.ownRead o off cpl = (e.invPoll, some (n, cpl.good)) := by
  simp only [Dev.ownRead, hfind, htake, Option.isSome_some, if_true]

section
variable {s : State} {job tag n : Nat} {cpl : Cpl} {h : HostRd} (hh : s.dev.halted = false)
include hh

theorem execGetSourceReadDone_found {off : Nat} (hfind : s.dev.findOwn (.getSrc job) off = some (tag, n))
    (htake : s.dev.takeRead tag n cpl = (e, some h)) : execGetSourceReadDone job off cpl s =
      .next (s.on (e.invPoll.getRead job off n cpl.good Status.HOST_ERROR).rmaGo) := by
  simp only [execGetSourceReadDone, onRma, onDev, hh, Dev.ownRead_found hfind htake, Bool.false_eq_true, if_false]

theorem execAmoReadDone_found (hfind : s.dev.findOwn (.amo job) 0 = some (tag, n))
    (htake : s.dev.takeRead tag n cpl = (e, some h)) :
    execAmoReadDone job cpl s = .next (s.on (e.invPoll.amoRead job cpl.good).rmaGo) := by
  simp only [execAmoReadDone, onRma, onDev, hh, Dev.ownRead_found hfind htake, Bool.false_eq_true, if_false]

end

/-- The reply cells of a get, in index order. -/
abbrev Dev.replyCells (d : Dev) (j : GetJob) : List TxCell :=
  (List.range ((j.cell.len + 63) / 64)).map (fun i => d.rspCell j.cell i false (i + 1 = (j.cell.len + 63) / 64) j.cell.tstamp
    (bitsOf j.data (512 * i) 512))

theorem Dev.getReply_found {job : Nat} {j : GetJob} (hfind : Tbl.find d.rma.gets job = some j) : d.getReply job =
    (Dev.arrived { d with sch.rsp := d.sch.rsp ++ d.replyCells j } j.cell.key j.cell).rxClose j.cell.key := by
  simp only [Dev.getReply, hfind]

/-- The last read of a get's source brings the reply. -/
theorem Dev.getRead_last {job off n v st : Nat} {j : GetJob} (hfind : Tbl.find d.rma.gets job = some j) (hlast : j.reads = 1) :
    d.getRead job off n (some v) st = Dev.getReply { d with
      rma.gets := Tbl.put job { j with reads := 0, data := j.data + v % 2 ^ (8 * n) * 2 ^ (8 * off) } d.rma.gets } job := by
  simp only [Dev.getRead, hfind, hlast, Nat.sub_self, if_true]

/-- An atomic other than cas writes its word and answers, AMO_F with the old value. -/
theorem Dev.amoRead_writes {job v fn a : Nat} {j : AmoJob} (hfind : Tbl.find d.rma.amos job = some j)
    (haddr : j.addr = some (fn, a)) (hop : j.cell.amoFn / 16 ≠ 7)
    (hdel : e = { d with rma.amos := Tbl.del job d.rma.amos }) : d.amoRead job (some v) =
      Dev.amoRun ((((e.hostWrite fn a (amoBits (j.cell.amoFn % 16) / 8)
        (amoNew (j.cell.amoFn / 16) (j.cell.amoFn % 16) (v % 2 ^ amoBits (j.cell.amoFn % 16)) j.cell.a j.cell.b)).fnCount
          j.cell.dstFn 7 (amoBits (j.cell.amoFn % 16) / 8)).ready_ j.cell.key 1 0
            (if j.cell.op = 7 then v % 2 ^ amoBits (j.cell.amoFn % 16) else 0))) := by
  simp only [Dev.amoRead, hfind, haddr, hop, hdel, decide_false, Bool.false_and, Bool.false_eq_true, if_false]

/-! ### Ends of contexts and of entries (R176, R187) -/

theorem Dev.rxIdle_headless (hctx : d.rxOf key = some x) (hheld : x.held = false) (hresp : x.resp = none)
    (hhead : x.head = none) : d.rxIdle key =
      (((d.advanceTo (x.last + usPs (max 100 (d.rd F.RMA_CFG_RX_IDLE_US)))).ev 4 9 none (some x.fn)).rxEnd key).udRun x.fn := by
  cases hrecv : x.recv <;> simp only [Dev.rxIdle, hctx, hheld, hresp, hhead, hrecv, Bool.false_eq_true, if_false]

theorem Dev.cairnExpire_found {n : Cairn} (hfind : Tbl.find d.rma.cairn key = some n) : d.cairnExpire key =
    { d.advanceToNs (n.born + n.life * 1000) with rma.cairn := Tbl.del key d.rma.cairn } := by
  simp only [Dev.cairnExpire, hfind]

/-- Settles O20: each clause is the equation of its operation above; a completion that is found is one of its owner's reads. -/
theorem targetProgress : Obligations.TargetProgress := by
  unfold Obligations.TargetProgress
  refine ⟨?placed, ?staged, ?twice, ?placeCell, ?send, ?sendDurable, ?answer, ?flushed, ?getRead, ?getReply, ?amoRead, ?idle,
    ?expire⟩
  case placed =>
    exact fun s c d e x y w o l ⟨hh, hcell⟩ ⟨hjoin, hctx, hplace⟩ ⟨hnew, hcount⟩ ⟨hput, hstays, hnone⟩ =>
      next_cell (exec_rxDataCell c s) hh hcell (Dev.rxData_placed hjoin hctx hnew hplace hcount hput hstays hnone)
  case staged =>
    exact fun s c d d1 x ⟨hh, hcell⟩ ⟨hjoin, hctx, hplace, hstage⟩ ⟨hnew, hhead⟩ =>
      next_cell (exec_rxDataCell c s) hh hcell (Dev.rxData_staged hjoin hctx hnew hplace hhead hstage)
  case twice =>
    exact fun s c d x ⟨hh, hcell⟩ ⟨hjoin, hctx, hold⟩ =>
      next_cell (exec_rxDataCell c s) hh hcell (Dev.rxData_twice hjoin hctx hold)
  case placeCell =>
    exact fun d d1 key i data w o l k x ⟨hctx, hplace, hin⟩ hput => Dev.placeCell_window hctx hplace hin hput
  case send =>
    exact fun s src slot gen x c k st r ⟨hh, hctx, hhead, hresp, hidle⟩ ⟨hrecv, hdur⟩ =>
      next_rma hh (Dev.responseSend_plain hctx hhead hidle hrecv hresp hdur)
  case sendDurable =>
    exact fun s src slot gen x c st r w o l ⟨hh, hctx, hhead, hresp, hidle⟩ ⟨hrecv, hdur, hplace⟩ =>
      next_rma hh (Dev.responseSend_durable hctx hhead hidle hrecv hresp hdur hplace)
  case answer => exact fun d key kind st r durable x c ⟨hctx, hhead, hkind⟩ => Dev.answer_nack hctx hhead hkind
  case flushed =>
    exact fun s src slot gen cpl tag k st r d h x ⟨hh, hfind, htake⟩ ⟨hctx, hresp⟩ =>
      next_rma hh (Dev.durDone_found hfind htake hctx hresp)
  case getRead =>
    exact fun s job off n tag v d h j ⟨hh, hfind, htake⟩ ⟨hjob, hlast⟩ =>
      (execGetSourceReadDone_found hh hfind htake).trans
        (next_on (congrArg Dev.rmaGo (Dev.getRead_last hjob hlast)))
  case getReply => exact fun d job j hfind => Dev.getReply_found hfind
  case amoRead =>
    exact fun s job n tag v fn a d e h j ⟨hh, hfind, htake⟩ ⟨hjob, haddr, hop, hdel⟩ =>
      (execAmoReadDone_found hh hfind htake).trans
        (next_on (congrArg Dev.rmaGo (Dev.amoRead_writes hjob haddr hop hdel)))
  case idle =>
    exact fun s src slot gen x ⟨hh, hctx, hheld, hresp, hhead⟩ => next_rma hh (Dev.rxIdle_headless hctx hheld hresp hhead)
  case expire => exact fun s src slot gen x ⟨hh, hfind⟩ => next_rma hh (Dev.cairnExpire_found hfind)

end Sys2Proof.Machine
end

section
/-! SUPPORT. The sender's progress: get replies, responses, attempts, quiet slots, source reads and congestion control (R161, R168,
R171, R178 to R183, R191, R331, R336, R341, R342). -/

namespace Sys2Proof.Machine

variable {d e : Dev} {c : Cell} {i : Nat} {x : Slot}

/-! ### Get replies (R191) -/

section
variable (hslot : (d.taken c).slotOf c.slot = some x) (hget : x.op = 2) (hout : x.outstanding = true)
  (hgen : (d.taken c).slotGen c.slot = c.gen) (hok : x.fail = none)
include hget hout hgen hok

/-- A reply to a get that is out, in its slot's present use, is not stale. -/
theorem Dev.reply_answers :
    (x.op != 2 || !x.outstanding || (d.taken c).slotGen c.slot != c.gen || x.fail.isSome) = false := by
  simp only [hget, hout, hgen, hok, bne_self_eq_false, Option.isSome_none, Bool.not_true, Bool.or_self]

include hslot

theorem Dev.getReplyRx_twice (hold : x.bitmap.testBit c.idx = true) :
    d.getReplyRx c = (d.taken c).ev 4 7 none (some x.fn) := by
  simp only [Dev.getReplyRx, hslot, Dev.reply_answers hget hout hgen hok, hold, Bool.true_or, Bool.false_eq_true, if_false,
    if_true]

/-- A new cell, not the last one counted, is placed. -/
theorem Dev.getReplyRx_new {e1 : Dev} {k : Nat} (hnew : x.bitmap.testBit c.idx = false) (hidx : c.idx < (x.len + 63) / 64)
    (hmore : x.got + 1 ≠ (x.len + 63) / 64)
    (hcount : e = (d.taken c).putSlot c.slot
      { x with bitmap := x.bitmap ||| 2 ^ c.idx, got := x.got + 1, cmark := max x.cmark c.cmark })
    (hput : e.placeAt (.reply c.slot) x.fn x.lwin (x.loff + 64 * c.idx) (min 64 (x.len - 64 * c.idx))
      (c.pay.toNat % 2 ^ (8 * min 64 (x.len - 64 * c.idx))) = (e1, k, 0)) :
    d.getReplyRx c = (e1.updSlot c.slot (fun x => { x with writes := x.writes + k })).replyGo c.slot := by
  subst hcount
  simp only [Dev.getReplyRx, hslot, Dev.reply_answers hget hout hgen hok, hnew, Nat.not_le.mpr hidx, hmore, hput,
    bne_self_eq_false, decide_false, Bool.or_self, Bool.false_eq_true, if_false]

end

/-! ### Responses (R178, R179) -/

theorem Dev.response_stale (hslot : (d.taken c).slotOf c.slot = some x) (hgen : (d.taken c).slotGen c.slot ≠ c.gen) :
    d.response c = (d.taken c).ev 4 5 := by
  simp only [Dev.response, hslot, bne_iff_ne.mpr hgen, Bool.or_true, Bool.true_or, if_true]

section
variable (hout : x.outstanding = true) (hgen : (d.taken c).slotGen c.slot = c.gen) (hmsg : x.msgId = c.p 32 32)
  (hok : x.fail = none)
include hout hgen hmsg hok

/-- A response to a segment that is out, of a kind that answers its operation, is not stale. -/
theorem Dev.response_answers (hud : x.op ≠ 5) (hpos : 0 < c.p 0 8) (hle : c.p 0 8 ≤ 3) (hget : x.op = 2 → ¬ c.p 0 8 = 1) :
    (!x.outstanding || (d.taken c).slotGen c.slot != c.gen || x.msgId != c.p 32 32 || x.op = 5 || x.fail.isSome || c.p 0 8 = 0 ||
      3 < c.p 0 8 || (x.op = 2 && c.p 0 8 = 1)) = false := by
  simpa [hout, hgen, hmsg, hok, hud, hpos.ne', Nat.not_lt.mpr hle] using hget

variable (hslot : (d.taken c).slotOf c.slot = some x) (hdur : c.p 24 1 = 1)
include hslot hdur

/-- The durable ACK of a FLUSH of which no message is left to end. -/
theorem Dev.response_ack (hkind : c.p 0 8 = 1) (hflush : x.op = 8)
    (hnone : ((d.taken c).ev 4 2 none (some x.fn)).msgOf x.msg = none) :
    d.response c = ((d.taken c).ev 4 2 none (some x.fn)).segEnd c.slot x 0 true (c.p 128 64) := by
  have hanswers := Dev.response_answers hout hgen hmsg hok (by omega) (by omega) (by omega) (by omega)
  simp only [Dev.response, hslot, hanswers, Bool.false_eq_true, if_false]
  simp [hdur, hkind, hnone]

/-- A durable busy NACK is kept for the attempt that it answers (R181). -/
theorem Dev.response_busy (hkind : c.p 0 8 = 2) (hud : x.op ≠ 5) : d.response c =
    (((d.taken c).ev 4 3 none (some x.fn)).updSlot c.slot
      (fun x => { x with busy := if x.answers c.tstamp then some (c.p 8 16) else x.busy })).fnCount x.fn 8 := by
  have hanswers := Dev.response_answers hout hgen hmsg hok hud (by omega) (by omega) (by omega)
  simp only [Dev.response, hslot, hanswers, Bool.false_eq_true, if_false]
  simp [hdur, hkind]

end

/-! ### Attempts, quiet slots and reservations (R168, R171, R180 to R183, R190) -/

section
variable {st : Nat}

theorem Dev.attemptOver_again (h : x.attempt < d.retryLimit) : d.attemptOver i x st = d.retransmit i x := if_pos h

theorem Dev.attemptOver_fails (h : d.retryLimit ≤ x.attempt) :
    d.attemptOver i x st = d.updSlot i (fun s => { s with fail := some st }) := if_neg (Nat.not_lt.mpr h)

end

theorem Dev.find_freeSlot : Tbl.find (d.freeSlot i x).rma.slots i = none := Tbl.find_del_self i _

/-- The generation of a slot advances as the slot is freed, whether or not a RELEASE goes out. -/
theorem Dev.slotGen_freeSlot : (d.freeSlot i x).slotGen i = (d.slotGen i + 1) % 16 := by
  unfold Dev.freeSlot
  split <;> exact Tbl.get_set_self _ _ _ _

section
variable (hslot : d.slotOf i = some x)
include hslot

theorem Dev.retryTimeout_out {t : Nat} (hh : d.halted = false) (hsent : x.txAt = some t) (hud : x.op ≠ 5) (hout : x.st = .out) :
    d.retryTimeout i = (d.advanceTo (t + nsPs (retryInterval x.base x.attempt))).attemptOver i x
      (x.busy.getD Status.RETRY_EXHAUSTED) := by
  simp only [Dev.retryTimeout, hslot, hsent, hh, hud, hout, BEq.rfl, decide_false, Bool.true_or, Bool.not_true, Bool.or_self,
    Bool.false_eq_true, if_false]

theorem Dev.slotQuiet_frees (hh : d.halted = false) (hquiet : x.st = .quiet) :
    d.slotQuiet i = (d.advanceTo (d.quietEnd x)).freeSlot i x := by
  simp only [Dev.slotQuiet, hslot, hh, hquiet, bne_self_eq_false, Bool.or_self, Bool.false_eq_true, if_false]

theorem Dev.getReserve_thread (hheld : x.st = .hold) (hqueue : (d.msgOf x.msg).bind Msg.queue = none) :
    d.getReserve i = d.segStart i := by
  simp only [Dev.getReserve, hslot, hheld, hqueue, bne_self_eq_false, Bool.false_eq_true, if_false]

/-- The last read of a segment's source hands its cells over. -/
theorem Dev.srcRead_last {off n v : Nat} (hlast : x.reads ≤ 1) (hok : x.fail = none) : d.srcRead i off n (some v) =
    (d.putSlot i { x with reads := x.reads - 1, data := x.data + v % 2 ^ (8 * n) * 2 ^ (8 * off) }).segHand i := by
  simp only [Dev.srcRead, hslot, hlast, hok, Option.isNone_none, decide_true, Bool.and_self, if_true]

end

/-- A read of the source of a message that no queue issued (R444). -/
theorem execMsgReadDone_found {s : State} {slot : Sid} {off tag n : Nat} {cpl : Cpl} {h : HostRd} (hh : s.dev.halted = false)
    (hfind : s.dev.findOwn (.src slot.toNat) off = some (tag, n)) (htake : s.dev.takeRead tag n cpl = (e, some h))
    (hqueue : ((e.invPoll.slotOf slot.toNat).bind (fun x => e.invPoll.msgOf x.msg)).bind Msg.queue = none) :
    execMsgReadDone slot off cpl s = .next (s.on ((e.invPoll.ev 9 4).srcRead slot.toNat off n cpl.good).rmaGo) := by
  simp only [execMsgReadDone, onRma, onDev, hh, Dev.ownRead_found hfind htake, hqueue, Option.map_none, Bool.false_eq_true,
    if_false]

/-! ### Congestion control (R331, R336, R341, R342) -/

section
variable {dst : Nat} {n : CcEnt}

/-- The next waiting segment is charged and goes. -/
theorem Dev.ccAdmit_next (hent : (d.ccTouch dst).ccFind dst = some n) (hmay : (d.ccTouch dst).ccMay n = true)
    (hnext : (d.ccTouch dst).ccNext n = some (i, x)) : d.ccAdmit dst =
      ((((d.ccTouch dst).ccPut dst { n with
        waiting := n.waiting.erase i, charge := n.charge + x.charge, lastFn := x.fn }).updSlot i
          (fun x => { x with charged := true })).segGo i) := by
  simp only [Dev.ccAdmit, hent, hmay, hnext, Bool.not_true, Bool.false_eq_true, if_false]

/-- Without a re-probe the window itself is the limit. -/
theorem Dev.ccMay_iff (hnone : n.reprobe = none) : d.ccMay n = true ↔ n.charge * 256 < n.w := by
  simp only [Dev.ccMay, Dev.ccLimit, hnone, decide_eq_true_eq]

variable (hh : d.halted = false) (hent : d.ccFind dst = some n)
include hh hent

theorem Dev.ccIdle_releases (hcharge : n.charge = 0) (hwaiting : n.waiting = []) : d.ccIdle dst =
    { d.advanceTo (n.lastHit + msPs (max 1 (d.rd F.RMA_CC_BASE_DST_IDLE_MS))) with
      cc.ents := Tbl.del dst (d.advanceTo (n.lastHit + msPs (max 1 (d.rd F.RMA_CC_BASE_DST_IDLE_MS)))).cc.ents } := by
  simp only [Dev.ccIdle, hent, hh, hcharge, hwaiting, bne_self_eq_false, List.isEmpty_nil, Bool.not_true, Bool.or_self,
    Bool.false_eq_true, if_false]

theorem Dev.ccReprobeEnd_due {t : Nat} (hdue : n.reprobe = some t) :
    d.ccReprobeEnd dst = (d.advanceToNs t).ccUpd dst (fun e => { e with reprobe := none }) := by
  simp only [Dev.ccReprobeEnd, hent, hdue, hh, Bool.false_eq_true, if_false]

end

/-- Settles O21: each clause is the equation of its operation above; a freed slot reads as a table after a deletion and a write. -/
theorem senderProgress : Obligations.SenderProgress := by
  unfold Obligations.SenderProgress
  refine ⟨?reply, ?twice, ?ack, ?busy, ?stale, ?retry, ?attempt, ?quiet, ?freed, ?reserve, ?readDone, ?srcRead, ?ccAdmit, ?idle,
    ?reprobe, ?may⟩
  case reply =>
    exact fun s c x e e1 k ⟨hh, hcell⟩ ⟨hslot, hget, hout, hgen, hok⟩ ⟨hnew, hidx, hmore⟩ hcount hput =>
      next_cell (exec_rxGetReply c s) hh hcell
        (Dev.getReplyRx_new hslot hget hout hgen hok hnew hidx hmore hcount hput)
  case twice =>
    exact fun s c x ⟨hh, hcell⟩ ⟨hslot, hget, hout, hgen, hok⟩ hold =>
      next_cell (exec_rxGetReply c s) hh hcell (Dev.getReplyRx_twice hslot hget hout hgen hok hold)
  case ack =>
    exact fun s c x ⟨hh, hcell, hkind, hdur⟩ ⟨hslot, hout, hgen, hmsg, hflush, hok⟩ hnone =>
      next_cell (exec_rmaResponse c s) hh hcell (Dev.response_ack hout hgen hmsg hok hslot hdur hkind hflush hnone)
  case busy =>
    exact fun s c x ⟨hh, hcell, hkind, hdur⟩ ⟨hslot, hout, hgen, hmsg, hud, hok⟩ =>
      next_cell (exec_rmaResponse c s) hh hcell (Dev.response_busy hout hgen hmsg hok hslot hdur hkind hud)
  case stale =>
    exact fun s c x ⟨hh, hcell⟩ ⟨hslot, hgen⟩ =>
      next_cell (exec_rmaResponse c s) hh hcell (Dev.response_stale hslot hgen)
  case retry =>
    exact fun s slot x t ⟨hh, hslot, hsent, hud, hout⟩ => next_rma hh (Dev.retryTimeout_out hslot hh hsent hud hout)
  case attempt => exact fun d i st x => ⟨Dev.attemptOver_again, Dev.attemptOver_fails⟩
  case quiet => exact fun s slot x ⟨hh, hslot, hquiet⟩ => next_rma hh (Dev.slotQuiet_frees hslot hh hquiet)
  case freed => exact fun d i x => ⟨Dev.find_freeSlot, Dev.slotGen_freeSlot⟩
  case reserve =>
    exact fun s slot x ⟨hh, hslot, hheld, hqueue⟩ => next_rma hh (Dev.getReserve_thread hslot hheld hqueue)
  case readDone =>
    exact fun s slot off n tag v d h ⟨hh, hfind, htake⟩ hqueue => execMsgReadDone_found hh hfind htake hqueue
  case srcRead => exact fun d i off n v x ⟨hslot, hlast, hok⟩ => Dev.srcRead_last hslot hlast hok
  case ccAdmit =>
    exact fun s dev e i x ⟨hh, hent, hmay⟩ hnext => next_rma hh (Dev.ccAdmit_next hent hmay hnext)
  case idle =>
    exact fun s dev e ⟨hh, hent, hcharge, hwaiting⟩ => next_on (Dev.ccIdle_releases hh hent hcharge hwaiting)
  case reprobe => exact fun s dev e t ⟨hh, hent, hdue⟩ => next_on (Dev.ccReprobeEnd_due hh hent hdue)
  case may => exact fun d e hnone => Dev.ccMay_iff hnone

end Sys2Proof.Machine
end

section
/-! SUPPORT. What a message matches (R210), and the receive with the lowest PSN among those that match (R228). -/

namespace Sys2Proof.Machine

/-- A word has no bit outside a mask exactly where each of its bits is one of the mask. -/
theorem and_not_mask_eq_zero_iff {x m : Nat} (hm : m < 2 ^ 64) :
    x &&& (2 ^ 64 - 1 - m) = 0 ↔ ∀ i, i < 64 → x.testBit i = true → m.testBit i = true := by
  have hbit (i : Nat) : (x &&& (2 ^ 64 - 1 - m)).testBit i = (x.testBit i && (decide (i < 64) && !m.testBit i)) := by
    rw [Nat.testBit_and, Nat.sub_sub, Nat.add_comm 1 m, Nat.testBit_two_pow_sub_succ hm]
  constructor
  · intro hzero i hi hx
    have hout := hbit i
    simpa only [hzero, Nat.zero_testBit, hx, hi, decide_true, Bool.true_and, Bool.false_eq, Bool.not_eq_false'] using hout
  · intro hsub
    refine Nat.eq_of_testBit_eq fun i => ?_
    rw [hbit, Nat.zero_testBit]
    by_cases hi : i < 64
    · cases hx : x.testBit i with
      | false => rfl
      | true => simp only [hsub i hi hx, Bool.not_true, Bool.and_false]
    · simp only [hi, decide_false, Bool.false_and, Bool.and_false]

/-- R210: every bit that differs is ignored, and the source is any or the same. -/
theorem Recv.takes_iff {r : Recv} {src bits : Nat} (hignore : r.ignore < 2 ^ 64) : r.takes src bits = true ↔
    (∀ i, i < 64 → bits.testBit i ≠ r.bits.testBit i → r.ignore.testBit i = true) ∧ (r.any = true ∨ r.src = src) := by
  simp only [Recv.takes, Bool.and_eq_true, Bool.or_eq_true, beq_iff_eq, and_not_mask_eq_zero_iff hignore, Nat.testBit_xor,
    bne_iff_ne]

/-- The search keeps the first receive of least PSN among those that match. -/
theorem lowestPsn_eq_argmin (src bits : Nat) (l : List Recv) :
    lowestPsn src bits l = (l.filter (fun r => r.takes src bits)).argmin Recv.psn := by
  unfold lowestPsn List.argmin
  congr 1
  funext b r
  cases b <;> rfl

theorem lowestPsn_eq_some {src bits : Nat} {l : List Recv} {r : Recv} (h : lowestPsn src bits l = some r) :
    r ∈ l ∧ r.takes src bits = true ∧ ∀ x ∈ l, x.takes src bits = true → r.psn ≤ x.psn := by
  rw [lowestPsn_eq_argmin] at h
  obtain ⟨hmem, htakes⟩ := List.mem_filter.mp (List.argmin_mem h)
  exact ⟨hmem, htakes, fun x hx hxtakes => List.le_of_mem_argmin (List.mem_filter.mpr ⟨hx, hxtakes⟩) h⟩

theorem lowestPsn_eq_none_iff {src bits : Nat} {l : List Recv} :
    lowestPsn src bits l = none ↔ ∀ r ∈ l, r.takes src bits = false := by
  simp only [lowestPsn_eq_argmin, List.argmin_eq_none, List.filter_eq_nil_iff, Bool.not_eq_true]

/-- Settles O23: a posted receive takes by its two conditions, and the search is a least element of those that take. -/
theorem matchChoosesTheLowestPsn : Obligations.MatchChoosesTheLowestPsn := by
  unfold Obligations.MatchChoosesTheLowestPsn
  refine ⟨?takes, ?some, ?none⟩
  case takes => exact fun r src bits ⟨_, _, hignore⟩ => Recv.takes_iff hignore
  case some => exact fun src bits l r h => lowestPsn_eq_some h
  case none => exact fun src bits l => lowestPsn_eq_none_iff

end Sys2Proof.Machine
end

section
/-! SUPPORT. Messages taken as events, and the timed releases and the shutdown of a match domain (R221, R223, R226, R228, R235 to
R237, R246 to R248). -/

namespace Sys2Proof.Machine

variable {d : Dev} {f key : Nat} {c : Cell}

/-! ### A message is taken (R228, R247) -/

section
variable (hhead : (d.rxOf key).bind Rx.head = some c)
include hhead

theorem Dev.takeMsg_matched {r : Recv}
    (hlow : lowestPsn c.src c.mbits ((d.searchMsg c.dstFn c.src c.mbits).dom c.dstFn).posted = some r) :
    d.takeMsg key = (d.searchMsg c.dstFn c.src c.mbits).takeMatched key c r := by
  simp only [Dev.takeMsg, hhead, hlow]

theorem Dev.takeMsg_unexpected
    (hnone : lowestPsn c.src c.mbits ((d.searchMsg c.dstFn c.src c.mbits).dom c.dstFn).posted = none) :
    d.takeMsg key = (d.searchMsg c.dstFn c.src c.mbits).takeUnexpected key c := by
  simp only [Dev.takeMsg, hhead, hnone]

end

/-- An eager message whose arrival event finds no room is answered busy and not taken. -/
theorem Dev.takeMatched_busy (r : Recv) (hop : c.op = 3) (hev : d.flag F.MTC_FN_ARR_EV_EN c.dstFn = true)
    (hroom : d.evRoomFor (d.rd F.MTC_FN_ARR_SLOT c.dstFn) = none) : d.takeMatched key c r =
      ((d.evBusy (d.rd F.MTC_FN_ARR_SLOT c.dstFn) c.dstFn).nackBusy key Status.RX_BUSY, false) := by
  simp only [Dev.takeMatched, hop, hev, hroom, decide_true, Bool.and_self, if_true, Option.isNone_none]

/-! ### Timed releases (R221, R223, R226) -/

theorem Dev.holdTimeout_found {k : Nat} {o : Order} {h : Nat × Nat × Nat}
    (hfind : d.mtc.orders.find? (fun e => e.1 / 2 ^ 28 == f && e.2.held.any (fun h => h.2.1 == key)) = some (k, o))
    (hheld : o.held.find? (fun h => h.2.1 == key) = some h) : d.holdTimeout f key =
      (((d.advanceTo h.2.2).putOrder k { o with held := o.held.erase h, last := (d.advanceTo h.2.2).ps }).updRx key
        (fun x => { x with held := false })).nackBusy key Status.RX_BUSY := by
  simp only [Dev.holdTimeout, hfind, hheld]

theorem Dev.orderRelease_idle {k : Nat} {o : Order} (hfind : d.order k = some o) (hidle : o.held = []) :
    d.orderRelease k = { d.advanceTo (o.last + usPs (max 1000 (d.rd F.MTC_CFG_ORDER_IDLE_US))) with
      mtc.orders := Tbl.del k d.mtc.orders } := by
  simp only [Dev.orderRelease, hfind, hidle, List.isEmpty_nil, Bool.not_true, Bool.false_eq_true, if_false]

theorem Dev.streamRelease_idle {k : Nat} {x : Stream} (hfind : Tbl.find d.mtc.streams k = some x) (hidle : x.open_ = []) :
    d.streamRelease k = { d.advanceTo (x.last + usPs (max 1100 (d.rd F.MTC_CFG_SEND_IDLE_US))) with
      mtc.streams := Tbl.del k d.mtc.streams } := by
  simp only [Dev.streamRelease, hfind, hidle, List.isEmpty_nil, Bool.not_true, Bool.false_eq_true, if_false]

/-! ### The end of a copy (R237), room in the ring (R246) and shutdown (R248) -/

/-- The copy of an unexpected message ends once the receive that took it has no write left. -/
theorem Dev.uxCopied_ends {id rid : Nat} {u : UxMsg} {a : Active} (hfind : (d.dom f).ux.find? (fun u => u.id == id) = some u)
    (htaken : u.matched = some rid) (hstored : u.rx = none) (hactive : Tbl.find d.mtc.active rid = some a)
    (hwritten : a.writes = 0) : d.uxCopied f id =
      (((d.updDom f (fun m => { m with ux := m.ux.filter (fun x => x.id != id) })).disown (.uxCopy f id)).freeAll u.bufs 2
        id).recvDone rid a.status := by
  simp only [Dev.uxCopied, hfind, htaken, hstored, hactive, hwritten, bne_self_eq_false, Bool.false_eq_true, if_false]

theorem execRcqConsWrite_running {s : State} (fn : Fid) (v : BitVec 32) (hh : s.dev.halted = false) :
    execRcqConsWrite fn v s =
      .next (s.on (((s.dev.wr F.MTC_FN_RCQ_IDX_CONS fn v.toNat).rcqGo fn).mtcWake fn).rmaGo) := by
  simp only [execRcqConsWrite, onDev, Dev.rcqCons, hh, Bool.false_eq_true, if_false]

theorem Dev.mtcDisable_on (hon : d.flag F.MTC_FN_CFG_EN f = true) (hh : (d.wr F.MTC_FN_CFG_EN f 0).halted = false) :
    d.mtcDisable f = (((d.wr F.MTC_FN_CFG_EN f 0).mtcShutdown f).mtcWake f).rmaGo := by
  simp only [Dev.mtcDisable, hon, hh, Bool.not_true, Bool.or_self, Bool.false_eq_true, if_false]

/-- A shutdown ends in leaving only the order entries of other functions. -/
theorem Dev.mem_orders_mtcShutdown {e : Nat × Order} (h : e ∈ (d.mtcShutdown f).mtc.orders) : e.1 / 2 ^ 28 ≠ f :=
  bne_iff_ne.mp (List.mem_filter.mp h).2

theorem Dev.order_mtcShutdown {k : Nat} (h : (d.mtcShutdown f).order k ≠ none) : k / 2 ^ 28 ≠ f := by
  obtain ⟨o, ho⟩ := Option.ne_none_iff_exists'.mp h
  exact Dev.mem_orders_mtcShutdown (Tbl.find_mem k _ o ho)

/-- Settles O22: each clause is the equation of its operation above, and an order entry that a shutdown leaves is one of those
that its filter keeps. -/
theorem matchingTimers : Obligations.MatchingTimers := by
  unfold Obligations.MatchingTimers
  refine ⟨?take, ?busy, ?hold, ?order, ?stream, ?copied, ?ring, ?disable, ?shutdown⟩
  case take => exact fun d key c hhead => ⟨fun r => Dev.takeMsg_matched hhead, Dev.takeMsg_unexpected hhead⟩
  case busy => exact fun d key c r ⟨hop, hev, hroom⟩ => Dev.takeMatched_busy r hop hev hroom
  case hold => exact fun s fn src slot gen k o x hh hfind hheld => next_rma hh (Dev.holdTimeout_found hfind hheld)
  case order => exact fun s fn src o ⟨hh, hfind, hidle⟩ => next_rma hh (Dev.orderRelease_idle hfind hidle)
  case stream => exact fun s fn dst x ⟨hh, hfind, hidle⟩ => next_rma hh (Dev.streamRelease_idle hfind hidle)
  case copied =>
    rintro s fn id rid u a d ⟨hh, hfind, htaken, hstored⟩ ⟨hactive, hwritten⟩ rfl
    exact next_rma hh (congrArg (Dev.mtcWake · fn) (Dev.uxCopied_ends hfind htaken hstored hactive hwritten))
  case ring => exact fun s fn v hh => execRcqConsWrite_running fn v hh
  case disable => exact fun s fn ⟨hon, hh⟩ => next_on (Dev.mtcDisable_on hon hh)
  case shutdown => exact fun d f k h => Dev.order_mtcShutdown h

end Sys2Proof.Machine
end

section
/-! SUPPORT. The combinations of reproducible mode (R276, R279, R281): two's-complement fields, pass-1 records by their two
parts, and packed elements under a commutative and associative operation. -/

namespace Sys2Proof.Machine

/-! ### Two's-complement fields -/

theorem signed_eq_toInt (x : Nat) {w : Nat} (hw : 0 < w) : signed x w = (BitVec.ofNat w x).toInt := by
  have hhalf : 2 ^ w = 2 * 2 ^ (w - 1) := by rw [← pow_succ', Nat.sub_add_cancel hw]
  rw [signed, BitVec.toInt_eq_toNat_cond, BitVec.toNat_ofNat]
  split <;> split <;> omega

theorem unsigned_eq_toNat (z : Int) (w : Nat) : unsigned z w = (BitVec.ofInt w z).toNat :=
  (BitVec.toNat_ofInt z).symm

theorem unsigned_lt (z : Int) (w : Nat) : unsigned z w < 2 ^ w := by
  rw [unsigned_eq_toNat]
  exact BitVec.isLt _

theorem signed_bounds (x : Nat) {w : Nat} (hw : 0 < w) : -2 ^ (w - 1) ≤ signed x w ∧ signed x w < 2 ^ (w - 1) := by
  rw [signed_eq_toInt x hw]
  exact ⟨BitVec.le_toInt _, BitVec.toInt_lt⟩

/-- A value within the field's range reads back. -/
theorem signed_unsigned {z : Int} {w : Nat} (hw : 0 < w) (hlow : -2 ^ (w - 1) ≤ z) (hhigh : z < 2 ^ (w - 1)) :
    signed (unsigned z w) w = z := by
  rw [signed_eq_toInt _ hw, unsigned_eq_toNat, BitVec.ofNat_toNat, BitVec.setWidth_eq, BitVec.toInt_ofInt_eq_self hw hlow hhigh]

/-! ### Pass-1 records (R275, R276) -/

/-- The exponent of a record. -/
abbrev recExp (x : Nat) : Int := signed (x % 2 ^ 16) 16
/-- The flags of a record's eight elements. -/
abbrev recFlags (x : Nat) : Nat := bitsOf x 16 32

theorem recCombine_eq (x y : Nat) :
    recCombine x y = unsigned (max (recExp x) (recExp y)) 16 + (recFlags x ||| recFlags y) * 2 ^ 16 := rfl

theorem recExp_recCombine (x y : Nat) : recExp (recCombine x y) = max (recExp x) (recExp y) := by
  obtain ⟨hxlow, hxhigh⟩ := signed_bounds (x % 2 ^ 16) (w := 16) (by decide)
  obtain ⟨hylow, hyhigh⟩ := signed_bounds (y % 2 ^ 16) (w := 16) (by decide)
  rw [recExp, recCombine_eq, Nat.add_mul_mod_self_right, Nat.mod_eq_of_lt (unsigned_lt _ _)]
  exact signed_unsigned (by decide) (le_max_of_le_left hxlow) (max_lt hxhigh hyhigh)

theorem recFlags_recCombine (x y : Nat) : recFlags (recCombine x y) = recFlags x ||| recFlags y := by
  have hfit : recFlags x ||| recFlags y < 2 ^ 32 :=
    Nat.or_lt_two_pow (Nat.mod_lt _ (Nat.two_pow_pos 32)) (Nat.mod_lt _ (Nat.two_pow_pos 32))
  rw [recFlags, recCombine_eq, bitsOf, Nat.add_mul_div_right _ _ (Nat.two_pow_pos 16), Nat.div_eq_of_lt (unsigned_lt _ _),
    Nat.zero_add, Nat.mod_eq_of_lt hfit]

theorem recCombine_comm (x y : Nat) : recCombine x y = recCombine y x := by
  rw [recCombine_eq, recCombine_eq, max_comm, Nat.or_comm]

theorem recCombine_assoc (x y z : Nat) : recCombine (recCombine x y) z = recCombine x (recCombine y z) := by
  rw [recCombine_eq (recCombine x y), recCombine_eq x (recCombine y z), recExp_recCombine, recExp_recCombine,
    recFlags_recCombine, recFlags_recCombine, max_assoc, Nat.or_assoc]

/-! ### Packed elements (R265, R279) -/

section
variable {g : Nat → Nat → Nat} {w : Nat}

theorem packedOp_succ (x y n : Nat) : packedOp g w x y (n + 1) =
    g (x % 2 ^ w) (y % 2 ^ w) % 2 ^ w + packedOp g w (x / 2 ^ w) (y / 2 ^ w) n * 2 ^ w := rfl

theorem packedOp_succ_mod (x y n : Nat) :
    packedOp g w x y (n + 1) % 2 ^ w = g (x % 2 ^ w) (y % 2 ^ w) % 2 ^ w := by
  rw [packedOp_succ, Nat.add_mul_mod_self_right, Nat.mod_mod]

theorem packedOp_succ_div (x y n : Nat) :
    packedOp g w x y (n + 1) / 2 ^ w = packedOp g w (x / 2 ^ w) (y / 2 ^ w) n := by
  rw [packedOp_succ, Nat.add_mul_div_right _ _ (Nat.two_pow_pos w), Nat.div_eq_of_lt (Nat.mod_lt _ (Nat.two_pow_pos w)),
    Nat.zero_add]

theorem packedOp_comm (hcomm : ∀ p q, g p q = g q p) (x y n : Nat) : packedOp g w x y n = packedOp g w y x n := by
  induction n generalizing x y with
  | zero => rfl
  | succ n ih => rw [packedOp_succ, packedOp_succ, hcomm, ih]

/-- Elements of a packed result are cut to their width, so the operation need be associative only up to that. -/
theorem packedOp_assoc
    (hassoc : ∀ p q r, g (g p q % 2 ^ w) r % 2 ^ w = g p (g q r % 2 ^ w) % 2 ^ w) (x y z n : Nat) :
    packedOp g w (packedOp g w x y n) z n = packedOp g w x (packedOp g w y z n) n := by
  induction n generalizing x y z with
  | zero => rfl
  | succ n ih =>
    rw [packedOp_succ (packedOp g w x y (n + 1)), packedOp_succ x (packedOp g w y z (n + 1)), packedOp_succ_mod,
      packedOp_succ_mod, packedOp_succ_div, packedOp_succ_div, hassoc, ih]

end

/-- Sums modulo a power of two may be cut in between. -/
theorem add_assoc_mod_two_pow (w p q r : Nat) : ((p + q) % 2 ^ w + r) % 2 ^ w = (p + (q + r) % 2 ^ w) % 2 ^ w := by
  rw [Nat.mod_add_mod, Nat.add_mod_mod, Nat.add_assoc]

/-- Settles O26: a record is its exponent and its flags, which combine by the maximum and by or; a packed sum is one element
after the other, each a sum modulo a power of two. -/
theorem reproducibleCombination : Obligations.ReproducibleCombination := by
  unfold Obligations.ReproducibleCombination
  refine ⟨?recComm, ?recAssoc, ?sumComm, ?sumAssoc⟩
  case recComm => exact recCombine_comm
  case recAssoc => exact recCombine_assoc
  case sumComm => exact packedOp_comm Nat.add_comm
  case sumAssoc => exact packedOp_assoc (add_assoc_mod_two_pow 192)

end Sys2Proof.Machine
end

section
/-! SUPPORT. Phases of an epoch: cells kept, cells acknowledged again, vectors released and sent again, contributions read (R263,
R264, R266, R282 to R285). -/

namespace Sys2Proof.Machine

variable {d : Dev} {c : Cell} {n k : Nat} {x : ColCtx} {p : ColPeer}

/-! ### Phase cells (R263, R264, R282, R284) -/

section
variable {exp : Bool} (hactive : (d.taken c).cSt (c.slot % 4096) = cActive) (hctx : (d.taken c).ctxOf (c.slot % 4096) = x)
include hactive hctx

/-- A child's cell of the epoch that the up phases collect is kept and drives the context on. -/
theorem Dev.rxUp_new {y : ColCtx} {t : Tbl Nat} (hfrom : x.from_ c.srcDev = some (k + 1, p))
    (hgen : c.gen = (d.taken c).cUp (c.slot % 4096) % 16) (hpass : exp = true → x.twoPass = true)
    (hheard : y = x.heard (k + 1) (if exp then 2 else 0) ((d.taken c).cUp (c.slot % 4096)))
    (hold : t = if exp then y.expIn else y.upIn) (hidx : c.idx < if exp then x.expCells else x.upCells)
    (hnew : Tbl.has t (k * 4096 + c.idx) = false) {u : Tbl Nat} (hput : u = Tbl.put (k * 4096 + c.idx) c.pay.toNat t) {e : Dev}
    (hkept : e = ((d.taken c).putCtx (c.slot % 4096) y).putCtx (c.slot % 4096)
      (if exp then { y with expIn := u } else { y with upIn := u })) :
    d.rxUp c exp = (if kidCount u k = if exp then x.expCells else x.upCells then
      e.colAck (c.slot % 4096) p 4 ((d.taken c).cUp (c.slot % 4096)) exp c.tstamp else e).colGo (c.slot % 4096) := by
  have hphase : (exp && !x.twoPass) = false := by cases exp <;> simp [hpass]
  subst hkept hput hold hheard
  simp only [Dev.rxUp, hctx, hfrom, hactive, hphase, hgen, hnew, Nat.not_le.mpr hidx, bne_self_eq_false, decide_false,
    Bool.or_self, Bool.false_eq_true, if_false, if_true]

/-- A cell of the epoch before finds its phase over: the acknowledgement is sent again. -/
theorem Dev.rxUp_again (hfrom : x.from_ c.srcDev = some (k + 1, p)) (hpass : exp = true → x.twoPass = true)
    (hup : (d.taken c).cUp (c.slot % 4096) ≠ 0) (hgen : c.gen = ((d.taken c).cUp (c.slot % 4096) - 1) % 16)
    (hbefore : c.gen ≠ (d.taken c).cUp (c.slot % 4096) % 16) : d.rxUp c exp =
      ((d.taken c).colAck (c.slot % 4096) p 4 ((d.taken c).cUp (c.slot % 4096) - 1) exp c.tstamp).ev 6 2 := by
  have hphase : (exp && !x.twoPass) = false := by cases exp <;> simp [hpass]
  simp only [Dev.rxUp, hctx, hfrom, hactive, hphase, hbefore, ← hgen, bne_self_eq_false, bne_iff_ne.mpr hup, decide_true,
    Bool.or_self, Bool.and_self, Bool.false_eq_true, if_false, if_true]

/-- The parent's cell of the open epoch is kept, goes on to the children, and drives the context on; of a result it is placed. -/
theorem Dev.rxDown_new {y : ColCtx} {t : Tbl Nat} (hfrom : x.from_ c.srcDev = some (0, p))
    (hgen : c.gen = (d.taken c).cEpoch (c.slot % 4096) % 16) (hpass : exp = true → x.twoPass = true)
    (hheard : y = x.heard 0 (if exp then 3 else 1) ((d.taken c).cEpoch (c.slot % 4096)))
    (hold : t = if exp then y.expAll else y.down) (hidx : c.idx < if exp then x.expCells else x.downCells)
    (hnew : Tbl.has t c.idx = false) {u : Tbl Nat} (hput : u = Tbl.put c.idx c.pay.toNat t) {e f : Dev}
    (hkept : e = ((d.taken c).putCtx (c.slot % 4096) y).putCtx (c.slot % 4096)
      (if exp then { y with expAll := u } else { y with down := u }))
    (hsent : f = (if u.length = if exp then x.expCells else x.downCells then
        e.colAck (c.slot % 4096) p 5 ((d.taken c).cEpoch (c.slot % 4096)) exp c.tstamp else e).colSendDown (c.slot % 4096)
      (if exp then 3 else 1) ((d.taken c).cEpoch (c.slot % 4096)) (if exp then x.expCells else x.downCells) c.idx c.pay.toNat) :
    d.rxDown c exp = (if exp then f else f.colPlace (c.slot % 4096) c.idx c.pay.toNat).colGo (c.slot % 4096) := by
  have hphase : (exp && !x.twoPass) = false := by cases exp <;> simp [hpass]
  subst hsent hkept hput hold hheard
  simp only [Dev.rxDown, hctx, hfrom, hactive, hphase, hgen, hnew, Nat.not_le.mpr hidx, bne_self_eq_false, decide_false,
    Bool.or_self, Bool.false_eq_true, if_false, if_true]

end

/-! ### Acknowledgements (R283, R285, R333) -/

/-- The acknowledgement of a data phase releases its vector; one that comes late gives no sample. -/
theorem Dev.rxAck_releases {up : Bool} {v : SentVec} {e : Dev} (hctx : (d.taken c).ctxOf (c.slot % 4096) = x)
    (hfrom : x.from_ c.srcDev = some (k, p)) (hside : (k == 0) = up) (hdata : c.p 32 1 = 0)
    (hfind : x.sent.find? (fun v => v.peer == k && v.kind == (if up then 0 else 1) && v.epoch % 2 ^ 32 == c.p 0 32 &&
      v.cells.length == v.total) = some v)
    (hreleased : e = (d.taken c).putCtx (c.slot % 4096) { x with sent := x.sent.erase v }) (hlate : v.first + 262144 ≤ e.ns) :
    d.rxAck c up = e := by
  have hplain : (c.p 32 1 == 1) = false := by simp [hdata]
  subst hreleased
  simp only [Dev.rxAck, hctx, hfrom, hside, hplain, hfind, Nat.not_lt.mpr hlate, bne_self_eq_false,
    decide_false, Bool.and_false, Bool.false_eq_true, if_false]

/-! ### Retries (R285) -/

/-- Context `x` with the attempt of vector `v` over and the next one waiting to be sent. -/
abbrev ColCtx.nextAttempt (x : ColCtx) (v : SentVec) : ColCtx :=
  { x with sent := x.sent.map (fun y => if y = v then { v with attempt := v.attempt + 1, sentAt := none } else y) }

section
variable {v : SentVec} {due : Nat} {e : Dev} (hdue : (d.ctxOf n).firstDue k = some (v, due)) (hpeer : (d.ctxOf n).peer k = some p)
  (hactive : d.cSt n = cActive) (hthen : e = d.advanceTo due)
include hdue hpeer hactive hthen

theorem Dev.phaseRetry_again {cs : List TxCell} {f : Dev} (hmore : v.attempt < e.retryLimit)
    (hcells : cs = v.cells.map (fun (y : Nat × Nat) => e.colCell n p v.kind v.epoch y.1 (y.1 + 1 = v.total) y.2 true))
    (hunsent : f = ((e.updCtx n (·.nextAttempt v)).colUnsend n (fun t => t.retx && cs.any (fun s =>
        s.cell.dstDev == t.cell.dstDev && s.cell.slot == t.cell.slot && s.cell.gen == t.cell.gen))).ev 6 5 none
      (some ((e.updCtx n (·.nextAttempt v)).cFn n))) :
    d.phaseRetry n k =
      Dev.pushRetx { f with nextTag := f.nextTag + 1 } f.nextTag (cs.map (fun (t : TxCell) => { t with trig := f.nextTag })) := by
  subst hunsent hcells hthen
  simp only [Dev.phaseRetry, hdue, hpeer, hactive, Nat.not_le.mpr hmore, bne_self_eq_false, Bool.false_eq_true, if_false]

theorem Dev.phaseRetry_lost (hlast : e.retryLimit ≤ v.attempt) : d.phaseRetry n k = e.colFail n Status.COL_MEMBER_LOST := by
  subst hthen
  simp only [Dev.phaseRetry, hdue, hpeer, hactive, hlast, bne_self_eq_false, Bool.false_eq_true, if_false, if_true]

end

/-! ### Reads of contributions (R264) -/

theorem Dev.contribDone_good {off key tag m v : Nat} {e : Dev} {h : HostRd} (hfind : d.findContrib n off = some key)
    (hown : d.findOwn (.colIn key) off = some (tag, m)) (htake : d.takeRead tag m (.ok v false) = (e, some h)) :
    d.contribDone n off (.ok v false) = (e.invPoll.updCtx (key % 4096) (fun c => c.updContrib (key / 4096) (fun x =>
      { x with reads := x.reads - 1, data := x.data + v % 2 ^ (8 * m) * 2 ^ (8 * off) }))).colGo (key % 4096) := by
  simp only [Dev.contribDone, hfind, Dev.ownRead_found hown htake, Cpl.good, Dev.contribRead]

/-- Settles O24: each clause is the equation of its operation above; the exponent phases are those with the second pass. -/
theorem collectivePhases : Obligations.CollectivePhases := by
  unfold Obligations.CollectivePhases
  refine ⟨?up, ?again, ?upExp, ?down, ?downExp, ?upAck, ?downAck, ?retry, ?lost, ?read⟩
  case up =>
    rintro s c x k p d ⟨hh, hcell, hactive⟩ ⟨hctx, hfrom, hgen⟩ ⟨hidx, hnew⟩ hkept
    exact next_cell (exec_rxColUp c s) hh hcell
      (Dev.rxUp_new (exp := false) hactive hctx hfrom hgen nofun rfl rfl hidx hnew rfl hkept)
  case again =>
    exact fun s c k p ⟨hh, hcell, hactive⟩ ⟨hfrom, hup⟩ ⟨hgen, hbefore⟩ =>
      next_cell (exec_rxColUp c s) hh hcell (Dev.rxUp_again hactive rfl hfrom nofun hup hgen hbefore)
  case upExp =>
    rintro s c x k p d ⟨hh, hcell, hactive⟩ ⟨hctx, hfrom, hgen, hpass⟩ ⟨hidx, hnew⟩ hkept
    exact next_cell (exec_rxColUpExp c s) hh hcell
      (Dev.rxUp_new (exp := true) hactive hctx hfrom hgen (fun _ => hpass) rfl rfl hidx hnew rfl hkept)
  case down =>
    rintro s c x p d ⟨hh, hcell, hactive⟩ ⟨hctx, hfrom, hgen⟩ ⟨hidx, hnew⟩ hkept
    exact next_cell (exec_rxColDown c s) hh hcell
      (Dev.rxDown_new (exp := false) hactive hctx hfrom hgen nofun rfl rfl hidx hnew rfl hkept rfl)
  case downExp =>
    rintro s c x p d ⟨hh, hcell, hactive⟩ ⟨hctx, hfrom, hgen, hpass⟩ ⟨hidx, hnew⟩ hkept
    exact next_cell (exec_rxColDownExp c s) hh hcell
      (Dev.rxDown_new (exp := true) hactive hctx hfrom hgen (fun _ => hpass) rfl rfl hidx hnew rfl hkept rfl)
  case upAck =>
    exact fun s c x p v ⟨hh, hcell, hctx, hfrom⟩ hdata hfind hlate =>
      next_cell (exec_rxColUpAck c s) hh hcell (Dev.rxAck_releases (up := true) hctx hfrom rfl hdata hfind rfl hlate)
  case downAck =>
    exact fun s c x k p v ⟨hh, hcell, hctx, hfrom⟩ hdata hfind hlate =>
      next_cell (exec_rxColDownAck c s) hh hcell (Dev.rxAck_releases (up := false) hctx hfrom rfl hdata hfind rfl hlate)
  case retry =>
    exact fun s n k due v p d e cs ⟨hh, hdue, hpeer⟩ ⟨hactive, hmore, hthen⟩ hcells hunsent =>
      next_rma hh (Dev.phaseRetry_again hdue hpeer hactive hthen hmore hcells hunsent)
  case lost =>
    exact fun s n k due v p d ⟨hh, hdue, hpeer⟩ ⟨hactive, hlast, hthen⟩ =>
      next_rma hh (Dev.phaseRetry_lost hdue hpeer hactive hthen hlast)
  case read =>
    exact fun s n off key tag m v d h ⟨hh, hfind⟩ ⟨hown, htake⟩ => next_rma hh (Dev.contribDone_good hfind hown htake)

end Sys2Proof.Machine
end

section
/-! SUPPORT. Links and aborts of collective contexts: their cells, their timers, the failure of a context and its end (R257 to
R259, R282, R287 to R289). -/

namespace Sys2Proof.Machine

variable {d : Dev} {c : Cell} {n k : Nat} {p : ColPeer}

/-! ### Failure (R287, R288) -/

theorem Dev.colFail_idle {st : Nat} {but : Option Nat} (hidle : (d.cSt n != cLinking && d.cSt n != cActive) = true) :
    d.colFail n st but = d := if_pos hidle

/-- A context that is linking or active fails: the two states are not told apart. -/
theorem Dev.colFail_running {st : Nat} {but : Option Nat} (hrun : d.cSt n = cActive ∨ d.cSt n = cLinking) :
    d.colFail n st but =
      (((d.wr F.COL_CTX_STAT_STATE n cFailed).wr F.COL_CTX_STAT_STATUS n st).epochsEnd n st).abortAll n but := by
  have hopen : (d.cSt n != cLinking && d.cSt n != cActive) = false := by rcases hrun with h | h <;> simp [h]
  simp only [Dev.colFail, hopen, Bool.false_eq_true, if_false]

/-! ### LINK, LINK_ACK and ABORT (R257, R282, R287, R288) -/

section
variable (hfrom : ((d.taken c).ctxOf (c.slot % 4096)).from_ c.srcDev = some (k, p))
include hfrom

section
variable (hactive : (d.taken c).cSt (c.slot % 4096) = cActive) (hendp : p.endp = c.p 64 28) (hpeer : p.ctx = c.p 92 12)
  (hrole : (k == 0) = (c.p 104 1 == 1))
include hactive hendp hpeer hrole

/-- A LINK that names its sender and its role as the descriptor does is answered by whether TREE and fingerprint agree. -/
theorem Dev.rxLink_known : d.rxLink c =
    if c.p 0 32 != (d.taken c).rd F.COL_CTX_TREE_TREE (c.slot % 4096) ||
        c.p 32 32 != ((d.taken c).ctxOf (c.slot % 4096)).fp then
      ((d.taken c).colOne (c.slot % 4096) p 7 0 Status.COL_BAD_DESC).colFail (c.slot % 4096) Status.COL_BAD_DESC
    else (d.taken c).colOne (c.slot % 4096) p 7 0 0 := by
  simp only [Dev.rxLink, hfrom, hactive, hendp, hpeer, hrole, bne_self_eq_false, Bool.and_false, Bool.or_self,
    Bool.false_eq_true, if_false]

theorem Dev.rxLink_agrees (htree : c.p 0 32 = (d.taken c).rd F.COL_CTX_TREE_TREE (c.slot % 4096))
    (hprint : c.p 32 32 = ((d.taken c).ctxOf (c.slot % 4096)).fp) :
    d.rxLink c = (d.taken c).colOne (c.slot % 4096) p 7 0 0 := by
  rw [Dev.rxLink_known hfrom hactive hendp hpeer hrole, htree, hprint, bne_self_eq_false, bne_self_eq_false]
  rfl

theorem Dev.rxLink_differs (htree : (c.p 0 32 != (d.taken c).rd F.COL_CTX_TREE_TREE (c.slot % 4096)) = true) :
    d.rxLink c =
      ((d.taken c).colOne (c.slot % 4096) p 7 0 Status.COL_BAD_DESC).colFail (c.slot % 4096) Status.COL_BAD_DESC := by
  rw [Dev.rxLink_known hfrom hactive hendp hpeer hrole, htree, Bool.true_or, if_pos rfl]

end

section
variable (hlinking : (d.taken c).cSt (c.slot % 4096) = cLinking)
include hlinking

theorem Dev.rxLinkAck_accepts (hok : c.p 0 16 = 0) : d.rxLinkAck c =
    ((d.taken c).updCtx (c.slot % 4096) (fun c => c.updPeer k (fun p => { p with linked := true }))).linked (c.slot % 4096) := by
  simp only [Dev.rxLinkAck, hfrom, hlinking, hok, bne_self_eq_false, Bool.false_and, Bool.false_eq_true, if_false]

theorem Dev.rxLinkAck_refuses (hbad : (c.p 0 16 != 0) = true) :
    d.rxLinkAck c = (d.taken c).colFail (c.slot % 4096) Status.COL_BAD_DESC := by
  simp only [Dev.rxLinkAck, hfrom, hlinking, hbad, bne_self_eq_false, Bool.false_and, Bool.false_eq_true, if_false, if_true]

end

/-- The echo of an ABORT ends its retries. -/
theorem Dev.rxAbort_echo (hecho : c.p 0 1 = 1) (hlinking : (d.taken c).cSt (c.slot % 4096) ≠ cLinking)
    (hactive : (d.taken c).cSt (c.slot % 4096) ≠ cActive) : d.rxAbort c =
      ((d.taken c).updCtx (c.slot % 4096) (fun c => c.updPeer k (fun p =>
        { p with echo := true, aborting := false, abortAt := none }))).colUnsend (c.slot % 4096)
        (fun t => t.cell.slot / 4096 == 8 && t.cell.dstDev == c.srcDev && t.cell.p 0 1 == 0) := by
  simp only [Dev.rxAbort, hfrom, hecho, hlinking, hactive, decide_false, Bool.or_self, Bool.false_eq_true, if_false, if_true]

theorem Dev.rxAbort_early (hecho : c.p 0 1 = 1)
    (hrun : (d.taken c).cSt (c.slot % 4096) = cLinking ∨ (d.taken c).cSt (c.slot % 4096) = cActive) :
    d.rxAbort c = d.taken c := by
  simp only [Dev.rxAbort, hfrom, hecho, Bool.or_eq_true, decide_eq_true_eq, hrun, if_true]

/-- An ABORT is echoed, and the context fails without sending one back. -/
theorem Dev.rxAbort_fails (hfirst : c.p 0 1 ≠ 1) : d.rxAbort c =
    ((d.taken c).colOne (c.slot % 4096) p 8 0 (1 + c.p 16 16 * 2 ^ 16)).colFail (c.slot % 4096) Status.COL_MEMBER_LOST
      (some k) := by
  simp only [Dev.rxAbort, hfrom, hfirst, if_false]

end

/-! ### Timers (R257, R288) -/

section
variable (hlinking : d.cSt n = cLinking)
include hlinking

theorem Dev.linkRepeat_linking {e f : Dev} (hthen : e = d.advanceTo ((d.ctxOf n).linkAt + usPs 20))
    (hagain : f = e.updCtx n (fun c => { c with linkAt := e.ps })) :
    d.linkRepeat n = ((f.ctxOf n).peers.filter (fun e => !e.2.linked)).foldl (fun d e => d.linkTo n e.1 e.2) f := by
  subst hagain hthen
  simp only [Dev.linkRepeat, hlinking, bne_self_eq_false, Bool.false_eq_true, if_false]

theorem Dev.linkTimeout_linking : d.linkTimeout n =
    (d.advanceTo ((d.ctxOf n).born + msPs (d.ctxOf n).linkMs)).colFail n Status.COL_MEMBER_LOST := by
  simp only [Dev.linkTimeout, hlinking, bne_self_eq_false, Bool.false_eq_true, if_false]

end

section
variable {t : Nat} {e : Dev} (hpeer : (d.ctxOf n).peer k = some p) (hleft : p.abortAt = some t)
  (hthen : e = d.advanceTo (t + nsPs (retryInterval p.base p.tries)))
include hpeer hleft hthen

theorem Dev.abortRetry_last (hlast : e.retryLimit ≤ p.tries) : d.abortRetry n k =
    e.updCtx n (fun c => c.updPeer k (fun p => { p with aborting := false, abortAt := none, given := true })) := by
  subst hthen
  simp only [Dev.abortRetry, hpeer, hleft, hlast, if_true]

theorem Dev.abortRetry_again {f : Dev} (hmore : p.tries < e.retryLimit)
    (hcount : f = e.updCtx n (fun c => c.updPeer k (fun p => { p with abortAt := none, tries := p.tries + 1 }))) :
    d.abortRetry n k = f.colOne n p 8 0 (f.rd F.COL_CTX_STAT_STATUS n * 2 ^ 16) := by
  subst hcount hthen
  simp only [Dev.abortRetry, hpeer, hleft, Nat.not_le.mpr hmore, if_false]

end

/-! ### The end of a context (R258, R259) -/

/-- A draining context is freed once every peer has echoed or been given up and none of its cells waits. -/
theorem Dev.colFree_quiet {e : Dev} (hdraining : d.cSt n = cDraining)
    (hpeers : (d.ctxOf n).peers.any (fun e => !e.2.echo && !e.2.given) = false)
    (hcells : (Tbl.get d.sch.col [] (d.cFn n) ++ d.sch.retx).any (fun t => t.col == some n) = false)
    (hthen : e = d.advanceTo ((d.ctxOf n).lastSent + d.quietPs)) : d.colFree n =
      (Dev.setReg { e.freeAll (d.ctxOf n).bufs 3 n with col.ctxs := Tbl.del n e.col.ctxs } R.COL_CTX_STAT n 0).setReg
        R.COL_CTX_TREE n 0 := by
  subst hthen
  simp only [Dev.colFree, hdraining, hpeers, hcells, bne_self_eq_false, Bool.or_self, Bool.false_eq_true, if_false]

/-- Settles O25: each clause is the equation of its operation above, in the state of the context that it names. -/
theorem collectiveLinksAndAborts : Obligations.CollectiveLinksAndAborts := by
  unfold Obligations.CollectiveLinksAndAborts
  refine ⟨?link, ?differs, ?linkAck, ?refused, ?abort, ?reserved, ?repeated, ?timeout, ?abortRetry, ?free, ?ctxAbort,
    ?ignored⟩
  case link =>
    exact fun s c k p ⟨hh, hcell, hfrom⟩ ⟨hactive, hendp, hpeer, hrole⟩ ⟨htree, hprint⟩ =>
      next_cell (exec_rxColLink c s) hh hcell (Dev.rxLink_agrees hfrom hactive hendp hpeer hrole htree hprint)
  case differs =>
    exact fun s c k p ⟨hh, hcell, hfrom⟩ ⟨hactive, hendp, hpeer, hrole⟩ htree =>
      next_cell (exec_rxColLink c s) hh hcell (Dev.rxLink_differs hfrom hactive hendp hpeer hrole htree)
  case linkAck =>
    exact fun s c k p ⟨hh, hcell, hfrom⟩ ⟨hlinking, hok⟩ =>
      next_cell (exec_rxColLinkAck c s) hh hcell (Dev.rxLinkAck_accepts hfrom hlinking hok)
  case refused =>
    exact fun s c k p ⟨hh, hcell, hfrom⟩ ⟨hlinking, hbad⟩ =>
      next_cell (exec_rxColLinkAck c s) hh hcell (Dev.rxLinkAck_refuses hfrom hlinking hbad)
  case abort =>
    rintro s c k p ⟨hh, hcell, hfrom⟩
    refine ⟨fun ⟨hecho, hlinking, hactive⟩ => ?echo, fun ⟨hecho, hrun⟩ => ?early, fun hfirst => ?fails⟩
    case echo => exact next_cell (exec_rxColAbort c s) hh hcell (Dev.rxAbort_echo hfrom hecho hlinking hactive)
    case early => exact next_cell (exec_rxColAbort c s) hh hcell (Dev.rxAbort_early hfrom hecho hrun)
    case fails => exact next_cell (exec_rxColAbort c s) hh hcell (Dev.rxAbort_fails hfrom hfirst)
  case reserved => exact fun s c ⟨hh, hcell⟩ => next_cell (exec_rxColKindReserved c s) hh hcell rfl
  case repeated =>
    exact fun s n d ⟨hh, hlinking⟩ hagain => next_rma hh (Dev.linkRepeat_linking hlinking rfl hagain)
  case timeout => exact fun s n ⟨hh, hlinking⟩ => next_rma hh (Dev.linkTimeout_linking hlinking)
  case abortRetry =>
    exact fun s n k t p d ⟨hh, hpeer, hleft⟩ hthen =>
      ⟨fun hlast => next_rma hh (Dev.abortRetry_last hpeer hleft hthen hlast),
        fun hmore => next_rma hh (Dev.abortRetry_again hpeer hleft hthen hmore rfl)⟩
  case free =>
    rintro s n d ⟨hh, hdraining⟩ hpeers hcells rfl
    exact next_rma hh (Dev.colFree_quiet hdraining hpeers hcells rfl)
  case ctxAbort => exact fun s n ⟨hh, hrun⟩ => next_rma hh (Dev.colFail_running hrun)
  case ignored => exact fun s n ⟨hh, hidle⟩ => next_rma hh (Dev.colFail_idle hidle)

end Sys2Proof.Machine
end

section
/-! SUPPORT. Header fields after a write of one of them, and the header check as a linear function of the header (R294, R296). -/

namespace Sys2Proof.Machine

/-! ### Fields of a number (R294) -/

/-- A field below bit `n` is a field of the number's low `n` bits. -/
theorem field_mod_two_pow {lo w n : Nat} (x : Nat) (h : lo + w ≤ n) : x % 2 ^ n / 2 ^ lo % 2 ^ w = x / 2 ^ lo % 2 ^ w := by
  rw [← Nat.mod_mul_right_div_self, ← Nat.mod_mul_right_div_self x, ← pow_add, Nat.mod_mod_of_dvd x (Nat.pow_dvd_pow 2 h)]

/-- A field from bit `n` on is a field of the number's bits from `n` on. -/
theorem field_div_two_pow {lo w n : Nat} (x : Nat) (h : n ≤ lo) : x / 2 ^ n / 2 ^ (lo - n) % 2 ^ w = x / 2 ^ lo % 2 ^ w := by
  rw [Nat.div_div_eq_div_mul, ← pow_add, Nat.add_sub_cancel' h]

section
variable {lo w : Nat} (c : Cell) (v : Nat) (hw : lo + w ≤ 128)
include hw

theorem Cell.setBits_mod : (c.setBits lo w v).hdr.toNat % 2 ^ lo = c.hdr.toNat % 2 ^ lo := by
  have hshift : c.hdr.toNat / 2 ^ (lo + w) * 2 ^ (lo + w) + v % 2 ^ w * 2 ^ lo =
      2 ^ lo * (c.hdr.toNat / 2 ^ (lo + w) * 2 ^ w + v % 2 ^ w) := by rw [pow_add]; ring
  rw [Cell.setBits_toNat c lo w v hw, hshift, Nat.mul_add_mod, Nat.mod_mod]

theorem Cell.setBits_div : (c.setBits lo w v).hdr.toNat / 2 ^ (lo + w) = c.hdr.toNat / 2 ^ (lo + w) := by
  have hlow : v % 2 ^ w * 2 ^ lo + c.hdr.toNat % 2 ^ lo < 2 ^ (lo + w) := by
    rw [pow_add, Nat.mul_comm (2 ^ lo)]
    exact Nat.lt_of_lt_of_le (Nat.add_lt_add_left (Nat.mod_lt _ (Nat.two_pow_pos lo)) _)
      (Nat.succ_mul _ _ ▸ Nat.mul_le_mul_right _ (Nat.mod_lt v (Nat.two_pow_pos w)))
  rw [Cell.setBits_toNat c lo w v hw, Nat.add_assoc, Nat.mul_comm, Nat.mul_add_div (Nat.two_pow_pos _),
    Nat.div_eq_of_lt hlow, Nat.add_zero]

theorem Cell.bits_setBits_self : (c.setBits lo w v).bits lo w = v % 2 ^ w := by
  rw [Cell.bits, Cell.setBits_toNat c lo w v hw]
  exact fieldOf _ _ _ _ _ (Nat.mod_lt _ (Nat.two_pow_pos lo)) (Nat.mod_lt v (Nat.two_pow_pos w))

theorem Cell.bits_setBits_apart {lo' w' : Nat} (h : lo' + w' ≤ lo ∨ lo + w ≤ lo') :
    (c.setBits lo w v).bits lo' w' = c.bits lo' w' := by
  rcases h with hbelow | habove
  · rw [Cell.bits, ← field_mod_two_pow _ hbelow, Cell.setBits_mod c v hw, field_mod_two_pow _ hbelow, Cell.bits]
  · rw [Cell.bits, ← field_div_two_pow _ habove, Cell.setBits_div c v hw, field_div_two_pow _ habove, Cell.bits]

end

/-! ### The check (R296) -/

/-- The check byte of header `x` against the check over its other bytes: 0 where they agree. -/
def syndrome (x : Nat) : Nat := x % 2 ^ 8 ^^^ crcOf 8 0x07 0 (x / 2 ^ 8) 120

theorem Cell.hchkOk_iff (c : Cell) : c.hchkOk = true ↔ syndrome c.hdr.toNat = 0 := by
  simp [Cell.hchkOk, Cell.bits, hchk, syndrome]

theorem syndrome_xor (x y : Nat) : syndrome (x ^^^ y) = syndrome x ^^^ syndrome y := by
  simp only [syndrome, Nat.xor_mod_two_pow, Nat.xor_div_two_pow, crc_xor]
  ac_rfl

/-- A single bit upsets the check: in the check byte by itself, elsewhere by its remainder. -/
theorem syndrome_two_pow_ne_zero {i : Nat} (hi : i < 128) : syndrome (2 ^ i) ≠ 0 := by
  rw [syndrome]
  rcases Nat.lt_or_ge i 8 with hcheck | hrest
  · have hbyte : 2 ^ i < 2 ^ 8 := Nat.pow_lt_pow_right (by omega) hcheck
    have hnone : crcOf 8 0x07 0 0 120 = 0 := by decide +kernel
    rw [Nat.mod_eq_of_lt hbyte, Nat.div_eq_of_lt hbyte, hnone, Nat.xor_zero]
    exact (Nat.two_pow_pos i).ne'
  · rw [Nat.mod_eq_zero_of_dvd (Nat.pow_dvd_pow 2 hrest), Nat.zero_xor, Nat.pow_div hrest (by omega)]
    exact crc_pow _ (by omega)

theorem hchk_lt (hdr : BitVec 128) : hchk hdr < 2 ^ 8 := crcOf_lt _ _

/-- The check is over the bytes that sealing leaves alone. -/
theorem Cell.sealed_div (c : Cell) : c.sealed.hdr.toNat / 256 = c.hdr.toNat / 256 :=
  Cell.setBits_div (lo := 0) (w := 8) c _ (by omega)

theorem Cell.hchkOk_sealed (c : Cell) : c.sealed.hchkOk = true := by
  have hbyte : c.sealed.bits 0 8 = hchk c.hdr :=
    (Cell.bits_setBits_self c _ (by omega)).trans (Nat.mod_eq_of_lt (hchk_lt c.hdr))
  have hover : hchk c.sealed.hdr = hchk c.hdr := by rw [hchk, Cell.sealed_div, hchk]
  rw [Cell.hchkOk, hbyte, hover, beq_self_eq_true]

theorem Cell.hchkOk_flip {c : Cell} {i : Nat} (hi : i < 128) (hok : c.hchkOk = true) :
    ({ c with hdr := c.hdr ^^^ BitVec.ofNat 128 (2 ^ i) } : Cell).hchkOk = false := by
  have hbit : (BitVec.ofNat 128 (2 ^ i)).toNat = 2 ^ i :=
    Nat.mod_eq_of_lt (Nat.pow_lt_pow_right (by omega) hi)
  rw [Bool.eq_false_iff, Ne, Cell.hchkOk_iff]
  rw [Cell.hchkOk_iff] at hok
  simpa only [BitVec.toNat_xor, hbit, syndrome_xor, hok, Nat.zero_xor] using syndrome_two_pow_ne_zero hi

/-- Settles O58: the check is linear in the header, so a flip of one bit changes it by that bit's own syndrome. -/
theorem headerCheckSeesEveryBit : Obligations.HeaderCheckSeesEveryBit := by
  unfold Obligations.HeaderCheckSeesEveryBit
  refine ⟨?flip, ?seals⟩
  case flip => exact fun c i ⟨hi, hok⟩ => Cell.hchkOk_flip hi hok
  case seals => exact fun c => ⟨Cell.hchkOk_sealed c, Cell.sealed_div c, rfl⟩

end Sys2Proof.Machine
end

section
/-! SUPPORT. The fields of a cell that is built from them (R294, R309). -/

namespace Sys2Proof.Machine

/-- The header of a built cell is the sum of its fields, each at its place: it fits its 128 bits. -/
theorem mkCell_toNat {cls : Nat} (dstDev dstFn srcDev slot gen idx : Nat) (head last : Bool) (pay : Nat) (hcls : cls < 4) :
    (mkCell dstDev dstFn srcDev slot gen idx head last cls pay).hdr.toNat =
      dstDev % 2 ^ 18 * 2 ^ 110 + dstFn % 2 ^ 10 * 2 ^ 100 + srcDev % 2 ^ 18 * 2 ^ 82 + slot % 2 ^ 16 * 2 ^ 66 +
        gen % 16 * 2 ^ 62 + idx % 4096 * 2 ^ 50 + head.toNat * 2 ^ 49 + last.toNat * 2 ^ 48 + cls * 4 * 2 ^ 44 +
        0xFFF * 2 ^ 32 := by
  have hhead : (if head then 2 ^ 49 else 0) = head.toNat * 2 ^ 49 := by cases head <;> rfl
  have hlast : (if last then 2 ^ 48 else 0) = last.toNat * 2 ^ 48 := by cases last <;> rfl
  simp only [mkCell, BitVec.toNat_ofNat, hhead, hlast]
  have := head.toNat_lt
  have := last.toNat_lt
  omega

/-- A flag is read as a bit that is not 0. -/
theorem bne_zero_of_eq_toNat {n : Nat} {b : Bool} (h : n = b.toNat) : (n != 0) = b := by
  subst h
  cases b <;> rfl

theorem Cell.fields_mkCell (dstDev dstFn srcDev slot gen idx : Nat) (head last : Bool) {cls : Nat} (pay : Nat) {c : Cell}
    (hc : c = mkCell dstDev dstFn srcDev slot gen idx head last cls pay) (hcls : cls < 4) :
    c.dstDev = dstDev % 2 ^ 18 ∧ c.dstFn = dstFn % 2 ^ 10 ∧ c.srcDev = srcDev % 2 ^ 18 ∧ c.slot = slot % 2 ^ 16 ∧
      c.gen = gen % 16 ∧ c.idx = idx % 4096 ∧ c.head = head ∧ c.last = last ∧ c.cls = cls ∧ c.phase = 0 ∧ c.via = 0xFFF ∧
      c.hops = 0 ∧ c.cmark = 0 ∧ c.color = 0 ∧ c.tstamp = 0 := by
  subst hc
  have hhead := head.toNat_lt
  have hlast := last.toNat_lt
  simp only [Cell.dstDev, Cell.dstFn, Cell.srcDev, Cell.slot, Cell.gen, Cell.idx, Cell.head, Cell.last, Cell.cls, Cell.phase,
    Cell.vc, Cell.via, Cell.hops, Cell.cmark, Cell.color, Cell.tstamp, Cell.bits, mkCell_toNat, hcls]
  refine ⟨?dstDev, ?dstFn, ?srcDev, ?slot, ?gen, ?idx, ?head, ?last, ?cls, ?phase, ?via, ?hops, ?cmark, ?color, ?tstamp⟩
  case head => exact bne_zero_of_eq_toNat (by omega)
  case last => exact bne_zero_of_eq_toNat (by omega)
  all_goals omega

/-- Settles O59: a built cell has each field at its place in the sum; a field that is set reads back, the others stay. -/
theorem cellFieldsReadBack : Obligations.CellFieldsReadBack := by
  unfold Obligations.CellFieldsReadBack
  refine ⟨?fields, ?setBits⟩
  case fields =>
    exact fun dstDev dstFn srcDev slot gen idx head last cls pay c ⟨hc, hcls⟩ =>
      Cell.fields_mkCell dstDev dstFn srcDev slot gen idx head last pay hc hcls
  case setBits =>
    exact fun c lo w v hw =>
      ⟨Cell.bits_setBits_self c v hw, fun lo' w' => Cell.bits_setBits_apart c v hw, rfl⟩

end Sys2Proof.Machine
end

section
/-! SUPPORT. What becomes of a cell in transit, of one whose residence ends, and of a port that is rediscovered (R304 to R306,
R314, R317, R318, R325). -/

namespace Sys2Proof.Machine

variable {d : Dev} {p v : Nat} {c : InCell}

/-- A command of the fabric answers the state with the device it makes, once lost cells have reached their units. -/
theorem next_fab {s : State} {i : Instr} {f : Dev → Dev} {e : Dev} (hexec : exec i s = onFab s f) (h : f s.dev = e) :
    exec i s = .next (s.on e.fab) := by
  subst h
  exact hexec

/-! ### What routing answered (R305, R306, R317) -/

section
variable {inp : Option Nat} {via q k : Nat}

theorem Dev.sendOn_none : d.sendOn p c inp via .none = (d.noRoute c.cell inp).leaveIn p c := by
  simp only [Dev.sendOn, if_true]

theorem Dev.sendOn_hops {r : RouteTo} (hroute : r ≠ .none) (hhops : d.hopLimit ≤ c.cell.hops) :
    d.sendOn p c inp via r = (d.bump F.RTE_DROP_HOP).leaveIn p c := by
  simp only [Dev.sendOn, hroute, hhops, if_false, if_true]

theorem Dev.sendOn_port (hhops : ¬ d.hopLimit ≤ c.cell.hops) :
    d.sendOn p c inp via (.port q k) = (d.enqueue c.tx inp via q k c.since).leaveIn p c := by
  simp only [Dev.sendOn, hhops, reduceCtorEq, if_false]

theorem Dev.sendOn_wake (hhops : ¬ d.hopLimit ≤ c.cell.hops) :
    d.sendOn p c inp via (.wake q k) = (d.wantWake q).updPort p (fun x => { x with
      inb := x.inb.map (fun y => if y = c then { c with hold := some ⟨q, k, via⟩ } else y) }) := by
  simp only [Dev.sendOn, hhops, reduceCtorEq, if_false]

end

/-! ### The cell that is forwarded -/

/-- The input of R303 for a cell that came in at port p. -/
abbrev Dev.inKind (d : Dev) (p : Nat) : Option Nat := some (d.rd F.RTE_PORT_CFG_KIND p)

theorem Dev.forward_none (hcell : d.inCell p v = none) : d.forward p v = d := by
  simp only [Dev.forward, hcell]

theorem Dev.forward_safe (hdark : d.dark = false) (hcell : d.inCell p v = some c) (hsafe : d.pwr.state = .safe)
    (hcls : (c.cell.cls != 3) = true) : d.forward p v = (d.bump F.RTE_DROP2_MISROUTE).leaveIn p c := by
  simp only [Dev.forward, hcell, Dev.forwardCell, hdark, hsafe, hcls, decide_true, Bool.and_self, Bool.false_eq_true, if_false,
    if_true]

/-- In RUN, and of class CTL in any state, a cell is not dropped as one in safe state. -/
theorem Dev.dropped_safe_false (hpass : d.pwr.state = .run ∨ c.cell.cls = 3) :
    (d.pwr.state = .safe && c.cell.cls != 3) = false := by
  rcases hpass with hrun | hctl
  · simp [hrun]
  · simp [hctl]

section
variable (hdark : d.dark = false) (hcell : d.inCell p v = some c) (hpass : d.pwr.state = .run ∨ c.cell.cls = 3)
include hdark hcell hpass

theorem Dev.forward_routed {e : Dev} {via : Nat} {r : RouteTo} (hhold : c.hold = none)
    (hroute : d.route c.cell (d.inKind p) = (e, via, r)) : d.forward p v = e.sendOn p c (d.inKind p) via r := by
  simp only [Dev.forward, hcell, Dev.forwardCell, hdark, Dev.dropped_safe_false hpass, hhold, hroute, Bool.false_eq_true,
    if_false]

theorem Dev.forward_again {h : Hold} {via : Nat} {r : RouteTo} (hhold : c.hold = some h)
    (hroute : d.reroute c.cell (d.inKind p) h = (via, r)) : d.forward p v = d.sendOn p c (d.inKind p) via r := by
  simp only [Dev.forward, hcell, Dev.forwardCell, hdark, Dev.dropped_safe_false hpass, hhold, hroute, Bool.false_eq_true,
    if_false]

end

/-! ### The end of a residence (R318) -/

theorem Dev.residenceExpire_longest {x : Stay} (hlong : longest (d.stays p v) = some x) :
    d.residenceExpire p v = d.endStay p x := by
  simp only [Dev.residenceExpire, hlong]

theorem Dev.residenceExpire_empty (hnone : d.stays p v = []) : d.residenceExpire p v = d := by
  simp only [Dev.residenceExpire, hnone, longest, List.foldl_nil]

/-! ### Rediscovery (R325) -/

theorem Dev.rediscover_parked (hdark : d.dark = false) (hst : d.rtState p = rsParked) :
    d.rediscover p = d.updPort p (fun x => { x with wakeWant := true, rediscover := true }) := by
  simp [Dev.rediscover, hdark, hst]

theorem Dev.rediscover_down (hst : d.rtState p = rsDown) : d.rediscover p = d := by
  simp [Dev.rediscover, hst]

theorem Dev.rediscover_live (hdark : d.dark = false) (hparked : d.rtState p ≠ rsParked) (hdown : d.rtState p ≠ rsDown) :
    d.rediscover p = (d.setRtState p rsDiscovering).sendDiscover p := by
  simp only [Dev.rediscover, hdark, hparked, hdown, Dev.discover, decide_false, Bool.or_self, Bool.false_eq_true, if_false]

/-- Settles O27: a cell that passes goes where routing answered, which is one case of `Dev.sendOn` for each clause. -/
theorem cellForwarding : Obligations.CellForwarding := by
  unfold Obligations.CellForwarding
  refine ⟨?sent, ?held, ?again, ?hops, ?noRoute, ?safe, ?none, ?residence, ?empty, ?rediscover⟩
  case sent =>
    exact fun s p vc c d via q k ⟨hdark, hcell, hhold, hpass⟩ ⟨hroute, hhops⟩ => next_fab (exec_cellForward p vc s)
      ((Dev.forward_routed hdark hcell hpass hhold hroute).trans (Dev.sendOn_port hhops))
  case held =>
    exact fun s p vc c d via q k ⟨hdark, hcell, hhold, hpass⟩ ⟨hroute, hhops⟩ => next_fab (exec_cellForward p vc s)
      ((Dev.forward_routed hdark hcell hpass hhold hroute).trans (Dev.sendOn_wake hhops))
  case again =>
    exact fun s p vc c h via q k ⟨hdark, hcell, hhold, hpass⟩ ⟨hroute, hhops⟩ => next_fab (exec_cellForward p vc s)
      ((Dev.forward_again hdark hcell hpass hhold hroute).trans (Dev.sendOn_port hhops))
  case hops =>
    exact fun s p vc c d via r ⟨hdark, hcell, hhold, hpass⟩ ⟨hroute, hsome, hhops⟩ => next_fab (exec_cellForward p vc s)
      ((Dev.forward_routed hdark hcell hpass hhold hroute).trans (Dev.sendOn_hops hsome hhops))
  case noRoute =>
    exact fun s p vc c d via ⟨hdark, hcell, hhold, hpass⟩ hroute => next_fab (exec_cellForward p vc s)
      ((Dev.forward_routed hdark hcell hpass hhold hroute).trans Dev.sendOn_none)
  case safe =>
    exact fun s p vc c ⟨hdark, hcell, hsafe, hcls⟩ => next_fab (exec_cellForward p vc s)
      (Dev.forward_safe hdark hcell hsafe hcls)
  case none => exact fun s p vc hcell => next_fab (exec_cellForward p vc s) (Dev.forward_none hcell)
  case residence =>
    rintro s p vc x d ⟨hdark, hlong⟩ rfl
    refine next_fab (exec_cellResidenceExpire p vc s) ?_
    rw [hdark, if_neg Bool.false_ne_true, Dev.residenceExpire_longest hlong]
    cases x <;> rfl
  case empty =>
    rintro s p vc ⟨hdark, hnone⟩
    refine next_fab (exec_cellResidenceExpire p vc s) ?_
    rw [hdark, if_neg Bool.false_ne_true, Dev.residenceExpire_empty hnone]
  case rediscover =>
    exact fun s p hdark =>
      ⟨fun hparked => next_fab (exec_portRediscover p s) (Dev.rediscover_parked hdark hparked),
        fun hdown => next_fab (exec_portRediscover p s) (Dev.rediscover_down hdown),
        fun ⟨hparked, hdown⟩ => next_fab (exec_portRediscover p s) (Dev.rediscover_live hdark hparked hdown)⟩

end Sys2Proof.Machine
end

section
/-! SUPPORT. Which cell an injection opportunity takes, and a cell that the router refuses (R305, R306, R343, R344). -/

namespace Sys2Proof.Machine

variable {d : Dev} {lanes : BitVec 4} {t : TxCell} {l : List TxCell}

theorem Dev.schInject_dark (hdark : d.dark = true) : d.schInject lanes = d := by
  simp only [Dev.schInject, hdark, if_true]

/-- CTL cells come first wherever their lane takes one, also from a halted device. -/
theorem Dev.schInject_ctl (hdark : d.dark = false) (hroom : d.injRoom lanes 3 = true) (hctl : d.sch.ctl = t :: l) :
    d.schInject lanes = Dev.inject { d with sch.ctl := l } t := by
  simp only [Dev.schInject, hdark, hroom, hctl, Bool.false_eq_true, if_false]

theorem Dev.schInject_pass (hdark : d.dark = false) (hh : d.halted = false)
    (hctl : d.sch.ctl = [] ∨ d.injRoom lanes 3 = false) : d.schInject lanes = d.injectRsp lanes := by
  rcases hctl with hctl | hroom
  · simp only [Dev.schInject, hdark, hh, hctl, Bool.false_eq_true, if_false]
  · cases hctl : d.sch.ctl with
    | nil => simp only [Dev.schInject, hdark, hh, hctl, Bool.false_eq_true, if_false]
    | cons t l => simp only [Dev.schInject, hdark, hh, hroom, hctl, Bool.false_eq_true, if_false]

theorem Dev.injectRsp_first (hroom : d.injRoom lanes 1 = true) (hrsp : d.sch.rsp = t :: l) :
    d.injectRsp lanes = Dev.inject { d with sch.rsp := l } t := by
  simp only [Dev.injectRsp, hroom, hrsp]

theorem Dev.injectRsp_empty (hrsp : d.sch.rsp = []) : d.injectRsp lanes = d.injectRetx lanes := by
  simp only [Dev.injectRsp, hrsp]

theorem Dev.injectRetx_found (hfind : d.sch.retx.find? (fun t => d.injRoom lanes t.cls) = some t) :
    d.injectRetx lanes = Dev.inject { d with sch.retx := d.sch.retx.erase t } t := by
  simp only [Dev.injectRetx, hfind]

theorem Dev.injectRetx_empty (hretx : d.sch.retx = []) : d.injectRetx lanes = d.injectNew lanes := by
  simp only [Dev.injectRetx, hretx, List.find?_nil]

/-- A cell that this device does not deliver to itself is placed where the router says. -/
theorem Dev.handOver_routed {e : Dev} {via : Nat} {r : RouteTo} (hroute : d.route t.cell none = (e, via, r))
    (haway : t.cell.dstDev = d.myDev → d.flag F.RTE_ID_ASSIGNED = false) : d.handOver t = e.placeOwn t e.ps via r := by
  have hnot : ¬ (t.cell.dstDev = d.myDev && d.flag F.RTE_ID_ASSIGNED) = true := by simpa using haway
  unfold Dev.handOver
  rw [if_neg hnot, hroute]

/-- Without a way the cell is given back. -/
theorem Dev.placeOwn_lost {since via : Nat} :
    (d.placeOwn t since via .none).rma.lost = d.rma.lost ++ [(t, Status.UNREACHABLE)] := rfl

/-- Settles O28: each opportunity goes down the order CTL, responses, retransmissions, first transmissions, past the sources
that its clause says are empty. -/
theorem cellInjection : Obligations.CellInjection := by
  unfold Obligations.CellInjection
  refine ⟨?ctl, ?rsp, ?retx, ?new, ?dark, ?refused, ?seed⟩
  case ctl =>
    exact fun s lanes t l ⟨hdark, hroom, hctl⟩ => next_fab (exec_schInject lanes s) (Dev.schInject_ctl hdark hroom hctl)
  case rsp =>
    exact fun s lanes t l ⟨hdark, hh, hctl⟩ ⟨hroom, hrsp⟩ => next_fab (exec_schInject lanes s)
      ((Dev.schInject_pass hdark hh hctl).trans (Dev.injectRsp_first hroom hrsp))
  case retx =>
    exact fun s lanes t ⟨hdark, hh, hctl, hrsp⟩ hfind => next_fab (exec_schInject lanes s)
      ((Dev.schInject_pass hdark hh (.inl hctl)).trans ((Dev.injectRsp_empty hrsp).trans (Dev.injectRetx_found hfind)))
  case new =>
    exact fun s lanes ⟨hdark, hh, hctl, hrsp, hretx⟩ => next_fab (exec_schInject lanes s)
      ((Dev.schInject_pass hdark hh (.inl hctl)).trans ((Dev.injectRsp_empty hrsp).trans (Dev.injectRetx_empty hretx)))
  case dark => exact fun s lanes hdark => next_fab (exec_schInject lanes s) (Dev.schInject_dark hdark)
  case refused => exact fun d e t via ⟨hroute, haway, _⟩ =>
    (congrArg (fun d : Dev => d.rma.lost) (Dev.handOver_routed hroute haway)).trans Dev.placeOwn_lost
  case seed => exact fun s v => exec_rteSeedWrite v s

end Sys2Proof.Machine
end

section
/-! SUPPORT. Tables of which many entries are written one after the other, and the buckets of shapers, meters and policers (R348
to R350). -/

namespace Sys2Proof.Machine

/-! ### Tables written key by key -/

section
variable {α β : Type} {g : Nat × α → Option β → β} {l : Tbl α} {t : Tbl β} {k : Nat} {v : α} {w b : β}

/-- Table `t` with the key of each entry of `l` written, from that entry and what the key held. -/
def Tbl.updAll (g : Nat × α → Option β → β) (l : Tbl α) (t : Tbl β) : Tbl β :=
  l.foldl (fun t e => Tbl.put e.1 (g e (Tbl.find t e.1)) t) t

theorem Tbl.find_updAll_absent (h : ∀ e ∈ l, k ≠ e.1) : Tbl.find (Tbl.updAll g l t) k = Tbl.find t k := by
  induction l generalizing t with
  | nil => rfl
  | cons e l ih =>
    obtain ⟨hhead, htail⟩ := List.forall_mem_cons.mp h
    exact (ih htail).trans (Tbl.find_put_ne _ _ hhead)

/-- The keys of `l` rise, so each is written once, from what `t` held. -/
theorem Tbl.find_updAll (hl : l.Pairwise (fun a b => a.1 < b.1)) (hk : Tbl.find l k = some v) :
    Tbl.find (Tbl.updAll g l t) k = some (g (k, v) (Tbl.find t k)) := by
  induction l generalizing t with
  | nil => cases hk
  | cons e l ih =>
    obtain ⟨j, u⟩ := e
    obtain ⟨hhead, htail⟩ := List.pairwise_cons.mp hl
    by_cases hj : j = k
    · subst hj
      obtain rfl : u = v := by simpa [Tbl.find] using hk
      exact (Tbl.find_updAll_absent fun e he => (hhead e he).ne).trans (Tbl.find_put_self _ _ _)
    · rw [Tbl.find, if_neg hj] at hk
      refine (ih htail hk).trans ?_
      rw [Tbl.find_put_ne _ _ (Ne.symm hj)]

/-- Table `t` with each key of `l` that it does not list put at `b`. -/
def Tbl.addMissing (b : β) (l : Tbl α) (t : Tbl β) : Tbl β :=
  l.foldl (fun t e => if Tbl.has t e.1 then t else Tbl.put e.1 b t) t

theorem Tbl.find_addMissing (hk : Tbl.find t k = some w) : Tbl.find (Tbl.addMissing b l t) k = some w := by
  induction l generalizing t with
  | nil => exact hk
  | cons e l ih =>
    refine ih ?_
    dsimp only
    split
    · exact hk
    · next hnew =>
      have hne : k ≠ e.1 := fun h => hnew (by rw [Tbl.has, ← h, hk]; rfl)
      rw [Tbl.find_put_ne _ _ hne, hk]

theorem Tbl.pairwise_addMissing (ht : t.Pairwise (fun a b => a.1 < b.1)) :
    (Tbl.addMissing b l t).Pairwise (fun a b => a.1 < b.1) := by
  induction l generalizing t with
  | nil => exact ht
  | cons e l ih =>
    refine ih ?_
    dsimp only
    split
    · exact ht
    · exact Tbl.pairwise_put _ _ _ ht

end

/-! ### A refill (R348 to R350) -/

section
variable (d : Dev)

/-- The device at the 64 ns boundary of a refill, its schedulers' Boundary fields in force. -/
def Dev.schBoundary : Dev := (d.advanceToNs ((d.ns / 64 + 1) * 64)).schLatch

theorem Dev.sch_advance (n : Nat) : (d.advance n).sch = d.sch := rfl

@[simp] theorem Dev.sch_advanceToNs (n : Nat) : (d.advanceToNs n).sch = d.sch := by
  unfold Dev.advanceToNs
  split
  · rfl
  · exact Dev.sch_advance d _

@[simp] theorem Dev.sch_latchAll (r : Nat) : (d.latchAll r).sch = d.sch := by
  unfold Dev.latchAll
  exact foldl_keeps Dev.sch (fun d i => d.latch r i) (fun _ _ => rfl) _ d

@[simp] theorem Dev.sch_schBoundary : d.schBoundary.sch = d.sch := by
  simp only [Dev.schBoundary, Dev.schLatch, Dev.sch_latchAll, Dev.sch_advanceToNs]

/-- A shaper's bucket after a refill from level `v` (R348). -/
def Dev.tokensFilled (f : Nat) (v : Int) : Int :=
  min (v + ((d.rdF F.SCH_FN_SHAPER_RATE f : Nat) : Int)) ((d.burst f : Nat) : Int)

/-- A meter's two buckets after a refill from level `v` (R349). -/
def Dev.tcFilled (f v : Nat) : Nat :=
  refill v (d.rdF F.SCH_FN_METER_CIR f) (max 1 (d.rdF F.SCH_FN_METER_CBS f) * 256)
def Dev.tpFilled (f v : Nat) : Nat :=
  refill v (max (d.rdF F.SCH_FN_METER_CIR f) (d.rdF F.SCH_FN_METER_PIR f)) (max 1 (d.rdF F.SCH_FN_METER_PBS f) * 256)

/-- A policer's bucket after a refill from level `v` (R350). -/
def Dev.udpFilled (q v : Nat) : Nat := refill v (d.rdF F.SCH_UDP_RATE q) (max 1 (d.rdF F.SCH_UDP_BURST q) * 256)

/-- The device with these tables of buckets. The rates and bursts in force do not depend on them, so each part of a refill is an
operation on the tables alone. -/
def Dev.withBuckets (tokens : Tbl Int) (tc tp udp : Tbl Nat) : Dev :=
  { d with sch.tokens := tokens, sch.tc := tc, sch.tp := tp, sch.udp := udp }

variable (tokens : Tbl Int) (tc tp udp : Tbl Nat)

theorem Dev.withBuckets_self : d.withBuckets d.sch.tokens d.sch.tc d.sch.tp d.sch.udp = d := rfl

@[simp] theorem Dev.tokens_withBuckets : (d.withBuckets tokens tc tp udp).sch.tokens = tokens := rfl
@[simp] theorem Dev.tc_withBuckets : (d.withBuckets tokens tc tp udp).sch.tc = tc := rfl
@[simp] theorem Dev.tp_withBuckets : (d.withBuckets tokens tc tp udp).sch.tp = tp := rfl
@[simp] theorem Dev.udp_withBuckets : (d.withBuckets tokens tc tp udp).sch.udp = udp := rfl
@[simp] theorem Dev.rdF_withBuckets (x : Fld) (i : Nat) : (d.withBuckets tokens tc tp udp).rdF x i = d.rdF x i := rfl

@[simp] theorem Dev.tokensFilled_withBuckets (f : Nat) (v : Int) :
    (d.withBuckets tokens tc tp udp).tokensFilled f v = d.tokensFilled f v := by
  simp only [Dev.tokensFilled, Dev.burst, Dev.rdF_withBuckets]
@[simp] theorem Dev.tcFilled_withBuckets (f v : Nat) :
    (d.withBuckets tokens tc tp udp).tcFilled f v = d.tcFilled f v := by
  simp only [Dev.tcFilled, Dev.rdF_withBuckets]
@[simp] theorem Dev.tpFilled_withBuckets (f v : Nat) :
    (d.withBuckets tokens tc tp udp).tpFilled f v = d.tpFilled f v := by
  simp only [Dev.tpFilled, Dev.rdF_withBuckets]
@[simp] theorem Dev.udpFilled_withBuckets (q v : Nat) :
    (d.withBuckets tokens tc tp udp).udpFilled q v = d.udpFilled q v := by
  simp only [Dev.udpFilled, Dev.rdF_withBuckets]

theorem Dev.newBuckets_withBuckets :
    (d.withBuckets tokens tc tp udp).newBuckets =
      d.withBuckets (Tbl.addMissing 0 (d.listed R.SCH_FN_SHAPER) tokens) tc tp udp :=
  List.foldl_hom (fun t => d.withBuckets t tc tp udp) fun t e =>
    (apply_ite (fun t => d.withBuckets t tc tp udp) (Tbl.has t e.1 = true) t _).symm

theorem Dev.refillShapers_withBuckets :
    (d.withBuckets tokens tc tp udp).refillShapers =
      d.withBuckets (Tbl.updAll (fun e _ => d.tokensFilled e.1 e.2) tokens tokens) tc tp udp :=
  List.foldl_hom (fun t => d.withBuckets t tc tp udp) fun _ _ => rfl

theorem Dev.refillMeters_withBuckets :
    (d.withBuckets tokens tc tp udp).refillMeters =
      d.withBuckets tokens (Tbl.updAll (fun e v => d.tcFilled e.1 (v.getD 0)) tp tc)
        (Tbl.updAll (fun e _ => d.tpFilled e.1 e.2) tp tp) udp :=
  List.foldl_hom₂ tp (fun tc tp => d.withBuckets tokens tc tp udp) _ _ _ tc tp fun _ _ _ => rfl

theorem Dev.refillUdp_withBuckets :
    (d.withBuckets tokens tc tp udp).refillUdp =
      d.withBuckets tokens tc tp (Tbl.updAll (fun e _ => d.udpFilled e.1 e.2) udp udp) :=
  List.foldl_hom (fun t => d.withBuckets tokens tc tp t) fun _ _ => rfl

end

section
variable {d e : Dev} {shapers : Tbl Int}

/-- A refill writes the buckets' tables and nothing else, at the rates and bursts in force at its boundary. -/
theorem Dev.schRefill_eq (he : d.schBoundary = e)
    (hshapers : Tbl.addMissing 0 (e.listed R.SCH_FN_SHAPER) d.sch.tokens = shapers) :
    d.schRefill = e.withBuckets (Tbl.updAll (fun b _ => e.tokensFilled b.1 b.2) shapers shapers)
      (Tbl.updAll (fun b v => e.tcFilled b.1 (v.getD 0)) d.sch.tp d.sch.tc)
      (Tbl.updAll (fun b _ => e.tpFilled b.1 b.2) d.sch.tp d.sch.tp)
      (Tbl.updAll (fun b _ => e.udpFilled b.1 b.2) d.sch.udp d.sch.udp) := by
  have hsch : e.sch = d.sch := he ▸ d.sch_schBoundary
  have hrefill : d.schRefill = e.newBuckets.refillShapers.refillMeters.refillUdp := by rw [← he]; rfl
  rw [hrefill, ← e.withBuckets_self, Dev.newBuckets_withBuckets, Dev.refillShapers_withBuckets,
    Dev.refillMeters_withBuckets, Dev.refillUdp_withBuckets, hsch, hshapers]
  rfl

/-- Each listed bucket takes its rate once, up to its burst, at the values in force after the refill. -/
theorem Dev.schRefill_buckets (he : d.schRefill = e)
    (ht : d.sch.tokens.Pairwise (fun a b => a.1 < b.1)) (hu : d.sch.udp.Pairwise (fun a b => a.1 < b.1))
    (hm : d.sch.tp.Pairwise (fun a b => a.1 < b.1)) :
    (∀ f v, Tbl.find d.sch.tokens f = some v → Tbl.find e.sch.tokens f = some (e.tokensFilled f v)) ∧
      (∀ q v, Tbl.find d.sch.udp q = some v → Tbl.find e.sch.udp q = some (e.udpFilled q v)) ∧
      (∀ f v, Tbl.find d.sch.tp f = some v → Tbl.find e.sch.tp f = some (e.tpFilled f v) ∧
        Tbl.get e.sch.tc 0 f = e.tcFilled f (Tbl.get d.sch.tc 0 f)) := by
  generalize hc : d.schBoundary = c
  rw [Dev.schRefill_eq hc rfl] at he
  subst he
  simp only [Dev.tokens_withBuckets, Dev.tc_withBuckets, Dev.tp_withBuckets, Dev.udp_withBuckets, Dev.tokensFilled_withBuckets,
    Dev.tcFilled_withBuckets, Dev.tpFilled_withBuckets, Dev.udpFilled_withBuckets, Tbl.get]
  refine ⟨fun f v hf => ?_, fun q v hq => ?_, fun f v hf => ⟨?_, ?_⟩⟩
  · rw [Tbl.find_updAll (Tbl.pairwise_addMissing ht) (Tbl.find_addMissing hf)]
  · rw [Tbl.find_updAll hu hq]
  · rw [Tbl.find_updAll hm hf]
  · rw [Tbl.find_updAll hm hf, Option.getD_some]

end

/-- Settles O29: a bucket is enabled at its burst, and a refill passes each listed bucket once, in the order of the keys. -/
theorem tokenBuckets : Obligations.TokenBuckets := by
  unfold Obligations.TokenBuckets
  refine ⟨?shaper, ?meter, ?udp, ?refill, ?dark⟩
  case shaper => exact fun s fn d hd => hd ▸ exec_shaperEnable fn s
  case meter => exact fun s fn d hd => hd ▸ exec_meterEnable fn s
  case udp => exact fun s q d hd => hd ▸ exec_udpEnable q s
  case refill =>
    exact fun s hdark ⟨ht, hu, hm⟩ =>
      ⟨s.dev.schRefill, (exec_schRefill s).trans (next_on (if_neg (by simp [hdark]))),
        Dev.schRefill_buckets rfl ht hu hm⟩
  case dark => exact fun s hdark => (exec_schRefill s).trans (next_on (if_pos hdark))

end Sys2Proof.Machine
end

section
/-! SUPPORT. Gate lists: arming, the base, the entry in force and the gate of a class (R352 to R355). -/

namespace Sys2Proof.Machine

section
variable {d : Dev} {p c k n b : Nat}

/-- Some entry of the first `n` of bank `k` of port p opens class c (R354). -/
def Dev.gateOpens (d : Dev) (p k n c : Nat) : Bool :=
  (List.range n).any (fun i => getBits (d.reg R.SCH_GATE_ENT (p * 128 + k * 64 + i)) (24 + c) 1 == 1)

section
variable (hidle : (d.gateSt p).armed = none) (hk : k = 1 - d.rd F.SCH_GATE_CTL_ACTIVE_BANK p)
  (hn : n = clampTo 1 64 (d.rd F.SCH_GATE_CTL_PEND_LEN p))
include hidle hk hn

/-- GATE_ARM while no list is armed turns on two checks: the base is late, and some class stays closed (R354). -/
theorem Dev.gateArm_idle {late never : Bool} (hlate : decide ((d.reg R.SCH_GATE_PBASE p).toNat < d.ns + 1000) = late)
    (hnever : (!(d.gateOpens p k n 0 && d.gateOpens p k n 1 && d.gateOpens p k n 2)) = never) :
    d.gateArm p =
      if late || never then
        let e := if late then d.wr F.SCH_GATE_CTL_LATE p 1 else d
        if never then e.wr F.SCH_GATE_CTL_INVALID p 1 else e
      else d.setGate p { d.gateSt p with armed := some (k, n, (d.reg R.SCH_GATE_PBASE p).toNat) } := by
  subst hk hn hlate hnever
  unfold Dev.gateArm
  dsimp only
  rw [hidle]
  simp only [Option.isSome_none, Bool.false_eq_true, if_false, decide_eq_true_eq]
  rfl

end

/-! The second check, by the gates of the classes. -/

theorem Dev.never_of_open (hopen : ∀ c, c < 3 → d.gateOpens p k n c = true) :
    (!(d.gateOpens p k n 0 && d.gateOpens p k n 1 && d.gateOpens p k n 2)) = false := by
  simp [hopen]

theorem Dev.never_of_closed (hc : c < 3) (hclosed : d.gateOpens p k n c = false) :
    (!(d.gateOpens p k n 0 && d.gateOpens p k n 1 && d.gateOpens p k n 2)) = true := by
  obtain rfl | rfl | rfl : c = 0 ∨ c = 1 ∨ c = 2 := by omega
  all_goals simp [hclosed]

theorem Dev.gateActivate_armed (harmed : (d.gateSt p).armed = some (k, n, b)) :
    d.gateActivate p = (d.advanceToNs b).setGate p { active := some (k, n, b), armed := none } := by
  simp only [Dev.gateActivate, harmed]

theorem Dev.gateAdvance_active {dur : Nat → Nat} {e : Nat} (hactive : (d.gateSt p).active = some (k, n, b))
    (he : e = d.gateEntry p k n b d.ns)
    (hdur : dur = fun i => max 16 (d.rd F.SCH_GATE_ENT_DURATION (p * 128 + k * 64 + i))) :
    d.gateAdvance p = (d.advanceToNs (d.ns - (d.ns - b) % max 1 ((List.range n).foldl (fun s i => s + dur i) 0) +
      (List.range e).foldl (fun s i => s + dur i) 0 + dur e)).setGate p (d.gateSt p) := by
  subst he hdur
  simp only [Dev.gateAdvance, hactive]

/-- The entry in force gives the gates of the classes other than CTL. -/
theorem Dev.gateOpen_active (hen : d.flag F.SCH_GATE_CTL_EN p = true)
    (hactive : (Tbl.get d.sch.gates {} p).active = some (k, n, b)) (hc : c ≠ 3) :
    d.gateOpen p c = (getBits (d.reg R.SCH_GATE_ENT (p * 128 + k * 64 + d.gateEntry p k n b d.ns)) (24 + c) 1 == 1) := by
  simp [Dev.gateOpen, hen, hactive, hc]

end

/-- Settles O30: GATE_ARM by its two checks; the list in force by the gate's state. -/
theorem timeGates : Obligations.TimeGates := by
  unfold Obligations.TimeGates
  refine ⟨?arm, ?late, ?never, ?disarm, ?activate, ?advance, ?gate⟩
  case arm =>
    exact fun s p k n b ⟨hidle, hk, hn⟩ ⟨hb, hahead⟩ hopen => (exec_gateArm p s).trans <| next_on <|
      hb ▸ Dev.gateArm_idle hidle hk hn (decide_eq_false (by omega)) (Dev.never_of_open hopen)
  case late =>
    exact fun s p k n ⟨hidle, hlate⟩ ⟨hk, hn⟩ hopen => (exec_gateArm p s).trans <| next_on <|
      Dev.gateArm_idle hidle hk hn (decide_eq_true hlate) (Dev.never_of_open hopen)
  case never =>
    exact fun s p k n c ⟨hidle, hahead⟩ ⟨hk, hn, hc⟩ hclosed => (exec_gateArm p s).trans <| next_on <|
      Dev.gateArm_idle hidle hk hn (decide_eq_false (by omega)) (Dev.never_of_closed hc hclosed)
  case disarm => exact fun s p => ⟨exec_gateDisarm p s, exec_gateDisable p s⟩
  case activate =>
    exact fun s p k n b ⟨hdark, harmed⟩ => (exec_gateBankActivate p s).trans <| next_on <|
      (if_neg (by simp [hdark])).trans (Dev.gateActivate_armed harmed)
  case advance =>
    exact fun s p k n b e dur ⟨hdark, hactive, he⟩ hdur => (exec_gateEntryAdvance p s).trans <| next_on <|
      (if_neg (by simp [hdark])).trans (Dev.gateAdvance_active hactive he hdur)
  case gate => exact fun d p cls k n b ⟨hen, hactive, hc⟩ => Dev.gateOpen_active hen hactive hc

end Sys2Proof.Machine
end

section
/-! SUPPORT. The frame of a frame boundary, what each kind of frame carries, and park requests that are withdrawn (R351, R356 to
R367, R381, R405, R406). -/

namespace Sys2Proof.Machine

section
variable {d e : Dev} {p k body : Nat}

/-! ### Which frame goes (R362) -/

section
variable {l : List (Nat × Nat)}

theorem Dev.sendFrame_control (he : e = (d.parkWork p).dropStale p) (hctl : (e.portSt p).ctl = (k, body) :: l)
    (hfirst : (e.portSt p).lastCtl = false ∨ e.frameWaits p = false) : d.sendFrame p = e.sendCtl p k body := by
  subst he
  rcases hfirst with hfree | hnone
  · simp only [Dev.sendFrame, hctl, hfree, Bool.false_and, Bool.false_eq_true, if_false]
  · simp only [Dev.sendFrame, hctl, hnone, Bool.and_false, Bool.false_eq_true, if_false]

theorem Dev.sendFrame_second (he : e = (d.parkWork p).dropStale p) (hctl : (e.portSt p).ctl = (k, body) :: l)
    (hlast : (e.portSt p).lastCtl = true) (hwaits : e.frameWaits p = true) : d.sendFrame p = e.sendOther p := by
  subst he
  simp only [Dev.sendFrame, hctl, hlast, hwaits, Bool.and_self, if_true]

theorem Dev.sendFrame_other (he : e = (d.parkWork p).dropStale p) (hctl : (e.portSt p).ctl = []) :
    d.sendFrame p = e.sendOther p := by
  subst he
  simp only [Dev.sendFrame, hctl]

end

theorem Dev.sendOther_replay {r : RepFrame} (hrep : d.replays p = true) (hnext : (d.portSt p).nextReplay = some r) :
    d.sendOther p = d.resend p r := by
  simp only [Dev.sendOther, hrep, hnext, if_true]

theorem Dev.sendOther_data {l : List (OutCell × Bool)} (hrep : d.replays p = false) (hmay : d.mayData p = true)
    (htake : d.takeCells p = (e, l)) (hsome : l.isEmpty = false) : d.sendOther p = e.sendData p (plain l) 0 := by
  simp only [Dev.sendOther, hrep, hmay, htake, hsome, Bool.false_eq_true, if_false, if_true]

theorem Dev.sendOther_idle (hrep : d.replays p = false) (hmay : d.mayData p = false) : d.sendOther p = d.sendIdle p := by
  simp only [Dev.sendOther, hrep, hmay, Bool.false_eq_true, if_false]

/-- A link that carries frames sends the frame of its boundary. -/
theorem next_belayFrameSend {s : State} {p : Pid} {e : Dev} (hdark : s.dev.dark = false)
    (hdown : (s.dev.lnk p == lsDown) = false) (hparked : (s.dev.lnk p == lsParked) = false) (he : s.dev.sendFrame p = e) :
    exec (.belayFrameSend p) s = .next (s.on e.fab) :=
  next_fab (exec_belayFrameSend p s) ((if_neg (by simp [hdark, hdown, hparked])).trans he)

/-! ### Withdrawn park requests (R405, R406) -/

theorem Dev.parkWork_idle (h : (d.portSt p).out.isEmpty = true ∨ (d.portSt p).parkReq = none) : d.parkWork p = d := by
  unfold Dev.parkWork Dev.parkWithdraw
  rcases h with hempty | hnone
  · rw [if_pos hempty]
  · rw [hnone]
    exact ite_self _

theorem Dev.parkWork_withdraws {id t : Nat} (hout : (d.portSt p).out.isEmpty = false)
    (hreq : (d.portSt p).parkReq = some (id, t))
    (he : e = d.updPort p (fun x => { x with
      parkReq := none, ctl := x.ctl.filter (fun e => !(parkIs 1 e && bitsOf e.2 8 8 == id)) })) :
    d.parkWork p =
      if (d.portSt p).ctl.any (fun e => parkIs 1 e && bitsOf e.2 8 8 == id) then e else e.queuePark p 4 id := by
  subst he
  simp only [Dev.parkWork, Dev.parkWithdraw, hout, hreq, Bool.false_eq_true, if_false]

/-! ### What a frame carries (R356, R359, R363, R381) -/

theorem Dev.sendCtl_plain (hk : k ≠ 4 ∧ k ≠ 5) :
    d.sendCtl p k body = (d.updPort p (fun x => { x with ctl := x.ctl.tail })).putCtl p k body := by
  simp only [Dev.sendCtl, hk, if_false]

theorem Dev.toLanes_none {f : Frame} (he : e = d.emit (.frame p f)) (hnone : e.txLanes p = []) : d.toLanes p f = e := by
  subst he
  simp [Dev.toLanes, hnone]

theorem Dev.toLanes_some {f : Frame} (he : e = d.emit (.frame p f)) (hsome : e.txLanes p ≠ []) :
    d.toLanes p f =
      (e.updPort p (fun x => { x with units := x.units ++ f.words })).drainUnits p (79 * (e.txLanes p).length) 4 := by
  subst he
  exact if_neg (by simpa using hsome)

/-- IDLE frames are counted besides all frames. -/
theorem Dev.putFrame_eq {kind sub seq shared len holds : Nat} {stomp : Bool} {f : Frame}
    (hf : f = mkFrame (frameHdr kind sub seq (d.portSt p).ackSeq (d.portSt p).xoffOut shared (d.portSt p).nakNext) body len
      holds stomp)
    (he : e = (d.toLanes p f).updPort p (fun x => { x with nakNext := false, lastCtl := kind == 2 })) :
    d.putFrame p kind sub seq shared body len holds stomp =
      if kind = 0 then (e.ev 8 3 (some p)).ev 8 2 (some p) else e.ev 8 2 (some p) := by
  subst hf he
  exact apply_ite (fun d : Dev => d.ev 8 2 (some p)) _ _ _

end

/-- Settles O32: the order of R362 by the queue of control frames, the replay in progress and the cells that may go; each frame by
the equation of its function. -/
theorem belaySend : Obligations.BelaySend := by
  unfold Obligations.BelaySend
  refine ⟨?control, ?second, ?park, ?ctl, ?time, ?replay, ?data, ?sendData, ?idle, ?put, ?frame, ?lanes, ?down, ?downCmd⟩
  case control =>
    exact fun s p d k body l ⟨hdark, hdown, hparked, hd⟩ ⟨hctl, hfirst⟩ =>
      next_belayFrameSend hdark hdown hparked (Dev.sendFrame_control hd hctl hfirst)
  case second =>
    exact fun s p d k body l ⟨hdark, hdown, hparked, hd⟩ ⟨hctl, hlast, hwaits⟩ =>
      next_belayFrameSend hdark hdown hparked (Dev.sendFrame_second hd hctl hlast hwaits)
  case park => exact fun d p => ⟨Dev.parkWork_idle, fun id t e hout hreq he => Dev.parkWork_withdraws hout hreq he⟩
  case ctl => exact fun d p k body hk => Dev.sendCtl_plain hk
  case time => exact fun d e p body he => he ▸ rfl
  case replay =>
    exact fun s p d r ⟨hdark, hdown, hparked, hd⟩ ⟨hctl, hrep, hnext⟩ => next_belayFrameSend hdark hdown hparked <|
      (Dev.sendFrame_other hd hctl).trans (Dev.sendOther_replay hrep hnext)
  case data =>
    exact fun s p d e l ⟨hdark, hdown, hparked, hd⟩ ⟨hctl, hrep, hmay, htake, hsome⟩ =>
      next_belayFrameSend hdark hdown hparked <|
        (Dev.sendFrame_other hd hctl).trans (Dev.sendOther_data hrep hmay htake hsome)
  case sendData => exact fun d p l n e he => he ▸ rfl
  case idle =>
    exact fun s p d ⟨hdark, hdown, hparked, hd⟩ ⟨hctl, hrep, hmay⟩ => next_belayFrameSend hdark hdown hparked <|
      (Dev.sendFrame_other hd hctl).trans (Dev.sendOther_idle hrep hmay)
  case put => exact fun d p kind sub seq shared body len holds stomp f e hf he => Dev.putFrame_eq hf he
  case frame => exact fun hdr body len holds => ⟨rfl, rfl⟩
  case lanes => exact fun d e p f he => ⟨Dev.toLanes_none he, Dev.toLanes_some he⟩
  case down => exact fun d p r e ⟨hup, he⟩ => he ▸ if_neg hup
  case downCmd =>
    exact fun s p ⟨hdark, hup⟩ => next_fab (exec_linkDownCmd p s) (if_neg (by simp [hdark, hup]))

end Sys2Proof.Machine
end

section
/-! SUPPORT. What a received frame does: its framing, the verdict of its CRC-64, its acknowledgement, a DATA frame by its sequence
number, a control frame whose body is used, and an error event (R360, R361, R364 to R367, R370, R372, R383, R385). -/

namespace Sys2Proof.Machine

section
variable {d e : Dev} {p : Nat}

@[simp] theorem Dev.portSt_updPort_self (g : Port → Port) : (d.updPort p g).portSt p = g (d.portSt p) := Tbl.get_set_self _ _ _ _

/-! ### Framing and the CRC-64 (R360, R361, R394) -/

section
variable {h : FrameHdr} {v : Crc} {body len : Nat}

theorem Dev.frameIn_framed (hdark : d.dark = false) (hdown : d.lnk p ≠ lsDown) (hparked : d.lnk p ≠ lsParked)
    (hframed : h.framed = true) : d.frameIn p h v = (d.uncorrIn p h.uncorr).frameVerdict p h v := by
  simp only [Dev.frameIn, hdark, hdown, hparked, hframed, decide_false, Bool.or_self, Bool.not_true, Bool.false_eq_true, if_false]

theorem Dev.frameIn_unframed (hdark : d.dark = false) (hdown : d.lnk p ≠ lsDown) (hparked : d.lnk p ≠ lsParked)
    (hframed : h.framed = false) : d.frameIn p h v = ((d.uncorrIn p h.uncorr).framingError p, false) := by
  simp only [Dev.frameIn, hdark, hdown, hparked, hframed, decide_false, Bool.or_self, Bool.not_false, Bool.false_eq_true,
    if_false, if_true]

theorem frameHdr_verdict_clean (hcodewords : h.uncorr = 0) (hwords : h.flagged = false) :
    h.verdict body len = if h.crc = crc64 h.hdr body len then .good
      else if h.crc = ~~~(crc64 h.hdr body len) then .stomped else .corrupt := by
  simp only [FrameHdr.verdict, hcodewords, hwords, bne_self_eq_false, Bool.or_self, Bool.false_eq_true, if_false]

theorem frameHdr_verdict_uncorr (hbad : h.flagged = true ∨ h.uncorr ≠ 0) : h.verdict body len = .corrupt :=
  if_pos (by simpa using hbad)

/-! ### Where a correct frame leads by the state of its link (R383) -/

theorem Dev.frameVerdict_good (hlock : d.lnk p ≠ lsLock) (hrelock : d.lnk p ≠ lsRelock) :
    d.frameVerdict p h .good = ((d.passed p).headerIn p h, true) := by
  simp only [Dev.frameVerdict, hlock, hrelock, decide_false, Bool.false_and, Bool.false_eq_true, if_false]

theorem Dev.frameVerdict_lock (hlock : d.lnk p = lsLock) (hgood : 2 ≤ ((d.passed p).portSt p).good) :
    d.frameVerdict p h .good = ((d.passed p).enterInit p, true) := by
  simp only [Dev.frameVerdict, hlock, hgood, if_true]

theorem Dev.frameVerdict_relock (hrelock : d.lnk p = lsRelock) (hgood : 2 ≤ (((d.passed p).headerIn p h).portSt p).good) :
    d.frameVerdict p h .good = (((d.passed p).headerIn p h).wakeComplete p, true) := by
  simp [Dev.frameVerdict, hrelock, hgood]

end

/-! ### Acknowledgement (R364 to R366) -/

theorem Dev.ackIn_releases {a k first : Nat} {r : RepFrame} {rest : List RepFrame}
    (hrep : (d.portSt p).replay = r :: rest) (hfirst : first = (r.seq + 0xFFFFFF) % 2 ^ 24)
    (hk : k = (a + 2 ^ 24 - first) % 2 ^ 24) (hnew : k ≠ 0) (hsent : ¬ (r :: rest).length < k) :
    d.ackIn p a = d.setPort p { d.portSt p with
      replay := (r :: rest).drop k, replaying := min (d.portSt p).replaying ((r :: rest).drop k).length,
      replayEnd := if ((r :: rest).drop k).isEmpty then none else some (d.replayStart p) } := by
  simp only [Dev.ackIn, hrep, List.head?_cons, Option.map_some, Option.getD_some, ← hfirst, ← hk, hsent, hnew, if_false]

theorem Dev.accept_counts (he : e = d.wr F.PRT_LNK_SEQ_NEXT_RX p ((d.nextRx p + 1) % 2 ^ 24))
    (hfew : (e.portSt p).accepted < 31) :
    d.accept p = e.updPort p (fun x => { x with
      nakRaised := false, accepted := x.accepted + 1, ackAt := some (x.ackAt.getD e.ps) }) := by
  subst he
  refine if_neg ?_
  rw [Dev.portSt_updPort_self]
  exact Nat.not_le.mpr (Nat.succ_lt_succ hfew)

/-! ### DATA frames (R364, R370 to R372) -/

section
variable {fr : DataFrame}

theorem Dev.dataBody_accepted (hgood : fr.verdict = .good) (hseq : fr.seq = d.nextRx p) :
    d.dataBody p fr = (fr.marked.foldl (fun d c => d.cellIn p c) (d.accept p)).reXoff p := by
  simp only [Dev.dataBody, hgood, Dev.dataGood, hseq, if_true]

theorem Dev.dataBody_duplicate (hgood : fr.verdict = .good) (hseq : fr.seq ≠ d.nextRx p)
    (hpast : serialLt 24 fr.seq (d.nextRx p) = true) : d.dataBody p fr = (d.bump F.PRT_LNK_ERRCNT2_DUP p).ackEvent p := by
  simp only [Dev.dataBody, hgood, Dev.dataGood, hseq, hpast, if_false, if_true]

theorem Dev.dataBody_gap (hgood : fr.verdict = .good) (hseq : fr.seq ≠ d.nextRx p)
    (hahead : serialLt 24 fr.seq (d.nextRx p) = false) : d.dataBody p fr = (d.bump F.PRT_LNK_ERRCNT2_GAP p).nakEvent p := by
  simp only [Dev.dataBody, hgood, Dev.dataGood, hseq, hahead, Bool.false_eq_true, if_false]

theorem Dev.dataBody_corrupt (hbad : fr.verdict = .corrupt) : d.dataBody p fr = d.nakEvent p := by
  simp only [Dev.dataBody, hbad]

theorem Dev.dataBody_stomped (hbad : fr.verdict = .stomped) : d.dataBody p fr = d := by
  simp only [Dev.dataBody, hbad]

/-- A DATA frame of which no cell went on early, on a link that carries frames, acts by its body. -/
theorem next_belayDataRx {s : State} {p : Pid}
    (hlive : s.dev.dark = false ∧ s.dev.lnk p ≠ lsDown ∧ s.dev.lnk p ≠ lsParked ∧ fr.hdr.framed = true ∧
      s.dev.earlyCells p fr = [])
    (hheader : d = (s.dev.frameIn p fr.hdr fr.verdict).1 ∧ d.lnk p ≠ lsLock ∧ d.lnk p ≠ lsDown)
    (hbody : d.dataBody p fr = e) : exec (.belayDataRx p fr) s = .next (s.on e.fab) := by
  obtain ⟨hdark, hdown, hparked, hframed, hearly⟩ := hlive
  obtain ⟨rfl, hlock, hkept⟩ := hheader
  refine next_fab (exec_belayDataRx p fr s) (Eq.trans ?_ hbody)
  simp only [Dev.dataRx, hearly, Dev.dataIn, hdown, hparked, hdark, hframed, hlock, hkept, List.isEmpty_nil, decide_false,
    Bool.or_self, Bool.not_true, Bool.false_eq_true, if_false, if_true]

end

/-! ### Control frames whose body is used (R379 to R384) -/

section
variable {fr : CtlFrame} (hin : d.frameIn p fr.hdr fr.verdict = (e, true))
include hin

theorem Dev.ctlIn_used : d.ctlIn_ p fr = (e, true) := hin

theorem Dev.initIn_valid (hinit : e.lnk p = lsInit) (hversion : bitsOf (ctlWord fr.body 0) 0 8 = 1)
    (hcells : bitsOf (ctlWord fr.body 0) 16 8 ≠ 0) : d.initIn p fr = e.peerInit p fr := by
  simp [Dev.initIn, Dev.ctlIn_used hin, hinit, hversion, hcells]

theorem Dev.initIn_invalid (hinit : e.lnk p = lsInit) (hcells : bitsOf (ctlWord fr.body 0) 16 8 = 0) :
    d.initIn p fr = e.linkDown p 8 := by
  simp [Dev.initIn, Dev.ctlIn_used hin, hinit, hcells]

theorem Dev.creditIn_running (hrun : e.running p = true) : d.creditIn p fr = e.takeLimits p fr := by
  simp only [Dev.creditIn, Dev.ctlIn_used hin, hrun, Bool.not_true, Bool.or_self, Bool.false_eq_true, if_false]

theorem Dev.discoverIn_running (hrun : e.running p = true) : d.discoverIn p fr = e.identityIn p (ctlWord fr.body 0) := by
  simp only [Dev.discoverIn, Dev.ctlIn_used hin, hrun, Bool.and_self, if_true]

theorem Dev.timeReqIn_used : d.timeReqIn p fr = e.answerTime p fr := by
  simp only [Dev.timeReqIn, Dev.ctlIn_used hin, if_true]

theorem Dev.timeRespIn_found {x : Nat × Nat} (hlock : e.lnk p ≠ lsLock)
    (hfind : (e.portSt p).exch.find? (fun x => x.1 == bitsOf fr.body.toNat 8 8) = some x) :
    d.timeRespIn p fr = e.timeAnswer p fr x := by
  simp only [Dev.timeRespIn, Dev.ctlIn_used hin, hfind, hlock, Bool.not_true, decide_false, Bool.or_self, Bool.false_eq_true,
    if_false]

theorem Dev.downIn_used : d.downIn p fr = e.linkDown p 5 := by
  simp only [Dev.downIn, Dev.ctlIn_used hin, if_true]

theorem Dev.controlReserved_used : d.controlReserved p fr = e.bump F.PRT_LNK_DROP_CTRL_UNKNOWN p := by
  simp only [Dev.controlReserved, Dev.ctlIn_used hin, if_true]

end

/-! ### Errors (R361, R385) -/

theorem Dev.framingError_live (hdark : d.dark = false) (hdown : d.lnk p ≠ lsDown) (hparked : d.lnk p ≠ lsParked) :
    d.framingError p =
      ((d.updPort p (fun x => { x with good := 0 })).bump F.PRT_LNK_ERRCNT_FRAMING p).linkError p :=
  if_neg (by simp [hdark, hdown, hparked])

theorem Dev.linkError_elsewhere (he : e = d.bump F.PRT_LNK_STATE_LEVEL p) (hup : e.lnk p ≠ lsUp) : d.linkError p = e := by
  subst he
  exact if_neg (by simp [hup])

theorem Dev.linkError_degrades (he : e = d.bump F.PRT_LNK_STATE_LEVEL p) (hup : e.lnk p = lsUp)
    (hlimit : max 1 (e.rd F.PRT_LNK_ERR_ERR_LIMIT p) ≤ e.rd F.PRT_LNK_STATE_LEVEL p) :
    d.linkError p = ((e.setLnk p lsDegraded).updPort p (fun x => { x with
      out := x.out.map (fun c => { c with deg := c.t.cell.cls == 3 }),
      again := x.again.map (fun c => { c with deg := c.t.cell.cls == 3 }) })).fault 15 := by
  subst he
  exact if_pos (by simp only [hup, hlimit, decide_true, Bool.and_self])

end

/-- Settles O31: a frame by its framing, its verdict and the state of its link; a DATA frame by its sequence number; a control
frame whose body is used by the equation of its function. -/
theorem belayReceive : Obligations.BelayReceive := by
  unfold Obligations.BelayReceive
  refine ⟨?framed, ?unframed, ?verdict, ?uncorr, ?good, ?lock, ?relock, ?ack, ?accepted, ?duplicate, ?gap, ?corrupt, ?stomped,
    ?early, ?accept, ?idle, ?initValid, ?initInvalid, ?credit, ?discover, ?timeReq, ?timeResp, ?down, ?reserved, ?framing,
    ?error⟩
  case framed =>
    exact fun d p h v ⟨hdark, hdown, hparked, hframed⟩ =>
      ⟨Dev.frameIn_framed hdark hdown hparked hframed, fun e => ⟨rfl, rfl⟩⟩
  case unframed =>
    exact fun d p h v ⟨hdark, hdown, hparked, hframed⟩ => Dev.frameIn_unframed hdark hdown hparked hframed
  case verdict =>
    intro h body len ⟨hcodewords, hwords⟩
    rw [frameHdr_verdict_clean hcodewords hwords]
    refine ⟨fun hgood => if_pos hgood, fun hstomp => ?_, fun hgood hstomp => ?_⟩
    · rw [if_neg (hstomp ▸ BitVec.not_self_ne (by decide)), if_pos hstomp]
    · rw [if_neg hgood, if_neg hstomp]
  case uncorr => exact fun h body len hbad => frameHdr_verdict_uncorr hbad
  case good => exact fun d p h ⟨hlock, hrelock⟩ => Dev.frameVerdict_good hlock hrelock
  case lock => exact fun d p h ⟨hlock, hgood⟩ => Dev.frameVerdict_lock hlock hgood
  case relock => exact fun d p h ⟨hrelock, hgood⟩ => Dev.frameVerdict_relock hrelock hgood
  case ack =>
    exact fun d p a k first r rest ⟨hrep, hfirst, hk, hnew⟩ hsent => Dev.ackIn_releases hrep hfirst hk hnew hsent
  case accepted =>
    exact fun s p fr d hlive hheader ⟨hgood, hseq⟩ => next_belayDataRx hlive hheader (Dev.dataBody_accepted hgood hseq)
  case duplicate =>
    exact fun s p fr d hlive hheader ⟨hgood, hseq, hpast⟩ =>
      next_belayDataRx hlive hheader (Dev.dataBody_duplicate hgood hseq hpast)
  case gap =>
    exact fun s p fr d hlive hheader ⟨hgood, hseq, hahead⟩ =>
      next_belayDataRx hlive hheader (Dev.dataBody_gap hgood hseq hahead)
  case corrupt =>
    exact fun s p fr d hlive hheader hbad => next_belayDataRx hlive hheader (Dev.dataBody_corrupt hbad)
  case stomped =>
    exact fun s p fr d hlive hheader hbad => next_belayDataRx hlive hheader (Dev.dataBody_stomped hbad)
  case early =>
    rintro s p fr l ⟨rfl, hsome⟩
    exact (next_fab (exec_belayDataRx p fr s) (if_neg (by simp [hsome]))).trans
      (next_on (apply_ite Dev.fab _ _ _))
  case accept => exact fun d p e ⟨he, hfew⟩ => Dev.accept_counts he hfew
  case idle => exact fun s p hdr => exec_belayIdleRx p hdr s
  case initValid =>
    exact fun s p fr d ⟨hin, hinit, hversion, hcells⟩ =>
      next_fab (exec_belayInitRx p fr s) (Dev.initIn_valid hin hinit hversion hcells)
  case initInvalid =>
    exact fun s p fr d ⟨hin, hinit, hcells⟩ => next_fab (exec_belayInitRx p fr s) (Dev.initIn_invalid hin hinit hcells)
  case credit => exact fun s p fr d ⟨hin, hrun⟩ => next_fab (exec_belayCreditRx p fr s) (Dev.creditIn_running hin hrun)
  case discover =>
    exact fun s p fr d ⟨hin, hrun⟩ => next_fab (exec_belayDiscoverRx p fr s) (Dev.discoverIn_running hin hrun)
  case timeReq => exact fun s p fr d hin => next_fab (exec_belayTimeReqRx p fr s) (Dev.timeReqIn_used hin)
  case timeResp =>
    exact fun s p fr d e ⟨hin, hlock, hfind⟩ =>
      next_fab (exec_belayTimeRespRx p fr s) (Dev.timeRespIn_found hin hlock hfind)
  case down => exact fun s p fr d hin => next_fab (exec_belayDownRx p fr s) (Dev.downIn_used hin)
  case reserved =>
    exact fun s p fr d hin => next_fab (exec_belayControlReserved p fr s) (Dev.controlReserved_used hin)
  case framing =>
    exact fun s p ⟨hdark, hdown, hparked⟩ =>
      next_fab (exec_belayFramingError p s) (Dev.framingError_live hdark hdown hparked)
  case error => exact fun d p e he => ⟨Dev.linkError_elsewhere he, Dev.linkError_degrades he⟩

end Sys2Proof.Machine
end

section
/-! SUPPORT. The timers of a Belay port, each at its due time: acknowledgement and replay, credits, repeats of INIT and DISCOVER,
the limits of a state, and the decay of the error level (R365, R367 to R369, R375, R378, R379, R383, R385). -/

namespace Sys2Proof.Machine

section
variable {d e : Dev} {p : Nat}

/-! ### Acknowledgement and replay (R365 to R369) -/

theorem Dev.ackTimerEnd_due {t : Nat} (hdark : d.dark = false) (hat : (d.portSt p).ackAt = some t) :
    d.ackTimerEnd p = (d.advanceTo (t + nsPs (d.ackTimer p))).ackEvent p := by
  simp only [Dev.ackTimerEnd, hat, hdark, Bool.false_eq_true, if_false]

theorem Dev.nakEvent_first (hfirst : (d.portSt p).nakRaised = false) :
    d.nakEvent p = (d.ackEvent p).updPort p (fun x => { x with nakNext := true, nakRaised := true }) :=
  if_neg (by simp [hfirst])

theorem Dev.replayTimeout_due {t : Nat × Nat} (hdark : d.dark = false) (hend : (d.portSt p).replayEnd = some t)
    (hsome : (d.portSt p).replay.isEmpty = false) (he : e = d.advanceTo (d.replayDue p t)) :
    d.replayTimeout p = ((e.bump F.PRT_LNK_ERRCNT_REPLAY p).linkError p).startReplay p := by
  subst he
  simp only [Dev.replayTimeout, hend, hdark, hsome, Bool.or_self, Bool.false_eq_true, if_false]

section
variable {r : RepFrame} {l : List RepFrame} (hrep : (d.portSt p).replay = r :: l)
include hrep

theorem Dev.portSt_startReplay : (d.startReplay p).portSt p = { d.portSt p with
    replaying := (d.portSt p).replay.length, replayEnd := some (d.replayStart p), replayFrom := some (r.seq, d.ps) } := by
  simp only [Dev.startReplay, Dev.portSt_updPort_self, hrep]

theorem Dev.frameLifeEnd_oldest (hdark : d.dark = false) :
    d.frameLifeEnd p = (d.advanceTo (r.firstTx + usPs (d.frameLife p))).linkDown p 3 := by
  simp only [Dev.frameLifeEnd, hrep, hdark, Bool.false_eq_true, if_false]

end

/-! ### Credits (R375, R378) -/

theorem Dev.creditTimer_freed {t : Nat} (hrun : d.running p = true) (hat : (d.portSt p).freedAt = some t)
    (hfew : ¬ 8 ≤ (d.portSt p).freed) :
    d.creditTimer p = (d.advanceTo (min ((d.portSt p).creditAt + usPs 1)
      (t + nsPs (clampTo 10 1000 (d.rd F.PRT_LNK_CFG_CREDIT_NS p))))).sendCredit p := by
  simp only [Dev.creditTimer, hrun, hat, hfew, Bool.not_true, Bool.false_eq_true, if_false]

theorem Dev.creditAudit_bad (hdark : d.dark = false) (hdown : d.lnk p ≠ lsDown) (hlock : d.lnk p ≠ lsLock)
    (hinit : d.lnk p ≠ lsInit)
    (hbad : (List.range 16).any (fun v =>
      (d.portSt p).dedHeld v + ((d.portSt p).limOut v + 65536 - (d.portSt p).gotOf v) % 65536 != dedCells ||
        (d.portSt p).peerDed < ((d.portSt p).limIn v + 65536 - (d.portSt p).usedOf v) % 65536) = true) :
    d.creditAudit p = d.fault 9 := by
  simp only [Dev.creditAudit, hdark, hdown, hlock, hinit, hbad, decide_false, Bool.or_self, Bool.true_or, Bool.false_eq_true,
    if_false, if_true]

/-! ### Repeats (R379) -/

theorem Dev.initRepeat_init (hdark : d.dark = false) (hinit : (d.lnk p != lsInit) = false)
    (he : e = d.advanceTo ((d.portSt p).discAt + usPs 1)) :
    d.initRepeat p = (e.sendInit p).updPort p (fun x => { x with discAt := e.ps }) := by
  subst he
  simp only [Dev.initRepeat, hdark, hinit, Bool.or_self, Bool.false_eq_true, if_false]

theorem Dev.discoverRepeat_live (hdark : d.dark = false) (hdown : d.rtState p ≠ rsDown) (hparked : d.lnk p ≠ lsParked) :
    d.discoverRepeat p = (d.advanceTo ((d.portSt p).discAt + usPs 100)).sendDiscover p :=
  if_neg (by simp [hdark, hdown, hparked])

/-! ### The limits of a state (R383) -/

theorem Dev.stateTimeout_over {st limit reason : Nat} (hdark : d.dark = false) (hst : (d.lnk p != st) = false) :
    d.stateTimeout p st limit reason = (d.advanceTo ((d.portSt p).since + limit)).linkDown p reason :=
  if_neg (by simp [hdark, hst])

theorem Dev.relockTimeout_over (hdark : d.dark = false) (hrelock : (d.lnk p != lsRelock) = false) :
    d.relockTimeout p = ((d.advanceTo ((d.portSt p).since + usPs 2)).linkDown p 11).enterDetect p := by
  simp only [Dev.relockTimeout, Dev.stateTimeout_over hdark hrelock, hdark, hrelock, Bool.or_self, Bool.false_eq_true, if_false]

theorem Dev.framingLoss_running (hrun : d.running p = true) :
    d.framingLoss p = (d.advanceTo ((d.portSt p).lastGood + usPs 1)).linkDown p 4 :=
  if_pos (by simp [hrun])

theorem Dev.degradedRetrain_allowed (hdark : d.dark = false) (hdegraded : (d.lnk p != lsDegraded) = false)
    (hallowed : d.flag F.PRT_LNK_ERR_RETRAIN_EN p = true)
    (he : e = if (d.portSt p).out.any OutCell.deg then d.advanceTo ((d.portSt p).since + usPs 10) else d) :
    d.degradedRetrain p = ((e.sendDownFrames p 2).linkDown p 2).enterDetect p := by
  subst he
  exact if_neg (by simp [hdark, hdegraded, hallowed])

/-! ### The error level (R385) -/

/-- One unit of the level has decayed; a port that is not retrained leaves DEGRADED with the last. -/
theorem Dev.errDecay_lit {f : Dev} (hdark : d.dark = false)
    (he : e = d.advanceTo ((d.portSt p).decayAt + usPs (max 1 (d.rd F.PRT_LNK_ERR_ERR_DECAY_US p))))
    (hf : f = (e.wr F.PRT_LNK_STATE_LEVEL p (e.rd F.PRT_LNK_STATE_LEVEL p - 1)).updPort p (fun x => { x with
      decayAt := (e.wr F.PRT_LNK_STATE_LEVEL p (e.rd F.PRT_LNK_STATE_LEVEL p - 1)).ps })) :
    d.errDecay p =
      if f.lnk p = lsDegraded && !f.flag F.PRT_LNK_ERR_RETRAIN_EN p && f.rd F.PRT_LNK_STATE_LEVEL p = 0 then
        ((f.setLnk p lsUp).fault 15).sendCredit p
      else f := by
  subst he hf
  exact if_neg (by simp [hdark])

end

/-- Settles O33: each timer by the equation of its function, at a port whose state lets it run. -/
theorem belayTimers : Obligations.BelayTimers := by
  unfold Obligations.BelayTimers
  refine ⟨?ack, ?ackEvent, ?nakEvent, ?replay, ?due, ?start, ?life, ?credit, ?init, ?discover, ?lock, ?initLimit, ?relock,
    ?framing, ?decay, ?retrain, ?audit⟩
  case ack => exact fun s p t ⟨hdark, hat⟩ => next_fab (exec_belayAckTimer p s) (Dev.ackTimerEnd_due hdark hat)
  case ackEvent => exact fun d p => Dev.portSt_updPort_self _
  case nakEvent => exact fun d p hfirst => Dev.nakEvent_first hfirst
  case replay =>
    exact fun s p t d ⟨hdark, hend, hsome⟩ hd =>
      next_fab (exec_belayReplayTimeout p s) (Dev.replayTimeout_due hdark hend hsome hd)
  case due => exact fun d p => rfl
  case start => exact fun d p r l hrep => Dev.portSt_startReplay hrep
  case life =>
    exact fun s p r l ⟨hdark, hrep⟩ => next_fab (exec_belayFrameLife p s) (Dev.frameLifeEnd_oldest hrep hdark)
  case credit =>
    exact fun s p t ⟨hrun, hat, hfew⟩ => next_fab (exec_belayCreditTimer p s) (Dev.creditTimer_freed hrun hat hfew)
  case init =>
    exact fun s p d ⟨hdark, hinit, hd⟩ => next_fab (exec_belayInitRepeat p s) (Dev.initRepeat_init hdark hinit hd)
  case discover =>
    exact fun s p ⟨hdark, hdown, hparked⟩ =>
      next_fab (exec_belayDiscoverRepeat p s) (Dev.discoverRepeat_live hdark hdown hparked)
  case lock =>
    exact fun s p ⟨hdark, hlock⟩ => next_fab (exec_belayLockTimeout p s) (Dev.stateTimeout_over hdark hlock)
  case initLimit =>
    exact fun s p ⟨hdark, hinit⟩ => next_fab (exec_belayInitTimeout p s) (Dev.stateTimeout_over hdark hinit)
  case relock =>
    exact fun s p ⟨hdark, hrelock⟩ => next_fab (exec_belayRelockTimeout p s) (Dev.relockTimeout_over hdark hrelock)
  case framing =>
    exact fun s p ⟨hdark, hrun⟩ => next_fab (exec_belayFramingLoss p s)
      ((if_neg (by simp [hdark])).trans (Dev.framingLoss_running hrun))
  case decay =>
    exact fun s p d e ⟨hdark, hd⟩ he => next_fab (exec_belayErrDecay p s) (Dev.errDecay_lit hdark hd he)
  case retrain =>
    exact fun s p d ⟨hdark, hdegraded, hallowed⟩ hd =>
      next_fab (exec_belayDegradedRetrain p s) (Dev.degradedRetrain_allowed hdark hdegraded hallowed hd)
  case audit =>
    exact fun s p ⟨hdark, hdown, hlock, hinit⟩ hbad =>
      next_fab (exec_belayCreditAudit p s) (Dev.creditAudit_bad hdark hdown hlock hinit hbad)

end Sys2Proof.Machine
end

section
/-! SUPPORT. Parking: who may park, the answers to a request, what ends one, and the wake of a parked port (R382, R405 to R408,
R525). -/

namespace Sys2Proof.Machine

section
variable {d e : Dev} {p id t : Nat}

/-! ### Requests (R382, R405, R525) -/

theorem Dev.mayPark_conditions (h : d.mayPark p = true) :
    d.flag F.PRT_PARK_CFG_EN p = true ∧ d.trn p = tsTrained ∧ d.lnk p = lsUp ∧ (d.portSt p).replay = [] ∧
      (d.portSt p).out = [] ∧ (d.portSt p).ackAt = none ∧ d.rd F.TIME_STAT_PARENT ≠ p ∧
      d.rd F.PWR_POLICY_MIN_PORTS ≤ d.stayUp p := by
  simpa only [Dev.mayPark, Dev.trn, Bool.and_eq_true, and_assoc, beq_iff_eq, bne_iff_ne, List.isEmpty_iff,
    Option.isNone_iff_eq_none, decide_eq_true_eq] using h

theorem Dev.parkRequest_made (hmay : d.mayPark p = true) (hgo : d.halted = false) (hreq : (d.portSt p).parkReq = none)
    (hagree : (d.portSt p).parkAgree = none)
    (he : e = d.advanceTo ((d.portSt p).cellAt + usPs (max 1 (d.rd F.PRT_PARK_CFG_IDLE_US p))))
    (hid : id = ((d.portSt p).parkId + 1) % 256) :
    d.parkRequest p =
      (e.updPort p (fun x => { x with parkId := id, parkReq := some (id, e.ps), parkEnd := 0 })).queuePark p 1 id := by
  subst he hid
  exact if_neg (by simp [hmay, hgo, hreq, hagree])

/-! ### Answers (R382, R406, R407) -/

theorem Dev.parkWithdraw_none (hreq : (d.portSt p).parkReq = none) : d.parkWithdraw p = d := by
  simp only [Dev.parkWithdraw, hreq]

theorem Dev.parkAnswer_agree (hmay : d.mayPark p = true) (hgo : d.halted = false) :
    d.parkAnswer p id = (d.updPort p (fun x => { x with parkAgree := some (id, d.ps) })).queuePark p 2 id :=
  if_pos (by simp [hmay, hgo])

theorem Dev.parkAnswer_refuse (hmay : d.mayPark p = false) : d.parkAnswer p id = d.queuePark p 3 id :=
  if_neg (by simp [hmay])

section
variable {fr : CtlFrame} (hin : d.frameIn p fr.hdr fr.verdict = (e, true))
include hin

theorem Dev.parkRequestIn_alone (hrun : e.running p = true) (hreq : (e.portSt p).parkReq = none) :
    d.parkRequestIn p fr = e.parkAnswer p (bitsOf fr.body.toNat 8 8) := by
  simp [Dev.parkRequestIn, Dev.ctlIn_used hin, hrun, hreq, Dev.parkWithdraw_none hreq]

/-- Of two requests that cross, that of the greater identity stands. -/
theorem Dev.parkRequestIn_crossing (hrun : e.running p = true) (hreq : (e.portSt p).parkReq.isSome = true)
    (hgreater : e.greater p = true) : d.parkRequestIn p fr = e.queuePark p 3 (bitsOf fr.body.toNat 8 8) := by
  simp [Dev.parkRequestIn, Dev.ctlIn_used hin, hrun, hreq, hgreater]

theorem Dev.parkAgreeIn_answers {f : Dev} (hwork : e.parkWork p = f) (hreq : (f.portSt p).parkReq = some (id, t))
    (hup : f.lnk p = lsUp) (hid : bitsOf fr.body.toNat 8 8 = id) : d.parkAgreeIn p fr = f.parkOrNot p := by
  simp [Dev.parkAgreeIn, Dev.ctlIn_used hin, hwork, hreq, hup, hid]

theorem Dev.parkRefuseIn_answers (hreq : (e.portSt p).parkReq = some (id, t)) (hid : bitsOf fr.body.toNat 8 8 = id) :
    d.parkRefuseIn p fr = e.updPort p (fun x => { x with parkReq := none }) := by
  simp [Dev.parkRefuseIn, Dev.ctlIn_used hin, hreq, hid]

theorem Dev.parkWakeIn_withdraws (hagree : (e.portSt p).parkAgree = some (id, t)) (hid : bitsOf fr.body.toNat 8 8 = id) :
    d.parkWakeIn p fr = e.updPort p (fun x => { x with parkAgree := none }) := by
  simp [Dev.parkWakeIn, Dev.ctlIn_used hin, hagree, hid]

end

/-! ### The end of a request or an agreement (R406) -/

theorem Dev.parkTimeout_request (hreq : (d.portSt p).parkReq = some (id, t)) (hidle : (d.portSt p).out.isEmpty = true)
    (he : e = d.advanceTo (t + usPs 2)) : d.parkTimeout p = e.parkWithdraw p := by
  subst he
  simp only [Dev.parkTimeout, hreq, hidle, if_true]

theorem Dev.parkTimeout_agree (hreq : (d.portSt p).parkReq = none) (hagree : (d.portSt p).parkAgree = some (id, t))
    (he : e = d.advanceTo (t + usPs 2)) :
    d.parkTimeout p = (e.updPort p (fun x => { x with parkAgree := none })).ev 8 10 (some p) := by
  subst he
  simp only [Dev.parkTimeout, hreq, hagree]

theorem Dev.parkSignalLost_within (hagree : (d.portSt p).parkAgree = some (id, t)) (hup : d.lnk p = lsUp)
    (hsoon : d.ps ≤ t + usPs 2) : d.parkSignalLost p = d.enterParked p := by
  simp only [Dev.parkSignalLost, hagree, hup, hsoon, decide_true, Bool.and_self, if_true]

/-! ### Wake and recalibration (R407, R408) -/

theorem Dev.wakeStart_parked (hparked : d.lnk p = lsParked) (hdark : d.dark = false) (hasleep : (d.portSt p).waking = false) :
    d.wakeStart p = (d.setIdle p false).updPort p (fun x => { x with waking := true }) :=
  if_neg (by simp [hparked, hdark, hasleep])

theorem Dev.relockDone_waking {ok : Bool} (hparked : d.lnk p = lsParked) (hwaking : (d.portSt p).waking = true) :
    d.relockDone p ok = if ok then (d.setLnk p lsRelock).startPath p else (d.linkDown p 11).enterDetect p :=
  if_neg (by simp [hparked, hwaking])

theorem Dev.parkedRecal_asleep {cal : CalIn} (hparked : d.trn p = tsParked)
    (hallowed : d.flag F.PRT_PARK_CFG_RECAL_PARKED p = true) (hasleep : (d.portSt p).waking = false)
    (he : e = lanes4.foldl (fun d l => d.calLane p l (!cal.quiet) (cal.failed.getLsbD l))
      (d.advanceTo ((d.portSt p).recalAt + msPs 100))) :
    d.parkedRecal p cal = e.updPort p (fun x => { x with recalAt := e.ps }) := by
  subst he
  exact if_neg (by simp [hparked, hallowed, hasleep])

end

/-- Settles O35: a received PARK frame by the header it came with, the request or agreement it names, and `Dev.mayPark`; a timer
or a wake by the equation of its function. -/
theorem portParking : Obligations.PortParking := by
  unfold Obligations.PortParking
  refine ⟨?request, ?may, ?queue, ?agree, ?refuse, ?crossing, ?agreed, ?refused, ?withdrawn, ?unanswered, ?unparked, ?lost,
    ?enter, ?wake, ?detect, ?relock, ?recal⟩
  case request =>
    exact fun s p d id ⟨hmay, hgo, hreq, hagree⟩ ⟨hd, hid⟩ =>
      next_fab (exec_portParkRequest p s) (Dev.parkRequest_made hmay hgo hreq hagree hd hid)
  case may => exact fun d p hmay => Dev.mayPark_conditions hmay
  case queue => exact fun d p op id => Dev.portSt_updPort_self _
  case agree =>
    rintro s p fr d id ⟨hin, hrun, hreq⟩ ⟨hmay, hgo, rfl⟩
    exact next_fab (exec_parkRequestRx p fr s)
      ((Dev.parkRequestIn_alone hin hrun hreq).trans (Dev.parkAnswer_agree hmay hgo))
  case refuse =>
    exact fun s p fr d ⟨hin, hrun, hreq, hmay⟩ => next_fab (exec_parkRequestRx p fr s)
      ((Dev.parkRequestIn_alone hin hrun hreq).trans (Dev.parkAnswer_refuse hmay))
  case crossing =>
    exact fun s p fr d ⟨hin, hrun, hreq, hgreater⟩ =>
      next_fab (exec_parkRequestRx p fr s) (Dev.parkRequestIn_crossing hin hrun hreq hgreater)
  case agreed =>
    exact fun s p fr d e id t ⟨hin, hwork⟩ ⟨hreq, hup, hid⟩ =>
      have hanswer := Dev.parkAgreeIn_answers hin hwork hreq hup hid
      ⟨fun hmany => next_fab (exec_parkAgreeRx p fr s) (hanswer.trans (if_pos hmany)),
        fun hfew => next_fab (exec_parkAgreeRx p fr s) (hanswer.trans (if_neg hfew))⟩
  case refused =>
    exact fun s p fr d id t ⟨hin, hreq, hid⟩ =>
      next_fab (exec_parkRefuseRx p fr s) (Dev.parkRefuseIn_answers hin hreq hid)
  case withdrawn =>
    exact fun s p fr d id t ⟨hin, hagree, hid⟩ =>
      next_fab (exec_parkWakeRx p fr s) (Dev.parkWakeIn_withdraws hin hagree hid)
  case unanswered =>
    exact fun s p id t d ⟨hreq, hidle⟩ hd => next_fab (exec_parkTimeout p s) (Dev.parkTimeout_request hreq hidle hd)
  case unparked =>
    exact fun s p id t d ⟨hreq, hagree⟩ hd => next_fab (exec_parkTimeout p s) (Dev.parkTimeout_agree hreq hagree hd)
  case lost =>
    exact fun s p id t ⟨hagree, hup, hsoon⟩ =>
      next_fab (exec_parkSignalLost p s) (Dev.parkSignalLost_within hagree hup hsoon)
  case enter =>
    rintro d p e f ⟨rfl, rfl⟩
    rfl
  case wake =>
    exact fun s p ⟨hparked, hdark, hasleep, hwant⟩ => next_fab (exec_portWake p s)
      ((if_pos hwant).trans (Dev.wakeStart_parked hparked hdark hasleep))
  case detect =>
    exact fun s p ⟨hparked, hdark, hasleep⟩ =>
      next_fab (exec_parkSignalDetect p s) (Dev.wakeStart_parked hparked hdark hasleep)
  case relock =>
    exact fun s p ⟨hparked, hwaking⟩ =>
      ⟨next_fab (exec_parkRelockDone p true s) (Dev.relockDone_waking hparked hwaking),
        next_fab (exec_parkRelockDone p false s) (Dev.relockDone_waking hparked hwaking)⟩
  case recal =>
    exact fun s p cal d ⟨hparked, hallowed, hasleep⟩ hd =>
      next_fab (exec_parkedRecal p cal s) (Dev.parkedRecal_asleep hparked hallowed hasleep hd)

end Sys2Proof.Machine
end

section
/-! SUPPORT. Who reaches the transactions and the TAP: what every command, whatever it makes of the device, leaves of the two
other parts of the state; and the transactions kept apart through a step (R516 to R519, R591). -/

namespace Sys2Proof.Machine

/-- A TAP instruction without its supply leaves the state; with it, it leaves all but the TAP and what its effect on the device
reaches. -/
theorem onTap_reach {s t : State} {ir : BitVec 8} {f : Dev → Tap → Dev × Tap}
    (hf : ∀ d x, { (f d x).1 with log := [], fresh := 0 } = { d with log := [], fresh := 0 }) (he : onTap s ir f = .next t) :
    { t.dev with log := [], fresh := 0 } = { s.dev with log := [], fresh := 0 } ∧ t.txns = s.txns ∧ t.pending = s.pending := by
  unfold onTap at he
  split at he
  · injection he with he
    subst he
    exact ⟨rfl, rfl, rfl⟩
  · injection he with he
    subst he
    exact ⟨hf _ _, rfl, rfl⟩

theorem onTap_txns {s t : State} {ir : BitVec 8} {f : Dev → Tap → Dev × Tap} (he : onTap s ir f = .next t) :
    t.txns = s.txns := by
  unfold onTap at he
  split at he <;> (injection he with he; subst he; rfl)

theorem onTxn_tap {s t : State} {r : Req} {a : Nat} {f : State → Nat → State} (hf : ∀ s k, (f s k).tap = s.tap)
    (he : onTxn s r a f = .next t) : t.tap = s.tap := by
  unfold onTxn at he
  split at he
  · injection he with he
    subst he
    rfl
  · split at he
    · injection he with he
      subst he
      rfl
    · split at he
      · injection he with he
        subst he
        rfl
      · injection he with he
        subst he
        exact hf _ _

theorem txnBegin_tap (s : State) (k : Nat) : (s.txnBegin k).tap = s.tap := by
  unfold State.txnBegin
  dsimp only
  split <;> rfl

theorem txnCommit_tap (s : State) (k : Nat) : (s.txnCommit k).tap = s.tap := by
  unfold State.txnCommit
  dsimp only
  split <;> rfl

theorem txnRollback_tap (s : State) (k : Nat) : (s.txnRollback k).tap = s.tap := by
  unfold State.txnRollback
  dsimp only
  split <;> rfl

theorem txnApplied_tap (s : State) (k : Nat) : (s.txnApplied k).tap = s.tap := by
  unfold State.txnApplied
  dsimp only
  split
  · rfl
  · rfl
  · split <;> rfl

theorem setTxn_tap (s : State) (k : Nat) (x : Txn) : (s.setTxn k x).tap = s.tap := rfl

theorem txnTimeout_tap (s : State) (k : Nat) : (s.txnTimeout k).tap = s.tap := by
  unfold State.txnTimeout
  dsimp only
  generalize s.dev.advanceTo _ = d
  split
  · rfl
  · rw [setTxn_tap]
  · rfl

theorem execTxnApplied_tap {r : Req} {s t : State} (he : execTxnApplied r s = .next t) : t.tap = s.tap := by
  unfold execTxnApplied at he
  split at he
  · injection he with he
    subst he
    rfl
  · injection he with he
    subst he
    split
    · rfl
    · exact txnApplied_tap s _

theorem execTxnTimeout_tap {r : Req} {s t : State} (he : execTxnTimeout r s = .next t) : t.tap = s.tap := by
  unfold execTxnTimeout at he
  split at he
  · injection he with he
    subst he
    rfl
  · injection he with he
    subst he
    split
    · rfl
    · exact txnTimeout_tap s _

/-- A command that the list leaves out replaces other parts of the state than the transactions, or is a TAP instruction. -/
theorem exec_txns {c : Instr} {s t : State} (he : exec c s = .next t) (hc : ¬ mayMoveTxns c) : t.txns = s.txns := by
  cases c with
  | extest | idcode | samplePreload | highz | clamp | extestPulse | extestTrain | dbgAccess | bypass =>
    dsimp only [exec] at he
    exact onTap_txns he
  | stP | hostPerstAssert | hostLinkDown | flr | busMasterClear | vfEnableClear | fnEnClear | powerOn | vaonLoss | sysReset
  | railPgTimeout | railPgLost | fwReady | mbxGetInfo | mbxGateWrite | mbxFwStage | mbxFwActivate | mbxFuseRollback
  | mbxKeyRevoke | mbxModulePage | mbxParam | mbxBivouac | pldmMessage | txnBegin | txnCommit | txnRollback | txnApplied
  | txnTimeout | pwrEnterBivouac | readClear | regWrite | mbxOtherOpcode => exact absurd trivial hc
  | _ =>
    injection he with he
    subst he
    rfl

/-- A command that the list leaves out replaces other parts of the state than the TAP, or acts on a transaction. -/
theorem exec_tap {c : Instr} {s t : State} (he : exec c s = .next t) (hc : ¬ mayMoveTap c) : t.tap = s.tap := by
  cases c with
  | txnBegin => exact onTxn_tap txnBegin_tap he
  | txnCommit => exact onTxn_tap txnCommit_tap he
  | txnRollback => exact onTxn_tap txnRollback_tap he
  | txnApplied => exact execTxnApplied_tap he
  | txnTimeout => exact execTxnTimeout_tap he
  | stP | powerOn | vaonLoss | railPgTimeout | railPgLost | fwReady | mbxGetInfo | mbxGateWrite | mbxFwStage | mbxFwActivate
  | mbxFuseRollback | mbxKeyRevoke | mbxModulePage | mbxParam | mbxBivouac | pldmMessage | pwrEnterBivouac | readClear
  | regWrite | mbxOtherOpcode | trstN | extest | idcode | samplePreload | highz | clamp | extestPulse | extestTrain
  | dbgAccess | bypass => exact absurd trivial hc
  | _ =>
    injection he with he
    subst he
    rfl

/-- Settles O55: the first two clauses by the command; the effect of each TAP instruction on the device is an output or a free
value. -/
theorem commandReach : Obligations.CommandReach := by
  refine ⟨fun c s t ⟨he, hc⟩ => exec_txns he hc, fun c s t ⟨he, hc⟩ => exec_tap he hc, ?tapDevice⟩
  case tapDevice =>
    rintro c s t he (rfl | rfl | rfl | rfl | rfl | rfl | rfl | rfl | rfl | rfl)
    · injection he with he
      subst he
      exact ⟨rfl, rfl, rfl⟩
    all_goals
      dsimp only [exec] at he
      refine onTap_reach ?_ he
      exact fun d x => rfl

theorem txnsApart_execStP {th : Tid} {f : FmtI} {ext : Ext} {s t : State} (h : TxnsApart s.txns)
    (he : execStP th f ext s = .next t) : TxnsApart t.txns := by
  unfold execStP at he
  extract_lets d at he
  split at he
  · injection he with he
    subst he
    exact h
  · injection he with he
    subst he
    exact txnsApart_settled _ _ (txnsApart_regWrite s h _ _ _ _ _)

theorem txnsApart_execMbxGateWrite {m : Fin 8} {s t : State} (h : TxnsApart s.txns) (he : execMbxGateWrite m s = .next t) :
    TxnsApart t.txns := by
  unfold execMbxGateWrite at he
  extract_lets d at he
  split at he
  · split at he
    · injection he with he
      subst he
      exact txnsApart_settled _ _ (txnsApart_gateWrite s h m)
    · injection he with he
      subst he
      exact h
  · exact txnsApart_power s t h _ he

theorem txnsApart_onMbx {s t : State} {m op : Nat} {f : Dev → Dev} (h : TxnsApart s.txns) (he : onMbx s m op f = .next t) :
    TxnsApart t.txns := txnsApart_power s t h _ he

theorem txnsApart_sysReset {s t : State} (h : TxnsApart s.txns) (he : execSysReset s = .next t) : TxnsApart t.txns := by
  unfold execSysReset at he
  injection he with he
  subst he
  dsimp only
  split
  · exact txnsApart_reset h
  · exact h

theorem txnsApart_execTxnApplied {r : Req} {s t : State} (h : TxnsApart s.txns) (he : execTxnApplied r s = .next t) :
    TxnsApart t.txns := by
  unfold execTxnApplied at he
  split at he
  · injection he with he
    subst he
    exact h
  · injection he with he
    subst he
    split
    · exact h
    · exact txnsApart_applied s h _

theorem txnsApart_execTxnTimeout {r : Req} {s t : State} (h : TxnsApart s.txns) (he : execTxnTimeout r s = .next t) :
    TxnsApart t.txns := by
  unfold execTxnTimeout at he
  split at he
  · injection he with he
    subst he
    exact h
  · injection he with he
    subst he
    split
    · exact h
    · exact txnsApart_timeout s h _

/-- A command that may move the transactions is one of power, of a drain, of register space or of a transaction; each keeps them
apart, and every other command leaves them. -/
theorem txnsApart_exec {c : Instr} {s t : State} (h : TxnsApart s.txns) (he : exec c s = .next t) : TxnsApart t.txns := by
  by_cases hc : mayMoveTxns c
  case neg => rw [exec_txns he hc]; exact h
  cases c with
  | stP => exact txnsApart_execStP h he
  | hostPerstAssert | hostLinkDown | flr | busMasterClear | vfEnableClear | fnEnClear =>
    dsimp only [exec] at he
    exact txnsApart_onDrain s t h _ he
  | powerOn | vaonLoss | railPgTimeout | railPgLost | fwReady | pldmMessage | pwrEnterBivouac | mbxOtherOpcode =>
    dsimp only [exec] at he
    exact txnsApart_power s t h _ he
  | mbxGetInfo | mbxFwStage | mbxFwActivate | mbxFuseRollback | mbxKeyRevoke | mbxModulePage | mbxParam | mbxBivouac =>
    dsimp only [exec] at he
    exact txnsApart_onMbx h he
  | sysReset => exact txnsApart_sysReset h he
  | mbxGateWrite => exact txnsApart_execMbxGateWrite h he
  | txnBegin => exact txnsApart_onTxn s t h _ _ _ (fun s k h => txnsApart_begin s h k) he
  | txnCommit => exact txnsApart_onTxn s t h _ _ _ (fun s k h => txnsApart_commit s h k) he
  | txnRollback => exact txnsApart_onTxn s t h _ _ _ (fun s k h => txnsApart_rollback s h k) he
  | txnApplied => exact txnsApart_execTxnApplied h he
  | txnTimeout => exact txnsApart_execTxnTimeout h he
  | readClear r a n =>
    injection he with he
    subst he
    exact txnsApart_accRead s h r _ n
  | regWrite r a n v =>
    injection he with he
    subst he
    exact txnsApart_accWrite s h r _ n v
  | _ => exact hc.elim

/-- Settles O56: a tick leaves the transactions, and every command keeps them apart. -/
theorem transactionsStayApart : Obligations.TransactionsStayApart := by
  rintro s t ⟨h, he⟩
  unfold step at he
  split at he
  · injection he with he
    subst he
    exact h
  · next c rest _ => exact txnsApart_exec (s := { s with pending := rest }) h he

/-- Settles O57: the table of transactions is empty, and a key that it does not hold reads as no transaction. -/
theorem transactionsAtReset : Obligations.TransactionsAtReset := ⟨txnsApart_nil, fun _ => ⟨rfl, rfl⟩⟩

end Sys2Proof.Machine
end

section
/-! SUPPORT. The TAP: an instruction with its supply, and one without (R590, R591). -/

namespace Sys2Proof.Machine

theorem onTap_on {s : State} {ir : BitVec 8} {f : Dev → Tap → Dev × Tap} (hon : s.dev.tapOn = true) : onTap s ir f =
    .next { s with
      dev := (f s.dev { s.tap with inReset := false, ir := ir }).1, tap := (f s.dev { s.tap with inReset := false, ir := ir }).2 } :=
  if_neg (by simp [hon])

theorem onTap_off {s : State} {ir : BitVec 8} {f : Dev → Tap → Dev × Tap} (hoff : s.dev.tapOn = false) :
    onTap s ir f = .next s := if_pos (by simp [hoff])

/-- Settles O50: an instruction enters the instruction register and has its effect where the TAP has its supply. -/
theorem testAccess : Obligations.TestAccess := by
  refine ⟨?trst, ?on, ?sample, ?off⟩
  case trst => exact fun s => exec_trstN s
  case on =>
    intro s hon
    exact ⟨(exec_extest s).trans (onTap_on hon), (exec_clamp s).trans (onTap_on hon), (exec_extestPulse s).trans (onTap_on hon),
      (exec_extestTrain s).trans (onTap_on hon), (exec_idcode s).trans (onTap_on hon), (exec_highz s).trans (onTap_on hon),
      (exec_dbgAccess s).trans (onTap_on hon), (exec_bypass s).trans (onTap_on hon)⟩
  case sample =>
    rintro s w d ⟨hon, hfree⟩
    refine (exec_samplePreload s).trans ((onTap_on hon).trans ?_)
    rw [hfree]
  case off =>
    intro s hoff
    exact ⟨(exec_extest s).trans (onTap_off hoff), (exec_idcode s).trans (onTap_off hoff),
      (exec_samplePreload s).trans (onTap_off hoff), (exec_highz s).trans (onTap_off hoff), (exec_clamp s).trans (onTap_off hoff),
      (exec_extestPulse s).trans (onTap_off hoff), (exec_extestTrain s).trans (onTap_off hoff),
      (exec_dbgAccess s).trans (onTap_off hoff), (exec_bypass s).trans (onTap_off hoff)⟩

end Sys2Proof.Machine
end

section
/-! SUPPORT. The Rope ring: what becomes of a received packet, what a port sends, what HELLO, FAULT and MGMT tell, and a port's
alignment (R412 to R417). -/

namespace Sys2Proof.Machine

section
variable {d e : Dev} {r kind : Nat} {k : RopeFrame}

/-! ### A received packet (R415) -/

theorem Dev.ropeIn_down (hdown : d.ropeUp r = false) : d.ropeIn r kind k = (d, false) := by
  simp only [Dev.ropeIn, hdown, Bool.not_false, Bool.true_or, if_true]

theorem Dev.ropeIn_badCrc (hup : d.ropeUp r = true) (habort : k.abort = false)
    (hcrc : (k.crc.toNat != crc32 (rxPkt k kind).raw) = true) : d.ropeIn r kind k = (d.bump F.ROPE_PORT_STAT_CRC_ERR r, false) := by
  simp only [Dev.ropeIn, hup, habort, hcrc, Bool.not_true, Bool.or_self, Bool.false_eq_true, if_false, if_true]

section
variable (hup : d.ropeUp r = true) (hassigned : d.flag F.RTE_ID_ASSIGNED = true) (hcast : k.dst.getLsbD 31 = false)
  (hsrc : k.src.getLsbD 18 = false) (habort : k.abort = false) (hcrc : k.crc.toNat = crc32 (rxPkt k kind).raw)
include hup hassigned hcast hsrc habort hcrc

theorem Dev.ropeIn_mine (hdst : bitsOf k.dst.toNat 0 18 = d.myDev) : d.ropeIn r kind k = (d, true) := by
  simp only [Dev.ropeIn, hup, hassigned, hcast, hsrc, habort, hcrc, hdst, decide_true, bne_self_eq_false, Bool.not_true,
    Bool.or_self, Bool.or_true, Bool.true_or, Bool.and_self, Bool.false_and, Bool.false_eq_true, if_false]

theorem Dev.ropeIn_forwarded (hdst : bitsOf k.dst.toNat 0 18 ≠ d.myDev) (hlive : 1 < k.ttl.toNat) : d.ropeIn r kind k =
    (d.ropeSend (1 - r) ⟨kind, k.ttl.toNat - 1, k.src.toNat, k.dst.toNat, k.len, k.body⟩, false) := by
  simp only [Dev.ropeIn, hup, hassigned, hcast, hsrc, habort, hcrc, hdst, hlive, decide_true, decide_false, bne_self_eq_false,
    Bool.not_true, Bool.not_false, Bool.or_self, Bool.or_true, Bool.and_self, Bool.and_false, Bool.false_and, Bool.false_eq_true,
    if_false, if_true]
  rfl

end

theorem Dev.ropeDiscard_up (hup : d.ropeUp r = true) : d.ropeDiscard r = d.bump F.ROPE_PORT_STAT_CRC_ERR r := if_pos hup

/-! ### What a port sends (R413, R415) -/

section
variable {x : RopePkt} (hen : getBits (d.reg R.ROPE_CFG) r 1 ≠ 0) (hstate : (d.rd F.ROPE_PORT_STAT_STATE r != 2) = false)
  (hpower : d.ropePower = true)
include hen hstate hpower

theorem Dev.ropeSend_full (hfull : 8 ≤ (d.ropeSt r).q.length) : d.ropeSend r x = d.bump F.ROPE_PORT_STAT_DROPS r := by
  exact (if_neg (by simp [hen, hstate, hpower])).trans (if_pos hfull)

theorem Dev.ropeSend_room (hroom : (d.ropeSt r).q.length < 8) : d.ropeSend r x = d.updRope r (fun y => { y with q := y.q ++ [x] }) := by
  exact (if_neg (by simp [hen, hstate, hpower])).trans (if_neg (Nat.not_le.mpr hroom))

end

theorem Dev.ropeHelloTimer_power (hpower : d.ropePower = true)
    (he : e = { d.advanceTo (d.time.helloAt + usPs 100) with time.helloAt := (d.advanceTo (d.time.helloAt + usPs 100)).ps }) :
    d.ropeHelloTimer = [0, 1].foldl (fun d r => d.ropeSend r
      ⟨1, 1, d.ropeSrc, 2 ^ 31, 6, d.rd F.RTE_ID_SYSTEM_ID + r * 2 ^ 16 + d.rd F.ROPE_CFG_POSITION * 2 ^ 17⟩) e := by
  subst he
  exact if_neg (by simp [hpower])

theorem Dev.ropeFaultRepeat_safe (hpower : d.ropePower = true) (hsafe : d.pwr.state = .safe) :
    d.ropeFaultRepeat = (d.advanceTo (d.flt.faultAt + usPs 10)).ropeFault 1 := by
  simp only [Dev.ropeFaultRepeat, hpower, hsafe, Bool.not_true, Bool.false_eq_true, if_false]

theorem Dev.ropeFaultRepeat_whiteout (hpower : d.ropePower = true) (hwhiteout : d.pwr.state = .whiteout) :
    d.ropeFaultRepeat = (d.advanceTo (d.flt.faultAt + usPs 10)).ropeFault 2 := by
  simp only [Dev.ropeFaultRepeat, hpower, hwhiteout, Bool.not_true, Bool.false_eq_true, if_false]

theorem Dev.ropeFaultRepeat_dark (hpower : d.ropePower = false) : d.ropeFaultRepeat = d := by
  simp only [Dev.ropeFaultRepeat, hpower, Bool.not_false, if_true]

/-! ### HELLO, FAULT and MGMT (R416, R417) -/

theorem Dev.ropeHello_good (hin : d.ropeIn r 1 k = (e, true)) (hother : bitsOf k.body 16 1 ≠ r) :
    d.ropeHello r k = (e.ropeNbr r k).wr F.ROPE_PORT_STAT_SWAPPED r 0 := by
  simp only [Dev.ropeHello, hin, hother, Bool.not_true, Bool.false_eq_true, if_false]

theorem Dev.ropeHello_swapped (hin : d.ropeIn r 1 k = (e, true)) (hsame : bitsOf k.body 16 1 = r) :
    d.ropeHello r k = ((e.ropeNbr r k).wr F.ROPE_PORT_STAT_SWAPPED r 1).fault 21 := by
  simp only [Dev.ropeHello, hin, hsame, Bool.not_true, Bool.false_eq_true, if_false, if_true]

theorem Dev.ropeFaultIn_taken (hin : d.ropeIn r 3 k = (e, true)) : d.ropeFaultIn r k = e.fault 22 := by
  simp only [Dev.ropeFaultIn, hin, if_true]

theorem Dev.ropeMgmt_taken (hin : d.ropeIn r 4 k = (e, true)) :
    d.ropeMgmt r k = Dev.mgmtAnswer { e with bcp.ropeIn := e.bcp.ropeIn ++ [(k.src.toNat, k.body)] } r k := by
  simp only [Dev.ropeMgmt, hin, if_true]

/-! ### Alignment (R414) -/

section
variable {l0 l1 : BitVec 24} {skew : Nat} (hpower : d.ropePower = true) (hen : getBits (d.reg R.ROPE_CFG) r 1 ≠ 0)
include hpower hen

theorem Dev.ropeAlign_good {inv : Nat} {sw : Bool} (hgood : alignGood l0 l1 skew = some (inv, sw)) : d.ropeAlign r l0 l1 skew =
    (d.updRope r (fun x => { x with heardAt := d.ps })).ropeGood r inv sw := by
  simp [Dev.ropeAlign, hpower, hen, hgood]

theorem Dev.ropeAlign_bad (hbad : alignGood l0 l1 skew = none) : d.ropeAlign r l0 l1 skew =
    (d.updRope r (fun x => { x with heardAt := d.ps })).updRope r (fun x => { x with good := 0 }) := by
  simp [Dev.ropeAlign, hpower, hen, hbad]

end

theorem Dev.ropeGood_notUp {inv : Nat} {sw : Bool}
    (he : e = ((d.wr F.ROPE_PORT_STAT_POL_INV r inv).wr F.ROPE_PORT_STAT_LANES_SWAPPED r (if sw then 1 else 0)).updRope r
      (fun x => { x with good := min 4 (x.good + 1) })) (hstate : e.rd F.ROPE_PORT_STAT_STATE r ≠ 2) :
    d.ropeGood r inv sw = e.wr F.ROPE_PORT_STAT_STATE r (if (e.ropeSt r).good = 4 then 2 else 1) := by
  subst he
  exact if_neg hstate

/-- The sender's lanes are those of the names, and a deskew of at most 16 columns reaches. -/
theorem alignGood_named {x y : Bool × Nat} {l0 l1 : BitVec 24} {skew : Nat} (h0 : alignLane l0 = some x) (h1 : alignLane l1 = some y)
    (hskew : skew ≤ 16) : alignGood l0 l1 skew =
      if x.2 = y.2 then none else some ((if x.1 then 1 else 0) + (if y.1 then 2 else 0), x.2 == 1) := by
  simp only [alignGood, h0, h1, hskew, decide_true, Bool.and_true, bne_iff_ne, ne_eq, ite_not]

theorem Dev.ropeLoss_errs (l : RopeLoss) : d.ropeLoss l = match l.errs with
    | none => (d.advanceTo ((d.ropeSt l.r).heardAt + 4096 * 3200)).ropeDown l.r
    | some e => if 4 ≤ onesOf 32 e.toNat then d.ropeDown l.r else d := by
  unfold Dev.ropeLoss
  cases l.errs <;> rfl

end

/-- A command of the Rope ring answers the state with the device it makes. -/
theorem next_dev {s : State} {i : Instr} {f : Dev → Dev} {e : Dev} (hexec : exec i s = onDev s f) (h : f s.dev = e) :
    exec i s = .next (s.on e) := by
  subst h
  exact hexec

/-- Settles O36: a packet by the tests of R415 in their order, each command by the equation of its function. -/
theorem ropeRing : Obligations.RopeRing := by
  unfold Obligations.RopeRing
  refine ⟨?mine, ?forward, ?badCrc, ?down, ?send, ?hello, ?swapped, ?nbr, ?fault, ?mgmt, ?discard, ?helloTimer, ?repeat_, ?dark,
    ?alignGood, ?alignBad, ?sets, ?loss, ?goesDown⟩
  case mine =>
    exact fun d r kind k ⟨hup, hassigned, hcast, hdst⟩ ⟨hsrc, habort⟩ hcrc =>
      Dev.ropeIn_mine hup hassigned hcast hsrc habort hcrc hdst
  case forward =>
    exact fun d r kind k ⟨hup, hassigned, hcast, hdst⟩ ⟨hsrc, hlive, habort⟩ hcrc =>
      Dev.ropeIn_forwarded hup hassigned hcast hsrc habort hcrc hdst hlive
  case badCrc => exact fun d r kind k ⟨hup, habort, hcrc⟩ => Dev.ropeIn_badCrc hup habort hcrc
  case down => exact fun d r kind k hdown => Dev.ropeIn_down hdown
  case send =>
    exact fun d r k ⟨hen, hstate, hpower⟩ => ⟨Dev.ropeSend_full hen hstate hpower, Dev.ropeSend_room hen hstate hpower⟩
  case hello => exact fun s r k d ⟨hin, hother⟩ => next_dev (exec_ropeHelloRx r k s) (Dev.ropeHello_good hin hother)
  case swapped => exact fun s r k d ⟨hin, hsame⟩ => next_dev (exec_ropeHelloRx r k s) (Dev.ropeHello_swapped hin hsame)
  case nbr => exact fun d r k => rfl
  case fault => exact fun s r k d hin => next_dev (exec_ropeFaultRx r k s) (Dev.ropeFaultIn_taken hin)
  case mgmt => exact fun s r k d hin => next_dev (exec_ropeMgmtRx r k s) (Dev.ropeMgmt_taken hin)
  case discard => exact fun s r hup => next_dev (exec_ropePacketDiscard r s) (Dev.ropeDiscard_up hup)
  case helloTimer =>
    exact fun s d ⟨hpower, hd⟩ => next_dev (exec_ropeHelloTimer s) (Dev.ropeHelloTimer_power hpower hd)
  case repeat_ =>
    exact fun s hpower =>
      ⟨fun hsafe => next_dev (exec_ropeFaultRepeat s) (Dev.ropeFaultRepeat_safe hpower hsafe),
        fun hwhiteout => next_dev (exec_ropeFaultRepeat s) (Dev.ropeFaultRepeat_whiteout hpower hwhiteout)⟩
  case dark => exact fun s hpower => next_dev (exec_ropeFaultRepeat s) (Dev.ropeFaultRepeat_dark hpower)
  case alignGood =>
    exact fun s r l0 l1 skew inv sw d ⟨hpower, hen, hgood⟩ hd hstate =>
      next_dev (exec_ropeAlignRx r l0 l1 skew s)
        ((Dev.ropeAlign_good hpower hen hgood).trans (Dev.ropeGood_notUp hd hstate))
  case alignBad =>
    exact fun s r l0 l1 skew ⟨hpower, hen, hbad⟩ =>
      next_dev (exec_ropeAlignRx r l0 l1 skew s) (Dev.ropeAlign_bad hpower hen hbad)
  case sets =>
    intro skew hskew
    have hlane0 : alignLane 0xB560B5 = some (false, 0) := by decide
    have hlane1 : alignLane 0xB561B5 = some (false, 1) := by decide
    have hlane0Inverted : alignLane 0x4A604A = some (true, 0) := by decide
    exact ⟨alignGood_named hlane0 hlane1 hskew, alignGood_named hlane1 hlane0 hskew,
      alignGood_named hlane0Inverted hlane1 hskew, alignGood_named hlane0 hlane0 hskew⟩
  case loss => exact fun s l => next_dev (exec_ropeAlignTimeout l s) (Dev.ropeLoss_errs l)
  case goesDown =>
    rintro d e r rfl
    rfl

end Sys2Proof.Machine
end

section
/-! SUPPORT. Lanes: when a training starts, its stages and their limits, what ends it, the loss of a lane and symbol errors; and
the modules (R396 to R404, R409 to R411). -/

namespace Sys2Proof.Machine

section
variable {d e : Dev} {p l c : Nat}

/-! ### Start and end of a training (R396, R402) -/

theorem Dev.tryTrain_starts (hoff : d.trn p = tsOff) (hen : d.flag F.PRT_LANE_CFG_EN p = true) (hmod : d.moduleOk p = true)
    (hdark : d.dark = false) : d.tryTrain p = d.enterDetect p :=
  if_pos (by simp [hoff, hen, hmod, hdark])

theorem Dev.laneRetrain_live (hdark : d.dark = false) (htrn : d.trn p ≠ tsOff) :
    d.laneRetrain p = (d.linkDownCmd p).enterDetect p := if_neg (by simp [hdark, htrn])

theorem Dev.laneRecal_live {cal : CalIn} (hdark : d.dark = false) : d.laneRecal p cal =
    lanes4.foldl (fun d l => d.calLane p l (d.trn p = tsTrained || !cal.quiet) (cal.failed.getLsbD l)) d :=
  if_neg (by simp [hdark])

theorem Dev.markRx_unmarked {v : Nat} (hgood : d.rxBad p l = false) : d.markRx p l v = d.setLaneFault p l v :=
  if_neg (by simp [hgood])

theorem Dev.trainRetry_trains (hfailed : (d.trn p != tsFailed) = false) (hauto : d.flag F.PRT_LANE_CFG_AUTO_RETRY p = true)
    (he : e = d.advanceTo ((d.portSt p).trnAt + msPs (max 1 (d.rd F.PRT_LANE_CFG_RETRY_MS p))))
    (hreason : e.rd F.PRT_TRN_STAT_FAIL_REASON p ≠ 5) : d.trainRetry p = e.enterDetect p := by
  subst he
  exact (if_neg (by simp [hfailed, hauto])).trans (if_neg hreason)

/-! ### The stages (R397 to R401) -/

theorem Dev.detectDone_detect {a b c e : BitVec 4} (hdetect : (d.trn p != tsDetect) = false) : d.detectDone p a b c e =
    (lanes4.foldl (fun d l =>
      (d.markRx p l (if (if b.getLsbD l then 2 else if a.getLsbD l then 1 else 0) = 0 then
          (if e.getLsbD l then 2 else if c.getLsbD l then 1 else 0)
        else (if b.getLsbD l then 2 else if a.getLsbD l then 1 else 0))).updLane p l (fun x => { x with
          txFault := if e.getLsbD l then 2 else if c.getLsbD l then 1 else 0
          rxMark := (if b.getLsbD l then 2 else if a.getLsbD l then 1 else 0) != 0 })) d).setTrn p tsCal :=
  if_neg (by simp [hdetect])

theorem Dev.calDone_cal {busy failed : BitVec 4} (hcal : (d.trn p != tsCal) = false) :
    d.calDone p busy failed = d.calibrated p busy failed := if_neg (by simp [hcal])

section
variable {inv : Bool} {rx : TrainRx} {ctl : BitVec 128}

theorem Dev.trainFrame_good (htrain : (d.trn p != tsTrain) = false) (hc : ctl.toNat = c) (hcrc : trainCrcOk c = true) :
    d.trainFrame p l inv rx ctl = ((d.frameHeard p l inv rx.met c).settleMode p c).trainDone p c
      { rx with energy := rx.energy ||| 1#4 <<< l, clock := rx.clock ||| 1#4 <<< l } := by
  unfold Dev.trainFrame
  rw [hc, htrain, hcrc, if_neg (by decide)]

theorem Dev.trainFrame_bad (hc : ctl.toNat = c) (hcrc : trainCrcOk c = false) : d.trainFrame p l inv rx ctl = d := by
  unfold Dev.trainFrame
  rw [hc, hcrc, Bool.not_false, Bool.or_true, if_pos rfl]

end

/-- Ends that share no mode settle none. -/
theorem Dev.settleMode_none (hmode : (d.portSt p).modeSet = false) (hboth : d.capOf p &&& bitsOf c 4 2 = 0) :
    d.settleMode p c = d := by
  simp [Dev.settleMode, hmode, hboth]

section
variable {r : TrainRx} (he : e = (if bitsOf c 6 2 = 2 then d.updPort p (fun x => { x with doneSeen := true }) else d).sendTraining p)
include he

theorem Dev.trainDone_unresolved (hnone : e.resolve p = none) : d.trainDone p c r = e := by
  unfold Dev.trainDone
  rw [← he]
  dsimp only
  rw [hnone]

theorem Dev.trainDone_resolved {rx tx : Nat} (hsome : e.resolve p = some (rx, tx)) :
    d.trainDone p c r = if (e.portSt p).stage = 2 && (e.portSt p).doneSeen then
      (((List.range (16 - (e.portSt p).doneSent)).foldl (fun d _ => d.sendTraining p) e).markUnheard p r.energy r.clock).enterAlign
        p rx tx else e := by
  unfold Dev.trainDone
  rw [← he]
  dsimp only
  rw [hsome]
  rfl

end

theorem Dev.trainTimeout_train {energy clock : BitVec 4} (htrain : (d.trn p != tsTrain) = false) :
    d.trainTimeout p energy clock =
      ((d.advanceTo ((d.portSt p).trnAt + msPs (d.portSt p).trainMs)).markUnheard p energy clock).trainOver p (d.portSt p) :=
  if_neg (by simp [htrain])

theorem Dev.alignDone_align (halign : (d.trn p != tsAlign) = false) :
    d.alignDone p = ((d.setTrn p tsTrained).updPort p (fun x => { x with trained := true })).tryLock p :=
  if_neg (by simp [halign])

theorem Dev.alignTimeout_align (halign : (d.trn p != tsAlign) = false) :
    d.alignTimeout p = (d.advanceTo ((d.portSt p).trnAt + msPs 1)).trainFail p 4 := if_neg (by simp [halign])

/-! ### Trained lanes (R396, R401, R404) -/

theorem Dev.laneLoss_active {ls : BitVec 4} {why : Nat} (htrained : (d.trn p != tsTrained) = false)
    (hactive : lanes4.any (fun l => ls.getLsbD l && d.flag F.PRT_LANE_STAT_ACTIVE (laneIx p l)) = true) : d.laneLoss p ls why =
      lanes4.foldl (fun d l => if ls.getLsbD l && why < 2 then d.setLaneFault p l (3 + why) else d)
        ((d.linkDown p 6).enterDetect p) :=
  if_neg (by rw [htrained, hactive]; decide)

/-- The third window in a row with too many symbol errors marks its lane. -/
theorem Dev.serWindow_third {f : Dev} {ser symbols : Nat} (htrained : (d.trn p != tsTrained) = false)
    (hmany : symbols < ser * 10000) (he : e = d.wr F.PRT_LANE_STAT_SER (laneIx p l) (min ser (2 ^ 24 - 1)))
    (hhits : ((e.portSt p).lane l).hits = 2) (hf : f = e.updLane p l (fun x => { x with hits := 3 }))
    (hgood : f.rxBad p l = false) : d.serWindow p l ser symbols = (f.setLaneFault p l 5).fault 19 := by
  subst he hf
  simp only [Dev.serWindow, htrained, hmany, hhits, if_true, Nat.reduceAdd, Nat.min_self, Bool.false_eq_true, if_false,
    hgood, decide_true, Bool.not_false, Bool.and_self]

/-! ### Modules (R409 to R411, R521) -/

theorem Dev.modReady_present {cmis : Nat} (hpresent : d.flag F.PRT_MOD_STAT_PRESENT p = true) : d.modReady p cmis =
    (((d.setMod p { (d.modSt p) with path := 2 }).wr F.PRT_MOD_STAT_READY p 1).wr F.PRT_MOD_STAT_CMIS_STATE p cmis).tryTrain p :=
  if_neg (by simp [hpresent])

theorem Dev.modTimeout_waits {r : Bool} (hoff : (d.trn p != tsOff) = false) (hen : d.flag F.PRT_LANE_CFG_EN p = true)
    (hmod : d.moduleOk p = false) (hpresent : d.flag F.PRT_MOD_STAT_PRESENT p = true) :
    d.modTimeout p r = (if r then d else d.advanceTo ((d.portSt p).modAt + msPs 2000)).trainFail p 5 :=
  if_neg (by simp [hoff, hen, hmod, hpresent])

section
variable (he : e = (d.wr F.PRT_MOD_STAT_ALARM p 1).fault 20)
include he

theorem Dev.modAlarm_blackout (hstate : e.rd F.BCP_FW_STAT_STATE = 3) :
    d.modAlarm p = { e with bcp.alarms := e.bcp.alarms ++ [p] } := by
  subst he
  exact if_pos hstate

theorem Dev.modAlarm_kept (hstate : e.rd F.BCP_FW_STAT_STATE ≠ 3) (hact : e.flag F.PRT_MOD_CFG_ALARM_ACT p = false) :
    d.modAlarm p = e := by
  subst he
  exact (if_neg hstate).trans (if_neg (by simp [hact]))

theorem Dev.modAlarm_acts (hstate : e.rd F.BCP_FW_STAT_STATE ≠ 3) (hact : e.flag F.PRT_MOD_CFG_ALARM_ACT p = true) :
    d.modAlarm p = ((e.linkDownCmd p).laneOff p).modLow p := by
  subst he
  exact (if_neg hstate).trans (if_pos hact)

end
end

/-- Settles O34: each command by the equation of its function in the stage of training that it belongs to. -/
theorem lanesAndModules : Obligations.LanesAndModules := by
  unfold Obligations.LanesAndModules
  refine ⟨?enSet, ?try_, ?enClear, ?off, ?clear, ?retrain, ?recal, ?cal, ?mark, ?detectDone, ?calDone, ?frame, ?settle, ?heard,
    ?done, ?align, ?timeout, ?unheard, ?alignDone, ?alignTimeout, ?fail, ?retry, ?loss, ?ser, ?insert, ?ready, ?readyTimeout,
    ?remove, ?alarm⟩
  case enSet =>
    rintro s p d rfl
    exact next_fab (exec_laneEnSet p s) rfl
  case try_ => exact fun d p ⟨hoff, hen, hmod, hdark⟩ => Dev.tryTrain_starts hoff hen hmod hdark
  case enClear => exact fun s p => next_fab (exec_laneEnClear p s) rfl
  case off => exact fun d p => rfl
  case clear => exact fun d p ser => rfl
  case retrain =>
    exact fun s p ⟨hdark, htrn⟩ => next_fab (exec_laneRetrain p s) (Dev.laneRetrain_live hdark htrn)
  case recal => exact fun s p cal hdark => next_fab (exec_laneRecal p cal s) (Dev.laneRecal_live hdark)
  case cal => exact fun d p l => ⟨fun f => rfl, rfl, rfl⟩
  case mark => exact fun d p l v hgood => Dev.markRx_unmarked hgood
  case detectDone =>
    exact fun s p a b c e hdetect => next_fab (exec_trainDetectDone p a b c e s) (Dev.detectDone_detect hdetect)
  case calDone => exact fun s p busy failed hcal => next_fab (exec_trainCalDone p busy failed s) (Dev.calDone_cal hcal)
  case frame =>
    exact fun s p l inv rx crc ctl c htrain hc =>
      ⟨fun hgood => next_fab (exec_trainFrameRx p l inv crc rx ctl s) (Dev.trainFrame_good htrain hc hgood),
        fun hbad => next_fab (exec_trainFrameRx p l inv crc rx ctl s) (Dev.trainFrame_bad hc hbad)⟩
  case settle => exact fun d p c ⟨hmode, hboth⟩ => Dev.settleMode_none hmode hboth
  case heard =>
    rintro d p l c inv met e rfl
    rfl
  case done =>
    exact fun d p c rx tx e r he =>
      ⟨fun hnone => Dev.trainDone_unresolved he hnone, fun hsome => Dev.trainDone_resolved he hsome⟩
  case align =>
    rintro d p rx tx e rfl
    rfl
  case timeout =>
    exact fun s p energy clock htrain => next_fab (exec_trainTimeout p energy clock s) (Dev.trainTimeout_train htrain)
  case unheard => exact fun d p energy clock => rfl
  case alignDone => exact fun s p halign => next_fab (exec_trainAlignDone p s) (Dev.alignDone_align halign)
  case alignTimeout => exact fun s p halign => next_fab (exec_trainAlignTimeout p s) (Dev.alignTimeout_align halign)
  case fail => exact fun d p r => rfl
  case retry =>
    exact fun s p d ⟨hfailed, hauto⟩ ⟨hd, hreason⟩ =>
      next_fab (exec_trainRetry p s) (Dev.trainRetry_trains hfailed hauto hd hreason)
  case loss =>
    exact fun s p ls why ⟨htrained, hactive⟩ =>
      next_fab (exec_laneLoss p ls why s) (Dev.laneLoss_active htrained hactive)
  case ser =>
    exact fun s p l ser symbols d e ⟨htrained, hmany, hd⟩ ⟨hhits, he, hgood⟩ =>
      next_fab (exec_serWindow p l ser symbols s) (Dev.serWindow_third htrained hmany hd hhits he hgood)
  case insert =>
    rintro s p cmis d rfl
    exact next_fab (exec_modInsert p cmis s) rfl
  case ready => exact fun s p cmis hpresent => next_fab (exec_modReady p cmis s) (Dev.modReady_present hpresent)
  case readyTimeout =>
    exact fun s p r ⟨hoff, hen, hmod, hpresent⟩ =>
      next_fab (exec_modReadyTimeout p r s) (Dev.modTimeout_waits hoff hen hmod hpresent)
  case remove => exact fun s p => next_fab (exec_modRemove p s) rfl
  case alarm =>
    exact fun s p d hd =>
      ⟨fun hstate => next_fab (exec_modAlarm p s) (Dev.modAlarm_blackout hd hstate),
        fun hstate hact => next_fab (exec_modAlarm p s) (Dev.modAlarm_kept hd hstate hact),
        fun hstate hact => next_fab (exec_modAlarm p s) (Dev.modAlarm_acts hd hstate hact)⟩

end Sys2Proof.Machine
end

section
/-! SUPPORT. Fabric time: sets, the exchanges with neighbours, the choice of a parent, the servo and the PPS input (R418 to
R424). -/

namespace Sys2Proof.Machine

section
variable {d e : Dev}

theorem Dev.timeSet_accepted {v : Word} (hdark : d.dark = false) (hservo : d.flag F.TIME_CFG_SERVO_EN = false)
    (he : e = d.jump ((v.toNat * 2 ^ 16 : Nat) : Int)) : d.timeSet v = { e with time.ppsJump := true } := by
  subst he
  exact if_neg (by simp [hdark, hservo])

theorem Dev.servoEnable_live (he : e = d.wr F.TIME_CFG_SERVO_EN 0 1) (hdark : e.dark = false) :
    d.servoEnable = { e.setLocked false with time.thetas := [], time.losses := 0 } := by
  subst he
  exact if_neg (by simp [hdark])

/-! ### Exchanges (R420, R421) -/

theorem Dev.timeTimer_live {f : Dev} (hdark : d.dark = false) (he : e = d.advanceTo (d.time.exAt + usPs d.period))
    (hf : f = Dev.chooseParent { e with time.exAt := e.ps, time.ticks := (e.time.ticks + 1) % 8 }) : d.timeTimer =
      (List.range 66).foldl (fun x src => if src = x.parent || e.time.ticks = 0 then x.timeReq src else x) f := by
  subst he hf
  exact if_neg (by simp [hdark])

section
variable {r : Nat} {k : RopeFrame} {f : Dev} (hin : d.ropeIn r 2 k = (e, true)) (hf : f = e.noteNbr (64 + r) (bitsOf k.body 0 64))
include hin hf

theorem Dev.ropeTimeIn_req (hreq : k.body % 2 = 0) : d.ropeTimeIn r k =
    f.ropeTime r (1 + bitsOf k.body 8 8 * 2 ^ 8 + f.timeHead + bitsOf k.body 64 64 * 2 ^ 64 + f.ns16 / 2 ^ 16 * 2 ^ 128 +
      bitsOf k.body 256 16 * 2 ^ 256 + f.ns16 % 2 ^ 16 * 2 ^ 272) := by
  subst hf
  simp only [Dev.ropeTimeIn, hin, Dev.ropeTimeBody, hreq, Bool.not_true, Bool.false_eq_true, if_false, if_true]

theorem Dev.ropeTimeIn_resp {id t1 : Nat} (hresp : k.body % 2 ≠ 0)
    (hfind : (f.ropeSt r).exch.find? (fun x => x.1 == bitsOf k.body 8 8) = some (id, t1)) : d.ropeTimeIn r k =
      (f.updRope r (fun x => { x with exch := x.exch.filter (fun x => x.1 != id) })).exchange (64 + r) t1 (stampOf k.body 1)
        (stampOf k.body 2) f.ns16 := by
  subst hf
  simp only [Dev.ropeTimeIn, hin, Dev.ropeTimeBody, hresp, hfind, Bool.not_true, Bool.false_eq_true, if_false]

end

/-- An exchange with the parent that is neither too long nor too far from the shortest of late reaches the servo. -/
theorem Dev.exchange_valid {src t1 t2 t3 t4 : Nat} {rtt theta : Int} (hsrc : src = d.parent) (hgm : d.flag F.TIME_CFG_GM = false)
    (hrtt : rtt = (t4 - t1 : Int) - (t3 - t2 : Int)) (htheta : theta = ((t2 - t1 : Int) - (t4 - t3 : Int)) / 2 - d.asym src)
    (he : e = ({ d with time.rtts := (rtt.toNat :: d.time.rtts).take 16 } : Dev).wr F.TIME_STAT_OFFSET_NS 0
      (unsigned (saturate 32 (theta / 65536)) 32))
    (hshort : ¬ 1500 * 65536 < rtt)
    (hnear : ¬ ((20 * 65536 + ((rtt.toNat :: d.time.rtts).take 16).foldl min rtt.toNat : Nat) : Int) < rtt)
    (hservo : e.flag F.TIME_CFG_SERVO_EN = true) :
    d.exchange src t1 t2 t3 t4 = if e.locked then e.servoLocked theta else e.servoUnlocked theta := by
  subst hrtt htheta he
  refine (if_neg (by simp [hsrc, hgm])).trans (if_neg ?_)
  simp only [hservo, hshort, hnear, Bool.not_true, decide_false, Bool.or_self, Bool.false_eq_true, not_false_eq_true]

/-! ### The servo and the choice of a parent (R422, R423) -/

theorem Dev.servoLocked_near {theta : Int} (hnear : ¬ d.rd F.TIME_CFG_LOSS_NS * 65536 < theta.natAbs) :
    d.servoLocked theta = d.steer theta := if_neg hnear

theorem Dev.servoLocked_third {theta : Int} (hfar : d.rd F.TIME_CFG_LOSS_NS * 65536 < theta.natAbs) (hthird : 2 ≤ d.time.losses) :
    d.servoLocked theta = d.servoReset := (if_pos hfar).trans (if_pos hthird)

theorem Dev.servoLocked_far {theta : Int} (hfar : d.rd F.TIME_CFG_LOSS_NS * 65536 < theta.natAbs) (hfew : d.time.losses < 2) :
    d.servoLocked theta = { d with time.losses := d.time.losses + 1 } :=
  (if_pos hfar).trans (if_neg (Nat.not_le.mpr hfew))

theorem Dev.chooseParent_among {p n q m : Nat} (hgm : d.flag F.TIME_CFG_GM = false) (hbest : bestParent d.candidates = some (p, n))
    (hnow : d.candidates.find? (fun e => e.1 == d.parent) = some (q, m)) :
    d.chooseParent = if n < m then d.setParent p else d.setLocked d.locked := by
  simp only [Dev.chooseParent, hgm, hbest, hnow, Bool.false_eq_true, if_false]

/-! ### The PPS input (R424) -/

theorem Dev.ppsEdge_gm {t16 : BitVec 80} {ok : Bool} (hdark : d.dark = false) (hgm : d.flag F.TIME_CFG_GM = true)
    (he : e = Dev.ppsStep { d.advanceToNs (t16.toNat / 65536) with time.tenLocked := ok }) :
    d.ppsEdge t16 ok = e.setLocked e.gmLocked := by
  subst he
  exact if_neg (by simp [hdark, hgm])

section
variable {near : Nat} (hen : d.flag F.TIME_CFG_PPS_EN = true)
  (hnear : near = (d.ns16 + 1000000000 * 65536 / 2) / (1000000000 * 65536) * (1000000000 * 65536))
include hen hnear

theorem Dev.ppsStep_first (hjump : d.time.ppsJump = true) :
    d.ppsStep = { d.jump near with time.ppsJump := false, time.ppsLocked := true, time.integ := d.freq } := by
  subst hnear
  exact (if_neg (by simp [hen])).trans (if_pos hjump)

theorem Dev.ppsStep_later (hjump : d.time.ppsJump = false) : d.ppsStep = d.steer ((near : Int) - d.ns16) := by
  subst hnear
  exact (if_neg (by simp [hen])).trans (if_neg (by simp [hjump]))

end
end

/-- Settles O37: each command by the equation of its function; an offset in LOCKED by its size and the losses before it. -/
theorem fabricTime : Obligations.FabricTime := by
  unfold Obligations.FabricTime
  refine ⟨?read, ?set_, ?jump, ?enable, ?timer, ?req, ?resp, ?exchange, ?locked, ?lockedLoss, ?parent, ?edge, ?step⟩
  case read => exact fun s => next_dev (exec_timeNowRead s) rfl
  case set_ => exact fun s v d ⟨hdark, hservo, hd⟩ => next_dev (exec_timeSet v s) (Dev.timeSet_accepted hdark hservo hd)
  case jump => exact fun d t => rfl
  case enable => exact fun s d ⟨hd, hdark⟩ => next_dev (exec_servoEnable s) (Dev.servoEnable_live hd hdark)
  case timer =>
    exact fun s d e ⟨hdark, hd⟩ he => next_dev (exec_timeExchangeTimer s) (Dev.timeTimer_live hdark hd he)
  case req =>
    exact fun s r k d e ⟨hin, hreq, he⟩ => next_dev (exec_ropeTimeRx r k s) (Dev.ropeTimeIn_req hin he hreq)
  case resp =>
    exact fun s r k d e id t1 ⟨hin, hresp, he⟩ hfind =>
      next_dev (exec_ropeTimeRx r k s) (Dev.ropeTimeIn_resp hin he hresp hfind)
  case exchange =>
    exact fun d src t1 t2 t3 t4 rtt theta e ⟨hsrc, hgm, hrtt, htheta⟩ he ⟨hshort, hnear, hservo⟩ =>
      Dev.exchange_valid hsrc hgm hrtt htheta he hshort hnear hservo
  case locked => exact fun d theta hnear => Dev.servoLocked_near hnear
  case lockedLoss => exact fun d theta hfar => ⟨Dev.servoLocked_third hfar, Dev.servoLocked_far hfar⟩
  case parent =>
    exact fun d p n q m ⟨hgm, hbest, hnow⟩ =>
      have hchoice := Dev.chooseParent_among hgm hbest hnow
      ⟨fun hless => hchoice.trans (if_pos hless), fun hleast => hchoice.trans (if_neg (Nat.not_lt.mpr hleast))⟩
  case edge =>
    exact fun s t16 ok d ⟨hdark, hgm⟩ hd => next_dev (exec_ppsEdge t16 ok s) (Dev.ppsEdge_gm hdark hgm hd)
  case step => exact fun d near ⟨hen, hnear⟩ => ⟨Dev.ppsStep_first hen hnear, Dev.ppsStep_later hen hnear⟩

end Sys2Proof.Machine
end

section
/-! SUPPORT. A step and a tick: the clocks of a device with and without its supply, the issue slots of a core, and the rate of
TIME_10M (R418, R424, R561, R564, R565). -/

namespace Sys2Proof.Machine

section
variable {d e : Dev}

theorem Dev.advance_live (n : Nat) (hdark : d.dark = false) :
    d.advance n = { d with ps := d.ps + n, ft := d.ft + n * 2 ^ 48 * d.rate / (1000 * 1000000000) } := by
  simp only [Dev.advance, hdark, Bool.false_eq_true, if_false]

theorem Dev.advance_dark (n : Nat) (hdark : d.dark = true) : d.advance n = { d with ps := d.ps + n } := by
  simp only [Dev.advance, hdark, if_true]

theorem Dev.tick_live (hdark : d.dark = false) : d.tick =
    (((((d.slotTime d.refPeriod).queueTime d.refPeriod).advance d.refPeriod).tenLock.ropeDrain 0).ropeDrain 1) := by
  simp only [Dev.tick, hdark, Bool.false_eq_true, if_false]

theorem Dev.tick_dark (hdark : d.dark = true) : d.tick = ((d.advance d.refPeriod).tenLock.ropeDrain 0).ropeDrain 1 := by
  simp only [Dev.tick, hdark, if_true]

theorem Dev.tenLock_none (h : d.dark = true ∨ d.flag F.TIME_CFG_REF10M_EN = false ∨ d.time.tenLocked = true) : d.tenLock = d :=
  if_pos (by simpa [or_assoc] using h)

theorem Dev.tenLock_first (hdark : d.dark = false) (hen : d.flag F.TIME_CFG_REF10M_EN = true) (hnew : d.time.tenLocked = false)
    (he : e = { d with time.tenLocked := true }) :
    d.tenLock = if e.flag F.TIME_CFG_GM then e.setLocked e.gmLocked else e := by
  subst he
  exact if_neg (by simp [hdark, hen, hnew])

/-! ### The slots of a core in which nothing issues (R564, R565) -/

/-- The first of the threads `l` whose stall counts sub-event `ev`. -/
abbrev firstStalled (l : List Thread) (ev : Nat) : Option Thread := l.find? (fun t => t.st == .stall && stallEvent t.stall == some ev)

/-- The first of the threads `l` that could issue. -/
abbrev firstReady (l : List Thread) : Option Thread := l.find? (fun t => t.st == .ready && t.active)

variable {c k n : Nat} {l : List Thread} (hl : l = (List.range 4).map (fun j => d.thr (64 * c + 4 * k + j)))
include hl

theorem Dev.coreSlots_ready {t : Thread} (hready : firstReady l = some t) : d.coreSlots c k n =
    if d.rd F.FLT_THERM_LEVEL = 0 then d else d.slotCount c 4 9 (some t.fn) (n - n / 2 ^ d.rd F.FLT_THERM_LEVEL) := by
  subst hl
  simp only [Dev.coreSlots, hready]

section
variable (hready : firstReady l = none)
include hready

theorem Dev.coreSlots_host {t : Thread} (hhost : firstStalled l 7 = some t) : d.coreSlots c k n = d.slotCount c 4 7 (some t.fn) n := by
  subst hl
  simp only [Dev.coreSlots, hready, hhost]

theorem Dev.coreSlots_unit {t : Thread} (hhost : firstStalled l 7 = none) (hunit : firstStalled l 8 = some t) :
    d.coreSlots c k n = d.slotCount c 4 8 (some t.fn) n := by
  subst hl
  simp only [Dev.coreSlots, hready, hhost, hunit]

theorem Dev.coreSlots_fetch {t : Thread} (hhost : firstStalled l 7 = none) (hunit : firstStalled l 8 = none)
    (hfetch : firstStalled l 6 = some t) : d.coreSlots c k n = d.slotCount c 3 6 (some t.fn) n := by
  subst hl
  simp only [Dev.coreSlots, hready, hhost, hunit, hfetch]

theorem Dev.coreSlots_empty (hhost : firstStalled l 7 = none) (hunit : firstStalled l 8 = none)
    (hfetch : firstStalled l 6 = none) : d.coreSlots c k n = d.slotCount c 3 5 none n := by
  subst hl
  simp only [Dev.coreSlots, hready, hhost, hunit, hfetch]

end
end

theorem step_front {s : State} {c : Instr} {rest : List Instr} (h : s.pending = c :: rest) :
    step s = exec c { s with pending := rest } := by
  unfold step
  rw [h]

theorem step_empty {s : State} (h : s.pending = []) : step s = .next { s with dev := s.dev.tick } := by
  unfold step
  split
  · rfl
  · next hfront => exact absurd (hfront.symm.trans h) (List.cons_ne_nil _ _)

/-- Settles O53: a step by the queue, a tick by the supply, the slots of a core by the first of its threads that counts. -/
theorem stepRunsTheFrontCommand : Obligations.StepRunsTheFrontCommand := by
  refine ⟨?front, ?empty, ?tick, ?time, ?slots, ?advance, ?ten⟩
  case front => exact fun s c rest h => step_front h
  case empty => exact fun s h => step_empty h
  case tick => exact fun d => ⟨Dev.tick_live, Dev.tick_dark⟩
  case time => exact fun d n => ⟨rfl, rfl⟩
  case slots =>
    exact fun d c k n l t hl =>
      ⟨fun hready hlevel => (Dev.coreSlots_ready hl hready).trans (if_pos hlevel),
        fun hready hlevel => (Dev.coreSlots_ready hl hready).trans (if_neg hlevel),
        fun hready => ⟨Dev.coreSlots_host hl hready, Dev.coreSlots_unit hl hready, Dev.coreSlots_fetch hl hready,
          Dev.coreSlots_empty hl hready⟩⟩
  case advance => exact fun d n => ⟨Dev.advance_live n, Dev.advance_dark n⟩
  case ten =>
    exact fun d => ⟨Dev.tenLock_none, fun e hdark hen hnew he =>
      have hlock := Dev.tenLock_first hdark hen hnew he
      ⟨fun hgm => hlock.trans (if_pos hgm), fun hgm => hlock.trans (if_neg (by simp [hgm]))⟩⟩

end Sys2Proof.Machine
end

section
/-! SUPPORT. The telemetry reader: what a snapshot does by the reader's state, its record and its stop (R562, R566 to R568). -/

namespace Sys2Proof.Machine

section
variable {d e g : Dev} {h k st : Nat}

theorem Dev.pmcPeriod_runs {per : Nat} (hdark : d.dark = false) (hrun : d.rd F.PMC_RDR_STAT_STATE = rdRun)
    (hper : per = max 1 (d.rd F.PMC_RDR_CFG_PERIOD_US) * 1000) :
    d.pmcPeriod = (d.advanceToNs ((d.ns / per + 1) * per)).pmcLatch := by
  subst hper
  exact if_neg (by simp [hdark, hrun])

section
variable (hrun : d.rd F.PMC_RDR_STAT_STATE = rdRun)
include hrun

theorem Dev.pmcLatch_skips (hskip : d.halted = true ∨ d.pmc.job.isSome = true ∨
      seqSub (d.rd F.PMC_RDR_IDX_PROD) (d.rd F.PMC_RDR_IDX_CONS) = d.pmcEntries) :
    d.pmcLatch = { d.bump F.PMC_RDR_STAT_SKIPPED with pmc.gap := true } :=
  (if_neg (by simp [hrun])).trans (if_pos (by simpa [or_assoc] using hskip))

section
variable (hgo : d.halted = false) (hjob : d.pmc.job = none)
  (hroom : ¬ seqSub (d.rd F.PMC_RDR_IDX_PROD) (d.rd F.PMC_RDR_IDX_CONS) = d.pmcEntries)
include hgo hjob hroom

theorem Dev.pmcLatch_off (hoff : d.fnOn (d.rd F.PMC_RDR_FN_FN) = false) : d.pmcLatch = d.pmcStop Status.FN_OFF := by
  simp only [Dev.pmcLatch, hrun, hgo, hjob, hroom, hoff, bne_self_eq_false, Option.isSome_none, decide_false, Bool.or_self,
    Bool.not_false, Bool.false_eq_true, if_false, if_true]

theorem Dev.pmcLatch_records (hon : d.fnOn (d.rd F.PMC_RDR_FN_FN) = true) (he : e = { d with pmc.gap := false }) :
    d.pmcLatch = e.pmcRecord d.pmcHead d.pmcTaken.length d.pmcValues := by
  subst he
  simp only [Dev.pmcLatch, hrun, hgo, hjob, hroom, hon, bne_self_eq_false, Option.isSome_none, decide_false, Bool.or_self,
    Bool.not_true, Bool.false_eq_true, if_false]

end
end

/-- A record goes on by how the write of its values went. -/
theorem Dev.pmcRecord_sent {n data : Nat}
    (huse : d.winUse (d.rd F.PMC_RDR_CFG_WIN) (localPeer (d.rd F.PMC_RDR_FN_FN) false) rLW d.pmcOff (64 + 8 * n) = (g, 0)) :
    d.pmcRecord h n data = Dev.pmcSent h (g.pmcPut 64 (8 * n) data) := by
  simp only [Dev.pmcRecord, huse, bne_self_eq_false, Bool.false_eq_true, if_false]

theorem Dev.pmcSent_eq : Dev.pmcSent h (e, k, st) =
    if st ≠ 0 then e.pmcStop st else if k ≠ 0 then { e with pmc.job := some ([(0, h)], k, false) } else e.pmcHeader h := by
  simp only [Dev.pmcSent, bne_iff_ne]

theorem Dev.pmcHeader_eq (hput : d.pmcPut 0 64 h = (e, k, st)) : d.pmcHeader h =
    if st ≠ 0 then e.pmcStop st else if k ≠ 0 then { e with pmc.job := some ([(0, h)], k, true) } else e.pmcDone := by
  simp only [Dev.pmcHeader, hput, bne_iff_ne]

theorem Dev.pmcEnable_pf (hpf : d.isPf (d.rd F.PMC_RDR_FN_FN) = true) : d.pmcEnable true = d.wr F.PMC_RDR_STAT_STATE 0 rdRun :=
  (if_neg (by simp)).trans (if_neg (by simp [hpf]))

theorem Dev.pmcEnable_vf (hpf : d.isPf (d.rd F.PMC_RDR_FN_FN) = false) : d.pmcEnable true = d.pmcStop Status.ARG :=
  (if_neg (by simp)).trans (if_pos (by simp [hpf]))

end

/-- Settles O49: a snapshot by the reader's state; the two writes of a record by whether they failed or wait. -/
theorem telemetryReader : Obligations.TelemetryReader := by
  refine ⟨?snapshot, ?snap, ?value, ?skip, ?off, ?records, ?record, ?header, ?stop, ?enable⟩
  case snapshot =>
    exact fun s per ⟨hdark, hrun, hper⟩ => next_dev (exec_pmcSnapshot s) (Dev.pmcPeriod_runs hdark hrun hper)
  case snap => exact fun s hdark => next_dev (exec_pmcSnap s) (if_neg (by simp [hdark]))
  case value =>
    rintro s k v d rfl
    exact ⟨exec_pmcCtrValWrite k v s, Dev.rd_wr_self s.dev _ _ _ (by decide)⟩
  case skip => exact fun d hrun hskip => Dev.pmcLatch_skips hrun hskip
  case off => exact fun d ⟨hrun, hoff⟩ ⟨hgo, hjob, hroom⟩ => Dev.pmcLatch_off hrun hgo hjob hroom hoff
  case records => exact fun d e ⟨hrun, hon⟩ ⟨hgo, hjob, hroom⟩ he => Dev.pmcLatch_records hrun hgo hjob hroom hon he
  case record =>
    intro d g e h n data k st huse hput
    have hsent : d.pmcRecord h n data = Dev.pmcSent h (e, k, st) := (Dev.pmcRecord_sent huse).trans (by rw [hput])
    rw [hsent, Dev.pmcSent_eq]
    exact ⟨fun hst => if_pos hst, fun hst hk => (if_neg (not_not.mpr hst)).trans (if_pos hk),
      fun hst hk => (if_neg (not_not.mpr hst)).trans (if_neg (not_not.mpr hk))⟩
  case header =>
    intro d e h k st hput
    rw [Dev.pmcHeader_eq hput]
    exact ⟨fun hst => if_pos hst, fun hst hk => (if_neg (not_not.mpr hst)).trans (if_pos hk),
      fun hst hk => (if_neg (not_not.mpr hst)).trans (if_neg (not_not.mpr hk))⟩
  case stop =>
    rintro d e st rfl
    rfl
  case enable => exact fun d => ⟨Dev.pmcEnable_pf, Dev.pmcEnable_vf⟩

end Sys2Proof.Machine
end

section
/-! SUPPORT. Functions: enabling, the events that disable, the drain and its end, the forced stop; and configuration requests
(R432 to R435, R442, R501). -/

namespace Sys2Proof.Machine

/-- A command that may disable functions answers the state cut to the device it makes. -/
theorem next_drain {s : State} {i : Instr} {f : Dev → Dev} {e : Dev} (hexec : exec i s = onDrain s f) (h : f s.dev = e) :
    exec i s = .next (s.cutTo e) := by
  subst h
  exact hexec

/-- A command that may end a read: what it sets free goes on. -/
theorem next_ends {s : State} {i : Instr} {f : Dev → Dev} {e : Dev} (hexec : exec i s = onRead s f) (h : f s.dev = e) :
    exec i s = .next (s.on e.invPoll.goes) := by
  subst h
  exact hexec

section
variable {d e : Dev} {f t : Nat}

/-! ### Enabling (R433) -/

theorem Dev.permitted_iff : d.permitted f = true ↔ d.flag F.HST_FN_CTL_EN f = true ∧ Tbl.get d.host.bme false (d.pfOf f) = true ∧
    (d.isPf f = true ∨ d.vfPresent f = true) := by
  simp only [Dev.permitted, Bool.and_eq_true, Bool.or_eq_true, and_assoc]

theorem Dev.fnCheck_off (hgo : d.halted = false) (hoff : d.fnState f = 0) :
    d.fnCheck f = if d.permitted f then d.fnEnabling f else d.wr F.HST_FN_CTL_ENABLE_LATCHED f 0 := by
  simp only [Dev.fnCheck, hgo, hoff, Bool.false_eq_true, if_false, if_true]

section
variable (he : e = d.wr F.HST_FN_CTL_EN f 1) (hgo : e.halted = false)
include he hgo

theorem Dev.fnEnSet_off (hoff : e.fnState f = 0) :
    d.fnEnSet f = if e.permitted f then e.fnEnabling f else e.wr F.HST_FN_CTL_ENABLE_LATCHED f 0 := by
  subst he
  exact (if_neg (by simp [hoff])).trans (Dev.fnCheck_off hgo hoff)

theorem Dev.fnEnSet_draining (hdrain : e.fnState f = 3) : d.fnEnSet f = e.wr F.HST_FN_CTL_ENABLE_LATCHED f 1 := by
  subst he
  exact if_pos (by simp only [hgo, hdrain, Bool.not_false, decide_true, Bool.and_self])

end

theorem Dev.fnEnableDone_enabling (hgo : d.halted = false) (hst : (d.fnState f != 1) = false) :
    d.fnEnableDone f = (d.wr F.HST_FN_CTL_STATE f 2).settle f := if_neg (by simp [hgo, hst])

theorem Dev.fnAgain_draining {o : Dev} (hgo : d.halted = false) (hst : d.fnState f = 3) (hmay : d.permitted f = true)
    (hmight : o.permitted f = false) : Dev.fnAgain o d f = d.wr F.HST_FN_CTL_ENABLE_LATCHED f 1 :=
  if_pos (by simp [hgo, hst, hmay, hmight])

theorem Dev.fnAgain_other {o : Dev} (hst : d.fnState f ≠ 3) : Dev.fnAgain o d f = d.fnCheck f := if_neg (by simp [hst])

/-! ### Disable events (R434, R435) -/

theorem Dev.fnEnClear_on (hen : d.flag F.HST_FN_CTL_EN f = true) (he : e = d.wr F.HST_FN_CTL_EN f 0) :
    d.fnEnClear f = e.fnDisable f false dcEn := by
  subst he
  exact if_neg (by simp [hen])

section
variable {cause : Nat} {cut : Bool} (hgo : d.halted = false)
include hgo

theorem Dev.fnDisable_first (hoff : d.fnState f ≠ 0) (hdrain : d.fnState f ≠ 3)
    (he : e = { d.wr F.HST_FN_CTL_CAUSE f cause with
      host.shut := Tbl.set false f (decide (d.fnState f = 1)) (d.wr F.HST_FN_CTL_CAUSE f cause).host.shut }) :
    d.fnDisable f cut cause = (if cut then ((e.wr F.HST_FN_CTL_STATE f 3).wr F.HST_FN_CTL_CUT f 0).cut f
      else (e.wr F.HST_FN_CTL_STATE f 3).wr F.HST_FN_CTL_CUT f 0).drainActs f := by
  subst he
  exact (if_neg (by simp [hgo, hoff])).trans (if_neg hdrain)

theorem Dev.fnDisable_again (hdrain : d.fnState f = 3) (he : e = d.wr F.HST_FN_CTL_CAUSE f cause) :
    d.fnDisable f cut cause = if cut && !e.flag F.HST_FN_CTL_CUT f then e.cut f else e := by
  subst he
  exact (if_neg (by simp [hgo, hdrain])).trans (if_pos hdrain)

end

/-- A cut abandons the function's reads, and ends what waits for page state. -/
theorem Dev.cut_reads {g : Dev}
    (he : e = { d.wr F.HST_FN_CTL_CUT f 1 with
      host.cutAt := Tbl.put f (d.wr F.HST_FN_CTL_CUT f 1).ps (d.wr F.HST_FN_CTL_CUT f 1).host.cutAt })
    (hg : g = ((((e.defDrain f).chDrain f true).pitCut f).reads.filter (fun r => r.2.fn == f)).foldl (fun x r => x.abandon r.1)
      (((e.defDrain f).chDrain f true).pitCut f)) :
    d.cut f = (g.xlt.waits.filter (fun w => g.asidFn w.2.1.asid == f)).foldl (fun x w => x.waitCut f w.1 w.2.2.1) g := by
  subst he hg
  rw [← List.foldl_map (f := Prod.fst) (g := fun x r => Dev.abandon x r)]
  rfl

/-! ### The end of a drain, and the forced stop (R433, R435) -/

theorem Dev.fnDrainDone_drained (hgo : d.halted = false) (hst : (d.fnState f != 3) = false) (hdrained : d.fnDrained f = true) :
    d.fnDrainDone f = ((((d.resetStopped f).wr F.HST_FN_CTL_STATE f 0).pitForce f).freeForced f).fnCheck f :=
  if_neg (by simp [hgo, hst, hdrained])

theorem Dev.fnForceStop_cut (hgo : d.halted = false) (hkept : d.keptCut f = none) (hcut : Tbl.find d.host.cutAt f = some t)
    (he : e = d.cutOver f t) (hlive : (e.liveThreads f).isEmpty = false) :
    d.fnForceStop f = ((e.liveThreads f).foldl Dev.forceStop e).fault 4 := by
  subst he
  simp only [Dev.fnForceStop, hgo, hkept, hcut, hlive, Bool.false_eq_true, if_false]

theorem Dev.fnForceStop_kept {l : List Nat} (hgo : d.halted = false) (hkept : d.keptCut f = some (t, l)) :
    d.fnForceStop f = (l.foldl Dev.forceStop (d.advanceTo (t + msPs 10))).fault 4 := by
  simp only [Dev.fnForceStop, hgo, hkept, Bool.false_eq_true, if_false]

/-! ### Configuration requests (R434, R501) -/

section
variable {g : Dev → Dev} (hdark : d.dark = false)
include hdark

theorem Dev.cfgRequest_ready (hready : d.flag F.BCP_FW_STAT_READY = true) : d.cfgRequest f g = g d := by
  simp only [Dev.cfgRequest, hdark, hready, Bool.false_eq_true, if_false, if_true]

theorem Dev.cfgRequest_retry (hready : d.flag F.BCP_FW_STAT_READY = false) : d.cfgRequest f g = d.emit (.configRetry f) := by
  simp only [Dev.cfgRequest, hdark, hready, Bool.false_eq_true, if_false]

end

theorem Dev.masterClear_set (hset : Tbl.get d.host.bme false f = true)
    (he : e = { d with host.bme := Tbl.set false f false d.host.bme }) :
    d.masterClear f = e.disableAll (d.withVfs f) dcMaster := by
  subst he
  exact if_neg (by simp [hset])

theorem Dev.vfClear_off {n : Nat} (hpf : d.isPf f = true)
    (he : e = { d with host.vfe := Tbl.set false f false d.host.vfe, host.numVfs := Tbl.set 0 f n d.host.numVfs }) :
    d.vfClear f false n = e.disableAll (((d.vfsOf f).filter d.vfPresent).filter (fun v => !e.vfPresent v)) dcVf := by
  subst he
  exact if_neg (by simp [hpf])

theorem Dev.vfSet_first {n : Nat} (hpf : d.isPf f = true) (hvfe : Tbl.get d.host.vfe false f = false)
    (he : e = { d with
      host.vfe := Tbl.set false f true d.host.vfe, host.numVfs := Tbl.set 0 f (min n (d.totalVfs f)) d.host.numVfs }) :
    d.vfSet f n = (d.vfsOf f).foldl (Dev.fnAgain d) e := by
  subst he
  exact if_neg (by simp [hpf, hvfe])

end

/-- Settles O38: each command by the equation of its function in the state of the function that it names. -/
theorem functionStates : Obligations.FunctionStates := by
  unfold Obligations.FunctionStates
  refine ⟨?enSet, ?enSetDraining, ?permitted, ?enabling, ?enClear, ?cutEvent, ?graceEvent, ?again, ?acts, ?enableDone, ?drainDone,
    ?stop, ?stopKept, ?flr, ?retry, ?all, ?masterClear, ?masterSet, ?fnAgain, ?vfClear, ?vfSet, ?cut⟩
  case enSet =>
    exact fun s fn d ⟨hd, hgo, hoff⟩ =>
      have hset := Dev.fnEnSet_off hd hgo hoff
      ⟨fun hmay => next_dev (exec_fnEnSet fn s) (hset.trans (if_pos hmay)),
        fun hmay => next_dev (exec_fnEnSet fn s) (hset.trans (if_neg (by simp [hmay])))⟩
  case enSetDraining =>
    exact fun s fn d ⟨hd, hgo, hdrain⟩ => next_dev (exec_fnEnSet fn s) (Dev.fnEnSet_draining hd hgo hdrain)
  case permitted => exact fun d f => propext Dev.permitted_iff
  case enabling =>
    rintro d f e rfl
    rfl
  case enClear => exact fun s fn d ⟨hen, hd⟩ => next_drain (exec_fnEnClear fn s) (Dev.fnEnClear_on hen hd)
  case cutEvent =>
    exact fun d f cause e ⟨hgo, hoff, hdrain⟩ he => (Dev.fnDisable_first hgo hoff hdrain he).trans (by rw [if_pos rfl])
  case graceEvent =>
    exact fun d f cause e ⟨hgo, hoff, hdrain⟩ he =>
      (Dev.fnDisable_first hgo hoff hdrain he).trans (by rw [if_neg Bool.false_ne_true])
  case again =>
    intro d f cause e ⟨hgo, hdrain, he⟩
    refine ⟨(Dev.fnDisable_again hgo hdrain he).trans ?_, (Dev.fnDisable_again hgo hdrain he).trans (if_neg (by simp))⟩
    cases e.flag F.HST_FN_CTL_CUT f <;> simp
  case acts =>
    intro d f e he
    rw [he]
    rfl
  case enableDone =>
    exact fun s fn ⟨hgo, hst⟩ => next_dev (exec_fnEnableDone fn s) (Dev.fnEnableDone_enabling hgo hst)
  case drainDone =>
    exact fun s fn ⟨hgo, hst, hdrained⟩ => next_dev (exec_fnDrainDone fn s) (Dev.fnDrainDone_drained hgo hst hdrained)
  case stop =>
    exact fun s fn t d ⟨hgo, hkept⟩ ⟨hcut, hd, hlive⟩ =>
      next_ends (exec_fnForceStop fn s) (Dev.fnForceStop_cut hgo hkept hcut hd hlive)
  case stopKept =>
    exact fun s fn t l ⟨hgo, hkept⟩ => next_ends (exec_fnForceStop fn s) (Dev.fnForceStop_kept hgo hkept)
  case flr => exact fun s fn ⟨hdark, hready⟩ => next_drain (exec_flr fn s) (Dev.cfgRequest_ready hdark hready)
  case retry =>
    exact fun s fn on n ⟨hdark, hready⟩ =>
      ⟨next_drain (exec_flr fn s) (Dev.cfgRequest_retry hdark hready),
        next_drain (exec_busMasterClear fn s) (Dev.cfgRequest_retry hdark hready),
        next_dev (exec_busMasterEnableSet fn s) (Dev.cfgRequest_retry hdark hready),
        next_drain (exec_vfEnableClear fn on n s) (Dev.cfgRequest_retry hdark hready),
        next_dev (exec_vfEnableSet fn n s) (Dev.cfgRequest_retry hdark hready)⟩
  case all => exact fun d f l cause => ⟨rfl, rfl⟩
  case masterClear =>
    exact fun s fn d ⟨hdark, hready⟩ ⟨hset, hd⟩ => next_drain (exec_busMasterClear fn s)
      ((Dev.cfgRequest_ready hdark hready).trans (Dev.masterClear_set hset hd))
  case masterSet =>
    exact fun s fn ⟨hdark, hready⟩ => next_dev (exec_busMasterEnableSet fn s) (Dev.cfgRequest_ready hdark hready)
  case fnAgain => exact fun o d f hgo => ⟨Dev.fnAgain_draining hgo, Dev.fnAgain_other⟩
  case vfClear =>
    exact fun s fn n d ⟨hdark, hready⟩ ⟨hpf, hd⟩ => next_drain (exec_vfEnableClear fn false n s)
      ((Dev.cfgRequest_ready hdark hready).trans (Dev.vfClear_off hpf hd))
  case vfSet =>
    exact fun s fn n d ⟨hdark, hready, hpf, hvfe⟩ hd => next_dev (exec_vfEnableSet fn n s)
      ((Dev.cfgRequest_ready hdark hready).trans (Dev.vfSet_first hpf hvfe hd))
  case cut => exact fun d f e g he hg => Dev.cut_reads he hg

end Sys2Proof.Machine
end

section
/-! SUPPORT. Host ports: links and PERST, completions of host reads and their timeout, and the interrupt controller (R429, R432,
R434, R435, R440 to R442). -/

namespace Sys2Proof.Machine

section
variable {d e : Dev}

/-! ### Links (R429, R434, R599) -/

theorem Dev.perstDeassert_low {p : Nat} (hlow : Tbl.get d.host.perstHigh false p = false) : d.perstDeassert p =
    { d.latch R.HST_PORT_CFG p with host.perstHigh := Tbl.set false p true (d.latch R.HST_PORT_CFG p).host.perstHigh } :=
  if_neg (by simp [hlow])

theorem Dev.hostUp_first {p up : Nat} {x : Word} {f : Dev} (hdark : d.dark = false)
    (hperst : Tbl.get d.host.perstHigh false p = true) (hup : up = d.rd F.HST_PORT_STAT_UP p) (hdown : up / 2 ^ 0 % 2 ≠ 1)
    (hfree : d.freeWord = (x, e))
    (hf : f = e.linkStat p 0 (up + 2 ^ 0) (min (getBits x 0 3) (min 6 (e.rdF F.HST_PORT_CFG_MAX_RATE p)))
      (2 ^ (getBits x 3 5 % if e.bifurcated p then 4 else 5))
      (if 5 ≤ min (getBits x 0 3) (min 6 (e.rdF F.HST_PORT_CFG_MAX_RATE p)) then 1 else getBits x 8 1)) :
    d.hostUp p 0 = { f with host.posted := f.host.posted.filter (fun r => r.1 / 1024 != p * 2 + 0) } := by
  subst hup hf
  simp only [Dev.hostUp, hfree, hdark, hperst, hdown, Bool.not_true, decide_false, Bool.or_self, zero_ne_one, Bool.false_and,
    Bool.false_eq_true, if_false]

/-! ### Reads (R429, R435) -/

section
variable {tag : Nat} {r : HostRd} {cpl : Cpl}

theorem Dev.readCpl_unknown (hnone : Tbl.find d.reads tag = none) : d.readCpl tag cpl = d := by
  simp only [Dev.readCpl, hnone]

/-- The requester of a read, and what a completion for it does. -/
def Dev.readAnswer (d : Dev) (tag : Nat) (cpl : Cpl) : Purpose → Dev
  | .load th win => d.loadDone th win tag cpl
  | .imem th => d.imemDone th cpl
  | .imemPre c slot ver line => d.aheadDone c slot ver line tag cpl
  | .walk id => d.walkDone id cpl
  | .wqFetch q => d.fetchDone q cpl
  | .wqPre q s _ => d.prefetchDone q s cpl
  | .own o off _ => d.ownGot o off cpl
  | .flushInv p t _ => d.invEnd p t tag cpl
  | .flushRevoke f t => d.revokeFree f t cpl
  | .flushReq key => d.durDone key cpl
  | .flushFence th => match d.takeRead tag 0 cpl with
    | (d, some _) => d.fenceRead th (cpl != .err)
    | (d, none) => d

theorem Dev.readCpl_found (hsome : Tbl.find d.reads tag = some r) (hgo : d.halted = false) :
    d.readCpl tag cpl = d.readAnswer tag cpl r.why := by
  simp only [Dev.readCpl, hsome, hgo, Bool.false_eq_true, if_false]
  cases r.why <;> rfl

theorem Dev.cplTimeout_off (hsome : Tbl.find d.reads tag = some r) (hoff : Tbl.get d.host.ctoOff false r.fn = true) :
    d.cplTimeout tag = d := by
  simp only [Dev.cplTimeout, hsome, hoff, if_true]

theorem Dev.cplTimeout_due (hsome : Tbl.find d.reads tag = some r) (hon : Tbl.get d.host.ctoOff false r.fn = false)
    (he : e = (d.advanceTo (d.ctoAt r)).bump F.HST_PORT_ERR_CTO (r.fn / 256)) :
    d.cplTimeout tag = if r.gone then { e with reads := Tbl.del tag e.reads } else e.readCpl tag .err := by
  subst he
  simp only [Dev.cplTimeout, hsome, hon, Bool.false_eq_true, if_false]

end

/-! ### The interrupt controller (R440 to R442) -/

section
variable {t n : Nat}

theorem Dev.claim_some (hsome : d.highest t = some n)
    (he : e = (d.setPend t ((d.pendOf t).erase n)).setAct t
      (insertAsc n ((d.setPend t ((d.pendOf t).erase n)).actOf t))) :
    d.claim t = ((e.wr F.INT_TGT_STAT_ARMED t 1).settle t, n + 4096) := by
  subst he
  simp only [Dev.claim, hsome]
  rfl

theorem Dev.claim_none (hnone : d.highest t = none) : d.claim t = ((d.wr F.INT_TGT_STAT_ARMED t 1).settle t, 0) := by
  simp only [Dev.claim, hnone]

theorem Dev.intComplete_active (hact : (d.actOf t).contains n = true) :
    d.intComplete t n = (d.setAct t ((d.actOf t).erase n)).settle t := if_pos hact

theorem Dev.intComplete_bad (hact : (d.actOf t).contains n = false) :
    d.intComplete t n = d.bump F.INT_TGT_STAT_BAD_COMPLETE t := if_neg (by rw [hact]; exact Bool.false_ne_true)

theorem Dev.settle_function (harmed : d.flag F.INT_TGT_STAT_ARMED t = true) (hsome : d.highest t = some n) (hfn : t ≠ 1024)
    (hmay : d.msixMay t = true) :
    d.settle t = if d.vecOpen t then d.msixSend t else { d with host.msixPend := Tbl.set false t true d.host.msixPend } := by
  simp only [Dev.settle, harmed, hsome, hfn, hmay, Bool.not_true, Option.isNone_some, Bool.or_self, Bool.false_eq_true, if_false]

theorem Dev.settle_cores (harmed : d.flag F.INT_TGT_STAT_ARMED 1024 = true) (hsome : d.highest 1024 = some n) :
    d.settle 1024 = (d.wr F.INT_TGT_STAT_ARMED 1024 0).emit .coreSignal := by
  simp only [Dev.settle, harmed, hsome, Bool.not_true, Option.isNone_some, Bool.or_self, Bool.false_eq_true, if_false, if_true]

theorem Dev.msixUnmask_eq (he : e = { d with
      host.msix := Tbl.set {} t { (Tbl.get d.host.msix {} t) with masked := false } d.host.msix }) :
    d.msixUnmask t = if Tbl.get e.host.msixPend false t && e.vecOpen t && e.msixMay t then e.msixSend t else e := by
  subst he
  rfl

end
end

/-- Settles O39: a completion by the purpose of its read, each other command by the equation of its function. -/
theorem hostPorts : Obligations.HostPorts := by
  unfold Obligations.HostPorts
  refine ⟨?perstLow, ?perstHigh, ?down, ?stat, ?up, ?unknown, ?completion, ?timeout, ?timeoutOff, ?claim, ?claimNone, ?complete,
    ?setpend, ?settle, ?cores, ?send, ?unmask⟩
  case perstLow => exact fun s p => next_drain (exec_hostPerstAssert p s) rfl
  case perstHigh => exact fun s p hlow => next_dev (exec_hostPerstDeassert p s) (Dev.perstDeassert_low hlow)
  case down =>
    rintro s p d rfl
    exact next_drain (exec_hostLinkDown p 0 s) rfl
  case stat => exact fun d p up rate width flit => ⟨rfl, rfl⟩
  case up =>
    exact fun s p up x d e ⟨hdark, hperst, hup, hdown, hfree⟩ he =>
      next_dev (exec_hostLinkUp p 0 s) (Dev.hostUp_first hdark hperst hup hdown hfree he)
  case unknown =>
    exact fun s tag cpl hnone => next_ends (exec_hostReadCompletion tag cpl s) (Dev.readCpl_unknown hnone)
  case completion =>
    intro s tag cpl r ⟨hsome, hgo⟩
    have hanswer {w : Purpose} (hwhy : r.why = w) :
        exec (.hostReadCompletion tag cpl) s = .next (s.on ((s.dev.readAnswer tag cpl w).invPoll.goes)) :=
      next_ends (exec_hostReadCompletion tag cpl s) (hwhy ▸ Dev.readCpl_found hsome hgo)
    exact ⟨fun th win => hanswer, fun th => hanswer, fun c n v l => hanswer, fun id => hanswer, fun q => hanswer,
      fun o off len => hanswer, fun key => hanswer⟩
  case timeout =>
    exact fun s tag r d ⟨hsome, hon, hd⟩ =>
      have hdue := Dev.cplTimeout_due hsome hon hd
      ⟨fun hgone => next_ends (exec_hostCplTimeout tag s) (hdue.trans (if_pos hgone)),
        fun hgone => next_ends (exec_hostCplTimeout tag s) (hdue.trans (if_neg (by simp [hgone])))⟩
  case timeoutOff =>
    exact fun s tag r ⟨hsome, hoff⟩ => next_ends (exec_hostCplTimeout tag s) (Dev.cplTimeout_off hsome hoff)
  case claim =>
    exact fun s t n d ⟨hsome, hd⟩ => next_dev (exec_intClaim t s) (by rw [Dev.claim_some hsome hd])
  case claimNone => exact fun s t hnone => next_dev (exec_intClaim t s) (by rw [Dev.claim_none hnone])
  case complete =>
    exact fun s t n => ⟨fun hact => next_dev (exec_intComplete t n s) (Dev.intComplete_active hact),
      fun hact => next_dev (exec_intComplete t n s) (Dev.intComplete_bad hact)⟩
  case setpend => exact fun s t n => ⟨next_dev (exec_intSetpend t n s) rfl, next_dev (exec_intClrpend t n s) rfl⟩
  case settle =>
    exact fun d t n ⟨harmed, hsome, hfn, hmay⟩ =>
      have hsettle := Dev.settle_function harmed hsome hfn hmay
      ⟨fun hopen => hsettle.trans (if_pos hopen), fun hopen => hsettle.trans (if_neg (by simp [hopen]))⟩
  case cores => exact fun d n ⟨harmed, hsome⟩ => Dev.settle_cores harmed hsome
  case send =>
    rintro d f e rfl
    rfl
  case unmask =>
    exact fun s fn d hd =>
      have hunmask := Dev.msixUnmask_eq hd
      ⟨fun ⟨hpend, hopen, hmay⟩ => next_dev (exec_msixUnmask fn s) (hunmask.trans (if_pos (by simp [hpend, hopen, hmay]))),
        fun hnot => next_dev (exec_msixUnmask fn s) (hunmask.trans (if_neg (by simp [hnot])))⟩

end Sys2Proof.Machine
end

section
/-! SUPPORT. DMA channels: the commands by the channel's state, reads that return, elements, and the stop of a cluster (R446 to
R454, R462). -/

namespace Sys2Proof.Machine

/-- A command of a channel acts on a device that is not halted. -/
theorem next_chCmd {s : State} {i : Instr} {c : Clu} {h : Fin 64} {f : Dev → Nat → Dev} {ch : Nat} {e : Dev}
    (hexec : exec i s = chCmd c h s f) (hch : ch = c.val * 64 + h.val) (hgo : s.dev.halted = false) (he : f s.dev ch = e) :
    exec i s = .next (s.on e) := by
  subst hch he
  rw [hexec, chCmd, onDev, hgo, if_neg Bool.false_ne_true]

/-- A write of a channel's register acts once the channel's cluster has been woken (R19). -/
theorem next_chAccess {s : State} {i : Instr} {c : Clu} {h : Fin 64} {f : Dev → Nat → Dev} {ch : Nat} {b e : Dev}
    (hexec : exec i s = chAccess c h s f) (hch : ch = c.val * 64 + h.val) (hgo : s.dev.halted = false)
    (hb : b = s.dev.wake (16 + c.val)) (he : f b ch = e) : exec i s = .next (s.on e) := by
  subst hb
  exact next_chCmd (f := fun d ch => f (d.wake (16 + c.val)) ch) hexec hch hgo he

section
variable {d e : Dev} {ch : Nat}

/-! ### Commands (R451) -/

theorem Dev.chStart_valid (hidle : (d.chSt ch != chIdle) = false) (hvalid : d.chValid ch = true)
    (he : e = (((d.wr F.DMA_CH_CTL_STATUS ch 0).setChan ch {}).wr F.DMA_CH_POS_DONE ch 0).wake (16 + ch / 64)) :
    d.chStart ch = if e.flag F.DMA_CH_CFG_TRIG_EN ch then
        (e.chGo ch chTrig).defAdd (e.rd F.DMA_CH_TRIG_TCTR ch) (e.rd F.DMA_CH_TRIG_THRESH ch) (e.chFn ch) (.chan ch)
      else (e.chGo ch chRun).chStep ch := by
  subst he
  simp only [Dev.chStart, hidle, hvalid, Bool.not_true, Bool.false_eq_true, if_false]

theorem Dev.chStart_invalid (hidle : (d.chSt ch != chIdle) = false) (hvalid : d.chValid ch = false) :
    d.chStart ch = (d.wr F.DMA_CH_CTL_STATUS ch Status.ARG).wr F.DMA_CH_CTL_CMD_REJ ch 1 := by
  simp only [Dev.chStart, hidle, hvalid, Bool.not_false, Bool.false_eq_true, if_false, if_true, Dev.chReject]

theorem Dev.chPause_run (hst : d.chSt ch = chRun) : d.chPause ch = d.chGo ch chPausing := if_pos hst

theorem Dev.chPause_trig (hst : d.chSt ch = chTrig) :
    d.chPause ch = (d.chGo ch chPaused).wr F.DMA_CH_CTL_TRIG_PEND ch 1 := by
  simp [Dev.chPause, hst]

theorem Dev.chPause_xlt (hst : d.chSt ch = chXlt) : d.chPause ch = d.updChan ch (fun x => { x with pauseReq := true }) := by
  simp [Dev.chPause, hst]

theorem Dev.chPause_refused (hst : d.chSt ch = chIdle ∨ d.chSt ch = chPaused ∨ d.chSt ch = chStopped) :
    d.chPause ch = d.wr F.DMA_CH_CTL_CMD_REJ ch 1 := by
  rcases hst with hst | hst | hst <;> simp [Dev.chPause, hst, Dev.chReject]

theorem Dev.chResume_paused (hst : d.chSt ch = chPaused) : d.chResume ch =
    if d.flag F.DMA_CH_CTL_TRIG_PEND ch then (d.wr F.DMA_CH_CTL_TRIG_PEND ch 0).chGo ch chTrig else d.chRerun ch := if_pos hst

theorem Dev.chResume_stopped (hst : d.chSt ch = chStopped) : d.chResume ch =
    if d.flag F.DMA_CL_STAT_STOPPED (ch / 64) then d.wr F.DMA_CH_CTL_CMD_REJ ch 1 else d.chRerun ch := by
  cases hstop : d.flag F.DMA_CL_STAT_STOPPED (ch / 64) <;> simp [Dev.chResume, hst, hstop, Dev.chReject]

theorem Dev.chReset_ready (hst : d.chSt ch = chPaused ∨ d.chSt ch = chStopped) :
    d.chReset ch = (d.chStop ch (d.rd F.DMA_CH_CTL_STATUS ch)).chGo ch chIdle := if_pos (by simpa using hst)

theorem Dev.chPauseDone_done (hst : (d.chSt ch != chPausing) = false) (hrd : (d.chan ch).rd = none) (hwr : (d.chan ch).wr = none)
    (he : e = ((d.disown (.dmaList ch)).setChan ch {}).chGo ch chPaused) (hfn : e.fnState (e.chFn ch) ≠ 3) :
    d.chPauseDone ch = e := by
  subst he
  exact (if_neg (by simp [hst, hrd, hwr])).trans (if_neg hfn)

/-! ### Data reads (R447, R453) -/

theorem Dev.chDataDone_host {tag : Nat} {r r0 : HostRd} {cpl : Cpl} (hread : d.dataRead ch = some (tag, r0))
    (htake : d.takeRead tag r0.part.2 cpl = (e, some r)) : d.chDataDone ch cpl = e.chReadEnd ch r0.part.2 r cpl := by
  simp only [Dev.chDataDone, hread, htake]

theorem Dev.chDataDone_depot {n : Nat} {x : Elem} {cpl : Cpl} (hread : d.dataRead ch = none) (helem : (d.chan ch).elem = some x)
    (hrd : (d.chan ch).rd = some n) : d.chDataDone ch cpl = d.chDepot ch x n := by
  simp only [Dev.chDataDone, hread, helem, hrd]

theorem Dev.chGot_running {n v : Nat} {p : Bool} (hgo : d.flag F.DMA_CL_STAT_STOPPED (ch / 64) = false)
    (hrd : (d.chan ch).rd.isSome = true) (hst : d.chSt ch = chRun) :
    d.chGot ch n v p = d.chData ch n (v % 2 ^ (8 * n)) (if p then 2 ^ n - 1 else 0) := if_neg (by simp [hgo, hrd, hst])

theorem Dev.chDepot_read {n : Nat} {x : Elem} (hwin : (x.srcWin != 0) = false) (hgo : d.halted = false)
    (hstop : d.flag F.DMA_CL_STAT_STOPPED (ch / 64) = false) (he : e = (d.depWake.ev 11 0).depMeet (d.chSrc ch x) n) :
    d.chDepot ch x n = e.chData ch n (e.depBytes (e.chSrc ch x) n).1 (e.depBytes (e.chSrc ch x) n).2 := by
  subst he
  exact if_neg (by simp [hwin, hgo, hstop])

/-! ### List reads (R448) -/

section
variable {cpl : Cpl}

theorem Dev.chListDone_host {tag : Nat} {r r0 : HostRd} (hread : d.listRead ch = some (tag, r0))
    (htake : d.takeRead tag r0.part.2 cpl = (e, some r)) : d.chListDone ch cpl = e.chListEnd ch r0.part.1 r0.part.2 cpl := by
  simp only [Dev.chListDone, hread, htake]

section
variable (hread : d.listRead ch = none) (hfetch : (d.chan ch).fetching = true) (hparts : ((d.chan ch).parts != 0) = false)
  (hgo : d.halted = false) (hstop : d.flag F.DMA_CL_STAT_STOPPED (ch / 64) = false)
include hread hfetch hparts hgo hstop

theorem Dev.chListDone_depot (hdepot : d.flag F.DMA_CH_CFG_LIST_IN_DEPOT ch = true)
    (he : e = (d.depWake.ev 11 0).depMeet (d.rd F.DMA_CH_LPOS_LPOS ch) 32) : d.chListDone ch cpl =
      if (e.depBytes (e.rd F.DMA_CH_LPOS_LPOS ch) 32).2 = 0 then e.chElem ch (e.depBytes (e.rd F.DMA_CH_LPOS_LPOS ch) 32).1
      else e.chStop ch Status.DMA_BUS_ERROR := by
  subst he
  simp only [Dev.chListDone, hread, hfetch, hparts, hgo, hstop, hdepot, Bool.not_true, Bool.or_self, Bool.false_eq_true, if_false,
    if_true, bne_iff_ne, ne_eq, ite_not]

theorem Dev.chListDone_ahead (hdepot : d.flag F.DMA_CH_CFG_LIST_IN_DEPOT ch = false) :
    d.chListDone ch cpl = d.chElem ch (d.chan ch).buf := by
  simp only [Dev.chListDone, hread, hfetch, hparts, hgo, hstop, hdepot, Bool.not_true, Bool.or_self, Bool.false_eq_true, if_false]

end

section
variable {off n : Nat} (hfetch : (d.chan ch).fetching = true) (hstop : d.flag F.DMA_CL_STAT_STOPPED (ch / 64) = false)
include hfetch hstop

theorem Dev.chListEnd_ok {v : Nat} (hahead : (d.chan ch).ahead = false) :
    d.chListEnd ch off n (.ok v false) = d.chListPart ch off n v := by
  simp only [Dev.chListEnd, hfetch, hstop, hahead, Bool.not_true, Bool.or_self, Bool.false_eq_true, if_false, Cpl.good]

theorem Dev.chListEnd_err : d.chListEnd ch off n .err =
    if (d.chan ch).ahead then (d.aheadDrop ch).chStep ch else d.chStop ch Status.DMA_BUS_ERROR := by
  simp only [Dev.chListEnd, hfetch, hstop, Bool.not_true, Bool.or_self, Bool.false_eq_true, if_false, Cpl.good]

end

theorem Dev.chListPart_last {off n v : Nat}
    (he : e = d.updChan ch (fun x => { x with parts := x.parts - 1, buf := x.buf + v % 2 ^ (8 * n) * 2 ^ (8 * off) }))
    (hlast : (e.chan ch).parts = 0) : d.chListPart ch off n v = e.chElem ch (e.chan ch).buf := by
  subst he
  exact if_pos hlast

end

/-! ### Elements (R446, R449, R454) -/

section
variable {v : Nat} {x : Elem} (he : e = d.updChan ch (fun x => { x with fetching := false, parts := 0, buf := 0 }))
include he

theorem Dev.chElem_malformed (helem : elemOf v = none) : d.chElem ch v = e.chStop ch Status.ARG := by
  subst he
  simp only [Dev.chElem, helem]

theorem Dev.chElem_end {n : Nat} (helem : elemOf v = some (x, some n)) : d.chElem ch v = (e.chEnd ch x n).chStep ch := by
  subst he
  simp only [Dev.chElem, helem]

theorem Dev.chElem_copy (helem : elemOf v = some (x, none)) : d.chElem ch v =
    if e.chExtents ch x = 0 then (((e.chLook x).updChan ch (fun y => { y with elem := some x })).chAhead ch x).chStep ch
    else ((e.chLook x).winFail (e.chExtents ch x)).chStop ch (e.chExtents ch x) := by
  subst he
  simp only [Dev.chElem, helem, bne_iff_ne, ne_eq, ite_not]

end

/-- The last element ends the list; it pulses the channel's counter. -/
theorem Dev.chEnd_last {next : Nat} {x : Elem}
    (he : e = ((d.updChan ch (fun x => { x with elem := none })).wr F.DMA_CH_POS_DONE ch 0).ev 9 2 (some (ch / 64))
      (some (((d.updChan ch (fun x => { x with elem := none })).wr F.DMA_CH_POS_DONE ch 0).chFn ch)))
    (hlast : x.last = true) (hctr : e.flag F.DMA_CH_CFG_CTR_EN ch = true) : d.chEnd ch x next =
      ((e.ctrAdd (e.rd F.DMA_CH_CFG_CTR ch) 1 (e.chFn ch)).chGo ch chIdle).setChan ch {} := by
  unfold Dev.chEnd
  dsimp only
  rw [← he, if_pos hlast, if_pos (by simp [hctr, hlast])]

/-! ### Cluster stop (R453) -/

theorem Dev.clusterFail_first {c a : Nat} (hstop : d.flag F.DMA_CL_STAT_STOPPED c = false)
    (he : e = ((d.wr F.DMA_CL_STAT_STOPPED c 1).bump F.DMA_CL_STAT_STOPS c).setReg R.DMA_CL_ERR c (BitVec.ofNat 64 a)) :
    d.clusterFail c a = Dev.fault { e with dma.stopping := Tbl.put c true e.dma.stopping } 5 := by
  subst he
  exact if_neg (by simp [hstop])

theorem Dev.clClear_stopped {c : Nat} (hgo : d.halted = false) (hstopping : Tbl.get d.dma.stopping false c = false)
    (hstop : d.flag F.DMA_CL_STAT_STOPPED c = true) : d.clClear c = (d.wr F.DMA_CL_STAT_STOPPED c 0).chKick c :=
  if_neg (by simp [hgo, hstopping, hstop])

end

/-- Settles O40: a command by the channel's state, a read that returns by what it was for, an element by its form. -/
theorem dmaChannels : Obligations.DmaChannels := by
  unfold Obligations.DmaChannels
  refine ⟨?start, ?startInvalid, ?pause, ?resume, ?rerun, ?reset, ?stop, ?paused, ?rlim, ?dataHost, ?dataError, ?dataDepot, ?data,
    ?listDepot, ?listAhead, ?listHost, ?listError, ?elem, ?last, ?stopDone, ?fail, ?clear⟩
  case start =>
    exact fun s c h ch d b ⟨hch, hgo, hidle, hvalid⟩ hd hb =>
      have hstart := Dev.chStart_valid hidle hvalid hd
      ⟨fun hen => next_chAccess (exec_dmaChStart c h s) hch hgo hb (hstart.trans (if_neg (by simp [hen]))),
        fun hen => next_chAccess (exec_dmaChStart c h s) hch hgo hb (hstart.trans (if_pos hen))⟩
  case startInvalid =>
    exact fun s c h ch b ⟨hch, hgo, hidle, hvalid⟩ hb =>
      next_chAccess (exec_dmaChStart c h s) hch hgo hb (Dev.chStart_invalid hidle hvalid)
  case pause =>
    intro s c h ch b ⟨hch, hgo⟩ hb
    have hpause {e : Dev} := next_chAccess (e := e) (exec_dmaChPause c h s) hch hgo hb
    exact ⟨fun hst => hpause (Dev.chPause_run hst), fun hst => hpause (Dev.chPause_trig hst),
      fun hst => hpause (Dev.chPause_xlt hst), fun hst => hpause (Dev.chPause_refused hst)⟩
  case resume =>
    intro s c h ch b ⟨hch, hgo⟩ hb
    have hresume {e : Dev} := next_chAccess (e := e) (exec_dmaChResume c h s) hch hgo hb
    exact ⟨fun hst htrig => hresume ((Dev.chResume_paused hst).trans (if_neg (by simp [htrig]))),
      fun hst htrig => hresume ((Dev.chResume_paused hst).trans (if_pos htrig)),
      fun hst hstop => hresume ((Dev.chResume_stopped hst).trans (if_neg (by simp [hstop]))),
      fun hst hstop => hresume ((Dev.chResume_stopped hst).trans (if_pos hstop))⟩
  case rerun => exact fun d ch => rfl
  case reset =>
    exact fun s c h ch b ⟨hch, hgo, hst⟩ hb =>
      next_chAccess (exec_dmaChReset c h s) hch hgo hb (Dev.chReset_ready hst)
  case stop =>
    intro d ch st e he
    rw [he]
    rfl
  case paused =>
    exact fun s c h ch d ⟨hch, hgo, hst, hrd, hwr⟩ ⟨hd, hfn⟩ =>
      next_chCmd (exec_dmaPaused c h s) hch hgo (Dev.chPauseDone_done hst hrd hwr hd hfn)
  case rlim => exact fun s c h v ch b ⟨hch, hgo⟩ hb => next_chAccess (exec_dmaRlimWrite c h v s) hch hgo hb rfl
  case dataHost =>
    intro s c h ch v tag p r r0 d ⟨hch, hread, htake⟩ ⟨hstop, hrd, hst⟩
    subst hch
    exact next_dev (exec_dmaDataReadDone c h (.ok v p) s)
      (congrArg Dev.invPoll ((Dev.chDataDone_host hread htake).trans (Dev.chGot_running hstop hrd hst)))
  case dataError =>
    intro s c h ch tag r r0 d ⟨hch, hread, htake⟩
    subst hch
    exact next_dev (exec_dmaDataReadDone c h .err s) (congrArg Dev.invPoll (Dev.chDataDone_host hread htake))
  case dataDepot =>
    intro s c h ch n cpl e d ⟨hch, hread, helem, hrd⟩ ⟨hwin, hgo, hstop⟩ hd
    subst hch
    exact next_dev (exec_dmaDataReadDone c h cpl s)
      (congrArg Dev.invPoll ((Dev.chDataDone_depot hread helem hrd).trans (Dev.chDepot_read hwin hgo hstop hd)))
  case data => exact fun d ch n v mask => rfl
  case listDepot =>
    intro s c h ch cpl d ⟨hch, hread, hfetch, hparts, hgo⟩ ⟨hstop, hdepot⟩ hd
    subst hch
    have hdone := Dev.chListDone_depot (cpl := cpl) hread hfetch hparts hgo hstop hdepot hd
    exact ⟨fun hclean => next_dev (exec_dmaListFetchDone c h cpl s) (congrArg Dev.invPoll (hdone.trans (if_pos hclean))),
      fun hpoison => next_dev (exec_dmaListFetchDone c h cpl s) (congrArg Dev.invPoll (hdone.trans (if_neg hpoison)))⟩
  case listAhead =>
    intro s c h ch cpl ⟨hch, hread, hfetch, hparts, hgo⟩ ⟨hstop, hdepot⟩
    subst hch
    exact next_dev (exec_dmaListFetchDone c h cpl s)
      (congrArg Dev.invPoll (Dev.chListDone_ahead hread hfetch hparts hgo hstop hdepot))
  case listHost =>
    intro s c h ch v tag r r0 d e ⟨hch, hread, htake⟩ ⟨hfetch, hstop, hahead⟩ ⟨he, hlast⟩
    subst hch
    exact next_dev (exec_dmaListFetchDone c h (.ok v false) s) (congrArg Dev.invPoll ((Dev.chListDone_host hread htake).trans
      ((Dev.chListEnd_ok hfetch hstop hahead).trans (Dev.chListPart_last he hlast))))
  case listError =>
    intro s c h ch tag r r0 d ⟨hch, hread, htake⟩ ⟨hfetch, hstop⟩
    subst hch
    have hend := (Dev.chListDone_host hread htake).trans (Dev.chListEnd_err hfetch hstop)
    exact ⟨fun hahead => next_dev (exec_dmaListFetchDone c h .err s)
        (congrArg Dev.invPoll (hend.trans (if_neg (by simp [hahead])))),
      fun hahead => next_dev (exec_dmaListFetchDone c h .err s) (congrArg Dev.invPoll (hend.trans (if_pos hahead)))⟩
  case elem =>
    exact fun d ch v e he => ⟨Dev.chElem_malformed he, fun x n => Dev.chElem_end he,
      fun x helem hfits => (Dev.chElem_copy he helem).trans (if_pos hfits),
      fun x helem hfails => (Dev.chElem_copy he helem).trans (if_neg hfails)⟩
  case last => exact fun d ch next x e he ⟨hlast, hctr⟩ => Dev.chEnd_last he hlast hctr
  case stopDone =>
    exact fun s c ⟨hgo, hstopping, hreads⟩ =>
      next_dev (exec_dmaClusterStopDone c s) (if_neg (by simp [hgo, hstopping, hreads]))
  case fail => exact fun d c a e ⟨hstop, he⟩ => Dev.clusterFail_first hstop he
  case clear =>
    rintro s c b ⟨rfl, hgo, hstopping, hstop⟩
    exact next_dev (exec_dmaClClear c s) (Dev.clClear_stopped hgo hstopping hstop)

end Sys2Proof.Machine
end

section
/-! SUPPORT. Counters, the deferred list and Pitons through the host port (R456 to R469). -/

namespace Sys2Proof.Machine

section
variable {d : Dev} {n : Nat}

/-! ### Counters (R456, R457, R461) -/

theorem Dev.ctrAddWrite_none {q : Req} {v : Nat} (hgo : d.halted = false) (hq : reqFn q = none) :
    d.ctrAddWrite q v = d.ctrSet (d.rd F.DMA_CTR_SEL_CTR) (d.ctrVal (d.rd F.DMA_CTR_SEL_CTR) + v) := by
  simp only [Dev.ctrAddWrite, hgo, hq, Bool.false_eq_true, if_false]

theorem Dev.ctrAddWrite_fn {q : Req} {v f : Nat} (hgo : d.halted = false) (hq : reqFn q = some f) :
    d.ctrAddWrite q v = d.ctrAdd (d.rd F.DMA_CTR_SEL_CTR) v f := by
  simp only [Dev.ctrAddWrite, hgo, hq, Bool.false_eq_true, if_false]

theorem Dev.ctrVal_ctrPut_ne {m : Nat} (v : Nat) (h : m ≠ n) : (d.ctrPut n v).ctrVal m = d.ctrVal m :=
  Tbl.get_set_ne _ _ _ h

theorem Dev.ctrArm_foreign {v : Nat} (hgo : d.halted = false) (hown : d.ctrOwner (d.rd F.DMA_CTR_ARM0_CTR) = none) :
    d.ctrArm v = d.bump F.DMA_CTR_STAT_FOREIGN := by
  simp only [Dev.ctrArm, hgo, hown, Bool.false_eq_true, if_false]

/-- What an armed threshold comes to where the counter has an owner. -/
theorem Dev.ctrArm_owned {v fn : Nat} (hgo : d.halted = false) (hown : d.ctrOwner (d.rd F.DMA_CTR_ARM0_CTR) = some fn) :
    d.ctrArm v = if d.defRoom then
        d.defAdd (d.rd F.DMA_CTR_ARM0_CTR) v fn (.event (d.rd F.DMA_CTR_ARM0_SLOT) (d.rd F.DMA_CTR_ARM0_ENTRY))
      else d.wr F.DMA_CTR_STAT_ARM_FULL 0 1 := by
  cases hroom : d.defRoom <;> simp [Dev.ctrArm, hgo, hown, hroom]

theorem reaches_iff {v t : Nat} (hv : v < 2 ^ 48) (ht : t < 2 ^ 48) :
    reaches v t = true ↔ ((t ≤ v ∧ v - t < 2 ^ 47) ∨ (v < t ∧ v + 2 ^ 48 - t < 2 ^ 47)) := by
  unfold reaches
  rw [decide_eq_true_iff, Nat.mod_eq_of_lt hv, Nat.mod_eq_of_lt ht]
  omega

/-! ### The deferred list (R460) -/

theorem Dev.deferFire_event {e : DefEnt} {slot entry : Nat} (hnext : d.defNext = some e) (hwhat : e.what = .event slot entry) :
    d.deferFire = (d.defDel e.id).ctrEvent e slot entry := by
  simp only [Dev.deferFire, hnext, hwhat]

theorem Dev.deferFire_chan {e : DefEnt} {ch : Nat} (hnext : d.defNext = some e) (hwhat : e.what = .chan ch) :
    d.deferFire = (d.defDel e.id).chTrigger ch := by
  simp only [Dev.deferFire, hnext, hwhat, Dev.deferIssue]

/-- The entry of the two that fires first: the one that became ripe first. -/
def riper (b : Option DefEnt) (e : DefEnt) : Option DefEnt :=
  match e.ripe, b with
  | none, _ => b
  | some _, none => some e
  | some k, some x => if k < x.ripe.getD 0 then some e else b

theorem Dev.defNext_eq (d : Dev) : d.defNext = d.dma.defs.foldl riper none := rfl

/-- `b` is the entry of `l` that became ripe first, or `l` has no ripe entry. -/
def Ripest (l : List DefEnt) : Option DefEnt → Prop
  | none => ∀ x ∈ l, x.ripe = none
  | some e => e ∈ l ∧ e.ripe.isSome = true ∧ ∀ x ∈ l, ∀ k, x.ripe = some k → e.ripe.getD 0 ≤ k

theorem Ripest.snoc {l : List DefEnt} {b : Option DefEnt} (h : Ripest l b) (y : DefEnt) :
    Ripest (l ++ [y]) (riper b y) := by
  unfold riper
  cases hy : y.ripe with
  | none =>
    cases b with
    | none =>
      intro x hx
      rcases List.mem_append.1 hx with hl | hlast
      · exact h x hl
      · rw [List.mem_singleton.1 hlast, hy]
    | some e =>
      obtain ⟨hmem, hripe, hleast⟩ := h
      refine ⟨List.mem_append_left _ hmem, hripe, fun x hx k hk => ?_⟩
      rcases List.mem_append.1 hx with hl | hlast
      · exact hleast x hl k hk
      · rw [List.mem_singleton.1 hlast, hy] at hk
        cases hk
  | some i =>
    have hyself : ∀ x ∈ [y], ∀ k, x.ripe = some k → k = i := by
      intro x hx k hk
      rw [List.mem_singleton.1 hx, hy] at hk
      exact (Option.some.inj hk).symm
    cases b with
    | none =>
      refine ⟨List.mem_append_right _ (List.mem_singleton_self y), by rw [hy]; rfl, fun x hx k hk => ?_⟩
      rcases List.mem_append.1 hx with hl | hlast
      · rw [h x hl] at hk
        cases hk
      · rw [hyself x hlast k hk, hy]
        exact Nat.le_refl i
    | some e =>
      obtain ⟨hmem, hripe, hleast⟩ := h
      dsimp only
      split
      next hlt =>
        refine ⟨List.mem_append_right _ (List.mem_singleton_self y), by rw [hy]; rfl, fun x hx k hk => ?_⟩
        rw [hy]
        rcases List.mem_append.1 hx with hl | hlast
        · exact Nat.le_of_lt (Nat.lt_of_lt_of_le hlt (hleast x hl k hk))
        · exact Nat.le_of_eq (hyself x hlast k hk).symm
      next hge =>
        refine ⟨List.mem_append_left _ hmem, hripe, fun x hx k hk => ?_⟩
        rcases List.mem_append.1 hx with hl | hlast
        · exact hleast x hl k hk
        · rw [hyself x hlast k hk]
          exact Nat.le_of_not_lt hge

theorem Ripest.foldl {b : Option DefEnt} (l : List DefEnt) {seen : List DefEnt} (h : Ripest seen b) :
    Ripest (seen ++ l) (l.foldl riper b) := by
  induction l generalizing seen b with
  | nil => simpa using h
  | cons y l ih => simpa using ih (h.snoc y)

theorem Dev.defNext_ripest (d : Dev) : Ripest d.dma.defs d.defNext :=
  Ripest.foldl (seen := []) d.dma.defs (b := none) (fun _ hx => nomatch hx)

/-! ### Pitons through the host port (R464, R466, R469) -/

section
variable {fn : Nat}

/-- An access of the Pitons that its gate lets pass. -/
theorem Dev.pitGate_pass {f : Fid} {a need : Nat} {k : Dev → Dev}
    (hopen : d.dark = false ∧ d.isPf f = true ∧ d.flag F.BCP_FW_STAT_READY = true ∧ d.gateFail 1 2 (some f.val) a 8 need = none) :
    (if d.dark || !d.isPf f || !d.flag F.BCP_FW_STAT_READY then d else d.hostGate f a 8 need k) = k d := by
  obtain ⟨hdark, hpf, hready, hgate⟩ := hopen
  rw [hdark, hpf, hready]
  simp only [Dev.hostGate, hgate, Bool.not_true, Bool.or_self, Bool.false_eq_true, if_false]

theorem sameHolder_host (f : Nat) : sameHolder (.host f) (.host f) = true := beq_self_eq_true f

theorem Dev.pitRead_free (hright : d.pitRight (.host fn) (n / 64) false = true) (hfree : (d.piton n).holder = none) :
    d.pitRead fn n = (d.setPiton n { holder := some (.host fn, d.rd F.PIT_GRP_CFG_HOST_PRIO (n / 64)) }).emit (.readValue 0) := by
  unfold Dev.pitRead
  rw [Dev.pitAcquire_free hright hfree]
  rfl

theorem Dev.pitRead_denied (hright : d.pitRight (.host fn) (n / 64) false = false) :
    d.pitRead fn n = d.emit (.readValue Status.PIT_RIGHTS) := by
  unfold Dev.pitRead
  rw [Dev.pitAcquire_denied hright]

section
variable {x : Holder} {k : Nat} (hright : d.pitRight (.host fn) (n / 64) false = true)
  (hheld : (d.piton n).holder = some (x, k))
include hright hheld

theorem Dev.pitRead_held (hsame : sameHolder x (.host fn) = true) : d.pitRead fn n = d.emit (.readValue Status.PIT_HELD) := by
  unfold Dev.pitRead
  rw [Dev.pitAcquire_held hright hheld, if_pos (by rw [hsame, Bool.true_or])]

/-- A read of a Piton that another holds waits while its port has room for a waiter. -/
theorem Dev.pitRead_waits (hsame : sameHolder x (.host fn) = false) :
    d.pitRead fn n = if 16 ≤ d.pitHostWaits (fn / 256) then (d.bump F.PIT_STAT_HOST_BUSY).emit (.readValue Status.BUSY)
      else d.pitWait (.host fn) n 0 0 := by
  unfold Dev.pitRead
  rw [Dev.pitAcquire_held hright hheld, if_neg (by simp [hsame])]

end

/-- Software cannot release a Piton that nothing holds. -/
theorem Dev.pitRelease_notHeld {who : Holder} (hfree : (d.piton n).holder = none) : (d.pitRelease who n).1 = d.pitMisuse := by
  unfold Dev.pitRelease
  dsimp only
  split
  · rfl
  · rw [hfree]

theorem Dev.pitPass_none (h : d.pitFirst n = none) : d.pitPass n = d.setPiton n {} := by
  simp only [Dev.pitPass, h]

theorem Dev.pitPass_some {w : Waiter} (h : d.pitFirst n = some w) :
    d.pitPass n = (d.setPiton n { holder := some (w.who, w.prio), queue := (d.pitQueue n).erase w }).pitAnswer w 0 := by
  simp only [Dev.pitPass, h]

theorem Dev.pitHostExpire_some {w : Waiter} (h : (d.piton n).hostWaiter fn = some w) :
    d.pitHostExpire fn n =
      (((d.advanceTo (w.since + nsPs d.hostWait)).setPiton n
        { (d.advanceTo (w.since + nsPs d.hostWait)).piton n with
          queue := ((d.advanceTo (w.since + nsPs d.hostWait)).piton n).queue.erase w }).pitAnswer w Status.BUSY) := by
  simp only [Dev.pitHostExpire, h]

theorem Dev.pitEngExpire_piton {th wd since : Nat} (hstall : (d.thr th).stall = .piton n wd since)
    (hus : d.rd F.PIT_CFG_ENG_WAIT_US ≠ 0) :
    d.pitEngExpire th =
      (((d.advanceTo (since + usPs (d.rd F.PIT_CFG_ENG_WAIT_US))).setPiton n
        { (d.advanceTo (since + usPs (d.rd F.PIT_CFG_ENG_WAIT_US))).piton n with
          queue := ((d.advanceTo (since + usPs (d.rd F.PIT_CFG_ENG_WAIT_US))).pitQueue n).filter
            (fun w => !sameHolder w.who (.thread th 0)) }).finish th wd
        (mkWord (BitVec.ofNat 64 Status.BUSY) 0) |>.wakeThr th) := by
  simp only [Dev.pitEngExpire, hstall, if_neg hus]

end
end

/-- Settles O41, an equation of the model's function for each clause; the entry that fires next is the least of the fold over
the deferred list (`Dev.defNext_ripest`). -/
theorem countersAndHostPitons : Obligations.CountersAndHostPitons := by
  refine ⟨?addWrite, ?foreign, ?ctrSet, ?arm, ?armRefused, ?defAdd, ?fireEvent, ?fireChan, ?defNext, ?free, ?rights, ?held,
    ?release, ?misuse, ?pass, ?hostExpire, ?engExpire, ?reaches⟩
  case addWrite =>
    exact fun s v q hgo => ⟨fun hq => next_dev (exec_dmaCtrAddWrite _ s) (Dev.ctrAddWrite_none hgo hq),
      fun f hq => next_dev (exec_dmaCtrAddWrite _ s) (Dev.ctrAddWrite_fn hgo hq),
      next_dev (exec_dmaCtrValWrite v s) (if_neg (by simp [hgo]))⟩
  case foreign => exact fun d n k fn h => if_neg h
  case ctrSet => exact fun d n v => ⟨d.ctrVal_ctrPut n v, fun m hm => Dev.ctrVal_ctrPut_ne v hm, rfl⟩
  case arm =>
    exact fun s v fn ⟨hgo, hown, hroom⟩ => next_dev (exec_dmaCtrArm v s) ((Dev.ctrArm_owned hgo hown).trans (if_pos hroom))
  case armRefused =>
    exact fun s v hgo => ⟨fun hown => next_dev (exec_dmaCtrArm v s) (Dev.ctrArm_foreign hgo hown),
      fun fn hown hfull => next_dev (exec_dmaCtrArm v s) ((Dev.ctrArm_owned hgo hown).trans (if_neg (by simp [hfull])))⟩
  case defAdd => exact fun d ctr thresh fn what => rfl
  case fireEvent =>
    exact fun s e slot entry ⟨hgo, hnext, hwhat⟩ => next_rma hgo (Dev.deferFire_event hnext hwhat)
  case fireChan => exact fun s e ch ⟨hgo, hnext, hwhat⟩ => next_rma hgo (Dev.deferFire_chan hnext hwhat)
  case defNext =>
    intro d e he
    have hripest := d.defNext_ripest
    rwa [he] at hripest
  case free =>
    exact fun s fn n hopen ⟨hright, hfree⟩ =>
      next_dev (exec_pitLockRead fn n s) ((Dev.pitGate_pass hopen).trans (Dev.pitRead_free hright hfree))
  case rights =>
    exact fun s fn n hopen hright =>
      next_dev (exec_pitLockRead fn n s) ((Dev.pitGate_pass hopen).trans (Dev.pitRead_denied hright))
  case held =>
    exact fun s fn n x k hopen ⟨hright, hheld⟩ =>
      ⟨fun hsame => next_dev (exec_pitLockRead fn n s) ((Dev.pitGate_pass hopen).trans (Dev.pitRead_held hright hheld hsame)),
        fun hsame hroom => next_dev (exec_pitLockRead fn n s)
          ((Dev.pitGate_pass hopen).trans ((Dev.pitRead_waits hright hheld hsame).trans (if_neg (Nat.not_le.2 hroom)))),
        fun hsame hfull => next_dev (exec_pitLockRead fn n s)
          ((Dev.pitGate_pass hopen).trans ((Dev.pitRead_waits hright hheld hsame).trans (if_pos hfull)))⟩
  case release =>
    intro s fn n k hopen ⟨hright, hheld⟩
    have hmay : s.dev.pitRight (.host fn) (n.toNat / 64) (!sameHolder (Holder.host fn) (.host fn)) = true := by
      rwa [sameHolder_host, Bool.not_true]
    exact next_dev (exec_pitLockWrite fn n s)
      ((Dev.pitGate_pass hopen).trans (congrArg Prod.fst (Dev.pitRelease_allowed hheld hmay)))
  case misuse =>
    exact fun s fn n hopen hfree =>
      next_dev (exec_pitLockWrite fn n s) ((Dev.pitGate_pass hopen).trans (Dev.pitRelease_notHeld hfree))
  case pass => exact fun d n => ⟨Dev.pitPass_none, fun w => Dev.pitPass_some⟩
  case hostExpire =>
    rintro s fn n x d ⟨hgo, hwaiter, hd⟩
    rw [hd]
    exact next_dev (exec_pitHostWaitExpire fn n s) ((if_neg (by simp [hgo])).trans (Dev.pitHostExpire_some hwaiter))
  case engExpire =>
    rintro s th n wd since us d ⟨hgo, hstall, rfl, hus, hd⟩
    rw [hd]
    exact next_dev (exec_pitEngWaitExpire th s) ((if_neg (by simp [hgo])).trans (Dev.pitEngExpire_piton hstall hus))
  case reaches => exact fun v t ⟨hv, ht⟩ => reaches_iff hv ht

end Sys2Proof.Machine
end

section
/-! SUPPORT. Software's registers of the Depot, its access window, the pool's free and audit, and scrubbing (R477 to R490). -/

namespace Sys2Proof.Machine

section
variable {d e : Dev} {r : Req}

/-! ### A register of the requester's own and its gate (R485, R489, R595) -/

/-- A register access that reaches the register space and passes target gate 1. -/
theorem Dev.regAct_pass {a need : Nat} {k : Dev → Dev} (hreach : d.reaches r = true)
    (hgate : d.reqGate r a 8 need = (e, true)) (hview : ∀ fn, r ≠ .vf fn) : d.regAct r a need k = k e := by
  cases r with
  | vf fn => exact absurd rfl (hview fn)
  | pf m => simp only [Dev.regAct, hreach, hgate, Bool.not_true, Bool.false_eq_true, if_false]
  | bcp => simp only [Dev.regAct, hreach, hgate, Bool.not_true, Bool.false_eq_true, if_false]
  | dbg => simp only [Dev.regAct, hreach, hgate, Bool.not_true, Bool.false_eq_true, if_false]

section
variable {a n need b : Nat}

theorem Dev.reqGate_pf {m : Fin 8} (h : d.gateFail 1 (reqCls (.pf m)) (reqFn (.pf m)) a n need = some b) :
    d.reqGate (.pf m) a n need =
      (if need = 1 then ((d.deny 1 (reqCls (.pf m)) (reqFn (.pf m)) b).bump F.HST_PORT_ERR_UR (m / 2)).emit .unsupported
        else d.deny 1 (reqCls (.pf m)) (reqFn (.pf m)) b, false) := by
  simp only [Dev.reqGate, h]

theorem Dev.reqGate_bcp (h : d.gateFail 1 (reqCls .bcp) (reqFn .bcp) a n need = some b) :
    d.reqGate .bcp a n need = ((d.deny 1 (reqCls .bcp) (reqFn .bcp) b).coreBus b, false) := by
  simp only [Dev.reqGate, h]

theorem Dev.reqGate_dbg (h : d.gateFail 1 (reqCls .dbg) (reqFn .dbg) a n need = some b) :
    d.reqGate .dbg a n need = ((d.deny 1 (reqCls .dbg) (reqFn .dbg) b).emit .unsupported, false) := by
  simp only [Dev.reqGate, h]

theorem Dev.accGate_denied (h : d.gateFail 0 (reqCls r) (reqFn r) (d.rd F.DEP_ACC_ADDR_ADDR * 8) 8 need = some b) :
    d.accGate r need = ((d.deny 0 (reqCls r) (reqFn r) b).wr F.DEP_ACC_ADDR_DENIED 0 1, false) := by
  simp only [Dev.accGate, h]

end

/-! ### Buffers and the access window (R477, R479, R481) -/

theorem Dev.swAlloc_some {k : Nat} {l : List Nat} (h : d.alloc 4 (reqObj r) 1 = (e, some (k :: l))) :
    d.swAlloc r = (e, e.bufAddr k + 2 ^ 63) := by
  simp only [Dev.swAlloc, h]

theorem Dev.swAlloc_none (h : d.alloc 4 (reqObj r) 1 = (e, none)) : d.swAlloc r = (e, 0) := by
  simp only [Dev.swAlloc, h]

/-- A free at the start of a buffer of the pool goes by the owner tag stored for it. -/
theorem Dev.free_buf {k : Nat} (cls obj : Nat) (hk : k < d.poolBufs) :
    d.free (d.poolBase + k * 2048) cls obj =
      if Tbl.find d.dep.bufs k = some (poolTag cls obj + 1) then
        Dev.wr { d with dep.bufs := Tbl.del k d.dep.bufs } F.DEP_POOL_CLASS_INUSE cls
          (Dev.rd { d with dep.bufs := Tbl.del k d.dep.bufs } F.DEP_POOL_CLASS_INUSE cls - 1)
      else d.freeMisuse k cls := by
  have hoff : d.poolBase + k * 2048 - d.poolBase = k * 2048 := Nat.add_sub_cancel_left _ _
  have hdiv : k * 2048 / 2048 = k := Nat.mul_div_cancel k (by decide)
  have hstart : (decide (d.poolBase + k * 2048 < d.poolBase) || k * 2048 % 2048 != 0 || decide (d.poolBufs ≤ k)) = false := by
    simp [hk]
  unfold Dev.free
  dsimp only
  rw [hoff, hdiv, hstart, if_neg Bool.false_ne_true]
  by_cases htag : Tbl.find d.dep.bufs k = some (poolTag cls obj + 1)
  · rw [if_pos htag, if_neg (by simp [htag])]
  · rw [if_neg htag, if_pos (by simp [htag])]

theorem Dev.accRead_pass {ecc : Ecc} {g : Dev} {x : TWord} (hgate : d.accGate r 1 = (e, true))
    (hread : e.depWake.depRead (e.rd F.DEP_ACC_ADDR_ADDR * 8) ecc = (g, x)) :
    d.accRead r ecc = (g.wr F.DEP_ACC_ADDR_POISON 0 (if isPoison x then 1 else 0), (TWord.val x).toNat) := by
  unfold Dev.accRead
  rw [hgate]
  dsimp only
  rw [hread]

theorem Dev.accWrite_pass {v : Word} (hgate : d.accGate r 2 = (e, true)) :
    d.accWrite r v = (e.depWake.ev 11 1).setDepWord (e.rd F.DEP_ACC_ADDR_ADDR * 8) (mkWord v 0) := by
  unfold Dev.accWrite
  rw [hgate]

section
variable (d) (a : Nat)

theorem Dev.depRead_none : d.depRead a .none = (d.ev 11 0, d.depWord a) := by
  rw [Dev.depRead, if_neg (by decide)]
  rfl

theorem Dev.depRead_ce : d.depRead a .ce = (((d.ev 11 0).bump F.DEP_ECC_STAT_DEPOT_CE).fault 10, d.depWord a) := by
  rw [Dev.depRead, if_neg (by decide)]
  rfl

theorem Dev.depRead_ue
    (he : e = (((d.ev 11 0).bump F.DEP_ECC_STAT_DEPOT_UE).wr F.DEP_ECC_ADDR_ADDR 0 (a / 8 * 8)).wr F.DEP_ECC_ADDR_SCRUB 0 0) :
    d.depRead a .ue = ((e.setDepWord a (poisoned (e.depWord a))).fault 11, poisoned (d.depWord a)) := by
  rw [Dev.depRead, if_pos rfl, he]
  rfl

end

/-! ### Scrubbing (R484) -/

theorem Dev.scrubDepot_none : d.scrubDepot .none = (d.depWake.depRead (d.dep.scrubAt * 8) .none).1.scrubNext := by
  unfold Dev.scrubDepot
  rfl

theorem Dev.scrubDepot_ce : d.scrubDepot .ce = (d.depWake.depRead (d.dep.scrubAt * 8) .ce).1.scrubNext := by
  unfold Dev.scrubDepot
  rfl

theorem Dev.scrubDepot_ue {a : Nat} (ha : a = d.dep.scrubAt * 8)
    (he : e = (d.depWake.depRead a .ue).1.wr F.DEP_ECC_ADDR_SCRUB 0 1) :
    d.scrubDepot .ue = (if a < e.poolBase then e else
      e.bufPoison ((a - e.poolBase) / 2048) ((a - e.poolBase) % 2048)).scrubNext := by
  rw [he, ha]
  rfl

/-- A step of the enabled scrubber. -/
theorem Dev.scrub_on {found : Ecc} {at_ : ScrubAt} (hon : d.dark = false ∧ d.flag F.DEP_SCRUB_CFG_EN = true)
    (h : (if at_ = .depot then d.scrubDepot found else d.scrubSram found at_) = e) :
    (if d.dark || !d.flag F.DEP_SCRUB_CFG_EN then d
      else if at_ = .depot then d.scrubDepot found else d.scrubSram found at_) = e := by
  obtain ⟨hdark, hen⟩ := hon
  exact (if_neg (by simp [hdark, hen])).trans h

theorem Dev.scrubSram_scratch {found : Ecc} {c : Fin 17} {w : BitVec 20} (h : c.val = 16 ∨ w.toNat < 131072) :
    d.scrubSram found (.scratch c w) = (d.scrRead c (w.toNat * 8) found).1 := by
  have hcond : ¬ (decide (c.val < 16) && decide (131072 ≤ w.toNat)) = true := by
    rw [Bool.and_eq_true, decide_eq_true_iff, decide_eq_true_iff]
    omega
  exact if_neg hcond

theorem Dev.scrubSram_scratchNone {found : Ecc} {c : Fin 17} {w : BitVec 20} (hc : c.val < 16) (hw : 131072 ≤ w.toNat) :
    d.scrubSram found (.scratch c w) = d := by
  have hcond : (decide (c.val < 16) && decide (131072 ≤ w.toNat)) = true := by
    rw [decide_eq_true hc, decide_eq_true hw, Bool.and_self]
  exact if_pos hcond

end

/-- Settles O42, an equation of the model's function for each clause. -/
theorem depotSoftware : Obligations.DepotSoftware := by
  refine ⟨?allocGot, ?allocNone, ?bufFree, ?free, ?accRead, ?accWrite, ?vfView, ?accGate, ?reqGate, ?depRead, ?audit, ?walk,
    ?scrubDepot, ?scrubScratch, ?scrubCache, ?scrubEnd⟩
  case allocGot =>
    intro s r d e k l ⟨hreach, hgate, halloc⟩ hview
    refine next_dev (exec_depBufAlloc r s) ((Dev.regAct_pass hreach hgate hview).trans ?_)
    rw [Dev.swAlloc_some halloc]
  case allocNone =>
    intro s r d e ⟨hreach, hgate, halloc⟩ hview
    refine next_dev (exec_depBufAlloc r s) ((Dev.regAct_pass hreach hgate hview).trans ?_)
    rw [Dev.swAlloc_none halloc]
  case bufFree =>
    exact fun s r addr d ⟨hreach, hgate⟩ hview => next_dev (exec_depBufFree r addr s) (Dev.regAct_pass hreach hgate hview)
  case free =>
    intro d addr k cls obj e ⟨haddr, hk, he⟩
    rw [haddr, he]
    exact ⟨fun htag => (Dev.free_buf cls obj hk).trans (if_pos htag), fun htag => (Dev.free_buf cls obj hk).trans (if_neg htag)⟩
  case accRead =>
    intro s r ecc d e g x ⟨hreach, hgate, hacc, hread⟩ hview
    refine next_dev (exec_depAccRead r ecc s) ((Dev.regAct_pass hreach hgate hview).trans ?_)
    rw [Dev.accRead_pass hacc hread]
  case accWrite =>
    exact fun s r v d e ⟨hreach, hgate, hacc⟩ hview =>
      next_dev (exec_depAccWrite r v s) ((Dev.regAct_pass hreach hgate hview).trans (Dev.accWrite_pass hacc))
  case vfView => exact fun s fn a ecc x => ⟨rfl, rfl, rfl, rfl⟩
  case accGate => exact fun d r need b h => Dev.accGate_denied h
  case reqGate =>
    intro d r a n need b h
    refine ⟨fun m hr => ?_, fun hr => ?_, fun hr => ?_⟩
    · subst hr
      exact Dev.reqGate_pf h
    · subst hr
      exact Dev.reqGate_bcp h
    · subst hr
      exact Dev.reqGate_dbg h
  case depRead => exact fun d a => ⟨d.depRead_none a, d.depRead_ce a, fun e => d.depRead_ue a⟩
  case audit =>
    rintro s d ⟨hdark, rfl⟩
    exact next_dev (exec_poolAudit s) (if_neg (by simp [hdark]))
  case walk => exact fun s hdark => next_dev (exec_poolWalk s) (if_neg (by simp [hdark]))
  case scrubDepot =>
    intro s hon
    refine ⟨next_dev (exec_scrubStep .none .depot s) (Dev.scrub_on hon ((if_pos rfl).trans Dev.scrubDepot_none)),
      next_dev (exec_scrubStep .ce .depot s) (Dev.scrub_on hon ((if_pos rfl).trans Dev.scrubDepot_ce)), fun a e ha he => ⟨fun hbelow => ?_, fun hpool => ?_⟩⟩
    · refine next_dev (exec_scrubStep .ue .depot s) (Dev.scrub_on hon ((if_pos rfl).trans ((Dev.scrubDepot_ue ha he).trans ?_)))
      rw [if_pos hbelow]
    · refine next_dev (exec_scrubStep .ue .depot s) (Dev.scrub_on hon ((if_pos rfl).trans ((Dev.scrubDepot_ue ha he).trans ?_)))
      rw [if_neg (Nat.not_lt.2 hpool)]
  case scrubScratch =>
    exact fun s found c w hon =>
      ⟨fun h => next_dev (exec_scrubStep found (.scratch c w) s) (Dev.scrub_on hon (Dev.scrubSram_scratch h)),
        fun hc hw => next_dev (exec_scrubStep found (.scratch c w) s) (Dev.scrub_on hon (Dev.scrubSram_scratchNone hc hw))⟩
  case scrubCache =>
    exact fun s m k hon => ⟨next_dev (exec_scrubStep .none (.cache m k) s) (Dev.scrub_on hon rfl),
      next_dev (exec_scrubStep .ce (.cache m k) s) (Dev.scrub_on hon rfl),
      next_dev (exec_scrubStep .ue (.cache m k) s) (Dev.scrub_on hon rfl)⟩
  case scrubEnd =>
    exact fun s found hon => ⟨next_dev (exec_scrubStep found .other s) (Dev.scrub_on hon rfl),
      next_dev (exec_scrubStep found .passEnd s) (Dev.scrub_on hon rfl)⟩

end Sys2Proof.Machine
end

section
/-! SUPPORT. The fault collector, thermal and current limits, regulators and margins (R492, R530 to R545, R587, R588). -/

namespace Sys2Proof.Machine

section
variable {d e : Dev}

/-! ### The fault collector (R530 to R536) -/

/-- The interrupts that a report of severity 1 or more raises. -/
def Dev.faultRaise (e : Dev) : Dev :=
  let g := e.raise 1024 (e.rd F.FLT_CFG_BCP_INT)
  let f := g.rd F.FLT_CFG_FN
  if g.flag F.FLT_CFG_FN_EN && g.isPf f then g.raise f (g.rd F.FLT_CFG_FN_INT) else g

/-- What reports of sources `l` do to the device, of highest severity `sev` from source `cause`. -/
def Dev.faultAct (g : Dev) (l : List Nat) (sev cause : Nat) : Dev :=
  if sev = 3 then g.enterWhiteout cause
  else if g.pwr.state = .run then (if sev = 2 then g.enterSafe cause else g)
  else if g.pwr.state = .start then
    { g with flt.safeStart := (l.filter (fun s => g.severity s == 2)).foldl (fun l s => insertAsc s l) g.flt.safeStart }
  else g

/-- Reports in RUN are recorded, raise their interrupts and act. -/
theorem Dev.faults_run {l : List Nat} {last sev cause : Nat} (hrun : d.pwr.state = .run)
    (hlast : (l.filter faultSource).getLast? = some last)
    (he : e = Dev.bumpBy (((l.filter faultSource).foldl (fun d s => d.setReg R.FLT_STICKY 0 (setBits (d.reg R.FLT_STICKY) s 1 1)) d).wr
      F.FLT_STAT_LAST_SRC 0 last) F.FLT_STAT_REPORTS 0 (l.filter faultSource).length)
    (hsev : sev = ((l.filter faultSource).map e.severity).foldl max 0)
    (hcause : cause = ((l.filter faultSource).filter (fun s => e.severity s == sev)).foldl min 63) :
    d.faults l = (if sev = 0 then e else e.faultRaise).faultAct (l.filter faultSource) sev cause := by
  unfold Dev.faults
  dsimp only
  rw [hlast]
  dsimp only
  rw [if_neg (by simp [hrun]), ← he, ← hsev, ← hcause]
  rfl

theorem Dev.faultRaise_off {g : Dev} (hg : g = e.raise 1024 (e.rd F.FLT_CFG_BCP_INT)) (hoff : g.flag F.FLT_CFG_FN_EN 0 = false) :
    e.faultRaise = g := by
  rw [hg] at hoff ⊢
  exact if_neg (by rw [hoff, Bool.false_and]; exact Bool.false_ne_true)

section
variable {l : List Nat} {cause : Nat}

theorem Dev.faultAct_whiteout : d.faultAct l 3 cause = d.enterWhiteout cause := if_pos rfl

theorem Dev.faultAct_safe (hrun : d.pwr.state = .run) : d.faultAct l 2 cause = d.enterSafe cause :=
  (if_neg (by decide)).trans ((if_pos hrun).trans (if_pos rfl))

theorem Dev.faultAct_none {sev : Nat} (hrun : d.pwr.state = .run) (hsev : sev < 2) : d.faultAct l sev cause = d :=
  (if_neg (by omega)).trans ((if_pos hrun).trans (if_neg (by omega)))

end

theorem Dev.pairInvalid_run {k : Nat} (hsource : faultSource k = true) (hrun : d.pwr.state = .run) :
    d.pairInvalid k = (d.bump F.FLT_STAT_PAIR_ERRS).faults (if k = 31 then [31] else [k, 31]) :=
  if_neg (by rw [hsource, hrun]; decide)

/-! ### Thermal limits (R543, R544) -/

theorem Dev.thermSample_hottest {l : List (BitVec 11)} {t : Int} {k : Nat} (hhot : hottest (l.take 32) = some (t, k))
    (hdark : d.dark = false) :
    d.thermSample l = (d.advanceTo ((d.ps / usPs 10 + 1) * usPs 10)).thermTake t k := by
  simp only [Dev.thermSample, hhot, hdark, Bool.false_eq_true, if_false]

theorem Dev.thermTake_eq {t : Int} {k : Nat} {new : List Int} {fire : Bool} (hnew : new = thermStep d.flt.raised t)
    (hfire : fire = (d.flt.safeArmed && decide (460 ≤ t)))
    (he : e = ((d.wr F.FLT_THERM_TJ_MAX 0 (unsigned t 11)).wr F.FLT_THERM_SENSOR 0 k).wr F.FLT_THERM_THERM_LEVEL 0 new.length) :
    d.thermTake t k = Dev.faults (Dev.setLevel { e with
        flt.raised := new, flt.safeArmed := if fire then false else e.flt.safeArmed || decide (t < 452) })
      ((if d.flt.raised.isEmpty && !new.isEmpty then [26] else []) ++ (if fire then [27] else [])) := by
  rw [he, hnew, hfire]
  rfl

theorem thermLevel_band {t : Int} {n : Nat} (h : 400 ≤ t) (hn : 1 + ((t - 400) / 4).toNat = n) (hmax : n ≤ 4) :
    thermLevel t = n := by
  rw [thermLevel, if_neg (by omega), hn, Nat.min_eq_right hmax]

theorem thermLevel_top {t : Int} (h : 412 ≤ t) : thermLevel t = 4 := by
  rw [thermLevel, if_neg (by omega), Nat.min_eq_left (by omega)]

theorem thermStep_rise {l : List Int} {t : Int} (h : l.length < thermLevel t) : (thermStep l t).length = thermLevel t := by
  rw [thermStep, if_pos h, List.length_append, List.length_replicate]
  omega

/-! ### Current limits (R545) -/

section
variable {a n : Nat} (hdark : d.dark = false)
  (he : e = (d.advanceTo ((d.ps / usPs 2 + 1) * usPs 2)).wr F.FLT_CUR_STAT_CORE_A 0 a)
  (hn : n = e.rd F.FLT_CUR_STAT_LEVEL)
include hdark he hn

theorem Dev.curSample_over (hover : e.limitA < a) :
    d.curSample a = match e.flt.excessAt with
      | none => Dev.curLevel { e with flt.belowAt := none, flt.excessAt := some e.ps } (min 4 (n + 1))
      | some t => if t + usPs 5 ≤ e.ps then
          Dev.curLevel { e with flt.belowAt := none, flt.excessAt := some (t + usPs 5) } (min 4 (n + 1))
        else { e with flt.belowAt := none } := by
  unfold Dev.curSample
  dsimp only
  rw [if_neg (by simp [hdark]), ← he, ← hn, if_pos hover] <;> rfl

theorem Dev.curSample_under (hover : ¬ e.limitA < a) (hunder : a < e.limitA - 50) :
    d.curSample a = match e.flt.belowAt with
      | none => { e with flt.excessAt := none, flt.belowAt := some e.ps }
      | some t => if t + usPs 100 ≤ e.ps then
          Dev.curLevel { e with flt.excessAt := none, flt.belowAt := some (t + usPs 100) } (n - 1)
        else { e with flt.excessAt := none } := by
  unfold Dev.curSample
  dsimp only
  rw [if_neg (by simp [hdark]), ← he, ← hn, if_neg hover, if_pos hunder] <;> rfl

end
end

/-- Settles O48, an equation of the model's function for each clause; a report's outcome is `Dev.faults_run` with its severity
put in. -/
theorem faultsAndLimits : Obligations.FaultsAndLimits := by
  refine ⟨?report, ?faults, ?severity, ?safe, ?whiteout, ?linksOff, ?pair, ?test, ?locks, ?sample, ?take, ?level, ?step, ?curOver,
    ?curUnder, ?curLevel, ?refresh, ?alert, ?margin⟩
  case report => exact fun s x => exec_faultReport x s
  case faults =>
    intro d e g l last sev cause ⟨hrun, hlast⟩ he ⟨hsev, hcause⟩ hg
    have hfaults := Dev.faults_run hrun hlast he hsev hcause
    refine ⟨fun h hstate => ?_, fun h hoff hstate => ?_, fun h hoff hstate => ?_, fun h hoff => ?_⟩
    · rw [hfaults, if_pos h, Dev.faultAct_none hstate (by omega)]
    · rw [hfaults, if_neg (by omega), Dev.faultRaise_off hg hoff, Dev.faultAct_none hstate (by omega)]
    · rw [hfaults, if_neg (by omega), Dev.faultRaise_off hg hoff, h, Dev.faultAct_safe hstate]
    · rw [hfaults, if_neg (by omega), Dev.faultRaise_off hg hoff, h, Dev.faultAct_whiteout]
  case severity => exact fun d k => ⟨fun h => if_pos h, fun h => if_neg h⟩
  case safe =>
    intro d e k he
    rw [he]
    rfl
  case whiteout =>
    intro d e g k he hg
    rw [hg, he]
    rfl
  case linksOff => exact fun d => rfl
  case pair => exact fun s k ⟨hsource, hrun⟩ => next_dev (exec_fltPairInvalid k s) (Dev.pairInvalid_run hsource hrun)
  case test => exact fun s k => exec_fltTest k s
  case locks =>
    exact fun s hdark => ⟨next_dev (exec_fltLock s) (if_neg (by simp [hdark])), next_dev (exec_dbgLock s) (if_neg (by simp [hdark]))⟩
  case sample =>
    exact fun s l t k ⟨hhot, hdark⟩ => next_dev (exec_thermSample l s) (Dev.thermSample_hottest hhot hdark)
  case take => exact fun d e t k new fire ⟨hnew, hfire⟩ he => Dev.thermTake_eq hnew hfire he
  case level =>
    exact fun t => ⟨fun h => if_pos h, fun hlo hhi => thermLevel_band hlo (by omega) (by decide),
      fun hlo hhi => thermLevel_band (by omega) (by omega) (by decide),
      fun hlo hhi => thermLevel_band (by omega) (by omega) (by decide), thermLevel_top⟩
  case step => exact fun l t => ⟨thermStep_rise, fun h => if_neg h⟩
  case curOver =>
    intro s a d n ⟨hdark, hd, hn⟩ hover
    have hsample := next_dev (exec_curGovSample a s) (Dev.curSample_over hdark hd hn hover)
    refine ⟨fun hnone => ?_, fun t hsome => ?_⟩
    · rw [hsample, hnone]
    · rw [hsample, hsome]
  case curUnder =>
    intro s a d n ⟨hdark, hd, hn⟩ ⟨hover, hunder⟩
    have hsample := next_dev (exec_curGovSample a s) (Dev.curSample_under hdark hd hn hover hunder)
    refine ⟨fun hnone => ?_, fun t hsome => ?_⟩
    · rw [hsample, hnone]
    · rw [hsample, hsome]
  case curLevel =>
    intro d e n he
    rw [he]
    rfl
  case refresh =>
    rintro s d rfl
    exact exec_pmbRefresh s
  case alert => exact exec_pmbAlert
  case margin =>
    intro s v d ⟨hdark, hd⟩
    refine next_dev (exec_marginWrite v s) ((if_neg (by simp [hdark])).trans ?_)
    rw [hd]
    rfl

end Sys2Proof.Machine
end

section
/-! SUPPORT. Rails, system resets and BIVOUAC (R498 to R500, R523, R528, R529, R582). -/

namespace Sys2Proof.Machine

/-! ### Commands that may take the device's state -/

section
variable {s : State} {f : Dev → Dev} {e : Dev} {x : Host.Outcome State Fault Refusal}

/-- A command that leaves the device in BIVOUAC or without its supply ends the transactions and resets the TAP. -/
theorem next_dark (hexec : x = onPower s f) (hf : f s.dev = e) (hstate : e.pwr.state = .bivouac ∨ e.pwr.state = .off) :
    x = .next { s with dev := e, txns := [], tap := {} } := by
  have hdown : (decide (e.pwr.state = .bivouac) || decide (e.pwr.state = .off)) = true := by
    rwa [Bool.or_eq_true, decide_eq_true_iff, decide_eq_true_iff]
  rw [hexec, onPower, hf, if_pos hdown, if_pos hdown]

/-- A command that may take the device's state, with the state it leaves. -/
theorem next_powered (hexec : x = onPower s f) (hf : f s.dev = e) : x = .next (s.powered e) := by
  rw [hexec, onPower, hf]

/-- A device that such a command leaves with its power keeps transactions and TAP. -/
theorem powered_of_run (hstate : e.pwr.state = .run) : s.powered e = s.on e := by
  have hup : ¬ (decide (e.pwr.state = .bivouac) || decide (e.pwr.state = .off)) = true := by
    rw [hstate]
    decide
  rw [State.powered, if_neg hup, if_neg hup]

end

section
variable {d e : Dev}

/-! ### Resets (R500) -/

theorem Dev.powerOn_off (h : d.pwr.state = .off) :
    d.powerOn = { (d.cold []).advance (msPs 2) with pwr := { d.pwr with state := .bivouac, fromOff := true } } :=
  if_neg (by rw [h]; decide)

theorem Dev.cold_low {keep : Tbl Word} (hperst : d.host.perstHigh = [])
    (he : e = Dev.loadWhiteout { regs := keep, ps := d.ps, fresh := d.fresh, log := d.log, pwr := d.pwr, bcp := d.bcp.kept, host := {} }) :
    d.cold keep = if d.flag F.FLT_STAT_FAULT_OUT then e.emit (.pin "FAULT_N" 1) else e := by
  unfold Dev.cold
  dsimp only
  rw [hperst, ← he]
  rfl

/-- A system reset of a device in START, RUN or safe state. -/
theorem Dev.sysReset_up (h : d.pwr.state = .start ∨ d.pwr.state = .run ∨ d.pwr.state = .safe)
    (he : e = (d.advance (usPs 10)).cold (keptRegs d.regs)) :
    d.sysReset = { e with pwr := { d.pwr with state := .start, inReset := true, refBad := false } } := by
  rw [he]
  rcases h with h | h | h <;> rw [Dev.sysReset, h]

theorem Dev.sysReset_low (h : d.pwr.state = .off ∨ d.pwr.state = .bivouac) : d.sysReset = { d with pwr.inReset := true } := by
  rcases h with h | h <;> rw [Dev.sysReset, h]

theorem Dev.sysReset_whiteout (h : d.pwr.state = .whiteout) : d.sysReset = d := by
  rw [Dev.sysReset, h]

theorem Dev.resetRelease_bivouac (h : d.pwr.state = .bivouac) (hoff : d.pwr.fromOff = true) (hdown : d.pwr.down = false) :
    d.resetRelease = d.startUp 0 := by
  rw [Dev.resetRelease, h]
  exact if_pos (by rw [hoff, hdown]; rfl)

theorem Dev.resetRelease_start (h : d.pwr.state = .start) (hreset : d.pwr.inReset = true)
    (he : e = Dev.wr { d with pwr.inReset := false } F.PWR_STATE_EXIT_CAUSE 0 2) :
    d.resetRelease = if e.pwr.pg = 0x1F then e.checkRef else e := by
  rw [Dev.resetRelease, h, he]
  exact if_neg (by rw [hreset]; decide)

theorem Dev.wakeN_bivouac (h : d.pwr.state = .bivouac) (hoff : d.pwr.fromOff = false) (hreset : d.pwr.inReset = false)
    (hdown : d.pwr.down = false) : d.wakeN = (d.advance (usPs 10)).startUp 1 :=
  if_neg (by rw [h, hoff, hreset, hdown]; decide)

theorem resetTxns_status {t : Tbl Txn} {e : Nat × Txn} (h : e ∈ resetTxns t) : e.2 = { status := Status.TXN_NONE } := by
  obtain ⟨x, -, hx⟩ := List.mem_filterMap.1 h
  split at hx
  · rw [← Option.some.inj hx]
  · cases hx

/-! ### Rails (R498, R499, R582) -/

section
variable {k n : Nat}

theorem Dev.railRise_due (hdown : d.pwr.down = false) (hen : d.pwr.en.getLsbD k = true) (hpg : d.pwr.pg.getLsbD k = false)
    (he : e = { d with pwr.pg := setRail d.pwr.pg k true }) :
    d.railRise k = if k < 4 then (e.advance (usPs 100)).driveRail (k + 1) true else e.checkRef := by
  rw [he]
  exact if_neg (by rw [hdown, hen, hpg]; decide)

theorem Dev.checkRef_pick (h : d.pick 2 = (n, e)) : d.checkRef = { e with pwr.refBad := n == 1 } := by
  rw [Dev.checkRef, h]

theorem Dev.railStep_due (hdown : d.pwr.down = true) (hdue : d.fallDue k = true) (hpick : d.pick 2 = (n, e)) :
    d.railStep k = if n = 1 then (e.advance (msPs 1)).railsDown else Dev.railsDown { e with pwr.pg := setRail e.pwr.pg k false } := by
  unfold Dev.railStep
  rw [if_neg (by rw [hdown, hdue]; decide), hpick]
  dsimp only
  split <;> rfl

theorem Dev.fallDue_succ : d.fallDue (k + 1) = true ↔ topRail d.pwr.en = some k := by
  unfold Dev.fallDue
  cases topRail d.pwr.en with
  | none => simp
  | some j =>
    simp only [beq_iff_eq, Option.some.injEq, Nat.add_right_cancel_iff]
    exact eq_comm

theorem Dev.fallDue_zero : d.fallDue 0 = true ↔ topRail d.pwr.en = none := by
  unfold Dev.fallDue
  cases topRail d.pwr.en <;> simp

theorem Dev.railsDown_none (h : topRail d.pwr.en = none) : d.railsDown = { d with pwr.down := false, pwr.pg := 0 } := by
  rw [Dev.railsDown, h]

theorem Dev.railsDown_some (h : topRail d.pwr.en = some k) : d.railsDown = { d.driveRail k false with pwr.down := true } := by
  rw [Dev.railsDown, h]

theorem Dev.state_bivouac (d : Dev) : d.bivouac.pwr.state = .bivouac := rfl

theorem Dev.state_railFail (d : Dev) (k kind : Nat) : (d.railFail k kind).pwr.state = .bivouac := Dev.state_bivouac _

theorem Dev.railTimeout_due (h : d.railed = true) (hdown : d.pwr.down = false) (hen : d.pwr.en.getLsbD k = true)
    (hpg : d.pwr.pg.getLsbD k = false) : d.railTimeout k = (d.advance (msPs 10)).railFail k 1 :=
  if_neg (by rw [h, hdown, hen, hpg]; decide)

theorem Dev.railLost_due (h : d.railed = true) (hdown : d.pwr.down = false) (hen : d.pwr.en.getLsbD k = true)
    (hpg : d.pwr.pg.getLsbD k = true) :
    d.railLost k = Dev.railFail { d with pwr.pg := setRail d.pwr.pg k false } k 2 :=
  if_neg (by rw [h, hdown, hen, hpg]; decide)

end

theorem Dev.refRecheck_bad {ok : Bool} (h : d.pwr.state = .start) (hbad : d.pwr.refBad = true) :
    d.refRecheck ok = { d.advance (msPs 1) with pwr.refBad := !ok } :=
  if_neg (by rw [h, hbad]; decide)

/-! ### BIVOUAC (R529) -/

theorem Dev.enterBivouac_allowed (hrun : d.pwr.state = .run) (hmay : d.mayBivouac = true) : d.enterBivouac.1 = d.bivouac := by
  rw [Dev.enterBivouac, if_pos (by simp [hrun, hmay])]

theorem Dev.enterBivouac_ignored (hmay : d.mayBivouac = false) : d.enterBivouac.1 = d := by
  rw [Dev.enterBivouac, if_neg (by simp [hmay])]

theorem Dev.lnk_of_mayBivouac (h : d.mayBivouac = true) {p : Nat} (hp : p ∈ allPorts) : d.lnk p = lsDown := by
  obtain ⟨-, hports⟩ := Bool.and_eq_true_iff.1 h
  exact eq_of_beq (List.all_eq_true.1 hports p hp)

end

/-- Settles O44, an equation of the model's function for each clause. -/
theorem powerStates : Obligations.PowerStates := by
  refine ⟨?powerOn, ?vaonLoss, ?cold, ?reset, ?resetTxns, ?resetLow, ?resetWhiteout, ?releaseUp, ?releaseStart, ?startUp, ?wake,
    ?rise, ?checkRef, ?step, ?fallDue, ?railsDown, ?timeout, ?lost, ?fail, ?recheck, ?enter, ?ignored, ?may⟩
  case powerOn => exact fun s h => next_dark (exec_powerOn s) (Dev.powerOn_off h) (.inl rfl)
  case vaonLoss => exact fun s => next_dark (exec_vaonLoss s) rfl (.inr rfl)
  case cold => exact fun d keep e ⟨hperst, he⟩ => Dev.cold_low hperst he
  case reset =>
    intro s d h hd
    rw [exec_sysReset, execSysReset, Dev.sysReset_up h hd]
    rfl
  case resetTxns => exact fun t e he => resetTxns_status he
  case resetLow =>
    intro s h
    have hlow : ¬ s.dev.pwr.state = .start := by
      rcases h with h | h <;> rw [h] <;> decide
    rw [exec_sysReset, execSysReset, Dev.sysReset_low h, if_neg hlow]
  case resetWhiteout =>
    intro s h
    rw [exec_sysReset, execSysReset, Dev.sysReset_whiteout h, if_neg (by rw [h]; decide)]
  case releaseUp =>
    exact fun s ⟨h, hoff, hdown⟩ => next_dev (exec_sysResetRelease s) (Dev.resetRelease_bivouac h hoff hdown)
  case releaseStart =>
    exact fun s d ⟨h, hreset⟩ hd => next_dev (exec_sysResetRelease s) (Dev.resetRelease_start h hreset hd)
  case startUp => exact fun d cause => rfl
  case wake =>
    exact fun s ⟨h, hoff, hreset, hdown⟩ => next_dev (exec_wakeN s) (Dev.wakeN_bivouac h hoff hreset hdown)
  case rise => exact fun s k d ⟨hdown, hen, hpg⟩ hd => next_dev (exec_railPgRise k s) (Dev.railRise_due hdown hen hpg hd)
  case checkRef => exact fun d e n h => Dev.checkRef_pick h
  case step =>
    exact fun s k n d ⟨hdown, hdue, hpick⟩ => next_dev (exec_railDownStep k s) (Dev.railStep_due hdown hdue hpick)
  case fallDue => exact fun d k => ⟨Dev.fallDue_succ, Dev.fallDue_zero⟩
  case railsDown => exact fun d => ⟨Dev.railsDown_none, fun k => Dev.railsDown_some⟩
  case timeout =>
    exact fun s k ⟨h, hdown, hen, hpg⟩ =>
      next_dark (exec_railPgTimeout k s) (Dev.railTimeout_due h hdown hen hpg) (.inl (Dev.state_railFail _ _ _))
  case lost =>
    exact fun s k ⟨h, hdown, hen, hpg⟩ =>
      next_dark (exec_railPgLost k s) (Dev.railLost_due h hdown hen hpg) (.inl (Dev.state_railFail _ _ _))
  case fail =>
    intro d e k kind he
    rw [he]
    rfl
  case recheck => exact fun s ok ⟨h, hbad⟩ => next_dev (exec_refclkRecheck ok s) (Dev.refRecheck_bad h hbad)
  case enter =>
    exact fun s ⟨hrun, hmay⟩ =>
      next_dark (exec_pwrEnterBivouac s) (Dev.enterBivouac_allowed hrun hmay) (.inl (Dev.state_bivouac _))
  case ignored =>
    exact fun s ⟨hrun, hmay⟩ => (next_powered (exec_pwrEnterBivouac s) (Dev.enterBivouac_ignored hmay)).trans
      (congrArg Host.Outcome.next (powered_of_run hrun))
  case may => exact fun d h p => Dev.lnk_of_mayBivouac h

end Sys2Proof.Machine
end

section
/-! SUPPORT. Images and their checks, boot, firmware's start and swap, staging and activation through a mailbox, and the
management controller (R503 to R510, R520 to R522). -/

namespace Sys2Proof.Machine

/-! ### A new mailbox request (R508) -/

section
variable {d : Dev} {m op : Nat} {f : Dev → Dev}

theorem Dev.mbxServe_execute {is : Nat → Bool} (hwaits : d.mbxWaits m is = true)
    (hseq : judgeSeq (d.rd F.BCP_MBX_CTL_SEQ m) (d.rd F.BCP_MBX_STAT_DONE_SEQ m) = .execute) : d.mbxServe m is f = f d := by
  rw [Dev.mbxServe, hwaits, hseq]
  rfl

/-- A command that serves a new mailbox request. -/
theorem next_mbx {s : State} {e : Dev} {x : Host.Outcome State Fault Refusal} (hexec : x = onMbx s m op f)
    (hnew : s.dev.mbxNew m op) (hf : f s.dev = e) : x = .next (s.powered e) :=
  next_powered hexec ((Dev.mbxServe_execute hnew.1 hnew.2).trans hf)

end

/-! ### The checks of an image (R503, R504) -/

theorem Image.formOk_iff (x : Image) (img : Bool) :
    x.formOk img = true ↔ x.le 0 4 = (if img then 0x5746344C else 0x5242344C) ∧ x.le 4 2 = 1 ∧ x.le 20 44 = 0 ∧
      x.le 209 47 = 0 ∧ x.le 352 3744 = 0 := by
  unfold Image.formOk Image.magic Image.hdrVer
  simp only [Bool.and_eq_true, beq_iff_eq, and_assoc]

theorem Image.lenOk_iff (x : Image) (img : Bool) : x.lenOk img = true ↔ x.le 12 4 % 8 = 0 ∧ x.le 12 4 ≤ codeMax img := by
  unfold Image.lenOk Image.codeLen
  rw [Bool.and_eq_true, beq_iff_eq, decide_eq_true_iff]

theorem Image.sigOk_iff (x : Image) :
    x.sigOk = true ↔ x.le 112 1 = 4 ∧ ecdsaOk (sha384 (x.le 0 256) 256) (bigEnd x.hdr 256 48) (bigEnd x.hdr 304 48)
      (bigEnd x.hdr 113 48) (bigEnd x.hdr 161 48) = true := by
  unfold Image.sigOk
  rw [Bool.and_eq_true, beq_iff_eq]

theorem Dev.authOk_iff (d : Dev) (x : Image) (img : Bool) :
    d.authOk x img = true ↔ x.formOk img = true ∧ Tbl.get d.bcp.keyHash 0 x.keyIdx ≠ 0 ∧ x.keyIdx ∉ d.bcp.revoked ∧
      x.keyDigest = Tbl.get d.bcp.keyHash 0 x.keyIdx ∧ (img = true → d.bcp.rollback ≤ x.rollback) ∧ x.lenOk img = true ∧
      sha384 x.code x.codeLen = x.codeHash ∧ x.sigOk = true := by
  have hrollback : (!img || decide (d.bcp.rollback ≤ x.rollback)) = true ↔ (img = true → d.bcp.rollback ≤ x.rollback) := by
    cases img <;> simp
  have hrevoked : (!d.bcp.revoked.contains x.keyIdx) = true ↔ x.keyIdx ∉ d.bcp.revoked := by
    simp
  unfold Dev.authOk
  simp only [Bool.and_eq_true, beq_iff_eq, bne_iff_ne, hrollback, hrevoked, and_assoc]

section
variable {d e l : Dev} {n : Nat}

/-! ### Boot (R505, R506) -/

theorem Dev.loadBoard_ok (h : d.authOk d.boardRecord false = true) :
    d.loadBoard = { d.boardRails with bcp.subsys := bitsOf d.boardRecord.code 0 32 } := if_pos h

theorem Dev.loadBoard_bad (h : d.authOk d.boardRecord false = false) :
    d.loadBoard = Dev.fault { d with bcp.subsys := 0 } 24 := if_neg (by rw [h]; exact Bool.false_ne_true)

/-- Slot n is loaded and checked in START. -/
theorem Dev.fwLoadDone_start (hstart : d.pwr.state = .start) (hdark : d.dark = false) (hst : d.rd F.BCP_FW_STAT_STATE < 2)
    (hn : n = if d.rd F.BCP_FW_STAT_STATE = 0 then d.bcp.preferred % 2 else d.bcp.loading)
    (hl : l = d.loadCode 0 (d.slotImage n)) :
    d.fwLoadDone =
      if l.authOk (l.slotImage n) true then
        ((l.startImage n 0).wr F.BCP_FW_STAT_FALLBACK 0 (if l.bcp.tried.isEmpty then 0 else 1)).loadBoard
      else if l.bcp.tried.isEmpty then { l.wr F.BCP_FW_STAT_STATE 0 1 with bcp.tried := [n], bcp.loading := 1 - n }
      else { l.wr F.BCP_FW_STAT_STATE 0 4 with bcp.tried := n :: l.bcp.tried } := by
  have hgo : (d.pwr.state != .start || d.dark || decide (2 ≤ d.rd F.BCP_FW_STAT_STATE)) = false := by
    rw [hstart, hdark, decide_eq_false (Nat.not_le.2 hst)]
    rfl
  unfold Dev.fwLoadDone
  dsimp only
  rw [hgo, if_neg Bool.false_ne_true, ← hn, ← hl]

theorem Dev.startImage_eq {r : Nat} (he : e = { d with bcp.region := r }) :
    d.startImage n r = (e.startCore (e.slotImage n).entry 0).runImage n := by
  rw [Dev.startImage, Dev.startCores, ← he, List.foldl_cons, List.foldl_nil]

/-- READY ends START: the first source of severity 2 still pending then takes the device to safe state. -/
theorem Dev.fwReady_boot (hswap : d.bcp.swap = none) (hstart : d.pwr.state = .start) (hdark : d.dark = false)
    (hst : d.rd F.BCP_FW_STAT_STATE = 2) (hready : d.flag F.BCP_FW_STAT_READY 0 = false)
    (he : e = { d.wr F.BCP_FW_STAT_READY 0 1 with pwr.state := .run, flt.safeStart := [] }) :
    d.fwReady = match d.flt.safeStart.filter (fun k => getBits (d.reg R.FLT_STICKY) k 1 == 1) with
      | [] => e.fwResume
      | k :: _ => e.fwResume.enterSafe k := by
  unfold Dev.fwReady
  rw [hdark, if_neg Bool.false_ne_true, hswap]
  dsimp only
  rw [if_neg (by simp [hstart, hst, hready]), ← he] <;> rfl

section
variable {t m : Nat} (hdark : d.dark = false) (hswap : d.bcp.swap = some (n, t, some m))
include hdark hswap

theorem Dev.fwReady_swapped (hnew : (n == d.rd F.BCP_FW_STAT_SLOT) = false)
    (he : e = { d.handLoad.runImage n with bcp.swap := none, bcp.preferred := n, bcp.staged := none }) :
    d.fwReady = (e.mbxDone m Status.OK [0]).fwResume := by
  unfold Dev.fwReady
  rw [hdark, if_neg Bool.false_ne_true, hswap]
  dsimp only
  rw [hnew, if_neg Bool.false_ne_true, if_neg Bool.false_ne_true, he]

theorem Dev.fwReady_kept (hold : (n == d.rd F.BCP_FW_STAT_SLOT) = true)
    (he : e = { d.handLoad.runImage n with bcp.swap := none }) : d.fwReady = (e.mbxDone m Status.OK [1]).fwResume := by
  unfold Dev.fwReady
  rw [hdark, if_neg Bool.false_ne_true, hswap]
  dsimp only
  rw [hold, if_pos rfl, if_pos rfl, he]

end

theorem Dev.fwResume_eq (he : e = (if d.bcp.margin then d.applyMargin else d)) :
    d.fwResume = Dev.serveHeld { e.bcp.alarms.foldl (fun d p => d.alarmAct p) e with bcp.alarms := [] } 16 := by
  unfold Dev.fwResume
  rw [← he]
  rfl

theorem Dev.swapTimeout_due {t : Nat} {m : Option Nat} (hswap : d.bcp.swap = some (n, t, m)) (hdark : d.dark = false)
    (hnew : ¬ n = d.rd F.BCP_FW_STAT_SLOT) (he : e = (d.advanceTo (t + msPs 20)).wr F.BCP_FW_STAT_REVERTED 0 1) :
    d.swapTimeout = Dev.fault { e.startCores (e.rd F.BCP_FW_STAT_SLOT) (1 - e.bcp.region) (List.range 4) with
      bcp.swap := some (e.rd F.BCP_FW_STAT_SLOT, t, m) } 25 := by
  unfold Dev.swapTimeout
  rw [hswap]
  dsimp only
  rw [if_neg (by simp [hdark, hnew]), ← he]

/-! ### Staging (R509, R510) -/

section
variable {m st : Nat} (hnone : d.bcp.stage = none)
include hnone

theorem Dev.mbxStage_long (hlen : 2 ^ 23 < d.mbxWord m 2) : d.mbxStage m = d.mbxDone m Status.ARG [] := by
  rw [Dev.mbxStage, hnone]
  exact if_pos hlen

section
variable (hlen : d.mbxWord m 2 ≤ 2 ^ 23)
  (huse : d.winUse (d.mbxWord m 0) (localPeer (pfOfMbx m) true) rLR (d.mbxWord m 1) (d.mbxWord m 2) = (e, st))
include hlen huse

theorem Dev.mbxStage_refused (hst : st ≠ 0) : d.mbxStage m = e.mbxDone m st [] := by
  rw [Dev.mbxStage, hnone]
  dsimp only
  rw [if_neg (Nat.not_lt.2 hlen), huse]
  exact if_pos (bne_iff_ne.2 hst)

theorem Dev.mbxStage_reads (hst : st = 0) :
    d.mbxStage m = Dev.stageStep { e with
      bcp.stage := some { mbx := m, win := e.mbxWord m 0, off := e.mbxWord m 1, len := e.mbxWord m 2 } } := by
  rw [Dev.mbxStage, hnone]
  dsimp only
  rw [if_neg (Nat.not_lt.2 hlen), huse]
  exact if_neg (fun h => bne_iff_ne.1 h hst)

end
end

section
variable {j : Stage} (hj : d.bcp.stage = some j)
include hj

/-- While an image is being staged a request waits, except the request of that image where safe state has ended its reads. -/
theorem Dev.mbxStage_busy (m : Nat) :
    d.mbxStage m = if j.mbx = m && d.halted then d.stageStop Status.HOST_ERROR else d := by
  rw [Dev.mbxStage, hj]

theorem Dev.stageStop_some (st : Nat) :
    d.stageStop st = Dev.mbxDone { d.disown .stage with bcp.stage := none } j.mbx st [] := by
  rw [Dev.stageStop, hj]

theorem Dev.stageStep_last (hlast : j.len ≤ j.got) :
    d.stageStep = (d.stageImage j.len j.data).1.stageStop (d.stageImage j.len j.data).2 := by
  rw [Dev.stageStep, hj]
  exact if_pos hlast

section
variable {k : Nat} (hk : k = min (4096 - d.winVa j.win (j.off + j.got) % 4096) (j.len - j.got)) (hmore : j.got < j.len)
include hk hmore

theorem Dev.stageStep_fail {st : Nat} (hread : d.winRead .stage j.win (j.off + j.got) k j.got = (e, .fail st)) :
    d.stageStep = e.stageStop st := by
  rw [Dev.stageStep, hj]
  dsimp only
  rw [if_neg (Nat.not_le.2 hmore), ← hk, hread]

theorem Dev.stageStep_read (hread : d.winRead .stage j.win (j.off + j.got) k j.got = (e, .wait) ∨
    d.winRead .stage j.win (j.off + j.got) k j.got = (e, .done)) : d.stageStep = e := by
  rw [Dev.stageStep, hj]
  dsimp only
  rw [if_neg (Nat.not_le.2 hmore), ← hk]
  rcases hread with hread | hread <;> rw [hread]

end
end

theorem Dev.stageImage_eq {len data : Nat} (hn : n = d.idleSlot)
    (he : e = { d with
      bcp.flash := (List.range ((len + 4095) / 4096)).foldl
        (fun t i => Tbl.set 0 (256 + 2048 * n + i) (bitsOf (data % 2 ^ (8 * len)) (32768 * i) 32768) t)
        (d.bcp.flash.filter (fun e => e.1 < 256 + 2048 * n || 256 + 2048 * n + 2048 ≤ e.1)) }) :
    d.stageImage len data =
      if e.authOk (e.slotImage n) true then ({ e with bcp.staged := some n }, 0)
      else ({ e with bcp.staged := none }, Status.AUTH_FAIL) := by
  rw [he, hn]
  rfl

/-! ### Activation (R509, R520) -/

section
variable {m : Nat}

theorem Dev.mbxActivate_swap (hload : d.loadNext d.nextSlot = (l, true)) (himage : ¬ l.rd F.BCP_FW_STAT_STATE = 4) :
    d.mbxActivate m = l.blackout d.nextSlot (some m) := by
  unfold Dev.mbxActivate
  dsimp only
  rw [hload]
  dsimp only
  rw [if_neg (by decide), if_neg himage]

theorem Dev.mbxActivate_fail (hload : d.loadNext d.nextSlot = (l, false)) :
    d.mbxActivate m = l.mbxDone m Status.AUTH_FAIL [] := by
  unfold Dev.mbxActivate
  dsimp only
  rw [hload]
  exact if_pos rfl

theorem Dev.mbxActivate_boot (hload : d.loadNext d.nextSlot = (l, true)) (hnone : l.rd F.BCP_FW_STAT_STATE = 4) :
    d.mbxActivate m = (l.startImage d.nextSlot (1 - l.bcp.region)).loadBoard.mbxDone m Status.OK [0] := by
  unfold Dev.mbxActivate
  dsimp only
  rw [hload]
  dsimp only
  rw [if_neg (by decide), if_pos hnone]

theorem Dev.loadNext_eq (hl : l = d.loadCode (1 - d.bcp.region) (d.slotImage n)) :
    d.loadNext n = (l, l.authOk (l.slotImage n) true) := by
  unfold Dev.loadNext
  rw [← hl]

theorem Dev.blackout_eq {m : Option Nat} {g : Dev} (he : e = { (d.disown .stage).handSave with bcp.stage := none })
    (hg : g = e.startCores n (1 - e.bcp.region) (List.range 4)) :
    d.blackout n m = { g.wr F.BCP_FW_STAT_STATE 0 3 with bcp.swap := some (n, g.ps, m) } := by
  rw [hg, he]
  rfl

end

/-! ### The management controller (R510, R521) -/

theorem Dev.pldm_runs (hdark : d.dark = false) (hswap : d.bcp.swap = none) (hst : d.rd F.BCP_FW_STAT_STATE = 2) :
    d.pldm = d.pldmServe := by
  rw [Dev.pldm, if_neg (by simp [hswap]), if_pos (by simp [Dev.fwRuns, hdark, hst])]

theorem Dev.pldm_held {x : Nat × Nat × Option Nat} (hdark : d.dark = false) (hswap : d.bcp.swap = some x) :
    d.pldm = if d.bcp.mctp < 16 then { d with bcp.mctp := d.bcp.mctp + 1 } else d := by
  rw [Dev.pldm, if_pos (by simp [hdark, hswap])]

end

/-- Settles O45, an equation of the model's function for each clause. -/
theorem bootAndFirmware : Obligations.BootAndFirmware := by
  refine ⟨?loadOk, ?board, ?rails, ?loadNextSlot, ?noImage, ?auth, ?form, ?sig, ?code, ?image, ?core, ?readyBoot, ?readySafe,
    ?readySwapped, ?readyKept, ?resume, ?timeout, ?stage, ?stageWaits, ?stageStep, ?stageStop, ?stageImage, ?actSwap, ?actFail,
    ?next, ?actBoot, ?blackout, ?cores, ?pldm, ?pldmHeld, ?sideband⟩
  case loadOk =>
    intro s n l d e ⟨hstart, hdark, hst, hn, hl⟩ ⟨hauth, hd, he⟩
    rw [he, hd]
    exact next_dev (exec_fwLoadDone s) ((Dev.fwLoadDone_start hstart hdark (by omega) (hn.trans (if_pos hst).symm) hl).trans
      (if_pos hauth))
  case board => exact fun d => ⟨Dev.loadBoard_ok, Dev.loadBoard_bad⟩
  case rails => exact fun d => rfl
  case loadNextSlot =>
    intro s n l ⟨hstart, hdark, hst, hn, hl⟩ ⟨hauth, htried⟩
    exact next_dev (exec_fwLoadDone s) ((Dev.fwLoadDone_start hstart hdark (by omega) (hn.trans (if_pos hst).symm) hl).trans
      ((if_neg (by rw [hauth]; exact Bool.false_ne_true)).trans (if_pos (by rw [htried]; rfl))))
  case noImage =>
    intro s n l ⟨hstart, hdark, hst, hn, hl⟩ ⟨hauth, htried⟩
    exact next_dev (exec_fwLoadDone s) ((Dev.fwLoadDone_start hstart hdark (by omega)
      (hn.trans (if_neg (by omega)).symm) hl).trans
      ((if_neg (by rw [hauth]; exact Bool.false_ne_true)).trans (if_neg (by rw [htried]; exact Bool.false_ne_true))))
  case auth => exact Dev.authOk_iff
  case form => exact fun x img => ⟨x.formOk_iff img, x.lenOk_iff img, rfl⟩
  case sig => exact Image.sigOk_iff
  case code => exact fun d r x => ⟨fun h => if_pos h, fun h => if_neg (by rw [h]; exact Bool.false_ne_true)⟩
  case image => exact fun d n r e he => Dev.startImage_eq he
  case core => exact fun d entry k => rfl
  case readyBoot =>
    intro s d ⟨hswap, hstart, hdark, hst, hready⟩ ⟨hlate, hd⟩
    refine next_powered (exec_fwReady s) ((Dev.fwReady_boot hswap hstart hdark hst hready hd).trans ?_)
    rw [hlate]
  case readySafe =>
    intro s d k l ⟨hswap, hstart, hdark, hst, hready⟩ ⟨hlate, hd⟩
    refine next_powered (exec_fwReady s) ((Dev.fwReady_boot hswap hstart hdark hst hready hd).trans ?_)
    rw [hlate]
  case readySwapped =>
    exact fun s n t m d ⟨hdark, hswap, hnew⟩ hd => next_powered (exec_fwReady s) (Dev.fwReady_swapped hdark hswap hnew hd)
  case readyKept =>
    exact fun s n t m d ⟨hdark, hswap, hold⟩ hd => next_powered (exec_fwReady s) (Dev.fwReady_kept hdark hswap hold hd)
  case resume => exact fun d e he => Dev.fwResume_eq he
  case timeout =>
    exact fun s n t m d ⟨hswap, hdark, hnew⟩ hd => next_dev (exec_fwSwapTimeout s) (Dev.swapTimeout_due hswap hdark hnew hd)
  case stage =>
    intro s m ⟨hnew, hnone⟩
    refine ⟨fun hlen => ?_, fun e st hlen huse hst => ?_, fun e g hlen huse hg => ?_⟩
    · exact next_mbx (exec_mbxFwStage m s) hnew (Dev.mbxStage_long hnone hlen)
    · exact next_mbx (exec_mbxFwStage m s) hnew (Dev.mbxStage_refused hnone hlen huse hst)
    · rw [hg]
      exact next_mbx (exec_mbxFwStage m s) hnew (Dev.mbxStage_reads hnone hlen huse rfl)
  case stageWaits =>
    intro s m j ⟨hnew, hj⟩
    refine ⟨fun hother => ?_, fun hmbx hhalted => ?_⟩
    · have hwait : ¬ (decide (j.mbx = m) && s.dev.halted) = true := by
        rcases hother with h | h <;> simp [h]
      exact next_mbx (exec_mbxFwStage m s) hnew ((Dev.mbxStage_busy hj m).trans (if_neg hwait))
    · exact next_mbx (exec_mbxFwStage m s) hnew ((Dev.mbxStage_busy hj m).trans (if_pos (by simp [hmbx, hhalted])))
  case stageStep =>
    exact fun d j k ⟨hj, hk⟩ => ⟨Dev.stageStep_last hj, fun hmore e st => Dev.stageStep_fail hj hk hmore,
      fun hmore e => Dev.stageStep_read hj hk hmore⟩
  case stageStop => exact fun d j st hj => Dev.stageStop_some hj st
  case stageImage =>
    exact fun d len data g n ⟨hn, hg⟩ => ⟨fun hauth => (Dev.stageImage_eq hn hg).trans (if_pos hauth),
      fun hauth => (Dev.stageImage_eq hn hg).trans (if_neg (by rw [hauth]; exact Bool.false_ne_true))⟩
  case actSwap =>
    exact fun s m l ⟨hnew, hload, himage⟩ => next_mbx (exec_mbxFwActivate m s) hnew (Dev.mbxActivate_swap hload himage)
  case actFail => exact fun s m l ⟨hnew, hload⟩ => next_mbx (exec_mbxFwActivate m s) hnew (Dev.mbxActivate_fail hload)
  case next => exact fun d n l hl => Dev.loadNext_eq hl
  case actBoot =>
    intro s m l d ⟨hnew, hload, hnone⟩ hd
    rw [hd]
    exact next_mbx (exec_mbxFwActivate m s) hnew (Dev.mbxActivate_boot hload hnone)
  case blackout => exact fun d n m e g ⟨he, hg⟩ => Dev.blackout_eq he hg
  case cores => exact fun d n r l => rfl
  case pldm =>
    exact fun s ⟨hdark, hswap, hst⟩ => next_powered (exec_pldmMessage s) (Dev.pldm_runs hdark hswap hst)
  case pldmHeld => exact fun s x ⟨hdark, hswap⟩ => next_powered (exec_pldmMessage s) (Dev.pldm_held hdark hswap)
  case sideband => exact fun s h => next_dev (exec_sidebandRead s) (if_neg h)

end Sys2Proof.Machine
end

section
/-! SUPPORT. Mailbox requests and their opcodes, exception records and the CTL ring (R508 to R515, R529, R541). -/

namespace Sys2Proof.Machine

section
variable {d e : Dev} {m : Nat}

/-! ### A request (R508) -/

section
variable {is : Nat → Bool} {f : Dev → Dev}

theorem Dev.mbxServe_idle (h : d.mbxWaits m is = false) : d.mbxServe m is f = d :=
  if_pos (by rw [h]; rfl)

theorem judgeSeq_next {seq done : Nat} (h : seq = (done + 1) % 2 ^ 16) : judgeSeq seq done = .execute := if_pos h

theorem judgeSeq_same {seq done : Nat} (hnext : seq ≠ (done + 1) % 2 ^ 16) (h : seq = done) : judgeSeq seq done = .repeated :=
  (if_neg hnext).trans (if_pos h)

theorem judgeSeq_wrong {seq done : Nat} (hnext : seq ≠ (done + 1) % 2 ^ 16) (h : seq ≠ done) : judgeSeq seq done = .wrong :=
  (if_neg hnext).trans (if_neg h)

theorem Dev.mbxServe_repeated (hwaits : d.mbxWaits m is = true)
    (hseq : judgeSeq (d.rd F.BCP_MBX_CTL_SEQ m) (d.rd F.BCP_MBX_STAT_DONE_SEQ m) = .repeated) :
    d.mbxServe m is f = d.mbxEnd m := by
  rw [Dev.mbxServe, hwaits, hseq]
  rfl

theorem Dev.mbxServe_wrong (hwaits : d.mbxWaits m is = true)
    (hseq : judgeSeq (d.rd F.BCP_MBX_CTL_SEQ m) (d.rd F.BCP_MBX_STAT_DONE_SEQ m) = .wrong) :
    d.mbxServe m is f = (d.wr F.BCP_MBX_STAT_STATUS m Status.MBX_SEQ).mbxEnd m := by
  rw [Dev.mbxServe, hwaits, hseq]
  rfl

end

/-- Who serves an opcode: the firmware that runs, or the boot ROM for three opcodes. -/
theorem Dev.serves_iff {op : Nat} : d.serves op = true ↔
    (d.fwRuns = true ∨ (d.dark = false ∧ d.rd F.BCP_FW_STAT_STATE = 4 ∧ (op = 1 ∨ op = 3 ∨ op = 4))) := by
  unfold Dev.serves
  simp only [Bool.or_eq_true, Bool.and_eq_true, Bool.not_eq_true', beq_iff_eq, and_assoc, or_assoc]

theorem Dev.mbxWaits_iff {op : Nat} : d.mbxWaits m (fun o => o == op) = true ↔
    d.flag F.BCP_MBX_STAT_BUSY m = true ∧ d.rd F.BCP_MBX_CTL_OPCODE m = op ∧ d.serves op = true := by
  unfold Dev.mbxWaits
  rw [Bool.and_eq_true, Bool.and_eq_true, beq_iff_eq, and_assoc]
  refine and_congr_right fun _ => and_congr_right fun hop => ?_
  rw [hop]

theorem Dev.mbxDone_eq {g : Dev} {st : Nat} {rsp : List Word}
    (he : e = (rsp.mapIdx (fun i v => (i, v))).foldl (fun d x => d.setReg R.BCP_MBX_RSP (m * 16 + x.1) x.2) d)
    (hg : g = (((e.wr F.BCP_MBX_STAT_RSP_WORDS m rsp.length).wr F.BCP_MBX_STAT_STATUS m st).wr F.BCP_MBX_STAT_DONE_SEQ m
      (e.rd F.BCP_MBX_CTL_SEQ m)).wr F.BCP_MBX_STAT_BUSY m 0) :
    d.mbxDone m st rsp = if g.flag F.BCP_MBX_CTL_INT_EN m then g.raise (pfOfMbx m) (g.rd F.BCP_MBX_CTL_INT_NUM m) else g := by
  unfold Dev.mbxDone
  dsimp only
  rw [← he, ← hg]

/-! ### The opcodes (R509) -/

/-- GATE_WRITE with pairs that are well formed and permitted: the firmware refuses it, or applies the pairs as one
transaction of Basecamp. -/
theorem State.mbxGateWrite_pairs {s t : State} {p : Nat} (hcount : s.dev.mbxWord m 0 ≠ 0) (hmax : s.dev.mbxWord m 0 ≤ 7)
    (hpick : s.dev.pick 2 = (p, d)) (hoff : (s.dev.gatePairs m).any (fun e => !gateOffset e.1 || e.1 % 8 != 0) = false)
    (hgate : (s.dev.gatePairs m).any (fun e => (d.gateFail 1 4 none e.1 8 2).isSome) = false)
    (ht : t = (((s.dev.gatePairs m).foldl (fun s (e : Nat × Word) => s.regWrite .bcp 1024 e.1 8 e.2)
      ((s.on d).txnBegin 8)).txnCommit 8).txnApplied 8) :
    s.mbxGateWrite m = if p = 1 then s.on (d.mbxDone m Status.ARG []) else t.on (t.dev.mbxDone m (t.txn 8).status []) := by
  have hguard : (decide (s.dev.mbxWord m 0 = 0) || decide (7 < s.dev.mbxWord m 0) ||
      (s.dev.gatePairs m).any (fun e => !gateOffset e.1 || e.1 % 8 != 0) || decide (p = 1) ||
      (s.dev.gatePairs m).any (fun e => (d.gateFail 1 4 none e.1 8 2).isSome)) = decide (p = 1) := by
    rw [decide_eq_false hcount, decide_eq_false (Nat.not_lt.2 hmax), hoff, hgate, Bool.or_false]
    rfl
  unfold State.mbxGateWrite
  dsimp only
  rw [hpick]
  dsimp only
  rw [hguard, ht]
  by_cases hp : p = 1
  · rw [decide_eq_true hp, if_pos rfl, if_pos hp]
  · rw [decide_eq_false hp, if_neg Bool.false_ne_true, if_neg hp]

section
variable {w : Word} {p n : Nat} (hw : w = d.reg R.BCP_MBX_REQ (m * 16)) (hp : p = getBits w 0 8) (hn : n = getBits w 32 8)
  (hgood : allPorts.contains p = true ∧ d.flag F.PRT_MOD_STAT_PRESENT p = true ∧ ¬ n = 0 ∧ ¬ 64 < n ∧ ¬ 256 < getBits w 24 8 + n)

include hgood in
/-- A MODULE_PAGE request that names a module and bytes of one of its pages is not refused. -/
theorem Dev.mbxModule_inRange : (!allPorts.contains p || !d.flag F.PRT_MOD_STAT_PRESENT p || decide (n = 0) ||
    decide (64 < n) || decide (256 < getBits w 24 8 + n)) = false := by
  obtain ⟨hport, hpresent, hpos, hlen, hpage⟩ := hgood
  simp only [hport, hpresent, hpos, hlen, hpage, Bool.not_true, decide_false, Bool.or_self]

include hw hp hn hgood

theorem Dev.mbxModule_read {v : Nat} (hread : w.getLsbD 40 = false)
    (he : d.cmisRead (p * 2 ^ 24 + getBits w 16 8 * 2 ^ 16 + getBits w 8 8 * 2 ^ 8 + getBits w 24 8) n = (v, e)) :
    d.mbxModule m = (e.modXfer p false (getBits w 16 8) (getBits w 8 8) (getBits w 24 8) n v).mbxDone m Status.OK
      ((List.range ((n + 7) / 8)).map (fun i => BitVec.ofNat 64 (bitsOf v (64 * i) 64))) := by
  unfold Dev.mbxModule
  dsimp only
  rw [← hw, ← hp, ← hn, Dev.mbxModule_inRange hgood, if_neg Bool.false_ne_true, hread, if_neg Bool.false_ne_true, he]

theorem Dev.mbxModule_write {key x : Nat} (hwrite : w.getLsbD 40 = true)
    (hkey : key = p * 2 ^ 24 + getBits w 16 8 * 2 ^ 16 + getBits w 8 8 * 2 ^ 8 + getBits w 24 8)
    (he : e = (List.range n).foldl (fun d i =>
      { d with bcp.cmis := Tbl.put (key + i) (bitsOf (d.mbxWord m (1 + i / 8)) (8 * (i % 8)) 8) d.bcp.cmis }) d)
    (hx : x = (List.range n).foldl (fun v i => v + bitsOf (e.mbxWord m (1 + i / 8)) (8 * (i % 8)) 8 * 2 ^ (8 * i)) 0) :
    d.mbxModule m = Dev.mbxDone (e.modXfer p true (getBits w 16 8) (getBits w 8 8) (getBits w 24 8) n x) m Status.OK [] := by
  unfold Dev.mbxModule
  dsimp only
  rw [← hw, ← hp, ← hn, Dev.mbxModule_inRange hgood, if_neg Bool.false_ne_true, hwrite, if_pos rfl, ← hkey, ← he, ← hx]

end

section
variable {w : Word} (hw : w = d.reg R.BCP_MBX_REQ (m * 16))
include hw

theorem Dev.mbxParam_entry {k : Nat} (hk : k = getBits w 0 8) (hother : k ≠ 240) :
    d.mbxParam m = if w.getLsbD 8 then
        Dev.mbxDone { d with bcp.params := Tbl.set 0 k (d.reg R.BCP_MBX_REQ (m * 16 + 1)) d.bcp.params } m Status.OK []
      else d.mbxDone m Status.OK [Tbl.get d.bcp.params 0 k] := by
  unfold Dev.mbxParam
  dsimp only
  rw [← hw, ← hk, if_neg hother]

theorem Dev.mbxParam_whiteout {src t : Nat} (hk : getBits w 0 8 = 240) (hlog : d.pwr.woLog = some (src, t)) :
    d.mbxParam m = if w.getLsbD 8 then
        Dev.mbxDone { d with pwr.woLog := none, bcp.params := Tbl.del 240 d.bcp.params } m Status.OK []
      else d.mbxDone m Status.OK [BitVec.ofNat 64 (src + 64), BitVec.ofNat 64 t] := by
  unfold Dev.mbxParam
  dsimp only
  rw [← hw, if_pos hk, hlog]

end

theorem Dev.mbxBivouac_eq (d : Dev) (m : Nat) :
    d.mbxBivouac m = if d.pwr.state = .run && d.mayBivouac then d.bivouac else d.mbxDone m Status.ARG [] := by
  unfold Dev.mbxBivouac Dev.enterBivouac
  by_cases hmay : (decide (d.pwr.state = .run) && d.mayBivouac) = true
  · rw [if_pos hmay, if_pos hmay]
  · rw [if_neg hmay, if_neg hmay]

/-! ### Exception records (R511, R512) -/

theorem ExcRec.reply_asked {x : ExcRec} {st v : Word} (h : (x.words.headD 0).getLsbD 16 = true) :
    x.reply st v = some { slot := getBits (x.words.headD 0) 17 10, entry := getBits (x.words.headD 0) 27 4, fn := x.fn,
                          kind := 4, w1 := 0xFFFE, w2 := x.words.getD 1 0, w3 := st, w4 := v } := if_pos h

theorem ExcRec.reply_none {x : ExcRec} {st v : Word} (h : (x.words.headD 0).getLsbD 16 = false) : x.reply st v = none :=
  if_neg (by rw [h]; exact Bool.false_ne_true)

theorem Dev.excServe_rec {f : Nat} {st v : Word} {x : ExcRec} (hfind : d.bcp.exc.find? (fun e => e.fn == f) = some x)
    (hruns : d.fwRuns = true) (he : e = { d with bcp.exc := d.bcp.exc.erase x }) :
    d.excServe f st v = match x.reply st v with
      | some y => e.raiseEvent y
      | none => e := by
  unfold Dev.excServe
  rw [hfind]
  dsimp only
  rw [hruns, if_neg (by decide), ← he] <;> rfl

/-! ### The CTL ring (R513 to R515) -/

theorem Dev.ctlDispatch_placed {x : CtlEnt} (hfind : d.bcp.ring.find? CtlEnt.forFn = some x) (hdark : d.dark = false)
    (hon : d.fnOn x.cell.dstFn = true) (hplace : d.placeEvent (d.ctlEvent x.cell) = (e, true)) :
    d.ctlDispatch = { e with bcp := { e.bcp with ring := e.bcp.ring.erase x } } := by
  unfold Dev.ctlDispatch
  rw [hfind]
  dsimp only
  rw [hdark, if_neg Bool.false_ne_true, hon, if_neg (by decide), hplace]
  rfl

theorem Dev.ctlDispatch_off {x : CtlEnt} (hfind : d.bcp.ring.find? CtlEnt.forFn = some x) (hdark : d.dark = false)
    (hoff : d.fnOn x.cell.dstFn = false) :
    d.ctlDispatch = Dev.bump { d with bcp := { d.bcp with ring := d.bcp.ring.erase x } } F.BCP_CTL_STAT_FN_DROP := by
  unfold Dev.ctlDispatch
  rw [hfind]
  dsimp only
  rw [hdark, if_neg Bool.false_ne_true, hoff]
  rfl

theorem Dev.fwTake_off (h : d.fwRuns = false) : d.fwTake = d := if_pos (by rw [h]; rfl)

theorem Dev.fwTake_runs {own : List CtlEnt} {n : Nat} (h : d.fwRuns = true) (hown : own = d.bcp.ring.filter (fun x => !x.forFn))
    (hpick : d.pick (own.length + 1) = (n, e)) :
    d.fwTake = { e with bcp.ring := e.bcp.ring.filter (fun x => !(own.take n).contains x) } := by
  unfold Dev.fwTake
  dsimp only
  rw [h, if_neg (by decide), ← hown, hpick]

theorem Dev.ctlSend_room {c x : Cell} (hruns : d.fwRuns = true)
    (hroom : ¬ 512 ≤ d.bcp.ctlOut + (d.bcp.ring.filter (fun e => e.kind == 2)).length)
    (hx : x = (((c.setBits 44 4 12).setBits 32 12 0xFFF).setBits 28 4 0).setBits 26 2 0) :
    d.ctlSend c = { d with
      sch.ctl := d.sch.ctl ++
        [{ cell := x, fn := x.dstFn, cls := 3, retx := false, slot := none, own := true, col := none, last := true }]
      bcp.ctlOut := d.bcp.ctlOut + 1 } := by
  unfold Dev.ctlSend
  dsimp only
  rw [if_neg (by simp [hruns, hroom]), ← hx]

end

/-- Settles O46, an equation of the model's function for each clause. -/
theorem mailboxesAndManagement : Obligations.MailboxesAndManagement := by
  refine ⟨?serve, ?waits, ?done, ?info, ?gateWrite, ?rollback, ?revoke, ?pageRead, ?pageWrite, ?param, ?whiteout, ?bivouac,
    ?other, ?exc, ?dispatch, ?take, ?dispatchOff, ?send⟩
  case serve =>
    exact fun d m is f => ⟨Dev.mbxServe_idle, fun hwaits hnext => Dev.mbxServe_execute hwaits (judgeSeq_next hnext),
      fun hwaits hnext hsame => Dev.mbxServe_repeated hwaits (judgeSeq_same hnext hsame),
      fun hwaits hnext hother => Dev.mbxServe_wrong hwaits (judgeSeq_wrong hnext hother)⟩
  case waits =>
    intro d m op
    rw [Dev.mbxWaits_iff, Dev.serves_iff]
  case done =>
    exact fun d e g m st rsp he hg => ⟨fun hint => (Dev.mbxDone_eq he hg).trans (if_pos hint),
      fun hint => (Dev.mbxDone_eq he hg).trans (if_neg (by rw [hint]; exact Bool.false_ne_true))⟩
  case info => exact fun s m hnew => next_mbx (exec_mbxGetInfo m s) hnew rfl
  case gateWrite =>
    intro s m p d t ⟨⟨hwaits, hseq⟩, hphase, hcount, hmax, hpick⟩ ⟨hoff, hgate⟩ ht
    rw [exec_mbxGateWrite, execMbxGateWrite, hwaits, hseq, if_pos (by decide), if_pos hphase, State.mbxGateWrite_pairs hcount hmax hpick hoff hgate ht]
  case rollback => exact fun s m hnew => next_mbx (exec_mbxFuseRollback m s) hnew rfl
  case revoke =>
    intro s m k ⟨hnew, hk⟩
    rw [hk]
    exact next_mbx (exec_mbxKeyRevoke m s) hnew rfl
  case pageRead =>
    exact fun s m w p n v d ⟨hnew, hw, hp, hn⟩ ⟨hport, hpresent, hpos, hlen, hpage, hread⟩ hd =>
      next_mbx (exec_mbxModulePage m s) hnew (Dev.mbxModule_read hw hp hn ⟨hport, hpresent, hpos, hlen, hpage⟩ hread hd)
  case pageWrite =>
    exact fun s m w p n key x d ⟨hnew, hw, hp, hn⟩ ⟨hport, hpresent, hpos, hlen, hpage, hwrite⟩ hkey hd hx =>
      next_mbx (exec_mbxModulePage m s) hnew
        (Dev.mbxModule_write hw hp hn ⟨hport, hpresent, hpos, hlen, hpage⟩ hwrite hkey hd hx)
  case param =>
    exact fun s m w k ⟨hnew, hw, hk, hother⟩ => next_mbx (exec_mbxParam m s) hnew (Dev.mbxParam_entry hw hk hother)
  case whiteout =>
    exact fun s m w src t ⟨hnew, hw, hk, hlog⟩ => next_mbx (exec_mbxParam m s) hnew (Dev.mbxParam_whiteout hw hk hlog)
  case bivouac => exact fun s m hnew => next_mbx (exec_mbxBivouac m s) hnew (s.dev.mbxBivouac_eq m)
  case other =>
    exact fun s m ⟨hwaits, hseq⟩ => next_powered (exec_mbxOtherOpcode m s) (Dev.mbxServe_execute hwaits hseq)
  case exc =>
    intro s f st v x d ⟨hfind, hruns, hd⟩
    have hserve := next_dev (exec_excServe f st v s) (Dev.excServe_rec hfind hruns hd)
    refine ⟨fun hasked => ?_, fun hasked => ?_⟩
    · rw [hserve, ExcRec.reply_asked hasked]
    · rw [hserve, ExcRec.reply_none hasked]
  case dispatch =>
    intro s e g d hg ⟨hfind, hdark, hon, hplace⟩
    rw [hg] at hfind hdark hon hplace
    exact next_dev (exec_ctlDispatch s) (Dev.ctlDispatch_placed hfind hdark hon hplace)
  case take =>
    exact fun d => ⟨Dev.fwTake_off, fun own n e hruns hown hpick => Dev.fwTake_runs hruns hown hpick⟩
  case dispatchOff =>
    intro s e g hg ⟨hfind, hdark, hoff⟩
    rw [hg] at hfind hdark hoff ⊢
    exact next_dev (exec_ctlDispatch s) (Dev.ctlDispatch_off hfind hdark hoff)
  case send => exact fun s c x ⟨hruns, hroom, hx⟩ => next_dev (exec_ctlSend c s) (Dev.ctlSend_room hruns hroom hx)

end Sys2Proof.Machine
end
